-- ==== Sys2Proof/Word.lean ====
section
/-! DEFINITION. The words the module's registers, instruction words and memories are made of (R10, R33, R97). -/

namespace Sys2Proof

/-- A register, an instruction word or an operand of 64 bits. -/
abbrev Word := BitVec 64

/-- One byte of a scratchpad, of the slow tier or of companion memory. -/
abbrev Byte := BitVec 8

/-- The contents of one vector register (R100). -/
abbrev VWord := BitVec 1024

end Sys2Proof
end

