-- ==== Sys2Proof/Syntax.lean ====
section
/-! DEFINITION. The commands the module takes, with their operands: one constructor for each row of
spec/opcode_table.json. An index of a unit is bounded by its type, so no command names a unit outside the module (R18);
instruction words carry all their fields, reserved ones included, so that an illegal word can be said (R97, R101). -/

namespace Sys2Proof

/-- Logical core index (R18). -/
abbrev CoreId := Fin 81920
/-- Croft index (R18). -/
abbrev CroftId := Fin 256
/-- Tabko index T0-T47. -/
abbrev TabkoId := Fin 48
/-- Bellon port index B0-B15. -/
abbrev PortId := Fin 16
/-- Threshing floor: 0 West, 1 East (R25). -/
abbrev FloorId := Fin 2
/-- Enclosure E0-E15 (R263). -/
abbrev EnclId := Fin 16
/-- Furrow segment (R142). -/
abbrev SegId := Fin 256
/-- Holding H0-H15 (R18). -/
abbrev HoldId := Fin 16
/-- Drill D0-D3 of a core. -/
abbrev DrillId := Fin 4
/-- Gate G0-G7 of a core (R129). -/
abbrev GateId := Fin 8
/-- Event ring: 0-15 enclosures, 16 steading (R487). -/
abbrev RingId := Fin 17
/-- Power domain as PWR_DOM numbers it: 0-15 holdings, 16 MP, 17 FW, 18 FE (R429). -/
abbrev DomId := Fin 19

/-- Who writes a register: the steading, the companion through the window, or a core's own hand. -/
inductive Requester where
  | steading
  | companion
  | hand (core : CoreId)
  deriving DecidableEq, Repr

/-- The fields of a hand instruction word below UNIT and OP (R97). -/
structure HandWord where
  /-- HD, bits [51:47]. -/
  hd : BitVec 5
  /-- HS1, bits [46:42]. -/
  hs1 : BitVec 5
  /-- HS2, bits [41:37]. -/
  hs2 : BitVec 5
  /-- Reserved bits [36:32]. -/
  rsv : BitVec 5
  /-- IMM, bits [31:0]. -/
  imm : BitVec 32
  deriving DecidableEq, Repr

/-- The fields of a vector instruction word below UNIT and OP (R101). -/
structure VecWord where
  /-- TYPE, bits [51:49]. -/
  ty : BitVec 3
  /-- VD, bits [48:44]. -/
  vd : BitVec 5
  /-- VS1, bits [43:39]. -/
  vs1 : BitVec 5
  /-- VS2, bits [38:34]. -/
  vs2 : BitVec 5
  /-- VS3, bits [33:29]. -/
  vs3 : BitVec 5
  /-- BC, bit [28]. -/
  bc : BitVec 1
  /-- IMM, bits [27:16]. -/
  imm : BitVec 12
  /-- Reserved bits [15:0]. -/
  rsv : BitVec 16
  deriving DecidableEq, Repr

/-- The fields of an AMMA word (R49). -/
structure AmmaWord where
  /-- FMTA, bits [55:52]. -/
  fmta : BitVec 4
  /-- FMTB, bits [51:48]. -/
  fmtb : BitVec 4
  /-- HA, bits [47:43]. -/
  ha : BitVec 5
  /-- HB, bits [42:38]. -/
  hb : BitVec 5
  /-- BIN, bit [37]. -/
  bin : BitVec 1
  /-- ZERO, bit [36]. -/
  zero : BitVec 1
  /-- TA, bit [35]. -/
  ta : BitVec 1
  /-- TB, bit [34]. -/
  tb : BitVec 1
  /-- SRCA, bit [33]. -/
  srca : BitVec 1
  /-- SRCB, bit [32]. -/
  srcb : BitVec 1
  /-- TILES, bits [31:21]. -/
  tiles : BitVec 11
  /-- Reserved bits [20:0]. -/
  rsv : BitVec 21
  deriving DecidableEq, Repr

/-- The fields of an ADRAIN word (R50). -/
structure AdrainWord where
  /-- FMTO, bits [55:52]. -/
  fmto : BitVec 4
  /-- HD, bits [51:47]. -/
  hd : BitVec 5
  /-- BIN, bit [46]. -/
  bin : BitVec 1
  /-- RND, bits [45:44]. -/
  rnd : BitVec 2
  /-- SAT, bit [43]. -/
  sat : BitVec 1
  /-- TALLY, bit [42]. -/
  tally : BitVec 1
  /-- Reserved bits [41:0]. -/
  rsv : BitVec 42
  deriving DecidableEq, Repr

/-- The fields of an AEMIT word (R51). -/
structure AemitWord where
  /-- BIN, bit [55]. -/
  bin : BitVec 1
  /-- FLOOR, bit [54]. -/
  floor : BitVec 1
  /-- SHEAF, bits [53:38]. -/
  sheaf : BitVec 16
  /-- TILE, bits [37:22]. -/
  tile : BitVec 16
  /-- Reserved bits [21:0]. -/
  rsv : BitVec 22
  deriving DecidableEq, Repr

/-- What the array adds to a tile's products at its verdict (R37, R60): the sums the edge adders formed for a float tile, where they
are not the FP32 sums in ascending order, and the cells that a fault has disturbed. -/
structure CheckCells where
  /-- The North adder's FP32 sum over the columns of B, by K position; the positions past the list are summed in FP32. -/
  north : List (BitVec 32)
  /-- The West adder's FP32 sum over the rows of A. -/
  west : List (BitVec 32)
  /-- Disturbed cells: physical row 0-17, physical column 0-16, and the value held. -/
  faults : List (Fin 18 × Fin 17 × Word)
  deriving DecidableEq, Repr

/-- A tile has at most 64 K positions (R38). -/
def CheckCells.wellFormed (c : CheckCells) : Bool := decide (c.north.length ≤ 64) && decide (c.west.length ≤ 64)

/-- The fields of a furrow instruction word (R157). -/
structure FurWord where
  /-- FMT, bits [55:52]. -/
  fmt : BitVec 4
  /-- LANE, bit [51]. -/
  lane : BitVec 1
  /-- TRANS, bit [50]. -/
  trans : BitVec 1
  /-- HS or HD, bits [49:45]. -/
  hs : BitVec 5
  /-- HB, bits [44:40]. -/
  hb : BitVec 5
  /-- TILES, bits [39:29]. -/
  tiles : BitVec 11
  /-- Reserved bits [28:0]. -/
  rsv : BitVec 29
  deriving DecidableEq, Repr

/-- The fields of a drill instruction word (R204). -/
structure DrillWord where
  /-- D, bits [55:54]. -/
  d : BitVec 2
  /-- HS, bits [53:49]. -/
  hs : BitVec 5
  /-- MODE of a DWAIT, reserved in a DARM, bit [48]. -/
  mode : BitVec 1
  /-- Reserved bits [47:0]. -/
  rsv : BitVec 48
  deriving DecidableEq, Repr

/-- The fields of a sync instruction word (R237). -/
structure SyncWord where
  /-- HD, bits [55:51]. -/
  hd : BitVec 5
  /-- HS, bits [50:46]. -/
  hs : BitVec 5
  /-- CNT, bits [45:43]. -/
  cnt : BitVec 3
  /-- Reserved bits [42:0]. -/
  rsv : BitVec 43
  deriving DecidableEq, Repr

/-- A parity failure on a link (R478): none, the header flit, or one payload beat. -/
inductive LinkFault where
  | none
  | header
  | payload (beat : Fin 8)
  deriving DecidableEq, Repr

/-- Where a response arrives (R203): a core or its harrow, a landing port, a floor entry at an edge row. -/
inductive Requestee where
  | core (core : CoreId)
  | port (tabko : TabkoId)
  | floor (floor : FloorId) (row : Fin 256)
  deriving DecidableEq, Repr

/-- A Bellon frame as it arrives on a port (R358), its TYPE and CLASS said by the command. -/
structure LinkFrame where
  lane : Fin 2
  /-- Floor that takes it at its destination. -/
  floor : FloorId
  dst : BitVec 14
  src : BitVec 14
  seq : BitVec 16
  ack : BitVec 16
  hops : BitVec 8
  body : List Byte
  deriving DecidableEq, Repr

/-- What a croft reports at a bell (R225, R227, R241): its sampling of the bell, 20 standing for none, one unit each; periods
stretched by 25 % and by 50 % in the ending interval; replicas that reported WARN or URGENT. -/
structure BellReport where
  croft : CroftId
  sample : Fin 41
  s25 : BitVec 16
  s50 : BitVec 16
  warn : BitVec 8
  deriving DecidableEq, Repr

/-- What a port reports at a bell (R371, R373, R375): codewords corrected and uncorrectable in the ending interval, temperature,
least transmit and receive power. -/
structure PortReport where
  port : PortId
  corr : BitVec 32
  bad : BitVec 16
  temp : BitVec 8
  tx : BitVec 8
  rx : BitVec 8
  deriving DecidableEq, Repr

/-- Sensors of a holding in the ending interval (R429): highest junction temperature, core rail current, core supply. -/
structure HoldReport where
  hold : HoldId
  tj : BitVec 8
  amps : BitVec 12
  mv : BitVec 16
  deriving DecidableEq, Repr

/-- A Tabko in the ending interval (R304, R306): revolutions of its channel 0, frames of its link replayed. -/
structure TabkoReport where
  tabko : TabkoId
  revs : BitVec 32
  replays : BitVec 16
  deriving DecidableEq, Repr

/-- Sensors of the module in the ending interval (R306, R429, R508). -/
structure Sensors where
  watts : BitVec 16
  volts : BitVec 12
  amps : BitVec 12
  /-- Voltages of the four stud pairs, 0.1 V. -/
  studs : List (BitVec 16)
  /-- Currents of the four stud pairs, A (R425). -/
  pairs : List (BitVec 16)
  holds : List HoldReport
  tabkos : List TabkoReport
  deriving DecidableEq, Repr

/-- The header of a Yosal flit (R380). -/
structure FlitHeader where
  /-- SEQ, bits [11:0]. -/
  seq : BitVec 12
  /-- ACK, bits [23:12]. -/
  ack : BitVec 12
  /-- NAK, bit [24]. -/
  nak : Bool
  /-- CVC, bits [27:25]. -/
  cvc : BitVec 3
  /-- CCOUNT, bits [39:28]. -/
  ccount : BitVec 12
  deriving DecidableEq, Repr

/-- The commands of the module: one constructor for each row of the table of operations and events, each one
indivisible step. -/
inductive Instr where
  /-- REGISTER_WRITE (R12). A write to a register field that has no row of its own takes effect by its access code, or is ignored. -/
  | registerWrite (who : Requester) (mpa : BitVec 48) (value : Word)
  /-- GATE_STAT_READ (R141). A read of GATE_STAT returns STALE and then clears it. -/
  | gateStatRead (core : CoreId) (gate : GateId)
  /-- GCR_LOST_READ (R141). A read of GCR_LOST returns the count of discarded grants and then clears it. -/
  | gcrLostRead (core : CoreId)
  /-- LAG_COUNT_READ (R241). A read of LAG_COUNT returns LAGS and then clears it. -/
  | lagCountRead (croft : CroftId)
  /-- ADD (R98). The hand adds two registers modulo 2^64. -/
  | add (core : CoreId) (w : HandWord)
  /-- SUB (R98). The hand subtracts two registers modulo 2^64. -/
  | sub (core : CoreId) (w : HandWord)
  /-- AND (R98). The hand forms the bitwise AND of two registers. -/
  | and (core : CoreId) (w : HandWord)
  /-- OR (R98). The hand forms the bitwise OR of two registers. -/
  | or (core : CoreId) (w : HandWord)
  /-- XOR (R98). The hand forms the bitwise XOR of two registers. -/
  | xor (core : CoreId) (w : HandWord)
  /-- SHL (R98). The hand shifts a register left by hs2[5:0]. -/
  | shl (core : CoreId) (w : HandWord)
  /-- SHR (R98). The hand shifts a register right logically by hs2[5:0]. -/
  | shr (core : CoreId) (w : HandWord)
  /-- SRA (R98). The hand shifts a register right arithmetically by hs2[5:0]. -/
  | sra (core : CoreId) (w : HandWord)
  /-- SLT (R98). The hand sets hd to 1 when hs1 is less than hs2, signed. -/
  | slt (core : CoreId) (w : HandWord)
  /-- SLTU (R98). The hand sets hd to 1 when hs1 is less than hs2, unsigned. -/
  | sltu (core : CoreId) (w : HandWord)
  /-- MUL (R98). The hand writes the low 64 bits of a product, usable three cycles later. -/
  | mul (core : CoreId) (w : HandWord)
  /-- ADDI (R98). The hand adds the sign-extended immediate to a register. -/
  | addi (core : CoreId) (w : HandWord)
  /-- ANDI (R98). The hand ANDs a register with the sign-extended immediate. -/
  | andi (core : CoreId) (w : HandWord)
  /-- ORI (R98). The hand ORs a register with the sign-extended immediate. -/
  | ori (core : CoreId) (w : HandWord)
  /-- SHLI (R98). The hand shifts a register left by IMM[5:0]. -/
  | shli (core : CoreId) (w : HandWord)
  /-- SHRI (R98). The hand shifts a register right logically by IMM[5:0]. -/
  | shri (core : CoreId) (w : HandWord)
  /-- SRAI (R98). The hand shifts a register right arithmetically by IMM[5:0]. -/
  | srai (core : CoreId) (w : HandWord)
  /-- LIH (R98). The hand loads the immediate into the upper 32 bits, keeping hs1's lower half. -/
  | lih (core : CoreId) (w : HandWord)
  /-- LD (R111). The hand loads 8 bytes from its scratchpad through slot 3. -/
  | ld (core : CoreId) (w : HandWord)
  /-- ST (R111). The hand stores 8 bytes into its scratchpad through slot 5. -/
  | st (core : CoreId) (w : HandWord)
  /-- LDW (R111). The hand loads 4 bytes, zero-extended, through slot 3. -/
  | ldw (core : CoreId) (w : HandWord)
  /-- STW (R111). The hand stores 4 bytes through slot 5. -/
  | stw (core : CoreId) (w : HandWord)
  /-- CSRR (R98). The hand reads one of its own core's CSRs. -/
  | csrr (core : CoreId) (w : HandWord)
  /-- CSRW (R99). The hand writes one of its own core's CSRs, effective at the end of the issue cycle. -/
  | csrw (core : CoreId) (w : HandWord)
  /-- BEQ (R99). The hand branches when the two registers are equal. -/
  | beq (core : CoreId) (w : HandWord)
  /-- BNE (R99). The hand branches when the two registers differ. -/
  | bne (core : CoreId) (w : HandWord)
  /-- BLT (R99). The hand branches when hs1 is less than hs2, signed. -/
  | blt (core : CoreId) (w : HandWord)
  /-- BGE (R99). The hand branches when hs1 is at least hs2, signed. -/
  | bge (core : CoreId) (w : HandWord)
  /-- BLTU (R99). The hand branches when hs1 is less than hs2, unsigned. -/
  | bltu (core : CoreId) (w : HandWord)
  /-- JAL (R99). The hand saves PC + 1 and jumps by the immediate. -/
  | jal (core : CoreId) (w : HandWord)
  /-- JR (R99). The hand saves PC + 1 and jumps to a register. -/
  | jr (core : CoreId) (w : HandWord)
  /-- VSETVL (R100). The hand sets VL to the minimum of hs1 and VLMAX of the width. -/
  | vsetvl (core : CoreId) (w : HandWord)
  /-- HALT (R116). The core halts with CAUSE 1 and its drills run on. The operand is the word: HALT's, or one with a reserved operation,
  which no row issues and which halts the core too (R55, R115, R237). -/
  | halt (core : CoreId) (w : Word)
  /-- VADD (R102). The vector engine adds integer lanes with wrap. -/
  | vadd (core : CoreId) (w : VecWord)
  /-- VSUB (R102). The vector engine subtracts integer lanes with wrap. -/
  | vsub (core : CoreId) (w : VecWord)
  /-- VADDS (R103). The vector engine adds integer lanes with saturation. -/
  | vadds (core : CoreId) (w : VecWord)
  /-- VSUBS (R103). The vector engine subtracts integer lanes with saturation. -/
  | vsubs (core : CoreId) (w : VecWord)
  /-- VMULS (R103). The vector engine multiplies integer lanes with saturation. -/
  | vmuls (core : CoreId) (w : VecWord)
  /-- VMUL (R102). The vector engine keeps the low w bits of integer lane products. -/
  | vmul (core : CoreId) (w : VecWord)
  /-- VMIN (R102). The vector engine takes the integer minimum per lane. -/
  | vmin (core : CoreId) (w : VecWord)
  /-- VMAX (R102). The vector engine takes the integer maximum per lane. -/
  | vmax (core : CoreId) (w : VecWord)
  /-- VAND (R102). The vector engine forms a lane-wise bitwise AND. -/
  | vand (core : CoreId) (w : VecWord)
  /-- VOR (R102). The vector engine forms a lane-wise bitwise OR. -/
  | vor (core : CoreId) (w : VecWord)
  /-- VXOR (R102). The vector engine forms a lane-wise bitwise XOR. -/
  | vxor (core : CoreId) (w : VecWord)
  /-- VANDN (R102). The vector engine forms vs1 AND NOT vs2 per lane. -/
  | vandn (core : CoreId) (w : VecWord)
  /-- VSHL (R102). The vector engine shifts integer lanes left. -/
  | vshl (core : CoreId) (w : VecWord)
  /-- VSHR (R102). The vector engine shifts integer lanes right logically. -/
  | vshr (core : CoreId) (w : VecWord)
  /-- VSRA (R102). The vector engine shifts integer lanes right, arithmetic for signed types. -/
  | vsra (core : CoreId) (w : VecWord)
  /-- VSHLS (R102). The vector engine shifts integer lanes left with saturation. -/
  | vshls (core : CoreId) (w : VecWord)
  /-- VSRAR (R102). The vector engine shifts integer lanes right with rounding. -/
  | vsrar (core : CoreId) (w : VecWord)
  /-- VCEQ (R102). The vector engine sets lanes to all ones where vs1 equals vs2. -/
  | vceq (core : CoreId) (w : VecWord)
  /-- VCLT (R102). The vector engine sets lanes to all ones where vs1 is less than vs2. -/
  | vclt (core : CoreId) (w : VecWord)
  /-- VCLE (R102). The vector engine sets lanes to all ones where vs1 is at most vs2. -/
  | vcle (core : CoreId) (w : VecWord)
  /-- VSEL (R102). The vector engine selects vs1 or vs2 per lane by vs3. -/
  | vsel (core : CoreId) (w : VecWord)
  /-- VFADD (R104). The vector engine adds float lanes with one rounding. -/
  | vfadd (core : CoreId) (w : VecWord)
  /-- VFSUB (R104). The vector engine subtracts float lanes with one rounding. -/
  | vfsub (core : CoreId) (w : VecWord)
  /-- VFMUL (R104). The vector engine multiplies float lanes with one rounding. -/
  | vfmul (core : CoreId) (w : VecWord)
  /-- VFMA (R104). The vector engine computes vs1 × vs2 + vs3 with one rounding. -/
  | vfma (core : CoreId) (w : VecWord)
  /-- VFNMA (R104). The vector engine computes −(vs1 × vs2) + vs3 with one rounding. -/
  | vfnma (core : CoreId) (w : VecWord)
  /-- VFMIN (R102). The vector engine takes the float minimum per lane. -/
  | vfmin (core : CoreId) (w : VecWord)
  /-- VFMAX (R102). The vector engine takes the float maximum per lane. -/
  | vfmax (core : CoreId) (w : VecWord)
  /-- VFSGN (R102). The vector engine writes the sign of each float lane. -/
  | vfsgn (core : CoreId) (w : VecWord)
  /-- VFABS (R102). The vector engine clears the sign of each float lane. -/
  | vfabs (core : CoreId) (w : VecWord)
  /-- VFNEG (R102). The vector engine inverts the sign of each float lane. -/
  | vfneg (core : CoreId) (w : VecWord)
  /-- VEXP2 (R105). The vector engine approximates 2^x per lane. -/
  | vexp2 (core : CoreId) (w : VecWord)
  /-- VLOG2 (R105). The vector engine approximates log2 x per lane. -/
  | vlog2 (core : CoreId) (w : VecWord)
  /-- VRCP (R105). The vector engine approximates 1/x per lane. -/
  | vrcp (core : CoreId) (w : VecWord)
  /-- VRSQ (R105). The vector engine approximates 1/sqrt x per lane. -/
  | vrsq (core : CoreId) (w : VecWord)
  /-- VCVT (R106). The vector engine converts lanes between formats by PART, RND and SAT. -/
  | vcvt (core : CoreId) (w : VecWord)
  /-- VMXQ (R107). The vector engine quantises lanes into MX groups with scale bytes. -/
  | vmxq (core : CoreId) (w : VecWord)
  /-- VMXE (R107). The vector engine expands MX groups into BF16 lanes. -/
  | vmxe (core : CoreId) (w : VecWord)
  /-- VPERM (R108). The vector engine permutes lanes by an index vector, zeroing lanes whose index is out of range. -/
  | vperm (core : CoreId) (w : VecWord)
  /-- VRSUM (R109). The vector engine sums lanes by a fixed pairwise tree into lane 0. -/
  | vrsum (core : CoreId) (w : VecWord)
  /-- VRMAX (R109). The vector engine takes the maximum over the lanes into lane 0. -/
  | vrmax (core : CoreId) (w : VecWord)
  /-- VINS (R102). The vector engine inserts a hand register into one lane. -/
  | vins (core : CoreId) (w : VecWord)
  /-- VEXT (R102). The vector engine extracts one lane into a hand register. -/
  | vext (core : CoreId) (w : VecWord)
  /-- VLD (R110). The vector engine loads contiguous or strided elements through slots 3 and 4. -/
  | vld (core : CoreId) (w : VecWord)
  /-- VST (R110). The vector engine stores contiguous or strided elements through slot 5. -/
  | vst (core : CoreId) (w : VecWord)
  /-- AMMA (R49). The hand issues a multiply-accumulate of TILES tiles into a bin, checked at issue by R55. -/
  | amma (core : CoreId) (w : AmmaWord)
  /-- ADRAIN (R50). The hand issues a conversion of a bin into the scratchpad. -/
  | adrain (core : CoreId) (w : AdrainWord)
  /-- AEMIT (R51). The hand issues an emission of a bin as a gradient tile towards a floor. -/
  | aemit (core : CoreId) (w : AemitWord)
  /-- AFENCE (R52). The hand holds until earlier array instructions are complete. -/
  | afence (core : CoreId) (rsv : BitVec 56)
  /-- AFENCE_RELEASE (R52). One cycle after the last merge, write or bin read of the earlier array instructions, the hand is released. -/
  | afenceRelease (core : CoreId)
  /-- ARRAY_DISPATCH (R53). An instruction at the queue head moves to its engine once that engine's pending place is free. -/
  | arrayDispatch (core : CoreId)
  /-- ARRAY_ENGINE_START (R53). An engine starts its pending instruction after its running one ends and the bin interlocks of R54 allow. -/
  | arrayEngineStart (core : CoreId) (readOut : Bool) (sub : Fin 8)
  /-- TILE_VERDICT (R60). At stage 8 a tile's partial is compared with its checksums and, on a pass, merges into its bin. -/
  | tileVerdict (core : CoreId) (cells : CheckCells) (sub : Fin 8)
  /-- TILE_RERUN_VERDICT (R64). The re-run tile takes a fresh verdict and merges, or halts the core on a second failure. -/
  | tileRerunVerdict (core : CoreId) (cells : CheckCells)
  /-- ARRAY_COOL (R57). After 64 cycles without an accepted step the array becomes cold. -/
  | arrayCool (core : CoreId)
  /-- ARR_REPAIR_COMMIT (R69). The steading commits the staged array repair fields of a halted core, or raises CFG_MISMATCH. -/
  | arrRepairCommit (core : CoreId)
  /-- TLY_BIND (R88). A write to TLY_BIND_n holds the hand until the earlier observing drains have ended. -/
  | tlyBind (core : CoreId) (n : Fin 4) (value : Word)
  /-- TLY_BIND_APPLY (R88). Once the hold ends, the bound slot is flushed to the emission path and the new binding takes effect. -/
  | tlyBindApply (core : CoreId)
  /-- FINJ (R152). The hand arms an entry of tiles on one furrow lane from a ring beat. -/
  | finj (core : CoreId) (w : FurWord) (sub : Fin 8)
  /-- FCAP (R155). The hand arms a capture of tiles from one furrow lane into the scratchpad. -/
  | fcap (core : CoreId) (w : FurWord) (sub : Fin 8)
  /-- FWAIT (R158). The hand holds until ABEAT reaches a given beat, or faults LATE. -/
  | fwait (core : CoreId) (w : FurWord) (sub : Fin 8)
  /-- FWAIT_RELEASE (R158). In the cycle ABEAT equals the awaited beat, the next instruction issues. -/
  | fwaitRelease (core : CoreId) (sub : Fin 8)
  /-- FURROW_ENTRY_RUN (R156). An armed entry reaches its start beat and enters its tiles, one beat per cycle. -/
  | furrowEntryRun (core : CoreId) (laneB : Bool) (bad : List (Nat × CoreId)) (sub : Fin 8)
  /-- FURROW_CAPTURE_RUN (R156). An armed capture reaches its start beat and writes its tiles through slot 6. -/
  | furrowCaptureRun (core : CoreId) (sub : Fin 8)
  /-- FUR_SEG_COMMIT (R146). The steading commits a segment's staged fields, computes LAP_MIN and writes FUR_POS, or raises CFG_MISMATCH. -/
  | furSegCommit (seg : SegId)
  /-- FUR_RUN_START (R147). A write of START asks a segment to run from the next bell. -/
  | furRunStart (seg : SegId)
  /-- FUR_RUN_STOP (R147). A write of STOP at a step boundary asks a segment to stop at the next bell. -/
  | furRunStop (seg : SegId)
  /-- SEGMENT_RUN (R147). At the next bell after START, position 0's beat 0 falls and the segment runs. -/
  | segmentRun (seg : SegId)
  /-- SEGMENT_STOP (R147). At the next bell after STOP the segment discards its beats, empties its buffers and stops. -/
  | segmentStop (seg : SegId)
  /-- SEGMENT_HOLD_START (R159). At tick m + 8 after a failing verdict, every latch, entry, capture and queue of the segment freezes for the tile count. -/
  | segmentHoldStart (seg : SegId)
  /-- SEGMENT_HOLD_END (R160). A segment hold's length expires and the next queued hold, if any, begins. -/
  | segmentHoldEnd (seg : SegId)
  /-- DARM (R205). The hand arms a drill with a descriptor, as active or pending, or is refused. -/
  | darm (core : CoreId) (w : DrillWord)
  /-- DWAIT (R204). With MODE 0 the hand holds until the drill's DONE count reaches a value. -/
  | dwait (core : CoreId) (w : DrillWord)
  /-- DWAIT_PENDING_FREE (R204). With MODE 1 the hand holds until the drill's pending place is empty. -/
  | dwaitPendingFree (core : CoreId) (w : DrillWord)
  /-- DWAIT_RELEASE (R204). In the cycle after the awaited condition holds, the next instruction issues. -/
  | dwaitRelease (core : CoreId)
  /-- DESCRIPTOR_CHECK (R199). After reading its descriptor through slot 6 the drill checks it and halts the core if it is illegal. -/
  | descriptorCheck (core : CoreId) (d : DrillId)
  /-- TRANSFER_FORM (R200). A drill with a free outstanding place, and a credit where needed, forms its next transfer. -/
  | transferForm (core : CoreId) (d : DrillId)
  /-- TRANSFER_COMPLETE (R203). A transfer completes, frees its place, and completes the descriptor after its last transfer. -/
  | transferComplete (core : CoreId) (d : DrillId) (tag : Fin 256)
  /-- DRL_CFG_COMMIT (R201). The staged outstanding limits of the four drills are committed or refused with CFG_MISMATCH. -/
  | drlCfgCommit (core : CoreId)
  /-- RESUME (R213). The steading resumes a paused drill from DRL_RESUME once its earlier transfers are answered. -/
  | resume (core : CoreId) (d : DrillId)
  /-- FAIL (R213). The steading ends a paused descriptor with STATUS 0x91. -/
  | fail (core : CoreId) (d : DrillId)
  /-- ABORT (R214). The steading aborts a drill, discarding its descriptors and later answers. -/
  | abort (core : CoreId) (d : DrillId)
  /-- TREAD (R238). The hand reads the croft's estimated tick and remainder. -/
  | tread (core : CoreId) (w : SyncWord)
  /-- TWAIT (R238). The hand holds until the croft's tick reaches a value. -/
  | twait (core : CoreId) (w : SyncWord)
  /-- TWAIT_RELEASE (R238). At the first cycle of the awaited tick, the next instruction issues. -/
  | twaitRelease (core : CoreId)
  /-- SSEND (R238). The hand sends a SYNC packet to a core naming a counter. -/
  | ssend (core : CoreId) (w : SyncWord)
  /-- SWAIT (R238). The hand holds until a SYNC counter reaches a value. -/
  | swait (core : CoreId) (w : SyncWord)
  /-- SWAIT_RELEASE (R238). In the cycle after the counter condition holds, the next instruction issues. -/
  | swaitRelease (core : CoreId)
  /-- SBAR (R349). The core marks its arrival at the step barrier, sends its marks and holds. -/
  | sbar (core : CoreId) (w : SyncWord)
  /-- STEP_RELEASE (R238). At the first cycle of the named release tick every core of the enclosure resumes. -/
  | stepRelease (encl : EnclId)
  /-- START (R117). The steading starts a halted core at ENTRY, unless it is fallow, locked or busy. -/
  | start (core : CoreId)
  /-- STOP (R117). The steading halts a core with CAUSE 4. -/
  | stop (core : CoreId)
  /-- SCRUB_READ (R127). In a free slot 7 cycle the harrow reads the next 32 B of the W-class segments. -/
  | scrubRead (core : CoreId) (found : List (Fin 4 × Bool))
  /-- SCRUB_WRITEBACK (R127). In its next slot 7 cycle the harrow writes back a corrected word, unless a newer write covers it. -/
  | scrubWriteback (core : CoreId)
  /-- SP_CLASS_COMMIT (R126). The steading commits segment classes of a halted core and starts re-encoding. -/
  | spClassCommit (core : CoreId)
  /-- RE_ENCODING_DONE (R126). The harrow ends the re-encoding of the last changed segment and clears RECLASS_BUSY. -/
  | reEncodingDone (core : CoreId)
  /-- WIPE_START (R139). The steading wipes a halted core's scratchpad. -/
  | wipeStart (core : CoreId)
  /-- WIPE_DONE (R137). The harrow makes its last wipe write, leaving every segment A-class, and ends the lock. -/
  | wipeDone (core : CoreId)
  /-- INSPECTION_COPY_DONE (R138). The harrow reads the last byte of a keep-for-inspection copy and the wipe starts. -/
  | inspectionCopyDone (core : CoreId)
  /-- GATE_COMMIT (R130). A gate's staged BASE and SIZE take effect, or CFG_MISMATCH is raised. -/
  | gateCommit (core : CoreId) (gate : GateId)
  /-- GATE_OPEN (R130). A gate becomes OPEN with its epoch unchanged. -/
  | gateOpen (core : CoreId) (gate : GateId)
  /-- GATE_CLOSE (R130). A gate becomes CLOSED and its epoch increments in both copies. -/
  | gateClose (core : CoreId) (gate : GateId)
  /-- GATE_GRANT (R130). The owner sends credit units at the current epoch to a core. -/
  | gateGrant (core : CoreId) (gate : GateId) (dest : BitVec 17) (units : BitVec 8)
  /-- GRANT (R131). An arriving grant updates the sender's credit table entry by epoch. -/
  | grant (core : CoreId)
  /-- PACKET_DEPARTURE (R175). An output port chooses one header with full credit and forwards its packet. -/
  | packetDeparture (core : CoreId) (port : Fin 6) (sub : Fin 8) (bad : LinkFault)
  /-- MESH_CREDIT_RETURN (R174). At tick f + 2 a credit taken out of a headland queue reaches the sending croft. -/
  | meshCreditReturn (core : CoreId) (side : Fin 7) (vc : Fin 4)
  /-- HEADLAND_RELEASE (R231). At the first cycle of a tick the croft releases the entries stamped for it, or stalls whole ticks. -/
  | headlandRelease (croft : CroftId) (missing : Option (Fin 4 × Bool))
  /-- GATE_WR (R133). A gate write reaches its target, and each beat is checked and landed in slot 7. -/
  | gateWr (core : CoreId) (beats : Fin 9)
  /-- GATE_ACK (R177). A gate acknowledgement reaches the sender, whose completion is posted. -/
  | gateAck (dest : Requestee)
  /-- MC_WR (R183). A multicast branch reaches its target, is ejected or moved into a slot, and is checked by R133. -/
  | mcWr (core : CoreId) (place : Option (Fin 6)) (beats : Fin 9)
  /-- MC_SLOT_EJECT (R185). A branch held in a multicast slot is ejected once the target buffer has room. -/
  | mcSlotEject (core : CoreId) (slot : Fin 2)
  /-- MC_BRANCH_DROP (R186). A slot branch not started by MCAST_HOLD ticks is dropped, sending MC_MISS and an acknowledgement. -/
  | mcBranchDrop (core : CoreId) (slot : Fin 2)
  /-- MC_ACK (R187). Branch acknowledgements combine at forks, and the root one posts the sender's completion. -/
  | mcAck (core : CoreId)
  /-- MC_MISS (R188). A miss notice is sunk into the sender's log. -/
  | mcMiss (core : CoreId)
  /-- SYNC (R238). A SYNC packet increments the named counter of its target. -/
  | sync (core : CoreId)
  /-- RD_RSP (R203). Read data reaches the core and lands through slot 6. -/
  | rdRsp (core : CoreId)
  /-- RD_REQ (R293). A read request reaches a landing port and enters its admission queue. -/
  | rdReq (tabko : TabkoId)
  /-- WR_REQ (R293). A write request with its payload reaches a landing port and enters its admission queue. -/
  | wrReq (tabko : TabkoId)
  /-- PORT_ADMISSION (R293). At each tick boundary the landing port accepts the requests that its conditions allow. -/
  | portAdmission (tabko : TabkoId)
  /-- READ_ANSWER (R294). At acceptance + 112 tk the read answer leaves the port. -/
  | readAnswer (tabko : TabkoId) (linkFail : Bool)
  /-- WRITE_ACK (R294). At acceptance + 96 tk the write acknowledgement leaves the port. -/
  | writeAck (tabko : TabkoId) (linkFail : Bool)
  /-- WR_ACK (R203). A write acknowledgement reaches its requester: a core, the harrow or a floor. -/
  | wrAck (dest : Requestee)
  /-- PATROL_READ (R300). In a free harrow slot the patrol reads the next block and writes back a correction. -/
  | patrolRead (tabko : TabkoId) (upsets : List (BitVec 30 × Bool))
  /-- GRANULE_WIPE (R300). The harrow wipes the stale blocks of a pending granule and clears PENDING. -/
  | granuleWipe (tabko : TabkoId)
  /-- TABKO_RETRAIN_START (R303). Once its enclosures are at a boundary with nothing in flight, a Tabko's wheel stops for retraining. -/
  | tabkoRetrainStart (tabko : TabkoId)
  /-- TABKO_RETRAIN_END (R303). After 4,096 tk the wheel resumes and RECAL_BUSY clears. -/
  | tabkoRetrainEnd (tabko : TabkoId) (failed : Bool)
  /-- TABKO_DOWN (R304). A Tabko that stops answering or fails to retrain goes DOWN and faults its enclosures. -/
  | tabkoDown (tabko : TabkoId)
  /-- DRAM_HOT (R302). A DRAM case temperature above 95 °C sets HOT and raises DRAM_HOT. -/
  | dramHot (tabko : TabkoId) (temp0 temp1 : BitVec 8)
  /-- LANDING_NOTICE (R312). A landed sheaf's entries are taken up by the tillers and updated by the sign rule. -/
  | landingNotice (tabko : TabkoId)
  /-- UPDATE_DONE (R318). When every entry, write and write-back of the step is acknowledged, UPD_STAT reads DONE. -/
  | updateDone (tabko : TabkoId) (encl : EnclId)
  /-- SHEAF (R334). A partial tile reaches its floor and is folded exactly into its fold entry. -/
  | sheaf (floor : FloorId) (row : Fin 256)
  /-- SHEAF_MARK (R349). A core's mark reaches its floor, counting towards the close point. -/
  | sheafMark (floor : FloorId) (row : Fin 256)
  /-- RE_EMIT (R343). After a scale miss a core re-emits its retained tiles at the new scale in idle emission cycles. -/
  | reEmit (core : CoreId)
  /-- STEP_CLOSE (R350). At the close point the season engines run, and zero-tile and statistics sheaves start their passes. -/
  | stepClose (encl : EnclId)
  /-- BOUNDARY_FOLD (R350). Once every sheaf is complete, the steading folds next scales and format choices. -/
  | boundaryFold (encl : EnclId)
  /-- BOUNDARY_CHECKS (R350). Once fold and update are done, checks, fencing, re-sowing and counter resets run. -/
  | boundaryChecks (encl : EnclId)
  /-- RELEASE_NAMING (R350). The steading names the release tick to every croft of the enclosure. -/
  | releaseNaming (encl : EnclId) (ahead : Nat)
  /-- SHEAF_FRAME_REDUCE (R337). A reduce-pass frame is added to the local fold and sent on. -/
  | sheafFrameReduce (port : PortId) (f : LinkFrame)
  /-- SHEAF_FRAME_DISTRIBUTE (R338). A distribute-pass frame is copied, passed on and written into G. -/
  | sheafFrameDistribute (port : PortId) (f : LinkFrame)
  /-- GLEAN_FIRST_LAP (R346). A gleaner frame on its first lap adds the module's contribution exactly. -/
  | gleanFirstLap (port : PortId) (f : LinkFrame)
  /-- GLEAN_SECOND_LAP (R347). A gleaner frame with the finished sum is compared against the module's final copy. -/
  | gleanSecondLap (port : PortId) (f : LinkFrame)
  /-- FLR_RING_COMMIT (R325). A floor's staged ring and peer fields are committed or refused. -/
  | flrRingCommit (floor : FloorId) (encl : EnclId)
  /-- BLN_EN (R356). A write of BLN_CTL.EN enables or disables a port. -/
  | blnEn (port : PortId) (en : Bool)
  /-- RETRAIN (R356). A write of RETRAIN sends an UP port to LIGHT, as a loss. -/
  | retrain (port : PortId)
  /-- SIGNAL_DETECT (R356). Signal on all 16 receive lanes moves a port from LIGHT to LOCK. -/
  | signalDetect (port : PortId)
  /-- CODEWORD_LOCK (R356). FEC lock held for 1,024 tk moves a port to ALIGN. -/
  | codewordLock (port : PortId)
  /-- LANE_ALIGN (R356). Finding all 16 logical lanes records the lane map and moves the port to HELLO. -/
  | laneAlign (port : PortId) (lanes : List (Fin 16))
  /-- TRAINING_TIMEOUT (R356). A port not UP 2^21 tk after LIGHT restarts training. -/
  | trainingTimeout (port : PortId)
  /-- HELLO (R357). A HELLO frame is checked and brings the port UP when the identities match. -/
  | hello (port : PortId) (f : LinkFrame) (id : BitVec 14) (install : BitVec 32) (peer : Fin 16) (version : BitVec 8)
  /-- HELLO_RESEND (R357). A port in HELLO resends its HELLO every 2^16 tk. -/
  | helloResend (port : PortId)
  /-- PORT_DOWN (R372). A loss condition takes an UP port down and reroutes its replay buffer. -/
  | portDown (port : PortId) (noSignal : Bool)
  /-- FRAME_SEND (R362). At a frame boundary a port sends its next link or class frame that holds credit. -/
  | frameSend (port : PortId)
  /-- FRAME_FORWARD (R363). A frame for another module is looked up and cut through to its egress port. -/
  | frameForward (port : PortId) (f : LinkFrame) (gleaner badCrc : Bool)
  /-- CREDIT (R361). A CREDIT frame updates the sender's units per class and lane. -/
  | credit (port : PortId) (f : LinkFrame)
  /-- CREDIT_SEND (R361). A CREDIT frame is sent when units wait 32 tk, reach 64, or 1,024 tk pass. -/
  | creditSend (port : PortId)
  /-- NAK (R360). A NAK makes the sender replay from the expected SEQ. -/
  | nak (port : PortId) (f : LinkFrame)
  /-- REPLAY_TIMEOUT (R360). After 256 tk without ACK progress the sender replays from its oldest unacknowledged frame. -/
  | replayTimeout (port : PortId)
  /-- BEACON (R370). A received beacon is kept in BLN_PEER. -/
  | beacon (port : PortId) (f : LinkFrame)
  /-- BEACON_SEND (R370). Every UP port sends a beacon every 2^20 tk. -/
  | beaconSend (port : PortId)
  /-- FWD_ID_COMMIT (R368). The staged identities are committed and every UP port returns to HELLO. -/
  | fwdIdCommit (floor : FloorId)
  /-- FWD_CTL_COMMIT (R369). The staged forwarding entries are committed and FAILED is cleared on UP ports. -/
  | fwdCtlCommit (floor : FloorId)
  /-- YREF_DETECT (R378). With YREF present, the Yosal link leaves DOWN for TRAIN. -/
  | yrefDetect
  /-- YOSAL_TRAINED (R378). After 1,024 good flits each way the link is UP and watched lines are re-read. -/
  | yosalTrained (width8 : Bool)
  /-- YOSAL_RETRAIN (R378). Repeated replays or loss of signal send the link to RETRAIN. -/
  | yosalRetrain
  /-- YOSAL_DOWN (R378). Retraining not passed after 2^20 tk sends the link DOWN and drops held lines. -/
  | yosalDown
  /-- FLIT (R380). A received flit is corrected, CRC-checked, acknowledged or NAKed, and its slots are taken. -/
  | flit (f : FlitHeader) (corrected crcFail : Bool) (slots : List (BitVec 128))
  /-- YOSAL_TIMEOUT (R385). A request unanswered for TIMEOUT × 1,024 tk ends with STATUS 0x92. -/
  | yosalTimeout (tag : BitVec 12)
  /-- DATA (R388). A line read returns, and a watched line's content is acted on. -/
  | data (tag : BitVec 12) (status : BitVec 8) (line : List (BitVec 8))
  /-- WR_DONE (R394). A companion write completes, and its announcing signal or counter follows. -/
  | wrDone (tag : BitVec 12) (status : BitVec 8)
  /-- TRANS_RSP (R390). A translation answer fills the cache, or pauses the drill on a fault. -/
  | transRsp (tag : BitVec 12) (status : BitVec 8) (pfn : BitVec 40) (size : Fin 3) (w : Bool)
  /-- SNP_INV (R388). A snoop of a held line is a watch hit, answered by INV_ACK and a re-read. -/
  | snpInv (tag : BitVec 12) (addr : BitVec 52)
  /-- TRANS_INV (R391). Matching cache entries are removed, and TRANS_INV_DONE follows their pending operations. -/
  | transInv (tag : BitVec 12) (scope : Fin 3) (space : BitVec 16) (page : BitVec 52)
  /-- WIN_RD (R397). The companion reads a module address through the exported window. -/
  | winRd (tag : BitVec 12) (mpa : BitVec 48) (bytes : BitVec 7)
  /-- WIN_WR (R397). The companion writes a module address through the exported window. -/
  | winWr (tag : BitVec 12) (mpa : BitVec 48) (mask : BitVec 64) (line : List (BitVec 8))
  /-- SIGNAL_GAP_END (R396). At the end of a signal gap, one signal announces the writes made within it. -/
  | signalGapEnd (vec : BitVec 8)
  /-- WATCH_ENABLE (R388). Setting EN sends RD_SHARED and takes the first content as the baseline. -/
  | watchEnable (line : Fin 64)
  /-- WATCH_DISABLE (R388). Clearing EN sends EVICT_S and clears HELD. -/
  | watchDisable (line : Fin 64)
  /-- SPACE_COMMIT (R391). The staged space table is committed, or CFG_MISMATCH is raised. -/
  | spaceCommit
  /-- LOAD (R268). A LOAD job card runs phases 1–10 of sowing, or is refused. -/
  | load (encl : EnclId) (lot : List (BitVec 8)) (spaceFault : Bool)
  /-- SOWING_START (R268). At a bell every core and segment starts, and the card is answered LOADED. -/
  | sowingStart (encl : EnclId)
  /-- KILL (R276). A KILL card runs the fault sequence with cause 0. -/
  | kill (encl : EnclId)
  /-- RELEASE (R277). A RELEASE card ends INSPECT, marks the regions and releases the shares. -/
  | release (encl : EnclId)
  /-- ENCLOSURE_HALT (R275). At tick m + 4 every core halts, scratchpads lock, and copies or wipes start. -/
  | enclosureHalt (encl : EnclId)
  /-- ENCLOSURE_WIPES_DONE (R275). When every core reports WIPE_BUSY = 0, regions are marked or kept and the crofts are freed. -/
  | enclosureWipesDone (encl : EnclId)
  /-- RESOWING_DONE (R278). A re-sowing ends, naming the release, or faults the enclosure on failure. -/
  | resowingDone (encl : EnclId)
  /-- HEARTBEAT_SEND (R404). While port B0 is UP a heartbeat is sent every HB_PERIOD tk. -/
  | heartbeatSend
  /-- YOKE_LOST (R404). After HB_MISS × HB_PERIOD tk with no YOKE frame the mate is lost. -/
  | yokeLost
  /-- HEARTBEAT (R404). A received yoke frame keeps the mate up and returns LOST to PAIRED. -/
  | heartbeat (port : PortId) (f : LinkFrame)
  /-- FALLOW (R401). A mate's fallow map with a matching fingerprint is taken for placement. -/
  | fallow (port : PortId) (f : LinkFrame)
  /-- FALLOW_WAIT_TIMEOUT (R401). A load whose mate's map has not arrived in time is refused with YOKE. -/
  | fallowWaitTimeout (encl : EnclId)
  /-- COMPARE_SCAN_DONE (R407). A Tabko's compare scan ends and its values go to the mate in a COMPARE frame. -/
  | compareScanDone (tabko : TabkoId)
  /-- COMPARE (R407). A mate's COMPARE frame is checked against the module's own values. -/
  | compare (port : PortId) (f : LinkFrame)
  /-- SEED_DATA (R411). A chunk of the seed image is written into the replacement's regions. -/
  | seedData (port : PortId) (f : LinkFrame)
  /-- SEED_STATE (R411). The carried steading state is taken by the replacement. -/
  | seedState (port : PortId) (f : LinkFrame)
  /-- SEED_DONE (R412). The replacement checks the image CRC and rebuilds its derived tensors, or the seeding fails. -/
  | seedDone (port : PortId) (f : LinkFrame)
  /-- ABANDON (R409). The enclosure halts, discards the step and moves to the next step. -/
  | abandon
  /-- ACCEPT (R408). The floors take distribute frames of the step from DST as finals. -/
  | accept
  /-- REDISTRIBUTE (R408). Final tiles of a landed step are sent from G to DST. -/
  | redistribute
  /-- TAKEOVER (R410). The survivor becomes SOLO and writes the yoke word for carry or shed. -/
  | takeover
  /-- DETACH (R408). The module stops taking part in the yoke for the enclosure. -/
  | detach
  /-- ATTACH (R412). The survivor holds its release and seeds the replacement. -/
  | attach
  /-- STATE_CARD (R417). A state card is checked whole and then carried out, or refused. -/
  | stateCard
  /-- POWER_PHASE_START (R419). At its bell a phase of the card starts its domain and holding changes. -/
  | powerPhaseStart
  /-- HOLDING_CHANGE_END (R423). A holding ends its state change at its fixed time and the geography is rebuilt. -/
  | holdingChangeEnd (hold : HoldId)
  /-- DOMAIN_CHANGE_END (R424). MP, FW or FE ends its state change at its fixed time. -/
  | domainChangeEnd (dom : Fin 3)
  /-- OP_STOP_BEGIN (R235). Once a holding's enclosures are at rest, the frequency-change stop begins at the next bell. -/
  | opStopBegin (hold : HoldId)
  /-- OP_CHANGED (R235). After 2,048 tk the holding runs at its new point with a cold array. -/
  | opChanged (hold : HoldId)
  /-- PROTECTIVE_TRIP (R426). A sensor beyond its limit for its persistence trips its domain and faults its users. -/
  | protectiveTrip (cause : Fin 8) (unit : Fin 16) (value : BitVec 16)
  /-- TRIP_DOMAIN_OFF (R425). 64 tk after a trip the domain is OFF. -/
  | tripDomainOff (dom : DomId)
  /-- THERM_WARN (R425). A junction sensor above TJ_WARN raises a warning once per bell interval. -/
  | thermWarn (hold : HoldId) (temp : BitVec 8)
  /-- ST_SUPPLY_REMOVE (R419). 16,384 tk after MP reads OFF under ST_OFF the steading removes its own supply. -/
  | stSupplyRemove
  /-- STUD_LOST (R513). A stud pair out of range while the bus holds is reported at the next bell. -/
  | studLost (pair : Fin 4) (volts : BitVec 16)
  /-- POWER_LOST (R513). The input bus out of range or EN_IN low drops every domain's supply. -/
  | powerLost
  /-- EN_IN_HIGH (R430). EN_IN high starts the steading supply ramp and oscillator. -/
  | enInHigh (volts : List (BitVec 16))
  /-- PG_OUT (R430). The steading supply is up and PG_OUT goes high. -/
  | pgOut (volts : List (BitVec 16))
  /-- RST_N (R431). RST_N low resets domain ST and turns every other domain OFF. -/
  | rstN
  /-- RST_N_RISE (R432). The steading runs its start phases 1–7 and enters HOLD on failure. -/
  | rstNRise (selfTest : Bool)
  /-- BOOT_POWER_PHASE (R432). With a good reference, the POWER record's card is taken up. -/
  | bootPowerPhase
  /-- STEADING_RESET (R480). A steading SRAM error or watchdog expiry resets domain ST. -/
  | steadingReset
  /-- WRITE_THROUGH_GO (R440). The steading starts reading, checking and programming a flash region. -/
  | writeThroughGo (lost : List (BitVec 8))
  /-- WRITE_THROUGH_DONE (R440). The readback ends a write-through with its result. -/
  | writeThroughDone (faults : List (Fin 16777216 × BitVec 8))
  /-- RESTART (R431). BOOT_LOAD_CTL.RESTART resets ST as RST_N does. -/
  | restart
  /-- QUOTE_GO (R447). The steading builds, signs and writes a quote. -/
  | quoteGo
  /-- LEDGER_HOURLY (R451). Each powered hour a ledger record is written, with a checkpoint every 64 hours. -/
  | ledgerHourly
  /-- SEAL (R458). LC_CMD SEAL moves MANUFACTURE or REFURBISH to FIELD-SEALED. -/
  | seal
  /-- RETIRE (R458). LC_CMD RETIRE wipes, marks, destroys ID_SEED and blows the retire fuse. -/
  | retire
  /-- PASSWORD (R463). A password attempt opens a service session or counts a failure. -/
  | password
  /-- CHALLENGE (R464). The steading draws a fresh nonce for a signed response. -/
  | challenge
  /-- RESPOND (R464). A signed response opens a session or carries out a transition. -/
  | respond
  /-- CLOSE (R465). The session in force ends. -/
  | close
  /-- SET_CRED (R462). The password and lessor key are written into a sealed credential block. -/
  | setCred
  /-- SESSION_TIMEOUT (R465). After TIMEOUT minutes the session ends. -/
  | sessionTimeout
  /-- BIST_GO (R466). A BIST on command starts on the eligible units, or is refused. -/
  | bistGo
  /-- BIST_END (R468). A BIST on command ends with its verdict, quarantining crofts and resetting units. -/
  | bistEnd (failC : List CroftId) (failT : List TabkoId) (failP : List PortId) (cells : List CoreId)
  /-- SLICE_START (R469). At a bell a BIST slice claims the next eligible croft. -/
  | sliceStart
  /-- SLICE_END (R470). 2,048 tk later the slice gives its verdict and releases its claim. -/
  | sliceEnd (pass : Bool) (cells : List CoreId)
  /-- FALLOW_SET (R472). A fallow edit makes a physical core fallow. -/
  | fallowSet (core : Fin 87040)
  /-- FALLOW_CLEAR (R472). A fallow edit clears a core's fallow mark. -/
  | fallowClear (core : Fin 87040)
  /-- LED_SEL (R472). A journal record of the chosen SEQ appears in LED_REC. -/
  | ledSel (seq : BitVec 32)
  /-- FENCE_ISOLATE (R482). After the fencing wipe the core is isolated and CORE_FENCED is raised. -/
  | fenceIsolate (core : CoreId)
  /-- SPARE_GO (R486). A croft's spare row change is claimed for the next bell, or refused. -/
  | spareGo (croft : CroftId) (row : BitVec 4)
  /-- SPARE_ROW_START (R486). At the bell the croft halts and its repair map is rewritten. -/
  | spareRowStart
  /-- SPARE_IN (R486). The spare row change ends with wipes and a geography rebuild. -/
  | spareIn
  /-- CTL_TREE (R479). A control-tree access failing four times quarantines its croft. -/
  | ctlTree (croft : CroftId) (offset : BitVec 64)
  /-- EVENT_RING_WRITE (R488). The steading writes a raised event into its ring. -/
  | eventRingWrite (ring : RingId)
  /-- EVR_CI_WRITE (R489). The companion advances a ring's consumption index. -/
  | evrCiWrite (ring : RingId) (value : BitVec 32)
  /-- EVR_ENABLE (R489). Setting a ring's EN zeroes PI and CI. -/
  | evrEnable (ring : RingId) (base : BitVec 40) (size : BitVec 4)
  /-- CVU_GO (R498). A check-value scan is committed and started, or refused. -/
  | cvuGo (tabko : TabkoId) (unit : Fin 2)
  /-- CVU_ABORT (R501). A scan in progress ends as aborted. -/
  | cvuAbort (tabko : TabkoId) (unit : Fin 2)
  /-- SCAN_DONE (R499). A scan reads its last block and posts its result. -/
  | scanDone (tabko : TabkoId) (unit : Fin 2)
  /-- BELL (R229). Every 1,024 tk each croft corrects its estimate and the bell checks run. -/
  | bell (a b : BitVec 16) (crofts : List BellReport) (ports : List PortReport) (sens : Sensors)
  /-- REF_EDGE_LOSS (R220). The active reference fails, and a switch or a loss begins. -/
  | refEdgeLoss (ref : Fin 2)
  /-- SELECT (R220). A write of REF_CTL.SELECT switches to a good standby reference. -/
  | select
  /-- REF_SWITCH_SELECT (R221). At d + 8 the steading selects the other reference and the PLLs relock. -/
  | refSwitchSelect (drift : List (CroftId × Int))
  /-- REF_SWITCH (R221). At d + 64 holdover ends and REF_SWITCH is raised. -/
  | refSwitch
  /-- LOSS_HALT (R222). At d + 1,024 every enclosure is faulted and every holding's clocks stop. -/
  | lossHalt
  /-- REF_RELOCK (R222). A reference good for 1,024 tk relocks the almanac master. -/
  | refRelock (ref : Fin 2)
  /-- IDENT (R508). SMBus Block Read of BOOT_ID and BOOT_VER. -/
  | ident (pec : Bool)
  /-- BOOT (R508). SMBus Block Read of BOOT_STAT. -/
  | boot (pec : Bool)
  /-- POWER (R508). SMBus Block Read of PWR_METER. -/
  | power (pec : Bool)
  /-- STUDS (R508). SMBus Block Read of the stud pair voltages. -/
  | studs (pec : Bool)
  /-- TRIP (R508). SMBus Block Read of PWR_TRIP. -/
  | trip (pec : Bool)
  /-- DOMAINS (R508). SMBus Block Read of the domain states. -/
  | domains (pec : Bool)
  /-- HOLDTEMP (R508). SMBus Block Read of the holdings' junction maxima. -/
  | holdtemp (pec : Bool)
  /-- DRAMTEMP (R508). SMBus Block Read of the Tabkos' DRAM temperatures. -/
  | dramtemp (pec : Bool)
  /-- OPTTEMP (R508). SMBus Block Read of the optical engine temperatures. -/
  | opttemp (pec : Bool)
  /-- LEDGER (R508). SMBus Block Read of the ledger counter block. -/
  | ledger (pec : Bool)
  /-- SMB_OTHER_COMMAND (R509). Any other SMBus command returns a byte count of 0. -/
  | smbOtherCommand (code : BitVec 8) (pec : Bool)
  /-- SMB_WRITE (R509). An SMBus write protocol is NACKed at its first data byte. -/
  | smbWrite (code : BitVec 8)
  /-- ALERT_RESPONSE (R510). The target answers the Alert Response Address with its own address. -/
  | alertResponse (pec : Bool)
  /-- IDCODE (R511). The TAP selects the IDCODE register. -/
  | idcode
  /-- BYPASS (R511). The TAP selects BYPASS, also for any instruction not available. -/
  | bypass
  /-- TAP_RESET (R511). TRST_N low or RST_N resets the TAP. -/
  | tapReset
  /-- RUN_OUT (R224). An URGENT replica report in the cycle before a period that may not be stretched sets CLK_MON.RUNOUT and raises MARGIN_WARN at once. -/
  | runOut (croft : CroftId)
  /-- BAD_FRAME (R360). A Bellon frame received with a bad CRC or an unexpected SEQ is discarded, a NAK is sent, and later frames are discarded until the expected SEQ arrives; a stomped frame is only counted. -/
  | badFrame (port : PortId) (stomped : Bool)
  /-- NONCE_EXPIRY (R464). 2^33 tk after a CHALLENGE the nonce stops being valid and NONCE_VALID clears. -/
  | nonceExpiry
  /-- BIST_LIMIT (R467). A supply leaving its ±3 % window during a BIST on command or a slice ends the test with no verdict, and raises BIST_LIMIT for a test on command. -/
  | bistLimit (dom : DomId)
  /-- SCAN_READ (R499). In a harrow slot a check-value scan reads and decodes its next block, ending early with STATUS 0x67 or 0x62 on a CLOSED or uncorrectable block. -/
  | scanRead (tabko : TabkoId) (unit : Fin 2)
  /-- LOCAL_COPY_DONE (R208). A drill's local copy, own scratchpad or zeros to own scratchpad, makes its last write and posts its descriptor completion. -/
  | localCopyDone (core : CoreId) (d : DrillId)
  deriving DecidableEq, Repr

end Sys2Proof
end

