-- ==== Sys2Proof/WellFormed.lean ====
section
/-! DEFINITION. The checks a command's operands must pass that their types do not say: lengths of lists and the like. -/

namespace Sys2Proof

/-- A field of n bits of an instruction word, from bit lo up. -/
def wfield (w : Word) (lo n : Nat) : BitVec n := w.extractLsb' lo n

/-- The operation codes of UNIT 0 but HALT's (R98). -/
def handCodes : List (BitVec 8) :=
  [0x01#8, 0x02#8, 0x03#8, 0x04#8, 0x05#8, 0x06#8, 0x07#8, 0x08#8, 0x09#8, 0x0A#8, 0x0B#8, 0x10#8, 0x11#8, 0x12#8, 0x13#8, 0x14#8,
   0x15#8, 0x16#8, 0x20#8, 0x22#8, 0x21#8, 0x23#8, 0x30#8, 0x31#8, 0x32#8, 0x33#8, 0x34#8, 0x38#8, 0x39#8, 0x40#8, 0x28#8, 0x29#8]
/-- The operation codes of UNIT 1 (R102). -/
def vecCodes : List (BitVec 8) :=
  [0x01#8, 0x02#8, 0x03#8, 0x04#8, 0x05#8, 0x06#8, 0x07#8, 0x08#8, 0x10#8, 0x11#8, 0x12#8, 0x13#8, 0x14#8, 0x15#8, 0x16#8, 0x17#8,
   0x18#8, 0x20#8, 0x21#8, 0x22#8, 0x23#8, 0x30#8, 0x31#8, 0x32#8, 0x33#8, 0x34#8, 0x35#8, 0x36#8, 0x37#8, 0x38#8, 0x39#8, 0x40#8] ++
  [0x41#8, 0x42#8, 0x43#8, 0x48#8, 0x49#8, 0x4A#8, 0x50#8, 0x58#8, 0x59#8, 0x5C#8, 0x5D#8, 0x60#8, 0x61#8]
/-- Operations of the units whose code has four bits: the array 1-4 (R49-R52), the drills 1-2 (R204), the furrow 1-3 (R157), the almanac
and sync 1-5 (R237); the other units have none. -/
def unitCodes (unit : BitVec 4) : List (BitVec 4) :=
  match unit.toNat with
  | 2 => [1#4, 2#4, 3#4, 4#4]
  | 3 => [1#4, 2#4]
  | 4 => [1#4, 2#4, 3#4]
  | 5 => [1#4, 2#4, 3#4, 4#4, 5#4]
  | _ => []
/-- The word has an operation that some row other than HALT's issues. -/
def opListed (w : Word) : Bool :=
  match (wfield w 60 4).toNat with
  | 0 => handCodes.contains (wfield w 52 8)
  | 1 => vecCodes.contains (wfield w 52 8)
  | _ => (unitCodes (wfield w 60 4)).contains (wfield w 56 4)

/-- The operands of a command fit the places the spec gives them. -/
def Instr.wellFormed : Instr → Bool
  | .registerWrite _ _ _ => true
  | .gateStatRead _ _ => true
  | .gcrLostRead _ => true
  | .lagCountRead _ => true
  | .add _ _ => true
  | .sub _ _ => true
  | .and _ _ => true
  | .or _ _ => true
  | .xor _ _ => true
  | .shl _ _ => true
  | .shr _ _ => true
  | .sra _ _ => true
  | .slt _ _ => true
  | .sltu _ _ => true
  | .mul _ _ => true
  | .addi _ _ => true
  | .andi _ _ => true
  | .ori _ _ => true
  | .shli _ _ => true
  | .shri _ _ => true
  | .srai _ _ => true
  | .lih _ _ => true
  | .ld _ _ => true
  | .st _ _ => true
  | .ldw _ _ => true
  | .stw _ _ => true
  | .csrr _ _ => true
  | .csrw _ _ => true
  | .beq _ _ => true
  | .bne _ _ => true
  | .blt _ _ => true
  | .bge _ _ => true
  | .bltu _ _ => true
  | .jal _ _ => true
  | .jr _ _ => true
  | .vsetvl _ _ => true
  | .halt _ w => !opListed w
  | .vadd _ _ => true
  | .vsub _ _ => true
  | .vadds _ _ => true
  | .vsubs _ _ => true
  | .vmuls _ _ => true
  | .vmul _ _ => true
  | .vmin _ _ => true
  | .vmax _ _ => true
  | .vand _ _ => true
  | .vor _ _ => true
  | .vxor _ _ => true
  | .vandn _ _ => true
  | .vshl _ _ => true
  | .vshr _ _ => true
  | .vsra _ _ => true
  | .vshls _ _ => true
  | .vsrar _ _ => true
  | .vceq _ _ => true
  | .vclt _ _ => true
  | .vcle _ _ => true
  | .vsel _ _ => true
  | .vfadd _ _ => true
  | .vfsub _ _ => true
  | .vfmul _ _ => true
  | .vfma _ _ => true
  | .vfnma _ _ => true
  | .vfmin _ _ => true
  | .vfmax _ _ => true
  | .vfsgn _ _ => true
  | .vfabs _ _ => true
  | .vfneg _ _ => true
  | .vexp2 _ _ => true
  | .vlog2 _ _ => true
  | .vrcp _ _ => true
  | .vrsq _ _ => true
  | .vcvt _ _ => true
  | .vmxq _ _ => true
  | .vmxe _ _ => true
  | .vperm _ _ => true
  | .vrsum _ _ => true
  | .vrmax _ _ => true
  | .vins _ _ => true
  | .vext _ _ => true
  | .vld _ _ => true
  | .vst _ _ => true
  | .amma _ _ => true
  | .adrain _ _ => true
  | .aemit _ _ => true
  | .afence _ _ => true
  | .afenceRelease _ => true
  | .arrayDispatch _ => true
  | .arrayEngineStart _ _ _ => true
  | .tileVerdict _ cells _ => cells.wellFormed
  | .tileRerunVerdict _ cells => cells.wellFormed
  | .arrayCool _ => true
  | .arrRepairCommit _ => true
  | .tlyBind _ _ _ => true
  | .tlyBindApply _ => true
  | .finj _ _ _ => true
  | .fcap _ _ _ => true
  | .fwait _ _ _ => true
  | .fwaitRelease _ _ => true
  | .furrowEntryRun _ _ _ _ => true
  | .furrowCaptureRun _ _ => true
  | .furSegCommit _ => true
  | .furRunStart _ => true
  | .furRunStop _ => true
  | .segmentRun _ => true
  | .segmentStop _ => true
  | .segmentHoldStart _ => true
  | .segmentHoldEnd _ => true
  | .darm _ _ => true
  | .dwait _ w => decide (w.mode = 0)
  | .dwaitPendingFree _ w => decide (w.mode = 1)
  | .dwaitRelease _ => true
  | .descriptorCheck _ _ => true
  | .transferForm _ _ => true
  | .transferComplete _ _ _ => true
  | .drlCfgCommit _ => true
  | .resume _ _ => true
  | .fail _ _ => true
  | .abort _ _ => true
  | .tread _ _ => true
  | .twait _ _ => true
  | .twaitRelease _ => true
  | .ssend _ _ => true
  | .swait _ _ => true
  | .swaitRelease _ => true
  | .sbar _ _ => true
  | .stepRelease _ => true
  | .start _ => true
  | .stop _ => true
  | .scrubRead _ _ => true
  | .scrubWriteback _ => true
  | .spClassCommit _ => true
  | .reEncodingDone _ => true
  | .wipeStart _ => true
  | .wipeDone _ => true
  | .inspectionCopyDone _ => true
  | .gateCommit _ _ => true
  | .gateOpen _ _ => true
  | .gateClose _ _ => true
  | .gateGrant _ _ _ _ => true
  | .grant _ => true
  | .packetDeparture _ _ _ _ => true
  | .meshCreditReturn _ _ _ => true
  | .headlandRelease _ _ => true
  | .gateWr _ _ => true
  | .gateAck _ => true
  | .mcWr _ _ _ => true
  | .mcSlotEject _ _ => true
  | .mcBranchDrop _ _ => true
  | .mcAck _ => true
  | .mcMiss _ => true
  | .sync _ => true
  | .rdRsp _ => true
  | .rdReq _ => true
  | .wrReq _ => true
  | .portAdmission _ => true
  | .readAnswer _ _ => true
  | .writeAck _ _ => true
  | .wrAck _ => true
  | .patrolRead _ _ => true
  | .granuleWipe _ => true
  | .tabkoRetrainStart _ => true
  | .tabkoRetrainEnd _ _ => true
  | .tabkoDown _ => true
  | .dramHot _ _ _ => true
  | .landingNotice _ => true
  | .updateDone _ _ => true
  | .sheaf _ _ => true
  | .sheafMark _ _ => true
  | .reEmit _ => true
  | .stepClose _ => true
  | .boundaryFold _ => true
  | .boundaryChecks _ => true
  | .releaseNaming _ _ => true
  | .sheafFrameReduce _ f => decide (32 ≤ f.body.length) && decide (f.body.length ≤ 20512)
  | .sheafFrameDistribute _ f => decide (32 ≤ f.body.length) && decide (f.body.length ≤ 20512)
  | .gleanFirstLap _ f => decide (32 ≤ f.body.length) && decide (f.body.length ≤ 20512)
  | .gleanSecondLap _ f => decide (32 ≤ f.body.length) && decide (f.body.length ≤ 20512)
  | .flrRingCommit _ _ => true
  | .blnEn _ _ => true
  | .retrain _ => true
  | .signalDetect _ => true
  | .codewordLock _ => true
  | .laneAlign _ lanes => lanes.length == 16
  | .trainingTimeout _ => true
  | .hello _ _ _ _ _ _ => true
  | .helloResend _ => true
  | .portDown _ _ => true
  | .frameSend _ => true
  | .frameForward _ f _ _ => decide (f.body.length ≤ 20512)
  | .credit _ f => f.body.length == 32
  | .creditSend _ => true
  | .nak _ f => f.body.length == 2
  | .replayTimeout _ => true
  | .beacon _ f => f.body.length == 32
  | .beaconSend _ => true
  | .fwdIdCommit _ => true
  | .fwdCtlCommit _ => true
  | .yrefDetect => true
  | .yosalTrained _ => true
  | .yosalRetrain => true
  | .yosalDown => true
  | .flit _ _ _ slots => decide (slots.length = 14)
  | .yosalTimeout _ => true
  | .data _ _ line => line.length == 64
  | .wrDone _ _ => true
  | .transRsp _ _ _ _ _ => true
  | .snpInv _ _ => true
  | .transInv _ _ _ _ => true
  | .winRd _ _ _ => true
  | .winWr _ _ _ line => line.length == 64
  | .signalGapEnd _ => true
  | .watchEnable _ => true
  | .watchDisable _ => true
  | .spaceCommit => true
  | .load _ _ _ => true
  | .sowingStart _ => true
  | .kill _ => true
  | .release _ => true
  | .enclosureHalt _ => true
  | .enclosureWipesDone _ => true
  | .resowingDone _ => true
  | .heartbeatSend => true
  | .yokeLost => true
  | .heartbeat _ _ => true
  | .fallow _ _ => true
  | .fallowWaitTimeout _ => true
  | .compareScanDone _ => true
  | .compare _ _ => true
  | .seedData _ _ => true
  | .seedState _ _ => true
  | .seedDone _ _ => true
  | .abandon => true
  | .accept => true
  | .redistribute => true
  | .takeover => true
  | .detach => true
  | .attach => true
  | .stateCard => true
  | .powerPhaseStart => true
  | .holdingChangeEnd _ => true
  | .domainChangeEnd _ => true
  | .opStopBegin _ => true
  | .opChanged _ => true
  | .protectiveTrip _ _ _ => true
  | .tripDomainOff _ => true
  | .thermWarn _ _ => true
  | .stSupplyRemove => true
  | .studLost _ _ => true
  | .powerLost => true
  | .enInHigh volts => volts.length == 4
  | .pgOut volts => volts.length == 4
  | .rstN => true
  | .rstNRise _ => true
  | .bootPowerPhase => true
  | .steadingReset => true
  | .writeThroughGo content => decide (content.length ≤ 33554431)
  | .writeThroughDone _ => true
  | .restart => true
  | .quoteGo => true
  | .ledgerHourly => true
  | .seal => true
  | .retire => true
  | .password => true
  | .challenge => true
  | .respond => true
  | .close => true
  | .setCred => true
  | .sessionTimeout => true
  | .bistGo => true
  | .bistEnd _ _ _ _ => true
  | .sliceStart => true
  | .sliceEnd _ _ => true
  | .fallowSet _ => true
  | .fallowClear _ => true
  | .ledSel _ => true
  | .fenceIsolate _ => true
  | .spareGo _ _ => true
  | .spareRowStart => true
  | .spareIn => true
  | .ctlTree _ _ => true
  | .eventRingWrite _ => true
  | .evrCiWrite _ _ => true
  | .evrEnable _ _ _ => true
  | .cvuGo _ _ => true
  | .cvuAbort _ _ => true
  | .scanDone _ _ => true
  | .bell _ _ _ _ sens => sens.studs.length == 4 && sens.pairs.length == 4
  | .refEdgeLoss _ => true
  | .select => true
  | .refSwitchSelect _ => true
  | .refSwitch => true
  | .lossHalt => true
  | .refRelock _ => true
  | .ident _ => true
  | .boot _ => true
  | .power _ => true
  | .studs _ => true
  | .trip _ => true
  | .domains _ => true
  | .holdtemp _ => true
  | .dramtemp _ => true
  | .opttemp _ => true
  | .ledger _ => true
  | .smbOtherCommand _ _ => true
  | .smbWrite _ => true
  | .alertResponse _ => true
  | .idcode => true
  | .bypass => true
  | .tapReset => true
  | .runOut _ => true
  | .badFrame _ _ => true
  | .nonceExpiry => true
  | .bistLimit _ => true
  | .scanRead _ _ => true
  | .localCopyDone _ _ => true

end Sys2Proof
end

