-- ==== Sys2Proof/Decode.lean ====
section
/-! DEFINITION. The table of operations gives its rows no bits, so no word spells a command (`decodeTableWord`). What the
spec does encode are the instruction words of a core (R97, R101, R49-R52, R157, R204, R237): `wordOf` is the word of a
command that issues one, and `coreWord` reads a word back. The meanings take the fields as they stand in the command. -/

namespace Sys2Proof

/-- The command a word of the table's bits spells: no row of the table has bits. -/
def decodeTableWord (_nbits _w : Nat) : Option Instr := none

/-- R97: the word of a hand operation. -/
def HandWord.word (op : BitVec 8) (w : HandWord) : Word :=
  ((((((0#4 ++ op) ++ w.hd) ++ w.hs1) ++ w.hs2) ++ w.rsv) ++ w.imm)

/-- R101: the word of a vector operation. -/
def VecWord.word (op : BitVec 8) (w : VecWord) : Word :=
  (((((((((1#4 ++ op) ++ w.ty) ++ w.vd) ++ w.vs1) ++ w.vs2) ++ w.vs3) ++ w.bc) ++ w.imm) ++ w.rsv)

/-- R49: the word of an AMMA. -/
def AmmaWord.word (w : AmmaWord) : Word :=
  ((((((((((((2#4 ++ 1#4) ++ w.fmta) ++ w.fmtb) ++ w.ha) ++ w.hb) ++ w.bin) ++ w.zero) ++ w.ta) ++ w.tb) ++ w.srca) ++
    w.srcb) ++ w.tiles) ++ w.rsv

/-- R50: the word of an ADRAIN. -/
def AdrainWord.word (w : AdrainWord) : Word :=
  (((((((2#4 ++ 2#4) ++ w.fmto) ++ w.hd) ++ w.bin) ++ w.rnd) ++ w.sat) ++ w.tally) ++ w.rsv

/-- R51: the word of an AEMIT. -/
def AemitWord.word (w : AemitWord) : Word :=
  (((((2#4 ++ 3#4) ++ w.bin) ++ w.floor) ++ w.sheaf) ++ w.tile) ++ w.rsv

/-- R52: the word of an AFENCE. -/
def afenceWord (rsv : BitVec 56) : Word := (2#4 ++ 4#4) ++ rsv

/-- R157: the word of a furrow instruction. -/
def FurWord.word (op : BitVec 4) (w : FurWord) : Word :=
  (((((((4#4 ++ op) ++ w.fmt) ++ w.lane) ++ w.trans) ++ w.hs) ++ w.hb) ++ w.tiles) ++ w.rsv

/-- R204: the word of a drill instruction. -/
def DrillWord.word (op : BitVec 4) (w : DrillWord) : Word :=
  ((((3#4 ++ op) ++ w.d) ++ w.hs) ++ w.mode) ++ w.rsv

/-- R237: the word of a sync instruction. -/
def SyncWord.word (op : BitVec 4) (w : SyncWord) : Word :=
  ((((5#4 ++ op) ++ w.hd) ++ w.hs) ++ w.cnt) ++ w.rsv

/-! ### Reading a word -/

/-- The fields of a hand word (R97). -/
def HandWord.read (w : Word) : HandWord :=
  { hd := wfield w 47 5, hs1 := wfield w 42 5, hs2 := wfield w 37 5, rsv := wfield w 32 5, imm := wfield w 0 32 }
/-- The fields of a vector word (R101). -/
def VecWord.read (w : Word) : VecWord :=
  { ty := wfield w 49 3, vd := wfield w 44 5, vs1 := wfield w 39 5, vs2 := wfield w 34 5, vs3 := wfield w 29 5,
    bc := wfield w 28 1, imm := wfield w 16 12, rsv := wfield w 0 16 }
/-- The fields of an AMMA (R49). -/
def AmmaWord.read (w : Word) : AmmaWord :=
  { fmta := wfield w 52 4, fmtb := wfield w 48 4, ha := wfield w 43 5, hb := wfield w 38 5, bin := wfield w 37 1,
    zero := wfield w 36 1, ta := wfield w 35 1, tb := wfield w 34 1, srca := wfield w 33 1, srcb := wfield w 32 1,
    tiles := wfield w 21 11, rsv := wfield w 0 21 }
/-- The fields of an ADRAIN (R50). -/
def AdrainWord.read (w : Word) : AdrainWord :=
  { fmto := wfield w 52 4, hd := wfield w 47 5, bin := wfield w 46 1, rnd := wfield w 44 2, sat := wfield w 43 1,
    tally := wfield w 42 1, rsv := wfield w 0 42 }
/-- The fields of an AEMIT (R51). -/
def AemitWord.read (w : Word) : AemitWord :=
  { bin := wfield w 55 1, floor := wfield w 54 1, sheaf := wfield w 38 16, tile := wfield w 22 16, rsv := wfield w 0 22 }
/-- The fields of a furrow word (R157). -/
def FurWord.read (w : Word) : FurWord :=
  { fmt := wfield w 52 4, lane := wfield w 51 1, trans := wfield w 50 1, hs := wfield w 45 5, hb := wfield w 40 5,
    tiles := wfield w 29 11, rsv := wfield w 0 29 }
/-- The fields of a drill word (R204). -/
def DrillWord.read (w : Word) : DrillWord :=
  { d := wfield w 54 2, hs := wfield w 49 5, mode := wfield w 48 1, rsv := wfield w 0 48 }
/-- The fields of a sync word (R237). -/
def SyncWord.read (w : Word) : SyncWord :=
  { hd := wfield w 51 5, hs := wfield w 46 5, cnt := wfield w 43 3, rsv := wfield w 0 43 }

/-- The operations of UNIT 0 (R98) but HALT. -/
def handOps : List (BitVec 8 × (CoreId → HandWord → Instr)) :=
  [(0x01#8, Instr.add), (0x02#8, Instr.sub), (0x03#8, Instr.and), (0x04#8, Instr.or), (0x05#8, Instr.xor), (0x06#8, Instr.shl),
   (0x07#8, Instr.shr), (0x08#8, Instr.sra), (0x09#8, Instr.slt), (0x0A#8, Instr.sltu), (0x0B#8, Instr.mul), (0x10#8, Instr.addi),
   (0x11#8, Instr.andi), (0x12#8, Instr.ori), (0x13#8, Instr.shli), (0x14#8, Instr.shri), (0x15#8, Instr.srai), (0x16#8, Instr.lih),
   (0x20#8, Instr.ld), (0x22#8, Instr.ldw), (0x21#8, Instr.st), (0x23#8, Instr.stw), (0x30#8, Instr.beq), (0x31#8, Instr.bne)] ++
  [(0x32#8, Instr.blt), (0x33#8, Instr.bge), (0x34#8, Instr.bltu), (0x38#8, Instr.jal), (0x39#8, Instr.jr), (0x40#8, Instr.vsetvl),
   (0x28#8, Instr.csrr), (0x29#8, Instr.csrw)]

/-- The operations of UNIT 1 (R102). -/
def vecOps : List (BitVec 8 × (CoreId → VecWord → Instr)) :=
  [(0x01#8, Instr.vadd), (0x02#8, Instr.vsub), (0x03#8, Instr.vadds), (0x04#8, Instr.vsubs), (0x05#8, Instr.vmuls), (0x06#8, Instr.vmul),
   (0x07#8, Instr.vmin), (0x08#8, Instr.vmax), (0x10#8, Instr.vand), (0x11#8, Instr.vor), (0x12#8, Instr.vxor), (0x13#8, Instr.vandn),
   (0x14#8, Instr.vshl), (0x15#8, Instr.vshr), (0x16#8, Instr.vsra), (0x17#8, Instr.vshls), (0x18#8, Instr.vsrar), (0x20#8, Instr.vceq),
   (0x21#8, Instr.vclt), (0x22#8, Instr.vcle), (0x23#8, Instr.vsel), (0x30#8, Instr.vfadd), (0x31#8, Instr.vfsub), (0x32#8, Instr.vfmul)] ++
  [(0x33#8, Instr.vfma), (0x34#8, Instr.vfnma), (0x35#8, Instr.vfmin), (0x36#8, Instr.vfmax), (0x37#8, Instr.vfsgn), (0x38#8, Instr.vfabs),
   (0x39#8, Instr.vfneg), (0x40#8, Instr.vexp2), (0x41#8, Instr.vlog2), (0x42#8, Instr.vrcp), (0x43#8, Instr.vrsq), (0x48#8, Instr.vcvt),
   (0x49#8, Instr.vmxq), (0x4A#8, Instr.vmxe), (0x50#8, Instr.vperm), (0x58#8, Instr.vrsum), (0x59#8, Instr.vrmax), (0x5C#8, Instr.vins),
   (0x5D#8, Instr.vext), (0x60#8, Instr.vld), (0x61#8, Instr.vst)]

/-- The operation a table gives an OP. -/
def opFind {α : Type} : List (BitVec 8 × α) → BitVec 8 → Option α
  | [], _ => none
  | (k, v) :: t, op => if k = op then some v else opFind t op

/-- The command by which a core issues the word w, in sub-cycle sub of the furrow for a word of UNIT 4. A word with a UNIT and OP that the
tables of the spec do not list is issued as HALT's row has it: it halts the core (R55, R115, R237). -/
def coreWord (core : CoreId) (sub : Fin 8) (w : Word) : Option Instr :=
  let op4 : BitVec 4 := wfield w 56 4
  let listed : Option Instr :=
    match (wfield w 60 4).toNat with
    | 0 => (opFind handOps (wfield w 52 8)).map (fun f => f core (.read w))
    | 1 => (opFind vecOps (wfield w 52 8)).map (fun f => f core (.read w))
    | 2 =>
      if op4 = 1 then some (.amma core (.read w)) else if op4 = 2 then some (.adrain core (.read w))
      else if op4 = 3 then some (.aemit core (.read w)) else if op4 = 4 then some (.afence core (wfield w 0 56)) else none
    | 3 =>
      let d := DrillWord.read w
      if op4 = 1 then some (.darm core d)
      else if op4 = 2 then some (if d.mode = 0 then .dwait core d else .dwaitPendingFree core d) else none
    | 4 =>
      if op4 = 1 then some (.finj core (.read w) sub) else if op4 = 2 then some (.fcap core (.read w) sub)
      else if op4 = 3 then some (.fwait core (.read w) sub) else none
    | 5 =>
      if op4 = 1 then some (.tread core (.read w)) else if op4 = 2 then some (.twait core (.read w))
      else if op4 = 3 then some (.ssend core (.read w)) else if op4 = 4 then some (.swait core (.read w))
      else if op4 = 5 then some (.sbar core (.read w)) else none
    | _ => none
  some (listed.getD (.halt core w))

/-- The core that issues a word by this command, the sub-cycle it names (0 where it names none), and the word. The other
commands issue no word. -/
def wordOf : Instr → Option (CoreId × Fin 8 × Word)
  | .add core w => some (core, 0, w.word 0x01#8)
  | .sub core w => some (core, 0, w.word 0x02#8)
  | .and core w => some (core, 0, w.word 0x03#8)
  | .or core w => some (core, 0, w.word 0x04#8)
  | .xor core w => some (core, 0, w.word 0x05#8)
  | .shl core w => some (core, 0, w.word 0x06#8)
  | .shr core w => some (core, 0, w.word 0x07#8)
  | .sra core w => some (core, 0, w.word 0x08#8)
  | .slt core w => some (core, 0, w.word 0x09#8)
  | .sltu core w => some (core, 0, w.word 0x0A#8)
  | .mul core w => some (core, 0, w.word 0x0B#8)
  | .addi core w => some (core, 0, w.word 0x10#8)
  | .andi core w => some (core, 0, w.word 0x11#8)
  | .ori core w => some (core, 0, w.word 0x12#8)
  | .shli core w => some (core, 0, w.word 0x13#8)
  | .shri core w => some (core, 0, w.word 0x14#8)
  | .srai core w => some (core, 0, w.word 0x15#8)
  | .lih core w => some (core, 0, w.word 0x16#8)
  | .ld core w => some (core, 0, w.word 0x20#8)
  | .ldw core w => some (core, 0, w.word 0x22#8)
  | .st core w => some (core, 0, w.word 0x21#8)
  | .stw core w => some (core, 0, w.word 0x23#8)
  | .beq core w => some (core, 0, w.word 0x30#8)
  | .bne core w => some (core, 0, w.word 0x31#8)
  | .blt core w => some (core, 0, w.word 0x32#8)
  | .bge core w => some (core, 0, w.word 0x33#8)
  | .bltu core w => some (core, 0, w.word 0x34#8)
  | .jal core w => some (core, 0, w.word 0x38#8)
  | .jr core w => some (core, 0, w.word 0x39#8)
  | .vsetvl core w => some (core, 0, w.word 0x40#8)
  | .halt core w => some (core, 0, w)
  | .csrr core w => some (core, 0, w.word 0x28#8)
  | .csrw core w => some (core, 0, w.word 0x29#8)
  | .vadd core w => some (core, 0, w.word 0x01#8)
  | .vsub core w => some (core, 0, w.word 0x02#8)
  | .vadds core w => some (core, 0, w.word 0x03#8)
  | .vsubs core w => some (core, 0, w.word 0x04#8)
  | .vmuls core w => some (core, 0, w.word 0x05#8)
  | .vmul core w => some (core, 0, w.word 0x06#8)
  | .vmin core w => some (core, 0, w.word 0x07#8)
  | .vmax core w => some (core, 0, w.word 0x08#8)
  | .vand core w => some (core, 0, w.word 0x10#8)
  | .vor core w => some (core, 0, w.word 0x11#8)
  | .vxor core w => some (core, 0, w.word 0x12#8)
  | .vandn core w => some (core, 0, w.word 0x13#8)
  | .vshl core w => some (core, 0, w.word 0x14#8)
  | .vshr core w => some (core, 0, w.word 0x15#8)
  | .vsra core w => some (core, 0, w.word 0x16#8)
  | .vshls core w => some (core, 0, w.word 0x17#8)
  | .vsrar core w => some (core, 0, w.word 0x18#8)
  | .vceq core w => some (core, 0, w.word 0x20#8)
  | .vclt core w => some (core, 0, w.word 0x21#8)
  | .vcle core w => some (core, 0, w.word 0x22#8)
  | .vsel core w => some (core, 0, w.word 0x23#8)
  | .vfadd core w => some (core, 0, w.word 0x30#8)
  | .vfsub core w => some (core, 0, w.word 0x31#8)
  | .vfmul core w => some (core, 0, w.word 0x32#8)
  | .vfma core w => some (core, 0, w.word 0x33#8)
  | .vfnma core w => some (core, 0, w.word 0x34#8)
  | .vfmin core w => some (core, 0, w.word 0x35#8)
  | .vfmax core w => some (core, 0, w.word 0x36#8)
  | .vfsgn core w => some (core, 0, w.word 0x37#8)
  | .vfabs core w => some (core, 0, w.word 0x38#8)
  | .vfneg core w => some (core, 0, w.word 0x39#8)
  | .vexp2 core w => some (core, 0, w.word 0x40#8)
  | .vlog2 core w => some (core, 0, w.word 0x41#8)
  | .vrcp core w => some (core, 0, w.word 0x42#8)
  | .vrsq core w => some (core, 0, w.word 0x43#8)
  | .vcvt core w => some (core, 0, w.word 0x48#8)
  | .vmxq core w => some (core, 0, w.word 0x49#8)
  | .vmxe core w => some (core, 0, w.word 0x4A#8)
  | .vperm core w => some (core, 0, w.word 0x50#8)
  | .vrsum core w => some (core, 0, w.word 0x58#8)
  | .vrmax core w => some (core, 0, w.word 0x59#8)
  | .vins core w => some (core, 0, w.word 0x5C#8)
  | .vext core w => some (core, 0, w.word 0x5D#8)
  | .vld core w => some (core, 0, w.word 0x60#8)
  | .vst core w => some (core, 0, w.word 0x61#8)
  | .amma core w => some (core, 0, w.word)
  | .adrain core w => some (core, 0, w.word)
  | .aemit core w => some (core, 0, w.word)
  | .afence core rsv => some (core, 0, afenceWord rsv)
  | .darm core w => some (core, 0, w.word 1#4)
  | .dwait core w => some (core, 0, w.word 2#4)
  | .dwaitPendingFree core w => some (core, 0, w.word 2#4)
  | .finj core w sub => some (core, sub, w.word 1#4)
  | .fcap core w sub => some (core, sub, w.word 2#4)
  | .fwait core w sub => some (core, sub, w.word 3#4)
  | .tread core w => some (core, 0, w.word 1#4)
  | .twait core w => some (core, 0, w.word 2#4)
  | .ssend core w => some (core, 0, w.word 3#4)
  | .swait core w => some (core, 0, w.word 4#4)
  | .sbar core w => some (core, 0, w.word 5#4)
  | _ => none

end Sys2Proof
end

