-- ==== Sys2Proof/Machine/Crc.lean ====
section
/-! DEFINITION. The check function of R496 and its preset 0, CRC-32C (R497), which seed lots, images and the yoke use. -/

namespace Sys2Proof.Machine

/-- `x` with its low `w` bits in reverse order. -/
def bitReverse (w x : Nat) : Nat := (List.range w).foldl (fun a i => a * 2 + bits x i 1) 0

/-- One step of the check function: a bit enters the register. -/
def checkBit (w poly r b : Nat) : Nat :=
  let fb := (bits r (w - 1) 1 + b) % 2
  let s := r * 2 % 2 ^ w
  if fb = 1 then s ^^^ poly else s

/-- A byte enters the register (R496). -/
def checkByte (w poly : Nat) (refin : Bool) (r : Nat) (b : Byte) : Nat :=
  let x := if refin then bitReverse 8 b.toNat else b.toNat
  [7, 6, 5, 4, 3, 2, 1, 0].foldl (fun a i => checkBit w poly a (bits x i 1)) r

/-- The register after the bytes given. -/
def checkRun (w poly : Nat) (refin : Bool) (r : Nat) (bs : List Byte) : Nat := bs.foldl (checkByte w poly refin) r

/-- The result of a register (R496). -/
def checkEnd (w : Nat) (refout : Bool) (xorout r : Nat) : Nat := (if refout then bitReverse w r else r) ^^^ xorout

/-- CRC-32C (R497). -/
def crc32c (bs : List Byte) : Nat := checkEnd 32 true 0xFFFFFFFF (checkRun 32 0x1EDC6F41 true 0xFFFFFFFF bs)

end Sys2Proof.Machine
end

