-- ==== Sys2Proof/Config.lean ====
section
/-! DEFINITION. What the spec leaves to an implementation and the values it leaves open. Each free value is a constant
without a body: nothing can prove which number it is, so a claim holds whatever it is. The log entry is named at each. -/

namespace Sys2Proof.Config

/-- VEXP2 on an FP32 operand, used while it lies inside the bound of R105 (log entry 6). -/
opaque vexp2 : BitVec 32 → BitVec 32
/-- VLOG2 on an FP32 operand, used while it lies inside the bound of R105 (log entry 6). -/
opaque vlog2 : BitVec 32 → BitVec 32
/-- VRCP on an FP32 operand, used while it lies inside the bound of R105 (log entry 6). -/
opaque vrcp : BitVec 32 → BitVec 32
/-- VRSQ on an FP32 operand, used while it lies inside the bound of R105 (log entry 6). -/
opaque vrsq : BitVec 32 → BitVec 32

/-- What ALM_EST shows of a croft whose clock stands, which keeps no estimate (R228), by croft and almanac tick (log entry 53). -/
opaque idleEst : Nat → Nat → Nat

/-- What a relocation writes on a core where what it names has no place, by core, word and argument (R256; log entry 63). -/
opaque openReloc : Nat → Nat → Nat → BitVec 32

/-- What a byte holds whose content the spec leaves open, by the position in the sequence of free values (log entry 14). -/
opaque freeByte : Nat → BitVec 8

/-- The check bytes 232-255 of a Yosal flit, by its bytes 0-231 and the place among them: the spec names a CRC-64 and a
Reed-Solomon code and not their polynomials (R379; log entry 79). -/
opaque flitCheck : List (BitVec 8) → Nat → BitVec 8

/-- The P-384 identity key that the key unit derives from the PUF response and ID_SEED (R446). -/
opaque identityKey : List (BitVec 8) → Nat
/-- The secret number of a signature, by the position in the sequence of free values (R447, R449; log entry 28). -/
opaque signSecret : Nat → Nat
/-- The key unit's sealing key (R461). -/
opaque sealKey : List (BitVec 8)
/-- The Knaza access key that a firmware body carries: X then Y, 48 bytes each (R464). -/
opaque accessKey : List (BitVec 8) → List (BitVec 8)

end Sys2Proof.Config
end

