-- ==== Sys2Proof/Machine/Float.lean ====
section
/-! DEFINITION. The number formats (R71), exact values, the one rounding of every conversion and operation (R77-R81,
R104), saturation (R78), block scaling (R75, R85) and the approximations (R105). -/

namespace Sys2Proof.Machine

/-- How a format spends its top codes (R71): infinities and NaNs as IEEE 754; one NaN code and no infinity (E4M3);
finite codes only. -/
inductive FmtKind where
  | ieee | oneNan | finite
  deriving DecidableEq, Repr

/-- A float format (R71). -/
structure Fmt where
  /-- Exponent bits. -/
  eb : Nat
  /-- Mantissa bits. -/
  mb : Nat
  /-- Exponent bias. -/
  bias : Nat
  /-- Use of the top codes. -/
  kind : FmtKind
  deriving DecidableEq, Repr

def fp32 : Fmt := ⟨8, 23, 127, .ieee⟩
def fp16 : Fmt := ⟨5, 10, 15, .ieee⟩
def bf16 : Fmt := ⟨8, 7, 127, .ieee⟩
def e4m3 : Fmt := ⟨4, 3, 7, .oneNan⟩
def e5m2 : Fmt := ⟨5, 2, 15, .ieee⟩
def e2m3 : Fmt := ⟨2, 3, 1, .finite⟩
def e3m2 : Fmt := ⟨3, 2, 3, .finite⟩
def e2m1 : Fmt := ⟨2, 1, 1, .finite⟩

/-- Width of a code of the format. -/
def Fmt.width (f : Fmt) : Nat := 1 + f.eb + f.mb

/-- The largest finite code, sign clear. -/
def Fmt.maxFinite (f : Fmt) : Nat :=
  match f.kind with
  | .ieee => (2 ^ f.eb - 1) * 2 ^ f.mb - 1
  | .oneNan => 2 ^ (f.eb + f.mb) - 2
  | .finite => 2 ^ (f.eb + f.mb) - 1

/-- The canonical NaN (R73); a format without a NaN has none, and its zero stands here. -/
def Fmt.nanCode (f : Fmt) : Nat :=
  match f.kind with
  | .ieee => (2 ^ f.eb - 1) * 2 ^ f.mb + 2 ^ (f.mb - 1)
  | .oneNan => 2 ^ (f.eb + f.mb) - 1
  | .finite => 0

/-- A value: a NaN, an infinity, or the exact number ±m·2^e (zero keeps a sign). -/
inductive FVal where
  | nan
  | inf (neg : Bool)
  | fin (neg : Bool) (m : Nat) (e : Int)
  deriving DecidableEq, Repr

/-- The value of a code (R71). -/
def Fmt.decode (f : Fmt) (x : Nat) : FVal :=
  let neg := decide (bits x (f.eb + f.mb) 1 = 1)
  let ex := bits x f.mb f.eb
  let man := bits x 0 f.mb
  let fin : FVal :=
    if ex = 0 then .fin neg man (1 - (f.bias : Int) - f.mb)
    else .fin neg (2 ^ f.mb + man) ((ex : Int) - f.bias - f.mb)
  match f.kind with
  | .ieee => if ex = 2 ^ f.eb - 1 then (if man = 0 then .inf neg else .nan) else fin
  | .oneNan => if ex * 2 ^ f.mb + man = 2 ^ (f.eb + f.mb) - 1 then .nan else fin
  | .finite => fin

/-- `m·2^k` for a `k` of either sign, dropping the bits below 1. -/
def scaleNat (m : Nat) (k : Int) : Nat := if 0 ≤ k then m * 2 ^ k.toNat else m / 2 ^ (-k).toNat

/-- Rounding: to nearest, ties to even; or stochastic with the 16 random bits given (R81). -/
inductive Rnd where
  | rne
  | sr (r : Nat)
  deriving DecidableEq, Repr

/-- Whether the kept magnitude goes up by one unit, given what is discarded below `2^shift` (R77, R81). -/
def Rnd.up (rnd : Rnd) (kept rem shift : Nat) : Bool :=
  match rnd with
  | .rne => decide (2 * rem > 2 ^ shift) || (decide (2 * rem = 2 ^ shift) && decide (kept % 2 = 1))
  | .sr r =>
    let d := if 16 ≤ shift then rem / 2 ^ (shift - 16) else rem * 2 ^ (16 - shift)
    decide (65536 ≤ d + r)

/-- The magnitude code a positive number `m·2^e` rounds to, as if the format had no largest value (R77, R79). -/
def Fmt.roundMag (f : Fmt) (rnd : Rnd) (m : Nat) (e : Int) : Nat :=
  let top : Int := (ilog2 m : Int) + e
  let emin : Int := 1 - (f.bias : Int)
  let q : Int := (if top < emin then emin else top) - f.mb
  let shift : Nat := (q - e).toNat
  let kept : Nat := scaleNat m (e - q)
  let rem : Nat := if e < q then m % 2 ^ shift else 0
  let up : Nat := if e < q then b2n (rnd.up kept rem shift) else 0
  ((q + f.mb + f.bias - 1).toNat) * 2 ^ f.mb + (kept + up)

/-- A conversion's result: the code, whether it overflowed (R78), whether it saturated. -/
structure Conv where
  code : Nat
  ovf : Bool
  sat : Bool
  deriving DecidableEq, Repr

/-- One conversion of an exact value into a format (R77-R79, R81). -/
def Fmt.convert (f : Fmt) (rnd : Rnd) (saturate : Bool) (v : FVal) : Conv :=
  let sgn (neg : Bool) : Nat := b2n neg * 2 ^ (f.eb + f.mb)
  let beyond (neg : Bool) : Conv :=
    if saturate then ⟨sgn neg + f.maxFinite, true, true⟩
    else match f.kind with
      | .ieee => ⟨sgn neg + (2 ^ f.eb - 1) * 2 ^ f.mb, true, false⟩
      | .oneNan => ⟨f.nanCode, true, false⟩
      | .finite => ⟨sgn neg + f.maxFinite, true, true⟩
  match v with
  | .nan => ⟨f.nanCode, false, false⟩
  | .inf neg => beyond neg
  | .fin neg m e =>
    if m = 0 then ⟨sgn neg, false, false⟩
    else
      let mag := f.roundMag rnd m e
      if f.maxFinite < mag then beyond neg else ⟨sgn neg + mag, false, false⟩

/-- The code of an exact value, rounded once to nearest even, without saturation (R104). -/
def Fmt.round (f : Fmt) (v : FVal) : Nat := (f.convert .rne false v).code

/-- The sign clear or set on a value. -/
def FVal.withSign (neg : Bool) : FVal → FVal
  | .nan => .nan
  | .inf _ => .inf neg
  | .fin _ m e => .fin neg m e

/-- The negated value. -/
def FVal.neg : FVal → FVal
  | .nan => .nan
  | .inf n => .inf (!n)
  | .fin n m e => .fin (!n) m e

/-- The exact value of an integer. -/
def FVal.ofInt (x : Int) : FVal := .fin (decide (x < 0)) x.natAbs 0

/-- A finite value's signed mantissa. -/
def signed (neg : Bool) (m : Nat) : Int := if neg then -(m : Int) else m

/-- Exact sum (IEEE 754 rules for zeros, infinities and NaNs, R104). -/
def FVal.add : FVal → FVal → FVal
  | .nan, _ => .nan
  | _, .nan => .nan
  | .inf a, .inf b => if a = b then .inf a else .nan
  | .inf a, .fin _ _ _ => .inf a
  | .fin _ _ _, .inf b => .inf b
  | .fin na ma ea, .fin nb mb eb =>
    let e := if ea < eb then ea else eb
    let s : Int := signed na (scaleNat ma (ea - e)) + signed nb (scaleNat mb (eb - e))
    if s = 0 then
      if ma = 0 ∧ mb = 0 then .fin (na && nb) 0 e else .fin false 0 e
    else .fin (decide (s < 0)) s.natAbs e

/-- Exact product (IEEE 754 rules, R104). -/
def FVal.mul : FVal → FVal → FVal
  | .nan, _ => .nan
  | _, .nan => .nan
  | .inf a, .inf b => .inf (a != b)
  | .inf a, .fin nb m _ => if m = 0 then .nan else .inf (a != nb)
  | .fin na m _, .inf b => if m = 0 then .nan else .inf (na != b)
  | .fin na ma ea, .fin nb mb eb => .fin (na != nb) (ma * mb) (ea + eb)

/-- The value times 2^k, exactly. -/
def FVal.scale (k : Int) : FVal → FVal
  | .nan => .nan
  | .inf n => .inf n
  | .fin n m e => .fin n m (e + k)

/-- Ordering of two values that are no NaN, with −0 equal to +0. -/
def FVal.lt : FVal → FVal → Bool
  | .nan, _ => false
  | _, .nan => false
  | .inf a, .inf b => a && !b
  | .inf a, .fin _ _ _ => a
  | .fin _ _ _, .inf b => !b
  | .fin na ma ea, .fin nb mb eb =>
    let e := if ea < eb then ea else eb
    decide (signed na (scaleNat ma (ea - e)) < signed nb (scaleNat mb (eb - e)))

/-- Equality of two values that are no NaN, with −0 equal to +0. -/
def FVal.eqv (a b : FVal) : Bool :=
  match a, b with
  | .nan, _ => false
  | _, .nan => false
  | _, _ => !(FVal.lt a b) && !(FVal.lt b a)

/-- Whether the value is a NaN. -/
def FVal.isNan : FVal → Bool
  | .nan => true
  | _ => false

/-- Whether the value is a NaN or an infinity. -/
def FVal.nonFinite : FVal → Bool
  | .nan => true
  | .inf _ => true
  | .fin _ _ _ => false

/-- Whether the value is a zero of either sign. -/
def FVal.isZero : FVal → Bool
  | .fin _ m _ => decide (m = 0)
  | _ => false

/-- Whether the sign of the value is set. -/
def FVal.isNeg : FVal → Bool
  | .nan => false
  | .inf n => n
  | .fin n _ _ => n

/-- floor(log2 |x|) of a finite nonzero value. -/
def FVal.exponent : FVal → Int
  | .fin _ m e => (ilog2 m : Int) + e
  | _ => 0

/-- The integer nearest to a finite value, ties to even (R80). -/
def FVal.toInt : FVal → Int
  | .fin n m e =>
    if 0 ≤ e then signed n (m * 2 ^ e.toNat)
    else
      let sh := (-e).toNat
      let kept := m / 2 ^ sh
      signed n (kept + b2n (Rnd.up .rne kept (m % 2 ^ sh) sh))
  | _ => 0

/-- A float converted to a signed integer range (R80): rounded, clamped, NaN gives 0. Second component: it clamped. -/
def FVal.toIntClamp (lo hi : Int) : FVal → Int × Bool
  | .nan => (0, false)
  | .inf n => (if n then lo else hi, true)
  | .fin n m e =>
    let x := FVal.toInt (.fin n m e)
    (clampInt lo hi x, decide (x < lo) || decide (hi < x))

/-- R81: the 16 random bits of an element. -/
def srBits (seed step unit seq idx : Nat) : Nat :=
  let m64 := 2 ^ 64
  let x0 := ((seed % 2 ^ 32) * 2 ^ 32 + step % 2 ^ 32) % m64
  let x1 := x0 ^^^ ((unit * 2 ^ 40) % m64) ^^^ ((seq * 2 ^ 8) % m64) ^^^ idx
  let x2 := (x1 * 0x9E3779B97F4A7C15) % m64
  let x3 := x2 ^^^ (x2 / 2 ^ 29)
  let x4 := (x3 * 0xBF58476D1CE4E5B9) % m64
  let x5 := x4 ^^^ (x4 / 2 ^ 32)
  x5 % 65536

/-- R75: exponent of the largest normal element value. -/
def Fmt.emaxElem (f : Fmt) : Int :=
  match f.kind with
  | .oneNan => 8
  | .ieee => (2 ^ (f.eb - 1) : Nat) - 1
  | .finite => (2 ^ f.eb - 1 : Nat) - (f.bias : Int)

/-- An MX group produced by R75: the scale byte, the element codes, and whether an element saturated. -/
structure MxGroup where
  scale : Nat
  elems : List Nat
  sat : Bool
  deriving DecidableEq, Repr

/-- Larger of two magnitudes. -/
def FVal.maxMag (a b : FVal) : FVal :=
  if FVal.lt (a.withSign false) (b.withSign false) then b.withSign false else a.withSign false

/-- R75: choose the scale and the elements; `rnd j` is the rounding of element `j`. -/
def mxGroup (f : Fmt) (rnd : Nat → Rnd) (v : List FVal) : MxGroup :=
  if v.any FVal.nonFinite then ⟨0xFF, v.map (fun _ => 0), false⟩
  else
    let amax := v.foldl FVal.maxMag (.fin false 0 0)
    let x : Int := if amax.isZero then 0 else clampInt (-127) 127 (amax.exponent - f.emaxElem)
    let es := (v.zip (List.range v.length)).map (fun p => f.convert (rnd p.2) true (p.1.scale (-x)))
    ⟨(x + 127).toNat, es.map Conv.code, es.any Conv.sat⟩

/-- R85: one element of an MX group expanded to BF16. -/
def mxExpand (f : Fmt) (scale code : Nat) : Nat :=
  if scale = 0xFF then bf16.nanCode
  else
    match (f.decode code).scale ((scale : Int) - 127) with
    | .nan => bf16.nanCode
    | .inf n => bf16.round (.inf n)
    | v => (bf16.convert .rne true v).code

/-! ### The approximations (R105) -/

/-- Integer square root of a number below 2^(2n). -/
def isqrtBits : Nat → Nat → Nat → Nat
  | 0, _, r => r
  | n + 1, x, r =>
    let t := r + 2 ^ n
    isqrtBits n x (if t * t ≤ x then t else r)

/-- 2^(2^-i), as a number with 64 fraction bits, rounded down: `i` square roots of 2. -/
def rootTwo : Nat → Nat
  | 0 => 2 * 2 ^ 64
  | i + 1 => isqrtBits 66 (rootTwo i * 2 ^ 64) 0

/-- 2^f for a fraction `f / 2^n`, with 64 fraction bits: the product of the roots named by the bits of `f`. -/
def expFrac : Nat → Nat → Nat
  | 0, _ => 2 ^ 64
  | n + 1, f =>
    let low := expFrac n (f / 2)
    if f % 2 = 1 then low * rootTwo (n + 1) / 2 ^ 64 else low

/-- A finite value as a number of 2^-40, rounded down. -/
def FVal.fix40 : FVal → Int
  | .fin n m e =>
    let k : Int := e + 40
    if n then (if 0 ≤ k then -((m * 2 ^ k.toNat : Nat) : Int) else -((ceilDiv m (2 ^ (-k).toNat) : Nat) : Int))
    else (scaleNat m k : Int)
  | _ => 0

/-- 2^x of a finite `x`, to about 2^-38 relative. -/
def exp2Ref (v : FVal) : FVal :=
  let x := v.fix40
  let ip : Int := x / (2 ^ 40 : Nat)
  let fp : Nat := (x % ((2 ^ 40 : Nat) : Int)).toNat
  .fin false (expFrac 40 fp) (ip - 64)

/-- The fraction bits of log2 of a number in [1, 2) held with 64 fraction bits: `n` squarings. -/
def logBits : Nat → Nat → Nat → Nat
  | 0, _, acc => acc
  | n + 1, x, acc =>
    let y := x * x / 2 ^ 64
    if 2 * 2 ^ 64 ≤ y then logBits n (y / 2) (2 * acc + 1) else logBits n y (2 * acc)

/-- log2 x of a finite positive `x`, to about 2^-48. -/
def log2Ref (v : FVal) : FVal :=
  match v with
  | .fin _ m e =>
    let l := ilog2 m
    let x := if l ≤ 64 then m * 2 ^ (64 - l) else m / 2 ^ (l - 64)
    let frac := logBits 48 x 0
    let whole : Int := ((l : Int) + e) * ((2 ^ 48 : Nat) : Int) + frac
    .fin (decide (whole < 0)) whole.natAbs (-48)
  | _ => .nan

/-- `|a − b| ≤ 2^-22·|c|` on finite values, exactly. -/
def nearRel (a b c : FVal) : Bool :=
  let d := (FVal.add a b.neg).withSign false
  !(FVal.lt ((c.withSign false).scale (-22)) d)

/-- A candidate result of an approximation if it keeps the bound, else the value computed here. -/
def within (ok : Bool) (cand comp : Nat) : Nat := if ok then cand else comp

/-- VEXP2 on FP32 (R105). A result below the normal range is subnormal or +0: one that keeps the relative bound where some subnormal does,
else any. -/
def vexp2Code (x : Nat) : Nat :=
  match fp32.decode x with
  | .nan => fp32.nanCode
  | .inf n => if n then 0 else 0x7F800000
  | v =>
    if !(FVal.lt v (.fin false 128 0)) then 0x7F800000
    else
      let cand := (Config.vexp2 (BitVec.ofNat 32 x)).toNat
      let ref := exp2Ref v
      let cv := fp32.decode cand
      if FVal.lt v (.fin true 200 0) then within (decide (cand < 0x800000)) cand 0
      else if FVal.lt v (.fin true 126 0) then
        let comp := min (fp32.round ref) 0x7FFFFF
        within (decide (cand < 0x800000) && (nearRel cv ref ref || !nearRel (fp32.decode comp) ref ref)) cand comp
      else within (!cv.nonFinite && nearRel cv ref ref) cand (fp32.round ref)

/-- VLOG2 on FP32 (R105). -/
def vlog2Code (x : Nat) : Nat :=
  match fp32.decode x with
  | .nan => fp32.nanCode
  | .inf n => if n then fp32.nanCode else 0x7F800000
  | .fin n m e =>
    if m = 0 then 0xFF800000
    else if n then fp32.nanCode
    else
      let v : FVal := .fin n m e
      let ref := log2Ref v
      let cand := (Config.vlog2 (BitVec.ofNat 32 x)).toNat
      let cv := fp32.decode cand
      let near := !(FVal.lt v (.fin false 1 (-1))) && FVal.lt v (.fin false 2 0)
      let unit : FVal := if near then .fin false 1 0 else ref
      within (!cv.nonFinite && nearRel cv ref unit) cand (fp32.round ref)

/-- 1/x of a finite nonzero value, to 60 bits. -/
def recipRef : FVal → FVal
  | .fin n m e => .fin n (2 ^ (ilog2 m + 60) / m) (-e - (ilog2 m + 60 : Nat))
  | _ => .nan

/-- VRCP on FP32 (R105). -/
def vrcpCode (x : Nat) : Nat :=
  match fp32.decode x with
  | .nan => fp32.nanCode
  | .inf n => b2n n * 0x80000000
  | .fin n m e =>
    if m = 0 then b2n n * 0x80000000 + 0x7F800000
    else
      let v : FVal := .fin n m e
      let cand := (Config.vrcp (BitVec.ofNat 32 x)).toNat
      let cv := fp32.decode cand
      let comp := fp32.round (recipRef v)
      within (!cv.nonFinite && nearRel (FVal.mul cv v) (.fin false 1 0) (.fin false 1 0)) cand comp

/-- 1/sqrt x of a finite positive value, to about 60 bits. -/
def rsqRef : FVal → FVal
  | .fin _ m e =>
    let odd : Nat := (e % 2).toNat
    let m2 := m * 2 ^ odd
    let e2 : Int := (e - odd) / 2
    let l := ilog2 m2 / 2
    .fin false (isqrtBits (l + 62) (2 ^ (2 * (l + 61)) * 2 ^ (2 * l) / m2) 0) (-e2 - (2 * l + 61 : Nat))
  | _ => .nan

/-- VRSQ on FP32 (R105). -/
def vrsqCode (x : Nat) : Nat :=
  match fp32.decode x with
  | .nan => fp32.nanCode
  | .inf n => if n then fp32.nanCode else 0
  | .fin n m e =>
    if m = 0 then (if n then 0xFF800000 else 0x7F800000)
    else if n then fp32.nanCode
    else
      let v : FVal := .fin n m e
      let cand := (Config.vrsq (BitVec.ofNat 32 x)).toNat
      let cv := fp32.decode cand
      let y2x := FVal.mul (FVal.mul cv cv) v
      -- (1 - 2^-22)^2 ≤ y²x ≤ (1 + 2^-22)^2
      let loB : FVal := .fin false ((2 ^ 22 - 1) * (2 ^ 22 - 1)) (-44)
      let hiB : FVal := .fin false ((2 ^ 22 + 1) * (2 ^ 22 + 1)) (-44)
      let ok := !cv.nonFinite && !cv.isNeg && !(FVal.lt y2x loB) && !(FVal.lt hiB y2x)
      within ok cand (fp32.round (rsqRef v))

end Sys2Proof.Machine
end

