-- ==== Sys2Proof/Machine/Regs.lean ====
section
/-! DEFINITION. What a register field is: the block it lies in, where, its width and access code (R12). -/

namespace Sys2Proof.Machine

/-- The access codes of R12. -/
inductive Access where
  | ro | rw | wo | w1c | rc | stg
  deriving DecidableEq, Repr

/-- The blocks of registers of the module address map (R33 and the chapters' register sections). -/
inductive Block where
  | core | croft | tabko | cvu | port | floor | gleaner | yosal
  | geo | clk | fur | reeve | yoke | pwr | boot | bist | fault
  deriving DecidableEq, Repr

/-- The address of register offset 0 of unit `i` of a block (R33). A check-value unit is numbered tabko × 4 + unit. -/
def Block.base : Block → Nat → Nat
  | .core, i => 0x200010000000 + i * 0x1000
  | .croft, i => 0x200001000000 + i * 0x10000
  | .tabko, i => 0x200040000000 + i * 0x100000
  | .cvu, i => 0x200040000000 + i / 4 * 0x100000 + 0x2000 + i % 4 * 0x40
  | .port, i => 0x200050000000 + i * 0x100000
  | .floor, i => 0x200060000000 + i * 0x400000
  | .gleaner, _ => 0x200060800000
  | .yosal, _ => 0x200070000000
  | .geo, _ => 0x200000800000
  | .fault, _ => 0x200000880000
  | .fur, _ => 0x200000900000
  | .clk, _ => 0x200000A00000
  | .reeve, _ => 0x200000B00000
  | .yoke, _ => 0x200000C00000
  | .pwr, _ => 0x200000D00000
  | .boot, _ => 0x200000E00000
  | .bist, _ => 0x200000F00000

/-- A field of a register, or of each register of a group. -/
structure Fld where
  /-- The block. -/
  blk : Block
  /-- Byte offset of the (first) register in the block. -/
  off : Nat
  /-- Distance in bytes between registers of the group. -/
  stride : Nat
  /-- Number of registers in the group. -/
  count : Nat
  /-- Lowest bit. -/
  lo : Nat
  /-- Width in bits. -/
  width : Nat
  /-- Access code. -/
  acc : Access
  /-- Value at reset. -/
  reset : Nat
  deriving DecidableEq, Repr

/-- The address of register `j` of the group in unit `i` (R33). -/
def Fld.addr (f : Fld) (i j : Nat) : Nat := f.blk.base i + f.off + j * f.stride

/-- Where the state keeps the field: its register's address and its lowest bit. -/
def Fld.key (f : Fld) (i j : Nat) : Nat := f.addr i j * 64 + f.lo

end Sys2Proof.Machine
end

