-- ==== Sys2Proof/Machine/RegTable.lean ====
section
/-! DEFINITION. The register tables of the spec: one field per line, in the manual's own names, with the block it
lies in, its offset (and, for a group of like registers, their distance and number), its lowest bit and width, its access
code (R12) and its reset value. A field whose reset value the spec gives as "from the configuration image" (R15)
reads 0 here until RST_N_RISE loads it: DESIGN CHOICE, log entry 3. -/

namespace Sys2Proof.Machine.Reg


/-! DIST (R28) -/
def DIST.XING : Fld := ⟨.geo, 0x10000, 8, 12800, 0, 5, .ro, 0⟩
def DIST.EXIT : Fld := ⟨.geo, 0x10000, 8, 12800, 5, 3, .ro, 0⟩
def DIST.CYC_OUT : Fld := ⟨.geo, 0x10000, 8, 12800, 8, 8, .ro, 0⟩
def DIST.CYC_BACK : Fld := ⟨.geo, 0x10000, 8, 12800, 16, 8, .ro, 0⟩
def DIST.TK_OUT : Fld := ⟨.geo, 0x10000, 8, 12800, 24, 16, .ro, 0⟩
def DIST.TK_BACK : Fld := ⟨.geo, 0x10000, 8, 12800, 40, 16, .ro, 0⟩
def DIST.VALID : Fld := ⟨.geo, 0x10000, 8, 12800, 63, 1, .ro, 0⟩

/-! GEO_CTL (R31) -/
def GEO_CTL.READY : Fld := ⟨.geo, 0, 8, 1, 0, 1, .ro, 0⟩
def GEO_CTL.BUSY : Fld := ⟨.geo, 0, 8, 1, 1, 1, .ro, 0⟩
def GEO_CTL.GEN : Fld := ⟨.geo, 0, 8, 1, 16, 16, .ro, 0⟩
def GEO_CTL.CROFTS : Fld := ⟨.geo, 0, 8, 1, 32, 9, .ro, 0⟩
def GEO_CTL.HOLDINGS : Fld := ⟨.geo, 0, 8, 1, 44, 5, .ro, 0⟩
def GEO_CTL.TABKOS : Fld := ⟨.geo, 0, 8, 1, 49, 6, .ro, 0⟩
def GEO_CTL.PORTS : Fld := ⟨.geo, 0, 8, 1, 55, 5, .ro, 0⟩

/-! CROFT_TABLE (R31) -/
def CROFT_TABLE.PRESENT : Fld := ⟨.geo, 0x1000, 8, 256, 0, 1, .ro, 0⟩
def CROFT_TABLE.HOLDING : Fld := ⟨.geo, 0x1000, 8, 256, 1, 4, .ro, 0⟩
def CROFT_TABLE.SPARE_USED : Fld := ⟨.geo, 0x1000, 8, 256, 5, 1, .ro, 0⟩
def CROFT_TABLE.BAD_ROW : Fld := ⟨.geo, 0x1000, 8, 256, 6, 4, .ro, 0⟩
def CROFT_TABLE.SPARE_GOOD : Fld := ⟨.geo, 0x1000, 8, 256, 10, 1, .ro, 0⟩
def CROFT_TABLE.FALLOW_COUNT : Fld := ⟨.geo, 0x1000, 8, 256, 11, 9, .ro, 0⟩
def CROFT_TABLE.ENCLOSURE : Fld := ⟨.geo, 0x1000, 8, 256, 20, 4, .ro, 0⟩
def CROFT_TABLE.ENCLOSED : Fld := ⟨.geo, 0x1000, 8, 256, 24, 1, .ro, 0⟩
def CROFT_TABLE.OP : Fld := ⟨.geo, 0x1000, 8, 256, 25, 3, .ro, 0⟩
def CROFT_TABLE.TRANSIT : Fld := ⟨.geo, 0x1000, 8, 256, 28, 1, .ro, 0⟩
def CROFT_TABLE.S_N : Fld := ⟨.geo, 0x1000, 8, 256, 32, 2, .ro, 0⟩
def CROFT_TABLE.S_E : Fld := ⟨.geo, 0x1000, 8, 256, 34, 2, .ro, 0⟩
def CROFT_TABLE.S_S : Fld := ⟨.geo, 0x1000, 8, 256, 36, 2, .ro, 0⟩
def CROFT_TABLE.S_W : Fld := ⟨.geo, 0x1000, 8, 256, 38, 2, .ro, 0⟩

/-! HOLDING_TABLE (R31) -/
def HOLDING_TABLE.PRESENT : Fld := ⟨.geo, 0x2000, 8, 16, 0, 1, .ro, 0⟩
def HOLDING_TABLE.STATE : Fld := ⟨.geo, 0x2000, 8, 16, 1, 2, .ro, 0⟩
def HOLDING_TABLE.OP : Fld := ⟨.geo, 0x2000, 8, 16, 3, 3, .ro, 0⟩

/-! PORT_TABLE (R31) -/
def PORT_TABLE.PRESENT : Fld := ⟨.geo, 0x3000, 8, 48, 0, 1, .ro, 0⟩
def PORT_TABLE.CROFT : Fld := ⟨.geo, 0x3000, 8, 48, 1, 8, .ro, 0⟩
def PORT_TABLE.REACHABLE : Fld := ⟨.geo, 0x3000, 8, 48, 9, 1, .ro, 0⟩

/-! ARR_STAT (R70) -/
def ARR_STAT.BUSY : Fld := ⟨.core, 0x100, 8, 1, 0, 1, .ro, 0⟩
def ARR_STAT.COLD : Fld := ⟨.core, 0x100, 8, 1, 1, 1, .ro, 1⟩
def ARR_STAT.QDEPTH : Fld := ⟨.core, 0x100, 8, 1, 2, 3, .ro, 0⟩
def ARR_STAT.BIN0_INT : Fld := ⟨.core, 0x100, 8, 1, 5, 1, .ro, 0⟩
def ARR_STAT.BIN1_INT : Fld := ⟨.core, 0x100, 8, 1, 6, 1, .ro, 0⟩
def ARR_STAT.ILL : Fld := ⟨.core, 0x100, 8, 1, 7, 1, .w1c, 0⟩
def ARR_STAT.ISAT : Fld := ⟨.core, 0x100, 8, 1, 8, 1, .w1c, 0⟩
def ARR_STAT.NONFINITE : Fld := ⟨.core, 0x100, 8, 1, 9, 1, .w1c, 0⟩
def ARR_STAT.FAULT : Fld := ⟨.core, 0x100, 8, 1, 10, 1, .ro, 0⟩

/-! ARR_CHK (R70) -/
def ARR_CHK.CHK_TOTAL : Fld := ⟨.core, 0x108, 8, 1, 0, 16, .ro, 0⟩
def ARR_CHK.CHK_STEP : Fld := ⟨.core, 0x108, 8, 1, 16, 8, .ro, 0⟩
def ARR_CHK.CHK_LIMIT : Fld := ⟨.core, 0x108, 8, 1, 24, 8, .rw, 0⟩
def ARR_CHK.LOC_ROW : Fld := ⟨.core, 0x108, 8, 1, 32, 5, .ro, 0x1f⟩
def ARR_CHK.LOC_COL : Fld := ⟨.core, 0x108, 8, 1, 37, 5, .ro, 0x1f⟩
def ARR_CHK.LOC_VALID : Fld := ⟨.core, 0x108, 8, 1, 42, 1, .ro, 0⟩

/-! ARR_REPAIR (R70) -/
def ARR_REPAIR.SPARE_EN : Fld := ⟨.core, 0x110, 8, 1, 0, 1, .stg, 0⟩
def ARR_REPAIR.BAD_ROW : Fld := ⟨.core, 0x110, 8, 1, 1, 5, .stg, 0⟩
def ARR_REPAIR.SPARE_GOOD : Fld := ⟨.core, 0x110, 8, 1, 6, 1, .ro, 0⟩
def ARR_REPAIR.COMMIT : Fld := ⟨.core, 0x110, 8, 1, 7, 1, .wo, 0⟩

/-! ARR_COUNT (R70) -/
def ARR_COUNT.STEPS : Fld := ⟨.core, 0x118, 8, 1, 0, 48, .ro, 0⟩
def ARR_COUNT.RETRIES : Fld := ⟨.core, 0x118, 8, 1, 48, 16, .ro, 0⟩

/-! NUM_SR (R92) -/
def NUM_SR.SEED : Fld := ⟨.core, 0x120, 8, 1, 0, 32, .rw, 0⟩
def NUM_SR.STEP : Fld := ⟨.core, 0x120, 8, 1, 32, 32, .ro, 0⟩

/-! NUM_SR_SEQ (R92) -/
def NUM_SR_SEQ.SEQ : Fld := ⟨.core, 0x128, 8, 1, 0, 24, .ro, 0⟩

/-! TLY_CTL (R92) -/
def TLY_CTL.SLOT : Fld := ⟨.core, 0x180, 8, 1, 0, 2, .rw, 0⟩
def TLY_CTL.FLUSH_BUSY : Fld := ⟨.core, 0x180, 8, 1, 2, 1, .ro, 0⟩

/-! TLY_BIND (R92) -/
def TLY_BIND.TALLY_ID : Fld := ⟨.core, 0x188, 8, 4, 0, 10, .rw, 0⟩
def TLY_BIND.BOUND : Fld := ⟨.core, 0x188, 8, 4, 10, 1, .rw, 0⟩
def TLY_BIND.CSAT : Fld := ⟨.core, 0x188, 8, 4, 11, 1, .ro, 0⟩
def TLY_BIND.SIGMA : Fld := ⟨.core, 0x188, 8, 4, 16, 8, .rw, 0⟩

/-! TLY_HIST (R92) -/
def TLY_HIST.HIST_LO : Fld := ⟨.core, 0xc00, 8, 128, 0, 32, .ro, 0⟩
def TLY_HIST.HIST_HI : Fld := ⟨.core, 0xc00, 8, 128, 32, 32, .ro, 0⟩

/-! HND_CTL (R117) -/
def HND_CTL.ENTRY : Fld := ⟨.core, 0, 8, 1, 0, 11, .rw, 0⟩
def HND_CTL.START : Fld := ⟨.core, 0, 8, 1, 16, 1, .wo, 0⟩
def HND_CTL.STOP : Fld := ⟨.core, 0, 8, 1, 17, 1, .wo, 0⟩

/-! HND_STAT (R117) -/
def HND_STAT.HALTED : Fld := ⟨.core, 8, 8, 1, 0, 1, .ro, 1⟩
def HND_STAT.PC : Fld := ⟨.core, 8, 8, 1, 1, 11, .ro, 0⟩
def HND_STAT.CAUSE : Fld := ⟨.core, 8, 8, 1, 12, 4, .ro, 0⟩

/-! HND_CYC (R117) -/
def HND_CYC.CYCLES : Fld := ⟨.core, 0x10, 8, 1, 0, 48, .ro, 0⟩

/-! VEC_VL (R117) -/
def VEC_VL.VL : Fld := ⟨.core, 0x18, 8, 1, 0, 8, .ro, 0⟩

/-! VSTAT (R117) -/
def VSTAT.OOR : Fld := ⟨.core, 0x20, 8, 1, 0, 1, .w1c, 0⟩
def VSTAT.ISAT : Fld := ⟨.core, 0x20, 8, 1, 1, 1, .w1c, 0⟩
def VSTAT.FSAT : Fld := ⟨.core, 0x20, 8, 1, 2, 1, .w1c, 0⟩

/-! VEC_SRSEQ (R117) -/
def VEC_SRSEQ.SEQ : Fld := ⟨.core, 0x28, 8, 1, 0, 23, .ro, 0⟩

/-! HND_ILL (R117) -/
def HND_ILL.WORD : Fld := ⟨.core, 0x30, 8, 1, 0, 64, .ro, 0⟩

/-! HND_H (R117) -/
def HND_H.VALUE : Fld := ⟨.core, 0x200, 8, 32, 0, 64, .ro, 0⟩

/-! SP_CLASS (R141) -/
def SP_CLASS.CLASS : Fld := ⟨.core, 0x300, 8, 1, 0, 16, .stg, 0⟩
def SP_CLASS.COMMIT : Fld := ⟨.core, 0x300, 8, 1, 16, 1, .wo, 0⟩

/-! SP_STAT (R141) -/
def SP_STAT.LOCKED : Fld := ⟨.core, 0x308, 8, 1, 0, 1, .ro, 0⟩
def SP_STAT.WIPE_BUSY : Fld := ⟨.core, 0x308, 8, 1, 1, 1, .ro, 0⟩
def SP_STAT.RECLASS_BUSY : Fld := ⟨.core, 0x308, 8, 1, 2, 1, .ro, 0⟩

/-! SP_SCRUB (R141) -/
def SP_SCRUB.EN : Fld := ⟨.core, 0x310, 8, 1, 0, 1, .rw, 0⟩
def SP_SCRUB.PASSES : Fld := ⟨.core, 0x310, 8, 1, 16, 32, .ro, 0⟩

/-! SP_ECC (R141) -/
def SP_ECC.W_CORR : Fld := ⟨.core, 0x318, 8, 1, 0, 16, .ro, 0⟩
def SP_ECC.A_CORR : Fld := ⟨.core, 0x318, 8, 1, 16, 16, .ro, 0⟩
def SP_ECC.UNCORR : Fld := ⟨.core, 0x318, 8, 1, 32, 8, .ro, 0⟩

/-! SP_ECC_LOC (R141) -/
def SP_ECC_LOC.OFFSET : Fld := ⟨.core, 0x320, 8, 1, 0, 18, .ro, 0⟩
def SP_ECC_LOC.SLOT : Fld := ⟨.core, 0x320, 8, 1, 18, 3, .ro, 0⟩
def SP_ECC_LOC.VALID : Fld := ⟨.core, 0x320, 8, 1, 21, 1, .w1c, 0⟩

/-! SP_WIPE (R141) -/
def SP_WIPE.START : Fld := ⟨.core, 0x328, 8, 1, 0, 1, .wo, 0⟩
def SP_WIPE.COUNT : Fld := ⟨.core, 0x328, 8, 1, 32, 32, .ro, 0⟩

/-! GATE_WIN (R141) -/
def GATE_WIN.BASE : Fld := ⟨.core, 0x400, 0x20, 8, 0, 18, .stg, 0⟩
def GATE_WIN.SIZE : Fld := ⟨.core, 0x400, 0x20, 8, 18, 19, .stg, 0⟩

/-! GATE_OP (R141) -/
def GATE_OP.OPEN : Fld := ⟨.core, 0x408, 0x20, 8, 0, 1, .wo, 0⟩
def GATE_OP.CLOSE : Fld := ⟨.core, 0x408, 0x20, 8, 1, 1, .wo, 0⟩
def GATE_OP.COMMIT : Fld := ⟨.core, 0x408, 0x20, 8, 2, 1, .wo, 0⟩

/-! GATE_EPOCH (R141) -/
def GATE_EPOCH.EPOCH : Fld := ⟨.core, 0x410, 0x20, 8, 0, 32, .ro, 0⟩
def GATE_EPOCH.OPEN : Fld := ⟨.core, 0x410, 0x20, 8, 32, 1, .ro, 0⟩

/-! GATE_STAT (R141) -/
def GATE_STAT.LANDED : Fld := ⟨.core, 0x418, 0x20, 8, 0, 32, .ro, 0⟩
def GATE_STAT.STALE : Fld := ⟨.core, 0x418, 0x20, 8, 32, 16, .rc, 0⟩
def GATE_STAT.TORN : Fld := ⟨.core, 0x418, 0x20, 8, 48, 1, .w1c, 0⟩

/-! GATE_GRANT (R141) -/
def GATE_GRANT.DEST : Fld := ⟨.core, 0x500, 8, 8, 0, 17, .wo, 0⟩
def GATE_GRANT.UNITS : Fld := ⟨.core, 0x500, 8, 8, 24, 8, .wo, 0⟩

/-! GCR_LOST (R141) -/
def GCR_LOST.LOST : Fld := ⟨.core, 0x540, 8, 1, 0, 16, .rc, 0⟩

/-! GCR (R141) -/
def GCR.TARGET : Fld := ⟨.core, 0x580, 8, 16, 0, 17, .ro, 0⟩
def GCR.GATE : Fld := ⟨.core, 0x580, 8, 16, 17, 3, .ro, 0⟩
def GCR.VALID : Fld := ⟨.core, 0x580, 8, 16, 20, 1, .ro, 0⟩
def GCR.UNITS : Fld := ⟨.core, 0x580, 8, 16, 21, 11, .ro, 0⟩
def GCR.EPOCH : Fld := ⟨.core, 0x580, 8, 16, 32, 32, .ro, 0⟩

/-! FUR_POS (R171) -/
def FUR_POS.POS : Fld := ⟨.core, 0x700, 8, 1, 0, 17, .ro, 0⟩
def FUR_POS.IN_SEG : Fld := ⟨.core, 0x700, 8, 1, 17, 1, .ro, 0⟩
def FUR_POS.SEG : Fld := ⟨.core, 0x700, 8, 1, 18, 8, .ro, 0⟩

/-! FUR_BEAT (R171) -/
def FUR_BEAT.RBEAT : Fld := ⟨.core, 0x708, 8, 1, 0, 48, .ro, 0⟩
def FUR_BEAT.RUN : Fld := ⟨.core, 0x708, 8, 1, 48, 1, .ro, 0⟩

/-! FUR_STAT (R171) -/
def FUR_STAT.CATCH : Fld := ⟨.core, 0x710, 8, 1, 0, 8, .ro, 0⟩
def FUR_STAT.INJ_A : Fld := ⟨.core, 0x710, 8, 1, 8, 1, .ro, 0⟩
def FUR_STAT.INJ_B : Fld := ⟨.core, 0x710, 8, 1, 9, 1, .ro, 0⟩
def FUR_STAT.CAP : Fld := ⟨.core, 0x710, 8, 1, 10, 1, .ro, 0⟩
def FUR_STAT.HELD : Fld := ⟨.core, 0x710, 8, 1, 11, 1, .ro, 0⟩
def FUR_STAT.CAUSE : Fld := ⟨.core, 0x710, 8, 1, 12, 3, .ro, 0⟩
def FUR_STAT.HOLDCYC : Fld := ⟨.core, 0x710, 8, 1, 16, 32, .ro, 0⟩

/-! FUR_SEG (R171) -/
def FUR_SEG.ORIGIN : Fld := ⟨.fur, 0, 0x20, 256, 0, 8, .stg, 0⟩
def FUR_SEG.CROWS : Fld := ⟨.fur, 0, 0x20, 256, 8, 5, .stg, 0⟩
def FUR_SEG.CCOLS : Fld := ⟨.fur, 0, 0x20, 256, 13, 5, .stg, 0⟩
def FUR_SEG.ENCL : Fld := ⟨.fur, 0, 0x20, 256, 18, 4, .stg, 0⟩
def FUR_SEG.EN : Fld := ⟨.fur, 0, 0x20, 256, 22, 1, .stg, 0⟩
def FUR_SEG.LAP : Fld := ⟨.fur, 0, 0x20, 256, 23, 20, .stg, 0⟩
def FUR_SEG.COMMIT : Fld := ⟨.fur, 0, 0x20, 256, 43, 1, .wo, 0⟩

/-! FUR_LAPMIN (R171) -/
def FUR_LAPMIN.LAP_MIN : Fld := ⟨.fur, 8, 0x20, 256, 0, 20, .ro, 0⟩
def FUR_LAPMIN.VALID : Fld := ⟨.fur, 8, 0x20, 256, 20, 1, .ro, 0⟩

/-! FUR_RUN (R171) -/
def FUR_RUN.START : Fld := ⟨.fur, 0x10, 0x20, 256, 0, 1, .wo, 0⟩
def FUR_RUN.STOP : Fld := ⟨.fur, 0x10, 0x20, 256, 1, 1, .wo, 0⟩
def FUR_RUN.RUN : Fld := ⟨.fur, 0x10, 0x20, 256, 2, 1, .ro, 0⟩
def FUR_RUN.TICK0 : Fld := ⟨.fur, 0x10, 0x20, 256, 16, 48, .ro, 0⟩

/-! FUR_HOLD (R171) -/
def FUR_HOLD.HOLDS : Fld := ⟨.fur, 0x18, 0x20, 256, 0, 32, .ro, 0⟩
def FUR_HOLD.LAGS : Fld := ⟨.fur, 0x18, 0x20, 256, 32, 16, .ro, 0⟩

/-! RTR_STAT (R193) -/
def RTR_STAT.STILE : Fld := ⟨.core, 0x800, 8, 1, 0, 1, .ro, 0⟩
def RTR_STAT.FENCED : Fld := ⟨.core, 0x800, 8, 1, 1, 1, .ro, 0⟩
def RTR_STAT.MCSLOT : Fld := ⟨.core, 0x800, 8, 1, 2, 2, .ro, 0⟩
def RTR_STAT.COMB : Fld := ⟨.core, 0x800, 8, 1, 4, 5, .ro, 0⟩
def RTR_STAT.ANSWERED : Fld := ⟨.core, 0x800, 8, 1, 16, 16, .ro, 0⟩

/-! RTR_FLITS (R193) -/
def RTR_FLITS.FLITS : Fld := ⟨.core, 0x808, 8, 1, 0, 48, .ro, 0⟩

/-! RTR_WAIT (R193) -/
def RTR_WAIT.CREDIT_WAIT : Fld := ⟨.core, 0x810, 8, 1, 0, 32, .ro, 0⟩
def RTR_WAIT.ARB_WAIT : Fld := ⟨.core, 0x810, 8, 1, 32, 32, .ro, 0⟩

/-! MC_STAT (R193) -/
def MC_STAT.OUT : Fld := ⟨.core, 0x818, 8, 1, 0, 5, .ro, 0⟩
def MC_STAT.MISSES : Fld := ⟨.core, 0x818, 8, 1, 16, 16, .ro, 0⟩
def MC_STAT.WR : Fld := ⟨.core, 0x818, 8, 1, 32, 4, .ro, 0⟩
def MC_STAT.OVF : Fld := ⟨.core, 0x818, 8, 1, 36, 1, .w1c, 0⟩

/-! MC_MISS (R193) -/
def MC_MISS.TARGET : Fld := ⟨.core, 0x880, 8, 16, 0, 17, .ro, 0⟩
def MC_MISS.TAG : Fld := ⟨.core, 0x880, 8, 16, 17, 8, .ro, 0⟩
def MC_MISS.VALID : Fld := ⟨.core, 0x880, 8, 16, 25, 1, .w1c, 0⟩
def MC_MISS.DROP_TICK : Fld := ⟨.core, 0x880, 8, 16, 32, 16, .ro, 0⟩

/-! MESH_CTL (R193) -/
def MESH_CTL.MCAST_HOLD : Fld := ⟨.croft, 0x200, 8, 1, 0, 16, .rw, 0x40⟩

/-! DRL_STAT (R216) -/
def DRL_STAT.STATE : Fld := ⟨.core, 0x600, 0x30, 4, 0, 2, .ro, 0⟩
def DRL_STAT.PEND : Fld := ⟨.core, 0x600, 0x30, 4, 2, 1, .ro, 0⟩
def DRL_STAT.CREDIT_WAIT : Fld := ⟨.core, 0x600, 0x30, 4, 3, 1, .ro, 0⟩
def DRL_STAT.INFL : Fld := ⟨.core, 0x600, 0x30, 4, 4, 4, .ro, 0⟩
def DRL_STAT.STATUS : Fld := ⟨.core, 0x600, 0x30, 4, 8, 8, .ro, 0⟩
def DRL_STAT.BUSY_REF : Fld := ⟨.core, 0x600, 0x30, 4, 16, 1, .w1c, 0⟩
def DRL_STAT.ABORTED : Fld := ⟨.core, 0x600, 0x30, 4, 17, 1, .w1c, 0⟩
def DRL_STAT.MALFORM : Fld := ⟨.core, 0x600, 0x30, 4, 18, 4, .ro, 0⟩

/-! DRL_DONE (R216) -/
def DRL_DONE.DONE : Fld := ⟨.core, 0x608, 0x30, 4, 0, 32, .ro, 0⟩
def DRL_DONE.ERRXFER : Fld := ⟨.core, 0x608, 0x30, 4, 32, 16, .ro, 0⟩

/-! DRL_RESUME (R216) -/
def DRL_RESUME.I0 : Fld := ⟨.core, 0x610, 0x30, 4, 0, 16, .ro, 0⟩
def DRL_RESUME.I1 : Fld := ⟨.core, 0x610, 0x30, 4, 16, 16, .ro, 0⟩
def DRL_RESUME.I2 : Fld := ⟨.core, 0x610, 0x30, 4, 32, 16, .ro, 0⟩
def DRL_RESUME.I3 : Fld := ⟨.core, 0x610, 0x30, 4, 48, 16, .ro, 0⟩

/-! DRL_FAULT (R216) -/
def DRL_FAULT.VA : Fld := ⟨.core, 0x618, 0x30, 4, 0, 64, .ro, 0⟩

/-! DRL_RUN (R216) -/
def DRL_RUN.RESUME : Fld := ⟨.core, 0x620, 0x30, 4, 0, 1, .wo, 0⟩
def DRL_RUN.FAIL : Fld := ⟨.core, 0x620, 0x30, 4, 1, 1, .wo, 0⟩
def DRL_RUN.ABORT : Fld := ⟨.core, 0x620, 0x30, 4, 2, 1, .wo, 0⟩
def DRL_RUN.SRSEQ : Fld := ⟨.core, 0x620, 0x30, 4, 44, 20, .ro, 0⟩

/-! DRL_WAIT (R216) -/
def DRL_WAIT.SLOT_WAIT : Fld := ⟨.core, 0x628, 0x30, 4, 0, 32, .ro, 0⟩
def DRL_WAIT.CREDIT_CYC : Fld := ⟨.core, 0x628, 0x30, 4, 32, 32, .ro, 0⟩

/-! DRL_CFG (R216) -/
def DRL_CFG.OUT0 : Fld := ⟨.core, 0x6c0, 8, 1, 0, 4, .stg, 0⟩
def DRL_CFG.OUT1 : Fld := ⟨.core, 0x6c0, 8, 1, 4, 4, .stg, 0⟩
def DRL_CFG.OUT2 : Fld := ⟨.core, 0x6c0, 8, 1, 8, 4, .stg, 0⟩
def DRL_CFG.OUT3 : Fld := ⟨.core, 0x6c0, 8, 1, 12, 4, .stg, 0⟩
def DRL_CFG.COMMIT : Fld := ⟨.core, 0x6c0, 8, 1, 16, 1, .wo, 0⟩

/-! ALM_TICK (R241) -/
def ALM_TICK.TICK : Fld := ⟨.clk, 0, 8, 1, 0, 64, .ro, 0⟩

/-! REF_CTL (R241) -/
def REF_CTL.SELECT : Fld := ⟨.clk, 8, 8, 1, 0, 1, .wo, 0⟩
def REF_CTL.ACTIVE : Fld := ⟨.clk, 8, 8, 1, 1, 1, .ro, 0⟩
def REF_CTL.A_GOOD : Fld := ⟨.clk, 8, 8, 1, 2, 1, .ro, 0⟩
def REF_CTL.B_GOOD : Fld := ⟨.clk, 8, 8, 1, 3, 1, .ro, 0⟩
def REF_CTL.HOLDOVER : Fld := ⟨.clk, 8, 8, 1, 4, 1, .ro, 0⟩
def REF_CTL.LOST : Fld := ⟨.clk, 8, 8, 1, 5, 1, .ro, 0⟩
def REF_CTL.ON_OSC : Fld := ⟨.clk, 8, 8, 1, 6, 1, .ro, 0⟩
def REF_CTL.SWITCHES : Fld := ⟨.clk, 8, 8, 1, 16, 16, .ro, 0⟩

/-! REF_COUNT (R241) -/
def REF_COUNT.A_EDGES : Fld := ⟨.clk, 0x10, 8, 1, 0, 16, .ro, 0⟩
def REF_COUNT.B_EDGES : Fld := ⟨.clk, 0x10, 8, 1, 16, 16, .ro, 0⟩

/-! HOLD_OP (R241) -/
def HOLD_OP.CUR : Fld := ⟨.clk, 0x100, 8, 16, 0, 3, .ro, 0⟩
def HOLD_OP.TARGET : Fld := ⟨.clk, 0x100, 8, 16, 3, 3, .ro, 0⟩
def HOLD_OP.WAITING : Fld := ⟨.clk, 0x100, 8, 16, 6, 1, .ro, 0⟩
def HOLD_OP.BUSY : Fld := ⟨.clk, 0x100, 8, 16, 7, 1, .ro, 0⟩
def HOLD_OP.CHANGES : Fld := ⟨.clk, 0x100, 8, 16, 16, 16, .ro, 0⟩
def HOLD_OP.LAST_END : Fld := ⟨.clk, 0x100, 8, 16, 32, 32, .ro, 0⟩

/-! CLK_STAT (R241) -/
def CLK_STAT.OP : Fld := ⟨.croft, 0x100, 8, 1, 0, 3, .ro, 0⟩
def CLK_STAT.LOCKED : Fld := ⟨.croft, 0x100, 8, 1, 3, 1, .ro, 0⟩
def CLK_STAT.HOLDOVER : Fld := ⟨.croft, 0x100, 8, 1, 4, 1, .ro, 0⟩
def CLK_STAT.SLEWING : Fld := ⟨.croft, 0x100, 8, 1, 5, 1, .ro, 0⟩
def CLK_STAT.ERR : Fld := ⟨.croft, 0x100, 8, 1, 16, 16, .ro, 0⟩
def CLK_STAT.SLIPS : Fld := ⟨.croft, 0x100, 8, 1, 32, 16, .ro, 0⟩

/-! ALM_EST (R241) -/
def ALM_EST.TICK : Fld := ⟨.croft, 0x108, 8, 1, 0, 48, .ro, 0⟩
def ALM_EST.UNITS : Fld := ⟨.croft, 0x108, 8, 1, 48, 8, .ro, 0⟩

/-! CLK_STRETCH (R241) -/
def CLK_STRETCH.S25 : Fld := ⟨.croft, 0x110, 8, 1, 0, 32, .ro, 0⟩
def CLK_STRETCH.S50 : Fld := ⟨.croft, 0x110, 8, 1, 32, 32, .ro, 0⟩

/-! CLK_MON (R241) -/
def CLK_MON.WARN_LIMIT : Fld := ⟨.croft, 0x118, 8, 1, 0, 16, .rw, 0⟩
def CLK_MON.WARN_MAP : Fld := ⟨.croft, 0x118, 8, 1, 16, 8, .ro, 0⟩
def CLK_MON.RUNOUT : Fld := ⟨.croft, 0x118, 8, 1, 24, 1, .w1c, 0⟩
def CLK_MON.LAST_COUNT : Fld := ⟨.croft, 0x118, 8, 1, 32, 16, .ro, 0⟩

/-! HL_SLACK (R241) -/
def HL_SLACK.S_N : Fld := ⟨.croft, 0x120, 8, 1, 0, 2, .rw, 1⟩
def HL_SLACK.S_E : Fld := ⟨.croft, 0x120, 8, 1, 2, 2, .rw, 1⟩
def HL_SLACK.S_S : Fld := ⟨.croft, 0x120, 8, 1, 4, 2, .rw, 1⟩
def HL_SLACK.S_W : Fld := ⟨.croft, 0x120, 8, 1, 6, 2, .rw, 1⟩

/-! LAG_REC (R241) -/
def LAG_REC.STAMP : Fld := ⟨.croft, 0x128, 8, 1, 0, 48, .ro, 0⟩
def LAG_REC.SIDE : Fld := ⟨.croft, 0x128, 8, 1, 48, 3, .ro, 0⟩
def LAG_REC.FURROW : Fld := ⟨.croft, 0x128, 8, 1, 51, 1, .ro, 0⟩
def LAG_REC.K : Fld := ⟨.croft, 0x128, 8, 1, 52, 8, .ro, 0⟩

/-! LAG_COUNT (R241) -/
def LAG_COUNT.LAGS : Fld := ⟨.croft, 0x130, 8, 1, 0, 16, .rc, 0⟩
def LAG_COUNT.TICKS : Fld := ⟨.croft, 0x130, 8, 1, 16, 32, .ro, 0⟩

/-! SYN_CNT (R241) -/
def SYN_CNT.COUNT : Fld := ⟨.core, 0x900, 8, 8, 0, 32, .ro, 0⟩

/-! REEVE_ID (R281) -/
def REEVE_ID.MINOR : Fld := ⟨.reeve, 0, 8, 1, 0, 16, .ro, 0⟩
def REEVE_ID.MAJOR : Fld := ⟨.reeve, 0, 8, 1, 16, 16, .ro, 1⟩
def REEVE_ID.TARGET : Fld := ⟨.reeve, 0, 8, 1, 32, 16, .ro, 1⟩

/-! REEVE_STAT (R281) -/
def REEVE_STAT.BUSY : Fld := ⟨.reeve, 8, 8, 1, 0, 1, .ro, 0⟩
def REEVE_STAT.ENCL : Fld := ⟨.reeve, 8, 8, 1, 1, 4, .ro, 0⟩
def REEVE_STAT.IN_USE : Fld := ⟨.reeve, 8, 8, 1, 16, 16, .ro, 0⟩
def REEVE_STAT.LAST_SUB : Fld := ⟨.reeve, 8, 8, 1, 32, 8, .ro, 0⟩
def REEVE_STAT.LAST_CODE : Fld := ⟨.reeve, 8, 8, 1, 40, 8, .ro, 0⟩
def REEVE_STAT.LOADS : Fld := ⟨.reeve, 8, 8, 1, 48, 16, .ro, 0⟩

/-! ENCL_SHAPE (R281) -/
def ENCL_SHAPE.ORIGIN : Fld := ⟨.reeve, 0x100, 0x20, 16, 0, 8, .ro, 0⟩
def ENCL_SHAPE.CROWS : Fld := ⟨.reeve, 0x100, 0x20, 16, 8, 5, .ro, 0⟩
def ENCL_SHAPE.CCOLS : Fld := ⟨.reeve, 0x100, 0x20, 16, 13, 5, .ro, 0⟩
def ENCL_SHAPE.FALLOW_RESERVE : Fld := ⟨.reeve, 0x100, 0x20, 16, 18, 5, .ro, 0⟩
def ENCL_SHAPE.KEEP : Fld := ⟨.reeve, 0x100, 0x20, 16, 23, 1, .ro, 0⟩
def ENCL_SHAPE.YOKE : Fld := ⟨.reeve, 0x100, 0x20, 16, 24, 2, .ro, 0⟩
def ENCL_SHAPE.SHARE : Fld := ⟨.reeve, 0x100, 0x20, 16, 26, 6, .ro, 0⟩
def ENCL_SHAPE.JOB_ID : Fld := ⟨.reeve, 0x100, 0x20, 16, 32, 32, .ro, 0⟩

/-! ENCL_STATE (R281) -/
def ENCL_STATE.STATE : Fld := ⟨.reeve, 0x108, 0x20, 16, 0, 3, .ro, 0⟩
def ENCL_STATE.CAUSE : Fld := ⟨.reeve, 0x108, 0x20, 16, 8, 8, .ro, 0⟩
def ENCL_STATE.SUBCODE : Fld := ⟨.reeve, 0x108, 0x20, 16, 16, 8, .ro, 0⟩
def ENCL_STATE.STEP : Fld := ⟨.reeve, 0x108, 0x20, 16, 32, 32, .ro, 0⟩

/-! ENCL_RES (R281) -/
def ENCL_RES.RESOWS : Fld := ⟨.reeve, 0x110, 0x20, 16, 0, 16, .ro, 0⟩
def ENCL_RES.FALLOW_MAX : Fld := ⟨.reeve, 0x110, 0x20, 16, 16, 9, .ro, 0⟩
def ENCL_RES.SLOW_MIB : Fld := ⟨.reeve, 0x110, 0x20, 16, 32, 32, .ro, 0⟩

/-! ENCL_TRANSIT (R281) -/
def ENCL_TRANSIT.CROFTS : Fld := ⟨.reeve, 0x118, 0x20, 16, 0, 16, .ro, 0⟩

/-! TBK_ID (R306) -/
def TBK_ID.PRESENT : Fld := ⟨.tabko, 0, 8, 1, 0, 1, .ro, 0⟩
def TBK_ID.RATE : Fld := ⟨.tabko, 0, 8, 1, 1, 2, .ro, 0⟩
def TBK_ID.ADMIT_WIN : Fld := ⟨.tabko, 0, 8, 1, 3, 5, .ro, 0⟩
def TBK_ID.INDEX : Fld := ⟨.tabko, 0, 8, 1, 8, 6, .ro, 0⟩

/-! TBK_STAT (R306) -/
def TBK_STAT.INIT_BUSY : Fld := ⟨.tabko, 8, 8, 1, 0, 1, .ro, 0⟩
def TBK_STAT.READY : Fld := ⟨.tabko, 8, 8, 1, 1, 1, .ro, 0⟩
def TBK_STAT.SELF_REFRESH : Fld := ⟨.tabko, 8, 8, 1, 2, 1, .ro, 0⟩
def TBK_STAT.LINK_UP : Fld := ⟨.tabko, 8, 8, 1, 3, 1, .ro, 0⟩
def TBK_STAT.RECAL_BUSY : Fld := ⟨.tabko, 8, 8, 1, 4, 1, .ro, 0⟩
def TBK_STAT.DOWN : Fld := ⟨.tabko, 8, 8, 1, 5, 1, .ro, 0⟩
def TBK_STAT.SHARE_USED : Fld := ⟨.tabko, 8, 8, 1, 16, 6, .ro, 0⟩
def TBK_STAT.PENDING : Fld := ⟨.tabko, 8, 8, 1, 32, 20, .ro, 0⟩

/-! TBK_WHEEL (R306) -/
def TBK_WHEEL.SHARE_FREE : Fld := ⟨.tabko, 0x10, 8, 1, 0, 6, .ro, 0x3c⟩
def TBK_WHEEL.REVS : Fld := ⟨.tabko, 0x10, 8, 1, 16, 32, .ro, 0⟩

/-! TBK_SCRUB (R306) -/
def TBK_SCRUB.EN : Fld := ⟨.tabko, 0x18, 8, 1, 0, 1, .rw, 0⟩
def TBK_SCRUB.PASSES : Fld := ⟨.tabko, 0x18, 8, 1, 16, 32, .ro, 0⟩

/-! TBK_ECC (R306) -/
def TBK_ECC.CORR : Fld := ⟨.tabko, 0x20, 8, 1, 0, 32, .ro, 0⟩
def TBK_ECC.UNCORR : Fld := ⟨.tabko, 0x20, 8, 1, 32, 16, .ro, 0⟩

/-! TBK_ECC_LOC (R306) -/
def TBK_ECC_LOC.ADDR : Fld := ⟨.tabko, 0x28, 8, 1, 0, 48, .ro, 0⟩
def TBK_ECC_LOC.CHANNEL : Fld := ⟨.tabko, 0x28, 8, 1, 48, 3, .ro, 0⟩
def TBK_ECC_LOC.SOURCE : Fld := ⟨.tabko, 0x28, 8, 1, 51, 2, .ro, 0⟩
def TBK_ECC_LOC.VALID : Fld := ⟨.tabko, 0x28, 8, 1, 53, 1, .w1c, 0⟩

/-! TBK_LINK (R306) -/
def TBK_LINK.REPLAYS : Fld := ⟨.tabko, 0x30, 8, 1, 0, 16, .ro, 0⟩
def TBK_LINK.FAILS : Fld := ⟨.tabko, 0x30, 8, 1, 16, 8, .ro, 0⟩
def TBK_LINK.RETRAINS : Fld := ⟨.tabko, 0x30, 8, 1, 32, 16, .ro, 0⟩

/-! TBK_TEMP (R306) -/
def TBK_TEMP.PKG0 : Fld := ⟨.tabko, 0x38, 8, 1, 0, 8, .ro, 0⟩
def TBK_TEMP.PKG1 : Fld := ⟨.tabko, 0x38, 8, 1, 8, 8, .ro, 0⟩
def TBK_TEMP.LIMIT : Fld := ⟨.tabko, 0x38, 8, 1, 16, 8, .ro, 0x5f⟩
def TBK_TEMP.HOT : Fld := ⟨.tabko, 0x38, 8, 1, 24, 1, .w1c, 0⟩

/-! TBK_SHARE (R306) -/
def TBK_SHARE.SHARE : Fld := ⟨.tabko, 0x100, 8, 16, 0, 6, .ro, 0⟩
def TBK_SHARE.TRACK : Fld := ⟨.tabko, 0x100, 8, 16, 6, 9, .ro, 0⟩
def TBK_SHARE.INUSE : Fld := ⟨.tabko, 0x100, 8, 16, 15, 9, .ro, 0⟩
def TBK_SHARE.ADMIT_WAIT : Fld := ⟨.tabko, 0x100, 8, 16, 32, 32, .ro, 0⟩

/-! TBK_REGION (R306) -/
def TBK_REGION.BASE : Fld := ⟨.tabko, 0x200, 8, 64, 0, 20, .ro, 0⟩
def TBK_REGION.COUNT : Fld := ⟨.tabko, 0x200, 8, 64, 20, 20, .ro, 0⟩
def TBK_REGION.ENCL : Fld := ⟨.tabko, 0x200, 8, 64, 40, 4, .ro, 0⟩
def TBK_REGION.VALID : Fld := ⟨.tabko, 0x200, 8, 64, 44, 1, .ro, 0⟩
def TBK_REGION.CLOSED : Fld := ⟨.tabko, 0x200, 8, 64, 45, 1, .ro, 0⟩

/-! UPD_STAT (R323) -/
def UPD_STAT.SETS : Fld := ⟨.tabko, 0x800, 0x20, 16, 0, 4, .ro, 0⟩
def UPD_STAT.BUSY : Fld := ⟨.tabko, 0x800, 0x20, 16, 4, 1, .ro, 0⟩
def UPD_STAT.DONE : Fld := ⟨.tabko, 0x800, 0x20, 16, 5, 1, .ro, 0⟩
def UPD_STAT.ENTRIES : Fld := ⟨.tabko, 0x800, 0x20, 16, 16, 16, .ro, 0⟩
def UPD_STAT.STEP : Fld := ⟨.tabko, 0x800, 0x20, 16, 32, 32, .ro, 0⟩

/-! UPD_CNT (R323) -/
def UPD_CNT.NONFIN : Fld := ⟨.tabko, 0x808, 0x20, 16, 0, 32, .ro, 0⟩
def UPD_CNT.WB_REFUSED : Fld := ⟨.tabko, 0x808, 0x20, 16, 32, 16, .ro, 0⟩

/-! UPD_ELEMS (R323) -/
def UPD_ELEMS.ELEMS : Fld := ⟨.tabko, 0x810, 0x20, 16, 0, 48, .ro, 0⟩

/-! UPD_ETA (R323) -/
def UPD_ETA.ETA : Fld := ⟨.tabko, 0x1000, 8, 128, 0, 32, .ro, 0⟩
def UPD_ETA.VALID : Fld := ⟨.tabko, 0x1000, 8, 128, 63, 1, .ro, 0⟩

/-! EMIT_STAT (R353) -/
def EMIT_STAT.RET_USED : Fld := ⟨.core, 0x980, 8, 1, 0, 4, .ro, 0⟩
def EMIT_STAT.BUSY : Fld := ⟨.core, 0x980, 8, 1, 4, 1, .ro, 0⟩
def EMIT_STAT.REEMIT : Fld := ⟨.core, 0x980, 8, 1, 5, 1, .ro, 0⟩
def EMIT_STAT.TILES : Fld := ⟨.core, 0x980, 8, 1, 16, 16, .ro, 0⟩

/-! EMIT_SCALE (R353) -/
def EMIT_SCALE.SHEAF : Fld := ⟨.core, 0xa00, 8, 64, 0, 16, .ro, 0⟩
def EMIT_SCALE.S : Fld := ⟨.core, 0xa00, 8, 64, 16, 9, .ro, 0⟩
def EMIT_SCALE.VALID : Fld := ⟨.core, 0xa00, 8, 64, 25, 1, .ro, 0⟩
def EMIT_SCALE.ROUND : Fld := ⟨.core, 0xa00, 8, 64, 32, 4, .ro, 0⟩

/-! FLR_STAT (R353) -/
def FLR_STAT.READY : Fld := ⟨.floor, 0, 8, 1, 0, 1, .ro, 0⟩
def FLR_STAT.FOLD_USED : Fld := ⟨.floor, 0, 8, 1, 1, 14, .ro, 0⟩
def FLR_STAT.FOLD_PEAK : Fld := ⟨.floor, 0, 8, 1, 16, 14, .ro, 0⟩
def FLR_STAT.FOLD_WAIT : Fld := ⟨.floor, 0, 8, 1, 32, 32, .ro, 0⟩

/-! FLR_RING (R353) -/
def FLR_RING.LEN : Fld := ⟨.floor, 0x100, 0x10, 16, 0, 15, .stg, 0⟩
def FLR_RING.POS : Fld := ⟨.floor, 0x100, 0x10, 16, 16, 14, .stg, 0⟩
def FLR_RING.NEXT : Fld := ⟨.floor, 0x100, 0x10, 16, 32, 3, .stg, 0⟩
def FLR_RING.PREV : Fld := ⟨.floor, 0x100, 0x10, 16, 36, 3, .stg, 0⟩
def FLR_RING.COMMIT : Fld := ⟨.floor, 0x100, 0x10, 16, 39, 1, .wo, 0⟩
def FLR_RING.VALID : Fld := ⟨.floor, 0x100, 0x10, 16, 40, 1, .ro, 0⟩

/-! FLR_ENCL (R353) -/
def FLR_ENCL.STEP : Fld := ⟨.floor, 0x200, 0x20, 16, 0, 32, .ro, 0⟩
def FLR_ENCL.OPEN : Fld := ⟨.floor, 0x200, 0x20, 16, 32, 13, .ro, 0⟩
def FLR_ENCL.MISSES : Fld := ⟨.floor, 0x200, 0x20, 16, 48, 16, .ro, 0⟩

/-! FLR_ENCLCNT (R353) -/
def FLR_ENCLCNT.DONE : Fld := ⟨.floor, 0x208, 0x20, 16, 0, 32, .ro, 0⟩
def FLR_ENCLCNT.STRAY : Fld := ⟨.floor, 0x208, 0x20, 16, 32, 16, .ro, 0⟩

/-! FLR_SCALE (R353) -/
def FLR_SCALE.SHEAF : Fld := ⟨.floor, 0x1000, 8, 1024, 0, 16, .ro, 0⟩
def FLR_SCALE.S : Fld := ⟨.floor, 0x1000, 8, 1024, 16, 9, .ro, 0⟩
def FLR_SCALE.VALID : Fld := ⟨.floor, 0x1000, 8, 1024, 25, 1, .ro, 0⟩
def FLR_SCALE.ROUND : Fld := ⟨.floor, 0x1000, 8, 1024, 26, 4, .ro, 0⟩
def FLR_SCALE.EMAX : Fld := ⟨.floor, 0x1000, 8, 1024, 32, 9, .ro, 0⟩
def FLR_SCALE.EVALID : Fld := ⟨.floor, 0x1000, 8, 1024, 41, 1, .ro, 0⟩

/-! GLN_CTL (R353) -/
def GLN_CTL.EN : Fld := ⟨.gleaner, 0, 0x20, 16, 0, 1, .rw, 0⟩
def GLN_CTL.K : Fld := ⟨.gleaner, 0, 0x20, 16, 1, 5, .rw, 0⟩
def GLN_CTL.HOLD : Fld := ⟨.gleaner, 0, 0x20, 16, 6, 1, .rw, 0⟩

/-! GLN_STAT (R353) -/
def GLN_STAT.SAMPLED : Fld := ⟨.gleaner, 8, 0x20, 16, 0, 32, .ro, 0⟩
def GLN_STAT.MISSES : Fld := ⟨.gleaner, 8, 0x20, 16, 32, 16, .ro, 0⟩
def GLN_STAT.SKIPPED : Fld := ⟨.gleaner, 8, 0x20, 16, 48, 16, .ro, 0⟩

/-! GLN_LAST (R353) -/
def GLN_LAST.SHEAF : Fld := ⟨.gleaner, 0x10, 0x20, 16, 0, 16, .ro, 0⟩
def GLN_LAST.TILE : Fld := ⟨.gleaner, 0x10, 0x20, 16, 16, 16, .ro, 0⟩
def GLN_LAST.STEP : Fld := ⟨.gleaner, 0x10, 0x20, 16, 32, 31, .ro, 0⟩
def GLN_LAST.VALID : Fld := ⟨.gleaner, 0x10, 0x20, 16, 63, 1, .w1c, 0⟩

/-! BLN_CTL (R375) -/
def BLN_CTL.EN : Fld := ⟨.port, 0, 8, 1, 0, 1, .rw, 0⟩
def BLN_CTL.RETRAIN : Fld := ⟨.port, 0, 8, 1, 1, 1, .wo, 0⟩
def BLN_CTL.MARGIN_LIMIT : Fld := ⟨.port, 0, 8, 1, 16, 16, .rw, 0⟩

/-! BLN_STAT (R375) -/
def BLN_STAT.PRESENT : Fld := ⟨.port, 8, 8, 1, 0, 1, .ro, 0⟩
def BLN_STAT.STATE : Fld := ⟨.port, 8, 8, 1, 1, 3, .ro, 0⟩
def BLN_STAT.FAILED : Fld := ⟨.port, 8, 8, 1, 4, 1, .ro, 0⟩
def BLN_STAT.PEER_ID : Fld := ⟨.port, 8, 8, 1, 16, 14, .ro, 0⟩
def BLN_STAT.PEER_VALID : Fld := ⟨.port, 8, 8, 1, 30, 1, .ro, 0⟩
def BLN_STAT.PEER_PORT : Fld := ⟨.port, 8, 8, 1, 32, 4, .ro, 0⟩
def BLN_STAT.TRAINS : Fld := ⟨.port, 8, 8, 1, 48, 16, .ro, 0⟩

/-! BLN_FEC (R375) -/
def BLN_FEC.CORR_CW : Fld := ⟨.port, 0x18, 8, 1, 0, 32, .ro, 0⟩
def BLN_FEC.UNCORR_CW : Fld := ⟨.port, 0x18, 8, 1, 32, 16, .ro, 0⟩

/-! BLN_REPLAY (R375) -/
def BLN_REPLAY.INFLIGHT : Fld := ⟨.port, 0x20, 8, 1, 0, 13, .ro, 0⟩
def BLN_REPLAY.REPLAYS : Fld := ⟨.port, 0x20, 8, 1, 16, 16, .ro, 0⟩
def BLN_REPLAY.NAKS : Fld := ⟨.port, 0x20, 8, 1, 32, 16, .ro, 0⟩

/-! BLN_FRAMES (R375) -/
def BLN_FRAMES.TX : Fld := ⟨.port, 0x28, 8, 1, 0, 32, .ro, 0⟩
def BLN_FRAMES.RX : Fld := ⟨.port, 0x28, 8, 1, 32, 32, .ro, 0⟩

/-! BLN_CREDIT (R375) -/
def BLN_CREDIT.REDUCE0 : Fld := ⟨.port, 0x30, 8, 1, 0, 16, .ro, 0⟩
def BLN_CREDIT.REDUCE1 : Fld := ⟨.port, 0x30, 8, 1, 16, 16, .ro, 0⟩
def BLN_CREDIT.GLEAN0 : Fld := ⟨.port, 0x30, 8, 1, 32, 16, .ro, 0⟩
def BLN_CREDIT.YOKE0 : Fld := ⟨.port, 0x30, 8, 1, 48, 16, .ro, 0⟩

/-! BLN_OPTICS (R375) -/
def BLN_OPTICS.TEMP : Fld := ⟨.port, 0x38, 8, 1, 0, 8, .ro, 0⟩
def BLN_OPTICS.TXPWR_MIN : Fld := ⟨.port, 0x38, 8, 1, 8, 8, .ro, 0⟩
def BLN_OPTICS.RXPWR_MIN : Fld := ⟨.port, 0x38, 8, 1, 16, 8, .ro, 0⟩

/-! BLN_LASER (R375) -/
def BLN_LASER.HOURS : Fld := ⟨.port, 0x40, 8, 1, 0, 32, .ro, 0⟩

/-! FLR_PEER (R376) -/
def FLR_PEER.NEXT_ID : Fld := ⟨.floor, 0x400, 0x10, 16, 0, 14, .stg, 0⟩
def FLR_PEER.PREV_ID : Fld := ⟨.floor, 0x400, 0x10, 16, 16, 14, .stg, 0⟩

/-! FWD_ID (R376) -/
def FWD_ID.MODULE_ID : Fld := ⟨.floor, 0x8000, 8, 1, 0, 14, .stg, 0⟩
def FWD_ID.INSTALL : Fld := ⟨.floor, 0x8000, 8, 1, 16, 32, .stg, 0⟩
def FWD_ID.HOPS_INIT : Fld := ⟨.floor, 0x8000, 8, 1, 48, 8, .stg, 0⟩
def FWD_ID.COMMIT : Fld := ⟨.floor, 0x8000, 8, 1, 56, 1, .wo, 0⟩

/-! FWD_CTL (R376) -/
def FWD_CTL.COMMIT : Fld := ⟨.floor, 0x8008, 8, 1, 0, 1, .wo, 0⟩
def FWD_CTL.GEN : Fld := ⟨.floor, 0x8008, 8, 1, 16, 16, .ro, 0⟩

/-! FWD_STAT (R376) -/
def FWD_STAT.NOROUTE : Fld := ⟨.floor, 0x8010, 8, 1, 0, 32, .ro, 0⟩
def FWD_STAT.DUPS : Fld := ⟨.floor, 0x8010, 8, 1, 32, 16, .ro, 0⟩
def FWD_STAT.STOMPED : Fld := ⟨.floor, 0x8010, 8, 1, 48, 16, .ro, 0⟩

/-! FWD (R376) -/
def FWD.EGRESS : Fld := ⟨.floor, 0x100000, 8, 16384, 0, 4, .stg, 0⟩
def FWD.VALID : Fld := ⟨.floor, 0x100000, 8, 16384, 4, 1, .stg, 0⟩
def FWD.LOCAL : Fld := ⟨.floor, 0x100000, 8, 16384, 5, 1, .stg, 0⟩
def FWD.LOP : Fld := ⟨.floor, 0x100000, 8, 16384, 6, 2, .stg, 0⟩
def FWD.ALT : Fld := ⟨.floor, 0x100000, 8, 16384, 8, 4, .stg, 0⟩
def FWD.ALT_VALID : Fld := ⟨.floor, 0x100000, 8, 16384, 12, 1, .stg, 0⟩
def FWD.ALT_LOP : Fld := ⟨.floor, 0x100000, 8, 16384, 13, 2, .stg, 0⟩

/-! YEP_ID (R399) -/
def YEP_ID.VERSION : Fld := ⟨.yosal, 0, 8, 1, 0, 8, .ro, 1⟩

/-! YEP_STAT (R399) -/
def YEP_STAT.STATE : Fld := ⟨.yosal, 8, 8, 1, 0, 2, .ro, 0⟩
def YEP_STAT.WIDTH8 : Fld := ⟨.yosal, 8, 8, 1, 2, 1, .ro, 0⟩
def YEP_STAT.OUTSTANDING : Fld := ⟨.yosal, 8, 8, 1, 3, 13, .ro, 0⟩
def YEP_STAT.RETRAINS : Fld := ⟨.yosal, 8, 8, 1, 16, 16, .ro, 0⟩

/-! YEP_CTL (R399) -/
def YEP_CTL.TIMEOUT : Fld := ⟨.yosal, 0x10, 8, 1, 0, 16, .rw, 0⟩
def YEP_CTL.SPACE_COMMIT : Fld := ⟨.yosal, 0x10, 8, 1, 16, 1, .wo, 0⟩

/-! YEP_WIN (R399) -/
def YEP_WIN.BASE : Fld := ⟨.yosal, 0x18, 8, 1, 0, 16, .rw, 0⟩
def YEP_WIN.EN : Fld := ⟨.yosal, 0x18, 8, 1, 16, 1, .rw, 0⟩

/-! YEP_SIG (R399) -/
def YEP_SIG.VEC_ST : Fld := ⟨.yosal, 0x20, 8, 1, 0, 8, .rw, 0⟩
def YEP_SIG.VEC_FAULT : Fld := ⟨.yosal, 0x20, 8, 1, 8, 8, .rw, 0⟩
def YEP_SIG.VEC_ENCL : Fld := ⟨.yosal, 0x20, 8, 1, 16, 8, .rw, 0⟩
def YEP_SIG.GAP : Fld := ⟨.yosal, 0x20, 8, 1, 24, 16, .rw, 0⟩

/-! YEP_FRING (R399) -/
def YEP_FRING.BASE : Fld := ⟨.yosal, 0x28, 8, 1, 14, 38, .rw, 0⟩

/-! YEP_FRING_STAT (R399) -/
def YEP_FRING_STAT.PI : Fld := ⟨.yosal, 0x30, 8, 1, 0, 32, .ro, 0⟩
def YEP_FRING_STAT.CI : Fld := ⟨.yosal, 0x30, 8, 1, 32, 32, .ro, 0⟩

/-! YEP_TC (R399) -/
def YEP_TC.HITS : Fld := ⟨.yosal, 0x38, 8, 1, 0, 32, .ro, 0⟩
def YEP_TC.MISSES : Fld := ⟨.yosal, 0x38, 8, 1, 32, 32, .ro, 0⟩

/-! YEP_LINK (R399) -/
def YEP_LINK.REPLAYS : Fld := ⟨.yosal, 0x40, 8, 1, 0, 16, .ro, 0⟩
def YEP_LINK.FEC_CORR : Fld := ⟨.yosal, 0x40, 8, 1, 16, 16, .ro, 0⟩
def YEP_LINK.CRC_FAIL : Fld := ⟨.yosal, 0x40, 8, 1, 32, 16, .ro, 0⟩
def YEP_LINK.BADMSG : Fld := ⟨.yosal, 0x40, 8, 1, 48, 16, .ro, 0⟩

/-! YEP_WATCH_A (R399) -/
def YEP_WATCH_A.LINE : Fld := ⟨.yosal, 0x1000, 0x10, 64, 6, 46, .rw, 0⟩

/-! YEP_WATCH_B (R399) -/
def YEP_WATCH_B.EN : Fld := ⟨.yosal, 0x1008, 0x10, 64, 0, 1, .rw, 0⟩
def YEP_WATCH_B.KIND : Fld := ⟨.yosal, 0x1008, 0x10, 64, 1, 2, .ro, 0⟩
def YEP_WATCH_B.ENCL : Fld := ⟨.yosal, 0x1008, 0x10, 64, 3, 4, .rw, 0⟩
def YEP_WATCH_B.CORE : Fld := ⟨.yosal, 0x1008, 0x10, 64, 7, 17, .rw, 0⟩
def YEP_WATCH_B.CNT : Fld := ⟨.yosal, 0x1008, 0x10, 64, 24, 3, .rw, 0⟩
def YEP_WATCH_B.HELD : Fld := ⟨.yosal, 0x1008, 0x10, 64, 27, 1, .ro, 0⟩
def YEP_WATCH_B.LAST : Fld := ⟨.yosal, 0x1008, 0x10, 64, 32, 32, .ro, 0⟩

/-! YEP_SPACE (R399) -/
def YEP_SPACE.SPACE : Fld := ⟨.yosal, 0x2000, 8, 64, 0, 16, .stg, 0⟩
def YEP_SPACE.ENCL : Fld := ⟨.yosal, 0x2000, 8, 64, 16, 16, .stg, 0⟩
def YEP_SPACE.VALID : Fld := ⟨.yosal, 0x2000, 8, 64, 32, 1, .stg, 0⟩

/-! YK_CFG (R414) -/
def YK_CFG.EN : Fld := ⟨.yoke, 0, 8, 1, 0, 1, .ro, 0⟩
def YK_CFG.MATE_ID : Fld := ⟨.yoke, 0, 8, 1, 1, 14, .ro, 0⟩

/-! YK_CTL (R414) -/
def YK_CTL.HB_PERIOD : Fld := ⟨.yoke, 8, 8, 1, 0, 16, .rw, 0⟩
def YK_CTL.HB_MISS : Fld := ⟨.yoke, 8, 8, 1, 16, 4, .rw, 0⟩
def YK_CTL.CMP_EVERY : Fld := ⟨.yoke, 8, 8, 1, 20, 16, .rw, 0⟩
def YK_CTL.CMP_GRAN : Fld := ⟨.yoke, 8, 8, 1, 36, 20, .rw, 0⟩

/-! YK_STAT (R414) -/
def YK_STAT.STATE : Fld := ⟨.yoke, 0x10, 8, 1, 0, 16, .ro, 0⟩
def YK_STAT.STRAY : Fld := ⟨.yoke, 0x10, 8, 1, 16, 16, .ro, 0⟩
def YK_STAT.LAST_RX : Fld := ⟨.yoke, 0x10, 8, 1, 32, 32, .ro, 0⟩

/-! YK_CMD (R414) -/
def YK_CMD.OP : Fld := ⟨.yoke, 0x18, 8, 1, 0, 3, .stg, 0⟩
def YK_CMD.ENCL : Fld := ⟨.yoke, 0x18, 8, 1, 3, 4, .stg, 0⟩
def YK_CMD.POLICY : Fld := ⟨.yoke, 0x18, 8, 1, 7, 2, .stg, 0⟩
def YK_CMD.DST : Fld := ⟨.yoke, 0x18, 8, 1, 9, 14, .stg, 0⟩
def YK_CMD.STEP : Fld := ⟨.yoke, 0x18, 8, 1, 23, 32, .stg, 0⟩

/-! YK_GO (R414) -/
def YK_GO.COMMIT : Fld := ⟨.yoke, 0x20, 8, 1, 0, 1, .wo, 0⟩

/-! YK_CMP (R414) -/
def YK_CMP.STEP : Fld := ⟨.yoke, 0x28, 8, 1, 0, 32, .ro, 0⟩
def YK_CMP.TABKO : Fld := ⟨.yoke, 0x28, 8, 1, 32, 6, .ro, 0⟩
def YK_CMP.GRANULE : Fld := ⟨.yoke, 0x28, 8, 1, 38, 20, .ro, 0⟩
def YK_CMP.VALID : Fld := ⟨.yoke, 0x28, 8, 1, 58, 1, .w1c, 0⟩

/-! YK_CMPCNT (R414) -/
def YK_CMPCNT.DONE : Fld := ⟨.yoke, 0x30, 8, 1, 0, 32, .ro, 0⟩
def YK_CMPCNT.SKIPPED : Fld := ⟨.yoke, 0x30, 8, 1, 32, 16, .ro, 0⟩

/-! YK_SEED (R414) -/
def YK_SEED.BYTES : Fld := ⟨.yoke, 0x38, 8, 1, 0, 48, .ro, 0⟩
def YK_SEED.BUSY : Fld := ⟨.yoke, 0x38, 8, 1, 48, 1, .ro, 0⟩

/-! YK_ENCL (R414) -/
def YK_ENCL.LANDED : Fld := ⟨.yoke, 0x100, 0x10, 16, 0, 32, .ro, 0⟩
def YK_ENCL.SHARES : Fld := ⟨.yoke, 0x100, 0x10, 16, 32, 2, .ro, 0⟩
def YK_ENCL.SOLO : Fld := ⟨.yoke, 0x100, 0x10, 16, 34, 1, .ro, 0⟩
def YK_ENCL.ACCEPTING : Fld := ⟨.yoke, 0x100, 0x10, 16, 35, 1, .ro, 0⟩

/-! PWR_CTL (R429) -/
def PWR_CTL.BUSY : Fld := ⟨.pwr, 0, 8, 1, 0, 1, .ro, 0⟩
def PWR_CTL.PHASE : Fld := ⟨.pwr, 0, 8, 1, 1, 3, .ro, 0⟩
def PWR_CTL.REASON : Fld := ⟨.pwr, 0, 8, 1, 4, 4, .ro, 0⟩
def PWR_CTL.DONE_SEQ : Fld := ⟨.pwr, 0, 8, 1, 32, 32, .ro, 0⟩

/-! PWR_TRIP (R429) -/
def PWR_TRIP.CAUSE : Fld := ⟨.pwr, 8, 8, 1, 0, 4, .ro, 0⟩
def PWR_TRIP.DOMAIN : Fld := ⟨.pwr, 8, 8, 1, 4, 5, .ro, 0⟩
def PWR_TRIP.VALID : Fld := ⟨.pwr, 8, 8, 1, 9, 1, .w1c, 0⟩
def PWR_TRIP.VALUE : Fld := ⟨.pwr, 8, 8, 1, 16, 16, .ro, 0⟩
def PWR_TRIP.TICK : Fld := ⟨.pwr, 8, 8, 1, 32, 32, .ro, 0⟩

/-! PWR_LIMIT (R429) -/
def PWR_LIMIT.TJ_TRIP : Fld := ⟨.pwr, 0x10, 8, 1, 0, 8, .ro, 0x6e⟩
def PWR_LIMIT.TJ_WARN : Fld := ⟨.pwr, 0x10, 8, 1, 8, 8, .rw, 0⟩
def PWR_LIMIT.DRAM_TRIP : Fld := ⟨.pwr, 0x10, 8, 1, 16, 8, .ro, 0x69⟩
def PWR_LIMIT.OPT_TRIP : Fld := ⟨.pwr, 0x10, 8, 1, 24, 8, .ro, 0x50⟩
def PWR_LIMIT.HOLD_ITRIP : Fld := ⟨.pwr, 0x10, 8, 1, 32, 12, .ro, 0x960⟩
def PWR_LIMIT.IN_ITRIP : Fld := ⟨.pwr, 0x10, 8, 1, 44, 12, .ro, 0x28a⟩
def PWR_LIMIT.PAIR_ITRIP : Fld := ⟨.pwr, 0x10, 8, 1, 56, 8, .ro, 0xaa⟩

/-! PWR_METER (R429) -/
def PWR_METER.WATTS : Fld := ⟨.pwr, 0x18, 8, 1, 0, 16, .ro, 0⟩
def PWR_METER.VOLTS : Fld := ⟨.pwr, 0x18, 8, 1, 16, 12, .ro, 0⟩
def PWR_METER.AMPS : Fld := ⟨.pwr, 0x18, 8, 1, 28, 12, .ro, 0⟩

/-! PWR_DOM (R429) -/
def PWR_DOM.CUR : Fld := ⟨.pwr, 0x100, 8, 19, 0, 2, .ro, 3⟩
def PWR_DOM.TARGET : Fld := ⟨.pwr, 0x100, 8, 19, 2, 2, .ro, 3⟩
def PWR_DOM.BUSY : Fld := ⟨.pwr, 0x100, 8, 19, 4, 1, .ro, 0⟩
def PWR_DOM.WAITING : Fld := ⟨.pwr, 0x100, 8, 19, 5, 1, .ro, 0⟩
def PWR_DOM.TRIPPED : Fld := ⟨.pwr, 0x100, 8, 19, 6, 1, .ro, 0⟩
def PWR_DOM.CHANGES : Fld := ⟨.pwr, 0x100, 8, 19, 16, 16, .ro, 0⟩
def PWR_DOM.LAST_END : Fld := ⟨.pwr, 0x100, 8, 19, 32, 32, .ro, 0⟩

/-! PWR_HOLD (R429) -/
def PWR_HOLD.TJ_MAX : Fld := ⟨.pwr, 0x200, 8, 16, 0, 8, .ro, 0⟩
def PWR_HOLD.I_CORE : Fld := ⟨.pwr, 0x200, 8, 16, 8, 12, .ro, 0⟩
def PWR_HOLD.MILLIVOLTS : Fld := ⟨.pwr, 0x200, 8, 16, 32, 16, .ro, 0⟩

/-! BOOT_STAT (R454) -/
def BOOT_STAT.PHASE : Fld := ⟨.boot, 0, 8, 1, 0, 4, .ro, 0⟩
def BOOT_STAT.HOLD_CAUSE : Fld := ⟨.boot, 0, 8, 1, 4, 4, .ro, 0⟩
def BOOT_STAT.REASON : Fld := ⟨.boot, 0, 8, 1, 8, 8, .ro, 0⟩
def BOOT_STAT.LC : Fld := ⟨.boot, 0, 8, 1, 16, 4, .ro, 0⟩
def BOOT_STAT.MIN_SVN : Fld := ⟨.boot, 0, 8, 1, 20, 6, .ro, 0⟩
def BOOT_STAT.SVN : Fld := ⟨.boot, 0, 8, 1, 26, 6, .ro, 0⟩
def BOOT_STAT.CFG_GEN : Fld := ⟨.boot, 0, 8, 1, 32, 32, .ro, 0⟩

/-! BOOT_VER (R454) -/
def BOOT_VER.VERSION : Fld := ⟨.boot, 8, 8, 1, 0, 64, .ro, 0⟩

/-! BOOT_LOAD_ADDR (R454) -/
def BOOT_LOAD_ADDR.CPA : Fld := ⟨.boot, 0x10, 8, 1, 12, 40, .rw, 0⟩

/-! BOOT_LOAD_CTL (R454) -/
def BOOT_LOAD_CTL.LEN : Fld := ⟨.boot, 0x18, 8, 1, 0, 25, .rw, 0⟩
def BOOT_LOAD_CTL.TARGET : Fld := ⟨.boot, 0x18, 8, 1, 25, 2, .rw, 0⟩
def BOOT_LOAD_CTL.GO : Fld := ⟨.boot, 0x18, 8, 1, 27, 1, .wo, 0⟩
def BOOT_LOAD_CTL.RESTART : Fld := ⟨.boot, 0x18, 8, 1, 28, 1, .wo, 0⟩

/-! BOOT_LOAD_STAT (R454) -/
def BOOT_LOAD_STAT.BUSY : Fld := ⟨.boot, 0x20, 8, 1, 0, 1, .ro, 0⟩
def BOOT_LOAD_STAT.STAGE : Fld := ⟨.boot, 0x20, 8, 1, 1, 2, .ro, 0⟩
def BOOT_LOAD_STAT.FLASH_BAD : Fld := ⟨.boot, 0x20, 8, 1, 3, 1, .ro, 0⟩
def BOOT_LOAD_STAT.REASON : Fld := ⟨.boot, 0x20, 8, 1, 4, 4, .ro, 0⟩
def BOOT_LOAD_STAT.RESULT : Fld := ⟨.boot, 0x20, 8, 1, 8, 8, .ro, 0⟩
def BOOT_LOAD_STAT.COUNT : Fld := ⟨.boot, 0x20, 8, 1, 16, 16, .ro, 0⟩

/-! BOOT_ID (R454) -/
def BOOT_ID.SERIAL : Fld := ⟨.boot, 0x28, 8, 1, 0, 64, .ro, 0⟩

/-! TRUST_STAT (R454) -/
def TRUST_STAT.ID_OK : Fld := ⟨.boot, 0x30, 8, 1, 0, 1, .ro, 0⟩
def TRUST_STAT.TAINT : Fld := ⟨.boot, 0x30, 8, 1, 1, 1, .ro, 0⟩
def TRUST_STAT.CKPT : Fld := ⟨.boot, 0x30, 8, 1, 2, 12, .ro, 0⟩
def TRUST_STAT.SEQ : Fld := ⟨.boot, 0x30, 8, 1, 32, 32, .ro, 0⟩

/-! CFG_SEASON (R454) -/
def CFG_SEASON.SET : Fld := ⟨.boot, 0x180, 8, 64, 0, 64, .ro, 0⟩

/-! ATT_NONCE (R454) -/
def ATT_NONCE.NONCE : Fld := ⟨.boot, 0x400, 8, 6, 0, 64, .rw, 0⟩

/-! ATT_DEST (R454) -/
def ATT_DEST.CPA : Fld := ⟨.boot, 0x430, 8, 1, 6, 46, .rw, 0⟩

/-! ATT_CTL (R454) -/
def ATT_CTL.GO : Fld := ⟨.boot, 0x438, 8, 1, 0, 1, .wo, 0⟩
def ATT_CTL.BUSY : Fld := ⟨.boot, 0x438, 8, 1, 1, 1, .ro, 0⟩
def ATT_CTL.QUOTES : Fld := ⟨.boot, 0x438, 8, 1, 16, 32, .ro, 0⟩

/-! LED_CNT (R454) -/
def LED_CNT.BLOCK : Fld := ⟨.boot, 0x500, 8, 24, 0, 64, .ro, 0⟩

/-! GNT_CTL (R476) -/
def GNT_CTL.OP : Fld := ⟨.boot, 0x800, 8, 1, 0, 3, .wo, 0⟩
def GNT_CTL.SCOPE : Fld := ⟨.boot, 0x800, 8, 1, 3, 3, .rw, 0⟩
def GNT_CTL.SIGNER : Fld := ⟨.boot, 0x800, 8, 1, 6, 1, .rw, 0⟩
def GNT_CTL.PW_LEN : Fld := ⟨.boot, 0x800, 8, 1, 7, 7, .rw, 0⟩
def GNT_CTL.TIMEOUT : Fld := ⟨.boot, 0x800, 8, 1, 14, 11, .rw, 0⟩

/-! GNT_STAT (R476) -/
def GNT_STAT.SESSION : Fld := ⟨.boot, 0x808, 8, 1, 0, 2, .ro, 0⟩
def GNT_STAT.NONCE_VALID : Fld := ⟨.boot, 0x808, 8, 1, 2, 1, .ro, 0⟩
def GNT_STAT.CRED_VALID : Fld := ⟨.boot, 0x808, 8, 1, 3, 1, .ro, 0⟩
def GNT_STAT.RESULT : Fld := ⟨.boot, 0x808, 8, 1, 8, 8, .ro, 0⟩
def GNT_STAT.FAILS : Fld := ⟨.boot, 0x808, 8, 1, 16, 6, .ro, 8⟩
def GNT_STAT.LC_COUNT : Fld := ⟨.boot, 0x808, 8, 1, 24, 6, .ro, 0⟩
def GNT_STAT.REFURB_BUSY : Fld := ⟨.boot, 0x808, 8, 1, 30, 1, .ro, 0⟩

/-! LC_CMD (R476) -/
def LC_CMD.OP : Fld := ⟨.boot, 0x810, 8, 1, 0, 2, .wo, 0⟩

/-! BIST_CMD (R476) -/
def BIST_CMD.KIND : Fld := ⟨.bist, 0, 8, 1, 0, 9, .rw, 0⟩
def BIST_CMD.ORIGIN : Fld := ⟨.bist, 0, 8, 1, 16, 8, .rw, 0⟩
def BIST_CMD.CROWS : Fld := ⟨.bist, 0, 8, 1, 24, 5, .rw, 0⟩
def BIST_CMD.CCOLS : Fld := ⟨.bist, 0, 8, 1, 29, 5, .rw, 0⟩
def BIST_CMD.GO : Fld := ⟨.bist, 0, 8, 1, 34, 1, .wo, 0⟩

/-! BIST_UNITS (R476) -/
def BIST_UNITS.TABKOS : Fld := ⟨.bist, 8, 8, 1, 0, 48, .rw, 0⟩
def BIST_UNITS.PORTS : Fld := ⟨.bist, 8, 8, 1, 48, 16, .rw, 0⟩

/-! BIST_STAT (R476) -/
def BIST_STAT.BUSY : Fld := ⟨.bist, 0x10, 8, 1, 0, 1, .ro, 0⟩
def BIST_STAT.PASS : Fld := ⟨.bist, 0x10, 8, 1, 1, 1, .ro, 0⟩
def BIST_STAT.RESULT : Fld := ⟨.bist, 0x10, 8, 1, 8, 8, .ro, 0⟩
def BIST_STAT.RUNS : Fld := ⟨.bist, 0x10, 8, 1, 16, 16, .ro, 0⟩

/-! BIST_SLICE (R476) -/
def BIST_SLICE.EN : Fld := ⟨.bist, 0x40, 8, 1, 0, 1, .rw, 1⟩
def BIST_SLICE.PERIOD : Fld := ⟨.bist, 0x40, 8, 1, 16, 16, .rw, 0x40⟩
def BIST_SLICE.LAST : Fld := ⟨.bist, 0x40, 8, 1, 32, 8, .ro, 0⟩
def BIST_SLICE.RUNS : Fld := ⟨.bist, 0x40, 8, 1, 40, 16, .ro, 0⟩

/-! FALLOW_EDIT (R476) -/
def FALLOW_EDIT.CORE : Fld := ⟨.bist, 0x80, 8, 1, 0, 17, .wo, 0⟩
def FALLOW_EDIT.SET : Fld := ⟨.bist, 0x80, 8, 1, 17, 1, .wo, 0⟩
def FALLOW_EDIT.CLEAR : Fld := ⟨.bist, 0x80, 8, 1, 18, 1, .wo, 0⟩

/-! MAINT_CLAIM (R476) -/
def MAINT_CLAIM.ACT : Fld := ⟨.bist, 0x200, 8, 32, 0, 4, .ro, 0⟩
def MAINT_CLAIM.VALID : Fld := ⟨.bist, 0x200, 8, 32, 4, 1, .ro, 0⟩
def MAINT_CLAIM.KIND : Fld := ⟨.bist, 0x200, 8, 32, 5, 2, .ro, 0⟩
def MAINT_CLAIM.INDEX : Fld := ⟨.bist, 0x200, 8, 32, 16, 8, .ro, 0⟩
def MAINT_CLAIM.CROWS : Fld := ⟨.bist, 0x200, 8, 32, 24, 5, .ro, 0⟩
def MAINT_CLAIM.CCOLS : Fld := ⟨.bist, 0x200, 8, 32, 29, 5, .ro, 0⟩

/-! EVR_CTL (R495) -/
def EVR_CTL.BASE : Fld := ⟨.fault, 0, 0x20, 17, 12, 40, .rw, 0⟩
def EVR_CTL.SIZE : Fld := ⟨.fault, 0, 0x20, 17, 52, 4, .rw, 0⟩
def EVR_CTL.EN : Fld := ⟨.fault, 0, 0x20, 17, 56, 1, .rw, 0⟩

/-! EVR_PI (R495) -/
def EVR_PI.PI : Fld := ⟨.fault, 8, 0x20, 17, 0, 32, .ro, 0⟩
def EVR_PI.LOST : Fld := ⟨.fault, 8, 0x20, 17, 32, 32, .ro, 0⟩

/-! EVR_CI (R495) -/
def EVR_CI.CI : Fld := ⟨.fault, 0x10, 0x20, 17, 0, 32, .rw, 0⟩

/-! FLT_SPARE (R495) -/
def FLT_SPARE.CROFT : Fld := ⟨.fault, 0x400, 8, 1, 0, 8, .wo, 0⟩
def FLT_SPARE.BAD_ROW : Fld := ⟨.fault, 0x400, 8, 1, 8, 4, .wo, 0⟩
def FLT_SPARE.GO : Fld := ⟨.fault, 0x400, 8, 1, 12, 1, .wo, 0⟩
def FLT_SPARE.BUSY : Fld := ⟨.fault, 0x400, 8, 1, 13, 1, .ro, 0⟩
def FLT_SPARE.RESULT : Fld := ⟨.fault, 0x400, 8, 1, 16, 8, .ro, 0⟩

/-! FLT_PARITY (R495) -/
def FLT_PARITY.CORE : Fld := ⟨.fault, 0x408, 8, 1, 0, 17, .ro, 0⟩
def FLT_PARITY.SIDE : Fld := ⟨.fault, 0x408, 8, 1, 17, 3, .ro, 0⟩
def FLT_PARITY.FURROW : Fld := ⟨.fault, 0x408, 8, 1, 20, 1, .ro, 0⟩
def FLT_PARITY.HEADER : Fld := ⟨.fault, 0x408, 8, 1, 21, 1, .ro, 0⟩
def FLT_PARITY.COUNT : Fld := ⟨.fault, 0x408, 8, 1, 32, 16, .ro, 0⟩

/-! FLT_STILES (R495) -/
def FLT_STILES.LAST : Fld := ⟨.fault, 0x410, 8, 1, 0, 17, .ro, 0⟩
def FLT_STILES.COUNT : Fld := ⟨.fault, 0x410, 8, 1, 32, 16, .ro, 0⟩

/-! CVU_CFG (R503) -/
def CVU_CFG.PRESET : Fld := ⟨.cvu, 0, 0x40, 1, 0, 4, .stg, 0⟩
def CVU_CFG.CUSTOM : Fld := ⟨.cvu, 0, 0x40, 1, 4, 1, .stg, 0⟩
def CVU_CFG.WIDTH : Fld := ⟨.cvu, 0, 0x40, 1, 5, 7, .stg, 0⟩
def CVU_CFG.REFIN : Fld := ⟨.cvu, 0, 0x40, 1, 12, 1, .stg, 0⟩
def CVU_CFG.REFOUT : Fld := ⟨.cvu, 0, 0x40, 1, 13, 1, .stg, 0⟩

/-! CVU_START (R503) -/
def CVU_START.MPA : Fld := ⟨.cvu, 0x20, 8, 1, 0, 48, .stg, 0⟩

/-! CVU_LEN (R503) -/
def CVU_LEN.BYTES : Fld := ⟨.cvu, 0x28, 8, 1, 0, 36, .stg, 0⟩

/-! CVU_CTL (R503) -/
def CVU_CTL.GO : Fld := ⟨.cvu, 0x30, 8, 1, 0, 1, .wo, 0⟩
def CVU_CTL.ABORT : Fld := ⟨.cvu, 0x30, 8, 1, 1, 1, .wo, 0⟩
def CVU_CTL.BUSY : Fld := ⟨.cvu, 0x30, 8, 1, 2, 1, .ro, 0⟩
def CVU_CTL.DONE : Fld := ⟨.cvu, 0x30, 8, 1, 3, 1, .ro, 0⟩
def CVU_CTL.ABORTED : Fld := ⟨.cvu, 0x30, 8, 1, 4, 1, .ro, 0⟩
def CVU_CTL.STATUS : Fld := ⟨.cvu, 0x30, 8, 1, 8, 8, .ro, 0⟩
def CVU_CTL.SCANS : Fld := ⟨.cvu, 0x30, 8, 1, 32, 32, .ro, 0⟩

/-! CVU_RESULT (R503) -/
def CVU_RESULT.VALUE : Fld := ⟨.cvu, 0x38, 8, 1, 0, 64, .ro, 0⟩

/-! TLY_CNT (R92) -/
def TLY_CNT.ZERO : Fld := ⟨.core, 0x1c0, 0x10, 4, 0, 32, .ro, 0⟩
def TLY_CNT.NONFIN : Fld := ⟨.core, 0x1c0, 0x10, 4, 32, 32, .ro, 0⟩
def TLY_CNT.OVF : Fld := ⟨.core, 0x1c8, 0x10, 4, 0, 32, .ro, 0⟩
def TLY_CNT.UNF : Fld := ⟨.core, 0x1c8, 0x10, 4, 32, 32, .ro, 0⟩

/-! BLN_LANEMAP (R375) -/
def BLN_LANEMAP.LANE0 : Fld := ⟨.port, 0x10, 8, 1, 0, 4, .ro, 0⟩
def BLN_LANEMAP.LANE1 : Fld := ⟨.port, 0x10, 8, 1, 4, 4, .ro, 0⟩
def BLN_LANEMAP.LANE2 : Fld := ⟨.port, 0x10, 8, 1, 8, 4, .ro, 0⟩
def BLN_LANEMAP.LANE3 : Fld := ⟨.port, 0x10, 8, 1, 12, 4, .ro, 0⟩
def BLN_LANEMAP.LANE4 : Fld := ⟨.port, 0x10, 8, 1, 16, 4, .ro, 0⟩
def BLN_LANEMAP.LANE5 : Fld := ⟨.port, 0x10, 8, 1, 20, 4, .ro, 0⟩
def BLN_LANEMAP.LANE6 : Fld := ⟨.port, 0x10, 8, 1, 24, 4, .ro, 0⟩
def BLN_LANEMAP.LANE7 : Fld := ⟨.port, 0x10, 8, 1, 28, 4, .ro, 0⟩
def BLN_LANEMAP.LANE8 : Fld := ⟨.port, 0x10, 8, 1, 32, 4, .ro, 0⟩
def BLN_LANEMAP.LANE9 : Fld := ⟨.port, 0x10, 8, 1, 36, 4, .ro, 0⟩
def BLN_LANEMAP.LANE10 : Fld := ⟨.port, 0x10, 8, 1, 40, 4, .ro, 0⟩
def BLN_LANEMAP.LANE11 : Fld := ⟨.port, 0x10, 8, 1, 44, 4, .ro, 0⟩
def BLN_LANEMAP.LANE12 : Fld := ⟨.port, 0x10, 8, 1, 48, 4, .ro, 0⟩
def BLN_LANEMAP.LANE13 : Fld := ⟨.port, 0x10, 8, 1, 52, 4, .ro, 0⟩
def BLN_LANEMAP.LANE14 : Fld := ⟨.port, 0x10, 8, 1, 56, 4, .ro, 0⟩
def BLN_LANEMAP.LANE15 : Fld := ⟨.port, 0x10, 8, 1, 60, 4, .ro, 0⟩

/-! BLN_PEER (R375) -/
def BLN_PEER.WORD0 : Fld := ⟨.port, 0x80, 8, 1, 0, 64, .ro, 0⟩
def BLN_PEER.WORD1 : Fld := ⟨.port, 0x88, 8, 1, 0, 64, .ro, 0⟩
def BLN_PEER.WORD2 : Fld := ⟨.port, 0x90, 8, 1, 0, 64, .ro, 0⟩
def BLN_PEER.WORD3 : Fld := ⟨.port, 0x98, 8, 1, 0, 64, .ro, 0⟩

/-! MEAS_FW (R454) -/
def MEAS_FW.HASH : Fld := ⟨.boot, 0x100, 8, 6, 0, 64, .ro, 0⟩

/-! MEAS_CFG (R454) -/
def MEAS_CFG.HASH : Fld := ⟨.boot, 0x130, 8, 6, 0, 64, .ro, 0⟩

/-! GNT_RETRY (R476) -/
def GNT_RETRY.TICK : Fld := ⟨.boot, 0x818, 8, 1, 0, 64, .ro, 0⟩

/-! GNT_END (R476) -/
def GNT_END.TICK : Fld := ⟨.boot, 0x820, 8, 1, 0, 64, .ro, 0⟩

/-! GNT_PW (R476) -/
def GNT_PW.DATA : Fld := ⟨.boot, 0x840, 8, 8, 0, 64, .wo, 0⟩

/-! GNT_NONCE (R476) -/
def GNT_NONCE.DATA : Fld := ⟨.boot, 0x880, 8, 6, 0, 64, .ro, 0⟩

/-! GNT_RESP (R476) -/
def GNT_RESP.DATA : Fld := ⟨.boot, 0x8c0, 8, 24, 0, 64, .rw, 0⟩

/-! BIST_FAILC (R476) -/
def BIST_FAILC.CROFTS : Fld := ⟨.bist, 0x20, 8, 4, 0, 64, .ro, 0⟩

/-! BIST_QUAR (R476) -/
def BIST_QUAR.CROFTS : Fld := ⟨.bist, 0x60, 8, 4, 0, 64, .ro, 0⟩

/-! BIST_FAILU (R476) -/
def BIST_FAILU.TABKOS : Fld := ⟨.bist, 0x18, 8, 1, 0, 48, .ro, 0⟩
def BIST_FAILU.PORTS : Fld := ⟨.bist, 0x18, 8, 1, 48, 16, .ro, 0⟩

/-! LED_SEL (R476) -/
def LED_SEL.SEQ : Fld := ⟨.bist, 0x90, 8, 1, 0, 32, .rw, 0⟩

/-! LED_REC (R476) -/
def LED_REC.WORD : Fld := ⟨.bist, 0xa0, 8, 40, 0, 64, .ro, 0⟩

/-! CVU_POLY (R503) -/
def CVU_POLY.VALUE : Fld := ⟨.cvu, 8, 8, 1, 0, 64, .stg, 0⟩

/-! CVU_INIT (R503) -/
def CVU_INIT.VALUE : Fld := ⟨.cvu, 0x10, 8, 1, 0, 64, .stg, 0⟩

/-! CVU_XOROUT (R503) -/
def CVU_XOROUT.VALUE : Fld := ⟨.cvu, 0x18, 8, 1, 0, 64, .stg, 0⟩

/-! CVU_PRE (R503) -/
def CVU_PRE.WIDTH : Fld := ⟨.tabko, 0x2100, 0x20, 16, 0, 7, .ro, 0⟩
def CVU_PRE.REFIN : Fld := ⟨.tabko, 0x2100, 0x20, 16, 7, 1, .ro, 0⟩
def CVU_PRE.REFOUT : Fld := ⟨.tabko, 0x2100, 0x20, 16, 8, 1, .ro, 0⟩
def CVU_PRE.VALID : Fld := ⟨.tabko, 0x2100, 0x20, 16, 9, 1, .ro, 0⟩

/-! CVU_PREPOLY (R503) -/
def CVU_PREPOLY.VALUE : Fld := ⟨.tabko, 0x2108, 0x20, 16, 0, 64, .ro, 0⟩

/-! CVU_PREINIT (R503) -/
def CVU_PREINIT.VALUE : Fld := ⟨.tabko, 0x2110, 0x20, 16, 0, 64, .ro, 0⟩

/-! CVU_PREXOROUT (R503) -/
def CVU_PREXOROUT.VALUE : Fld := ⟨.tabko, 0x2118, 0x20, 16, 0, 64, .ro, 0⟩

/-! FALLOW_MAP (R32) -/
def FALLOW_MAP.BITS : Fld := ⟨.geo, 0x4000, 8, 1280, 0, 64, .ro, 0⟩

/-- The fields of the registers of the block `geo`. -/
def geoFields : List Fld :=
  [DIST.XING, DIST.EXIT, DIST.CYC_OUT, DIST.CYC_BACK, DIST.TK_OUT,
   DIST.TK_BACK, DIST.VALID, GEO_CTL.READY, GEO_CTL.BUSY, GEO_CTL.GEN,
   GEO_CTL.CROFTS, GEO_CTL.HOLDINGS, GEO_CTL.TABKOS, GEO_CTL.PORTS, CROFT_TABLE.PRESENT,
   CROFT_TABLE.HOLDING, CROFT_TABLE.SPARE_USED, CROFT_TABLE.BAD_ROW, CROFT_TABLE.SPARE_GOOD, CROFT_TABLE.FALLOW_COUNT,
   CROFT_TABLE.ENCLOSURE, CROFT_TABLE.ENCLOSED, CROFT_TABLE.OP, CROFT_TABLE.TRANSIT, CROFT_TABLE.S_N,
   CROFT_TABLE.S_E, CROFT_TABLE.S_S, CROFT_TABLE.S_W, HOLDING_TABLE.PRESENT, HOLDING_TABLE.STATE,
   HOLDING_TABLE.OP, PORT_TABLE.PRESENT, PORT_TABLE.CROFT, PORT_TABLE.REACHABLE, FALLOW_MAP.BITS]

/-- The fields of the registers of the block `core`. -/
def coreFields0 : List Fld :=
  [ARR_STAT.BUSY, ARR_STAT.COLD, ARR_STAT.QDEPTH, ARR_STAT.BIN0_INT, ARR_STAT.BIN1_INT,
   ARR_STAT.ILL, ARR_STAT.ISAT, ARR_STAT.NONFINITE, ARR_STAT.FAULT, ARR_CHK.CHK_TOTAL,
   ARR_CHK.CHK_STEP, ARR_CHK.CHK_LIMIT, ARR_CHK.LOC_ROW, ARR_CHK.LOC_COL, ARR_CHK.LOC_VALID,
   ARR_REPAIR.SPARE_EN, ARR_REPAIR.BAD_ROW, ARR_REPAIR.SPARE_GOOD, ARR_REPAIR.COMMIT, ARR_COUNT.STEPS,
   ARR_COUNT.RETRIES, NUM_SR.SEED, NUM_SR.STEP, NUM_SR_SEQ.SEQ, TLY_CTL.SLOT,
   TLY_CTL.FLUSH_BUSY, TLY_BIND.TALLY_ID, TLY_BIND.BOUND, TLY_BIND.CSAT, TLY_BIND.SIGMA,
   TLY_HIST.HIST_LO, TLY_HIST.HIST_HI, HND_CTL.ENTRY, HND_CTL.START, HND_CTL.STOP,
   HND_STAT.HALTED, HND_STAT.PC, HND_STAT.CAUSE, HND_CYC.CYCLES, VEC_VL.VL]
def coreFields1 : List Fld :=
  [VSTAT.OOR, VSTAT.ISAT, VSTAT.FSAT, VEC_SRSEQ.SEQ, HND_ILL.WORD,
   HND_H.VALUE, SP_CLASS.CLASS, SP_CLASS.COMMIT, SP_STAT.LOCKED, SP_STAT.WIPE_BUSY,
   SP_STAT.RECLASS_BUSY, SP_SCRUB.EN, SP_SCRUB.PASSES, SP_ECC.W_CORR, SP_ECC.A_CORR,
   SP_ECC.UNCORR, SP_ECC_LOC.OFFSET, SP_ECC_LOC.SLOT, SP_ECC_LOC.VALID, SP_WIPE.START,
   SP_WIPE.COUNT, GATE_WIN.BASE, GATE_WIN.SIZE, GATE_OP.OPEN, GATE_OP.CLOSE,
   GATE_OP.COMMIT, GATE_EPOCH.EPOCH, GATE_EPOCH.OPEN, GATE_STAT.LANDED, GATE_STAT.STALE,
   GATE_STAT.TORN, GATE_GRANT.DEST, GATE_GRANT.UNITS, GCR_LOST.LOST, GCR.TARGET,
   GCR.GATE, GCR.VALID, GCR.UNITS, GCR.EPOCH, FUR_POS.POS]
def coreFields2 : List Fld :=
  [FUR_POS.IN_SEG, FUR_POS.SEG, FUR_BEAT.RBEAT, FUR_BEAT.RUN, FUR_STAT.CATCH,
   FUR_STAT.INJ_A, FUR_STAT.INJ_B, FUR_STAT.CAP, FUR_STAT.HELD, FUR_STAT.CAUSE,
   FUR_STAT.HOLDCYC, RTR_STAT.STILE, RTR_STAT.FENCED, RTR_STAT.MCSLOT, RTR_STAT.COMB,
   RTR_STAT.ANSWERED, RTR_FLITS.FLITS, RTR_WAIT.CREDIT_WAIT, RTR_WAIT.ARB_WAIT, MC_STAT.OUT,
   MC_STAT.MISSES, MC_STAT.WR, MC_STAT.OVF, MC_MISS.TARGET, MC_MISS.TAG,
   MC_MISS.VALID, MC_MISS.DROP_TICK, DRL_STAT.STATE, DRL_STAT.PEND, DRL_STAT.CREDIT_WAIT,
   DRL_STAT.INFL, DRL_STAT.STATUS, DRL_STAT.BUSY_REF, DRL_STAT.ABORTED, DRL_STAT.MALFORM,
   DRL_DONE.DONE, DRL_DONE.ERRXFER, DRL_RESUME.I0, DRL_RESUME.I1, DRL_RESUME.I2]
def coreFields3 : List Fld :=
  [DRL_RESUME.I3, DRL_FAULT.VA, DRL_RUN.RESUME, DRL_RUN.FAIL, DRL_RUN.ABORT,
   DRL_RUN.SRSEQ, DRL_WAIT.SLOT_WAIT, DRL_WAIT.CREDIT_CYC, DRL_CFG.OUT0, DRL_CFG.OUT1,
   DRL_CFG.OUT2, DRL_CFG.OUT3, DRL_CFG.COMMIT, SYN_CNT.COUNT, EMIT_STAT.RET_USED,
   EMIT_STAT.BUSY, EMIT_STAT.REEMIT, EMIT_STAT.TILES, EMIT_SCALE.SHEAF, EMIT_SCALE.S,
   EMIT_SCALE.VALID, EMIT_SCALE.ROUND, TLY_CNT.ZERO, TLY_CNT.NONFIN, TLY_CNT.OVF,
   TLY_CNT.UNF]
def coreFields : List Fld := coreFields0 ++ coreFields1 ++ coreFields2 ++ coreFields3

/-- The fields of the registers of the block `fur`. -/
def furFields : List Fld :=
  [FUR_SEG.ORIGIN, FUR_SEG.CROWS, FUR_SEG.CCOLS, FUR_SEG.ENCL, FUR_SEG.EN,
   FUR_SEG.LAP, FUR_SEG.COMMIT, FUR_LAPMIN.LAP_MIN, FUR_LAPMIN.VALID, FUR_RUN.START,
   FUR_RUN.STOP, FUR_RUN.RUN, FUR_RUN.TICK0, FUR_HOLD.HOLDS, FUR_HOLD.LAGS]

/-- The fields of the registers of the block `croft`. -/
def croftFields : List Fld :=
  [MESH_CTL.MCAST_HOLD, CLK_STAT.OP, CLK_STAT.LOCKED, CLK_STAT.HOLDOVER, CLK_STAT.SLEWING,
   CLK_STAT.ERR, CLK_STAT.SLIPS, ALM_EST.TICK, ALM_EST.UNITS, CLK_STRETCH.S25,
   CLK_STRETCH.S50, CLK_MON.WARN_LIMIT, CLK_MON.WARN_MAP, CLK_MON.RUNOUT, CLK_MON.LAST_COUNT,
   HL_SLACK.S_N, HL_SLACK.S_E, HL_SLACK.S_S, HL_SLACK.S_W, LAG_REC.STAMP,
   LAG_REC.SIDE, LAG_REC.FURROW, LAG_REC.K, LAG_COUNT.LAGS, LAG_COUNT.TICKS]

/-- The fields of the registers of the block `clk`. -/
def clkFields : List Fld :=
  [ALM_TICK.TICK, REF_CTL.SELECT, REF_CTL.ACTIVE, REF_CTL.A_GOOD, REF_CTL.B_GOOD,
   REF_CTL.HOLDOVER, REF_CTL.LOST, REF_CTL.ON_OSC, REF_CTL.SWITCHES, REF_COUNT.A_EDGES,
   REF_COUNT.B_EDGES, HOLD_OP.CUR, HOLD_OP.TARGET, HOLD_OP.WAITING, HOLD_OP.BUSY,
   HOLD_OP.CHANGES, HOLD_OP.LAST_END]

/-- The fields of the registers of the block `reeve`. -/
def reeveFields : List Fld :=
  [REEVE_ID.MINOR, REEVE_ID.MAJOR, REEVE_ID.TARGET, REEVE_STAT.BUSY, REEVE_STAT.ENCL,
   REEVE_STAT.IN_USE, REEVE_STAT.LAST_SUB, REEVE_STAT.LAST_CODE, REEVE_STAT.LOADS, ENCL_SHAPE.ORIGIN,
   ENCL_SHAPE.CROWS, ENCL_SHAPE.CCOLS, ENCL_SHAPE.FALLOW_RESERVE, ENCL_SHAPE.KEEP, ENCL_SHAPE.YOKE,
   ENCL_SHAPE.SHARE, ENCL_SHAPE.JOB_ID, ENCL_STATE.STATE, ENCL_STATE.CAUSE, ENCL_STATE.SUBCODE,
   ENCL_STATE.STEP, ENCL_RES.RESOWS, ENCL_RES.FALLOW_MAX, ENCL_RES.SLOW_MIB, ENCL_TRANSIT.CROFTS]

/-- The fields of the registers of the block `tabko`. -/
def tabkoFields0 : List Fld :=
  [TBK_ID.PRESENT, TBK_ID.RATE, TBK_ID.ADMIT_WIN, TBK_ID.INDEX, TBK_STAT.INIT_BUSY,
   TBK_STAT.READY, TBK_STAT.SELF_REFRESH, TBK_STAT.LINK_UP, TBK_STAT.RECAL_BUSY, TBK_STAT.DOWN,
   TBK_STAT.SHARE_USED, TBK_STAT.PENDING, TBK_WHEEL.SHARE_FREE, TBK_WHEEL.REVS, TBK_SCRUB.EN,
   TBK_SCRUB.PASSES, TBK_ECC.CORR, TBK_ECC.UNCORR, TBK_ECC_LOC.ADDR, TBK_ECC_LOC.CHANNEL,
   TBK_ECC_LOC.SOURCE, TBK_ECC_LOC.VALID, TBK_LINK.REPLAYS, TBK_LINK.FAILS, TBK_LINK.RETRAINS,
   TBK_TEMP.PKG0, TBK_TEMP.PKG1, TBK_TEMP.LIMIT, TBK_TEMP.HOT, TBK_SHARE.SHARE,
   TBK_SHARE.TRACK, TBK_SHARE.INUSE, TBK_SHARE.ADMIT_WAIT, TBK_REGION.BASE, TBK_REGION.COUNT,
   TBK_REGION.ENCL, TBK_REGION.VALID, TBK_REGION.CLOSED, UPD_STAT.SETS, UPD_STAT.BUSY]
def tabkoFields1 : List Fld :=
  [UPD_STAT.DONE, UPD_STAT.ENTRIES, UPD_STAT.STEP, UPD_CNT.NONFIN, UPD_CNT.WB_REFUSED,
   UPD_ELEMS.ELEMS, UPD_ETA.ETA, UPD_ETA.VALID, CVU_PRE.WIDTH, CVU_PRE.REFIN,
   CVU_PRE.REFOUT, CVU_PRE.VALID, CVU_PREPOLY.VALUE, CVU_PREINIT.VALUE, CVU_PREXOROUT.VALUE]
def tabkoFields : List Fld := tabkoFields0 ++ tabkoFields1

/-- The fields of the registers of the block `floor`. -/
def floorFields : List Fld :=
  [FLR_STAT.READY, FLR_STAT.FOLD_USED, FLR_STAT.FOLD_PEAK, FLR_STAT.FOLD_WAIT, FLR_RING.LEN,
   FLR_RING.POS, FLR_RING.NEXT, FLR_RING.PREV, FLR_RING.COMMIT, FLR_RING.VALID,
   FLR_ENCL.STEP, FLR_ENCL.OPEN, FLR_ENCL.MISSES, FLR_ENCLCNT.DONE, FLR_ENCLCNT.STRAY,
   FLR_SCALE.SHEAF, FLR_SCALE.S, FLR_SCALE.VALID, FLR_SCALE.ROUND, FLR_SCALE.EMAX,
   FLR_SCALE.EVALID, FLR_PEER.NEXT_ID, FLR_PEER.PREV_ID, FWD_ID.MODULE_ID, FWD_ID.INSTALL,
   FWD_ID.HOPS_INIT, FWD_ID.COMMIT, FWD_CTL.COMMIT, FWD_CTL.GEN, FWD_STAT.NOROUTE,
   FWD_STAT.DUPS, FWD_STAT.STOMPED, FWD.EGRESS, FWD.VALID, FWD.LOCAL,
   FWD.LOP, FWD.ALT, FWD.ALT_VALID, FWD.ALT_LOP]

/-- The fields of the registers of the block `gleaner`. -/
def gleanerFields : List Fld :=
  [GLN_CTL.EN, GLN_CTL.K, GLN_CTL.HOLD, GLN_STAT.SAMPLED, GLN_STAT.MISSES,
   GLN_STAT.SKIPPED, GLN_LAST.SHEAF, GLN_LAST.TILE, GLN_LAST.STEP, GLN_LAST.VALID]

/-- The fields of the registers of the block `port`. -/
def portFields0 : List Fld :=
  [BLN_CTL.EN, BLN_CTL.RETRAIN, BLN_CTL.MARGIN_LIMIT, BLN_STAT.PRESENT, BLN_STAT.STATE,
   BLN_STAT.FAILED, BLN_STAT.PEER_ID, BLN_STAT.PEER_VALID, BLN_STAT.PEER_PORT, BLN_STAT.TRAINS,
   BLN_FEC.CORR_CW, BLN_FEC.UNCORR_CW, BLN_REPLAY.INFLIGHT, BLN_REPLAY.REPLAYS, BLN_REPLAY.NAKS,
   BLN_FRAMES.TX, BLN_FRAMES.RX, BLN_CREDIT.REDUCE0, BLN_CREDIT.REDUCE1, BLN_CREDIT.GLEAN0,
   BLN_CREDIT.YOKE0, BLN_OPTICS.TEMP, BLN_OPTICS.TXPWR_MIN, BLN_OPTICS.RXPWR_MIN, BLN_LASER.HOURS,
   BLN_LANEMAP.LANE0, BLN_LANEMAP.LANE1, BLN_LANEMAP.LANE2, BLN_LANEMAP.LANE3, BLN_LANEMAP.LANE4,
   BLN_LANEMAP.LANE5, BLN_LANEMAP.LANE6, BLN_LANEMAP.LANE7, BLN_LANEMAP.LANE8, BLN_LANEMAP.LANE9,
   BLN_LANEMAP.LANE10, BLN_LANEMAP.LANE11, BLN_LANEMAP.LANE12, BLN_LANEMAP.LANE13, BLN_LANEMAP.LANE14]
def portFields1 : List Fld :=
  [BLN_LANEMAP.LANE15, BLN_PEER.WORD0, BLN_PEER.WORD1, BLN_PEER.WORD2, BLN_PEER.WORD3]
def portFields : List Fld := portFields0 ++ portFields1

/-- The fields of the registers of the block `yosal`. -/
def yosalFields : List Fld :=
  [YEP_ID.VERSION, YEP_STAT.STATE, YEP_STAT.WIDTH8, YEP_STAT.OUTSTANDING, YEP_STAT.RETRAINS,
   YEP_CTL.TIMEOUT, YEP_CTL.SPACE_COMMIT, YEP_WIN.BASE, YEP_WIN.EN, YEP_SIG.VEC_ST,
   YEP_SIG.VEC_FAULT, YEP_SIG.VEC_ENCL, YEP_SIG.GAP, YEP_FRING.BASE, YEP_FRING_STAT.PI,
   YEP_FRING_STAT.CI, YEP_TC.HITS, YEP_TC.MISSES, YEP_LINK.REPLAYS, YEP_LINK.FEC_CORR,
   YEP_LINK.CRC_FAIL, YEP_LINK.BADMSG, YEP_WATCH_A.LINE, YEP_WATCH_B.EN, YEP_WATCH_B.KIND,
   YEP_WATCH_B.ENCL, YEP_WATCH_B.CORE, YEP_WATCH_B.CNT, YEP_WATCH_B.HELD, YEP_WATCH_B.LAST,
   YEP_SPACE.SPACE, YEP_SPACE.ENCL, YEP_SPACE.VALID]

/-- The fields of the registers of the block `yoke`. -/
def yokeFields : List Fld :=
  [YK_CFG.EN, YK_CFG.MATE_ID, YK_CTL.HB_PERIOD, YK_CTL.HB_MISS, YK_CTL.CMP_EVERY,
   YK_CTL.CMP_GRAN, YK_STAT.STATE, YK_STAT.STRAY, YK_STAT.LAST_RX, YK_CMD.OP,
   YK_CMD.ENCL, YK_CMD.POLICY, YK_CMD.DST, YK_CMD.STEP, YK_GO.COMMIT,
   YK_CMP.STEP, YK_CMP.TABKO, YK_CMP.GRANULE, YK_CMP.VALID, YK_CMPCNT.DONE,
   YK_CMPCNT.SKIPPED, YK_SEED.BYTES, YK_SEED.BUSY, YK_ENCL.LANDED, YK_ENCL.SHARES,
   YK_ENCL.SOLO, YK_ENCL.ACCEPTING]

/-- The fields of the registers of the block `pwr`. -/
def pwrFields : List Fld :=
  [PWR_CTL.BUSY, PWR_CTL.PHASE, PWR_CTL.REASON, PWR_CTL.DONE_SEQ, PWR_TRIP.CAUSE,
   PWR_TRIP.DOMAIN, PWR_TRIP.VALID, PWR_TRIP.VALUE, PWR_TRIP.TICK, PWR_LIMIT.TJ_TRIP,
   PWR_LIMIT.TJ_WARN, PWR_LIMIT.DRAM_TRIP, PWR_LIMIT.OPT_TRIP, PWR_LIMIT.HOLD_ITRIP, PWR_LIMIT.IN_ITRIP,
   PWR_LIMIT.PAIR_ITRIP, PWR_METER.WATTS, PWR_METER.VOLTS, PWR_METER.AMPS, PWR_DOM.CUR,
   PWR_DOM.TARGET, PWR_DOM.BUSY, PWR_DOM.WAITING, PWR_DOM.TRIPPED, PWR_DOM.CHANGES,
   PWR_DOM.LAST_END, PWR_HOLD.TJ_MAX, PWR_HOLD.I_CORE, PWR_HOLD.MILLIVOLTS]

/-- The fields of the registers of the block `boot`. -/
def bootFields0 : List Fld :=
  [BOOT_STAT.PHASE, BOOT_STAT.HOLD_CAUSE, BOOT_STAT.REASON, BOOT_STAT.LC, BOOT_STAT.MIN_SVN,
   BOOT_STAT.SVN, BOOT_STAT.CFG_GEN, BOOT_VER.VERSION, BOOT_LOAD_ADDR.CPA, BOOT_LOAD_CTL.LEN,
   BOOT_LOAD_CTL.TARGET, BOOT_LOAD_CTL.GO, BOOT_LOAD_CTL.RESTART, BOOT_LOAD_STAT.BUSY, BOOT_LOAD_STAT.STAGE,
   BOOT_LOAD_STAT.FLASH_BAD, BOOT_LOAD_STAT.REASON, BOOT_LOAD_STAT.RESULT, BOOT_LOAD_STAT.COUNT, BOOT_ID.SERIAL,
   TRUST_STAT.ID_OK, TRUST_STAT.TAINT, TRUST_STAT.CKPT, TRUST_STAT.SEQ, CFG_SEASON.SET,
   ATT_NONCE.NONCE, ATT_DEST.CPA, ATT_CTL.GO, ATT_CTL.BUSY, ATT_CTL.QUOTES,
   LED_CNT.BLOCK, GNT_CTL.OP, GNT_CTL.SCOPE, GNT_CTL.SIGNER, GNT_CTL.PW_LEN,
   GNT_CTL.TIMEOUT, GNT_STAT.SESSION, GNT_STAT.NONCE_VALID, GNT_STAT.CRED_VALID, GNT_STAT.RESULT]
def bootFields1 : List Fld :=
  [GNT_STAT.FAILS, GNT_STAT.LC_COUNT, GNT_STAT.REFURB_BUSY, LC_CMD.OP, MEAS_FW.HASH,
   MEAS_CFG.HASH, GNT_RETRY.TICK, GNT_END.TICK, GNT_PW.DATA, GNT_NONCE.DATA,
   GNT_RESP.DATA]
def bootFields : List Fld := bootFields0 ++ bootFields1

/-- The fields of the registers of the block `bist`. -/
def bistFields : List Fld :=
  [BIST_CMD.KIND, BIST_CMD.ORIGIN, BIST_CMD.CROWS, BIST_CMD.CCOLS, BIST_CMD.GO,
   BIST_UNITS.TABKOS, BIST_UNITS.PORTS, BIST_STAT.BUSY, BIST_STAT.PASS, BIST_STAT.RESULT,
   BIST_STAT.RUNS, BIST_SLICE.EN, BIST_SLICE.PERIOD, BIST_SLICE.LAST, BIST_SLICE.RUNS,
   FALLOW_EDIT.CORE, FALLOW_EDIT.SET, FALLOW_EDIT.CLEAR, MAINT_CLAIM.ACT, MAINT_CLAIM.VALID,
   MAINT_CLAIM.KIND, MAINT_CLAIM.INDEX, MAINT_CLAIM.CROWS, MAINT_CLAIM.CCOLS, BIST_FAILC.CROFTS,
   BIST_QUAR.CROFTS, BIST_FAILU.TABKOS, BIST_FAILU.PORTS, LED_SEL.SEQ, LED_REC.WORD]

/-- The fields of the registers of the block `fault`. -/
def faultFields : List Fld :=
  [EVR_CTL.BASE, EVR_CTL.SIZE, EVR_CTL.EN, EVR_PI.PI, EVR_PI.LOST,
   EVR_CI.CI, FLT_SPARE.CROFT, FLT_SPARE.BAD_ROW, FLT_SPARE.GO, FLT_SPARE.BUSY,
   FLT_SPARE.RESULT, FLT_PARITY.CORE, FLT_PARITY.SIDE, FLT_PARITY.FURROW, FLT_PARITY.HEADER,
   FLT_PARITY.COUNT, FLT_STILES.LAST, FLT_STILES.COUNT]

/-- The fields of the registers of the block `cvu`. -/
def cvuFields : List Fld :=
  [CVU_CFG.PRESET, CVU_CFG.CUSTOM, CVU_CFG.WIDTH, CVU_CFG.REFIN, CVU_CFG.REFOUT,
   CVU_START.MPA, CVU_LEN.BYTES, CVU_CTL.GO, CVU_CTL.ABORT, CVU_CTL.BUSY,
   CVU_CTL.DONE, CVU_CTL.ABORTED, CVU_CTL.STATUS, CVU_CTL.SCANS, CVU_RESULT.VALUE,
   CVU_POLY.VALUE, CVU_INIT.VALUE, CVU_XOROUT.VALUE]

/-- The fields of a block of the given kind (the tables of the chapters' register rules). -/
def fieldsOf : Block → List Fld
  | .core => coreFields
  | .croft => croftFields
  | .tabko => tabkoFields
  | .cvu => cvuFields
  | .port => portFields
  | .floor => floorFields
  | .gleaner => gleanerFields
  | .yosal => yosalFields
  | .geo => geoFields
  | .clk => clkFields
  | .fur => furFields
  | .reeve => reeveFields
  | .yoke => yokeFields
  | .pwr => pwrFields
  | .boot => bootFields
  | .bist => bistFields
  | .fault => faultFields

end Sys2Proof.Machine.Reg
end

