-- ==== Sys2Proof/Machine/Store.lean ====
section
/-! DEFINITION. Sparse data by key: a list of key and value pairs with rising keys. Registers, latent errors, code
stores and units are held so; memory is held in the canonical form below, in which no listed byte is the byte an unlisted
address reads as. -/

namespace Sys2Proof.Machine

/-- What a list of pairs holds for a key. -/
def Store.get {α : Type} : List (Nat × α) → Nat → Option α
  | [], _ => none
  | (a, x) :: t, k => if k = a then some x else Store.get t k

/-- The value for a key, or the given one. -/
def Store.getD {α : Type} (l : List (Nat × α)) (k : Nat) (d : α) : α := (Store.get l k).getD d

/-- A value put before the first that it may stand before. -/
def insertBy {α : Type} (le : α → α → Bool) (x : α) : List α → List α
  | [] => [x]
  | y :: t => if le x y then x :: y :: t else y :: insertBy le x t
/-- A list in order; equals stay as they stood. -/
def sortBy {α : Type} (le : α → α → Bool) : List α → List α
  | [] => []
  | x :: t => insertBy le x (sortBy le t)

/-- Put a value at a key, keeping keys in rising order. -/
def Store.put {α : Type} : List (Nat × α) → Nat → α → List (Nat × α)
  | [], k, v => [(k, v)]
  | (a, x) :: t, k, v =>
    if k < a then (k, v) :: (a, x) :: t
    else if k = a then (k, v) :: t
    else (a, x) :: Store.put t k v

/-- Remove a key. -/
def Store.erase {α : Type} (l : List (Nat × α)) (k : Nat) : List (Nat × α) :=
  l.filter (fun p => decide (p.1 ≠ k))

/-- Remove every key from `lo` up to, and without, `hi`. -/
def Store.eraseRange {α : Type} (l : List (Nat × α)) (lo hi : Nat) : List (Nat × α) :=
  l.filter (fun p => decide (p.1 < lo ∨ hi ≤ p.1))

/-- The keys rise strictly. -/
def Store.sorted {α : Type} (l : List (Nat × α)) : Prop := l.Pairwise (fun p q => p.1 < q.1)

/-- What a byte reads as that no entry of memory lists: DESIGN CHOICE, log entry 4. -/
def Memory.unlisted : Byte := 0

/-- The byte at an address. -/
def Memory.read (m : List Host.Cell) (a : Nat) : Byte := Store.getD m a Memory.unlisted

/-- Write one byte; writing what an unlisted address reads as removes the entry. -/
def Memory.write (m : List Host.Cell) (a : Nat) (b : Byte) : List Host.Cell :=
  if b = Memory.unlisted then Store.erase m a else Store.put m a b

/-- Write bytes at rising addresses from `a`. -/
def Memory.writeList : List Host.Cell → Nat → List Byte → List Host.Cell
  | m, _, [] => m
  | m, a, b :: t => Memory.writeList (Memory.write m a b) (a + 1) t

/-- The `n` bytes from address `a`. -/
def Memory.readList (m : List Host.Cell) (a n : Nat) : List Byte :=
  (List.range n).map (fun i => Memory.read m (a + i))

/-- The canonical form: rising addresses, and no entry that an unlisted address would read as. -/
abbrev Memory.wf (m : List Host.Cell) : Prop :=
  m.Pairwise (fun p q => p.1 < q.1) ∧ ∀ p ∈ m, p.2 ≠ Memory.unlisted

end Sys2Proof.Machine
end

