-- ==== Sys2Proof/Machine/State.lean ====
section
/-! DEFINITION. The state of the module as plain data. Every field of a register lies in `fields` (and a staged value in
`stagedF`), keyed by its address and lowest bit; what no register shows lies in the records below. -/

namespace Sys2Proof.Machine

/-- Why a step stops. No command stops: an index of a unit cannot leave the module, by its type, and every event the spec
reports is an effect on the state. Nothing raises this. -/
inductive Fault where
  /-- Raised by nothing; safe. -/
  | none
  deriving DecidableEq, Repr

/-- Why a command has no meaning. -/
inductive Refusal where
  /-- A row of the table without a meaning yet; raised by the arms of `exec` that say so; safe. -/
  | notModelled (mnemonic : String)
  deriving DecidableEq, Repr

/-! ### A core: hand, array, furrow port (chapters 02-06) -/

/-- What the hand of a core holds on (R52, R88, R158, R204, R238, R349). -/
inductive Hold where
  | none
  /-- AFENCE (R52). -/
  | afence
  /-- A write of TLY_BIND_n (R88): slot and value. -/
  | tlyBind (n : Nat) (value : Word)
  /-- FWAIT for a consumption beat (R158). -/
  | fwait (beat : Nat)
  /-- DWAIT with MODE 0: drill and DONE count (R204). -/
  | dwait (d count : Nat)
  /-- DWAIT with MODE 1: drill (R204). -/
  | dwaitPending (d : Nat)
  /-- TWAIT for a tick (R238). -/
  | twait (tick : Nat)
  /-- SWAIT for a SYNC counter (R238). -/
  | swait (cnt value : Nat)
  /-- SBAR: waits for the release tick (R349). -/
  | sbar
  deriving DecidableEq, Repr

/-- An AMMA as the array holds it: its fields and the descriptors read at issue (R49). -/
structure MmaInsn where
  fmta : Nat
  fmtb : Nat
  bin : Nat
  zero : Bool
  ta : Bool
  tb : Bool
  srca : Bool
  srcb : Bool
  tiles : Nat
  /-- Operand and scale descriptors (R44, R45). -/
  da : Word
  sa : Word
  db : Word
  sb : Word
  deriving DecidableEq, Repr

/-- An array instruction in the queue or an engine (R53). -/
inductive ArrInsn where
  | mma (i : MmaInsn)
  /-- Output format, destination descriptor, bin, rounding, saturation, tally (R50). -/
  | drain (fmto : Nat) (desc : Word) (bin rnd : Nat) (sat tally : Bool)
  /-- Bin, floor, sheaf, tile (R51). -/
  | emit (bin floor sheaf tile : Nat)
  /-- AFENCE (R52): handled at the queue head. -/
  | fence
  deriving DecidableEq, Repr

/-- One operand tile as the array read it, held in the replay store until its verdict (R62). -/
structure OpTile where
  /-- The 32 B of each of the 16 steps. -/
  data : List Byte
  /-- The scale block, 32 B (R45). -/
  scales : List Byte
  /-- A step carried a poisoned beat (R478). -/
  poison : Bool
  deriving DecidableEq, Repr

/-- A tile whose steps the array has read and whose verdict is still to come, with its operands (the replay store of R62). -/
structure MmaRun where
  seq : Nat
  insn : MmaInsn
  tile : Nat
  a : OpTile
  b : OpTile
  /-- The array was cold at the instruction's first step (R57). -/
  cold : Bool
  /-- First consumption beat of the instruction, for an operand from the furrow (R151). -/
  beat : Nat
  deriving DecidableEq, Repr

/-- The running AMMA while tiles of it are still to be read (R53): the next one, and what each tile carries. -/
structure MmaFeed where
  seq : Nat
  insn : MmaInsn
  next : Nat
  cold : Bool
  beat : Nat
  deriving DecidableEq, Repr

/-- The running read-out (R53, R58): its number, its bin, the tally slot that observes it, the cycles after its last bin read and
after its last write. -/
structure ReadRun where
  seq : Nat
  bin : Nat
  slot : Option Nat
  readEnd : Nat
  writeEnd : Nat
  deriving DecidableEq, Repr

/-- A furrow entry or capture (R152, R155). -/
structure FurOp where
  fmt : Nat
  lane : Nat
  trans : Bool
  desc : Word
  sdesc : Word
  /-- Start ring beat. -/
  beat : Nat
  tiles : Nat
  /-- Beats moved so far. -/
  done : Nat
  deriving DecidableEq, Repr

/-- A payload on the ring: entered at position `pos` in beat `beat` on a lane; it is seen at positions above `pos` in
that beat and at positions below it LAP beats later, and is retired at `pos` (R149, R150). -/
structure Payload where
  lane : Nat
  pos : Nat
  beat : Nat
  /-- 32 B of data and the 2 B sideband. -/
  data : List Byte
  /-- Position behind which the payload failed parity (R478). -/
  poison : Option Nat
  deriving DecidableEq, Repr

/-- A tally flush (R88): tally id and the slot's counters in the order of the statistics sheaf. -/
structure Flush where
  id : Nat
  csat : Bool
  zero : Nat
  nonfin : Nat
  ovf : Nat
  unf : Nat
  hist : List Nat
  deriving DecidableEq, Repr

/-! ### Mesh and drills (chapters 07, 08) -/

/-- A packet: the common header fields of R178, the body bits [255:88], the tree flit of a multicast and the payload. -/
structure Packet where
  /-- TYPE (R179). -/
  ty : Nat
  /-- VC (R173). -/
  vc : Nat
  dkind : Nat
  dst : Nat
  skind : Nat
  src : Nat
  encl : Nat
  tag : Nat
  tick : Nat
  status : Nat
  kcopy : Bool
  /-- Bits [255:88] of the header, bit 88 first. -/
  body : Nat
  /-- Router that combines the acknowledgement of a multicast branch (R187). -/
  via : Nat
  /-- The four rectangle words of a multicast (R181). -/
  tree : List Word
  /-- Payload, 32 B for each beat; LEN is its length in beats. -/
  data : List Byte
  /-- Payload beats that failed parity (R478). -/
  poison : List Nat
  /-- Payload bytes of a write-back that no element covers: where they land nothing is written (R316). -/
  keep : List Nat := []
  deriving DecidableEq, Repr

/-- A packet in a router's input: the outputs it is still to be copied to (R183; one for a unicast). Inputs and outputs are
numbered 0 Local, 1 N, 2 E, 3 S, 4 W, 5 Attachment; output 8 + k is the Local copy for rectangle k of a multicast. -/
structure MPkt where
  pkt : Packet
  outs : List Nat
  /-- No copy has left yet: a fork still needs its combining entry (R187). -/
  fresh : Bool
  /-- Cycles counted since the segment's start (R230), used for the stamp of the next crossing. -/
  cyc : Nat
  /-- Tick the segment is counted from, and the croft's count of cycles at its start (R230). -/
  segTick : Nat
  segCyc : Nat
  deriving DecidableEq, Repr

/-- An entry of a headland queue (R230). -/
structure HlEntry where
  pkt : Packet
  stamp : Nat
  deriving DecidableEq, Repr

/-- Credit on its way back across a crossing (R174): queue, flits, tick at which it arrives. -/
structure CreditRet where
  queue : Nat
  flits : Nat
  due : Nat
  deriving DecidableEq, Repr

/-- A branch in a multicast slot and the tick in which it entered (R185, R186). -/
structure McSlot where
  pkt : Packet
  tick : Nat
  deriving DecidableEq, Repr

/-- A combining entry of a fork router (R187): the multicast's source and tag, the router that takes the sums, the targets
still to be answered for, the sums so far. -/
structure CombEntry where
  src : Nat
  tag : Nat
  up : Nat
  left : Nat
  landed : Nat
  refused : Nat
  missed : Nat
  fenced : Nat
  rcode : Nat
  deriving DecidableEq, Repr

/-- The gate or multicast write at the head of an ejection buffer: next beat, beats landed, STATUS of its first failed beat, and whether
a beat came from another enclosure (R133, R265). -/
structure Landing where
  next : Nat
  landed : Nat
  code : Nat
  denied : Bool
  deriving DecidableEq, Repr

/-- What comes to a core's drills from the companion (R203, R213): the answer to a write, or to a read with its bytes; FAIL for a drill. -/
inductive CompIn where
  | wrote (tag status : Nat)
  | read (tag status : Nat) (bytes : List Byte)
  | fail (drill : Nat)
  deriving DecidableEq, Repr

/-- What a transfer of a drill is (R200). -/
inductive XferKind where
  /-- Read of element or group bytes into the scratchpad. -/
  | read
  /-- Write to the slow tier or companion memory. -/
  | write
  /-- Gate write. -/
  | gate
  /-- Multicast write. -/
  | mcast
  deriving DecidableEq, Repr

/-- An outstanding transfer (R200, R201). -/
structure Xfer where
  tag : Nat
  kind : XferKind
  /-- It moves scale bytes of an MX transform. -/
  scale : Bool
  /-- Linear index of the first unit, and number of units. -/
  unit : Nat
  count : Nat
  /-- Remote address and bytes. -/
  addr : Nat
  bytes : Nat
  /-- Completed with this STATUS, its place not yet freed (R203). -/
  done : Option Nat
  deriving DecidableEq, Repr

/-- The active descriptor of a drill (R196, R200). -/
structure DescRun where
  words : List Word
  /-- Linear index of the next unsent unit. -/
  next : Nat
  /-- Next scale group to send (MX transforms). -/
  nextScale : Nat
  /-- Scale bytes read for an expansion, or produced by a quantise, by group. -/
  scales : List (Nat × Nat)
  /-- STATUS and ERRXFER gathered so far (R203). -/
  status : Nat
  errs : Nat
  /-- FAIL was answered: no further unit moves (R213). -/
  failed : Bool
  /-- Elements read of groups that travel element by element, by linear index (R197). -/
  parts : List (Nat × List Byte)
  deriving DecidableEq, Repr

/-- A companion transfer on its way to the Yosal endpoint, in order of departure (R211). -/
structure CompReq where
  core : Nat
  drill : Nat
  tag : Nat
  encl : Nat
  wr : Bool
  space : Nat
  va : Nat
  bytes : Nat
  data : List Byte
  deriving DecidableEq, Repr

/-- One drill (R194, R205, R212, R214). -/
structure DrillX where
  /-- DARMs whose descriptors are still to be read and checked, oldest first: address and instruction word. -/
  claims : List (Nat × Nat)
  active : Option DescRun
  pending : Option (List Word)
  out : List Xfer
  /-- Answers still to arrive for transfers of an aborted descriptor: their tags (R214). -/
  orphans : List Nat
  /-- Paused by a translation fault (R212). -/
  paused : Bool
  /-- Resume was written; it acts once the earlier transfers are answered (R213). -/
  resume : Bool
  deriving DecidableEq, Repr

/-- A tile kept in a retention slot for re-emission (R332). -/
structure Retained where
  sheaf : Nat
  tile : Nat
  floor : Nat
  /-- 256 FP32 codes. -/
  vals : List Nat
  /-- Round in which it was last sent. -/
  round : Nat
  /-- To be re-emitted (R343). -/
  again : Bool
  deriving DecidableEq, Repr

/-- A core: everything its registers, vector registers, bins, code store and scratchpad do not hold. -/
structure CoreX where
  hold : Hold
  /-- The word at 2,047 has issued and its hold is not over: the core then halts (R115). -/
  runOff : Bool
  /-- W_CORRECTED was raised since the last step boundary (R124). -/
  wCorr : Bool
  /-- A checksum re-run is under way (R62). -/
  retry : Bool
  /-- Bin types as the issued instructions leave them (R55). -/
  issInt0 : Bool
  issInt1 : Bool
  /-- Array instructions issued since the start: each carries its number, its place in program order (R54). -/
  arrSeq : Nat
  /-- Array queue, oldest first (R53). -/
  arrQ : List (Nat × ArrInsn)
  mmaPend : Option (Nat × ArrInsn)
  /-- The running AMMA while it has tiles to read, and the tiles that wait for their verdicts, oldest first. -/
  feed : Option MmaFeed
  flight : List MmaRun
  /-- Cycle after the last step accepted or planned, and after the ramp, by the croft's count (R53, R57). -/
  stepEnd : Nat
  ramp : Option Nat
  rdPend : Option (Nat × ArrInsn)
  rdRun : Option ReadRun
  /-- Furrow entry engines of lanes A and B and the capture engine: running and pending (R156). -/
  injA : Option FurOp
  injApend : Option FurOp
  injB : Option FurOp
  injBpend : Option FurOp
  cap : Option FurOp
  capPend : Option FurOp
  /-- The catch buffer fills: twentieths of cycles at its start, and cycles for which it fills (R160). -/
  catchUp : Option (Nat × Nat)
  /-- Tally flush buffer (R88), and writes of TLY_BIND from outside that wait: slot and value. -/
  flush : Option Flush
  binds : List (Nat × Word)
  /-- Next offset the scrub reads, and the 32 B block with a word to write back (R127). -/
  scrub : Nat
  scrubBack : Option Nat
  /-- Segments whose re-encoding is under way, with their old class W (R126). -/
  reclass : List (Nat × Bool)
  /-- The inspection copy runs before the wipe: next offset (R138). -/
  copy : Option Nat
  /-- Writes of the copy still to be acknowledged. -/
  copyOut : Nat
  /-- Packets staged for the Local input, earliest first (R207), and those of the emission path (R330). -/
  staged : List Packet
  emit : List Packet
  retention : List Retained
  /-- CTL packets of the core waiting at Local (grants, sync). -/
  ctl : List Packet
  drills : List DrillX
  mcSlots : List McSlot
  comb : List CombEntry
  /-- MC_MISS notices and answers of this router waiting for the RSP channel. -/
  rspOut : List Packet
  /-- Writes under way at the heads of the REQ and MC ejection buffers (R133). -/
  gwLand : Landing
  mcLand : Landing
  /-- Writes of the inspection copy on their way to the Local input (R138). -/
  copyQ : List Packet
  /-- What the endpoint has answered while the croft stands (R209). -/
  compIn : List CompIn
  /-- Tags of multicasts of this core for which HEDGE_DENIED has been raised (R265). -/
  hedged : List Nat
  /-- The core has marked its arrival at the step barrier (R349). -/
  arrived : Bool
  /-- Enclosure-wide thread number of the core in plough order, if the placement gave it one (R269). -/
  thread : Option Nat
  /-- Parity failures of this router since the start (R478). -/
  parity : Nat
  /-- Fencing asked for, its REASON, waiting for the step boundary (R481), and the one under way (R482). -/
  fenceReq : Option Nat
  fencing : Option Nat
  deriving DecidableEq, Repr

/-! ### Crofts, furrow segments, references (chapters 06, 09) -/

/-- A stall of a croft (R231): the stamp that was missed, side, furrow queue or mesh. -/
structure Stall where
  stamp : Nat
  side : Nat
  furrow : Bool
  deriving DecidableEq, Repr

/-- A croft: its estimate of almanac time, its cycles and its stall. -/
structure CroftX where
  /-- The estimate in units: tick and remainder (R228). -/
  est : Nat
  /-- Remaining slew in units (R229), and what a switch of the reference has still to add (R221). -/
  slew : Int
  drift : Int
  /-- The croft clock runs. -/
  clock : Bool
  /-- Cycles counted, in twentieths, and those of them in stalls (R233). -/
  cyc20 : Nat
  lag20 : Nat
  stall : Option Stall
  /-- The tick of its last check for entries (R231). -/
  relAt : Option Nat
  /-- Slack values in force, laid out as HL_SLACK (R232). -/
  slack : Nat
  deriving DecidableEq, Repr

/-- A queued hold of a segment (R159): tick and cycle of the verdict, croft, tile count. -/
structure SegHold where
  tick : Nat
  croft : Nat
  cyc : Nat
  len : Nat
  deriving DecidableEq, Repr

/-- A stall that the wave of a lag brings to a croft (R161): its ticks, and the tick in which its entry beats first come late. -/
structure LagStop where
  croft : Nat
  ticks : Nat
  at_ : Nat
  deriving DecidableEq, Repr

/-- A furrow segment beside its registers (R142-R160). -/
structure SegX where
  /-- START or STOP written: the first tick whose bell it acts at (R147). -/
  startReq : Option Nat
  stopReq : Option Nat
  ring : List Payload
  /-- By croft, twentieths of cycles run and stalled at START (R149, R161). -/
  base : List (Nat × Nat × Nat)
  /-- Cycles of the holds that have ended. -/
  frozen : Nat
  /-- Holds waiting, the one in force, and by croft the twentieths of cycles run at its start (R159). -/
  holds : List SegHold
  held : Option SegHold
  heldBase : List (Nat × Nat)
  /-- Crofts in which the hold in force has ended. -/
  heldDone : List Nat
  /-- The waves of lags (R161): the stalls still to come. -/
  wave : List LagStop
  /-- By croft, the cycles of the run that has ended; none while the segment runs (R149). -/
  ended : Option (List (Nat × Nat))
  deriving DecidableEq, Repr

/-- A change of the reference in progress (R221, R222): none, a switch begun at tick d, a loss begun at tick d. -/
inductive RefPhase where
  | idle
  | switching (d : Nat) (selected : Bool)
  | lost (d : Nat)
  deriving DecidableEq, Repr

/-! ### The slow tier and the update (chapters 12, 13) -/

/-- A part of a slow-tier tensor (R298): first byte of the tensor, length, module physical address. -/
structure Part where
  off : Nat
  len : Nat
  mpa : Nat
  deriving DecidableEq, Repr

/-- A request at a landing port and the tick boundary its header reached (R27, R293). -/
structure SlowReq where
  pkt : Packet
  arr : Nat
  deriving DecidableEq, Repr

/-- An accepted request until its answer leaves (R294, R295). -/
structure Track where
  pkt : Packet
  /-- Acceptance tick. -/
  acc : Nat
  status : Nat
  /-- Data of a read answer. -/
  data : List Byte
  /-- Slots it cost on each channel; empty when it took no tracker entry. -/
  costs : List (Nat × Nat)
  /-- Corrected symbols, and the blocks that could not be corrected. -/
  corr : Nat
  bad : List Nat
  deriving DecidableEq, Repr

/-- A DRAM access of the tillers (R295, R312): of at most one unit of 256 B. -/
structure TillAcc where
  encl : Nat
  write : Bool
  /-- Local offset and bytes of the access; what a write carries. -/
  at_ : Nat
  len : Nat
  data : List Byte
  /-- The work it belongs to, by its number. -/
  job : Nat
  costs : List (Nat × Nat)
  /-- Acceptance tick. -/
  acc : Option Nat
  deriving DecidableEq, Repr
/-- Ticks from the acceptance of an access to its answer (R294). -/
def TillAcc.count (k : TillAcc) : Nat := if k.write then 96 else 112

/-- A hyperparameter set (R309); FP32 fields by their codes. -/
structure UpdSet where
  warm : Nat
  decay : Nat
  mult : Nat
  restart : Bool
  warmLen : Nat
  decayLen : Nat
  stepLen : Nat
  invT0 : Nat
  etaStart : BitVec 32
  etaPeak : BitVec 32
  etaMin : BitVec 32
  gamma : BitVec 32
  gain : BitVec 32
  b1 : BitVec 32
  omb1 : BitVec 32
  b2 : BitVec 32
  omb2 : BitVec 32
  lambda : BitVec 32
  gscale : BitVec 32
  deriving DecidableEq, Repr

/-- Consecutive elements of a compute copy in one core's share (R270, R316). -/
structure UpdRun where
  core : Nat
  off : Nat
  /-- First element, counted from the entry's first. -/
  first : Nat
  count : Nat
  deriving DecidableEq, Repr

/-- An update entry as the reeve placed it (R310): addresses of its first element. -/
structure UpdEntry where
  encl : Nat
  sheaf : Nat
  set : Nat
  /-- G holds INT32 (R307). -/
  exact : Bool
  w : Nat
  m : Nat
  g : Nat
  /-- Format of the compute copy, by its R106 code. -/
  cfmt : Nat
  count : Nat
  runs : List UpdRun
  /-- Applied in the open step. -/
  done : Bool
  deriving DecidableEq, Repr

/-- An entry that the tillers have taken up (R312): its number, the agreed scale of its sheaf, its reads not yet accepted, and what the others gave,
by local offset. -/
structure TillWork where
  id : Nat
  entry : UpdEntry
  scale : Int
  left : Nat
  got : List (Nat × List Byte)
  deriving DecidableEq, Repr

/-- A write-back credit entry of a landing port (R317). -/
structure WbCredit where
  encl : Nat
  core : Nat
  units : Nat
  epoch : Nat
  deriving DecidableEq, Repr

/-- A Tabko and its landing port beside their registers. -/
structure TabkoX where
  /-- The port's receive buffers (R519). -/
  reqBuf : List SlowReq
  rspBuf : List Packet
  /-- Admission queue (R293) and accepted requests, in order of acceptance. -/
  admq : List SlowReq
  tracks : List Track
  /-- The tillers' accesses, in order; the entries they have taken up and not yet applied, and the number of the next. -/
  tills : List TillAcc
  work : List TillWork
  workId : Nat
  /-- Packets waiting for the Attachment input. -/
  out : List Packet
  /-- Granules by index: generation, and marks since the last physical wipe (R297, R300). -/
  grans : List (Nat × Nat × Nat)
  /-- PENDING granules, and those touched first, in order (R299, R300). -/
  pendings : List Nat
  wipeOrder : List Nat
  /-- Blocks of PENDING granules written since their mark, by local block number. -/
  fresh : List Nat
  /-- Next block of the patrol. -/
  patrol : Nat
  /-- Period in which SYMBOL_CORRECTED was last raised (R288). -/
  corrPeriod : Option Nat
  /-- Retraining: the tick at which it began; asked for (R303, R304). -/
  retrain : Option Nat
  retrainDue : Bool
  /-- Season bases by enclosure, hyperparameter sets by enclosure × 8 + set (R308, R309). -/
  base : List (Nat × Nat)
  sets : List (Nat × UpdSet)
  entries : List UpdEntry
  /-- Landing notices not taken up: enclosure, sheaf, agreed scale (R338). -/
  landed : List (Nat × Nat × Int)
  wbCred : List WbCredit
  /-- Write-back packets unanswered, by enclosure (R318). -/
  wbOut : List (Nat × Nat)
  /-- Enclosures for which UPDATE_NONFINITE and UPDATE_WRITEBACK were raised this step. -/
  nonfin : List Nat
  wbRefused : List Nat
  /-- Compare scan of the yoke under way (R407): enclosure and step. -/
  cmp : Option (Nat × Nat)
  /-- Where the next compare scan of an enclosure goes on: number of granules past its first (R407). -/
  cmpPos : List (Nat × Nat)
  deriving DecidableEq, Repr

/-! ### Enclosures (chapters 11, 14, 17) -/

/-- A sheaf of an enclosure (R327), G as placed. -/
structure Sheaf where
  num : Nat
  exact : Bool
  floor : Nat
  tiles : Nat
  contrib : Nat
  g : List Part
  gFirst : Nat
  sInit : Int
  deriving DecidableEq, Repr

/-- A tally id (R262) with the format and σ in force (R90). -/
structure TallyDef where
  id : Nat
  fmt : Nat
  sigma : Int
  pin : Bool
  lossShift : Nat
  head : Nat
  headOvf : Nat
  deriving DecidableEq, Repr

/-- A home of a scratchpad tensor: core, offset, first byte of the tensor held there, bytes. -/
structure Home where
  core : Nat
  off : Nat
  first : Nat
  bytes : Nat
  deriving DecidableEq, Repr

/-- A tensor (R255) as placed (R270, R298). -/
structure Placed where
  tid : Nat
  tier : Nat
  fmt : Nat
  life : Nat
  flags : Nat
  bytes : Nat
  src : Nat
  group : Nat
  parts : List Part
  homes : List Home
  deriving DecidableEq, Repr

/-- An enclosure beside its registers (R266). -/
structure EnclX where
  /-- Transit crofts (R264). -/
  transit : List Nat
  /-- Tick m + 4 of a fault or kill (R275, R276). -/
  haltDue : Option Nat
  /-- Statistics sheaf and its floor, and HEAD (R326). -/
  statSheaf : Nat
  statFloor : Nat
  head : Nat
  /-- Inspection range (R258): its parts. -/
  inspect : List Part
  sheaves : List Sheaf
  tally : List TallyDef
  /-- Offset of the choice table and of the yoke range (R258). -/
  choiceOff : Nat
  yokeOff : Option Nat
  placed : List Placed
  /-- Thread groups: id and cores by thread (R269). -/
  groups : List (Nat × List Nat)
  /-- The card last taken up, SEQ last answered, and the seed lot (R267). -/
  card : List Word
  seqDone : Option Nat
  lot : List Byte
  /-- What the registers that the LOAD card changes read before it: a refusal restores them (R268). -/
  before : List Nat
  /-- The LOAD card being carried out or in force; it is not yet answered; SEQ of a KILL or RELEASE not yet answered. -/
  load : List Word
  loading : Bool
  kill : Option Nat
  /-- Fallow cores of the enclosure at load (R279), and the mate's map in the union (R272). -/
  fallow0 : List Nat
  /-- Fallow cores of the rectangle that the placement in force leaves out: the union of R272. -/
  union : List Nat
  mateMap : Option (List Byte)
  /-- Tick since which the load waits for the mate's map (R401). -/
  mateWait : Option Nat
  /-- STEP of the mate's latest FALLOW frame of a boundary (R484). -/
  mateStep : Option Nat
  /-- Bell tick of phase 11 (R268). -/
  startDue : Option Nat
  /-- The step is closed (R350); rows 4 and 6 are done; release tick (R238). -/
  closed : Bool
  folded : Bool
  checked : Bool
  release : Option Nat
  /-- Tick of the latest SBAR: none is due. Cores start at ENTRY at the release (R409). -/
  restart : Bool
  /-- GLN_CTL.EN as it stands since the last release (R353). -/
  glean : Bool
  /-- Sheaves complete whose landing notices wait (R348, R406). -/
  notices : List Nat
  /-- ACCEPT: the module whose finals are taken (R408). -/
  accept : Option Nat
  /-- Floors whose ring is to be committed before the release of an abandoned step, and TAKEOVER is awaited (R409). -/
  ringWait : List Nat
  soloWait : Bool
  /-- Taking no further part in the yoke (R408). -/
  detached : Bool
  /-- The step last landed at a yoked enclosure: sheaf, round and scale; tally id, CSAT and final counters (R408). -/
  finals : List (Nat × Nat × Int)
  statFin : List (Nat × Bool × List Int)
  deriving DecidableEq, Repr

/-! ### Threshing floors (chapter 14) -/

/-- A ring frame: the sheaf header of R336 and its payload as numbers. FP32 values are codes. -/
structure SheafFrame where
  job : Nat
  step : Nat
  sheaf : Nat
  tile : Nat
  kind : Nat
  pass : Nat
  miss : Bool
  nf : Bool
  csat : Bool
  glean : Bool
  round : Nat
  scale : Int
  gk : Nat
  missBits : Nat
  origin : Nat
  sender : Nat
  vals : List Int
  deriving DecidableEq, Repr

/-- A tile of a sheaf of the open step at a floor (R334-R347). -/
structure TileX where
  encl : Nat
  sheaf : Nat
  tile : Nat
  round : Nat
  /-- 0 FP32, 1 exact, 2 statistics. -/
  kind : Nat
  /-- Packets taken in, by PART. -/
  got : List Nat
  /-- Exact sums: of FP32 partials, or of integers and counters. -/
  sums : List FVal
  ints : List Int
  ovf : Nat
  nf : Bool
  csat : Bool
  /-- The module's contribution, once the fold is complete, with its overflow (R334). -/
  loc : Option (List Int)
  locOvf : Nat
  /-- Incoming reduce frame; the reduce pass has gone on (R337). -/
  inc : Option SheafFrame
  sent : Bool
  /-- Final copy (R338) and writes into G unanswered. -/
  fin : Option (List Int)
  acks : Nat
  /-- Sampled (R345); gleaner frame that waits, finished sum, compared, failed (R346-R348). -/
  glean : Bool
  gk : Nat
  gIn : Option SheafFrame
  gSum : Option (List Int)
  gDone : Bool
  gMiss : Bool
  deriving DecidableEq, Repr

/-- A floor beside its registers. -/
structure FloorX where
  tiles : List TileX
  /-- Frames of the step after the open one (R336), and of a round of the open step after the one in force (R346). -/
  held : List SheafFrame
  /-- Keys of the frames taken in the open step (R367). -/
  seen : List (List Nat)
  /-- Marks taken in: enclosure, core (R349). -/
  marks : List (Nat × Nat)
  /-- Sheaves complete: enclosure, sheaf (R338). -/
  done : List (Nat × Nat)
  /-- Events raised once per sheaf and step or round: code, enclosure, sheaf, round. -/
  raised : List (Nat × Nat × Nat × Nat)
  /-- Packets for the wafer, each with its row. -/
  out : List (Nat × Packet)
  /-- Tick at which NO_ROUTE was last raised (R363). -/
  noRoute : Option Nat
  /-- All fold entries are taken: since which tick, and the REQ credit held back: edge router, flits (R335). -/
  full : Option Nat
  owed : List (Nat × Nat)
  deriving DecidableEq, Repr

/-! ### Bellon ports (chapter 15) -/

/-- Units of a receive buffer that a frame still takes while it waits to leave through another port (R361): the port, the class and
lane, the units, and the tick at which that port entered LIGHT last, since credits begin anew there. -/
structure BufHeld where
  port : Nat
  k : Nat
  units : Nat
  lightAt : Nat
  deriving DecidableEq, Repr

/-- A frame (R358), its link header fields by name. -/
structure Frame where
  ty : Nat
  cls : Nat
  lane : Nat
  floor : Nat
  dst : Nat
  src : Nat
  hops : Nat
  body : List Byte
  buf : Option BufHeld := none
  /-- The floor whose table gives its port, and the lane it came in on (R363, R364). -/
  table : Nat := 0
  inLane : Nat := 0
  deriving DecidableEq, Repr

/-- A port beside its registers. Totals are by class × 2 + lane (R361, R364). -/
structure PortX where
  /-- Frames ready, oldest first. -/
  txq : List Frame
  /-- Link frames waiting: NAK, HELLO, BEACON, CREDIT due. -/
  nak : Bool
  hello : Bool
  beacon : Bool
  /-- Sent and not covered by an ACK: SEQ, times sent, frame. -/
  replay : List (Nat × Nat × Frame)
  /-- SEQs to send again. -/
  again : List Nat
  seqTx : Nat
  seqRx : Nat
  /-- Frames are discarded until the expected SEQ arrives (R360). -/
  discard : Bool
  /-- Units sent, and units the peer has returned. -/
  used : List Nat
  back : List Nat
  /-- Units this side has returned, and as last told to the peer. -/
  freed : List Nat
  told : List Nat
  /-- Tick since which freed units wait, and since which an ACK waits, and of the last CREDIT frame. -/
  owe : Option Nat
  ackOwe : Option Nat
  creditAt : Nat
  /-- Next class of the rotating order. -/
  rot : Nat
  /-- Ticks: entry into LIGHT, into LOCK, last HELLO, last BEACON, last ACK progress, last frame received. -/
  lightAt : Nat
  lockAt : Nat
  helloAt : Nat
  beaconAt : Nat
  ackAt : Nat
  rxAt : Nat
  /-- Uncorrectable codewords of the last bell interval (R371). -/
  badBell : Nat
  /-- The port has been UP since it entered LIGHT (R356). -/
  wasUp : Bool
  /-- The last frame put on the fibre, with SEQ and ACK, and its bytes (R358). -/
  sent : Option (Frame × Nat × Nat)
  wire : List Byte
  deriving DecidableEq, Repr

/-! ### The Yosal link (chapter 16) -/

/-- What a tag waits for (R385). -/
inductive YReq where
  /-- RD_SHARED of a watched line; its first content is the baseline (R388). -/
  | watch (line : Nat) (base : Bool)
  /-- Line operation of a drill's transfer: core, tag of the transfer, line (R386). -/
  | line (core tag line : Nat)
  /-- TRANS_REQ of a page for a drill's transfer: core, tag of the transfer, page. -/
  | trans (core tag page : Nat)
  /-- Fault card of a drill: core, drill, granule (R394). -/
  | card (core drill va : Nat)
  /-- Event-ring entry (R488). -/
  | event (ring : Nat)
  /-- Answer of fault card q (R395). -/
  | answer (q : Nat)
  /-- The module's words of a job or state card: line, the SEQ answered while word 5 is still to be written, and the events that
  follow the last write: ring, code, unit, DETAIL (R267, R392). -/
  | words (line : Nat) (rseq : Option Nat) (evs : List (Nat × Nat × Nat × Nat))
  /-- A line of a quote (R447). -/
  | quote
  /-- A line of a write-through's content (R440). -/
  | boot (line : Nat)
  deriving DecidableEq, Repr

/-- A message of the module (R382, R383). -/
structure YMsg where
  opc : Nat
  tag : Nat
  addr : Nat
  status : Nat
  space : Nat
  aux : Nat
  mask : Nat
  data : List Byte
  deriving DecidableEq, Repr

/-- A tag in use: tag, its message, what it waits for, tick of its request, timed out (R385). -/
structure YTag where
  tag : Nat
  msg : YMsg
  req : YReq
  sent : Nat
  dead : Bool
  deriving DecidableEq, Repr

/-- A translation (R390, R391): page number at 4 KiB of its start, size code, frame, writable. -/
structure Transl where
  space : Nat
  vpn : Nat
  size : Nat
  pfn : Nat
  w : Bool
  deriving DecidableEq, Repr

/-- A drill's transfer at the endpoint (R386): its 4 KiB pages translated so far with their frames, the page asked for, its line
operations sent, how many are unanswered, first nonzero status, lines read. -/
structure YOp where
  req : CompReq
  pages : List (Nat × Nat)
  asked : Option Nat
  sent : Bool
  left : Nat
  status : Nat
  got : List (Nat × List Byte)
  deriving DecidableEq, Repr

/-- An answered fault card waiting for those before it: card, core, drill, RESUME (R395). -/
structure CardAnswer where
  q : Nat
  core : Nat
  drill : Nat
  resume : Bool
  deriving DecidableEq, Repr

/-- A flit kept for replay (R380): its SEQ and its 14 slots. -/
structure YFlit where
  seq : Nat
  slots : List (BitVec 128)
  deriving DecidableEq, Repr

/-- A window request (R397): its tag, address, and the bytes read or the mask and the line written. -/
inductive WinReq where
  | rd (tag mpa bytes : Nat)
  | wr (tag mpa mask : Nat) (line : List Byte)
  deriving DecidableEq, Repr

/-- The endpoint beside its registers. -/
structure YosalX where
  /-- Window requests that wait for a wheel that stands, oldest first (R303, R397). -/
  winq : List WinReq
  tags : List YTag
  nextTag : Nat
  /-- Requests that wait for a tag, oldest first (R385). -/
  wait : List (YMsg × YReq)
  /-- Messages handed to the link that no flit carries yet, oldest first; slots left of the one whose sending goes on (R381). -/
  tx : List YMsg
  txRest : List (BitVec 128)
  /-- Most recently used first (R391). -/
  cache : List Transl
  ops : List YOp
  /-- TRANS_INVs whose DONE waits for line operations: tag, and the transfers (core, tag). -/
  invs : List (Nat × List (Nat × Nat))
  /-- Watched lines snooped while their read is unanswered (R388). -/
  again : List Nat
  /-- Fault cards not yet written: core, drill, granule, words (R394); number of the next card; cards written and not yet
  answered: number, core, drill. -/
  cards : List (Nat × Nat × Nat × List Word)
  cardSeq : Nat
  cardsOut : List (Nat × Nat × Nat)
  /-- Doorbell value taken last (R395), and the answers read. -/
  bell : Nat
  answers : List CardAnswer
  /-- Vectors: tick of the last signal; signals held by the gap (R396). -/
  sigAt : List (Nat × Nat)
  sigDue : List Nat
  /-- Flits (R380): SEQ expected next, discarding until it arrives, ACK last received, slots of credit returned by channel. -/
  seqRx : Nat
  discard : Bool
  ackRx : Nat
  credit : List Nat
  /-- A NAK is owed; slots still to come of the message being received, and its channel; credit owed by channel (R380, R381). -/
  nak : Bool
  rxLeft : Nat
  rxVc : Nat
  owed : List Nat
  /-- SEQ of the next new flit, the replay buffer, the place in it from which flits go out again, successive replays of its
  oldest flit, and the flit sent last (R378-R380). -/
  seqTx : Nat
  replay : List YFlit
  replayAt : Nat
  tries : Nat
  wire : List Byte
  /-- Tick of entry into the present state (R378). -/
  since : Nat
  /-- SEQ of the state card last answered (R392). -/
  stateSeq : Option Nat
  deriving DecidableEq, Repr

/-! ### The yoke (chapter 17) -/

/-- A FALLOW frame of the mate (R401, R402): JOB_ID, FPRINT, YOKE, the mate's yoke STATE, STEP and its map. -/
structure FallowMsg where
  job : Nat
  fprint : Nat
  yoke : Nat
  state : Nat
  step : Nat
  map : List Byte
  /-- Tick at which it came. -/
  at_ : Nat
  deriving DecidableEq, Repr

/-- The yoke beside its registers. -/
structure YokeX where
  /-- Ticks of the last frame taken and the last heartbeat sent (R404). -/
  rxAt : Nat
  hbAt : Nat
  /-- Enclosure being seeded or joining (R411, R412), and the yoke's state before the joining. -/
  seeding : Option Nat
  joinFrom : Nat
  /-- The replacement: seed image bytes taken so far, the payload of SEED_STATE, and the image and state are in force. -/
  image : List Byte
  stateIn : Option (List Byte)
  ready : Bool
  /-- ATTACH came before row 6 of the boundary (R350): the copy starts with it. -/
  copyDue : Bool
  /-- Values of the latest compare by enclosure: step, and by Tabko the first granule and the value; the mate's frame that waits (R407). -/
  mine : List (Nat × Nat × List (Option (Nat × Nat)))
  mate : List (Nat × Nat × Nat × List Nat)
  /-- FALLOW frames of the mate that came before this module's own load (R401). -/
  fallows : List FallowMsg
  deriving DecidableEq, Repr

/-! ### Power (chapter 18) -/

/-- A state card (R392): words 0-3. -/
structure StateCard where
  seq : Nat
  hstate : Nat
  hmask : Nat
  hop : Nat
  opmask : Nat
  mp : Nat
  fw : Nat
  fe : Nat
  stOff : Bool
  dmask : Nat
  deriving DecidableEq, Repr

/-- A change of a domain under way (R423, R424): domain, states, first and last tick. -/
structure DomChg where
  dom : Nat
  from_ : Nat
  to_ : Nat
  start : Nat
  due : Nat
  deriving DecidableEq, Repr

/-- Power beside its registers. -/
structure PowerX where
  /-- Content of line 16 read last (R418), words 0-3. -/
  words : List Word
  /-- The card being carried out, what trips have dropped left out (R419, R426); it is the POWER record's (R432). -/
  card : Option StateCard
  boot : Bool
  /-- Domain changes under way, and stops of R235: holding and bell. -/
  chg : List DomChg
  opAt : List (Nat × Nat)
  /-- Trips acted on: domain and the tick at which it is OFF (R425). -/
  trips : List (Nat × Nat)
  /-- First tick at which the next start of the phase in progress can fall (R419). -/
  phaseFrom : Nat
  /-- Tick from which MP reads OFF under ST_OFF (R419). -/
  offAt : Option Nat
  /-- Holdings warned of and the bell interval (R425). -/
  warned : List (Nat × Nat)
  /-- Crofts back from KEEP whose cores start at ENTRY at the next release (R421). -/
  fromKeep : List Nat
  /-- Voltages of the stud pairs in 0.1 V, and the pairs lost (R508, R513). -/
  studs : List Nat
  lostPairs : List Nat
  /-- Currents of the stud pairs in A, and the cause for which each domain tripped last (R417, R425). -/
  pairs : List Nat
  tripCause : List (Nat × Nat)
  deriving DecidableEq, Repr

/-! ### OTP, flash and start-up (chapters 00, 19, 20) -/

/-- The ordering codes (R2): KZJ-256-48-16, KZJ-224-40-8, KZJ-192-32-8. -/
inductive OrderCode where
  | kzj256 | kzj224 | kzj192
  deriving DecidableEq, Repr

/-- The OTP (R1-R3, R445, R455). Item ORDER is the first four fields. -/
structure Otp where
  order : OrderCode
  absentHoldings : List Nat
  absentTabkos : List Nat
  absentPorts : List Nat
  serial : Nat
  /-- Transition fuses blown, and the retire fuse. -/
  lcFuses : Nat
  retired : Bool
  /-- None once destroyed. -/
  idSeed : Option (List Byte)
  keyHash : List (List Byte)
  revoked : List Nat
  minSvn : Nat
  ckpt : Nat
  taint : Bool
  deriving DecidableEq, Repr

/-- The flash (R434). -/
structure FlashX where
  image : List Byte
  config : List Byte
  /-- Certificate chain region without its last 4 KiB, and those: the credential block (R461). -/
  chain : List Byte
  creds : List Byte
  /-- Wipe-table banks A and B, by core, and the one that holds the last checkpoint (R451). -/
  bankA : List (Nat × Nat)
  bankB : List (Nat × Nat)
  lastB : Bool
  /-- Programming of the region was cut off: its content is unspecified, and the next start does not accept it (R441). -/
  tornImage : Bool
  tornConfig : Bool
  /-- Journal records of 320 B, oldest first (R449). -/
  journal : List (List Byte)
  deriving DecidableEq, Repr

/-- A write-through past its check (R440): target and content. -/
structure LoadRun where
  config : Bool
  data : List Byte
  deriving DecidableEq, Repr

/-- A write-through being read (R440), as at its GO: target, bytes, lines read so far and how many are unanswered. -/
structure LoadRead where
  config : Bool
  len : Nat
  got : List (Nat × List Byte)
  left : Nat
  deriving DecidableEq, Repr

/-- A ledger record that waits for a write-through (R441): kind, life-cycle state and counter block at its event, detail. -/
structure LedgerWrite where
  kind : Nat
  lc : Nat
  block : List Byte
  detail : List Byte
  deriving DecidableEq, Repr

/-- Start-up, trust and the gauntlet beside their registers. -/
structure TrustX where
  /-- The running image, verified (R437), and the configuration accepted (R444). -/
  image : Option (List Byte)
  cfg : Option (List Byte)
  /-- The write-through being read, and past its check; the ledger records that wait for it (R440, R441). -/
  reading : Option LoadRead
  load : Option LoadRun
  waiting : List LedgerWrite
  /-- Lines of the quote not yet acknowledged (R447). -/
  quoteOut : Nat
  /-- LAST of R463, and the tick of the nonce in force with its scope and signer (R464). -/
  last : Nat
  nonce : Option (Nat × Nat × Bool)
  /-- Tick of the last hourly record and powered hours since the last checkpoint (R451). -/
  hourAt : Nat
  hours : Nat
  /-- Energy not yet a whole Wh, in Ws; hottest junction of the hour; it exceeded 80 degrees and has not fallen below 40;
  seconds each port's lasers have been lit in the running hour (R450). -/
  joules : Nat
  hourMax : Nat
  hot : Bool
  lit : List (Nat × Nat)
  /-- SMBus address (R508); the last SMBus transfer was acknowledged (R509). -/
  smbAddr : Nat
  smbAck : Bool
  /-- The TAP selects BYPASS (R511). -/
  tapBypass : Bool
  deriving DecidableEq, Repr

/-- The module's pins (R504, R430). -/
structure PinsX where
  enIn : Bool
  pgOut : Bool
  rstN : Bool
  stReady : Bool
  stHold : Bool
  /-- Domain ST was turned OFF by a card; only RST_N or a power cycle starts it again (R415). -/
  stOff : Bool
  deriving DecidableEq, Repr

/-! ### Self-test, spares and check-value units (chapters 20-22) -/

/-- A BIST on command under way (R466). -/
structure BistRun where
  kind : Nat
  crofts : List Nat
  tabkos : List Nat
  ports : List Nat
  deriving DecidableEq, Repr

/-- BIST, slices and spare rows beside their registers. -/
structure BistX where
  run : Option BistRun
  /-- Croft and bell of the slice under way, and the bell of the last start (R469). -/
  slice : Option (Nat × Nat)
  sliceAt : Option Nat
  /-- The last BIST on command since the start covered every present unit with KIND all ones and passed (R458). -/
  sealOk : Bool
  /-- Crofts that have passed KIND bits 0-3 since their cores were last marked (R472). -/
  passed : List Nat
  /-- Physical indices of fallow cores that carry no logical position (R20, R21, R486). -/
  marks : List Nat
  /-- Spare row change (R486): croft, row taken out, bell once begun. -/
  spare : Option (Nat × Nat × Option Nat)
  deriving DecidableEq, Repr

/-- A scan under way in a check-value unit (R499). -/
structure CvuX where
  next : Nat
  stop : Nat
  width : Nat
  poly : Nat
  refin : Bool
  refout : Bool
  xorout : Nat
  r : Nat
  deriving DecidableEq, Repr

/-! ### Events and outputs -/

/-- A raised event waiting to be written to a ring (R487). -/
structure Event where
  /-- Ring it goes to. -/
  dest : Nat
  code : Nat
  /-- Ring it was meant for. -/
  ring : Nat
  skind : Nat
  unit : Nat
  tick : Nat
  step : Nat
  detail : Nat
  deriving DecidableEq, Repr

/-- The state of the module. -/
structure State where
  /-- Registers: the value of each field written since reset, by `Fld.key`. -/
  fields : List (Nat × Nat)
  /-- Staged values (R13), by `Fld.key`. -/
  stagedF : List (Nat × Nat)
  /-- Scratchpads and slow tier, by module physical address (R33). -/
  mem : List Host.Cell
  /-- Latent errors of scratchpad code words, by the address of the word: 1 correctable, 2 uncorrectable (R122). -/
  errs : List (Nat × Nat)
  /-- Latent errors of slow-tier blocks, by block address: 1 correctable, 2 uncorrectable (R287). -/
  slowErrs : List (Nat × Nat)
  /-- Vector registers, by core × 32 + register (R100). -/
  vregs : List (Nat × VWord)
  /-- Bins, by (core × 2 + bin) × 256 + 16·row + column (R43). -/
  bins : List (Nat × BitVec 32)
  /-- Code stores, by core × 2048 + word (R93). -/
  code : List (Nat × Word)
  cores : List (Nat × CoreX)
  crofts : List (Nat × CroftX)
  segs : List (Nat × SegX)
  /-- Router inputs, by core × 32 + input × 4 + channel; inputs numbered as in `MPkt` (R173, R519). -/
  inq : List (Nat × List MPkt)
  /-- Core ejection buffers, by core × 4 + channel (R173). -/
  ejq : List (Nat × List Packet)
  /-- Headland queues, by sending core × 32 + side × 4 + channel; side 5 enters the floor beside an edge router, side 6 comes
  from it (R25, R173). -/
  hlq : List (Nat × List HlEntry)
  /-- Credits on their way back across crossings (R174). -/
  credits : List CreditRet
  /-- Companion transfers that have left their drills, oldest first (R211). -/
  compQ : List CompReq
  refPhase : RefPhase
  /-- Tick of the last loss of edges of each reference: 0 REFA, 1 REFB (R220). -/
  refLoss : List (Nat × Nat)
  tabkos : List (Nat × TabkoX)
  encls : List (Nat × EnclX)
  floors : List (Nat × FloorX)
  ports : List (Nat × PortX)
  yosal : YosalX
  yoke : YokeX
  power : PowerX
  /-- Tick of the last bell (R227). -/
  bellAt : Option Nat
  otp : Otp
  flash : FlashX
  trust : TrustX
  pins : PinsX
  bist : BistX
  /-- Scans by tabko × 4 + unit (R499). -/
  cvus : List (Nat × CvuX)
  /-- Retained gate epochs in domain ST, by core × 8 + gate (R134). -/
  epochs : List (Nat × Nat)
  /-- Events raised and not yet written to their rings, oldest first (R488). -/
  events : List Event
  /-- What the last register or SMBus read returned. -/
  readData : List Byte
  /-- The model's own: position in the sequence of free values. -/
  freeIx : Nat
  /-- Commands waiting, first in first out. -/
  pending : List Instr
  deriving DecidableEq, Repr

/-- A core after reset. -/
def CoreX.init : CoreX :=
  { hold := .none, runOff := false, wCorr := false, retry := false, issInt0 := false, issInt1 := false, arrSeq := 0, arrQ := [], mmaPend := none,
    feed := none, flight := [], stepEnd := 0, ramp := none, rdPend := none, rdRun := none, injA := none, injApend := none, injB := none, injBpend := none, cap := none,
    capPend := none, catchUp := none, flush := none, binds := [], scrub := 0, scrubBack := none, reclass := [], copy := none, copyOut := 0,
    staged := [], emit := [], retention := [], ctl := [],
    drills := List.replicate 4 ⟨[], none, none, [], [], false, false⟩, mcSlots := [], comb := [], rspOut := [], gwLand := ⟨0, 0, 0, false⟩, mcLand := ⟨0, 0, 0, false⟩, copyQ := [], compIn := [], hedged := [],
    arrived := false, thread := none, parity := 0, fenceReq := none, fencing := none }

/-- A croft after reset: clock stopped. -/
def CroftX.init : CroftX := { est := 0, slew := 0, drift := 0, clock := false, cyc20 := 0, lag20 := 0, stall := none, relAt := none, slack := 0x55 }

/-- A segment after reset. -/
def SegX.init : SegX :=
  { startReq := none, stopReq := none, ring := [], base := [], frozen := 0, holds := [], held := none, heldBase := [], heldDone := [], wave := [], ended := some [] }

/-- An enclosure that is FREE. -/
def EnclX.init : EnclX :=
  { transit := [], haltDue := none, statSheaf := 0xFFFF, statFloor := 0, head := 0, inspect := [], sheaves := [], tally := []
    choiceOff := 0, yokeOff := none, placed := [], groups := [], card := [], seqDone := none, lot := [], before := [], load := [], loading := false, kill := none, fallow0 := [], union := []
    mateMap := none, mateWait := none, mateStep := none, startDue := none, closed := false, folded := false, checked := false, release := none
    restart := false, glean := false, notices := [], accept := none, ringWait := [], soloWait := false, detached := false, finals := [], statFin := [] }

/-- A floor after reset. -/
def FloorX.init : FloorX :=
  { tiles := [], held := [], seen := [], marks := [], done := [], raised := [], out := [], noRoute := none, full := none, owed := [] }

/-- A port after reset. -/
def PortX.init : PortX :=
  { txq := [], nak := false, hello := false, beacon := false, replay := [], again := [], seqTx := 0, seqRx := 0, discard := false
    used := List.replicate 8 0, back := List.replicate 8 0, freed := List.replicate 8 0, told := List.replicate 8 0, owe := none, ackOwe := none
    creditAt := 0, rot := 1, lightAt := 0, lockAt := 0, helloAt := 0, beaconAt := 0, ackAt := 0, rxAt := 0,
    badBell := 0, wasUp := false, sent := none, wire := [] }

/-- The endpoint after reset. -/
def YosalX.init : YosalX :=
  { winq := [], tags := [], nextTag := 0, wait := [], tx := [], txRest := [], cache := [], ops := [], invs := [], again := [], cards := [], cardSeq := 0
    cardsOut := [], bell := 0, answers := [], sigAt := [], sigDue := [], seqRx := 0, discard := false, ackRx := 0
    credit := List.replicate 5 0, nak := false, rxLeft := 0, rxVc := 0, owed := List.replicate 5 0, seqTx := 0, replay := []
    replayAt := 0, tries := 0, wire := [], since := 0, stateSeq := none }

/-- The yoke after reset. -/
def YokeX.init : YokeX := { rxAt := 0, hbAt := 0, seeding := none, joinFrom := 0, image := [], stateIn := none, ready := false, copyDue := false, mine := [], mate := [], fallows := [] }

/-- A Tabko after reset. -/
def TabkoX.init : TabkoX :=
  { reqBuf := [], rspBuf := [], admq := [], tracks := [], tills := [], work := [], workId := 0, out := [], grans := [], pendings := [], wipeOrder := [], fresh := [],
    patrol := 0, corrPeriod := none, retrain := none, retrainDue := false, base := [], sets := [], entries := [], landed := [],
    wbCred := [], wbOut := [], nonfin := [], wbRefused := [], cmp := none, cmpPos := [] }

/-- Power after reset. -/
def PowerX.init : PowerX :=
  { words := [], card := none, boot := false, chg := [], opAt := [], trips := [], phaseFrom := 0, offAt := none, warned := [], fromKeep := []
    studs := [0, 0, 0, 0], lostPairs := [], pairs := [], tripCause := [] }

/-- A KZJ-256-48-16 with nothing fused absent, in MANUFACTURE, its items zero: DESIGN CHOICE, log entry 5. -/
def Otp.init : Otp :=
  { order := .kzj256, absentHoldings := [], absentTabkos := [], absentPorts := [], serial := 0, lcFuses := 0, retired := false
    idSeed := some (List.replicate 32 0), keyHash := [], revoked := [], minSvn := 0, ckpt := 0, taint := false }

/-- An empty flash: DESIGN CHOICE, log entry 5. -/
def FlashX.init : FlashX :=
  { image := [], config := [], chain := [], creds := [], bankA := [], bankB := [], lastB := false, tornImage := false, tornConfig := false, journal := [] }

/-- Start-up and trust after reset. -/
def TrustX.init : TrustX :=
  { image := none, cfg := none, reading := none, load := none, waiting := [], quoteOut := 0, last := 0, nonce := none, hourAt := 0, hours := 0, joules := 0
    hourMax := 0, hot := false, lit := [], smbAddr := 0x5C, smbAck := false, tapBypass := false }

/-- The pins while RST_N is held low after the steading supply has come up (R430, R431). -/
def PinsX.init : PinsX := { enIn := true, pgOut := true, rstN := false, stReady := false, stHold := false, stOff := false }

/-- Self-test after reset. -/
def BistX.init : BistX := { run := none, slice := none, sliceAt := none, sealOk := false, passed := [], marks := [], spare := none }

/-- The module right after the reset of domain ST: every register at the value its table gives, every list empty. -/
def State.reset : State :=
  { fields := [], stagedF := [], mem := [], errs := [], slowErrs := [], vregs := [], bins := [], code := [], cores := [],
    crofts := [], segs := [], inq := [], ejq := [], hlq := [], credits := [], compQ := [], refPhase := .idle, refLoss := [], tabkos := [], encls := [], floors := [], ports := [], yosal := YosalX.init, yoke := YokeX.init, power := PowerX.init, bellAt := none, otp := Otp.init
    flash := FlashX.init, trust := TrustX.init, pins := PinsX.init, bist := BistX.init, cvus := [], epochs := [],
    events := [], readData := [], freeIx := 0, pending := [] }

end Sys2Proof.Machine
end

