-- ==== Sys2Proof/Machine/Ops.lean ====
section
/-! DEFINITION. The named operations over registers, units, memory, events, halts and faults that every family uses. -/

namespace Sys2Proof.Machine

/-! ### Registers -/

/-- The value of a field of register `j` of the group in unit `i`. -/
def State.rd (s : State) (f : Fld) (i : Nat := 0) (j : Nat := 0) : Nat := Store.getD s.fields (f.key i j) f.reset

/-- The state with a field set (to the value's low bits). -/
def State.wr (s : State) (f : Fld) (v : Nat) (i : Nat := 0) (j : Nat := 0) : State :=
  { s with fields := Store.put s.fields (f.key i j) (v % 2 ^ f.width) }

/-- A counter up by `n`, stopping at all ones. -/
def State.incSat (s : State) (f : Fld) (n : Nat) (i : Nat := 0) (j : Nat := 0) : State :=
  s.wr f (min (s.rd f i j + n) (2 ^ f.width - 1)) i j

/-- A counter up by `n`, wrapping. -/
def State.incWrap (s : State) (f : Fld) (n : Nat) (i : Nat := 0) (j : Nat := 0) : State :=
  s.wr f (s.rd f i j + n) i j

/-- The value a COMMIT takes for a staged field: the staged one, or the one in force (R13). -/
def State.stg (s : State) (f : Fld) (i : Nat := 0) (j : Nat := 0) : Nat :=
  (Store.get s.stagedF (f.key i j)).getD (s.rd f i j)

/-- Whether a value is staged for the field. -/
def State.isStaged (s : State) (f : Fld) (i : Nat := 0) (j : Nat := 0) : Bool :=
  (Store.get s.stagedF (f.key i j)).isSome

/-- Drop the staged value of a field. -/
def State.unstage (s : State) (f : Fld) (i : Nat := 0) (j : Nat := 0) : State :=
  { s with stagedF := Store.erase s.stagedF (f.key i j) }

/-- The staged value takes effect. -/
def State.applyStg (s : State) (f : Fld) (i : Nat := 0) (j : Nat := 0) : State :=
  (s.wr f (s.stg f i j) i j).unstage f i j

/-- Every staged field of a list, in unit `i`, register `j`, takes effect. -/
def State.applyAll (s : State) (fs : List Fld) (i : Nat := 0) (j : Nat := 0) : State :=
  fs.foldl (fun t f => if t.isStaged f i j then t.applyStg f i j else t) s

/-- Every staged value of a list of fields is discarded. -/
def State.dropAll (s : State) (fs : List Fld) (i : Nat := 0) (j : Nat := 0) : State :=
  fs.foldl (fun t f => t.unstage f i j) s

/-- Whether any field of a list is staged. -/
def State.anyStaged (s : State) (fs : List Fld) (i : Nat := 0) (j : Nat := 0) : Bool :=
  fs.any (fun f => s.isStaged f i j)

/-- The 64 bits a register shows, with fields that read as zero (WO) left out (R12). -/
def State.regWord (s : State) (fs : List Fld) (i j : Nat) : Nat :=
  fs.foldl (fun a f => if f.acc = .wo then a else a + s.rd f i j * 2 ^ f.lo) 0

/-! ### Units -/

def State.core (s : State) (c : Nat) : CoreX := Store.getD s.cores c CoreX.init
def State.setCore (s : State) (c : Nat) (x : CoreX) : State := { s with cores := Store.put s.cores c x }
/-- A change to one core's record. -/
def State.modCore (s : State) (c : Nat) (f : CoreX → CoreX) : State := s.setCore c (f (s.core c))

def State.croft (s : State) (c : Nat) : CroftX := Store.getD s.crofts c CroftX.init
def State.setCroft (s : State) (c : Nat) (x : CroftX) : State := { s with crofts := Store.put s.crofts c x }
def State.modCroft (s : State) (c : Nat) (f : CroftX → CroftX) : State := s.setCroft c (f (s.croft c))

def State.seg (s : State) (g : Nat) : SegX := Store.getD s.segs g SegX.init
def State.setSeg (s : State) (g : Nat) (x : SegX) : State := { s with segs := Store.put s.segs g x }
def State.modSeg (s : State) (g : Nat) (f : SegX → SegX) : State := s.setSeg g (f (s.seg g))

def State.encl (s : State) (n : Nat) : EnclX := Store.getD s.encls n EnclX.init
def State.setEncl (s : State) (n : Nat) (x : EnclX) : State := { s with encls := Store.put s.encls n x }
def State.modEncl (s : State) (n : Nat) (f : EnclX → EnclX) : State := s.setEncl n (f (s.encl n))

/-! ### Positions (R18-R20) -/

def rowOf (core : Nat) : Nat := core / 320
def colOf (core : Nat) : Nat := core % 320
def coreAt (row col : Nat) : Nat := row * 320 + col
/-- Croft index of a core (R18). -/
def croftOf (core : Nat) : Nat := rowOf core / 16 * 16 + colOf core / 20
/-- Holding index of a croft (R18). -/
def holdingOf (croft : Nat) : Nat := croft / 16 / 4 * 4 + croft % 16 / 4
/-- The cores of a croft in ascending index order. -/
def coresOfCroft (c : Nat) : List Nat :=
  (List.range 320).map (fun k => coreAt (c / 16 * 16 + k / 20) (c % 16 * 20 + k % 20))
/-- The crofts of a holding in ascending order. -/
def croftsOfHolding (h : Nat) : List Nat :=
  (List.range 16).map (fun k => (h / 4 * 4 + k / 4) * 16 + (h % 4 * 4 + k % 4))
/-- The crofts of a rectangle with its north-west croft at `origin`. -/
def rectCrofts (origin crows ccols : Nat) : List Nat :=
  (List.range (crows * ccols)).map (fun k => origin + k / ccols * 16 + k % ccols)
/-- R20: the physical index of a logical position. -/
def physicalIndex (row col : Nat) (spareUsed : Bool) (badRow : Nat) : Nat :=
  let r := row % 16
  let p := if spareUsed && decide (badRow ≤ r) then r + 1 else r
  (row / 16 * 17 + p) * 320 + col
/-- The croft of the landing port of Tabko `t` (R23). -/
def portCroft (t : Nat) : Nat := t / 3 * 16 + (5 * (t % 3) + 2 + t / 3 % 2)
/-- The core at whose router the landing port attaches (R23). -/
def portCore (t : Nat) : Nat := coreAt (portCroft t / 16 * 16 + 7) (portCroft t % 16 * 20 + 10)

/-- The populations of an ordering code (R2): holdings present, Tabkos present, ports fitted. -/
def OrderCode.holdings (o : OrderCode) : Nat := match o with
  | .kzj256 => 16
  | .kzj224 => 14
  | .kzj192 => 12
def OrderCode.tabkos (o : OrderCode) : Nat := match o with
  | .kzj256 => 48
  | .kzj224 => 40
  | .kzj192 => 32
def OrderCode.ports (o : OrderCode) : List Nat := match o with
  | .kzj256 => List.range 16
  | .kzj224 | .kzj192 => [0, 1, 2, 3, 8, 9, 10, 11]
/-- R6: the last slow-tier address of an ordering code: 60 GiB for each of its Tabkos. -/
def OrderCode.lastSlow (o : OrderCode) : Nat := o.tabkos * (60 * 2 ^ 30) - 1
/-- R1-R3: a fused population that its ordering code allows. The lists name units once; every Tabko whose landing port lies in an absent
holding is absent. -/
def Otp.legal (o : Otp) : Prop :=
  o.absentHoldings.Nodup ∧ (∀ h ∈ o.absentHoldings, h < 16) ∧ o.absentHoldings.length + o.order.holdings = 16 ∧
  o.absentTabkos.Nodup ∧ (∀ t ∈ o.absentTabkos, t < 48) ∧ o.absentTabkos.length + o.order.tabkos = 48 ∧
  (∀ t < 48, holdingOf (portCroft t) ∈ o.absentHoldings → t ∈ o.absentTabkos) ∧ (∀ p < 16, p ∈ o.absentPorts ↔ p ∉ o.order.ports)

/-- The module's units are present unless fused absent (R3, R4). -/
def State.holdPresent (s : State) (h : Nat) : Bool := decide (h < 16) && !s.otp.absentHoldings.contains h
def State.croftPresent (s : State) (c : Nat) : Bool := decide (c < 256) && s.holdPresent (holdingOf c)
def State.corePresent (s : State) (i : Nat) : Bool := decide (i < 81920) && s.croftPresent (croftOf i)
/-- A Tabko is present while it is not fused absent; its landing port then lies in a present holding (R3). -/
def State.tabkoPresent (s : State) (t : Nat) : Bool :=
  decide (t < 48) && !s.otp.absentTabkos.contains t && s.holdPresent (holdingOf (portCroft t))
def State.portPresent (s : State) (p : Nat) : Bool := decide (p < 16) && !s.otp.absentPorts.contains p

/-- The core is fallow (R31, R193). -/
def State.fallow (s : State) (i : Nat) : Bool := s.rd Reg.RTR_STAT.FENCED i = 1
/-- The router is replaced by its stile (R191). -/
def State.stiled (s : State) (i : Nat) : Bool := s.rd Reg.RTR_STAT.STILE i = 1

/-! ### Time (R226, R228) -/

/-- The almanac tick (R226). -/
def State.now (s : State) : Nat := s.rd Reg.ALM_TICK.TICK
/-- Units per tick at an operating point (R228): 20 × the cycles of a tick. -/
def unitsPerTick (op : Nat) : Nat := if op = 0 then 160 else if op = 1 then 144 else if op = 2 then 128 else 96
/-- The operating point of a croft. -/
def State.opOf (s : State) (c : Nat) : Nat := s.rd Reg.HOLD_OP.CUR (j := holdingOf c)
/-- The holding is ON and its clocks run (R24). -/
def State.holdRuns (s : State) (h : Nat) : Bool :=
  s.holdPresent h && decide (s.rd Reg.PWR_DOM.CUR (j := h) = 0) && decide (s.rd Reg.HOLD_OP.CUR (j := h) ≠ 4)
/-- A croft's estimate in units (R228). While its clock stands it keeps none (R228, R235), and the steading's tick stands for it
(DESIGN CHOICE, log entry 53). -/
def State.estUnits (s : State) (c : Nat) : Nat := if (s.croft c).clock then (s.croft c).est else s.now * unitsPerTick (s.opOf c)
/-- A croft's estimated tick (R228). -/
def State.estTick (s : State) (c : Nat) : Nat := s.estUnits c / unitsPerTick (s.opOf c)

/-- A croft whose clock begins to run, its estimate loaded (R235). -/
def CroftX.started (x : CroftX) (est : Nat) : CroftX := { x with clock := true, est := est, slew := 0, drift := 0, stall := none, relAt := none }
/-- A croft whose clock stops. -/
def CroftX.gated (x : CroftX) : CroftX := { x with clock := false, slew := 0, drift := 0 }
/-- Twentieths of cycles a croft has run, stalls left out (R233). -/
def CroftX.run20 (x : CroftX) : Nat := x.cyc20 - x.lag20
/-- Cycles of the croft counted to the start of the tick, stalls with them (R230, R233). -/
def State.cycles (s : State) (c : Nat) : Nat := ceilDiv (s.croft c).cyc20 20
/-- The croft's cycle `sub` cycles into the tick, stalls left out. -/
def State.cycle (s : State) (c sub : Nat) : Nat := ceilDiv (s.croft c).run20 20 + sub
/-- Ticks for which the stall in force has lasted (R231). -/
def State.stallTicks (s : State) (c : Nat) : Nat := match (s.croft c).stall with
  | some y => s.estTick c - y.stamp
  | none => 0
/-- The first cycle of the croft's next tick. -/
def State.cycleEnd (s : State) (c : Nat) : Nat := ceilDiv ((s.croft c).run20 + unitsPerTick (s.opOf c)) 20

/-- Domain ST has its supply and is out of reset. -/
def State.stRuns (s : State) : Bool := s.pins.rstN && s.pins.pgOut

/-! ### Enclosures (R263) -/

/-- The enclosure holds its crofts: SOWING, RUNNING, RESOWING or ENDING (R266, R277). -/
def State.enclHolds (s : State) (n : Nat) : Bool :=
  let st := s.rd Reg.ENCL_STATE.STATE (j := n)
  decide (1 ≤ st) && decide (st ≤ 4)
/-- The croft lies in the enclosure's rectangle. -/
def State.inRect (s : State) (n c : Nat) : Bool :=
  let o := s.rd Reg.ENCL_SHAPE.ORIGIN (j := n)
  decide (o / 16 ≤ c / 16) && decide (c / 16 < o / 16 + s.rd Reg.ENCL_SHAPE.CROWS (j := n)) &&
  decide (o % 16 ≤ c % 16) && decide (c % 16 < o % 16 + s.rd Reg.ENCL_SHAPE.CCOLS (j := n))
/-- The enclosure a croft belongs to. -/
def State.enclOf (s : State) (c : Nat) : Option Nat :=
  (List.range 16).find? (fun n => s.enclHolds n && s.inRect n c)
/-- The enclosure a croft is a transit croft of (R264). -/
def State.transitOf (s : State) (c : Nat) : Option Nat :=
  (List.range 16).find? (fun n => (s.encl n).transit.contains c)
/-- The enclosure of a core. -/
def State.enclOfCore (s : State) (i : Nat) : Option Nat := s.enclOf (croftOf i)
/-- The crofts of an enclosure. -/
def State.enclCrofts (s : State) (n : Nat) : List Nat :=
  rectCrofts (s.rd Reg.ENCL_SHAPE.ORIGIN (j := n)) (s.rd Reg.ENCL_SHAPE.CROWS (j := n)) (s.rd Reg.ENCL_SHAPE.CCOLS (j := n))
/-- The cores of an enclosure. -/
def State.enclCores (s : State) (n : Nat) : List Nat := (s.enclCrofts n).flatMap coresOfCroft

/-! ### Events (R16, R487-R489) -/

/-- Ring number of the steading. -/
def stRing : Nat := 16
/-- Source kinds of R487. -/
def skCore : Nat := 0
def skCroft : Nat := 1
def skTabko : Nat := 2
def skPort : Nat := 3
def skFloor : Nat := 4
def skSteading : Nat := 5
def skDomain : Nat := 6
def skEncl : Nat := 7

/-- Raise an event on a ring (R487, R489): to the steading ring when the ring is not in use; lost, and counted, when the
steading ring is not in use or 1,024 entries wait. -/
def State.raiseAt (s : State) (ring code skind unit tick step detail : Nat) : State :=
  let dest := if ring < 16 ∧ s.rd Reg.EVR_CTL.EN (j := ring) = 0 then stRing else ring
  if s.rd Reg.EVR_CTL.EN (j := dest) = 0 ∨ 1024 ≤ (s.events.filter (fun e => e.dest = dest)).length then
    s.incSat Reg.EVR_PI.LOST 1 (j := dest)
  else { s with events := s.events ++ [⟨dest, code, ring, skind, unit, tick, step, detail % 2 ^ 64⟩] }

/-- The step an event of an enclosure carries (R487). -/
def State.stepOf (s : State) (n : Option Nat) : Nat :=
  match n with
  | some e => s.rd Reg.ENCL_STATE.STEP (j := e)
  | none => 0

/-- An event of a core, on the ring of its enclosure, or of the steading (R487). -/
def State.raiseCore (s : State) (core code detail : Nat) : State :=
  let n := s.enclOfCore core
  s.raiseAt (n.getD stRing) code skCore core (s.estTick (croftOf core)) (s.stepOf n) detail
/-- An event of the steading, on its own ring. -/
def State.raiseSt (s : State) (code detail : Nat) : State := s.raiseAt stRing code skSteading 0 s.now 0 detail
/-- An event of a unit on the steading's ring. -/
def State.raiseUnit (s : State) (code skind unit detail : Nat) : State := s.raiseAt stRing code skind unit s.now 0 detail
/-- An event of a croft on the steading's ring, with the croft's tick. -/
def State.raiseCroft (s : State) (code croft detail : Nat) : State :=
  s.raiseAt stRing code skCroft croft (s.estTick croft) 0 detail
/-- An event of a unit on an enclosure's ring. -/
def State.raiseEncl (s : State) (n code skind unit detail : Nat) : State :=
  s.raiseAt n code skind unit s.now (s.stepOf (some n)) detail

/-! ### Memory (R33) -/

/-- Module physical address of a scratchpad byte (R33); offsets wrap at 2^18 (R98). -/
def spAddr (core off : Nat) : Nat := 0x100000000000 + rowOf core * 2 ^ 27 + colOf core * 2 ^ 18 + off % 2 ^ 18
/-- The byte at an address. -/
def State.byte (s : State) (a : Nat) : Byte := Memory.read s.mem a
/-- Bytes of a scratchpad, offsets wrapping. -/
def State.spBytes (s : State) (core off n : Nat) : List Byte := (List.range n).map (fun k => s.byte (spAddr core (off + k)))
/-- Write bytes into a scratchpad, offsets wrapping. -/
def State.spPut (s : State) (core : Nat) : Nat → List Byte → State
  | _, [] => s
  | off, b :: t => State.spPut { s with mem := Memory.write s.mem (spAddr core off) b } core (off + 1) t

/-- The segment of a scratchpad offset is W-class (R122). -/
def State.wClass (s : State) (core off : Nat) : Bool := bits (s.rd Reg.SP_CLASS.CLASS core) (off % 2 ^ 18 / 0x4000) 1 = 1
/-- Offset of the code word that holds an offset: 128 bits in a W segment, 64 in an A segment (R122). -/
def State.codeWord (s : State) (core off : Nat) : Nat :=
  if s.wClass core off then off % 2 ^ 18 / 16 * 16 else off % 2 ^ 18 / 8 * 8
/-- Length of that code word. -/
def State.codeLen (s : State) (core off : Nat) : Nat := if s.wClass core off then 16 else 8
/-- Latent error of a code word: 0 none, 1 correctable, 2 uncorrectable. -/
def State.wordErr (s : State) (core cw : Nat) : Nat := Store.getD s.errs (spAddr core cw) 0
/-- Set or clear a latent error. -/
def State.setErr (s : State) (core cw e : Nat) : State :=
  { s with errs := if e = 0 then Store.erase s.errs (spAddr core cw) else Store.put s.errs (spAddr core cw) e }

/-! ### Drills, halts and enclosure faults (R116, R214, R275) -/

/-- The drill is draining the answers of an aborted descriptor (R214). -/
def DrillX.draining (x : DrillX) : Bool := x.active.isNone && !x.orphans.isEmpty
/-- The pending place is taken, by a DARM from its issue on (R205). -/
def DrillX.pendTaken (x : DrillX) : Bool :=
  decide ((if x.draining then 1 else 2) ≤ x.claims.length + b2n x.active.isSome + b2n x.pending.isSome)
/-- The status bits of a drill follow what it holds (R205, R212, R214). -/
def State.drlSync (s : State) (core d : Nat) : State :=
  let x := ((s.core core).drills)[d]?.getD ⟨[], none, none, [], [], false, false⟩
  let st := if x.paused then 2 else if x.active.isSome || !x.claims.isEmpty || !x.orphans.isEmpty then 1 else 0
  ((s.wr Reg.DRL_STAT.STATE st core d).wr Reg.DRL_STAT.PEND (b2n x.pendTaken) core d).wr
    Reg.DRL_STAT.INFL (x.out.length + x.orphans.length) core d

/-- One drill of a core. -/
def State.drill (s : State) (core d : Nat) : DrillX :=
  ((s.core core).drills)[d]?.getD ⟨[], none, none, [], [], false, false⟩
/-- Replace one drill of a core, its status bits following. -/
def State.setDrill (s : State) (core d : Nat) (x : DrillX) : State :=
  (s.modCore core (fun c => { c with drills := c.drills.set d x })).drlSync core d

/-- R214: one drill aborts; its packets that are still staged are withdrawn (DESIGN CHOICE, log entry 13), the answers of
the others are still to come. -/
def State.abortDrill (s : State) (core d : Nat) : State :=
  let x := s.drill core d
  let mine (p : Packet) : Bool := x.out.any (fun o => decide (o.tag = p.tag))
  let staged := (s.core core).staged
  let gone := staged.filter mine
  let s1 := if gone.isEmpty then s else s.modCore core (fun c => { c with staged := staged.filter (fun p => !mine p) })
  let left := x.out.filter (fun o => o.done.isNone && !gone.any (fun p => decide (p.tag = o.tag)))
  let y : DrillX :=
    { x with
      claims := [], active := none, pending := none, out := []
      orphans := x.orphans ++ left.map Xfer.tag
      paused := false, resume := false }
  ((s1.setDrill core d y).wr Reg.DRL_STAT.ABORTED 1 core d).wr Reg.DRL_STAT.CREDIT_WAIT 0 core d

/-- R214: every drill of a core aborts. -/
def State.abortDrills (s : State) (core : Nat) : State := [0, 1, 2, 3].foldl (fun t d => t.abortDrill core d) s

/-- A core halts (R116, R117, R214): a core already halted keeps its CAUSE, except for fencing. -/
def State.haltCore (s : State) (core cause : Nat) : State :=
  let s1 :=
    if s.rd Reg.HND_STAT.HALTED core = 1 then
      if cause = 5 then s.wr Reg.HND_STAT.CAUSE 5 core else s
    else
      ((s.wr Reg.HND_STAT.HALTED 1 core).wr Reg.HND_STAT.CAUSE cause core).modCore core (fun c =>
        { c with
          hold := .none, runOff := false })
  if cause = 1 then s1 else s1.abortDrills core

/-- The cores of a furrow segment's rectangle (R142). -/
def State.segCores (s : State) (g : Nat) : List Nat :=
  (rectCrofts (s.rd Reg.FUR_SEG.ORIGIN (j := g)) (s.rd Reg.FUR_SEG.CROWS (j := g)) (s.rd Reg.FUR_SEG.CCOLS (j := g))).flatMap
    coresOfCroft

/-- The crofts of a segment's rectangle. -/
def State.segCrofts (s : State) (g : Nat) : List Nat :=
  rectCrofts (s.rd Reg.FUR_SEG.ORIGIN (j := g)) (s.rd Reg.FUR_SEG.CROWS (j := g)) (s.rd Reg.FUR_SEG.CCOLS (j := g))

/-- The furrow segment a core lies in, if any (R171). -/
def State.segOf (s : State) (core : Nat) : Option Nat :=
  if s.rd Reg.FUR_POS.IN_SEG core = 1 then some (s.rd Reg.FUR_POS.SEG core) else none

/-- The segment a core lies in runs. -/
def State.furRuns (s : State) (core : Nat) : Bool :=
  match s.segOf core with
  | some g => decide (s.rd Reg.FUR_RUN.RUN (j := g) = 1)
  | none => false

/-- Cycles of the hold in force of a segment that have passed in croft `c`, `sub` cycles into the tick (R159). -/
def State.heldFor (s : State) (g c sub : Nat) : Nat :=
  let x := s.seg g
  match x.held with
  | none => 0
  | some h => if x.heldDone.contains c then h.len else min h.len (s.cycle c sub - Store.getD x.heldBase c (s.cycle c sub))

/-- FUR_STAT.CATCH (R160): beats put in while the core re-runs, and beats consumed in the hold in force. -/
def State.catchNow (s : State) (core sub : Nat) : Nat :=
  let c := croftOf core
  let more := match (s.core core).catchUp with
    | some (st, n) => min n (s.cycle c sub - st)
    | none => 0
  let used := match s.segOf core with
    | some g => if (s.seg g).heldDone.contains c then 0 else s.heldFor g c sub
    | none => 0
  s.rd Reg.FUR_STAT.CATCH core + more - used

/-- Cycles of the hold in force for which the core has been held (R160). -/
def State.heldCycles (s : State) (core sub : Nat) : Nat :=
  let c := croftOf core
  match s.segOf core with
  | none => 0
  | some g =>
    if (s.seg g).heldDone.contains c then 0
    else
      let more := match (s.core core).catchUp with
        | some (st, n) => min n (s.cycle c sub - st)
        | none => 0
      s.heldFor g c sub - (s.rd Reg.FUR_STAT.CATCH core + more)

/-- Cycles of croft `c` since the segment's START, its stalls and the segment's holds left out, `sub` cycles into the tick. In a
stall the croft stands at its first cycle; while the segment does not run they stand as its last run left them (R149). -/
def State.furCycles (s : State) (g c sub : Nat) : Nat :=
  let x := s.seg g
  match x.ended with
  | some l => Store.getD l c 0
  | none =>
    let b := if (s.croft c).stall.isSome then 0 else sub
    s.cycle c b - (Store.getD x.base c (0, 0)).1 - x.frozen - s.heldFor g c b

/-- Cycles in which the core was held count neither as idle nor as active (R57): its array's counts move by them. -/
def State.shiftArr (s : State) (core n : Nat) : State :=
  let x := s.core core
  if n = 0 ∨ (x.stepEnd = 0 ∧ x.ramp.isNone) then s
  else s.setCore core
    { x with
      stepEnd := x.stepEnd + n, ramp := x.ramp.map (fun r => r + n) }

/-- Cycles for which the hold in force has held a core so far are counted, and its array's counts move by them (R57, R160). -/
def State.countHeld (s : State) (core : Nat) : State :=
  let n := s.heldCycles core 0
  if n = 0 then s else (s.incWrap Reg.FUR_STAT.HOLDCYC n core).shiftArr core n

/-- R147: a segment stops: every beat in flight is discarded, every catch buffer empties, RUN reads 0, and the ring beats stand. -/
def State.stopSeg (s : State) (g : Nat) : State :=
  let s0 := if (s.seg g).held.isSome then (s.segCores g).foldl State.countHeld s else s
  let s1 := (s0.wr Reg.FUR_RUN.RUN 0 (j := g)).modSeg g (fun x =>
    { x with
      startReq := none, stopReq := none, ring := [], holds := [], held := none, heldDone := [], wave := []
      ended := some ((s.segCrofts g).map (fun c => (c, s.furCycles g c 0))) })
  (s1.segCores g).foldl (fun t c =>
    let u := if t.rd Reg.FUR_STAT.CATCH c = 0 then t else t.wr Reg.FUR_STAT.CATCH 0 c
    if (u.core c).catchUp.isSome then u.modCore c (fun x => { x with catchUp := none }) else u) s1

/-- R147: a fault or kill of an enclosure stops its segments at once. -/
def State.stopSegsOf (s : State) (n : Nat) : State :=
  (List.range 256).foldl (fun t g =>
    if t.rd Reg.FUR_SEG.EN (j := g) = 1 ∧ t.rd Reg.FUR_SEG.ENCL (j := g) = n ∧
        (t.rd Reg.FUR_RUN.RUN (j := g) = 1 ∨ (t.seg g).startReq.isSome) then t.stopSeg g else t) s

/-- R275: an enclosure is faulted with an event code; tick `m` is the tick of the fault. An enclosure that is not SOWING,
RUNNING or RESOWING is left as it is. -/
def State.faultEncl (s : State) (n code m : Nat) : State :=
  let st := s.rd Reg.ENCL_STATE.STATE (j := n)
  if st = 1 ∨ st = 2 ∨ st = 3 then
    let s1 := ((s.wr Reg.ENCL_STATE.STATE 4 (j := n)).wr Reg.ENCL_STATE.CAUSE code (j := n)).modEncl n
      (fun e => { e with haltDue := some (m + 4) })
    let s1 := s1.stopSegsOf n
    let det := s1.regWord [Reg.ENCL_STATE.STATE, Reg.ENCL_STATE.CAUSE, Reg.ENCL_STATE.SUBCODE, Reg.ENCL_STATE.STEP] 0 n
    let step := s1.stepOf (some n)
    (s1.raiseAt stRing 0xD3 skEncl n s.now step det).raiseAt n 0xD3 skEncl n s.now step det
  else s

/-- A gate's epoch, in the working copy and in the retained one (R134). -/
def State.setEpoch (s : State) (core g e : Nat) : State :=
  { s.wr Reg.GATE_EPOCH.EPOCH e core g with epochs := Store.put s.epochs (core * 8 + g) (e % 2 ^ 32) }

/-- R137: a wipe starts: every gate becomes CLOSED and every epoch increments, open or not; drills abort; the lock begins.
With a copy to make first (R138) the copy runs under the same lock. -/
def State.wipeStart (s : State) (core : Nat) (copy : Bool) : State :=
  let s1 := (List.range 8).foldl (fun t g =>
    (t.wr Reg.GATE_EPOCH.OPEN 0 core g).setEpoch core g (t.rd Reg.GATE_EPOCH.EPOCH core g + 1)) s
  let s2 := (s1.abortDrills core).modCore core (fun c =>
    { c with reclass := [], scrubBack := none, copy := if copy then some 0 else none })
  ((s2.wr Reg.SP_STAT.LOCKED 1 core).wr Reg.SP_STAT.WIPE_BUSY 1 core).wr Reg.SP_STAT.RECLASS_BUSY 0 core

/-- The core's holding has tripped (R426). -/
def State.tripped (s : State) (core : Nat) : Bool :=
  let h := holdingOf (croftOf core)
  s.power.trips.any (fun t => decide (t.1 = h)) || (decide (s.rd Reg.PWR_DOM.TRIPPED (j := h) = 1) && decide (s.rd Reg.PWR_DOM.CUR (j := h) = 3))
/-- The croft's holding is OFF after a trip: entries into it are discarded and their credits returned (R426). -/
def State.tripOff (s : State) (f : Nat) : Bool :=
  decide (s.rd Reg.PWR_DOM.TRIPPED (j := holdingOf f) = 1) && decide (s.rd Reg.PWR_DOM.CUR (j := holdingOf f) = 3)
/-- R138: the core's scratchpad is copied before its wipe: the job set keep-for-inspection, the core ran a thread of it, and its holding
has not tripped (R426). -/
def State.copyFirst (s : State) (n core : Nat) : Bool :=
  decide (s.rd Reg.ENCL_SHAPE.KEEP (j := n) = 1) && !(s.encl n).inspect.isEmpty && (s.core core).thread.isSome && !s.tripped core

/-- R136, R137: the copy or the wipe of a core of an enclosure starts as a fault or a kill halts the core; one under way goes on. -/
def State.wipeOf (s : State) (n core : Nat) : State :=
  if s.rd Reg.SP_STAT.WIPE_BUSY core = 1 then s else s.wipeStart core (s.copyFirst n core)

/-- R275: a fault raised at a core halts it with a CAUSE and faults its enclosure. A core that the fault halts is locked, and its wipe
starts, from its own halt (R136, R137). -/
def State.coreFault (s : State) (core cause code : Nat) : State :=
  let s1 := s.haltCore core cause
  match s1.enclOfCore core with
  | some n =>
    let s2 := s1.faultEncl n code (s1.estTick (croftOf core))
    if s.rd Reg.HND_STAT.HALTED core = 0 ∧ s2.rd Reg.ENCL_STATE.STATE (j := n) = 4 then s2.wipeOf n core else s2
  | none => s1

/-- R115: an illegal word is discarded; HND_ILL records it, the core halts and ILLEGAL_INSN is raised. -/
def State.illegal (s : State) (core word : Nat) (cause : Nat := 2) (code : Nat := 0x03) : State :=
  ((s.wr Reg.HND_ILL.WORD word core).raiseCore core code word).coreFault core cause code

/-! ### Scratchpad accesses (R123-R125) -/

/-- R124: a W-class correction is counted; the first of a step is raised. -/
def State.correctedW (s : State) (core : Nat) : State :=
  let s1 := s.incSat Reg.SP_ECC.W_CORR 1 core
  if (s1.core core).wCorr then s1
  else
    (s1.modCore core (fun c => { c with wCorr := true })).raiseCore core 0x41
      (s1.regWord [Reg.SP_ECC.W_CORR, Reg.SP_ECC.A_CORR, Reg.SP_ECC.UNCORR] core 0)

/-- R124: a correction of a code word is counted by its class. -/
def State.corrected (s : State) (core cw : Nat) : State :=
  if s.wClass core cw then s.correctedW core else s.incSat Reg.SP_ECC.A_CORR 1 core

/-- R125: an uncorrectable word is recorded, raised, and faults the enclosure. -/
def State.uncorrectable (s : State) (core cw slot : Nat) : State :=
  let s1 := (((s.wr Reg.SP_ECC_LOC.OFFSET cw core).wr Reg.SP_ECC_LOC.SLOT slot core).wr Reg.SP_ECC_LOC.VALID 1 core).incSat
    Reg.SP_ECC.UNCORR 1 core
  let s2 := s1.raiseCore core 0x42 (s1.regWord [Reg.SP_ECC_LOC.OFFSET, Reg.SP_ECC_LOC.SLOT, Reg.SP_ECC_LOC.VALID] core 0)
  match s2.enclOfCore core with
  | some _ => s2.coreFault core 6 0x42
  | none => s2

/-- Report a code word an access has touched. -/
def State.touch (s : State) (core cw slot : Nat) : State :=
  if s.wordErr core cw = 1 then s.corrected core cw
  else if s.wordErr core cw = 2 then s.uncorrectable core cw slot
  else s

/-- The distinct code words of a list of (offset, slot), each with the slot that meets it first. -/
def State.wordsOf (s : State) (core : Nat) (offs : List (Nat × Nat)) : List (Nat × Nat) :=
  offs.foldl (fun acc p =>
    let cw := s.codeWord core p.1
    if acc.any (fun q => q.1 = cw) then acc else acc ++ [(cw, p.2)]) []

/-- R123, R125: bytes read at offsets through slots; an uncorrectable word reads as zeros. The data, and the state after
corrections are counted and faults raised. -/
def State.spReadAt (s : State) (core : Nat) (offs : List (Nat × Nat)) : List Byte × State :=
  (offs.map (fun p => if s.wordErr core (s.codeWord core p.1) = 2 then 0 else s.byte (spAddr core p.1)),
   (s.wordsOf core offs).foldl (fun t p => t.touch core p.1 p.2) s)

/-- What a read of contiguous bytes does beside returning them: corrections counted, faults raised (R124, R125). -/
def State.readEffects (s : State) (core off n slot : Nat) : State :=
  (s.spReadAt core ((List.range n).map (fun k => (off + k, slot)))).2

/-- Contiguous bytes read through one slot. -/
def State.spRead (s : State) (core off n slot : Nat) : List Byte × State :=
  s.spReadAt core ((List.range n).map (fun k => (off + k, slot)))

/-- R123, R125: bytes written at offsets through a slot. A code word covered whole is replaced with a fresh check; a part
of one is merged, which corrects a correctable word and is discarded by an uncorrectable one. -/
def State.spWriteAt (s : State) (core slot : Nat) (wr : List (Nat × Byte)) : State :=
  let words := (s.wordsOf core (wr.map (fun p => (p.1, slot)))).map Prod.fst
  words.foldl (fun t cw =>
    let mine := wr.filter (fun p => decide (s.codeWord core p.1 = cw))
    let whole := (List.range (s.codeLen core cw)).all (fun k => mine.any (fun p => decide (p.1 % 2 ^ 18 = cw + k)))
    let put (u : State) : State := mine.foldl (fun v p => v.spPut core p.1 [p.2]) u
    if whole then (put t).setErr core cw 0
    else if s.wordErr core cw = 0 then put t
    else if s.wordErr core cw = 1 then ((put t).setErr core cw 0).corrected core cw
    else t.uncorrectable core cw slot) s

/-- Contiguous bytes written through one slot. -/
def State.spWrite (s : State) (core off slot : Nat) (bs : List Byte) : State :=
  s.spWriteAt core slot (((List.range bs.length).map (fun k => off + k)).zip bs)

/-- A longer run of bytes written through a slot, 32 B a cycle (R118): the words it covers whole take fresh checks, and the parts of
words at its ends are merged. -/
def State.spFill (s : State) (core off slot : Nat) (bs : List Byte) : State :=
  let lead := (32 - off % 32) % 32
  let s1 := if lead = 0 then s else s.spWrite core off slot (bs.take lead)
  (List.range (ceilDiv (bs.length - lead) 32)).foldl (fun t k =>
    t.spWrite core (off + lead + 32 * k) slot ((bs.drop (lead + 32 * k)).take 32)) s1

/-! ### The ledger's counters (R450) -/

/-- A counter of the counter block, `w` bytes wide at a byte offset, up by `n`; it never falls, so it stops at all ones. -/
def State.ledAdd (s : State) (off w n : Nat) : State :=
  let j := off / 8
  let x := s.rd Reg.LED_CNT.BLOCK 0 j + s.rd Reg.LED_CNT.BLOCK 0 (j + 1) * 2 ^ 64
  let lo := off % 8 * 8
  let v := bits x lo (8 * w)
  let y := x + (min (v + n) (2 ^ (8 * w) - 1) - v) * 2 ^ lo
  let s1 := s.wr Reg.LED_CNT.BLOCK y 0 j
  if lo + 8 * w ≤ 64 then s1 else s1.wr Reg.LED_CNT.BLOCK (y / 2 ^ 64) 0 (j + 1)
/-- R288: the ledger's count of Tabko corrected symbols. -/
def State.countSymbols (s : State) (n : Nat) : State := s.ledAdd 116 8 n

/-! ### The life cycle (R454-R456) -/

/-- The life-cycle state as BOOT_STAT codes it (R454, R455): FIELD-OPEN while a session is open. -/
def State.lc (s : State) : Nat :=
  if s.otp.retired then 4
  else if s.otp.lcFuses = 0 then 0
  else if s.otp.lcFuses % 2 = 1 then (if s.rd Reg.GNT_STAT.SESSION = 0 then 1 else 2)
  else 3
/-- The service functions and BIST on command are permitted (R456). -/
def State.serviceOk (s : State) : Bool := [0, 2, 3].contains s.lc

/-- The instruments are open, beyond IDCODE and BYPASS (R456): MANUFACTURE, REFURBISH, or a session of full scope. -/
def State.instruments (s : State) : Bool :=
  decide (s.lc = 0) || decide (s.lc = 3) || (decide (s.lc = 2) && decide (s.rd Reg.GNT_STAT.SESSION = 2))

/-! ### CFG_MISMATCH (R13) -/

/-- Staged values that disagree are discarded and CFG_MISMATCH is raised with the address of the COMMIT register. -/
def State.mismatch (s : State) (mpa skind unit : Nat) (ring : Nat := stRing) : State :=
  s.raiseAt ring 0x01 skind unit s.now 0 mpa

end Sys2Proof.Machine
end

