-- ==== Sys2Proof/Machine/Operands.lean ====
section
/-! DEFINITION. Operand forms: hand registers and immediates (R97), vector registers and lanes (R100-R101), the
descriptors of the array and the furrow (R44-R46, R50, R157). -/

namespace Sys2Proof.Machine

/-! ### The hand (R97) -/

/-- A hand register; h0 reads as zero. -/
def State.h (s : State) (core r : Nat) : Word :=
  if r = 0 then 0 else BitVec.ofNat 64 (s.rd Reg.HND_H.VALUE core r)

/-- Write a hand register; a write of h0 is discarded. -/
def State.setH (s : State) (core r : Nat) (v : Word) : State :=
  if r = 0 then s else s.wr Reg.HND_H.VALUE v.toNat core r

/-- IMM sign-extended to 64 bits. -/
def immS (w : HandWord) : Word := w.imm.signExtend 64

/-- First and second source of a hand word. -/
def State.hs1 (s : State) (core : Nat) (w : HandWord) : Word := s.h core w.hs1.toNat
def State.hs2 (s : State) (core : Nat) (w : HandWord) : Word := s.h core w.hs2.toNat

/-- Byte address in the core's own scratchpad of a hand load or store (R98). -/
def State.hAddr (s : State) (core : Nat) (w : HandWord) : Nat := (s.hs1 core w + immS w).toNat % 2 ^ 18

/-- PC + IMM, as a signed target. -/
def State.hTarget (s : State) (core : Nat) (w : HandWord) : Int :=
  (s.rd Reg.HND_STAT.PC core : Int) + w.imm.toInt

/-! ### Vector registers (R100, R101) -/

def State.v (s : State) (core r : Nat) : VWord := Store.getD s.vregs (core * 32 + r) 0
def State.setV (s : State) (core r : Nat) (x : VWord) : State := { s with vregs := Store.put s.vregs (core * 32 + r) x }

/-- Lane `i` of width `w`. -/
def lane (w : Nat) (x : VWord) (i : Nat) : Nat := bits x.toNat (w * i) w

/-- The word with lane `i` of width `w` replaced. -/
def setLane (w : Nat) (x : VWord) (i : Nat) (v : Nat) : VWord :=
  let m := (2 ^ w - 1) * 2 ^ (w * i)
  BitVec.ofNat 1024 ((x.toNat &&& (2 ^ 1024 - 1 - m)) ||| (v % 2 ^ w * 2 ^ (w * i)))

/-- Lanes below `n` replaced by `f`, the others kept. -/
def mapLanes (w n : Nat) (x : VWord) (f : Nat → Nat) : VWord :=
  (List.range n).foldl (fun acc i => setLane w acc i (f i)) x

/-- Element width of a TYPE (R101). -/
def typeWidth (ty : Nat) : Nat := if ty = 0 ∨ ty = 3 then 8 else if ty = 1 ∨ ty = 4 ∨ ty = 6 then 16 else 32
/-- VLMAX of an element width (R100). -/
def vlmax (w : Nat) : Nat := 1024 / w
/-- The TYPE is a signed integer, an unsigned one, a float. -/
def tySigned (ty : Nat) : Bool := decide (ty < 3)
def tyInt (ty : Nat) : Bool := decide (ty < 6)
def tyFloat (ty : Nat) : Bool := decide (6 ≤ ty)
/-- The float format of TYPE 6 or 7. -/
def tyFmt (ty : Nat) : Fmt := if ty = 6 then bf16 else fp32
/-- n = min(VL, VLMAX(w)) (R100). -/
def State.vn (s : State) (core w : Nat) : Nat := min (s.rd Reg.VEC_VL.VL core) (vlmax w)
/-- An element as the integer its TYPE says. -/
def elemInt (ty x : Nat) : Int := if tySigned ty then sint (typeWidth ty) x else (x : Int)

/-! ### Array formats and descriptors (R38, R44-R46) -/

/-- A code of R38 is a format. -/
def codeOk (c : Nat) : Bool := decide (1 ≤ c) && decide (c ≤ 0xB)
/-- MX formats (R38). -/
def codeMx (c : Nat) : Bool := decide (5 ≤ c) && decide (c ≤ 9)
/-- Integer formats (R38). -/
def codeInt (c : Nat) : Bool := decide (c = 0xA) || decide (c = 0xB)
/-- Depth (R38). -/
def codeDepth (c : Nat) : Nat := if c ≤ 2 then 1 else if c = 9 ∨ c = 0xB then 4 else 2
/-- Element bits (R38). -/
def codeWidth (c : Nat) : Nat := if c ≤ 2 then 16 else if c = 7 ∨ c = 8 then 6 else if c = 9 ∨ c = 0xB then 4 else 8
/-- Transposed reads are permitted (R47). -/
def codeTrans (c : Nat) : Bool := decide (c ≤ 4) || codeInt c
/-- The float format of a code's elements. -/
def codeFmt (c : Nat) : Fmt :=
  if c = 1 then fp16 else if c = 2 then bf16 else if c = 3 ∨ c = 5 then e4m3 else if c = 4 ∨ c = 6 then e5m2
  else if c = 7 then e2m3 else if c = 8 then e3m2 else e2m1

/-- ADDR, BSTRIDE, TSTRIDE of an operand descriptor (R44), and SADDR, SSTRIDE of a scale descriptor (R45). -/
def dAddr (d : Word) : Nat := bits d.toNat 0 18
def dBstride (d : Word) : Nat := bits d.toNat 18 18
def dTstride (d : Word) : Nat := bits d.toNat 36 18

/-- R44, R46: an operand descriptor is legal. -/
def descOk (d : Word) : Bool :=
  decide (dAddr d % 32 = 0) && decide (dBstride d % 32 = 0) && decide (dTstride d % 32 = 0) &&
  decide (bits d.toNat 54 10 = 0)
/-- R45, R46: a scale descriptor is legal. -/
def sdescOk (d : Word) : Bool :=
  decide (dAddr d % 32 = 0) && decide (dBstride d % 32 = 0) && decide (bits d.toNat 36 28 = 0)
/-- R157: the destination descriptor of a capture is legal; bits [35:18] are not checked. -/
def capDescOk (d : Word) : Bool :=
  decide (dAddr d % 32 = 0) && decide (dTstride d % 32 = 0) && decide (bits d.toNat 54 10 = 0)

/-! ### Issue (R94, R95, R115) -/

/-- A hold of the core's segment holds it (R63, R160): it has not ended in its croft, and the catch buffer is empty. -/
def State.heldNow (s : State) (core : Nat) : Bool :=
  match s.segOf core with
  | none => false
  | some g =>
    let x := s.seg g
    let c := croftOf core
    match x.held with
    | none => false
    | some h => !x.heldDone.contains c && decide (s.heldFor g c 0 < h.len) && !(s.core core).retry && decide (s.catchNow core 0 = 0)

/-- ARR_STAT.COLD (R57): cold until the last cycle of the ramp, which the cycles of a hold do not move on. -/
def State.cold (s : State) (core sub : Nat) : Bool :=
  decide (s.rd Reg.ARR_STAT.COLD core = 1) &&
  (match (s.core core).ramp with
   | some r => decide (s.cycle (croftOf core) sub < r + s.heldCycles core sub)
   | none => true)
/-- ARR_STAT.BUSY (R70): an array instruction is queued, pending or running. -/
def State.arrBusy (s : State) (core : Nat) : Bool :=
  decide (s.rd Reg.ARR_STAT.BUSY core = 1) ||
  (match (s.core core).rdRun with
   | some r => decide (s.cycle (croftOf core) 0 < r.writeEnd)
   | none => false)

/-- The core's enclosure was killed, and the core's wipe is still to come (R117, R276). -/
def State.killed (s : State) (core : Nat) : Bool :=
  match s.enclOfCore core with
  | some n => decide (s.rd Reg.ENCL_STATE.STATE (j := n) = 4) && (s.encl n).kill.isSome
  | none => false

/-- The croft runs: its clock is on and no lag stalls it (R233). -/
def State.croftLive (s : State) (c : Nat) : Bool := (s.croft c).clock && (s.croft c).stall.isNone
/-- The croft's units issue work: it runs, and its holding is in no stop or change (R235, R423). -/
def State.croftIssues (s : State) (c : Nat) : Bool :=
  s.croftLive c && decide (s.rd Reg.HOLD_OP.BUSY (j := holdingOf c) ≠ 1) && decide (s.rd Reg.PWR_DOM.BUSY (j := holdingOf c) ≠ 1)

/-- The core is stopped in place (R95): a re-run of its own (R62), a hold of its segment (R63, R160), a lag stall or a stopped
clock of its croft (R231, R235), a stop or change of its holding (R235, R423). -/
def State.stopped (s : State) (core : Nat) : Bool :=
  (s.core core).retry || s.heldNow core || !s.croftIssues (croftOf core)

/-- The hand can issue: the core runs, nothing holds it, it is not stopped (R94, R95). -/
def State.canIssue (s : State) (core : Nat) : Bool :=
  decide (s.rd Reg.HND_STAT.HALTED core = 0) && decide ((s.core core).hold = .none) && (s.core core).binds.isEmpty && !s.stopped core

/-- The instruction has issued: PC moves to the next word; past word 2,047 the core halts once the word has completed (R115). -/
def State.advance (s : State) (core : Nat) : State :=
  let pc := s.rd Reg.HND_STAT.PC core
  if pc ≠ 2047 then s.wr Reg.HND_STAT.PC (pc + 1) core
  else if (s.core core).hold = .none then s.illegal core 0
  else s.modCore core (fun c => { c with runOff := true })

/-- What the hand holds on has come: it goes on, or, behind word 2,047, the core halts (R115). -/
def State.releaseHold (s : State) (core : Nat) : State :=
  let s1 := s.modCore core (fun c =>
    { c with
      hold := .none, runOff := false })
  if (s.core core).runOff then s1.illegal core 0 else s1

/-- Issue of one instruction (R94, R115): nothing happens while the hand cannot issue; an illegal word is discarded and
halts the core; otherwise the instruction has its effect. -/
def State.issue (s : State) (core : Nat) (word : Word) (ok : Bool) (eff : State → State) : State :=
  if s.canIssue core then (if ok then eff s else s.illegal core word.toNat) else s

/-- Issue of an instruction that is followed by the next word. -/
def State.issueNext (s : State) (core : Nat) (word : Word) (ok : Bool) (eff : State → State) : State :=
  s.issue core word ok (fun t => (eff t).advance core)

end Sys2Proof.Machine
end

