-- ==== Sys2Proof/Machine/Flags.lean ====
section
/-! DEFINITION. The status flags instructions set: VSTAT (R103, R106-R108), ARR_STAT (R41, R60). Each is sticky: it is set
and cleared only by a write of 1 or by the wipe. -/

namespace Sys2Proof.Machine

/-- A result of integer lanes with the flag that a lane saturated. -/
structure LaneOut where
  val : Nat
  isat : Bool := false
  fsat : Bool := false
  oor : Bool := false
  deriving DecidableEq, Repr

/-- Set the sticky bits of VSTAT that the lanes ask for (R117). -/
def State.vstat (s : State) (core : Nat) (isat fsat oor : Bool) : State :=
  let s1 := if isat then s.wr Reg.VSTAT.ISAT 1 core else s
  let s2 := if fsat then s1.wr Reg.VSTAT.FSAT 1 core else s1
  if oor then s2.wr Reg.VSTAT.OOR 1 core else s2

/-- R103: clamp to the range of an element type. -/
def satElem (ty : Nat) (x : Int) : LaneOut :=
  let w := typeWidth ty
  let lo : Int := if tySigned ty then -((2 ^ (w - 1) : Nat) : Int) else 0
  let hi : Int := if tySigned ty then ((2 ^ (w - 1) : Nat) : Int) - 1 else ((2 ^ w : Nat) : Int) - 1
  { val := wrapInt w (clampInt lo hi x), isat := decide (x < lo) || decide (hi < x) }

/-- R41: an INT32 sum with saturation; second: it saturated. -/
def satInt32 (x : Int) : BitVec 32 × Bool :=
  let lo : Int := -2147483648
  let hi : Int := 2147483647
  (BitVec.ofInt 32 (clampInt lo hi x), decide (x < lo) || decide (hi < x))

/-- Set the sticky bits of ARR_STAT (R41, R60). -/
def State.arrFlags (s : State) (core : Nat) (isat nonfin : Bool) : State :=
  let s1 := if isat then s.wr Reg.ARR_STAT.ISAT 1 core else s
  if nonfin then s1.wr Reg.ARR_STAT.NONFINITE 1 core else s1

end Sys2Proof.Machine
end

