-- ==== Sys2Proof/Machine/FurrowRing.lean ====
section
/-! DEFINITION. The furrow as a ring (R142-R151, R164): positions, ring beats, which payload a
position sees. A payload is held by where and when it entered (R149): what each position sees in each beat follows. -/

namespace Sys2Proof.Machine

/-! ### Positions (R142, R143) -/

/-- Position in a rectangle `cols` cores wide of segment-relative row and column (R142). -/
def posAt (cols r c : Nat) : Nat := if r % 2 = 0 then cols * r + c else cols * r + (cols - 1 - c)

/-- Length of a segment in positions. -/
def State.segLen (s : State) (g : Nat) : Nat :=
  16 * s.rd Reg.FUR_SEG.CROWS (j := g) * (20 * s.rd Reg.FUR_SEG.CCOLS (j := g))

/-- The core at a position of a segment. -/
def State.coreAtPos (s : State) (g p : Nat) : Nat :=
  let o := s.rd Reg.FUR_SEG.ORIGIN (j := g)
  let w := 20 * s.rd Reg.FUR_SEG.CCOLS (j := g)
  let r := p / w
  let k := p % w
  coreAt (o / 16 * 16 + r) (o % 16 * 20 + (if r % 2 = 0 then k else w - 1 - k))

/-- The slack in force on a side of a croft: 1 N, 2 E, 3 S, 4 W (R241). -/
def State.slack (s : State) (croft side : Nat) : Nat := bits (s.croft croft).slack (2 * ((side + 3) % 4)) 2

/-- The side of croft `a` that faces its neighbour `b`. -/
def sideTo (a b : Nat) : Nat := if b + 16 = a then 1 else if a + 1 = b then 2 else if a + 16 = b then 3 else 4

/-- The cycle in which a beat written into a crossing in cycle `w` is released, both counted from START (R144, R230): the first of the
tick `k` = 3 + S ticks after the write's counted tick. The write falls in the beat's own cycle (DEDUCED, log entry 9). -/
def releaseCycle (p k w : Nat) : Nat := ceilDiv ((ceilDiv (20 * (w + 1)) p - 1 + k) * p) 20
/-- Cycles from a write to its release, the most over every phase of the write in its tick (R145). -/
def crossMost (p k : Nat) : Nat := ((List.range p).map (fun w => releaseCycle p k w - w)).foldl max 0
/-- Beats of a hop that crosses into the next croft, in a stream of beats (R144, R145). -/
def State.crossBeats (s : State) (a b op : Nat) : Nat := crossMost (unitsPerTick op) (3 + s.slack a (sideTo a b))

/-! How the beats of a segment come to a position: pairs of a beat and the cycles by which it and those behind it lag position 0. -/

/-- The cycle, counted from START, in which a beat comes. -/
def arriveAt (l : List (Nat × Nat)) (n : Nat) : Nat := l.foldl (fun a x => if x.1 ≤ n then x.2 + n else a) n
/-- Every beat `d` cycles later. -/
def arriveLater (d : Nat) (l : List (Nat × Nat)) : List (Nat × Nat) := l.map (fun x => (x.1, x.2 + d))
/-- R144: beats through a crossing: each in the first cycle of its release tick, or in the cycle behind the beat before it. -/
def arriveAcross (p k : Nat) (l : List (Nat × Nat)) : List (Nat × Nat) :=
  (List.range ((l.getLast?.map Prod.fst).getD 0 + p)).foldl (fun acc n =>
    let d := releaseCycle p k (arriveAt l n) - n
    if (acc.getLast?.map Prod.snd).any (fun e => decide (d ≤ e)) then acc else acc ++ [(n, d)]) []
/-- Beats at the first position of the last of a list of runs, from those at the first position of croft `a`'s run. -/
def State.arriveRuns (s : State) (op a : Nat) (l : List (Nat × Nat)) : List Nat → List (Nat × Nat)
  | [] => l
  | b :: t =>
    State.arriveRuns s op b
      (if a = b then arriveLater 20 l else arriveAcross (unitsPerTick op) (3 + s.slack a (sideTo a b)) (arriveLater 19 l)) t
/-- The beat in a latch `f` cycles after START: the last that has come; negative before beat 0. -/
def beatAt : List (Nat × Nat) → Nat → Int
  | [], f => f
  | [x], f => (f : Int) - x.2
  | x :: y :: t, f => if y.1 + y.2 ≤ f then beatAt (y :: t) f else min ((f : Int) - x.2) ((y.1 : Int) - 1)

/-- The crofts a rectangle's plough order runs through, 20 positions each, in order (R142). -/
def ploughRuns (origin crows ccols : Nat) : List Nat :=
  (List.range (16 * crows)).flatMap (fun r => (List.range ccols).map (fun k =>
    origin + r / 16 * 16 + (if r % 2 = 0 then k else ccols - 1 - k)))

/-- Beats that the crossings along a list of runs add to one beat a hop. -/
def State.runBeats (s : State) (op : Nat) : List Nat → Nat
  | a :: b :: t => (if a = b then 0 else s.crossBeats a b op - 1) + State.runBeats s op (b :: t)
  | _ => 0

/-- Beats by which position `p` of a rectangle lags position 0 in a stream of beats (R142-R144). -/
def State.delayIn (s : State) (origin crows ccols p : Nat) : Nat :=
  p + s.runBeats (s.opOf origin) ((ploughRuns origin crows ccols).take (p / 20 + 1))
/-- How the beats of a segment come to its position `p` (R142-R144). -/
def State.posArrive (s : State) (g p : Nat) : List (Nat × Nat) :=
  let o := s.rd Reg.FUR_SEG.ORIGIN (j := g)
  let runs := (ploughRuns o (s.rd Reg.FUR_SEG.CROWS (j := g)) (s.rd Reg.FUR_SEG.CCOLS (j := g))).take (p / 20 + 1)
  arriveLater (p % 20) (s.arriveRuns (s.opOf o) o [(0, 0)] (runs.drop 1))

/-- R145: LAP_MIN of a rectangle: the forward path, the return lane, and the turn into position 0. -/
def State.lapMin (s : State) (origin crows ccols : Nat) : Nat :=
  let op := s.opOf origin
  let fwd := 16 * crows * (20 * ccols) - 1 + s.runBeats op (ploughRuns origin crows ccols)
  let back := (List.range (crows - 1)).map (fun k => s.crossBeats (origin + (k + 1) * 16) (origin + k * 16) op)
  fwd + 15 * crows + back.sum + 1

/-! ### Ring beats (R149) -/

/-- RBEAT, the beat in the latch of a core, `sub` cycles into the tick: negative before beat 0 has come to it (R149, R161). -/
def State.ringBeat (s : State) (core sub : Nat) : Int :=
  match s.segOf core with
  | none => 0
  | some g => beatAt (s.posArrive g (s.rd Reg.FUR_POS.POS core)) (s.furCycles g (croftOf core) sub)

/-- ABEAT: the ring beat less the catch buffer's occupancy (R151). -/
def State.consBeat (s : State) (core sub : Nat) : Int := s.ringBeat core sub - (s.catchNow core sub : Int)

/-- The least count of cycles since START in any croft of a segment. -/
def State.furBehind (s : State) (g : Nat) : Nat :=
  let cs := rectCrofts (s.rd Reg.FUR_SEG.ORIGIN (j := g)) (s.rd Reg.FUR_SEG.CROWS (j := g)) (s.rd Reg.FUR_SEG.CCOLS (j := g))
  (cs.map (fun c => s.furCycles g c 0)).foldl min (s.furCycles g (s.rd Reg.FUR_SEG.ORIGIN (j := g)) 0)

/-- The lap of a segment. -/
def State.lap (s : State) (g : Nat) : Nat := s.rd Reg.FUR_SEG.LAP (j := g)

/-- The furrow crossings of a segment into croft `f`, forward and by the return lane: the croft before and the position behind (R143). -/
def State.crossingsInto (s : State) (g f : Nat) : List (Nat × Nat) :=
  let o := s.rd Reg.FUR_SEG.ORIGIN (j := g)
  let runs := ploughRuns o (s.rd Reg.FUR_SEG.CROWS (j := g)) (s.rd Reg.FUR_SEG.CCOLS (j := g))
  (((runs.zip (runs.drop 1)).zip (List.range runs.length)).filter (fun p => decide (p.1.2 = f) && decide (p.1.1 ≠ f))).map
    (fun p => (p.1.1, 20 * (p.2 + 1))) ++
  (if f % 16 = o % 16 ∧ runs.contains (f + 16) then [(f + 16, 0)] else [])
/-- R163: the core behind a crossing into croft `f` whose queue would exceed 128 beats: those under way, and those by which `f` lags
the croft before it. -/
def State.crossOverflow (s : State) (g f : Nat) : Option Nat :=
  let lag (c : Nat) : Nat := (s.croft c).lag20 - (Store.getD (s.seg g).base c (0, 0)).2
  ((s.crossingsInto g f).find? (fun p =>
    decide (128 * 20 + lag p.1 < (3 + s.slack p.1 (sideTo p.1 f)) * unitsPerTick (s.opOf f) + lag f))).map (fun p => s.coreAtPos g p.2)
/-- Ticks after which a lag that arises at croft `f` has reached each croft of the segment (R144, R161): `n` rounds over the crossings. -/
def State.lagReach (s : State) (g f : Nat) : Nat → List (Nat × Nat)
  | 0 => [(f, 0)]
  | n + 1 => (s.segCrofts g).foldl (fun d c =>
      (s.crossingsInto g c).foldl (fun e p => match Store.get e p.1, Store.get e c with
        | some x, some y => Store.put e c (min y (x + 3 + s.slack p.1 (sideTo p.1 c)))
        | some x, none => Store.put e c (x + 3 + s.slack p.1 (sideTo p.1 c))
        | none, _ => e) d) (State.lagReach s g f n)
/-- R161: the wave of a lag of `k` ticks that began at croft `f` in tick `tk`: every other croft of the segment stalls `k` ticks from the
tick on in which its entry beats come late, along the forward path and the return lane. -/
def State.lagWave (s : State) (g f tk k : Nat) : List LagStop :=
  ((s.lagReach g f (s.segCrofts g).length).filter (fun p => decide (p.1 ≠ f))).map (fun p => ⟨p.1, k, tk + p.2⟩)

/-- The payload a position finds on a lane in a beat (R149, R150): entered at or before it in that beat, or behind it a lap
earlier. -/
def findPayload (lap : Nat) (ring : List Payload) (lane p b : Nat) : Option Payload :=
  ring.find? (fun x => decide (x.lane = lane) &&
    ((decide (x.beat = b) && decide (x.pos ≤ p)) || (decide (x.beat + lap = b) && decide (p < x.pos))))

/-- A payload arrives live at `p` in beat `b` (R150, R154): the one that entered at `p` itself is retired before the latch. -/
def arrivesLive (lap : Nat) (ring : List Payload) (lane p b : Nat) : Bool :=
  ring.any (fun x => decide (x.lane = lane) &&
    ((decide (x.beat = b) && decide (x.pos < p)) || (decide (x.beat + lap = b) && decide (p < x.pos))))

/-- The position at which a payload that enters at `p` in beat `b` arrives live in a beat whose own entry is on the ring already
(R154): one command may have moved later beats first (log entry 12). -/
def meetsEntry (lap : Nat) (ring : List Payload) (lane p b : Nat) : Option Nat :=
  (ring.find? (fun x => decide (x.lane = lane) &&
    ((decide (x.beat = b) && decide (p < x.pos)) || (decide (x.beat = b + lap) && decide (x.pos < p))))).map Payload.pos

/-- The payload's parity failed before it reached position `p` of a segment of length `len` (R478). -/
def Payload.badAt (x : Payload) (len p : Nat) : Bool :=
  match x.poison with
  | none => false
  | some k => decide ((k + len - x.pos) % len < (p + len - x.pos) % len)

end Sys2Proof.Machine
end

