-- ==== Sys2Proof/Machine/Geo.lean ====
section
/-! DEFINITION. The wafer's geography as the steading publishes it (R24, R27-R32): segments of routes, the distance table, the
croft, holding and port tables, the fallow bitmap. Every change that the tables depend on rebuilds them in the step that
makes it, so a read of a table is worked out from the state. -/

namespace Sys2Proof.Machine

/-! ### Domains (R415) -/

/-- State of domain MP: 0 ON, 1 IDLE, 3 OFF. -/
def State.mpState (s : State) : Nat := s.rd Reg.PWR_DOM.CUR (j := 16)
/-- State of a floor's domain: 0 ON, 1 DARK, 3 OFF. -/
def State.floorState (s : State) (f : Nat) : Nat := s.rd Reg.PWR_DOM.CUR (j := 17 + f)

/-- R24: the landing port of Tabko `t` takes requests and answers. -/
def State.portReachable (s : State) (t : Nat) : Bool :=
  s.tabkoPresent t && s.holdRuns (holdingOf (portCroft t)) && decide (s.mpState = 0) &&
  decide (s.rd Reg.TBK_STAT.INIT_BUSY t = 0) && decide (s.rd Reg.TBK_STAT.DOWN t = 0)

/-! ### Routes (R26, R27) -/

/-- Segments along a row of crofts to croft column `tcc` (R27): the crofts left behind with their lengths, and the column and
count at which the route goes on in the last one. -/
def rowSegs : Nat → Nat → Nat → Nat → Nat → List (Nat × Nat) × Nat
  | 0, _, _, _, x => ([], x)
  | fuel + 1, cr, cc, tcc, x =>
    if cc < tcc then
      let r := rowSegs fuel cr (cc + 1) tcc 0
      ((cr * 16 + cc, (19 - x) + 1) :: r.1, r.2)
    else if tcc < cc then
      let r := rowSegs fuel cr (cc - 1) tcc 19
      ((cr * 16 + cc, x + 1) :: r.1, r.2)
    else ([], x)

/-- Segments along a column of crofts, from croft row `cr` with `k` hops already made in it. -/
def colSegs : Nat → Nat → Nat → Nat → Nat → Nat → List (Nat × Nat) × Nat × Nat
  | 0, _, _, _, y, k => ([], y, k)
  | fuel + 1, cr, cc, tcr, y, k =>
    if cr < tcr then
      let r := colSegs fuel (cr + 1) cc tcr 0 0
      ((cr * 16 + cc, k + (15 - y) + 1) :: r.1, r.2)
    else if tcr < cr then
      let r := colSegs fuel (cr - 1) cc tcr 15 0
      ((cr * 16 + cc, k + y + 1) :: r.1, r.2)
    else ([], y, k)

/-- R27: the segments of the route between two cores, each with its croft. -/
def routeSegs (a b : Nat) : List (Nat × Nat) :=
  let cr := croftOf a / 16
  let tcr := croftOf b / 16
  let tcc := croftOf b % 16
  let r := rowSegs 16 cr (croftOf a % 16) tcc (colOf a % 20)
  let k := if r.2 < colOf b % 20 then colOf b % 20 - r.2 else r.2 - colOf b % 20
  let q := colSegs 16 cr tcc tcr (rowOf a % 16) k
  let y := q.2.1
  let ty := rowOf b % 16
  r.1 ++ q.1 ++ [(croftOf b, q.2.2 + (if y < ty then ty - y else y - ty))]

/-- Ticks of `x` cycles of a croft, rounded up. -/
def State.ceilTk (s : State) (croft x : Nat) : Nat := ceilDiv (20 * x) (unitsPerTick (s.opOf croft))

/-- Each crossing's 2 + S, and each following segment's ticks: the segments after the first one, with the crofts before. -/
def State.legs (s : State) : List (Nat × Nat) → List (Nat × Nat)
  | a :: b :: t => (2 + s.slack a.1 (sideTo a.1 b.1), s.ceilTk b.1 b.2) :: State.legs s (b :: t)
  | _ => []

/-- The anchor core of a croft (R28). -/
def anchor (c : Nat) : Nat := coreAt (c / 16 * 16 + 7) (c % 16 * 20 + 10)
/-- The edge router in a core's own row beside a floor (R27). -/
def edgeOf (core floor : Nat) : Nat := coreAt (rowOf core) (if floor = 0 then 0 else 319)

/-- A distance table entry (R28). -/
structure Dist where
  xing : Nat
  exit : Nat
  cycOut : Nat
  cycBack : Nat
  tkOut : Nat
  tkBack : Nat
  valid : Bool
  deriving DecidableEq, Repr

/-- Every croft of a route runs. -/
def State.routeRuns (s : State) (l : List (Nat × Nat)) : Bool := l.all (fun p => s.croftPresent p.1 && s.holdRuns (holdingOf p.1))

/-- The entry of a croft and a target: 0-47 landing ports, 48 and 49 the floors (R28, R29). -/
def State.dist (s : State) (c x : Nat) : Dist :=
  let floor := decide (48 ≤ x)
  let e := if floor then edgeOf (anchor c) (x - 48) else portCore x
  let out := routeSegs (anchor c) e
  let back := if floor then [] else routeSegs e (anchor c)
  let side := if x = 48 then 4 else 2
  let up := if floor then decide (s.floorState (x - 48) ≠ 3) else s.portReachable x
  if !(s.routeRuns out && s.routeRuns back && up) then ⟨0, 0, 0, 0, 0, 0, false⟩
  else
    let first := (out.head?.map Prod.snd).getD 0 + (if floor ∧ out.length = 1 then 1 else 0)
    -- into a floor the last segment ends in one more write and crossing
    let out' := if floor then out.dropLast ++ (out.getLast?.map (fun p => (p.1, p.2 + 1))).toList else out
    let lo := s.legs out'
    let fl := if floor then 2 + s.slack (croftOf e) side else 0
    let lb := s.legs back
    let exit := match out with
      | a :: b :: _ => sideTo a.1 b.1
      | _ => if floor then side else 0
    { xing := lo.length + b2n floor, exit := exit, cycOut := first
      cycBack := (back.getLast?.map Prod.snd).getD 0
      tkOut := (lo.map (fun p => p.1 + p.2)).sum + fl
      tkBack := if lb.isEmpty then 0
        else (match back with
          | a :: _ => s.ceilTk a.1 a.2
          | [] => 0) + (lb.map Prod.fst).sum + (lb.dropLast.map Prod.snd).sum
      valid := true }

/-! ### Tables (R30-R32) -/

/-- R30, R31: a rebuild. The first copy counts as one (DESIGN CHOICE, log entry 52). -/
def State.rebuild (s : State) : State := if s.rd Reg.GEO_CTL.READY = 1 then s.incWrap Reg.GEO_CTL.GEN 1 else s

/-- Fallow cores of a croft. -/
def State.fallowIn (s : State) (c : Nat) : Nat := ((coresOfCroft c).filter (fun i => s.fallow i)).length

/-- What a field of the croft table shows (R31). -/
def State.croftEntry (s : State) (f : Fld) (c : Nat) : Nat :=
  if !s.croftPresent c then 0
  else if f = Reg.CROFT_TABLE.PRESENT then 1
  else if f = Reg.CROFT_TABLE.HOLDING then holdingOf c
  else if f = Reg.CROFT_TABLE.FALLOW_COUNT then s.fallowIn c
  else if f = Reg.CROFT_TABLE.ENCLOSURE then ((s.enclOf c).orElse (fun _ => s.transitOf c)).getD 0
  else if f = Reg.CROFT_TABLE.ENCLOSED then b2n (s.enclOf c).isSome
  else if f = Reg.CROFT_TABLE.OP then s.opOf c
  else if f = Reg.CROFT_TABLE.TRANSIT then b2n ((s.enclOf c).isNone && (s.transitOf c).isSome)
  else if f = Reg.CROFT_TABLE.S_N then s.slack c 1
  else if f = Reg.CROFT_TABLE.S_E then s.slack c 2
  else if f = Reg.CROFT_TABLE.S_S then s.slack c 3
  else if f = Reg.CROFT_TABLE.S_W then s.slack c 4
  else s.rd f 0 c

/-- What a geography register shows: zero until the first copy is visible (R30, R31). -/
def State.geoShown (s : State) (f : Fld) (j : Nat) : Nat :=
  if s.rd Reg.GEO_CTL.READY = 0 then 0
  else if f.off = 0x1000 then s.croftEntry f j
  else if f.off = 0x2000 then
    (if !s.holdPresent j then 0 else if f = Reg.HOLDING_TABLE.PRESENT then 1
     else if f = Reg.HOLDING_TABLE.STATE then s.rd Reg.PWR_DOM.CUR (j := j) else s.rd Reg.HOLD_OP.CUR (j := j))
  else if f.off = 0x3000 then
    (if f = Reg.PORT_TABLE.CROFT then (if s.tabkoPresent j then portCroft j else 0)
     else if f = Reg.PORT_TABLE.PRESENT then b2n (s.tabkoPresent j) else b2n (s.portReachable j))
  else if f.off = 0x4000 then
    (List.range 64).foldl (fun a k => if s.corePresent (64 * j + k) ∧ s.fallow (64 * j + k) then a + 2 ^ k else a) 0
  else if f.off = 0x10000 then
    let d := s.dist (j / 50) (j % 50)
    if f = Reg.DIST.XING then d.xing else if f = Reg.DIST.EXIT then d.exit else if f = Reg.DIST.CYC_OUT then d.cycOut
    else if f = Reg.DIST.CYC_BACK then d.cycBack else if f = Reg.DIST.TK_OUT then d.tkOut
    else if f = Reg.DIST.TK_BACK then d.tkBack else b2n d.valid
  else if f = Reg.GEO_CTL.CROFTS then ((List.range 256).filter (fun c => s.croftPresent c)).length
  else if f = Reg.GEO_CTL.HOLDINGS then ((List.range 16).filter (fun c => s.holdPresent c)).length
  else if f = Reg.GEO_CTL.TABKOS then ((List.range 48).filter (fun c => s.tabkoPresent c)).length
  else if f = Reg.GEO_CTL.PORTS then ((List.range 16).filter (fun c => s.portPresent c)).length
  else s.rd f 0 j

end Sys2Proof.Machine
end

