-- ==== Sys2Proof/Machine/Csr.lean ====
section
/-! DEFINITION. Reading and writing registers by address (R4, R12-R15, R33): which fields an address holds, what a read
shows and clears, which writes take effect. -/

namespace Sys2Proof.Machine

/-- The block and unit an address belongs to (R33); a check-value unit counts as tabko × 4 + unit (R503). -/
def locate (a : Nat) : Option (Block × Nat) :=
  if 0x200010000000 ≤ a ∧ a < 0x200010000000 + 81920 * 0x1000 then some (.core, (a - 0x200010000000) / 0x1000)
  else if 0x200001000000 ≤ a ∧ a < 0x200002000000 then some (.croft, (a - 0x200001000000) / 0x10000)
  else if 0x200040000000 ≤ a ∧ a < 0x200040000000 + 48 * 0x100000 then
    let t := (a - 0x200040000000) / 0x100000
    let o := (a - 0x200040000000) % 0x100000
    if 0x2000 ≤ o ∧ o < 0x2080 then some (.cvu, t * 4 + (o - 0x2000) / 0x40) else some (.tabko, t)
  else if 0x200050000000 ≤ a ∧ a < 0x200051000000 then some (.port, (a - 0x200050000000) / 0x100000)
  else if 0x200060000000 ≤ a ∧ a < 0x200060800000 then some (.floor, (a - 0x200060000000) / 0x400000)
  else if 0x200060800000 ≤ a ∧ a < 0x200061000000 then some (.gleaner, 0)
  else if 0x200070000000 ≤ a ∧ a < 0x200071000000 then some (.yosal, 0)
  else if 0x200000800000 ≤ a ∧ a < 0x200000880000 then some (.geo, 0)
  else if 0x200000880000 ≤ a ∧ a < 0x200000900000 then some (.fault, 0)
  else if 0x200000900000 ≤ a ∧ a < 0x200000A00000 then some (.fur, 0)
  else if 0x200000A00000 ≤ a ∧ a < 0x200000B00000 then some (.clk, 0)
  else if 0x200000B00000 ≤ a ∧ a < 0x200000C00000 then some (.reeve, 0)
  else if 0x200000C00000 ≤ a ∧ a < 0x200000D00000 then some (.yoke, 0)
  else if 0x200000D00000 ≤ a ∧ a < 0x200000E00000 then some (.pwr, 0)
  else if 0x200000E00000 ≤ a ∧ a < 0x200000F00000 then some (.boot, 0)
  else if 0x200000F00000 ≤ a ∧ a < 0x200001000000 then some (.bist, 0)
  else none

/-- The register of the group that lies at an address of unit `i`, if one does. -/
def Fld.at? (f : Fld) (i a : Nat) : Option Nat :=
  let b := f.blk.base i + f.off
  if b ≤ a ∧ f.stride ≠ 0 ∧ (a - b) % f.stride = 0 ∧ (a - b) / f.stride < f.count then some ((a - b) / f.stride) else none

/-- The fields at an address, each with its unit and register number. -/
def fieldsAt (a : Nat) : List (Fld × Nat × Nat) :=
  match locate a with
  | none => []
  | some (b, i) => (Reg.fieldsOf b).filterMap (fun f => (f.at? i a).map (fun j => (f, i, j)))

/-- The unit of an address is present (R4). -/
def State.unitPresent (s : State) (b : Block) (i : Nat) : Bool :=
  match b with
  | .core => s.corePresent i
  | .croft => s.croftPresent i
  | .tabko => s.tabkoPresent i
  | .cvu => s.tabkoPresent (i / 4)
  | .port => s.portPresent i
  | _ => true

/-- Fields that take writes from the steading alone: every field of the registers their rules name so. -/
def steadingOnly (f : Fld) : Bool :=
  match f.blk with
  | .fur => true
  | .core => decide (f.off = 0x000) || decide (f.off = 0x110) || decide (f.off = 0x300) || decide (f.off = 0x328) ||
      decide (f = Reg.DRL_RUN.RESUME) || decide (f = Reg.DRL_RUN.FAIL) || decide (f = Reg.DRL_RUN.ABORT)
  | _ => decide (f = Reg.MESH_CTL.MCAST_HOLD) || decide (f = Reg.CLK_MON.WARN_LIMIT) || decide (f.blk = .croft ∧ f.off = 0x120) ||
      decide (f = Reg.TBK_SCRUB.EN) || decide (f = Reg.PWR_LIMIT.TJ_WARN)

/-- The gate registers, which take writes from the owning core's hand and from the steading (R130, R141). -/
def gateReg (f : Fld) : Bool := decide (f.blk = .core) && ((decide (0x400 ≤ f.off) && decide (f.off ≤ 0x408)) || decide (f.off = 0x500))

/-- Fields whose write does more than set a value. -/
def ownRow (f : Fld) : Bool :=
  decide (f = Reg.EVR_CTL.EN) || decide (f = Reg.EVR_CI.CI) || decide (f = Reg.TLY_BIND.TALLY_ID) ||
  decide (f = Reg.TLY_BIND.BOUND) || decide (f = Reg.TLY_BIND.SIGMA) || decide (f = Reg.YEP_WATCH_B.EN) ||
  decide (f = Reg.BLN_CTL.EN) || decide (f = Reg.LED_SEL.SEQ)

/-- A floor's domain is OFF: its registers read as zero (chapter 14). -/
def State.floorOff (s : State) (f : Nat) : Bool := decide (s.floorState f = 3)

/-- The requester may change the field in the present state. -/
def State.mayWrite (s : State) (who : Requester) (f : Fld) (i j : Nat) (v : Nat) : Bool :=
  (match who with
   | .steading => true
   | .companion => !steadingOnly f && !gateReg f
   | .hand c => decide (f.blk = .core) && decide (i = c.val) && !steadingOnly f) &&
  !(decide (f = Reg.EVR_CTL.BASE ∨ f = Reg.EVR_CTL.SIZE) && decide (s.rd Reg.EVR_CTL.EN i j = 1)) &&
  !(decide (f = Reg.YEP_WATCH_A.LINE ∨ f = Reg.YEP_WATCH_B.ENCL ∨ f = Reg.YEP_WATCH_B.CORE ∨ f = Reg.YEP_WATCH_B.CNT) &&
    decide (s.rd Reg.YEP_WATCH_B.EN i j = 1)) &&
  !(decide (f = Reg.YEP_WATCH_B.ENCL) && decide (j < 18)) &&
  !(decide (f = Reg.GLN_CTL.K) && decide (16 < v)) && !(decide (f.blk = .floor) && (s.floorOff i || (decide (f.off = 0x8000) && decide (i = 1)))) &&
  !(decide (f = Reg.YK_CTL.HB_PERIOD ∨ f = Reg.YK_CTL.HB_MISS) && decide (v = 0))

/-- R12: one field of a register written with `v`: RW sets, W1C clears on 1, STG stages; RO, RC and WO change nothing here
(what a WO field starts has a row of its own). -/
def State.writeFld (s : State) (who : Requester) (f : Fld) (i j v : Nat) : State :=
  if ownRow f then s
  else if s.mayWrite who f i j v then
    match f.acc with
    | .rw => s.wr f v i j
    | .w1c => if v % 2 ^ f.width = 1 then s.wr f 0 i j else s
    | .wo => if f = Reg.GNT_PW.DATA then s.wr f v i j else s
    | .stg => { s with stagedF := Store.put s.stagedF (f.key i j) (v % 2 ^ f.width) }
    | _ => s
  else s

/-- R12-R15: a write of a register: every field of it by its access code; an absent unit ignores it (R4). -/
def State.writeReg (s : State) (who : Requester) (a : Nat) (value : Nat) : State :=
  match locate a with
  | none => s
  | some (b, i) =>
    if s.unitPresent b i then
      (fieldsAt a).foldl (fun t p => t.writeFld who p.1 p.2.1 p.2.2 (bits value p.1.lo p.1.width)) s
    else s

/-- Preset 0 of the check-value units, fixed in every Tabko (R497). -/
def presetZero (f : Fld) : Nat :=
  if f = Reg.CVU_PRE.WIDTH then 32 else if f = Reg.CVU_PREPOLY.VALUE then 0x1EDC6F41
  else if f = Reg.CVU_PREINIT.VALUE ∨ f = Reg.CVU_PREXOROUT.VALUE then 0xFFFFFFFF else 1

/-- Span number of a Tabko (R284). -/
def State.spanIndex (s : State) (t : Nat) : Nat := ((List.range t).filter (fun k => s.tabkoPresent k)).length
/-- What a field shows where it does not show the value it was last given (R117: hand registers of a running core, and of one of a
killed enclosure until its wipe, read zero). -/
def State.shown (s : State) (f : Fld) (i j : Nat) : Nat :=
  if f = Reg.HND_H.VALUE then (if s.rd Reg.HND_STAT.HALTED i = 1 ∧ !s.killed i then (s.h i j).toNat else 0)
  else if f = Reg.ARR_STAT.COLD then b2n (s.cold i 0)
  else if f = Reg.ARR_STAT.BUSY then b2n (s.arrBusy i)
  else if f = Reg.FUR_STAT.CATCH then s.catchNow i 0
  else if f = Reg.FUR_STAT.HELD then b2n (s.heldNow i)
  else if f = Reg.FUR_STAT.HOLDCYC then s.rd f i + s.heldCycles i 0
  else if f = Reg.FUR_BEAT.RBEAT then (s.ringBeat i 0).toNat
  else if f = Reg.FUR_BEAT.RUN then b2n (s.furRuns i)
  else if f = Reg.ALM_EST.TICK then (if (s.croft i).clock then s.estTick i else Config.idleEst i s.now % 2 ^ 48)
  else if f = Reg.ALM_EST.UNITS then
    (if (s.croft i).clock then s.estUnits i % unitsPerTick (s.opOf i) else Config.idleEst i s.now / 2 ^ 48 % unitsPerTick (s.opOf i))
  else if f = Reg.PWR_DOM.BUSY then (if s.power.chg.any (fun c => decide (c.dom = j) && decide (s.now < c.start)) then 0 else s.rd f i j)
  else if f = Reg.CLK_STAT.OP then s.opOf i
  else if f = Reg.LAG_COUNT.TICKS then s.rd f i j + s.stallTicks i
  else if f = Reg.CLK_STAT.SLEWING then b2n (decide ((s.croft i).slew ≠ 0))
  else if f.blk = .geo then s.geoShown f j
  else if f.blk = .floor then (if s.floorOff i then 0 else if f.acc = .wo then 0 else if f.off = 0x8000 then s.rd f 0 j
      else if f = Reg.FLR_STAT.FOLD_WAIT then s.rd f i + (((Store.getD s.floors i FloorX.init).full.map (fun t => s.now - t)).getD 0) else s.rd f i j)
  else if f.acc = .wo then 0
  else if f = Reg.REEVE_STAT.IN_USE then
    (List.range 16).foldl (fun a n => if s.rd Reg.ENCL_STATE.STATE 0 n = 0 then a else a + 2 ^ n) 0
  else if f = Reg.YEP_WATCH_B.KIND then (if j ≤ 15 then 0 else min (j - 15) 3)
  else if f.blk = .bist ∧ (f = Reg.LED_SEL.SEQ ∨ f = Reg.LED_REC.WORD) then (if s.serviceOk then s.rd f i j else 0)
  else if f = Reg.LED_CNT.BLOCK then (if s.lc = 4 then 0 else s.rd f i j)
  else if f = Reg.TBK_ID.PRESENT ∨ f = Reg.BLN_STAT.PRESENT then 1
  else if f = Reg.TBK_ID.INDEX then s.spanIndex i
  else if f.blk = .tabko ∧ j = 0 ∧ 0x2100 ≤ f.off then presetZero f
  else if (f.off = 0x100 ∧ (f.blk = .clk ∨ f.blk = .pwr) ∨ f.off = 0x200 ∧ f.blk = .pwr) ∧ j < 16 ∧ !s.holdPresent j then 0
  else s.rd f i j

/-- R12: the value a read of a register returns. -/
def State.readReg (s : State) (a : Nat) : Nat :=
  match locate a with
  | none => 0
  | some (b, i) =>
    if s.unitPresent b i then
      (fieldsAt a).foldl (fun t p => t + s.shown p.1 p.2.1 p.2.2 % 2 ^ p.1.width * 2 ^ p.1.lo) 0
    else 0

/-- R12: the state after a read: RC fields are cleared. -/
def State.afterRead (s : State) (a : Nat) : State :=
  (fieldsAt a).foldl (fun t p => if p.1.acc = .rc then t.wr p.1 0 p.2.1 p.2.2 else t) s

/-- A read of one register, kept in `readData`, with its RC fields cleared. -/
def State.readOut (s : State) (a : Nat) : State :=
  { s.afterRead a with readData := leBytes 8 (s.readReg a) }

/-- GATE_STAT_READ (R141): a read of GATE_STAT_g returns STALE and then clears it. -/
def execGateStatRead (core : CoreId) (gate : GateId) (s : State) : Host.Outcome State Fault Refusal :=
  .next (s.readOut (Reg.GATE_STAT.STALE.addr core.val gate.val))

/-- GCR_LOST_READ (R141): a read of GCR_LOST returns LOST and then clears it. -/
def execGcrLostRead (core : CoreId) (s : State) : Host.Outcome State Fault Refusal :=
  .next (s.readOut (Reg.GCR_LOST.LOST.addr core.val 0))

/-- LAG_COUNT_READ (R241): a read of LAG_COUNT returns LAGS and then clears it. -/
def execLagCountRead (croft : CroftId) (s : State) : Host.Outcome State Fault Refusal :=
  .next (s.readOut (Reg.LAG_COUNT.LAGS.addr croft.val 0))

end Sys2Proof.Machine
end

