-- ==== Sys2Proof/Machine/Scratchpad.lean ====
section
/-! DEFINITION. The scratchpad's own commands (chapter "The scratchpad"): starting and stopping a core, classes and
re-encoding, the scrub, gates and grants, the lock and the wipe. -/

namespace Sys2Proof.Machine

/-! ### Gates (R129-R134) -/

/-- The gate is OPEN. -/
def State.gateOpen (s : State) (core g : Nat) : Bool := s.rd Reg.GATE_EPOCH.OPEN core g = 1

/-- CLOSE (R130): the state becomes CLOSED and the epoch increments; ignored if already CLOSED. -/
def State.closeGate (s : State) (core g : Nat) : State :=
  if s.gateOpen core g then
    (s.wr Reg.GATE_EPOCH.OPEN 0 core g).setEpoch core g (s.rd Reg.GATE_EPOCH.EPOCH core g + 1)
  else s

/-- OPEN (R130): ignored if already OPEN or if SIZE = 0, and while the lock holds every gate CLOSED (R135); LANDED counts from here. -/
def State.openGate (s : State) (core g : Nat) : State :=
  if s.gateOpen core g ∨ s.rd Reg.GATE_WIN.SIZE core g = 0 ∨ s.rd Reg.SP_STAT.LOCKED core = 1 then s
  else (s.wr Reg.GATE_EPOCH.OPEN 1 core g).wr Reg.GATE_STAT.LANDED 0 core g

/-- Two windows share a byte. -/
def overlap (b1 n1 b2 n2 : Nat) : Bool := decide (b1 < b2 + n2) && decide (b2 < b1 + n1) && decide (0 < n1) && decide (0 < n2)

/-- COMMIT of a gate's window (R130, R13). -/
def State.commitGate (s : State) (core g : Nat) : State :=
  let fs := [Reg.GATE_WIN.BASE, Reg.GATE_WIN.SIZE]
  if !s.anyStaged fs core g then s
  else
    let b := s.stg Reg.GATE_WIN.BASE core g
    let n := s.stg Reg.GATE_WIN.SIZE core g
    let clear := (List.range 8).all (fun k =>
      decide (k = g) || !overlap b n (s.rd Reg.GATE_WIN.BASE core k) (s.rd Reg.GATE_WIN.SIZE core k))
    if !s.gateOpen core g && decide (b % 256 = 0) && decide (n % 256 = 0) && decide (b + n ≤ 0x40000) && clear then
      s.applyAll fs core g
    else
      (s.dropAll fs core g).raiseCore core 0x01 (Reg.GATE_OP.COMMIT.addr core g)

/-- A CTL packet from a core: a grant (R130, R179) or a SYNC (R239). -/
def State.ctlPacket (s : State) (core ty dst body : Nat) : Packet :=
  { ty := ty, vc := 3, dkind := 0, dst := dst, skind := 0, src := core, encl := (s.enclOfCore core).getD 0, tag := 0,
    tick := s.estTick (croftOf core) % 2 ^ 16, status := 0, kcopy := false, body := body, via := 0, tree := [], data := [],
    poison := [] }

/-- GATE_GRANT write (R130): units stamped with the current epoch go to core DEST; only while OPEN and UNITS > 0. -/
def State.grantGate (s : State) (core g dest units : Nat) : State :=
  if s.gateOpen core g ∧ 0 < units then
    let p := s.ctlPacket core 0xA dest (units + g * 2 ^ 8 + s.rd Reg.GATE_EPOCH.EPOCH core g * 2 ^ 24)
    s.modCore core (fun c => { c with ctl := c.ctl ++ [p] })
  else s

/-- GATE_COMMIT: a gate's staged BASE and SIZE take effect, or CFG_MISMATCH is raised (R130). -/
def execGateCommit (core : CoreId) (gate : GateId) (s : State) : Host.Outcome State Fault Refusal :=
  .next (s.commitGate core.val gate.val)
/-- GATE_OPEN (R130). -/
def execGateOpen (core : CoreId) (gate : GateId) (s : State) : Host.Outcome State Fault Refusal :=
  .next (s.openGate core.val gate.val)
/-- GATE_CLOSE (R130). -/
def execGateClose (core : CoreId) (gate : GateId) (s : State) : Host.Outcome State Fault Refusal :=
  .next (s.closeGate core.val gate.val)
/-- GATE_GRANT (R130). -/
def execGateGrant (core : CoreId) (gate : GateId) (dest : BitVec 17) (units : BitVec 8) (s : State) :
    Host.Outcome State Fault Refusal :=
  .next (s.grantGate core.val gate.val dest.toNat units.toNat)

/-! ### The drills' limits (R201) -/

/-- COMMIT of DRL_CFG: each limit at most 8, their sum at most 16, and every drill whose limit changes idle with nothing
pending. -/
def State.commitDrlCfg (s : State) (core : Nat) : State :=
  let fs := [Reg.DRL_CFG.OUT0, Reg.DRL_CFG.OUT1, Reg.DRL_CFG.OUT2, Reg.DRL_CFG.OUT3]
  if !s.anyStaged fs core then s
  else
    let v := fs.map (fun f => s.stg f core)
    let idle (d : Nat) : Bool := decide (s.rd Reg.DRL_STAT.STATE core d = 0) && decide (s.rd Reg.DRL_STAT.PEND core d = 0)
    let same (d : Nat) : Bool := match fs[d]? with
      | some f => decide (s.stg f core = s.rd f core)
      | none => true
    if v.all (fun x => decide (x ≤ 8)) && decide (v.sum ≤ 16) && [0, 1, 2, 3].all (fun d => same d || idle d) then
      s.applyAll fs core
    else (s.dropAll fs core).raiseCore core 0x01 (Reg.DRL_CFG.COMMIT.addr core 0)

/-- DRL_CFG_COMMIT (R201). -/
def execDrlCfgCommit (core : CoreId) (s : State) : Host.Outcome State Fault Refusal := .next (s.commitDrlCfg core.val)

/-! ### Start and stop (R117) -/

/-- START (R117): a halted core starts at ENTRY; ignored while it is fallow, locked, being wiped or re-encoded. -/
def State.startCore (s : State) (core : Nat) : State :=
  if s.rd Reg.HND_STAT.HALTED core = 1 ∧ !s.fallow core ∧ s.rd Reg.SP_STAT.LOCKED core = 0 ∧
      s.rd Reg.SP_STAT.WIPE_BUSY core = 0 ∧ s.rd Reg.SP_STAT.RECLASS_BUSY core = 0 ∧ s.corePresent core then
    (((s.wr Reg.HND_STAT.HALTED 0 core).wr Reg.HND_STAT.PC (s.rd Reg.HND_CTL.ENTRY core) core).wr
      Reg.HND_CYC.CYCLES 0 core).modCore core (fun c => { c with hold := .none, arrived := false })
  else s

/-- START (R117). -/
def execStart (core : CoreId) (s : State) : Host.Outcome State Fault Refusal := .next (s.startCore core.val)

/-- STOP (R117): the steading halts a core with CAUSE 4. -/
def execStop (core : CoreId) (s : State) : Host.Outcome State Fault Refusal :=
  .next (if s.corePresent core.val then s.haltCore core.val 4 else s)

/-! ### Classes (R126) -/

/-- The harrow of a core works in its croft's cycles (R137, R233, R236). -/
def State.harrowRuns (s : State) (core : Nat) : Bool := s.croftLive (croftOf core)

/-- The segments to re-encode for a new class mask, each with the class its contents have: with a re-encoding under way, the one they
had before it (R126). -/
def State.changedSegs (s : State) (core new : Nat) : List (Nat × Bool) :=
  (List.range 16).filterMap (fun k =>
    let had := match (s.core core).reclass.find? (fun p => decide (p.1 = k)) with
      | some p => p.2
      | none => decide (bits (s.rd Reg.SP_CLASS.CLASS core) k 1 = 1)
    if had = decide (bits new k 1 = 1) then none else some (k, had))

/-- SP_CLASS_COMMIT (R126, R13): the core must be halted with no wipe pending; then the harrow re-encodes every segment
whose class changed. -/
def execSpClassCommit (core : CoreId) (s : State) : Host.Outcome State Fault Refusal :=
  let i := core.val
  if !s.isStaged Reg.SP_CLASS.CLASS i ∨ !s.corePresent i then .next s
  else if s.rd Reg.HND_STAT.HALTED i = 1 ∧ s.rd Reg.SP_STAT.WIPE_BUSY i = 0 then
    let ch := s.changedSegs i (s.stg Reg.SP_CLASS.CLASS i)
    let s1 := (s.applyStg Reg.SP_CLASS.CLASS i).modCore i (fun c => { c with reclass := ch })
    .next (s1.wr Reg.SP_STAT.RECLASS_BUSY (b2n (!ch.isEmpty)) i)
  else .next ((s.unstage Reg.SP_CLASS.CLASS i).raiseCore i 0x01 (Reg.SP_CLASS.COMMIT.addr i 0))

/-- One 16 B word re-encoded from its old class to the new one (R126): corrected, or stored so that it reads as
uncorrectable. -/
def State.reencodeWord (s : State) (core off : Nat) (oldW : Bool) : State :=
  let e0 := s.wordErr core off
  let e1 := s.wordErr core (off + 8)
  if e0 = 0 ∧ e1 = 0 then s
  else
    let bad0 : Bool := decide (e0 = 2)
    let bad1 : Bool := if oldW then bad0 else decide (e1 = 2)
    let cleared := (s.setErr core off 0).setErr core (off + 8) 0
    let marked :=
      if oldW then (if bad0 then (cleared.setErr core off 2).setErr core (off + 8) 2 else cleared)
      else if bad0 || bad1 then cleared.setErr core off 2 else cleared
    if oldW then (if bad0 then marked.uncorrectable core off 7 else marked.correctedW core)
    else
      let s1 := marked.incSat Reg.SP_ECC.A_CORR (b2n (decide (e0 = 1)) + b2n (decide (e1 = 1))) core
      let s2 := if bad0 then s1.uncorrectable core off 7 else s1
      if bad1 then s2.uncorrectable core (off + 8) 7 else s2

/-- R126: the segments of a list are re-encoded in ascending order: only a word with an error in it changes more than its check. -/
def State.reencodeSegs (s : State) (core : Nat) (segs : List (Nat × Bool)) : State :=
  segs.foldl (fun t p =>
    let lo := spAddr core (p.1 * 0x4000)
    let words := ((t.errs.filter (fun e => decide (lo ≤ e.1) && decide (e.1 < lo + 0x4000))).map (fun e => (e.1 - spAddr core 0) / 16 * 16)).eraseDups
    words.foldl (fun u off => u.reencodeWord core off p.2) t) s

/-- RE_ENCODING_DONE (R126): the last changed segment is re-encoded and RECLASS_BUSY clears. -/
def execReEncodingDone (core : CoreId) (s : State) : Host.Outcome State Fault Refusal :=
  let i := core.val
  if s.rd Reg.SP_STAT.RECLASS_BUSY i = 1 ∧ s.harrowRuns i then
    .next (((s.reencodeSegs i (s.core i).reclass).modCore i (fun c => { c with reclass := [] })).wr Reg.SP_STAT.RECLASS_BUSY 0 i)
  else .next s

/-! ### Scrub (R127) -/

/-- The corrected words of the last block read are stored; a word that a write has since given a fresh check is left (R127). -/
def State.scrubStore (s : State) (core : Nat) : State :=
  match (s.core core).scrubBack with
  | none => s
  | some off =>
    [off, off + 16].foldl (fun t cw => if t.wordErr core cw = 1 then t.setErr core cw 0 else t)
      (s.modCore core (fun c => { c with scrubBack := none }))

/-- The next W-class 32 B block at or after an offset (R127). -/
def State.scrubNext (s : State) (core pos : Nat) : Option Nat :=
  ((List.range 16).map (fun k => if k = pos / 0x4000 then pos else k * 0x4000)).find? (fun o =>
    decide (pos ≤ o) && s.wClass core o && decide (o < 0x40000))

/-- SCRUB_READ (R127, R124, R125): with the scrub enabled and neither a wipe nor a re-encoding running, the harrow reads the
next 32 B of the W-class segments; `found` names the words (0 or 1, of 16 B) in which it meets a new error, and whether the
error is uncorrectable. Correctable words are written back in the harrow's next slot 7 cycle, by SCRUB_WRITEBACK or before the next
read. -/
def execScrubRead (core : CoreId) (found : List (Fin 4 × Bool)) (s : State) : Host.Outcome State Fault Refusal :=
  let i := core.val
  if s.rd Reg.SP_SCRUB.EN i = 1 ∧ s.rd Reg.SP_STAT.WIPE_BUSY i = 0 ∧ s.rd Reg.SP_STAT.RECLASS_BUSY i = 0 ∧
      s.corePresent i ∧ s.harrowRuns i then
    let s := s.scrubStore i
    let pos := (s.core i).scrub
    match (s.scrubNext i pos).orElse (fun _ => s.scrubNext i 0) with
    | none => .next s
    | some off =>
      let s0 := found.foldl (fun t p =>
        let cw := off + p.1.val % 2 * 16
        t.setErr i cw (if p.2 ∨ t.wordErr i cw = 2 then 2 else 1)) s
      let last := (s.scrubNext i (off + 32)).isNone
      let s1 := if last then s0.incWrap Reg.SP_SCRUB.PASSES 1 i else s0
      let s2 := (s1.touch i off 7).touch i (off + 16) 7
      let back := if s2.wordErr i off = 1 ∨ s2.wordErr i (off + 16) = 1 then some off else none
      .next (s2.modCore i (fun c => { c with scrub := if last then 0 else off + 32, scrubBack := back }))
  else .next s

/-- SCRUB_WRITEBACK (R127). -/
def execScrubWriteback (core : CoreId) (s : State) : Host.Outcome State Fault Refusal :=
  .next (if s.harrowRuns core.val then s.scrubStore core.val else s)

/-! ### Who reaches a scratchpad (R135) -/

/-- Requesters of slot 7 beside the gates and the harrow (R118, R135). -/
inductive PadUser where
  | steading
  | companion
  | instrument
  deriving DecidableEq, Repr

/-- The requester in DETAIL of SP_DENIED (R490). -/
def PadUser.code (u : PadUser) : Nat := match u with
  | .steading => 1
  | .companion => 2
  | .instrument => 3
/-- R135: the core has halted and no lock holds; a test instrument also needs a life-cycle state that opens instruments (R456) and a core
of no enclosure (R457). -/
def State.padPermits (s : State) (u : PadUser) (core : Nat) : Bool :=
  decide (s.rd Reg.HND_STAT.HALTED core = 1) && decide (s.rd Reg.SP_STAT.LOCKED core = 0) && decide (s.rd Reg.SP_STAT.WIPE_BUSY core = 0) &&
  (decide (u ≠ .instrument) || (s.instruments && (s.enclOfCore core).isNone))
/-- SP_DENIED of a refused access (R135, R490). -/
def State.padDenied (s : State) (u : PadUser) (core off : Nat) : State := s.raiseCore core 0x43 (off + u.code * 2 ^ 18)

/-! ### The lock and the wipe (R136-R139, R493) -/

/-- Remove every value of the fields given, in unit `i`, for every register of the group: they read as at reset. -/
def State.clearFields (s : State) (fs : List Fld) (i : Nat) : State :=
  fs.foldl (fun t f => (List.range f.count).foldl (fun u j => u.wr f f.reset i j) t) s

/-- The registers a wipe clears (R116, R137, R493, R238). -/
def wipedFields : List Fld :=
  [Reg.HND_H.VALUE, Reg.VEC_VL.VL, Reg.VSTAT.OOR, Reg.VSTAT.ISAT, Reg.VSTAT.FSAT, Reg.VEC_SRSEQ.SEQ, Reg.HND_ILL.WORD,
   Reg.SP_ECC_LOC.OFFSET, Reg.SP_ECC_LOC.SLOT, Reg.SP_ECC_LOC.VALID, Reg.SP_CLASS.CLASS, Reg.GATE_WIN.BASE,
   Reg.GATE_WIN.SIZE, Reg.GCR.UNITS, Reg.GCR.VALID, Reg.DRL_RESUME.I0, Reg.DRL_RESUME.I1, Reg.DRL_RESUME.I2,
   Reg.DRL_RESUME.I3, Reg.DRL_FAULT.VA, Reg.MC_MISS.TARGET, Reg.MC_MISS.TAG, Reg.MC_MISS.VALID, Reg.MC_MISS.DROP_TICK,
   Reg.ARR_STAT.BIN0_INT, Reg.ARR_STAT.BIN1_INT, Reg.TLY_BIND.TALLY_ID, Reg.TLY_BIND.BOUND, Reg.TLY_BIND.CSAT,
   Reg.TLY_BIND.SIGMA, Reg.TLY_CTL.SLOT, Reg.TLY_CTL.FLUSH_BUSY, Reg.TLY_CNT.ZERO, Reg.TLY_CNT.NONFIN, Reg.TLY_CNT.OVF,
   Reg.TLY_CNT.UNF, Reg.TLY_HIST.HIST_LO, Reg.TLY_HIST.HIST_HI, Reg.SYN_CNT.COUNT, Reg.EMIT_STAT.RET_USED,
   Reg.EMIT_STAT.BUSY, Reg.EMIT_STAT.REEMIT, Reg.FUR_STAT.CATCH, Reg.FUR_STAT.INJ_A, Reg.FUR_STAT.INJ_B, Reg.FUR_STAT.CAP]

/-- The whole content of a core is cleared: scratchpad, vector registers, bins, code store, and every record of R493. -/
def State.clearCore (s : State) (core : Nat) : State :=
  let lo := spAddr core 0
  let x := s.core core
  { s with
    mem := Store.eraseRange s.mem lo (lo + 2 ^ 18)
    errs := Store.eraseRange s.errs lo (lo + 2 ^ 18)
    vregs := Store.eraseRange s.vregs (core * 32) (core * 32 + 32)
    bins := Store.eraseRange s.bins (core * 512) (core * 512 + 512)
    code := Store.eraseRange s.code (core * 2048) (core * 2048 + 2048)
    cores := Store.put s.cores core
      { x with
        arrQ := [], mmaPend := none, feed := none, flight := [], rdPend := none, rdRun := none, retry := false, issInt0 := false, issInt1 := false
        injA := none, injApend := none, injB := none, injBpend := none, cap := none, capPend := none, catchUp := none
        flush := none, binds := [], wCorr := false, scrubBack := none, reclass := [], copy := none, staged := [], emit := []
        retention := [], arrived := false } }

/-- R137: the last wipe write; the lock ends; SP_WIPE.COUNT counts the wipe. -/
def State.wipeEnd (s : State) (core : Nat) : State :=
  let s1 := ((s.clearCore core).clearFields wipedFields core).dropAll [Reg.SP_CLASS.CLASS] core
  let s2 := ((s1.wr Reg.SP_STAT.LOCKED 0 core).wr Reg.SP_STAT.WIPE_BUSY 0 core).incWrap Reg.SP_WIPE.COUNT 1 core
  (s2.wr Reg.ARR_STAT.BUSY 0 core).wr Reg.ARR_STAT.QDEPTH 0 core
/-- A wipe from its first cycle to its last. -/
def State.wipeNow (s : State) (core : Nat) : State := (s.wipeStart core false).wipeEnd core

/-- WIPE_DONE (R137): only once any copy has been read; it takes the croft's own cycles, so it waits while they do not run (R222, R233,
R236), and it is not over before the rest of the enclosure halts (4,096 cycles against 4 ticks, R275). -/
def execWipeDone (core : CoreId) (s : State) : Host.Outcome State Fault Refusal :=
  let i := core.val
  let waits : Bool := match s.enclOfCore i with
    | some n => (s.encl n).haltDue.isSome
    | none => false
  .next (if s.rd Reg.SP_STAT.WIPE_BUSY i = 1 ∧ (s.core i).copy = none ∧ s.harrowRuns i ∧ !waits then s.wipeEnd i else s)

end Sys2Proof.Machine
end

