-- ==== Sys2Proof/Machine/Hand.lean ====
section
/-! DEFINITION. The hand's instructions (R97-R99, R111, R115, R116): every operation by its own definition over shared
forms. -/

namespace Sys2Proof.Machine

/-! ### Shared forms -/

/-- R115: reserved bits and the register fields the operation does not use are zero. -/
def handFields (w : HandWord) (useD use1 use2 : Bool) : Bool :=
  decide (w.rsv = 0) && (useD || decide (w.hd = 0)) && (use1 || decide (w.hs1 = 0)) && (use2 || decide (w.hs2 = 0))

/-- An operation on two registers. -/
def handRR (op : BitVec 8) (f : Word → Word → Word) (core : CoreId) (w : HandWord) (s : State) :
    Host.Outcome State Fault Refusal :=
  .next (s.issueNext core.val (w.word op) (handFields w true true true) (fun t =>
    t.setH core.val w.hd.toNat (f (t.hs1 core.val w) (t.hs2 core.val w))))

/-- An operation on a register and the immediate. -/
def handRI (op : BitVec 8) (f : Word → Word → Word) (core : CoreId) (w : HandWord) (s : State) :
    Host.Outcome State Fault Refusal :=
  .next (s.issueNext core.val (w.word op) (handFields w true true false) (fun t =>
    t.setH core.val w.hd.toNat (f (t.hs1 core.val w) (immS w))))

/-- A load of `n` bytes, zero-extended; the address a multiple of `n` (R98, R111). -/
def handLoad (op : BitVec 8) (n : Nat) (core : CoreId) (w : HandWord) (s : State) : Host.Outcome State Fault Refusal :=
  let a := s.hAddr core.val w
  .next (s.issue core.val (w.word op) (handFields w true true false && decide (a % n = 0)) (fun t =>
    let r := t.spRead core.val a n 3
    ((t.setH core.val w.hd.toNat (BitVec.ofNat 64 (leNat r.1))).advance core.val).readEffects core.val a n 3))

/-- A store of the low `n` bytes of hs2 (R98, R111). -/
def handStore (op : BitVec 8) (n : Nat) (core : CoreId) (w : HandWord) (s : State) : Host.Outcome State Fault Refusal :=
  let a := s.hAddr core.val w
  .next (s.issue core.val (w.word op) (handFields w false true true && decide (a % n = 0)) (fun t =>
    (t.advance core.val).spWrite core.val a 5 (leBytes n (t.hs2 core.val w).toNat)))

/-- The instruction continues at a target inside 0-2,047. -/
def State.jump (s : State) (core : Nat) (target : Int) : State := s.wr Reg.HND_STAT.PC target.toNat core

/-- A target is inside the code store (R115). -/
def targetOk (x : Int) : Bool := decide (0 ≤ x) && decide (x ≤ 2047)

/-- A conditional branch: its target is checked whether or not it is taken (R115). -/
def handBranch (op : BitVec 8) (cond : Word → Word → Bool) (core : CoreId) (w : HandWord) (s : State) :
    Host.Outcome State Fault Refusal :=
  let tgt := s.hTarget core.val w
  .next (s.issue core.val (w.word op) (handFields w false true true && targetOk tgt) (fun t =>
    if cond (t.hs1 core.val w) (t.hs2 core.val w) then t.jump core.val tgt else t.advance core.val))

/-! ### The operations (R98) -/

/-- ADD: hd = hs1 + hs2 modulo 2^64. -/
def execAdd (core : CoreId) (w : HandWord) (s : State) : Host.Outcome State Fault Refusal :=
  handRR 0x01#8 (fun a b => a + b) core w s

/-- SUB: hd = hs1 - hs2 modulo 2^64. -/
def execSub (core : CoreId) (w : HandWord) (s : State) : Host.Outcome State Fault Refusal :=
  handRR 0x02#8 (fun a b => a - b) core w s

/-- AND: hd = hs1 AND hs2. -/
def execAnd (core : CoreId) (w : HandWord) (s : State) : Host.Outcome State Fault Refusal :=
  handRR 0x03#8 (fun a b => a &&& b) core w s

/-- OR: hd = hs1 OR hs2. -/
def execOr (core : CoreId) (w : HandWord) (s : State) : Host.Outcome State Fault Refusal :=
  handRR 0x04#8 (fun a b => a ||| b) core w s

/-- XOR: hd = hs1 XOR hs2. -/
def execXor (core : CoreId) (w : HandWord) (s : State) : Host.Outcome State Fault Refusal :=
  handRR 0x05#8 (fun a b => a ^^^ b) core w s

/-- SHL: hd = hs1 shifted left by hs2[5:0]. -/
def execShl (core : CoreId) (w : HandWord) (s : State) : Host.Outcome State Fault Refusal :=
  handRR 0x06#8 (fun a b => a <<< (b.toNat % 64)) core w s

/-- SHR: hd = hs1 shifted right logically by hs2[5:0]. -/
def execShr (core : CoreId) (w : HandWord) (s : State) : Host.Outcome State Fault Refusal :=
  handRR 0x07#8 (fun a b => a >>> (b.toNat % 64)) core w s

/-- SRA: hd = hs1 shifted right arithmetically by hs2[5:0]. -/
def execSra (core : CoreId) (w : HandWord) (s : State) : Host.Outcome State Fault Refusal :=
  handRR 0x08#8 (fun a b => a.sshiftRight (b.toNat % 64)) core w s

/-- SLT: hd = 1 if hs1 < hs2, signed. -/
def execSlt (core : CoreId) (w : HandWord) (s : State) : Host.Outcome State Fault Refusal :=
  handRR 0x09#8 (fun a b => if a.slt b then 1 else 0) core w s

/-- SLTU: hd = 1 if hs1 < hs2, unsigned. -/
def execSltu (core : CoreId) (w : HandWord) (s : State) : Host.Outcome State Fault Refusal :=
  handRR 0x0A#8 (fun a b => if a.ult b then 1 else 0) core w s

/-- MUL: hd = the low 64 bits of hs1 × hs2. -/
def execMul (core : CoreId) (w : HandWord) (s : State) : Host.Outcome State Fault Refusal :=
  handRR 0x0B#8 (fun a b => a * b) core w s

/-- ADDI: hd = hs1 + IMM. -/
def execAddi (core : CoreId) (w : HandWord) (s : State) : Host.Outcome State Fault Refusal :=
  handRI 0x10#8 (fun a i => a + i) core w s

/-- ANDI: hd = hs1 AND IMM. -/
def execAndi (core : CoreId) (w : HandWord) (s : State) : Host.Outcome State Fault Refusal :=
  handRI 0x11#8 (fun a i => a &&& i) core w s

/-- ORI: hd = hs1 OR IMM. -/
def execOri (core : CoreId) (w : HandWord) (s : State) : Host.Outcome State Fault Refusal :=
  handRI 0x12#8 (fun a i => a ||| i) core w s

/-- SHLI: hd = hs1 shifted left by IMM[5:0]. -/
def execShli (core : CoreId) (w : HandWord) (s : State) : Host.Outcome State Fault Refusal :=
  handRI 0x13#8 (fun a i => a <<< (i.toNat % 64)) core w s

/-- SHRI: hd = hs1 shifted right logically by IMM[5:0]. -/
def execShri (core : CoreId) (w : HandWord) (s : State) : Host.Outcome State Fault Refusal :=
  handRI 0x14#8 (fun a i => a >>> (i.toNat % 64)) core w s

/-- SRAI: hd = hs1 shifted right arithmetically by IMM[5:0]. -/
def execSrai (core : CoreId) (w : HandWord) (s : State) : Host.Outcome State Fault Refusal :=
  handRI 0x15#8 (fun a i => a.sshiftRight (i.toNat % 64)) core w s

/-- LIH: hd = IMM << 32 with the lower half of hs1. -/
def execLih (core : CoreId) (w : HandWord) (s : State) : Host.Outcome State Fault Refusal :=
  handRI 0x16#8 (fun a i => (i <<< 32) ||| (a &&& 0xFFFFFFFF#64)) core w s

/-- LD: hd = 8 bytes at hs1 + IMM. -/
def execLd (core : CoreId) (w : HandWord) (s : State) : Host.Outcome State Fault Refusal :=
  handLoad 0x20#8 8 core w s

/-- LDW: hd = 4 bytes at hs1 + IMM. -/
def execLdw (core : CoreId) (w : HandWord) (s : State) : Host.Outcome State Fault Refusal :=
  handLoad 0x22#8 4 core w s

/-- ST: 8 bytes at hs1 + IMM = the low bytes of hs2. -/
def execSt (core : CoreId) (w : HandWord) (s : State) : Host.Outcome State Fault Refusal :=
  handStore 0x21#8 8 core w s

/-- STW: 4 bytes at hs1 + IMM = the low bytes of hs2. -/
def execStw (core : CoreId) (w : HandWord) (s : State) : Host.Outcome State Fault Refusal :=
  handStore 0x23#8 4 core w s

/-- BEQ: PC = PC + IMM if hs1 = hs2. -/
def execBeq (core : CoreId) (w : HandWord) (s : State) : Host.Outcome State Fault Refusal :=
  handBranch 0x30#8 (fun a b => a == b) core w s

/-- BNE: PC = PC + IMM if hs1 ≠ hs2. -/
def execBne (core : CoreId) (w : HandWord) (s : State) : Host.Outcome State Fault Refusal :=
  handBranch 0x31#8 (fun a b => !(a == b)) core w s

/-- BLT: PC = PC + IMM if hs1 < hs2, signed. -/
def execBlt (core : CoreId) (w : HandWord) (s : State) : Host.Outcome State Fault Refusal :=
  handBranch 0x32#8 (fun a b => a.slt b) core w s

/-- BGE: PC = PC + IMM if hs1 ≥ hs2, signed. -/
def execBge (core : CoreId) (w : HandWord) (s : State) : Host.Outcome State Fault Refusal :=
  handBranch 0x33#8 (fun a b => !(a.slt b)) core w s

/-- BLTU: PC = PC + IMM if hs1 < hs2, unsigned. -/
def execBltu (core : CoreId) (w : HandWord) (s : State) : Host.Outcome State Fault Refusal :=
  handBranch 0x34#8 (fun a b => a.ult b) core w s

/-- JAL: hd = PC + 1; PC = PC + IMM. -/
def execJal (core : CoreId) (w : HandWord) (s : State) : Host.Outcome State Fault Refusal :=
  let tgt := s.hTarget core.val w
  .next (s.issue core.val (w.word 0x38#8) (handFields w true false false && targetOk tgt) (fun t =>
    (t.setH core.val w.hd.toNat (BitVec.ofNat 64 (t.rd Reg.HND_STAT.PC core.val + 1))).jump core.val tgt))

/-- JR: hd = PC + 1; PC = hs1. -/
def execJr (core : CoreId) (w : HandWord) (s : State) : Host.Outcome State Fault Refusal :=
  let tgt : Int := ((s.hs1 core.val w).toNat : Int)
  .next (s.issue core.val (w.word 0x39#8) (handFields w true true false && targetOk tgt) (fun t =>
    (t.setH core.val w.hd.toNat (BitVec.ofNat 64 (t.rd Reg.HND_STAT.PC core.val + 1))).jump core.val tgt))

/-- VSETVL: VL = min(hs1, VLMAX of the width IMM[1:0]); hd = VL. Width code 3 is illegal (R115). -/
def execVsetvl (core : CoreId) (w : HandWord) (s : State) : Host.Outcome State Fault Refusal :=
  let code := w.imm.toNat % 4
  .next (s.issueNext core.val (w.word 0x40#8) (handFields w true true false && decide (code ≠ 3)) (fun t =>
    let n := min (t.hs1 core.val w).toNat (vlmax (8 * 2 ^ code))
    (t.wr Reg.VEC_VL.VL n core.val).setH core.val w.hd.toNat (BitVec.ofNat 64 n)))

/-! ### Control and status registers (R98, R99) -/

/-- Address of the own core's CSR at offset IMM[11:0]. -/
def csrAddr (core : CoreId) (w : HandWord) : Nat := Block.core.base core.val + w.imm.toNat % 0x1000

/-- CSRR: hd = own core CSR at offset IMM[11:0]; the offset a multiple of 8. RC fields are cleared by the read (R12). Of HND_STAT it
gives the PC of the CSRR itself (DESIGN CHOICE, log entry 69). -/
def execCsrr (core : CoreId) (w : HandWord) (s : State) : Host.Outcome State Fault Refusal :=
  let a := csrAddr core w
  .next (s.issueNext core.val (w.word 0x28#8) (handFields w true false false && decide (a % 8 = 0)) (fun t =>
    (t.afterRead a).setH core.val w.hd.toNat (BitVec.ofNat 64 (t.readReg a))))

/-- The gate whose GATE_OP register lies at an offset, if one does (R141). -/
def gateOpAt (off : Nat) : Option Nat :=
  if 0x408 ≤ off ∧ off ≤ 0x4E8 ∧ (off - 0x408) % 0x20 = 0 then some ((off - 0x408) / 0x20) else none
/-- The gate whose GATE_GRANT register lies at an offset, if one does. -/
def gateGrantAt (off : Nat) : Option Nat := if 0x500 ≤ off ∧ off ≤ 0x538 then some ((off - 0x500) / 8) else none
/-- The tally slot whose TLY_BIND register lies at an offset, if one does (R92). -/
def tlyBindAt (off : Nat) : Option Nat := if 0x188 ≤ off ∧ off ≤ 0x1A0 then some ((off - 0x188) / 8) else none

/-- What a write of GATE_OP does (R130), COMMIT before OPEN and CLOSE (DESIGN CHOICE, log entry 72). -/
def State.writeGateOp (s : State) (core g v : Nat) : State :=
  let s1 := if bits v 2 1 = 1 then s.commitGate core g else s
  if bits v 0 1 = 1 ∧ bits v 1 1 = 1 then s1
  else if bits v 0 1 = 1 then s1.openGate core g
  else if bits v 1 1 = 1 then s1.closeGate core g
  else s1

/-- R88: a write of TLY_BIND_n holds the hand; TLY_BIND_APPLY releases it. -/
def State.tlyBindHold (s : State) (core n : Nat) (v : Word) : State :=
  s.modCore core (fun c => { c with hold := .tlyBind n v })

/-- CSRW: own core CSR at offset IMM[11:0] = hs2, at the end of the issue cycle; OPEN and CLOSE together in one write of
GATE_OP are illegal (R130); fields for the steading alone are left as they are (R99). -/
def execCsrw (core : CoreId) (w : HandWord) (s : State) : Host.Outcome State Fault Refusal :=
  let a := csrAddr core w
  let off := w.imm.toNat % 0x1000
  let v := s.hs2 core.val w
  let both := (gateOpAt off).isSome && decide (v.toNat % 4 = 3)
  .next (s.issueNext core.val (w.word 0x29#8) (handFields w false false true && decide (a % 8 = 0) && !both) (fun t =>
    match gateOpAt off, gateGrantAt off, tlyBindAt off with
    | some g, _, _ => t.writeGateOp core.val g v.toNat
    | none, some g, _ => t.grantGate core.val g (bits v.toNat 0 17) (bits v.toNat 24 8)
    | none, none, some n => t.tlyBindHold core.val n v
    | none, none, none =>
      let t1 := t.writeReg (.hand core) a v.toNat
      if off = 0x6C0 ∧ bits v.toNat 16 1 = 1 then t1.commitDrlCfg core.val else t1))

end Sys2Proof.Machine
end

