-- ==== Sys2Proof/Machine/Vector.lean ====
section
/-! DEFINITION. The vector engine's instructions (R100-R110): every operation by its own definition over shared forms. -/

namespace Sys2Proof.Machine

/-! ### Shared forms -/

/-- R101, R102, R115: the TYPE is allowed, the register fields the operation does not use and the reserved bits are zero,
and BC is 0 unless the operation reads VS2 or accesses memory. -/
def vecOk (w : VecWord) (types : List Nat) (use2 use3 mem : Bool) : Bool :=
  types.contains w.ty.toNat && decide (w.rsv = 0) && (use2 || decide (w.vs2 = 0)) && (use3 || decide (w.vs3 = 0)) &&
  (use2 || mem || decide (w.bc = 0))

/-- TYPE 0-5, 6-7 and 0-7. -/
def tysInt : List Nat := [0, 1, 2, 3, 4, 5]
def tysFloat : List Nat := [6, 7]
def tysAny : List Nat := [0, 1, 2, 3, 4, 5, 6, 7]

/-- The result of a lane without flags. -/
def plain (v : Nat) : LaneOut := { val := v }

/-- A lane-wise operation (R100, R102): lanes below n take `f` of their sources, the others keep their contents. -/
def vecLanes (op : BitVec 8) (types : List Nat) (use2 use3 : Bool) (f : Nat → Nat → Nat → Nat → LaneOut)
    (core : CoreId) (w : VecWord) (s : State) : Host.Outcome State Fault Refusal :=
  .next (s.issueNext core.val (w.word op) (vecOk w types use2 use3 false) (fun t =>
    let ty := w.ty.toNat
    let wd := typeWidth ty
    let n := t.vn core.val wd
    let a := t.v core.val w.vs1.toNat
    let b := t.v core.val w.vs2.toNat
    let c := t.v core.val w.vs3.toNat
    let out (i : Nat) : LaneOut := f ty (lane wd a i) (lane wd b (if w.bc = 1 then 0 else i)) (lane wd c i)
    let os := (List.range n).map out
    if n = 0 then t
    else (t.setV core.val w.vd.toNat (mapLanes wd n (t.v core.val w.vd.toNat) (fun i => (out i).val))).vstat core.val
      (os.any LaneOut.isat) (os.any LaneOut.fsat) (os.any LaneOut.oor)))

/-- Two-operand integer operation. -/
def vecInt (op : BitVec 8) (f : Nat → Int → Int → LaneOut) : CoreId → VecWord → State → Host.Outcome State Fault Refusal :=
  vecLanes op tysInt true false (fun ty a b _ => f ty (elemInt ty a) (elemInt ty b))

/-- An integer lane, wrapped to the element width. -/
def wrapElem (ty : Nat) (x : Int) : LaneOut := plain (wrapInt (typeWidth ty) x)

/-- All ones or zero. -/
def maskLane (ty : Nat) (b : Bool) : LaneOut := plain (if b then 2 ^ typeWidth ty - 1 else 0)

/-- A comparison by TYPE (R102): integers, or floats in which any NaN gives zero. -/
def vecCmp (op : BitVec 8) (fi : Int → Int → Bool) (ff : FVal → FVal → Bool) :
    CoreId → VecWord → State → Host.Outcome State Fault Refusal :=
  vecLanes op tysAny true false (fun ty a b _ =>
    maskLane ty (if tyInt ty then fi (elemInt ty a) (elemInt ty b)
      else ff ((tyFmt ty).decode a) ((tyFmt ty).decode b)))

/-- A float operation of two operands, rounded once (R104). -/
def vecFloat2 (op : BitVec 8) (f : FVal → FVal → FVal) : CoreId → VecWord → State → Host.Outcome State Fault Refusal :=
  vecLanes op tysFloat true false (fun ty a b _ =>
    plain ((tyFmt ty).round (f ((tyFmt ty).decode a) ((tyFmt ty).decode b))))

/-- A float operation of three operands, rounded once after the addition (R104). -/
def vecFloat3 (op : BitVec 8) (f : FVal → FVal → FVal → FVal) :
    CoreId → VecWord → State → Host.Outcome State Fault Refusal :=
  vecLanes op tysFloat true true (fun ty a b c =>
    plain ((tyFmt ty).round (f ((tyFmt ty).decode a) ((tyFmt ty).decode b) ((tyFmt ty).decode c))))

/-- An operation on one float code. -/
def vecFloat1 (op : BitVec 8) (f : Fmt → Nat → Nat) : CoreId → VecWord → State → Host.Outcome State Fault Refusal :=
  vecLanes op tysFloat false false (fun ty a _ _ => plain (f (tyFmt ty) a))

/-- An approximation (R105): computed in FP32; a BF16 input is widened and the result rounded once to BF16. -/
def vecApprox (op : BitVec 8) (f : Nat → Nat) : CoreId → VecWord → State → Host.Outcome State Fault Refusal :=
  vecFloat1 op (fun fmt a => if fmt = fp32 then f a else bf16.round (fp32.decode (f (a * 2 ^ 16))))

/-- The smaller or the larger of two float codes (R102): a NaN gives the canonical NaN, -0 is less than +0. -/
def floatPick (fmt : Fmt) (larger : Bool) (a b : Nat) : Nat :=
  let x := fmt.decode a
  let y := fmt.decode b
  if x.isNan || y.isNan then fmt.nanCode
  else
    let aLess : Bool := FVal.lt x y || (x.isZero && y.isZero && x.isNeg && !y.isNeg)
    if aLess then (if larger then b else a) else (if larger then a else b)

/-- VFSGN (R102). -/
def floatSign (fmt : Fmt) (a : Nat) : Nat :=
  let x := fmt.decode a
  if x.isNan then fmt.nanCode
  else if x.isZero then 0
  else fmt.round (.fin x.isNeg 1 0)

/-- VFABS and VFNEG on a code (R102). -/
def floatAbs (fmt : Fmt) (a : Nat) : Nat :=
  if (fmt.decode a).isNan then fmt.nanCode else bits a 0 (fmt.eb + fmt.mb)
def floatNeg (fmt : Fmt) (a : Nat) : Nat :=
  if (fmt.decode a).isNan then fmt.nanCode
  else bits a 0 (fmt.eb + fmt.mb) + (1 - bits a (fmt.eb + fmt.mb) 1) * 2 ^ (fmt.eb + fmt.mb)

/-! ### Integer and bitwise operations (R102, R103) -/

/-- VADD: vs1 + vs2, wrapping. -/
def execVadd (core : CoreId) (w : VecWord) (s : State) : Host.Outcome State Fault Refusal :=
  vecInt 0x01#8 (fun ty a b => wrapElem ty (a + b)) core w s

/-- VSUB: vs1 - vs2, wrapping. -/
def execVsub (core : CoreId) (w : VecWord) (s : State) : Host.Outcome State Fault Refusal :=
  vecInt 0x02#8 (fun ty a b => wrapElem ty (a - b)) core w s

/-- VADDS: vs1 + vs2, saturating. -/
def execVadds (core : CoreId) (w : VecWord) (s : State) : Host.Outcome State Fault Refusal :=
  vecInt 0x03#8 (fun ty a b => satElem ty (a + b)) core w s

/-- VSUBS: vs1 - vs2, saturating. -/
def execVsubs (core : CoreId) (w : VecWord) (s : State) : Host.Outcome State Fault Refusal :=
  vecInt 0x04#8 (fun ty a b => satElem ty (a - b)) core w s

/-- VMULS: vs1 × vs2, saturated. -/
def execVmuls (core : CoreId) (w : VecWord) (s : State) : Host.Outcome State Fault Refusal :=
  vecInt 0x05#8 (fun ty a b => satElem ty (a * b)) core w s

/-- VMUL: low bits of vs1 × vs2. -/
def execVmul (core : CoreId) (w : VecWord) (s : State) : Host.Outcome State Fault Refusal :=
  vecInt 0x06#8 (fun ty a b => wrapElem ty (a * b)) core w s

/-- VMIN: minimum. -/
def execVmin (core : CoreId) (w : VecWord) (s : State) : Host.Outcome State Fault Refusal :=
  vecInt 0x07#8 (fun ty a b => wrapElem ty (if a < b then a else b)) core w s

/-- VMAX: maximum. -/
def execVmax (core : CoreId) (w : VecWord) (s : State) : Host.Outcome State Fault Refusal :=
  vecInt 0x08#8 (fun ty a b => wrapElem ty (if a < b then b else a)) core w s

/-- VAND: vs1 AND vs2. -/
def execVand (core : CoreId) (w : VecWord) (s : State) : Host.Outcome State Fault Refusal :=
  vecLanes 0x10#8 tysAny true false (fun _ a b _ => plain (a &&& b)) core w s

/-- VOR: vs1 OR vs2. -/
def execVor (core : CoreId) (w : VecWord) (s : State) : Host.Outcome State Fault Refusal :=
  vecLanes 0x11#8 tysAny true false (fun _ a b _ => plain (a ||| b)) core w s

/-- VXOR: vs1 XOR vs2. -/
def execVxor (core : CoreId) (w : VecWord) (s : State) : Host.Outcome State Fault Refusal :=
  vecLanes 0x12#8 tysAny true false (fun _ a b _ => plain (a ^^^ b)) core w s

/-- VANDN: vs1 AND NOT vs2. -/
def execVandn (core : CoreId) (w : VecWord) (s : State) : Host.Outcome State Fault Refusal :=
  vecLanes 0x13#8 tysAny true false (fun ty a b _ => plain (a &&& (2 ^ typeWidth ty - 1 - b))) core w s

/-- VSHL: vs1 shifted left by vs2 mod w. -/
def execVshl (core : CoreId) (w : VecWord) (s : State) : Host.Outcome State Fault Refusal :=
  vecLanes 0x14#8 tysInt true false (fun ty a b _ => plain (a * 2 ^ (b % typeWidth ty))) core w s

/-- VSHR: vs1 shifted right logically by vs2 mod w. -/
def execVshr (core : CoreId) (w : VecWord) (s : State) : Host.Outcome State Fault Refusal :=
  vecLanes 0x15#8 tysInt true false (fun ty a b _ => plain (a / 2 ^ (b % typeWidth ty))) core w s

/-- VSRA: vs1 shifted right by vs2 mod w, arithmetically for I types. -/
def execVsra (core : CoreId) (w : VecWord) (s : State) : Host.Outcome State Fault Refusal :=
  vecLanes 0x16#8 tysInt true false (fun ty a b _ =>
    wrapElem ty (elemInt ty a / ((2 ^ (b % typeWidth ty) : Nat) : Int))) core w s

/-- VSHLS: vs1 shifted left by vs2 mod w, saturating. -/
def execVshls (core : CoreId) (w : VecWord) (s : State) : Host.Outcome State Fault Refusal :=
  vecLanes 0x17#8 tysInt true false (fun ty a b _ =>
    satElem ty (elemInt ty a * ((2 ^ (b % typeWidth ty) : Nat) : Int))) core w s

/-- VSRAR: vs1 shifted right by s = vs2 mod w after 2^(s-1) is added, exactly. -/
def execVsrar (core : CoreId) (w : VecWord) (s : State) : Host.Outcome State Fault Refusal :=
  vecLanes 0x18#8 tysInt true false (fun ty a b _ =>
    let sh := b % typeWidth ty
    let add : Int := if sh = 0 then 0 else ((2 ^ (sh - 1) : Nat) : Int)
    wrapElem ty ((elemInt ty a + add) / ((2 ^ sh : Nat) : Int))) core w s

/-! ### Comparison and selection -/

/-- VCEQ: all ones where equal. -/
def execVceq (core : CoreId) (w : VecWord) (s : State) : Host.Outcome State Fault Refusal :=
  vecCmp 0x20#8 (fun a b => decide (a = b)) FVal.eqv core w s

/-- VCLT: all ones where vs1 < vs2. -/
def execVclt (core : CoreId) (w : VecWord) (s : State) : Host.Outcome State Fault Refusal :=
  vecCmp 0x21#8 (fun a b => decide (a < b)) FVal.lt core w s

/-- VCLE: all ones where vs1 ≤ vs2. -/
def execVcle (core : CoreId) (w : VecWord) (s : State) : Host.Outcome State Fault Refusal :=
  vecCmp 0x22#8 (fun a b => decide (a ≤ b)) (fun a b => FVal.lt a b || FVal.eqv a b) core w s

/-- VSEL: vs3 ≠ 0 selects vs1, else vs2; the selector is compared as bits for every TYPE (DEDUCED, log entry 7). -/
def execVsel (core : CoreId) (w : VecWord) (s : State) : Host.Outcome State Fault Refusal :=
  vecLanes 0x23#8 tysAny true true (fun _ a b c => plain (if c = 0 then b else a)) core w s

/-! ### Float operations (R104, R105) -/

/-- VFADD: vs1 + vs2. -/
def execVfadd (core : CoreId) (w : VecWord) (s : State) : Host.Outcome State Fault Refusal :=
  vecFloat2 0x30#8 FVal.add core w s

/-- VFSUB: vs1 - vs2. -/
def execVfsub (core : CoreId) (w : VecWord) (s : State) : Host.Outcome State Fault Refusal :=
  vecFloat2 0x31#8 (fun a b => FVal.add a b.neg) core w s

/-- VFMUL: vs1 × vs2. -/
def execVfmul (core : CoreId) (w : VecWord) (s : State) : Host.Outcome State Fault Refusal :=
  vecFloat2 0x32#8 FVal.mul core w s

/-- VFMA: vs1 × vs2 + vs3, rounded once. -/
def execVfma (core : CoreId) (w : VecWord) (s : State) : Host.Outcome State Fault Refusal :=
  vecFloat3 0x33#8 (fun a b c => FVal.add (FVal.mul a b) c) core w s

/-- VFNMA: -(vs1 × vs2) + vs3, rounded once. -/
def execVfnma (core : CoreId) (w : VecWord) (s : State) : Host.Outcome State Fault Refusal :=
  vecFloat3 0x34#8 (fun a b c => FVal.add (FVal.mul a b).neg c) core w s

/-- VFMIN: minimum. -/
def execVfmin (core : CoreId) (w : VecWord) (s : State) : Host.Outcome State Fault Refusal :=
  vecLanes 0x35#8 tysFloat true false (fun ty a b _ => plain (floatPick (tyFmt ty) false a b)) core w s

/-- VFMAX: maximum. -/
def execVfmax (core : CoreId) (w : VecWord) (s : State) : Host.Outcome State Fault Refusal :=
  vecLanes 0x36#8 tysFloat true false (fun ty a b _ => plain (floatPick (tyFmt ty) true a b)) core w s

/-- VFSGN: sign as +1, -1 or +0. -/
def execVfsgn (core : CoreId) (w : VecWord) (s : State) : Host.Outcome State Fault Refusal :=
  vecFloat1 0x37#8 floatSign core w s

/-- VFABS: the sign bit cleared. -/
def execVfabs (core : CoreId) (w : VecWord) (s : State) : Host.Outcome State Fault Refusal :=
  vecFloat1 0x38#8 floatAbs core w s

/-- VFNEG: the sign bit inverted. -/
def execVfneg (core : CoreId) (w : VecWord) (s : State) : Host.Outcome State Fault Refusal :=
  vecFloat1 0x39#8 floatNeg core w s

/-- VEXP2: 2 to the power of vs1, approximately. -/
def execVexp2 (core : CoreId) (w : VecWord) (s : State) : Host.Outcome State Fault Refusal :=
  vecApprox 0x40#8 vexp2Code core w s

/-- VLOG2: base-2 logarithm, approximately. -/
def execVlog2 (core : CoreId) (w : VecWord) (s : State) : Host.Outcome State Fault Refusal :=
  vecApprox 0x41#8 vlog2Code core w s

/-- VRCP: reciprocal, approximately. -/
def execVrcp (core : CoreId) (w : VecWord) (s : State) : Host.Outcome State Fault Refusal :=
  vecApprox 0x42#8 vrcpCode core w s

/-- VRSQ: reciprocal square root, approximately. -/
def execVrsq (core : CoreId) (w : VecWord) (s : State) : Host.Outcome State Fault Refusal :=
  vecApprox 0x43#8 vrsqCode core w s

/-! ### Conversion (R106) -/

/-- A format of VCVT: a float format, or an integer width and signedness. -/
inductive CvtFmt where
  | float (f : Fmt)
  | int (width : Nat) (signed : Bool)
  deriving DecidableEq, Repr

/-- The format codes of VCVT. -/
def cvtFmt : Nat → Option CvtFmt
  | 0 => some (.float fp32)
  | 1 => some (.float fp16)
  | 2 => some (.float bf16)
  | 3 => some (.float e4m3)
  | 4 => some (.float e5m2)
  | 5 => some (.int 32 true)
  | 6 => some (.int 16 true)
  | 7 => some (.int 8 true)
  | 8 => some (.int 8 false)
  | _ => none

/-- Width of a format of VCVT. -/
def CvtFmt.width : CvtFmt → Nat
  | .float f => f.width
  | .int w _ => w

/-- One element converted (R77-R80). -/
def cvtElem (src dst : CvtFmt) (rnd : Rnd) (sat : Bool) (x : Nat) : LaneOut :=
  let v : FVal := match src with
    | .float f => f.decode x
    | .int w sg => .ofInt (if sg then sint w x else (x : Int))
  match dst with
  | .float f =>
    let c := f.convert rnd sat v
    { val := c.code, fsat := c.sat }
  | .int w sg =>
    let lo : Int := if sg then -((2 ^ (w - 1) : Nat) : Int) else 0
    let hi : Int := if sg then ((2 ^ (w - 1) : Nat) : Int) - 1 else ((2 ^ w : Nat) : Int) - 1
    let r := v.toIntClamp lo hi
    { val := wrapInt w r.1, isat := r.2 }

/-- The 16 random bits of the vector engine's stochastic rounding (R106, R107). -/
def State.vecSr (s : State) (core idx : Nat) : Nat :=
  srBits (s.rd Reg.NUM_SR.SEED core) (s.rd Reg.NUM_SR.STEP core) core (0x800000 ||| s.rd Reg.VEC_SRSEQ.SEQ core) idx

/-- VEC_SRSEQ advances after a stochastic conversion. -/
def State.bumpSrseq (s : State) (core : Nat) (on : Bool) : State := if on then s.incWrap Reg.VEC_SRSEQ.SEQ 1 core else s

/-- The lane mapping and effect of VCVT (R106). -/
def State.convertLanes (s : State) (core : Nat) (w : VecWord) (src dst : CvtFmt) : State :=
  let imm := w.imm.toNat
  let part := bits imm 8 2
  let stoch := decide (bits imm 10 1 = 1)
  let wide := max src.width dst.width
  let n := s.vn core wide
  let x := s.v core w.vs1.toNat
  let from_ (i : Nat) : Nat := if src.width < dst.width then part * vlmax dst.width + i else i
  let to_ (i : Nat) : Nat := if dst.width < src.width then part * vlmax src.width + i else i
  let out (i : Nat) : LaneOut :=
    cvtElem src dst (if stoch then .sr (s.vecSr core (to_ i)) else .rne) (decide (bits imm 11 1 = 1)) (lane src.width x (from_ i))
  let os := (List.range n).map out
  let r := (List.range n).foldl (fun acc i => setLane dst.width acc (to_ i) (out i).val) (s.v core w.vd.toNat)
  if n = 0 then s
  else ((s.setV core w.vd.toNat r).vstat core (os.any LaneOut.isat) (os.any LaneOut.fsat) false).bumpSrseq core stoch

/-- VCVT: conversion between formats; an unknown format code or a PART out of range is illegal. -/
def execVcvt (core : CoreId) (w : VecWord) (s : State) : Host.Outcome State Fault Refusal :=
  let imm := w.imm.toNat
  match cvtFmt (bits imm 4 4), cvtFmt (bits imm 0 4) with
  | some src, some dst =>
    let ratio := max src.width dst.width / min src.width dst.width
    .next (s.issueNext core.val (w.word 0x48#8) (vecOk w [0] false false false && decide (bits imm 8 2 < ratio))
      (fun t => t.convertLanes core.val w src dst))
  | _, _ => .next (s.issueNext core.val (w.word 0x48#8) false (fun t => t))

/-! ### MX groups (R107) -/

/-- An MX target of VMXQ and VMXE: E4M3, E5M2 or E2M1. -/
def mxCodeOk (c : Nat) : Bool := decide (c = 5) || decide (c = 6) || decide (c = 9)

/-- VMXQ's effect: the groups with a lane below n are quantised by R75. -/
def State.quantise (s : State) (core : Nat) (w : VecWord) : State :=
  let ty := w.ty.toNat
  let code := bits w.imm.toNat 0 4
  let stoch := decide (bits w.imm.toNat 6 1 = 1)
  let wd := typeWidth ty
  let n := s.vn core wd
  let x := s.v core w.vs1.toNat
  let groups := (List.range (if ty = 6 then 2 else 1)).filter (fun g => decide (32 * g < n))
  let val (k : Nat) : FVal := if k < n then (tyFmt ty).decode (lane wd x k) else .fin false 0 0
  let quant (g : Nat) : MxGroup :=
    mxGroup (codeFmt code) (fun j => if stoch then .sr (s.vecSr core (32 * g + j)) else .rne)
      ((List.range 32).map (fun j => val (32 * g + j)))
  let ew := codeWidth code
  let r := groups.foldl (fun acc g =>
    let q := quant g
    let els := (List.range 32).foldl (fun a j => if 32 * g + j < n then setLane ew a (32 * g + j) (q.elems[j]?.getD 0) else a) acc
    setLane 8 els (64 + g) q.scale) (s.v core w.vd.toNat)
  if n = 0 then s
  else ((s.setV core w.vd.toNat r).vstat core false (groups.any (fun g => (quant g).sat)) false).bumpSrseq core stoch

/-- VMXQ: MX group quantisation. -/
def execVmxq (core : CoreId) (w : VecWord) (s : State) : Host.Outcome State Fault Refusal :=
  let imm := w.imm.toNat
  .next (s.issueNext core.val (w.word 0x49#8)
    (vecOk w [6, 7] false false false && mxCodeOk (bits imm 0 4) && decide (bits imm 4 2 = 0) && decide (bits imm 7 5 = 0))
    (fun t => t.quantise core.val w))

/-- VMXE's effect: lanes below n are expanded to BF16 by R85. -/
def State.expandMx (s : State) (core : Nat) (w : VecWord) : State :=
  let code := bits w.imm.toNat 0 4
  let n := s.vn core 16
  let x := s.v core w.vs1.toNat
  let scale (i : Nat) : Nat := lane 8 x (64 + i / 32)
  let elem (i : Nat) : Nat := lane (codeWidth code) x i
  let sat (i : Nat) : Bool := match (codeFmt code).decode (elem i) with
    | .fin a m e => decide (scale i ≠ 0xFF) && (bf16.convert .rne true ((FVal.fin a m e).scale ((scale i : Int) - 127))).sat
    | _ => false
  if n = 0 then s
  else (s.setV core w.vd.toNat (mapLanes 16 n (s.v core w.vd.toNat) (fun i => mxExpand (codeFmt code) (scale i) (elem i)))).vstat
    core false ((List.range n).any sat) false

/-- VMXE: MX group expansion. -/
def execVmxe (core : CoreId) (w : VecWord) (s : State) : Host.Outcome State Fault Refusal :=
  let imm := w.imm.toNat
  .next (s.issueNext core.val (w.word 0x4A#8)
    (vecOk w [6] false false false && mxCodeOk (bits imm 0 4) && decide (bits imm 4 8 = 0)) (fun t => t.expandMx core.val w))

/-! ### Permutation and reduction (R108, R109) -/

/-- VPERM: vs1[vs2[i]], or zero with VSTAT.OOR where the index is at or beyond n. -/
def execVperm (core : CoreId) (w : VecWord) (s : State) : Host.Outcome State Fault Refusal :=
  .next (s.issueNext core.val (w.word 0x50#8) (vecOk w tysAny true false false) (fun t =>
    let wd := typeWidth w.ty.toNat
    let n := t.vn core.val wd
    let a := t.v core.val w.vs1.toNat
    let b := t.v core.val w.vs2.toNat
    let ix (i : Nat) : Nat := lane wd b (if w.bc = 1 then 0 else i)
    if n = 0 then t
    else (t.setV core.val w.vd.toNat (mapLanes wd n (t.v core.val w.vd.toNat) (fun i =>
        if ix i < n then lane wd a (ix i) else 0))).vstat core.val false false
        ((List.range n).any (fun i => decide (n ≤ ix i)))))

/-- One level of the pairwise tree: lanes 2j and 2j + 1 combine. -/
def pairUp (f : LaneOut → LaneOut → LaneOut) : List LaneOut → List LaneOut
  | a :: b :: t => f a b :: pairUp f t
  | l => l

/-- The reduction of 32 lanes by a pairwise tree over five levels (R109). -/
def treeOf (f : LaneOut → LaneOut → LaneOut) (l : List LaneOut) : LaneOut :=
  ((List.range 5).foldl (fun x _ => pairUp f x) l).headD (plain 0)

/-- A reduction into lane 0; lanes at or above n count as `fill`. -/
def vecReduce (op : BitVec 8) (fill : Nat → Nat) (f : Nat → Nat → Nat → LaneOut) (core : CoreId) (w : VecWord) (s : State) :
    Host.Outcome State Fault Refusal :=
  .next (s.issueNext core.val (w.word op) (vecOk w [2, 7] false false false) (fun t =>
    let ty := w.ty.toNat
    let n := t.vn core.val 32
    let x := t.v core.val w.vs1.toNat
    let comb (a b : LaneOut) : LaneOut :=
      let r := f ty a.val b.val
      { r with isat := r.isat || a.isat || b.isat }
    let r := treeOf comb ((List.range 32).map (fun i => plain (if i < n then lane 32 x i else fill ty)))
    if n = 0 then t
    else (t.setV core.val w.vd.toNat (setLane 32 (t.v core.val w.vd.toNat) 0 r.val)).vstat core.val r.isat false false))

/-- VRSUM: sum; I32 saturates, FP32 rounds once per addition. -/
def execVrsum (core : CoreId) (w : VecWord) (s : State) : Host.Outcome State Fault Refusal :=
  vecReduce 0x58#8 (fun _ => 0) (fun ty a b =>
    if ty = 2 then satElem 2 (elemInt 2 a + elemInt 2 b)
    else plain (fp32.round (FVal.add (fp32.decode a) (fp32.decode b)))) core w s

/-- VRMAX: maximum; a NaN lane of FP32 gives the canonical NaN. -/
def execVrmax (core : CoreId) (w : VecWord) (s : State) : Host.Outcome State Fault Refusal :=
  vecReduce 0x59#8 (fun ty => if ty = 2 then 0x80000000 else 0xFF800000) (fun ty a b =>
    plain (if ty = 2 then (if elemInt 2 a < elemInt 2 b then b else a) else floatPick fp32 true a b)) core w s

/-! ### Between the hand and a lane (R102) -/

/-- VINS: lane IMM[6:0] of vd takes the low bits of a hand register; VL is ignored. -/
def execVins (core : CoreId) (w : VecWord) (s : State) : Host.Outcome State Fault Refusal :=
  let wd := typeWidth w.ty.toNat
  let k := bits w.imm.toNat 0 7
  .next (s.issueNext core.val (w.word 0x5C#8) (vecOk w tysAny false false false && decide (k < vlmax wd)) (fun t =>
    t.setV core.val w.vd.toNat (setLane wd (t.v core.val w.vd.toNat) k (t.h core.val w.vs1.toNat).toNat)))

/-- VEXT: a hand register takes lane IMM[6:0] of vs1, sign-extended for I types; VL is ignored. -/
def execVext (core : CoreId) (w : VecWord) (s : State) : Host.Outcome State Fault Refusal :=
  let ty := w.ty.toNat
  let wd := typeWidth ty
  let k := bits w.imm.toNat 0 7
  .next (s.issueNext core.val (w.word 0x5D#8) (vecOk w tysAny false false false && decide (k < vlmax wd)) (fun t =>
    let x := lane wd (t.v core.val w.vs1.toNat) k
    t.setH core.val w.vd.toNat (if tySigned ty then BitVec.ofInt 64 (sint wd x) else BitVec.ofNat 64 x)))

/-! ### Loads and stores (R110, R111) -/

/-- Base address and signed stride of a vector load or store. -/
def State.vecBase (s : State) (core : Nat) (w : VecWord) : Nat :=
  (s.h core w.vs1.toNat + w.imm.signExtend 64).toNat % 2 ^ 18
def State.vecStride (s : State) (core : Nat) (w : VecWord) : Int := sint 18 (s.h core w.vs2.toNat).toNat

/-- Offset of element `i`: base + i·s when strided, contiguous otherwise; modulo 2^18. -/
def State.vecOff (s : State) (core : Nat) (w : VecWord) (i : Nat) : Nat :=
  let es := typeWidth w.ty.toNat / 8
  if w.bc = 1 then wrapInt 18 ((s.vecBase core w : Int) + (i : Int) * s.vecStride core w)
  else (s.vecBase core w + i * es) % 2 ^ 18

/-- The word is legal: VS2 names the stride only with BC = 1; address and stride are multiples of the element size. -/
def State.vecMemOk (s : State) (core : Nat) (w : VecWord) : Bool :=
  let es := typeWidth w.ty.toNat / 8
  vecOk w tysAny (decide (w.bc = 1)) false true && decide (s.vecBase core w % es = 0) &&
  (decide (w.bc = 0) || decide (s.vecStride core w % (es : Int) = 0))

/-- The bytes of elements 0 to n - 1, in order, each with the slot that moves it: 64 B in a cycle through slots 3 and 4, the lower half
through slot 3 (DESIGN CHOICE, log entry 71). -/
def State.vecReadList (s : State) (core : Nat) (w : VecWord) (n : Nat) : List (Nat × Nat) :=
  let es := typeWidth w.ty.toNat / 8
  (List.range (n * es)).map (fun k => (s.vecOff core w (k / es) + k % es, if k % 64 < 32 then 3 else 4))

/-- VLD: load; with BC = 1 and a stride of 0 one element is read and written to every lane. -/
def execVld (core : CoreId) (w : VecWord) (s : State) : Host.Outcome State Fault Refusal :=
  .next (s.issue core.val (w.word 0x60#8) (s.vecMemOk core.val w) (fun t =>
    let wd := typeWidth w.ty.toNat
    let es := wd / 8
    let n := t.vn core.val wd
    let one : Bool := decide (w.bc = 1) && decide (t.vecStride core.val w = 0)
    let r := t.spReadAt core.val (t.vecReadList core.val w (if one then min n 1 else n))
    let el (i : Nat) : Nat := leNat ((r.1.drop ((if one then 0 else i) * es)).take es)
    if n = 0 then t.advance core.val
    else
      let u := (t.setV core.val w.vd.toNat (mapLanes wd n (t.v core.val w.vd.toNat) el)).advance core.val
      (u.spReadAt core.val (t.vecReadList core.val w (if one then 1 else n))).2))

/-- VST: store of the lanes below n through slot 5, in ascending order. -/
def execVst (core : CoreId) (w : VecWord) (s : State) : Host.Outcome State Fault Refusal :=
  .next (s.issue core.val (w.word 0x61#8) (s.vecMemOk core.val w) (fun t =>
    let wd := typeWidth w.ty.toNat
    let es := wd / 8
    let n := t.vn core.val wd
    let x := t.v core.val w.vd.toNat
    (t.advance core.val).spWriteAt core.val 5
      ((List.range (n * es)).map (fun k => (t.vecOff core.val w (k / es) + k % es, BitVec.ofNat 8 (lane wd x (k / es) / 256 ^ (k % es)))))))

end Sys2Proof.Machine
end

