-- ==== Sys2Proof/Machine/Links.lean ====
section
/-! DEFINITION. Link parity (R478), the start of fencing (R481-R483) and the furrow fault (R164), which several families reach. -/

namespace Sys2Proof.Machine

/-- A copy of a register, as the DETAIL of an event (R490). -/
def State.copyOf (s : State) (f : Fld) (i : Nat := 0) (j : Nat := 0) : Nat := s.readReg (f.addr i j)

/-- Cycle k of R482: CAUSE becomes 5 and the wipe starts. -/
def State.beginFence (s : State) (core reason : Nat) : State :=
  ((s.haltCore core 5).modCore core (fun c => { c with fenceReq := none, fencing := some reason })).wipeStart core false

/-- R481: a core is to be made fallow: at once in a croft of no enclosure, else at its enclosure's next step boundary. -/
def State.requestFence (s : State) (core reason : Nat) : State :=
  if s.fallow core ∨ (s.core core).fencing.isSome then s
  else match s.enclOfCore core with
    | none => s.beginFence core reason
    | some _ => s.modCore core (fun c => { c with fenceReq := some reason })

/-- The enclosure that owns a router: the croft's own, or the one it is a transit croft of (R264). -/
def State.routerOwner (s : State) (core : Nat) : Option Nat :=
  (s.enclOfCore core).orElse (fun _ => s.transitOf (croftOf core))

/-- R478: a flit or beat sent by router `core` through output `side` failed parity: recorded, raised on the steading ring
and on the ring of the owning enclosure, counted; a failing header faults that enclosure; the second failure of one router
engages its stile (R483). -/
def State.linkParity (s : State) (core side : Nat) (furrow header : Bool) : State :=
  let s1 := ((((s.wr Reg.FLT_PARITY.CORE core).wr Reg.FLT_PARITY.SIDE side).wr Reg.FLT_PARITY.FURROW (b2n furrow)).wr
    Reg.FLT_PARITY.HEADER (b2n header)).incSat Reg.FLT_PARITY.COUNT 1
  let det := s1.copyOf Reg.FLT_PARITY.CORE
  let tk := s1.estTick (croftOf core)
  let own := s1.routerOwner core
  let s2 := s1.raiseAt stRing 0x2A skCore core tk (s1.stepOf own) det
  let s3 := match own with
    | some n =>
      let t := s2.raiseAt n 0x2A skCore core tk (s2.stepOf own) det
      if header then t.faultEncl n 0x2A tk else t
    | none => s2
  let cnt := (s3.core core).parity + 1
  let s4 := s3.modCore core (fun c => { c with parity := cnt })
  if cnt = 2 then s4.requestFence core 5 else s4

/-! ### Faults (R164) -/

/-- R164: a furrow fault of a core: CAUSE recorded, FURROW_FAULT raised, the enclosure faulted, the core halted, the segment
stopped at once. -/
def State.furFault (s : State) (core cause : Nat) : State :=
  let s1 := s.wr Reg.FUR_STAT.CAUSE cause core
  let s2 := (s1.raiseCore core 0x34 (s1.copyOf Reg.FUR_STAT.CAUSE core)).coreFault core 6 0x34
  match s.segOf core with
  | some g => if s2.rd Reg.FUR_RUN.RUN (j := g) = 1 then s2.stopSeg g else s2
  | none => s2

/-- R160: a re-run of `n` cycles ends: the catch buffer holds a beat for each cycle of it; more than 128 is a fault with cause
OVERFLOW (R163). -/
def State.catchEnd (s : State) (core : Nat) : State :=
  match (s.core core).catchUp with
  | none => s
  | some (_, n) =>
    let s1 := (s.wr Reg.FUR_STAT.CATCH (s.rd Reg.FUR_STAT.CATCH core + n) core).modCore core (fun c => { c with catchUp := none })
    if 128 < s1.catchNow core 0 then s1.furFault core 5 else s1

end Sys2Proof.Machine
end

