-- ==== Sys2Proof/Machine/Tiles.lean ====
section
/-! DEFINITION. Operand tiles of the matrix array: how slots 0 and 1 deliver them (R44-R47), their values (R38-R42), the
partial plane (R40, R41) and its checksum compare (R60). -/

namespace Sys2Proof.Machine

/-! ### Reading a tile (R44-R47, R72) -/

/-- Bytes of a row of 16 elements of a format (R72). -/
def rowBytes (code : Nat) : Nat := 2 * codeWidth code

/-- Element `c` of a packed row: elements fill a row from its low bits up (R72). -/
def rowElem (width : Nat) (row : List Byte) (c : Nat) : Nat := bits (leNat row) (width * c) width

/-- Sixteen elements packed as a row (R72). -/
def packRow (width : Nat) (es : List Nat) : List Byte :=
  leBytes (2 * width) ((es.zip (List.range es.length)).foldl (fun a p => a + p.1 % 2 ^ width * 2 ^ (width * p.2)) 0)

/-- A slice of a list of bytes. -/
def slice (l : List Byte) (off n : Nat) : List Byte := (l.drop off).take n

/-- A 16 × 16 block transposed (R47). -/
def transposeBlock (code : Nat) (blk : List Byte) : List Byte :=
  let w := codeWidth code
  let rb := rowBytes code
  (List.range 16).flatMap (fun c => packRow w ((List.range 16).map (fun r => rowElem w (slice blk (r * rb) rb) c)))

/-- The bytes of the scale block of a tile: 16 for each 32-element group (R45). -/
def scaleBytes (code : Nat) : Nat := if codeMx code then 16 * (codeDepth code / 2) else 0

/-- R44-R47: tile `t` of an operand as slot `slot` delivers it, with the accesses reported. -/
def State.readTile (s : State) (core slot code : Nat) (desc sdesc : Word) (trans : Bool) (t : Nat) : OpTile × State :=
  let n := 16 * rowBytes code
  let base (b : Nat) : Nat :=
    dAddr desc + t * dTstride desc + (if codeDepth code = 1 then 0 else b * dBstride desc)
  let offs := (List.range (codeDepth code)).flatMap (fun b => (List.range n).map (fun k => (base b + k, slot)))
  let sc := (List.range (scaleBytes code)).map (fun k => (dAddr sdesc + t * dBstride sdesc + k, slot))
  let r := s.spReadAt core offs
  let q := r.2.spReadAt core sc
  let blocks := (List.range (codeDepth code)).map (fun b =>
    let raw := slice r.1 (b * n) n
    if trans then transposeBlock code raw else raw)
  (⟨blocks.flatten, q.1 ++ List.replicate (32 - q.1.length) 0, false⟩, q.2)

/-- R39, R44-R47: what slot `slot` delivers in step `j` of tile `t` of an operand, and its sideband, with the accesses reported. -/
def State.readStep (s : State) (core slot code : Nat) (desc sdesc : Word) (trans : Bool) (t j : Nat) : List Byte × State :=
  let rb := rowBytes code
  let depth := codeDepth code
  let w := codeWidth code
  let base (b : Nat) : Nat :=
    dAddr desc + t * dTstride desc + (if depth = 1 then 0 else b * dBstride desc)
  -- row `q` of the step, as the memory holds it or as the transposed read gathers it
  let row (q : Nat) : List Nat :=
    let b := (depth * j + q) / 16
    let c := (depth * j + q) % 16
    if trans then (List.range 16).flatMap (fun r => (List.range (ceilDiv w 8)).map (fun k => base b + r * rb + w * c / 8 + k))
    else (List.range rb).map (fun k => base b + c * rb + k)
  let offs := (List.range depth).flatMap row
  let sc := if 2 * j < scaleBytes code then [0, 1].map (fun k => dAddr sdesc + t * dBstride sdesc + 2 * j + k) else []
  let r := s.spReadAt core (offs.map (fun o => (o, slot)))
  let q := r.2.spReadAt core (sc.map (fun o => (o, slot)))
  let pick (q : Nat) : List Byte :=
    if trans then
      let n := ceilDiv w 8
      let c := (depth * j + q) % 16
      packRow w ((List.range 16).map (fun e => bits (leNat (slice r.1 (16 * n * q + n * e) n)) (w * c % 8) w))
    else slice r.1 (rb * q) rb
  let d := (List.range depth).flatMap pick
  (d ++ List.replicate (32 - d.length) 0 ++ (if sc.isEmpty then [0, 0] else q.1), q.2)

/-- Bytes of step `j` of a tile (R39): 32 B, of which the FP6 formats use 24. -/
def OpTile.step (x : OpTile) (code j : Nat) : List Byte :=
  let n := rowBytes code * codeDepth code
  let d := slice x.data (j * n) n
  d ++ List.replicate (32 - d.length) 0

/-- The sideband of step `j` (R45). -/
def OpTile.side (x : OpTile) (j : Nat) : List Byte := slice x.scales (2 * j) 2

/-- The furrow operand of 16 consecutive beats, or none where a beat is void (R48, R151). -/
def State.furTile (s : State) (core lane code beat : Nat) : Option OpTile :=
  match s.segOf core with
  | none => none
  | some g =>
    let p := s.rd Reg.FUR_POS.POS core
    let lap := s.lap g
    let xs := (List.range 16).map (fun j => findPayload lap (s.seg g).ring lane p (beat + j))
    if xs.all Option.isSome then
      let ys := xs.filterMap id
      some
        { data := ys.flatMap (fun x => slice x.data 0 (rowBytes code * codeDepth code))
          scales := ys.flatMap (fun x => slice x.data 32 2)
          poison := ys.any (fun x => x.badAt (s.segLen g) p) }
    else none

/-! ### Values and the partial plane (R40-R42, R74) -/

/-- Element (row, column) of block `b` of a delivered tile. -/
def OpTile.elem (x : OpTile) (code b r c : Nat) : Nat :=
  let rb := rowBytes code
  rowElem (codeWidth code) (slice x.data (b * (16 * rb) + r * rb) rb) c

/-- The value of an element with its block scale (R42, R74). -/
def scaledVal (code scale elem : Nat) : FVal :=
  let v := (codeFmt code).decode elem
  if codeMx code then (if scale = 0xFF then .nan else v.scale ((scale : Int) - 127)) else v

/-- A of a tile: row `i`, contraction position `k` (R46). -/
def OpTile.aVal (x : OpTile) (code i k : Nat) : FVal :=
  scaledVal code (x.scales[k / 32 * 16 + i]?.getD 0).toNat (x.elem code (k / 16) i (k % 16))
/-- B of a tile: contraction position `k`, column `n` (R46). -/
def OpTile.bVal (x : OpTile) (code k n : Nat) : FVal :=
  scaledVal code (x.scales[k / 32 * 16 + n]?.getD 0).toNat (x.elem code (k / 16) (k % 16) n)

/-- R40: one data cell over the 16 steps of a tile: the exact sum of the step's products, added and rounded once. -/
def floatCell (a b : Nat → FVal) (depth : Nat) : Nat :=
  (List.range 16).foldl (fun acc st =>
    let ks := (List.range depth).map (fun d => depth * st + d)
    let sum := (ks.map (fun k => FVal.mul (a k) (b k))).foldl FVal.add (.fin true 0 0)
    fp32.round (FVal.add (fp32.decode acc) sum)) 0

/-- R41: one data cell of an integer tile, exact. -/
def intCell (a b : Nat → Int) (depth : Nat) : Int :=
  ((List.range (16 * depth)).map (fun k => a k * b k)).sum

/-- A cell of the array (R37, R67): data cells in rows and columns 0-15, the checksum column 16, the checksum row 16, the corner. -/
abbrev Cells := List (List Int)

/-- FP32 sum of codes in ascending order, one rounding each. -/
def sumF (l : List Nat) : Nat := l.foldl (fun a x => fp32.round (FVal.add (fp32.decode a) (fp32.decode x))) 0

/-- What an edge adder of the array feeds a checksum cell for one K position (R60): the sum of the 16 scaled values, in FP32 in
ascending order, or the code the command names for it (DESIGN CHOICE, log entry 54). -/
def edgeSum (given : List (BitVec 32)) (k : Nat) (vals : List FVal) : FVal :=
  match given[k]? with
  | some c => fp32.decode c.toNat
  | none => fp32.decode (sumF (vals.map fp32.round))

/-- A row of A or the sum over its rows: contraction position to value. Row 16 is the West adder's. -/
def aLine (i : MmaInsn) (a : OpTile) (cells : CheckCells) (r k : Nat) : FVal :=
  if r < 16 then a.aVal i.fmta r k else edgeSum cells.west k ((List.range 16).map (fun q => a.aVal i.fmta q k))
/-- A column of B or the sum over its columns. Column 16 is the North adder's. -/
def bLine (i : MmaInsn) (b : OpTile) (cells : CheckCells) (c k : Nat) : FVal :=
  if c < 16 then b.bVal i.fmtb k c else edgeSum cells.north k ((List.range 16).map (fun q => b.bVal i.fmtb k q))
/-- The same for an integer tile, exact. -/
def aLineI (i : MmaInsn) (a : OpTile) (r k : Nat) : Int :=
  let one (q : Nat) : Int := sint (codeWidth i.fmta) (a.elem i.fmta (k / 16) q (k % 16))
  if r < 16 then one r else ((List.range 16).map one).sum
def bLineI (i : MmaInsn) (b : OpTile) (c k : Nat) : Int :=
  let one (q : Nat) : Int := sint (codeWidth i.fmtb) (b.elem i.fmtb (k / 16) (k % 16) q)
  if c < 16 then one c else ((List.range 16).map one).sum

/-- What logical cell (r, c) of the array holds after the 16 steps of a tile (R37, R40, R41): an FP32 code, or an integer. Row 16
and column 16 are the checksum cells, which the edge adders feed. -/
def tileCell (i : MmaInsn) (a b : OpTile) (cells : CheckCells) (r c : Nat) : Int :=
  let depth := codeDepth i.fmta
  if codeInt i.fmta then intCell (aLineI i a r) (bLineI i b c) depth
  else (floatCell (aLine i a cells r) (bLine i b cells c) depth : Int)

/-- R67: the physical row that a logical row of cells uses. -/
def physicalRow (spare : Bool) (bad r : Nat) : Nat := if spare && decide (bad ≤ r) then r + 1 else r

/-- The 17 × 17 logical cells of a tile, row by row, with what a fault of a physical cell put in the place of its value. -/
def tileCells (spare : Bool) (bad : Nat) (i : MmaInsn) (a b : OpTile) (cells : CheckCells) : Cells :=
  (List.range 17).map (fun r => (List.range 17).map (fun c =>
    match cells.faults.find? (fun f => decide (f.1.val = physicalRow spare bad r) && decide (f.2.1.val = c)) with
    | some f => if codeInt i.fmta then f.2.2.toInt else ((bits f.2.2.toNat 0 32 : Nat) : Int)
    | none => tileCell i a b cells r c))

/-- Cell (r, c). -/
def Cells.cell (x : Cells) (r c : Nat) : Int := (x[r]?.getD [])[c]?.getD 0
/-- The partial plane of the data cells, element (r, c) at 16·r + c. -/
def Cells.plane (x : Cells) : List Int := (List.range 256).map (fun k => x.cell (k / 16) (k % 16))

/-! ### The checksum compare (R60) -/

/-- FP32 sum of magnitudes. -/
def sumMag (l : List Nat) : Nat := sumF (l.map (fun x => bits x 0 31))

/-- What a compare answers. -/
inductive CmpOut where
  | pass | fail | skipped
  deriving DecidableEq, Repr

/-- R60, float: the sum of the cells against the checksum cell; a NaN or an infinity anywhere skips the compare. -/
def cmpFloat (l : List Nat) (cell : Nat) : CmpOut :=
  let s := fp32.decode (sumF l)
  let m := fp32.decode (sumMag l)
  let c := fp32.decode cell
  if l.any (fun x => (fp32.decode x).nonFinite) || s.nonFinite || m.nonFinite || c.nonFinite then .skipped
  else if FVal.lt (m.scale (-16)) ((FVal.add s c.neg).withSign false) then .fail
  else .pass

/-- R60, integer: equal. -/
def cmpInt (l : List Int) (cell : Int) : CmpOut := if l.sum = cell then .pass else .fail

/-- One compare of a line of cells with a checksum cell. -/
def cmpLine (isInt : Bool) (l : List Int) (cell : Int) : CmpOut :=
  if isInt then cmpInt l cell else cmpFloat (l.map Int.toNat) cell.toNat

/-- A verdict: passed, some compare skipped, and where it failed (R60, R61). -/
structure Verdict where
  pass : Bool
  nonfinite : Bool
  row : Nat
  col : Nat
  deriving DecidableEq, Repr

/-- R60, R61: the verdict of a tile's cells. A fault of one data cell fails one row and one column; of a checksum column cell, a
row alone; of a checksum row cell, a column alone; of the corner cell, its compare alone (DEDUCED, log entry 10). -/
def verdict (isInt : Bool) (x : Cells) : Verdict :=
  let line (r : Nat) : List Int := (List.range 16).map (fun n => x.cell r n)
  let down (c : Nat) : List Int := (List.range 16).map (fun i => x.cell i c)
  let rows := (List.range 16).map (fun i => cmpLine isInt (line i) (x.cell i 16))
  let cols := (List.range 16).map (fun n => cmpLine isInt (down n) (x.cell 16 n))
  let corner := cmpLine isInt (down 16) (x.cell 16 16)
  let bad (l : List CmpOut) : List Nat := (List.range 16).filter (fun k => decide (l[k]? = some CmpOut.fail))
  let all := rows ++ cols ++ [corner]
  let loc : Nat × Nat := match bad rows, bad cols with
    | [i], [n] => (i, n)
    | [i], [] => (i, 16)
    | [], [n] => (16, n)
    | [], [] => if corner = .fail then (16, 16) else (31, 31)
    | _, _ => (31, 31)
  ⟨!all.contains .fail, all.contains .skipped, loc.1, loc.2⟩

end Sys2Proof.Machine
end

