-- ==== Sys2Proof/Machine/Array.lean ====
section
/-! DEFINITION. The matrix array (R37-R70), its drains with the tally (R77-R89) and the emission path's tiles (R329-R333).
A drain and an emission have their effect whole when they start and keep their engine until their last bin read; an AMMA reads
its tiles up to three ahead of their verdicts, as the pipeline does (R56, R62; DESIGN CHOICE, log entry 55). -/

namespace Sys2Proof.Machine

/-! ### Issue (R49-R55) -/

/-- ARR_STAT follows the queue and the engines (R70); a read-out that runs to its last write is seen at the read
(`State.arrBusy`). -/
def State.arrSync (s : State) (core : Nat) : State :=
  let x := s.core core
  let busy := !x.arrQ.isEmpty || x.mmaPend.isSome || x.feed.isSome || !x.flight.isEmpty || x.rdPend.isSome
  (s.wr Reg.ARR_STAT.QDEPTH x.arrQ.length core).wr Reg.ARR_STAT.BUSY (b2n busy) core

/-- R55: an illegal array instruction is discarded, sets ARR_STAT.ILL and halts the core. -/
def State.arrIllegal (s : State) (core : Nat) (word : Word) : State :=
  (s.wr Reg.ARR_STAT.ILL 1 core).illegal core word.toNat 3 0x33

/-- Bin type as the instructions issued so far leave it (R55): true for integer. -/
def State.issuedInt (s : State) (core bin : Nat) : Bool :=
  if bin = 0 then (s.core core).issInt0 else (s.core core).issInt1

/-- An array instruction issued by the hand enters the queue (R53); `ok` is R55. A full queue holds the hand. -/
def State.arrIssue (s : State) (core : Nat) (word : Word) (ok : Bool) (enter : State → State) : State :=
  if s.canIssue core ∧ (s.core core).arrQ.length < 4 then
    (if ok then (enter s).advance core else s.arrIllegal core word)
  else s

/-- The instruction takes the next place in program order. -/
def State.arrPush (s : State) (core : Nat) (i : ArrInsn) : State :=
  (s.modCore core (fun c => { c with arrQ := c.arrQ ++ [(c.arrSeq, i)], arrSeq := c.arrSeq + 1 })).arrSync core

/-- R44-R48, R55: the descriptors of an operand read from the scratchpad. -/
def State.operandOk (s : State) (core : Nat) (fmt : Nat) (h : BitVec 5) (fur : BitVec 1) : Bool :=
  decide (fur = 1) ||
  (descOk (s.h core h.toNat) && (!codeMx fmt || (decide (h ≠ 31) && sdescOk (s.h core (h.toNat + 1)))))

/-- R55 for an AMMA. -/
def State.ammaOk (s : State) (core : Nat) (w : AmmaWord) : Bool :=
  let fa := w.fmta.toNat
  let fb := w.fmtb.toNat
  codeOk fa && codeOk fb && decide (codeDepth fa = codeDepth fb) && decide (codeInt fa = codeInt fb) &&
  (decide (w.zero = 1) || decide (s.issuedInt core w.bin.toNat = codeInt fa)) &&
  (decide (w.ta = 0) || (codeTrans fa && decide (w.srca = 0))) &&
  (decide (w.tb = 0) || (codeTrans fb && decide (w.srcb = 0))) && decide (w.rsv = 0) &&
  s.operandOk core fa w.ha w.srca && s.operandOk core fb w.hb w.srcb

/-- AMMA (R49): enters the queue with its descriptors as they stand; TILES = 0 changes nothing. -/
def execAmma (core : CoreId) (w : AmmaWord) (s : State) : Host.Outcome State Fault Refusal :=
  let i := core.val
  .next (s.arrIssue i w.word (s.ammaOk i w) (fun t =>
    if w.tiles = 0 then t
    else
      let insn : MmaInsn :=
        { fmta := w.fmta.toNat, fmtb := w.fmtb.toNat, bin := w.bin.toNat, zero := decide (w.zero = 1)
          ta := decide (w.ta = 1), tb := decide (w.tb = 1), srca := decide (w.srca = 1), srcb := decide (w.srcb = 1)
          tiles := w.tiles.toNat, da := t.h i w.ha.toNat, sa := t.h i (w.ha.toNat + 1), db := t.h i w.hb.toNat
          sb := t.h i (w.hb.toNat + 1) }
      let ty := codeInt w.fmta.toNat
      (t.modCore i (fun c =>
        if w.zero = 1 then (if w.bin = 0 then { c with issInt0 := ty } else { c with issInt1 := ty }) else c)).arrPush i
          (.mma insn)))

/-- R50, R55 for an ADRAIN; a reserved RND is illegal under every FMTO, one that ignores RND too (DESIGN CHOICE, log entry 67). -/
def State.adrainOk (s : State) (core : Nat) (w : AdrainWord) : Bool :=
  let f := w.fmto.toNat
  let d := s.h core w.hd.toNat
  let al := if f = 3 ∨ f = 4 then 16 else 32
  decide (f ≤ 5) && decide (w.rnd.toNat ≤ 1) && decide (w.rsv = 0) &&
  decide (s.issuedInt core w.bin.toNat = decide (f = 5)) &&
  decide (bits d.toNat 36 28 = 0) && decide (dAddr d % al = 0) && decide (dBstride d % al = 0)

/-- ADRAIN (R50). -/
def execAdrain (core : CoreId) (w : AdrainWord) (s : State) : Host.Outcome State Fault Refusal :=
  let i := core.val
  .next (s.arrIssue i w.word (s.adrainOk i w) (fun t =>
    t.arrPush i (.drain w.fmto.toNat (t.h i w.hd.toNat) w.bin.toNat w.rnd.toNat (decide (w.sat = 1)) (decide (w.tally = 1)))))

/-- AEMIT (R51). -/
def execAemit (core : CoreId) (w : AemitWord) (s : State) : Host.Outcome State Fault Refusal :=
  .next (s.arrIssue core.val w.word (decide (w.rsv = 0)) (fun t =>
    t.arrPush core.val (.emit w.bin.toNat w.floor.toNat w.sheaf.toNat w.tile.toNat)))

/-- AFENCE (R52, R53): enters the queue and holds the hand. -/
def execAfence (core : CoreId) (rsv : BitVec 56) (s : State) : Host.Outcome State Fault Refusal :=
  .next (s.arrIssue core.val (afenceWord rsv) (decide (rsv = 0)) (fun t =>
    (t.arrPush core.val .fence).modCore core.val (fun c => { c with hold := .afence })))

/-- HALT (R98, R116): the core halts with CAUSE 1; PC keeps the address of the HALT word; the drills run on (R214). A word with a reserved
operation halts it as R115 has it, in the array's unit as R55 has it. -/
def execHalt (core : CoreId) (w : Word) (s : State) : Host.Outcome State Fault Refusal :=
  .next (
    if wfield w 52 12 = 0x07F#12 then
      s.issue core.val w (handFields (.read w) false false false) (fun t => t.haltCore core.val 1)
    else if wfield w 60 4 = 2#4 then s.arrIssue core.val w false id
    else s.issue core.val w false id)

/-- The engines of the array have completed what they took: the last merges, and the last writes and bin reads (R52). -/
def State.arrIdle (s : State) (core : Nat) : Bool :=
  let x := s.core core
  x.mmaPend.isNone && x.feed.isNone && x.flight.isEmpty && x.rdPend.isNone &&
  (match x.rdRun with
   | some r => decide (r.writeEnd ≤ s.cycleEnd (croftOf core))
   | none => true)

/-- AFENCE_RELEASE (R52, R53): at the queue head, once every earlier array instruction is complete, the AFENCE leaves and the hand it
holds goes on. -/
def execAfenceRelease (core : CoreId) (s : State) : Host.Outcome State Fault Refusal :=
  let i := core.val
  match (s.core i).arrQ with
  | (_, .fence) :: rest =>
    if s.arrIdle i ∧ !s.stopped i then
      let s1 := (s.modCore i (fun c => { c with arrQ := rest })).arrSync i
      .next (if (s.core i).hold = .afence then s1.releaseHold i else s1)
    else .next s
  | _ => .next s

/-! ### Queue and engines (R53, R54) -/

/-- The instruction is for the MMA engine. -/
def ArrInsn.isMma : ArrInsn → Bool
  | .mma _ => true
  | _ => false

/-- The instruction is an AFENCE. -/
def ArrInsn.isFence : ArrInsn → Bool
  | .fence => true
  | _ => false

/-- ARRAY_DISPATCH (R53): the head of the queue leaves for its engine's free pending place; an AFENCE waits at the head. -/
def execArrayDispatch (core : CoreId) (s : State) : Host.Outcome State Fault Refusal :=
  let i := core.val
  let x := s.core i
  match x.arrQ with
  | [] => .next s
  | q :: rest =>
    if q.2.isFence || !s.croftIssues (croftOf i) then .next s
    else if q.2.isMma then
      .next (if x.mmaPend.isNone then (s.setCore i { x with arrQ := rest, mmaPend := some q }).arrSync i else s)
    else
      .next (if x.rdPend.isNone then (s.setCore i { x with arrQ := rest, rdPend := some q }).arrSync i else s)

/-- An operand of a tile about to be read: from the scratchpad, or empty where the furrow supplies it at the verdict. A
scratchpad read while an entry of the same lane is armed or running is a furrow fault with cause SLOT (R153). -/
def State.latchOperand (s : State) (core slot : Nat) (fmt : Nat) (fur trans : Bool) (d sd : Word) (t : Nat) :
    Option (OpTile × State) :=
  if fur then some (⟨[], [], false⟩, s)
  else if (slot = 0 ∧ s.rd Reg.FUR_STAT.INJ_A core = 1) ∨ (slot = 1 ∧ s.rd Reg.FUR_STAT.INJ_B core = 1) then none
  else some (s.readTile core slot fmt d sd trans t)

/-! ### Cold and warm (R57) -/

/-- The array becomes cold (R57). -/
def State.chill (s : State) (core : Nat) : State :=
  let t := if (s.core core).ramp.isSome then s.modCore core (fun c => { c with ramp := none }) else s
  if t.rd Reg.ARR_STAT.COLD core = 1 then t else t.wr Reg.ARR_STAT.COLD 1 core
/-- The ramp is over (R57). -/
def State.warm (s : State) (core : Nat) : State :=
  (s.modCore core (fun c => { c with ramp := none })).wr Reg.ARR_STAT.COLD 0 core
/-- Both operands of the next tile of the running AMMA; ARR_COUNT counts its 16 steps. After the last tile the engine is free. -/
def State.latchTile (s : State) (core : Nat) (f : MmaFeed) : State :=
  let i := f.insn
  match s.latchOperand core 0 i.fmta i.srca i.ta i.da i.sa f.next with
  | none => (s.modCore core (fun c => { c with feed := none })).furFault core 4
  | some (a, s1) =>
    match s1.latchOperand core 1 i.fmtb i.srcb i.tb i.db i.sb f.next with
    | none => (s1.modCore core (fun c => { c with feed := none })).furFault core 4
    | some (b, s2) =>
      (s2.incWrap Reg.ARR_COUNT.STEPS 16 core).modCore core (fun c =>
        { c with
          flight := c.flight ++ [⟨f.seq, i, f.next, a, b, f.cold, f.beat⟩]
          feed := if f.next + 1 < i.tiles then some { f with next := f.next + 1 } else none })

/-- The running AMMA reads tiles while fewer than three wait for their verdicts (R56, R62). A fault or the lock ends the
reading (R137). -/
def State.fillFlight (core : Nat) : Nat → State → State
  | 0, s => s
  | n + 1, s =>
    match (s.core core).feed with
    | some f =>
      if (s.core core).flight.length < 3 ∧ s.rd Reg.SP_STAT.LOCKED core = 0 then State.fillFlight core n (s.latchTile core f) else s
    | none => s

/-- The bin a read-out instruction reads. -/
def ArrInsn.bin : ArrInsn → Nat
  | .mma i => i.bin
  | .drain _ _ b _ _ _ => b
  | .emit b _ _ _ => b
  | .fence => 0

/-- An AMMA into bin `b`, earlier in program order than `q`, has not merged its last tile (R54). -/
def CoreX.mmaBefore (x : CoreX) (b q : Nat) : Bool :=
  x.flight.any (fun r => decide (r.insn.bin = b) && decide (r.seq < q)) ||
  (match x.feed with
   | some r => decide (r.insn.bin = b) && decide (r.seq < q)
   | none => false) ||
  (match x.mmaPend with
   | some (k, i) => decide (i.bin = b) && decide (k < q)
   | none => false)

/-- An ADRAIN or AEMIT of bin `b`, earlier in program order than `q`, has not made its last bin read in cycle `now` (R54). -/
def CoreX.readBefore (x : CoreX) (b q now : Nat) : Bool :=
  (match x.rdPend with
   | some (k, i) => decide (i.bin = b) && decide (k < q)
   | none => false) ||
  (match x.rdRun with
   | some r => decide (r.bin = b) && decide (r.seq < q) && decide (now + 1 < r.readEnd)
   | none => false)

/-- An AMMA starts (R53, R54, R59) after the last step of the one before, so late that its first merge, 46 cycles after its first step
or 58 where it begins the ramp, falls after the last bin read of every earlier read-out of its bin: its steps are planned and its
first tiles read. One that starts while a ramp runs goes on in it at full rate (R57). One that takes a furrow operand must find the
array warm (R162). -/
def State.startMma (s : State) (core sub : Nat) : State :=
  let x := s.core core
  let now := s.cycle (croftOf core) sub
  match x.mmaPend, x.feed with
  | some (q, .mma i), none =>
    let cold := s.cold core sub
    let begins := cold && x.ramp.isNone
    if 3 ≤ x.flight.length ∨ now < x.stepEnd ∨ x.readBefore i.bin q (now + (if begins then 57 else 45)) then s
    else if (i.srca || i.srcb) && cold then s.furFault core 3
    else
      let s1 := s.setCore core
        { x with
          mmaPend := none, feed := some ⟨q, i, 0, begins, (s.consBeat core sub).toNat⟩
          stepEnd := now + 16 * i.tiles + (if begins then 12 else 0)
          ramp := if begins then some (now + 32) else if cold then x.ramp else none }
      (State.fillFlight core 3 (s1.wr Reg.ARR_STAT.COLD (b2n cold) core)).arrSync core
  | _, _ => s

/-! ### Read-out: drains and the tally (R50, R58, R77-R87) -/

/-- A bin's cell. -/
def State.binCell (s : State) (core bin k : Nat) : BitVec 32 := Store.getD s.bins ((core * 2 + bin) * 256 + k) 0
/-- A bin's type as merged so far: true for integer (R43). -/
def State.binInt (s : State) (core bin : Nat) : Bool :=
  if bin = 0 then decide (s.rd Reg.ARR_STAT.BIN0_INT core = 1) else decide (s.rd Reg.ARR_STAT.BIN1_INT core = 1)

/-- The float format of an FMTO code. -/
def fmtoFmt (f : Nat) : Fmt := if f = 1 then fp16 else if f = 2 then bf16 else if f = 3 then e4m3 else if f = 4 then e5m2 else fp32
/-- Bytes of an element of an FMTO code. -/
def fmtoBytes (f : Nat) : Nat := if f = 0 ∨ f = 5 then 4 else if f ≤ 2 then 2 else 1

/-- A tally counter up by one, stopping at all ones and then setting CSAT (R86). -/
def State.tallyInc (s : State) (core slot : Nat) (f : Fld) (j : Nat) : State :=
  let v := s.rd f core j
  if v = 2 ^ f.width - 1 then s.wr Reg.TLY_BIND.CSAT 1 core slot
  else
    let s1 := s.wr f (v + 1) core j
    if v + 1 = 2 ^ f.width - 1 then s1.wr Reg.TLY_BIND.CSAT 1 core slot else s1

/-- R86: one observed value and its conversion. -/
def State.observe (s : State) (core slot : Nat) (x : FVal) (c : Conv) (outZero : Bool) : State :=
  if x.isZero then s.tallyInc core slot Reg.TLY_CNT.ZERO slot
  else if x.nonFinite then s.tallyInc core slot Reg.TLY_CNT.NONFIN slot
  else
    let b := (clampInt 0 63 (x.exponent + 48)).toNat
    let s1 := s.tallyInc core slot (if b % 2 = 0 then Reg.TLY_HIST.HIST_LO else Reg.TLY_HIST.HIST_HI) (slot * 32 + b / 2)
    let s2 := if c.ovf then s1.tallyInc core slot Reg.TLY_CNT.OVF slot else s1
    if outZero then s2.tallyInc core slot Reg.TLY_CNT.UNF slot else s2

/-- R86: the slot that observes a drain which starts now, if one does. -/
def State.observer (s : State) (core bin : Nat) (tally : Bool) : Option Nat :=
  let slot := s.rd Reg.TLY_CTL.SLOT core
  if tally && decide (s.rd Reg.TLY_BIND.BOUND core slot = 1) && !s.binInt core bin then some slot else none

/-- ADRAIN's effect (R50, R77-R82, R86, R87): 16 rows converted and written through slot 2. -/
def State.drainBin (s : State) (core fmto : Nat) (desc : Word) (bin rnd : Nat) (sat tally : Bool) : State :=
  let slot := s.rd Reg.TLY_CTL.SLOT core
  let obs := (s.observer core bin tally).isSome
  let sigma : Int := if obs then sint 8 (s.rd Reg.TLY_BIND.SIGMA core slot) else 0
  let stoch := decide (rnd = 1) && decide (1 ≤ fmto) && decide (fmto ≤ 4)
  let seq := s.rd Reg.NUM_SR_SEQ.SEQ core
  let fmt := fmtoFmt fmto
  let val (k : Nat) : FVal := fp32.decode (s.binCell core bin k).toNat
  let conv (k : Nat) : Conv :=
    let r : Rnd := if stoch then .sr (srBits (s.rd Reg.NUM_SR.SEED core) (s.rd Reg.NUM_SR.STEP core) core seq k) else .rne
    fmt.convert r (sat && decide (fmto ≠ 0)) ((val k).scale sigma)
  let code (k : Nat) : Nat := if fmto = 5 then (s.binCell core bin k).toNat else (conv k).code
  let nb := fmtoBytes fmto
  let s1 := if stoch then s.incWrap Reg.NUM_SR_SEQ.SEQ 1 core else s
  let s2 := (List.range 16).foldl (fun t i =>
    t.spWrite core (dAddr desc + i * dBstride desc) 2 ((List.range 16).flatMap (fun n => leBytes nb (code (16 * i + n))))) s1
  if obs then (List.range 256).foldl (fun t k => t.observe core slot (val k) (conv k) ((fmt.decode (conv k).code).isZero)) s2
  else s2

/-! ### Emission (R329-R333) -/

/-- bitlen of R329. -/
def bitlen (k : Nat) : Nat := if k = 0 then 0 else ilog2 k + 1

/-- One element of an exact tile at scale s (R329): q, NF, overflow d. -/
def exactElem (s : Int) (x : FVal) : Int × Bool × Nat :=
  if x.nonFinite then (0, true, 0)
  else
    let q := (x.scale (-s)).toInt
    let lim : Int := 2147483647
    if lim < q.natAbs then ((if q < 0 then -lim else lim), false, min 255 (bitlen q.natAbs - 31)) else (q, false, 0)

/-- The valid EMIT_SCALE entry of a sheaf, if it is exact (R329). -/
def State.exactEntry (s : State) (core sheaf : Nat) : Option Nat :=
  (List.range 64).find? (fun j =>
    decide (s.rd Reg.EMIT_SCALE.VALID core j = 1) && decide (s.rd Reg.EMIT_SCALE.SHEAF core j = sheaf))

/-- A SHEAF packet from a core to the floor entry of its own row (R330). -/
def State.sheafPacket (s : State) (core floor : Nat) (body : Nat) (data : List Byte) : Packet :=
  { ty := 0xC, vc := 0, dkind := 2 + floor, dst := rowOf core, skind := 0, src := core, encl := (s.enclOfCore core).getD 0
    tag := 0, tick := s.estTick (croftOf core) % 2 ^ 16, status := 0, kcopy := false, body := body, via := 0, tree := [], data := data
    poison := [] }

/-- The body of a SHEAF packet, bit 88 first (R330). -/
def sheafBody (sheaf tile part kind round scale nf csat ovf step : Nat) : Nat :=
  sheaf % 2 ^ 16 + tile % 2 ^ 16 * 2 ^ 16 + part * 2 ^ 32 + kind * 2 ^ 34 + round % 16 * 2 ^ 36 + scale % 2 ^ 9 * 2 ^ 40 +
  nf * 2 ^ 49 + csat * 2 ^ 50 + ovf % 256 * 2 ^ 51 + step % 2 ^ 32 * 2 ^ 59

/-- The four packets of a tile of 256 values (R329-R331): FP32 codes for an FP32 sheaf, an integer bin's values rounded to them
(DESIGN CHOICE, log entry 68); scaled integers for an exact one. -/
def State.tilePackets (s : State) (core floor sheaf tile round : Nat) (scale : Option Int) (vals : List FVal) : List Packet :=
  let step := s.rd Reg.NUM_SR.STEP core
  (List.range 4).map (fun p =>
    let xs := (vals.drop (64 * p)).take 64
    match scale with
    | none =>
      s.sheafPacket core floor (sheafBody sheaf tile p 0 round 0 0 0 0 step) (xs.flatMap (fun v => leBytes 4 (fp32.round v)))
    | some sc =>
      let es := xs.map (exactElem sc)
      s.sheafPacket core floor
        (sheafBody sheaf tile p 1 round (wrapInt 9 sc) (b2n (es.any (fun e => e.2.1))) 0 ((es.map (fun e => e.2.2)).foldl max 0) step)
        (es.flatMap (fun e => leBytes 4 (wrapInt 32 e.1))))

/-- EMIT_STAT follows the emission path (R353). -/
def State.emitSync (s : State) (core : Nat) : State :=
  let x := s.core core
  ((s.wr Reg.EMIT_STAT.RET_USED x.retention.length core).wr Reg.EMIT_STAT.BUSY (b2n (!x.emit.isEmpty)) core).wr
    Reg.EMIT_STAT.REEMIT (b2n (x.retention.any Retained.again)) core

/-- R333: the flush buffer moves into the emission path as two statistics packets, once it has room for both. -/
def State.flushOut (s : State) (core : Nat) : State :=
  let x := s.core core
  match x.flush with
  | none => s
  | some f =>
    if x.emit.length ≤ 6 then
      let e := s.encl ((s.enclOfCore core).getD 0)
      let step := s.rd Reg.NUM_SR.STEP core
      let p0 := s.sheafPacket core e.statFloor (sheafBody e.statSheaf f.id 0 2 0 0 0 (b2n f.csat) 0 step) (f.hist.flatMap (leBytes 4))
      let p1 := s.sheafPacket core e.statFloor (sheafBody e.statSheaf f.id 1 2 0 0 0 (b2n f.csat) 0 step)
        (leBytes 4 f.zero ++ leBytes 4 f.nonfin ++ leBytes 4 f.ovf ++ leBytes 4 f.unf ++ List.replicate 16 0)
      ((s.setCore core { x with flush := none, emit := x.emit ++ [p0, p1] }).wr Reg.TLY_CTL.FLUSH_BUSY 0 core).emitSync core
    else s

/-- AEMIT's effect (R329-R332): four packets into the emission path; an exact tile is kept in a retention slot. -/
def State.emitBin (s : State) (core bin floor sheaf tile : Nat) : State :=
  let x := s.core core
  let isInt := s.binInt core bin
  let val (k : Nat) : FVal :=
    if isInt then FVal.ofInt (s.binCell core bin k).toInt else fp32.decode (s.binCell core bin k).toNat
  let vals := (List.range 256).map val
  let ent := s.exactEntry core sheaf
  let scale := ent.map (fun j => sint 9 (s.rd Reg.EMIT_SCALE.S core j))
  let round := (ent.map (fun j => s.rd Reg.EMIT_SCALE.ROUND core j)).getD 0
  let ps := s.tilePackets core floor sheaf tile round scale vals
  let keep : List Retained := match ent with
    | some _ => [⟨sheaf, tile, floor, vals.map fp32.round, round, false⟩]
    | none => []
  ((s.setCore core { x with emit := x.emit ++ ps, retention := x.retention ++ keep }).incSat Reg.EMIT_STAT.TILES 1 core).emitSync core

/-- A read-out starts (R53, R54, R58): an AEMIT waits for room for its four packets (R331) and, for an exact tile, a
retention slot. The engine is free again after its last bin read. -/
def State.startReadOut (s : State) (core sub : Nat) : State :=
  let x := s.core core
  let now := s.cycle (croftOf core) sub
  match x.rdPend with
  | none => s
  | some (q, i) =>
    if x.mmaBefore i.bin q ∨ (x.rdRun.any (fun r => decide (now < r.readEnd))) then s
    else
      let go (obs : Option Nat) (reads writes : Nat) : State :=
        s.setCore core { x with rdPend := none, rdRun := some ⟨q, i.bin, obs, now + reads, now + writes⟩ }
      match i with
      | .drain f d b r sat tly =>
        let w := if f = 0 ∨ f = 5 then 2 else 1
        ((go (s.observer core b tly) (16 * w) (16 * w + 4)).drainBin core f d b r sat tly).arrSync core
      | .emit b fl sh t =>
        if x.emit.length ≤ 4 ∧ (s.exactEntry core sh = none ∨ x.retention.length < 8) then
          ((go none 32 32).emitBin core b fl sh t).arrSync core
        else s
      | .mma _ | .fence => s

/-- ARRAY_ENGINE_START (R53): the pending instruction of an engine starts, when its interlocks allow and the core is neither
stopped nor locked (R137). `sub` is the cycle within the tick, which fixes the consumption beat of a furrow operand. -/
def execArrayEngineStart (core : CoreId) (readOut : Bool) (sub : Fin 8) (s : State) : Host.Outcome State Fault Refusal :=
  .next (if s.stopped core.val ∨ s.rd Reg.SP_STAT.LOCKED core.val = 1 then s else if readOut then s.startReadOut core.val sub.val else s.startMma core.val sub.val)

/-! ### Verdicts (R60-R64) -/

/-- R40, R41: a tile merges into its bin. -/
def State.mergeTile (s : State) (core : Nat) (i : MmaInsn) (tile : Nat) (p : List Int) : State :=
  let isInt := codeInt i.fmta
  let set := i.zero && decide (tile = 0)
  let out (k : Nat) : BitVec 32 × Bool :=
    let v := p[k]?.getD 0
    let old := s.binCell core i.bin k
    if isInt then satInt32 (if set then v else old.toInt + v)
    else if set then (BitVec.ofInt 32 v, false)
    else (BitVec.ofNat 32 (fp32.round (FVal.add (fp32.decode old.toNat) (fp32.decode v.toNat))), false)
  let base := (core * 2 + i.bin) * 256
  let s1 := { s with
    bins := (List.range 256).foldl (fun m k => Store.put m (base + k) (out k).1) s.bins }
  let s2 := s1.arrFlags core ((List.range 256).any (fun k => (out k).2)) false
  if set then
    (if i.bin = 0 then s2.wr Reg.ARR_STAT.BIN0_INT (b2n isInt) core else s2.wr Reg.ARR_STAT.BIN1_INT (b2n isInt) core)
  else s2

/-- The operands of the tile under way, with the furrow's part taken from the beats it consumed; none where one was void. -/
def State.tileOperands (s : State) (core : Nat) (r : MmaRun) : Option MmaRun :=
  let beat := r.beat + 16 * r.tile
  let a := if r.insn.srca then s.furTile core 0 r.insn.fmta beat else some r.a
  let b := if r.insn.srcb then s.furTile core 1 r.insn.fmtb beat else some r.b
  match a, b with
  | some x, some y => some { r with a := x, b := y }
  | _, _ => none

/-- The tile passed: it merges, the array is warm past its ramp (R57), and the running AMMA reads on. -/
def State.tilePass (s : State) (core : Nat) (r : MmaRun) (x : Cells) : State :=
  let s1 := (s.mergeTile core r.insn r.tile x.plane).warm core
  (State.fillFlight core 1 (s1.modCore core (fun c => { c with flight := c.flight.drop 1 }))).arrSync core

/-- R61: where a failing verdict lies. -/
def State.chkLoc (s : State) (core row col : Nat) : State :=
  ((s.wr Reg.ARR_CHK.LOC_ROW row core).wr Reg.ARR_CHK.LOC_COL col core).wr Reg.ARR_CHK.LOC_VALID 1 core

/-- Tile count of R62: 58 for a tile that spans the ramp, else 46. -/
def MmaRun.count (r : MmaRun) : Nat := if r.cold && decide (r.tile = 0) then 58 else 46

/-- The hold queue in order (R159): ascending verdict tick, croft and cycle; verdicts of one croft in one cycle share the
longest. -/
def addHold (h : SegHold) : List SegHold → List SegHold
  | [] => [h]
  | x :: t =>
    if x.tick = h.tick ∧ x.croft = h.croft ∧ x.cyc = h.cyc then { x with len := max x.len h.len } :: t
    else if h.tick < x.tick ∨ (h.tick = x.tick ∧ (h.croft < x.croft ∨ (h.croft = x.croft ∧ h.cyc < x.cyc))) then h :: x :: t
    else x :: addHold h t

/-- R159: a failing verdict of a core on a running segment asks for a hold. -/
def State.askHold (s : State) (core len sub : Nat) : State :=
  match s.segOf core with
  | none => s
  | some g =>
    if s.rd Reg.FUR_RUN.RUN (j := g) = 1 then
      s.modSeg g (fun x => { x with holds := addHold ⟨s.estTick (croftOf core), croftOf core, sub, len⟩ x.holds })
    else s

/-- R67: the cells of a tile, with the rows the repair map gives. -/
def State.cellsOf (s : State) (core : Nat) (r : MmaRun) (cells : CheckCells) : Cells :=
  tileCells (decide (s.rd Reg.ARR_REPAIR.SPARE_EN core = 1)) (s.rd Reg.ARR_REPAIR.BAD_ROW core) r.insn r.a r.b cells

/-- The array takes no further verdict for what the store holds (R64). -/
def State.dropArray (s : State) (core : Nat) : State :=
  (s.modCore core (fun c =>
    { c with
      arrQ := [], mmaPend := none, feed := none, flight := [], rdPend := none })).arrSync core

/-- TILE_VERDICT (R60-R63): the cells of the oldest tile are compared; on a pass it merges, on a failure the location is recorded,
counted and raised, and the core recomputes from the replay store. A held core takes no verdict; a tile merges only after the
earlier read-outs of its bin (R54). -/
def execTileVerdict (core : CoreId) (cells : CheckCells) (sub : Fin 8) (s : State) : Host.Outcome State Fault Refusal :=
  let i := core.val
  match (s.core i).flight with
  | [] => .next s
  | r0 :: rest =>
    if s.stopped i ∨ (s.core i).readBefore r0.insn.bin r0.seq (s.cycle (croftOf i) sub.val) then .next s
    else match s.tileOperands i r0 with
      | none => .next (s.furFault i 1)
      | some r =>
        let x := s.cellsOf i r cells
        let v := verdict (codeInt r.insn.fmta) x
        let bad := r.a.poison || r.b.poison
        let s1 := s.arrFlags i false v.nonfinite
        if v.pass && !bad then .next (s1.tilePass i r x)
        else
          let s2 := (s1.warm i).chkLoc i (if bad then 31 else v.row) (if bad then 31 else v.col)
          let s3 := ((s2.incSat Reg.ARR_CHK.CHK_TOTAL 1 i).incSat Reg.ARR_CHK.CHK_STEP 1 i).incSat Reg.ARR_COUNT.RETRIES 1 i
          let s4 := s3.raiseCore i 0x31 (s3.copyOf Reg.ARR_CHK.CHK_TOTAL i)
          let fill := if s.furRuns i then some (s.cycle (croftOf i) sub.val + 1, r.count) else (s.core i).catchUp
          let s5 := s4.modCore i (fun c =>
            { c with
              flight := r :: rest, retry := true, catchUp := fill })
          .next (s5.askHold i r.count sub.val)

/-- TILE_RERUN_VERDICT (R62, R64): the re-run tile, from the replay store, takes a fresh verdict after its tile count, by which the
core's later counts move; a second failure is an array fault. A stalled or stopped croft re-runs nothing (R233). -/
def execTileRerunVerdict (core : CoreId) (cells : CheckCells) (s : State) : Host.Outcome State Fault Refusal :=
  let i := core.val
  match (s.core i).flight with
  | [] => .next s
  | r :: _ =>
    if (s.core i).retry ∧ s.croftIssues (croftOf i) then
      let x := s.cellsOf i r cells
      let v := verdict (codeInt r.insn.fmta) x
      let bad := r.a.poison || r.b.poison
      let s1 := ((s.arrFlags i false v.nonfinite).modCore i (fun c => { c with retry := false })).shiftArr i r.count
      if v.pass && !bad then .next ((s1.tilePass i r x).catchEnd i)
      else
        let s2 := (s1.chkLoc i (if bad then 31 else v.row) (if bad then 31 else v.col)).wr Reg.ARR_STAT.FAULT 1 i
        let s3 := s2.raiseCore i 0x32 (s2.copyOf Reg.ARR_CHK.CHK_TOTAL i)
        .next ((s3.dropArray i).coreFault i 3 0x32)
    else .next s

/-- ARRAY_COOL (R57): 64 cycles without a step; cycles held by a retry or a stall count as neither. -/
def execArrayCool (core : CoreId) (s : State) : Host.Outcome State Fault Refusal :=
  let i := core.val
  .next (if (s.core i).feed.isNone ∧ (s.core i).stepEnd + 64 ≤ s.cycleEnd (croftOf i) ∧ !s.stopped i then s.chill i else s)

/-- ARR_REPAIR_COMMIT (R69, R13): the staged repair map takes effect on a halted core when it agrees. -/
def execArrRepairCommit (core : CoreId) (s : State) : Host.Outcome State Fault Refusal :=
  let i := core.val
  let fs := [Reg.ARR_REPAIR.SPARE_EN, Reg.ARR_REPAIR.BAD_ROW]
  let en := s.stg Reg.ARR_REPAIR.SPARE_EN i
  let row := s.stg Reg.ARR_REPAIR.BAD_ROW i
  if !s.anyStaged fs i then .next s
  else if s.rd Reg.HND_STAT.HALTED i = 1 ∧ row ≤ 16 ∧ (en = 0 → row = 0) ∧ (en = 1 → s.rd Reg.ARR_REPAIR.SPARE_GOOD i = 1) then
    .next (s.applyAll fs i)
  else .next ((s.dropAll fs i).raiseCore i 0x01 (Reg.ARR_REPAIR.COMMIT.addr i 0))

/-! ### The tally's slots (R88) -/

/-- TLY_BIND (R88): the hand writes TLY_BIND_n and is held. -/
def execTlyBind (core : CoreId) (n : Fin 4) (value : Word) (s : State) : Host.Outcome State Fault Refusal :=
  .next (if s.canIssue core.val then s.tlyBindHold core.val n.val value else s)

/-- R88: an earlier-issued drain that observes the slot has not made its last write. A waiting drain counts while the slot is the
active one: should the binding come first, the drain would observe it (DEDUCED, log entry 56). -/
def State.tallyWaits (s : State) (core n : Nat) : Bool :=
  let x := s.core core
  let isT (p : Nat × ArrInsn) : Bool := match p.2 with
    | .drain f _ _ _ _ t => t && decide (f ≠ 5)
    | _ => false
  (decide (s.rd Reg.TLY_CTL.SLOT core = n) && (x.arrQ.any isT || (x.rdPend.map isT).getD false)) ||
  x.rdRun.any (fun r => decide (r.slot = some n) && decide (s.cycleEnd (croftOf core) < r.writeEnd))

/-- The slot's counters copied into the flush buffer and cleared (R88). -/
def State.flushSlot (s : State) (core n : Nat) : State :=
  let hist := (List.range 64).map (fun b =>
    s.rd (if b % 2 = 0 then Reg.TLY_HIST.HIST_LO else Reg.TLY_HIST.HIST_HI) core (n * 32 + b / 2))
  let f : Flush :=
    { id := s.rd Reg.TLY_BIND.TALLY_ID core n, csat := decide (s.rd Reg.TLY_BIND.CSAT core n = 1)
      zero := s.rd Reg.TLY_CNT.ZERO core n, nonfin := s.rd Reg.TLY_CNT.NONFIN core n
      ovf := s.rd Reg.TLY_CNT.OVF core n, unf := s.rd Reg.TLY_CNT.UNF core n, hist := hist }
  let s1 := ((((s.wr Reg.TLY_BIND.CSAT 0 core n).wr Reg.TLY_CNT.ZERO 0 core n).wr Reg.TLY_CNT.NONFIN 0 core n).wr
    Reg.TLY_CNT.OVF 0 core n).wr Reg.TLY_CNT.UNF 0 core n
  let s2 := (List.range 32).foldl (fun t j =>
    (t.wr Reg.TLY_HIST.HIST_LO 0 core (n * 32 + j)).wr Reg.TLY_HIST.HIST_HI 0 core (n * 32 + j)) s1
  ((s2.modCore core (fun c => { c with flush := some f })).wr Reg.TLY_CTL.FLUSH_BUSY 1 core).flushOut core

/-- R88: a write of TLY_BIND_n takes effect once no earlier drain that observes the slot is under way and the flush buffer is free
where it is needed: a bound slot is flushed, and the new binding holds. None while it waits. -/
def State.bindSlot (s : State) (core n : Nat) (v : Word) : Option State :=
  let bound := decide (s.rd Reg.TLY_BIND.BOUND core n = 1)
  if s.tallyWaits core n ∨ (bound ∧ (s.core core).flush.isSome) then none
  else
    let s1 := if bound then s.flushSlot core n else s
    some (((s1.wr Reg.TLY_BIND.TALLY_ID (bits v.toNat 0 10) core n).wr Reg.TLY_BIND.BOUND (bits v.toNat 10 1) core n).wr
      Reg.TLY_BIND.SIGMA (bits v.toNat 16 8) core n)

/-- The first write of TLY_BIND from outside that waits takes effect, once it can. -/
def State.bindNext (s : State) (core : Nat) : State :=
  match (s.core core).binds with
  | [] => s
  | b :: rest =>
    match s.bindSlot core b.1 b.2 with
    | some t => t.modCore core (fun c => { c with binds := rest })
    | none => s

/-- TLY_BIND_APPLY (R88): the binding for which the hand is held takes effect and releases it; without one, the first write from
outside that waits does. -/
def execTlyBindApply (core : CoreId) (s : State) : Host.Outcome State Fault Refusal :=
  let i := core.val
  .next (match (s.core i).hold with
    | .tlyBind n v =>
      if s.stopped i then s
      else match s.bindSlot i n v with
        | some t => t.releaseHold i
        | none => s
    | _ => s.bindNext i)

end Sys2Proof.Machine
end

