-- ==== Sys2Proof/Machine/Furrow.lean ====
section
/-! DEFINITION. The furrow's instructions and its segments (R142-R164). An entry or a capture moves, at each command, every beat
that the ring has come to (DESIGN CHOICE, log entry 12). -/

namespace Sys2Proof.Machine

/-! ### The engines of a core (R156) -/

/-- FUR_STAT follows the engines. -/
def State.furSync (s : State) (core : Nat) : State :=
  let x := s.core core
  ((s.wr Reg.FUR_STAT.INJ_A (b2n (x.injA.isSome || x.injApend.isSome)) core).wr
    Reg.FUR_STAT.INJ_B (b2n (x.injB.isSome || x.injBpend.isSome)) core).wr Reg.FUR_STAT.CAP (b2n (x.cap.isSome || x.capPend.isSome)) core

/-- An engine of a core: 0 entry on lane A, 1 entry on lane B, 2 capture. Running and pending instruction. -/
def CoreX.engine (x : CoreX) (e : Nat) : Option FurOp × Option FurOp :=
  if e = 0 then (x.injA, x.injApend) else if e = 1 then (x.injB, x.injBpend) else (x.cap, x.capPend)
/-- Replace what an engine holds. -/
def CoreX.setEngine (x : CoreX) (e : Nat) (p : Option FurOp × Option FurOp) : CoreX :=
  if e = 0 then { x with injA := p.1, injApend := p.2 }
  else if e = 1 then { x with injB := p.1, injBpend := p.2 }
  else { x with cap := p.1, capPend := p.2 }

/-- R156: an instruction becomes running; while the segment runs, a start beat at or below the ring beat is LATE. -/
def State.furBecomes (s : State) (core : Nat) (o : FurOp) (rb : Int) : State :=
  if s.furRuns core ∧ (o.beat : Int) ≤ rb then s.furFault core 6 else s

/-- The array still has steps to accept that read operand A (lane A) or B (lane B) from the scratchpad. -/
def State.stepsRead (s : State) (core lane sub : Nat) : Bool :=
  let x := s.core core
  let local_ (i : MmaInsn) : Bool := if lane = 0 then !i.srca else !i.srcb
  match x.feed, x.flight.getLast? with
  | some f, _ => local_ f.insn
  | none, some r => local_ r.insn && decide (s.cycle (croftOf core) sub + 1 < x.stepEnd)
  | none, none => false

/-- FINJ or FCAP into its engine (R156): running, pending, or the hand is held while both places are taken. An entry armed while the
array reads its slot meets a step of the array: SLOT (R153). -/
def State.furArm (s : State) (core e : Nat) (o : FurOp) (sub : Nat) : State :=
  let p := (s.core core).engine e
  match p with
  | (none, q) =>
    let t := (((s.modCore core (fun c => c.setEngine e (some o, q))).furSync core).advance core).furBecomes core o (s.ringBeat core sub)
    if e < 2 ∧ s.stepsRead core e sub ∧ t.rd Reg.HND_STAT.HALTED core = 0 then t.furFault core 4 else t
  | (some r, none) => ((s.modCore core (fun c => c.setEngine e (some r, some o))).furSync core).advance core
  | (some _, some _) => s

/-- The engine's running instruction has ended at beat `last`; the pending one becomes running. -/
def State.furNext (s : State) (core e last : Nat) : State :=
  match (s.core core).engine e with
  | (_, none) => (s.modCore core (fun c => c.setEngine e (none, none))).furSync core
  | (_, some o) => ((s.modCore core (fun c => c.setEngine e (some o, none))).furSync core).furBecomes core o (last : Int)

/-- The instruction a word names. -/
def State.furOpOf (s : State) (core : Nat) (w : FurWord) : FurOp :=
  { fmt := w.fmt.toNat, lane := w.lane.toNat, trans := decide (w.trans = 1), desc := s.h core w.hs.toNat
    sdesc := s.h core (w.hs.toNat + 1), beat := (s.h core w.hb.toNat).toNat % 2 ^ 48, tiles := w.tiles.toNat, done := 0 }

/-- The descriptors of a furrow instruction (R46, R157). -/
def State.furDescOk (s : State) (core : Nat) (w : FurWord) (cap : Bool) : Bool :=
  let d := s.h core w.hs.toNat
  (if cap then capDescOk d else descOk d) &&
  (!codeMx w.fmt.toNat || (decide (w.hs ≠ 31) && sdescOk (s.h core (w.hs.toNat + 1))))

/-- FINJ (R152, R156, R157): arms an entry of TILES tiles on a lane. -/
def execFinj (core : CoreId) (w : FurWord) (sub : Fin 8) (s : State) : Host.Outcome State Fault Refusal :=
  let i := core.val
  let ok := codeOk w.fmt.toNat && (decide (w.trans = 0) || codeTrans w.fmt.toNat) && decide (w.rsv = 0) &&
    (s.segOf i).isSome && s.furDescOk i w false
  .next (s.issue i (w.word 1#4) ok (fun t =>
    if w.tiles = 0 then t.advance i else t.furArm i w.lane.toNat (t.furOpOf i w) sub.val))

/-- FCAP (R155-R157): arms a capture of TILES tiles of a lane. -/
def execFcap (core : CoreId) (w : FurWord) (sub : Fin 8) (s : State) : Host.Outcome State Fault Refusal :=
  let i := core.val
  let ok := codeOk w.fmt.toNat && decide (w.trans = 0) && decide (w.rsv = 0) && (s.segOf i).isSome && s.furDescOk i w true
  .next (s.issue i (w.word 2#4) ok (fun t =>
    if w.tiles = 0 then t.advance i else t.furArm i 2 (t.furOpOf i w) sub.val))

/-- FWAIT (R158): holds the hand until the consumption beat equals h[HB]; a beat already passed is LATE; before the segment
runs, it holds. -/
def execFwait (core : CoreId) (w : FurWord) (sub : Fin 8) (s : State) : Host.Outcome State Fault Refusal :=
  let i := core.val
  let ok := decide (w.fmt = 0) && decide (w.lane = 0) && decide (w.trans = 0) && decide (w.hs = 0) && decide (w.tiles = 0) &&
    decide (w.rsv = 0) && (s.segOf i).isSome
  .next (s.issue i (w.word 3#4) ok (fun t =>
    let b := (t.h i w.hb.toNat).toNat
    let now := t.consBeat i sub.val
    let held := (t.modCore i (fun c => { c with hold := .fwait b })).advance i
    if t.furRuns i then
      (if now = (b : Int) then t.advance i else if (b : Int) < now then (t.advance i).furFault i 6 else held)
    else held))

/-- FWAIT_RELEASE (R158): the consumption beat has come. -/
def execFwaitRelease (core : CoreId) (sub : Fin 8) (s : State) : Host.Outcome State Fault Refusal :=
  let i := core.val
  match (s.core i).hold with
  | .fwait b =>
    .next (if s.furRuns i ∧ (b : Int) ≤ s.consBeat i sub.val ∧ !s.stopped i then
      s.releaseHold i else s)
  | _ => .next s

/-! ### Entry and capture (R150, R152-R155) -/

/-- The output by which a position sends to the next one: 2 E, 3 S, 4 W; the last position sends north (R142, R143). -/
def State.furSide (s : State) (g p : Nat) : Nat :=
  let w := 20 * s.rd Reg.FUR_SEG.CCOLS (j := g)
  if p + 1 = s.segLen g then 1
  else if p % w = w - 1 then 3
  else if p / w % 2 = 0 then 2 else 4

/-- Beat `k` of an entry enters the ring; a live arrival is COLLIDE (R154), and so is its own arrival in a beat of an entry further
on. `bad` names the router whose link it fails parity on (R478). -/
def State.enterBeat (s : State) (core g : Nat) (o : FurOp) (bad : List (Nat × CoreId)) (k : Nat) : State :=
  let p := s.rd Reg.FUR_POS.POS core
  let b := o.beat + k
  let ring := (s.seg g).ring
  if arrivesLive (s.lap g) ring o.lane p b then s.furFault core 2
  else match meetsEntry (s.lap g) ring o.lane p b with
  | some q => s.furFault (s.coreAtPos g q) 2
  | none =>
    let r := s.readStep core o.lane o.fmt o.desc o.sdesc o.trans (k / 16) (k % 16)
    let hit := bad.find? (fun q => decide (q.1 = k))
    let x : Payload := { lane := o.lane, pos := p, beat := b, data := r.1, poison := hit.map (fun q => s.rd Reg.FUR_POS.POS q.2.val) }
    let s1 := r.2.modSeg g (fun y => { y with ring := y.ring ++ [x] })
    match hit with
    | some q => s1.linkParity q.2.val (s1.furSide g (s1.rd Reg.FUR_POS.POS q.2.val)) true false
    | none => s1

/-- Payloads that every position has seen leave the list. -/
def State.pruneRing (s : State) (g : Nat) : State :=
  let past := s.furBehind g
  s.modSeg g (fun x => { x with ring := x.ring.filter (fun y => decide (past ≤ y.beat + 2 * s.lap g + 128)) })

/-- Beats of an entry or a capture that the ring has come to, of those not moved yet. -/
def FurOp.due (o : FurOp) (rb : Int) : List Nat :=
  let upTo := min (16 * o.tiles) (rb + 1 - (o.beat : Int)).toNat
  (List.range (upTo - o.done)).map (fun k => o.done + k)

/-- FURROW_ENTRY_RUN (R150, R152, R154, R156): a running entry enters every beat that the ring has come to; `bad` names the beats that
fail parity and the router that sent them (R478). Its last beat, or a fault, ends it; a wipe refuses its slot (R137). -/
def execFurrowEntryRun (core : CoreId) (laneB : Bool) (bad : List (Nat × CoreId)) (sub : Fin 8) (s : State) :
    Host.Outcome State Fault Refusal :=
  let i := core.val
  let e := if laneB then 1 else 0
  match ((s.core i).engine e).1, s.segOf i with
  | some o, some g =>
    let due := o.due (s.ringBeat i sub.val)
    if s.furRuns i ∧ s.rd Reg.SP_STAT.LOCKED i = 0 ∧ !due.isEmpty then
      let s1 := due.foldl (fun t k => if t.furRuns i then t.enterBeat i g o bad k else t) (s.pruneRing g)
      let moved := o.done + due.length
      .next (if !s1.furRuns i then s1
        else if moved = 16 * o.tiles then s1.furNext i e (o.beat + 16 * o.tiles - 1)
        else s1.modCore i (fun c => c.setEngine e (some { o with done := moved }, (c.engine e).2)))
    else .next s
  | _, _ => .next s

/-- One captured beat (R155): 32 B of data, and for an MX format its two scale bytes, through slot 6; a poisoned beat is not
stored (R478). None where the lane is void. -/
def State.captureBeat (s : State) (core g : Nat) (o : FurOp) (t j : Nat) : Option State :=
  let p := s.rd Reg.FUR_POS.POS core
  match findPayload (s.lap g) (s.seg g).ring o.lane p (o.beat + 16 * t + j) with
  | none => none
  | some x =>
    if x.badAt (s.segLen g) p then some s
    else
      let s1 := s.spWrite core (dAddr o.desc + t * dTstride o.desc + 32 * j) 6 (slice x.data 0 32)
      some (if codeMx o.fmt then s1.spWrite core (dAddr o.sdesc + t * dBstride o.sdesc + 2 * j) 6 (slice x.data 32 2) else s1)

/-- FURROW_CAPTURE_RUN (R155, R156): a running capture writes every beat that the ring has come to; a void beat is a fault; a wipe
refuses its slot (R137). -/
def execFurrowCaptureRun (core : CoreId) (sub : Fin 8) (s : State) : Host.Outcome State Fault Refusal :=
  let i := core.val
  match (s.core i).cap, s.segOf i with
  | some o, some g =>
    let due := o.due (s.ringBeat i sub.val)
    if s.furRuns i ∧ s.rd Reg.SP_STAT.LOCKED i = 0 ∧ !due.isEmpty then
      let s1 := due.foldl (fun t k =>
        if t.furRuns i then (t.captureBeat i g o (k / 16) (k % 16)).getD (t.furFault i 1) else t) s
      let moved := o.done + due.length
      .next (if !s1.furRuns i then s1
        else if moved = 16 * o.tiles then s1.furNext i 2 (o.beat + 16 * o.tiles - 1)
        else s1.modCore i (fun c => c.setEngine 2 (some { o with done := moved }, (c.engine 2).2)))
    else .next s
  | _, _ => .next s

/-! ### Segments (R145-R148) -/

/-- The staged fields of a segment agree (R146). CROWS and CCOLS may be 0 with EN = 0; a rectangle without crofts has no LAP_MIN, and
its LAP has only to be a multiple of 16 (DEDUCED, log entry 11). -/
def State.segAgrees (s : State) (g : Nat) : Bool :=
  let o := s.stg Reg.FUR_SEG.ORIGIN (j := g)
  let r := s.stg Reg.FUR_SEG.CROWS (j := g)
  let c := s.stg Reg.FUR_SEG.CCOLS (j := g)
  let n := s.stg Reg.FUR_SEG.ENCL (j := g)
  let lap := s.stg Reg.FUR_SEG.LAP (j := g)
  let crofts := rectCrofts o r c
  let free (x : Nat) : Bool := (List.range 256).all (fun k =>
    decide (k = g) || decide (s.rd Reg.FUR_SEG.EN (j := k) = 0) ||
    !(rectCrofts (s.rd Reg.FUR_SEG.ORIGIN (j := k)) (s.rd Reg.FUR_SEG.CROWS (j := k)) (s.rd Reg.FUR_SEG.CCOLS (j := k))).contains x)
  let lm := s.lapMin o r c
  decide (s.rd Reg.FUR_RUN.RUN (j := g) = 0) &&
  (decide (s.stg Reg.FUR_SEG.EN (j := g) = 0) || (decide (1 ≤ r) && decide (1 ≤ c))) &&
  decide (o / 16 + r ≤ 16) && decide (o % 16 + c ≤ 16) &&
  crofts.all (fun x => s.croftPresent x && decide (s.enclOf x = some n) && free x && decide (s.opOf x = s.opOf o) &&
    decide (s.opOf x ≠ 4)) &&
  decide (lap % 16 = 0) && (crofts.isEmpty || (decide (lm ≤ lap) && decide (lap ≤ lm + 63)))

/-- FUR_POS of every core of a segment (R146). -/
def State.writePos (s : State) (g : Nat) : State :=
  let w := 20 * s.rd Reg.FUR_SEG.CCOLS (j := g)
  let o := s.rd Reg.FUR_SEG.ORIGIN (j := g)
  (s.segCores g).foldl (fun t c =>
    ((t.wr Reg.FUR_POS.POS (posAt w (rowOf c - o / 16 * 16) (colOf c - o % 16 * 20)) c).wr Reg.FUR_POS.IN_SEG 1 c).wr Reg.FUR_POS.SEG g c) s
/-- FUR_POS cleared for the cores a segment leaves. -/
def State.clearPos (s : State) (g : Nat) : State :=
  (s.segCores g).foldl (fun t c => ((t.wr Reg.FUR_POS.POS 0 c).wr Reg.FUR_POS.IN_SEG 0 c).wr Reg.FUR_POS.SEG 0 c) s

/-- The COMMIT of a segment (R146). -/
def State.commitSeg (s : State) (g : Nat) : State :=
  let fs := [Reg.FUR_SEG.ORIGIN, Reg.FUR_SEG.CROWS, Reg.FUR_SEG.CCOLS, Reg.FUR_SEG.ENCL, Reg.FUR_SEG.EN, Reg.FUR_SEG.LAP]
  if s.segAgrees g then
    let s1 := if s.rd Reg.FUR_SEG.EN (j := g) = 1 then s.clearPos g else s
    let s2 := s1.applyAll fs (j := g)
    let s3 := (s2.wr Reg.FUR_LAPMIN.LAP_MIN (s2.lapMin (s2.rd Reg.FUR_SEG.ORIGIN (j := g)) (s2.rd Reg.FUR_SEG.CROWS (j := g))
      (s2.rd Reg.FUR_SEG.CCOLS (j := g))) (j := g)).wr Reg.FUR_LAPMIN.VALID 1 (j := g)
    if s3.rd Reg.FUR_SEG.EN (j := g) = 1 then s3.writePos g else s3
  else (s.dropAll fs (j := g)).mismatch (Reg.FUR_SEG.COMMIT.addr 0 g) skSteading 0

/-- FUR_SEG_COMMIT (R146, R13). -/
def execFurSegCommit (seg : SegId) (s : State) : Host.Outcome State Fault Refusal :=
  let fs := [Reg.FUR_SEG.ORIGIN, Reg.FUR_SEG.CROWS, Reg.FUR_SEG.CCOLS, Reg.FUR_SEG.ENCL, Reg.FUR_SEG.EN, Reg.FUR_SEG.LAP]
  .next (if s.anyStaged fs (j := seg.val) then s.commitSeg seg.val else s)

/-- START written (R147): the segment is to run from the next bell after the write. -/
def execFurRunStart (seg : SegId) (s : State) : Host.Outcome State Fault Refusal :=
  let g := seg.val
  .next (if s.rd Reg.FUR_SEG.EN (j := g) = 1 ∧ s.rd Reg.FUR_RUN.RUN (j := g) = 0 then
    s.modSeg g (fun x => { x with startReq := some (s.now + 1) }) else s)

/-- STOP written (R147): the segment is to stop at the next bell after the write. -/
def execFurRunStop (seg : SegId) (s : State) : Host.Outcome State Fault Refusal :=
  let g := seg.val
  .next (if s.rd Reg.FUR_RUN.RUN (j := g) = 1 then s.modSeg g (fun x => { x with stopReq := some (s.now + 1) }) else s)

/-- A request that acts at a bell from tick `t` on acts now (R147). -/
def State.atBell (s : State) (t : Option Nat) : Bool := t.any (fun x => decide (x ≤ s.now)) && decide (s.now % 1024 = 0)

/-- SEGMENT_RUN (R147): position 0's beat 0 falls in the first cycle of the bell tick. -/
def execSegmentRun (seg : SegId) (s : State) : Host.Outcome State Fault Refusal :=
  let g := seg.val
  if s.atBell (s.seg g).startReq then
    let s1 := s.setSeg g
      { SegX.init with ended := none, base := (s.segCrofts g).map (fun c => (c, s.cycle c 0, (s.croft c).lag20)) }
    .next ((((s1.wr Reg.FUR_RUN.RUN 1 (j := g)).wr Reg.FUR_RUN.TICK0 s.now (j := g)).wr Reg.FUR_HOLD.HOLDS 0 (j := g)).wr
      Reg.FUR_HOLD.LAGS 0 (j := g))
  else .next s

/-- SEGMENT_STOP (R147): a STOP takes effect at the bell. -/
def execSegmentStop (seg : SegId) (s : State) : Host.Outcome State Fault Refusal :=
  .next (if s.atBell (s.seg seg.val).stopReq then s.stopSeg seg.val else s)

/-! ### Holds (R159, R160) -/

/-- The cycle of croft `c` in which a hold begins that starts with the tick `at_` or, behind another hold, at its end. -/
def State.holdFrom (s : State) (g c at_ : Nat) : Nat :=
  let run := (s.croft c).run20
  let first := ceilDiv (run - unitsPerTick (s.opOf c) * (s.now - at_)) 20
  min (s.cycle c 0) (max first (Store.getD (s.seg g).heldBase c 0))

/-- SEGMENT_HOLD_START (R159, R160): the first hold of the queue begins at the start of tick m + 8, or when the one before it has
ended. -/
def execSegmentHoldStart (seg : SegId) (s : State) : Host.Outcome State Fault Refusal :=
  let g := seg.val
  let x := s.seg g
  match x.holds, x.held with
  | h :: rest, none =>
    if h.tick + 8 ≤ s.now ∧ s.rd Reg.FUR_RUN.RUN (j := g) = 1 then
      .next ((s.setSeg g
        { x with
          holds := rest, held := some h, heldDone := []
          heldBase := (s.segCrofts g).map (fun c => (c, s.holdFrom g c (h.tick + 8))) }).incWrap Reg.FUR_HOLD.HOLDS 1 (j := g))
    else .next s
  | _, _ => .next s

/-- A hold of `len` cycles has ended in a core's croft (R160): the core consumed from its catch buffer while it could, and was held for
the rest, by which its array's counts move. -/
def State.holdPast (s : State) (len core : Nat) : State :=
  let x := s.core core
  let now := s.cycle (croftOf core) 0
  let more := match x.catchUp with
    | some (st, n) => min n (now - st)
    | none => 0
  let have_ := s.rd Reg.FUR_STAT.CATCH core + more
  let s1 := if have_ = 0 then s
    else (s.wr Reg.FUR_STAT.CATCH (have_ - len) core).modCore core (fun c =>
      { c with catchUp := c.catchUp.map (fun p => (now, p.2 - more)) })
  let held := len - have_
  if held = 0 then s1 else (s1.incWrap Reg.FUR_STAT.HOLDCYC held core).shiftArr core held

/-- SEGMENT_HOLD_END (R159, R160): the hold ends in each croft after its length in that croft's cycles, its stalls left out, and with
the last croft the next queued one may begin. -/
def execSegmentHoldEnd (seg : SegId) (s : State) : Host.Outcome State Fault Refusal :=
  let g := seg.val
  let x := s.seg g
  match x.held with
  | none => .next s
  | some h =>
    let ended := (s.segCrofts g).filter (fun c => !x.heldDone.contains c && decide (h.len ≤ s.heldFor g c 0))
    let s1 := ended.foldl (fun t c => (coresOfCroft c).foldl (fun u i => u.holdPast h.len i) t) s
    let done := x.heldDone ++ ended
    .next (if (s.segCrofts g).all done.contains then
      s1.modSeg g (fun y =>
        { y with
          held := none, heldDone := [], frozen := y.frozen + h.len
          heldBase := y.heldBase.map (fun p => (p.1, p.2 + h.len)) })
    else s1.modSeg g (fun y => { y with heldDone := done }))

end Sys2Proof.Machine
end

