-- ==== Sys2Proof/Machine/Drill.lean ====
section
/-! DEFINITION. The drills (R194-R216): descriptors, their check, transfers and their completion, local copies. -/

namespace Sys2Proof.Machine

/-! ### Descriptors (R195-R198) -/

/-- A word of a descriptor. -/
def dw (ws : List Word) (k : Nat) : Nat := (ws[k]?.getD 0).toNat

def dSkind (ws : List Word) : Nat := bits (dw ws 0) 0 3
def dDkind (ws : List Word) : Nat := bits (dw ws 0) 3 3
def dEsize (ws : List Word) : Nat := bits (dw ws 0) 6 3
def dXform (ws : List Word) : Nat := bits (dw ws 0) 9 3
def dTrans (ws : List Word) : Bool := decide (bits (dw ws 0) 12 1 = 1)
def dSfmt (ws : List Word) : Nat := bits (dw ws 0) 13 4
def dDfmt (ws : List Word) : Nat := bits (dw ws 0) 17 4
def dRnd (ws : List Word) : Bool := decide (bits (dw ws 0) 21 1 = 1)
def dSat (ws : List Word) : Bool := decide (bits (dw ws 0) 22 1 = 1)
def dGcr (ws : List Word) : Nat := bits (dw ws 0) 23 4
def dSpace (ws : List Word) : Nat := bits (dw ws 0) 32 16
/-- N0-N3. -/
def dN (ws : List Word) (k : Nat) : Nat := bits (dw ws 3) (16 * k) 16
/-- Source and destination strides. -/
def dSS (ws : List Word) (k : Nat) : Int := sint 32 (bits (dw ws (4 + k)) 0 32)
def dDS (ws : List Word) (k : Nat) : Int := sint 32 (bits (dw ws (4 + k)) 32 32)

/-- The descriptor moves groups of 32 elements (R198). -/
def dMx (ws : List Word) : Bool := decide (dXform ws = 2) || decide (dXform ws = 3)
/-- Words of a descriptor (R196). -/
def descWords (w0 : Nat) : Nat :=
  8 + (if bits w0 3 3 = 4 then 4 else 0) + (if bits w0 9 3 = 2 ∨ bits w0 9 3 = 3 then 4 else 0)
/-- The tree flit of a multicast (R196). -/
def dTree (ws : List Word) : List Word := (List.range 4).map (fun k => ws[(if dMx ws then 12 else 8) + k]?.getD 0)

/-- Bytes of an element of an R106 code. -/
def cvtBytes (c : Nat) : Nat := match cvtFmt c with
  | some f => f.width / 8
  | none => 1
/-- Bytes of one source unit and of one destination unit: an element, or a group of 32 (R198). -/
def dSrcBytes (ws : List Word) : Nat :=
  if dXform ws = 0 then 2 ^ dEsize ws else if dXform ws = 3 then 4 * codeWidth (dSfmt ws) else if dXform ws = 2 then 32 * cvtBytes (dSfmt ws)
  else cvtBytes (dSfmt ws)
def dDstBytes (ws : List Word) : Nat :=
  if dXform ws = 0 then 2 ^ dEsize ws else if dXform ws = 2 then 4 * codeWidth (dDfmt ws) else if dXform ws = 3 then 32 * cvtBytes (dDfmt ws)
  else cvtBytes (dDfmt ws)
/-- Element size of the source and destination ends; an MX end counts bytes. -/
def dSrcElem (ws : List Word) : Nat := if dXform ws = 3 then 1 else if dXform ws = 2 then cvtBytes (dSfmt ws) else dSrcBytes ws
def dDstElem (ws : List Word) : Nat := if dXform ws = 2 then 1 else if dXform ws = 3 then cvtBytes (dDfmt ws) else dDstBytes ws

/-- Units along dimension 0. -/
def dUnits0 (ws : List Word) : Nat := if dMx ws then dN ws 0 / 32 else dN ws 0
/-- Units of the descriptor (R197). -/
def dUnits (ws : List Word) : Nat := dUnits0 ws * dN ws 1 * dN ws 2 * dN ws 3
/-- Index of unit `u` in dimension `k`; dimension 0 counts units. -/
def dIndex (ws : List Word) (u k : Nat) : Nat :=
  if k = 0 then u % dUnits0 ws
  else if k = 1 then u / dUnits0 ws % dN ws 1
  else if k = 2 then u / (dUnits0 ws * dN ws 1) % dN ws 2
  else u / (dUnits0 ws * dN ws 1 * dN ws 2)
/-- Index i0 of the first element of unit `u` (R197). -/
def dTuple0 (ws : List Word) (u : Nat) : Nat := dIndex ws u 0 * (if dMx ws then 32 else 1)
/-- Linear element index of element `e` of unit `u` (R210). -/
def dElemIndex (ws : List Word) (u e : Nat) : Nat := if dMx ws then u * 32 + e else u

/-- An address of an end, modulo its address space (R197). -/
def addrMod (kind : Nat) (x : Int) : Nat := if kind = 1 then wrapInt 48 x else if kind = 2 then wrapInt 64 x else wrapInt 18 x

/-- Address of source unit `u`: for an MX source, its packed group; for another, element `e` of it (R197, R198). -/
def dSrcAddr (ws : List Word) (u e : Nat) : Nat :=
  let base : Int := (dw ws 1 : Int)
  let hi : Int := (dIndex ws u 1 : Int) * dSS ws 1 + (dIndex ws u 2 : Int) * dSS ws 2 + (dIndex ws u 3 : Int) * dSS ws 3
  let lo : Int :=
    if dXform ws = 3 then ((dIndex ws u 0 * dSrcBytes ws : Nat) : Int)
    else if dXform ws = 2 then ((dIndex ws u 0 * 32 + e : Nat) : Int) * dSS ws 0
    else (dIndex ws u 0 : Int) * dSS ws 0
  let blk : Int := (dIndex ws u 2 : Int) * dSS ws 2 + (dIndex ws u 3 : Int) * dSS ws 3 +
    (((dIndex ws u 0 * 16 + dIndex ws u 1) * dSrcBytes ws : Nat) : Int)
  addrMod (dSkind ws) (base + (if dTrans ws then blk else hi + lo))

/-- Address of destination unit `u`, or of element `e` of it. -/
def dDstAddr (ws : List Word) (u e : Nat) : Nat :=
  let base : Int := (dw ws 2 : Int)
  let hi : Int := (dIndex ws u 1 : Int) * dDS ws 1 + (dIndex ws u 2 : Int) * dDS ws 2 + (dIndex ws u 3 : Int) * dDS ws 3
  let lo : Int :=
    if dXform ws = 2 then ((dIndex ws u 0 * dDstBytes ws : Nat) : Int)
    else if dXform ws = 3 then ((dIndex ws u 0 * 32 + e : Nat) : Int) * dDS ws 0
    else (dIndex ws u 0 : Int) * dDS ws 0
  addrMod (dDkind ws) (base + hi + lo)

/-- The remote end is the destination (1), the source (2), or there is none (0). -/
def dRemote (ws : List Word) : Nat := if dDkind ws ≠ 0 then 1 else if dSkind ws = 1 ∨ dSkind ws = 2 then 2 else 0
/-- Pieces in which a unit travels: one, but a group of 32 whose elements do not lie side by side at the remote end goes element by
element, since each lies where R197 has it (DEDUCED, log entry 60). -/
def dPieces (ws : List Word) : Nat :=
  if dXform ws = 2 ∧ dRemote ws = 2 ∧ dSS ws 0 ≠ (cvtBytes (dSfmt ws) : Int) then 32
  else if dXform ws = 3 ∧ dRemote ws = 1 ∧ dDS ws 0 ≠ (cvtBytes (dDfmt ws) : Int) then 32 else 1
/-- Pieces of the descriptor. -/
def dTotal (ws : List Word) : Nat := dUnits ws * dPieces ws
/-- Remote bytes and remote address of a piece (R200). -/
def dRemBytes (ws : List Word) : Nat := (if dRemote ws = 1 then dDstBytes ws else dSrcBytes ws) / dPieces ws
def dRemAddr (ws : List Word) (v : Nat) : Nat :=
  let u := v / dPieces ws
  let e := v % dPieces ws
  if dRemote ws = 1 then dDstAddr ws u e else dSrcAddr ws u e
/-- Index i0 of the first element of a piece (R213). -/
def dTupleAt (ws : List Word) (v : Nat) : Nat := dTuple0 ws (v / dPieces ws) + v % dPieces ws

/-! ### The check (R199) -/

/-- Pairs of R195. -/
def pairOk (sk dk : Nat) : Bool :=
  if sk = 0 then decide (dk ≤ 4) else if sk = 1 ∨ sk = 2 then decide (dk = 0) else decide (dk = 0 ∨ dk = 1 ∨ dk = 3 ∨ dk = 4)
/-- Formats and MX end of a transform (R198). -/
def xformOk (ws : List Word) : Bool :=
  let x := dXform ws
  let fmts := if x = 1 then (cvtFmt (dSfmt ws)).isSome && (cvtFmt (dDfmt ws)).isSome
    else if x = 2 then decide (dSfmt ws = 0 ∨ dSfmt ws = 2) && mxCodeOk (dDfmt ws) && decide (dDkind ws ≤ 1) && decide (dDS ws 0 = 0) &&
      decide (dN ws 0 % 32 = 0)
    else if x = 3 then mxCodeOk (dSfmt ws) && decide (dDfmt ws = 2) && decide (dSkind ws ≤ 1) && decide (dSS ws 0 = 0) &&
      decide (dN ws 0 % 32 = 0)
    else true
  let tr := !dTrans ws || (decide (dSkind ws = 0) && decide (dN ws 0 = 16) && decide (dN ws 1 = 16) && decide (dSS ws 0 = 0) &&
    decide (dSS ws 1 = 0) && decide (x ≤ 1) && decide (dSrcBytes ws = 1 ∨ dSrcBytes ws = 2 ∨ dSrcBytes ws = 4))
  fmts && tr
/-- An own-scratchpad end is aligned: address and strides. -/
def endAligned (base al : Nat) (strides : List Int) : Bool :=
  decide (base % al = 0) && strides.all (fun x => decide (x % (al : Int) = 0))
/-- Alignment of both ends (R199): their addresses and strides. SCADDR, whose bytes are scales, is held to none (DESIGN CHOICE, log entry
84). -/
def alignOk (ws : List Word) (addr : Nat) : Bool :=
  let sAl := if dXform ws = 3 ∨ dTrans ws then 32 else dSrcElem ws
  let dAl := if dXform ws = 2 then 32 else dDstElem ws
  decide (addr % 32 = 0) &&
  (decide (dSkind ws ≠ 0) || endAligned (dw ws 1) sAl ((List.range 4).map (dSS ws))) &&
  (decide (dDkind ws ≠ 0) || endAligned (dw ws 2) dAl ((List.range 4).map (dDS ws)))
/-- Shape of a gate or multicast destination (R199). -/
def gateShapeOk (ws : List Word) : Bool :=
  decide (dDkind ws < 3) ||
  (decide (dw ws 2 % 32 = 0) && decide (dDS ws 0 = (dDstElem ws : Int)) && decide (dN ws 0 * dDstElem ws % 32 = 0) &&
   [1, 2, 3].all (fun k => decide (dDS ws k % 32 = 0)))
/-- No slow-tier stride of magnitude 2^31 (R199). -/
def strideOk (ws : List Word) : Bool :=
  let m : Int := -2147483648
  (decide (dSkind ws ≠ 1) || (List.range 4).all (fun k => decide (dSS ws k ≠ m))) &&
  (decide (dDkind ws ≠ 1) || (List.range 4).all (fun k => decide (dDS ws k ≠ m)))
/-- Unused address bits of an end are zero. -/
def addrBitsOk (kind a : Nat) : Bool :=
  if kind = 1 then decide (a < 2 ^ 48) else if kind = 2 then true else decide (a < 2 ^ 18)
/-- Reserved fields, unused words and unused address bits are zero (R196). -/
def reservedOk (ws : List Word) : Bool :=
  decide (bits (dw ws 0) 27 5 = 0) && decide (bits (dw ws 0) 48 16 = 0) &&
  (if dSkind ws = 3 then decide (dw ws 1 = 0) else addrBitsOk (dSkind ws) (dw ws 1)) && addrBitsOk (dDkind ws) (dw ws 2) &&
  (!dMx ws || ([9, 10, 11].all (fun k => decide (dw ws k = 0)) && addrBitsOk (if dXform ws = 3 then dSkind ws else dDkind ws) (dw ws 8)))

/-- The first failing item of R199, as DRL_STAT.MALFORM numbers them; 0 when the descriptor is legal. -/
def State.malform (s : State) (core d addr : Nat) (ws : List Word) : Nat :=
  let outs := [Reg.DRL_CFG.OUT0, Reg.DRL_CFG.OUT1, Reg.DRL_CFG.OUT2, Reg.DRL_CFG.OUT3]
  let lim := (outs[d]?.map (fun f => s.rd f core)).getD 0
  if 3 < dSkind ws ∨ 4 < dDkind ws ∨ 3 < dXform ws ∨ (dXform ws = 0 ∧ 5 < dEsize ws) ∨ !pairOk (dSkind ws) (dDkind ws) then 1
  else if !xformOk ws then 2
  else if !alignOk ws addr then 3
  else if !gateShapeOk ws then 4
  else if !strideOk ws then 5
  else if dRemote ws ≠ 0 ∧ lim = 0 then 6
  else if 3 ≤ dDkind ws ∧ s.rd Reg.GCR.VALID core (dGcr ws) = 0 then 7
  else if !reservedOk ws then 8
  else 0

/-! ### Arming (R204, R205) -/

/-- DARM (R204, R205): claims the drill's active or pending place, or is refused. -/
def execDarm (core : CoreId) (w : DrillWord) (s : State) : Host.Outcome State Fault Refusal :=
  let i := core.val
  let d := w.d.toNat
  let wd := w.word 1#4
  .next (s.issueNext i wd (decide (w.mode = 0) && decide (w.rsv = 0)) (fun t =>
    let x := t.drill i d
    if x.pendTaken then (t.wr Reg.DRL_STAT.BUSY_REF 1 i d).raiseCore i 0x12 d
    else t.setDrill i d { x with claims := x.claims ++ [((t.h i w.hs.toNat).toNat % 2 ^ 18, wd.toNat)] }))

/-- The descriptor's completion is posted (R203). -/
def State.postDesc (s : State) (core d : Nat) (r : DescRun) : State :=
  let s1 := s.setDrill core d { s.drill core d with active := none }
  (((s1.incWrap Reg.DRL_DONE.DONE 1 core d).wr Reg.DRL_DONE.ERRXFER (min r.errs 0xFFFF) core d).wr Reg.DRL_STAT.STATUS
    (if r.failed then 0x91 else r.status) core d).wr Reg.DRL_STAT.CREDIT_WAIT 0 core d

/-- A checked descriptor becomes active; one with a zero count completes (R197, R205, R210). -/
def State.activate (s : State) (core d : Nat) (ws : List Word) : State :=
  let r : DescRun :=
    { words := ws, next := 0, nextScale := 0, scales := [], status := 0, errs := 0, failed := false
      parts := [] }
  let n := dUnits ws
  if n = 0 then s.postDesc core d r
  else
    let s1 := s.setDrill core d { s.drill core d with active := some r }
    if dRnd ws then s1.incWrap Reg.DRL_RUN.SRSEQ 1 core d else s1

/-- The pending descriptor becomes active once nothing precedes it (R205, R214). -/
def State.promote (s : State) (core d : Nat) : State :=
  let x := s.drill core d
  match x.pending with
  | some ws => if x.active.isNone ∧ x.orphans.isEmpty then (s.setDrill core d { x with pending := none }).activate core d ws else s
  | none => s

/-- DESCRIPTOR_CHECK (R199, R205): the oldest claimed descriptor is read through slot 6 and checked; an illegal one halts the
core and records MALFORM; a legal one becomes active or pending. -/
def execDescriptorCheck (core : CoreId) (d : DrillId) (s : State) : Host.Outcome State Fault Refusal :=
  let i := core.val
  let x := s.drill i d.val
  match x.claims with
  | [] => .next s
  | (addr, word) :: rest =>
    if !s.croftIssues (croftOf i) then .next s
    else
    let w0 := leNat (s.spBytes i addr 8)
    let n := descWords w0
    let r := s.spRead i addr (8 * n) 6
    let ws := (List.range n).map (fun k => BitVec.ofNat 64 (leNat (slice r.1 (8 * k) 8)))
    -- an uncorrectable word has aborted the drill (R125, R214)
    if (r.2.drill i d.val).claims.isEmpty then .next r.2
    else
    let s1 := r.2.setDrill i d.val { r.2.drill i d.val with claims := rest }
    let m := s.malform i d.val addr ws
    if m ≠ 0 then .next ((s1.wr Reg.DRL_STAT.MALFORM m i d.val).illegal i word)
    else
      let y := s1.drill i d.val
      if y.active.isSome ∨ y.draining then .next (s1.setDrill i d.val { y with pending := some ws })
      else .next (s1.activate i d.val ws)

/-! ### Units and transforms (R198, R210) -/

/-- The random bits of an element (R210). -/
def State.drillSr (s : State) (core d idx : Nat) : Nat :=
  srBits (s.rd Reg.NUM_SR.SEED core) (s.rd Reg.NUM_SR.STEP core) core (0x400000 ||| (d * 2 ^ 20) ||| s.rd Reg.DRL_RUN.SRSEQ core d) (idx % 2 ^ 32)

/-- Rounding of an element of a descriptor. -/
def State.drillRnd (s : State) (core d : Nat) (r : DescRun) (idx : Nat) : Rnd :=
  if dRnd r.words then .sr (s.drillSr core d idx) else .rne

/-- The destination bytes of unit `u` from its source bytes; for a quantise, with the scale byte. `sc` is the scale byte of an
expanded group (R198). -/
def State.transformUnit (s : State) (core d : Nat) (r : DescRun) (u : Nat) (src : List Byte) (sc : Nat) : List Byte × Nat :=
  let ws := r.words
  let x := dXform ws
  if x = 1 then
    match cvtFmt (dSfmt ws), cvtFmt (dDfmt ws) with
    | some sf, some df => (leBytes (dDstBytes ws) (cvtElem sf df (s.drillRnd core d r (dElemIndex ws u 0)) (dSat ws) (leNat src)).val, 0)
    | _, _ => (src, 0)
  else if x = 2 then
    let sf := if dSfmt ws = 0 then fp32 else bf16
    let eb := cvtBytes (dSfmt ws)
    let vs := (List.range 32).map (fun e => sf.decode (leNat (slice src (e * eb) eb)))
    let g := mxGroup (codeFmt (dDfmt ws)) (fun e => s.drillRnd core d r (dElemIndex ws u e)) vs
    (packRow (codeWidth (dDfmt ws)) (g.elems.take 16) ++ packRow (codeWidth (dDfmt ws)) (g.elems.drop 16), g.scale)
  else if x = 3 then
    let w := codeWidth (dSfmt ws)
    ((List.range 32).flatMap (fun e => leBytes 2 (mxExpand (codeFmt (dSfmt ws)) sc (bits (leNat src) (w * e) w))), 0)
  else (src, 0)

/-- Offsets of the source bytes of unit `u` in the own scratchpad, in order. -/
def dSrcOffsets (ws : List Word) (u : Nat) : List (Nat × Nat) :=
  if dXform ws = 2 then
    let eb := cvtBytes (dSfmt ws)
    (List.range 32).flatMap (fun e => (List.range eb).map (fun k => (dSrcAddr ws u e + k, 6)))
  else (List.range (dSrcBytes ws)).map (fun k => (dSrcAddr ws u 0 + k, 6))

/-- The source bytes of units `u0` to `u0 + n - 1` at the own scratchpad or of zeros, with the scale bytes of an expansion. -/
def State.gatherUnits (s : State) (ws : List Word) (core u0 n : Nat) : List (List Byte × Nat) × State :=
  if dSkind ws = 3 then ((List.range n).map (fun _ => (List.replicate (dSrcBytes ws) 0, 0)), s)
  else
    let us := (List.range n).map (fun k => u0 + k)
    let r := s.spReadAt core (us.flatMap (dSrcOffsets ws))
    let b := dSrcBytes ws
    if dXform ws = 3 then
      let q := r.2.spReadAt core (us.map (fun u => (dw ws 8 + u, 6)))
      ((List.range n).map (fun k => (slice r.1 (k * b) b, (q.1[k]?.getD 0).toNat)), q.2)
    else ((List.range n).map (fun k => (slice r.1 (k * b) b, 0)), r.2)

/-- The bytes a unit writes into the own scratchpad, with their offsets. -/
def unitWrites (ws : List Word) (u : Nat) (dst : List Byte) : List (Nat × Byte) :=
  if dXform ws = 3 then
    let eb := dDstElem ws
    (List.range 32).flatMap (fun e => (List.range eb).map (fun k => (dDstAddr ws u e + k, dst[e * eb + k]?.getD 0)))
  else (List.range dst.length).map (fun k => (dDstAddr ws u 0 + k, dst[k]?.getD 0))

/-! ### Local copies (R206, R208) -/

/-- One chunk of a local copy: what units `u0` to `u0 + n - 1` write, their source being read now. -/
def State.copyChunk (s : State) (core d : Nat) (r : DescRun) (u0 n : Nat) : List (Nat × Byte) × State :=
  let g := s.gatherUnits r.words core u0 n
  let outs := (List.range n).map (fun k =>
    let p := g.1[k]?.getD ([], 0)
    (u0 + k, s.transformUnit core d r (u0 + k) p.1 p.2))
  let data := outs.flatMap (fun o => unitWrites r.words o.1 o.2.1)
  let sc := if dXform r.words = 2 then outs.map (fun o => ((dw r.words 8 + o.1) % 2 ^ 18, BitVec.ofNat 8 o.2.2)) else []
  (data ++ sc, g.2)

/-- One chunk of an expansion: 16 elements of group `c / 2`, which are 32 B of destination. -/
def State.copyHalf (s : State) (core : Nat) (r : DescRun) (c : Nat) : List (Nat × Byte) × State :=
  let ws := r.words
  let u := c / 2
  let w := codeWidth (dSfmt ws)
  let e0 := c % 2 * 16
  let g := if dSkind ws = 3 then (List.replicate (2 * w) 0, s)
    else s.spReadAt core ((List.range (2 * w)).map (fun k => (dSrcAddr ws u 0 + c % 2 * (2 * w) + k, 6)))
  let q := if dSkind ws = 3 then ([0], g.2) else g.2.spReadAt core [(dw ws 8 + u, 6)]
  ((List.range 16).flatMap (fun e =>
    let bs := leBytes 2 (mxExpand (codeFmt (dSfmt ws)) (q.1[0]?.getD 0).toNat (bits (leNat g.1) (w * e) w))
    (List.range 2).map (fun k => (dDstAddr ws u (e0 + e) + k, bs[k]?.getD 0))), q.2)

/-- A local copy in its order: 32 B of destination a chunk, each written X + 1 cycles after it is read, so the reads of up to
X / 2 later chunks come before its write. A fault of the core ends it (R214). -/
def State.localCopy (s : State) (core d : Nat) (r : DescRun) : State :=
  let ws := r.words
  let per := max 1 (32 / dDstBytes ws)
  let total := if dXform ws = 3 then 2 * dUnits ws else dUnits ws
  let lag := if dXform ws = 1 then 1 else if dMx ws then 2 else 0
  let on (t : State) : Bool := (t.drill core d).active.isSome
  let put (t : State) (w : List (Nat × Byte)) : State := if on t then t.spWriteAt core 6 w else t
  let go := (List.range (ceilDiv total per)).foldl (fun (p : State × List (List (Nat × Byte))) k =>
    let p1 : State × List (List (Nat × Byte)) :=
      if lag < p.2.length then (match p.2 with
        | w :: rest => (put p.1 w, rest)
        | [] => p)
      else p
    if on p1.1 then
      let c := if dXform ws = 3 then p1.1.copyHalf core r k else p1.1.copyChunk core d r (k * per) (min per (total - k * per))
      (c.2, p1.2 ++ [c.1])
    else p1) (s, [])
  go.2.foldl put go.1

/-- LOCAL_COPY_DONE (R208): an active local copy makes its last write; its completion is posted. -/
def execLocalCopyDone (core : CoreId) (d : DrillId) (s : State) : Host.Outcome State Fault Refusal :=
  let i := core.val
  match (s.drill i d.val).active with
  | none => .next s
  | some r =>
    if dRemote r.words = 0 ∧ s.croftIssues (croftOf i) then
      let s1 := s.localCopy i d.val r
      .next (if (s1.drill i d.val).active.isSome then (s1.postDesc i d.val r).promote i d.val else s1)
    else .next s

/-! ### Forming transfers (R200-R202, R207) -/

/-- How many pieces, from piece `u`, one transfer takes (R200). -/
def growXfer (ws : List Word) (total first u : Nat) : Nat → Nat → Nat
  | 0, n => n
  | fuel + 1, n =>
    let rb := dRemBytes ws
    let next := u + n
    if next < total ∧ dRemAddr ws next = first + n * rb ∧ n * rb + rb ≤ 256 ∧ dRemAddr ws next / 256 = first / 256 then
      growXfer ws total first u fuel (n + 1)
    else n

/-- The next transfer: first piece's address, pieces, bytes. -/
def nextXfer (ws : List Word) (u : Nat) : Nat × Nat × Nat :=
  let first := dRemAddr ws u
  let n := growXfer ws (dTotal ws) first u 255 1
  (first, n, n * dRemBytes ws)

/-- Scale transfers of an MX transform at the slow tier: 32 scale bytes each (R200). -/
def scaleXfers (ws : List Word) : Nat :=
  if dMx ws ∧ (if dXform ws = 3 then dSkind ws else dDkind ws) = 1 then ceilDiv (dUnits ws) 32 else 0

/-- The next scale transfer is due: before the first group of an expansion that needs it, after the last group of a quantise
that fills it (R200). -/
def scaleDue (r : DescRun) : Bool :=
  let ws := r.words
  decide (r.nextScale < scaleXfers ws) &&
  (if dXform ws = 3 then
    decide (r.next < dUnits ws) && decide (r.nextScale * 32 < r.next + (nextXfer ws r.next).2.1)
  else decide (min ((r.nextScale + 1) * 32) (dUnits ws) ≤ r.next))

/-- The Tabko that owns a slow-tier address (R284), by number. -/
def State.tabkoOf (s : State) (a : Nat) : Option Nat :=
  ((List.range 48).filter (fun t => s.tabkoPresent t))[a / 0xF00000000]?

/-- A tag no outstanding or orphaned transfer of the core carries. -/
def State.freeTag (s : State) (core : Nat) : Nat :=
  let used := (s.core core).drills.flatMap (fun x => x.out.map Xfer.tag ++ x.orphans)
  ((List.range 256).find? (fun t => !used.contains t)).getD 0

/-- A packet of a core, before its departure. -/
def State.corePacket (s : State) (core ty vc dkind dst tag body : Nat) (tree : List Word) (data : List Byte) : Packet :=
  { ty := ty, vc := vc, dkind := dkind, dst := dst, skind := 0, src := core, encl := (s.enclOfCore core).getD 0, tag := tag
    tick := s.estTick (croftOf core) % 2 ^ 16, status := 0, kcopy := false, body := body, via := core, tree := tree, data := data
    poison := [] }

/-- Body of a slow-tier packet (R296). -/
def slowBody (addr bytes : Nat) : Nat := addr % 2 ^ 48 + bytes % 2 ^ 9 * 2 ^ 48
/-- Payload beats of a byte range, padded to whole beats from ADDR rounded down to 32 (R296). -/
def padBeats (addr : Nat) (bs : List Byte) : List Byte :=
  let pre := List.replicate (addr % 32) (0 : Byte)
  let n := ceilDiv (addr % 32 + bs.length) 32 * 32
  pre ++ bs ++ List.replicate (n - addr % 32 - bs.length) 0

/-- A transfer towards a remote address leaves the drill: a packet is staged, or a companion request goes down the control
tree, or an address nobody owns is answered at once with STATUS 0x02 (R34, R203, R284). -/
def State.sendXfer (s : State) (core d : Nat) (ws : List Word) (x : Xfer) (data : List Byte) : State :=
  let put (t : State) (x : Xfer) : State := t.setDrill core d { t.drill core d with out := (t.drill core d).out ++ [x] }
  let stage (p : Packet) : State := (put s x).modCore core (fun c => { c with staged := c.staged ++ [p] })
  let slow (ty : Nat) (bs : List Byte) : State :=
    match s.tabkoOf x.addr with
    | none => (put s { x with done := some 0x02 }).raiseCore core 0x02 x.addr
    | some t => stage (s.corePacket core ty 0 1 t x.tag (slowBody x.addr x.bytes) [] bs)
  let e := s.rd Reg.GCR.EPOCH core (dGcr ws)
  match x.kind with
  | .read =>
    if dSkind ws = 2 then
      { put s x with
        compQ := s.compQ ++ [⟨core, d, x.tag, (s.enclOfCore core).getD 0, false, dSpace ws, x.addr, x.bytes, []⟩] }
    else slow 0x1 []
  | .write =>
    if dDkind ws = 2 then
      { put s x with
        compQ := s.compQ ++ [⟨core, d, x.tag, (s.enclOfCore core).getD 0, true, dSpace ws, x.addr, x.bytes, data⟩] }
    else slow 0x3 (padBeats x.addr data)
  | .gate =>
    stage (s.corePacket core 0x5 0 0 (s.rd Reg.GCR.TARGET core (dGcr ws)) x.tag
      (x.addr + s.rd Reg.GCR.GATE core (dGcr ws) * 2 ^ 18 + e * 2 ^ 24) [] data)
  | .mcast => stage (s.corePacket core 0x7 2 0 core x.tag (x.addr + e * 2 ^ 24) (dTree ws) data)

/-- Replace the active descriptor's progress. -/
def State.setRun (s : State) (core d : Nat) (r : DescRun) : State :=
  s.setDrill core d { s.drill core d with active := some r }

/-- A scale transfer of 32 consecutive scale bytes, or the rest (R200). -/
def State.formScale (s : State) (core d : Nat) (r : DescRun) : State :=
  let ws := r.words
  let g0 := r.nextScale * 32
  let n := min 32 (dUnits ws - g0)
  let x : Xfer :=
    { tag := s.freeTag core, kind := if dXform ws = 3 then .read else .write, scale := true, unit := g0, count := n
      addr := addrMod 1 ((dw ws 8 + g0 : Nat) : Int), bytes := n, done := none }
  let data := (List.range n).map (fun k => BitVec.ofNat 8 (Store.getD r.scales (g0 + k) 0))
  (s.setRun core d { r with nextScale := r.nextScale + 1 }).sendXfer core d ws x data

/-- The next element transfer: its source units are gathered and transformed when it writes (R200, R202). -/
def State.formElems (s : State) (core d : Nat) (r : DescRun) : State :=
  let ws := r.words
  let nx := nextXfer ws r.next
  let n := nx.2.1
  let kind : XferKind := if dRemote ws = 2 then .read else if dDkind ws = 3 then .gate else if dDkind ws = 4 then .mcast else .write
  let x : Xfer := { tag := s.freeTag core, kind := kind, scale := false, unit := r.next, count := n, addr := nx.1, bytes := nx.2.2, done := none }
  if dRemote ws = 2 then (s.setRun core d { r with next := r.next + n }).sendXfer core d ws x []
  else
    let u0 := r.next / dPieces ws
    let us := (r.next + n - 1) / dPieces ws + 1 - u0
    let g := s.gatherUnits ws core u0 us
    let outs := (List.range us).map (fun k =>
      let p := g.1[k]?.getD ([], 0)
      (u0 + k, s.transformUnit core d r (u0 + k) p.1 p.2))
    let scs := if dXform ws = 2 then outs.foldl (fun m o => Store.put m o.1 o.2.2) r.scales else r.scales
    let s1 := g.2
    match (s1.drill core d).active with
    | none => s1
    | some _ =>
      let s2 := if 3 ≤ dDkind ws then s1.wr Reg.GCR.UNITS (s1.rd Reg.GCR.UNITS core (dGcr ws) - 1) core (dGcr ws) else s1
      (s2.setRun core d { r with
        next := r.next + n, scales := scs }).sendXfer core d ws x
        (slice (outs.flatMap (fun o => o.2.1)) (r.next % dPieces ws * dRemBytes ws) (n * dRemBytes ws))

/-- Packets of a drill in its staging buffer, of two (R207). -/
def State.stagedBy (s : State) (core d : Nat) : List Packet :=
  (s.core core).staged.filter (fun p => (s.drill core d).out.any (fun o => decide (o.tag = p.tag)))
/-- The outstanding limit of a drill (R201). -/
def State.outLimit (s : State) (core d : Nat) : Nat :=
  let outs := [Reg.DRL_CFG.OUT0, Reg.DRL_CFG.OUT1, Reg.DRL_CFG.OUT2, Reg.DRL_CFG.OUT3]
  (outs[d]?.map (fun f => s.rd f core)).getD 0

/-! ### Completion (R203, R212-R214) -/

/-- The drill that has a tag outstanding. -/
def State.drillOfTag (s : State) (core tag : Nat) : Option Nat :=
  (List.range 4).find? (fun d => (s.drill core d).out.any (fun o => decide (o.tag = tag) && o.done.isNone))
/-- The drill that still awaits the answer of an aborted transfer. -/
def State.orphanOf (s : State) (core tag : Nat) : Option Nat :=
  (List.range 4).find? (fun d => (s.drill core d).orphans.contains tag)

/-- The last orphan's answer lets a pending descriptor become active (R214). -/
def State.dropOrphan (s : State) (core d tag : Nat) : State :=
  let x := s.drill core d
  (s.setDrill core d { x with orphans := x.orphans.filter (fun t => decide (t ≠ tag)) }).promote core d

/-- A transfer's completion with a STATUS reaches the core (R203); the answer of an aborted one is discarded. -/
def State.postXfer (s : State) (core tag status : Nat) : State :=
  match s.drillOfTag core tag with
  | some d =>
    let x := s.drill core d
    s.setDrill core d { x with out := x.out.map (fun o => if o.tag = tag then { o with done := some status } else o) }
  | none =>
    match s.orphanOf core tag with
    | some d => s.dropOrphan core d tag
    | none => s

/-- Everything of the descriptor is sent and answered. -/
def DescRun.finished (r : DescRun) (out : List Xfer) : Bool :=
  out.isEmpty && (r.failed || (decide (dTotal r.words ≤ r.next) && decide (scaleXfers r.words ≤ r.nextScale)))

/-- R212: a drill pauses at the first unit of a faulting transfer. -/
def State.pauseDrill (s : State) (core d tag va : Nat) : State :=
  let x := s.drill core d
  match x.active, x.out.find? (fun o => decide (o.tag = tag)) with
  | some r, some o =>
    let ws := r.words
    let s1 := ((((s.wr Reg.DRL_RESUME.I0 (dTupleAt ws o.unit) core d).wr Reg.DRL_RESUME.I1 (dIndex ws (o.unit / dPieces ws) 1) core d).wr
      Reg.DRL_RESUME.I2 (dIndex ws (o.unit / dPieces ws) 2) core d).wr Reg.DRL_RESUME.I3 (dIndex ws (o.unit / dPieces ws) 3) core d).wr
      Reg.DRL_FAULT.VA (va / 4096 * 4096) core d
    s1.setDrill core d { x with active := some { r with next := o.unit }, paused := true }
  | _, _ => s

/-- A paused drill goes on from DRL_RESUME once every earlier transfer is answered (R213). -/
def State.resumeDrill (s : State) (core d : Nat) : State :=
  let x := s.drill core d
  if x.paused then s.setDrill core d { x with paused := !x.out.isEmpty, resume := !x.out.isEmpty } else s

/-- A paused descriptor ends with STATUS 0x91 once its earlier transfers are complete; TRANSLATION_FAULT is raised (R213). -/
def State.failDrill (s : State) (core d : Nat) : State :=
  let x := s.drill core d
  match x.paused, x.active with
  | true, some r =>
    let r1 := { r with failed := true }
    let s1 := (s.setDrill core d { x with active := some r1, paused := false, resume := false }).raiseCore core 0x91
      (d + s.rd Reg.DRL_FAULT.VA core d / 4096 * 4096)
    if r1.finished x.out then (s1.postDesc core d r1).promote core d else s1
  | _, _ => s

/-- The groups that a read answer completes, each with its source bytes: all its units, or where groups travel element by element
those whose last element it brings. -/
def groupsOf (r : DescRun) (x : Xfer) (bs : List Byte) : List (Nat × List Byte) × List (Nat × List Byte) :=
  let b := dRemBytes r.words
  let got := (List.range x.count).map (fun k => (x.unit + k, slice bs (k * b) b))
  if dPieces r.words = 1 then (got, r.parts)
  else
    let ps := got.foldl (fun m p => Store.put m p.1 p.2) r.parts
    let us := (got.map (fun p => p.1 / 32)).eraseDups
    let whole := us.filter (fun u => (List.range 32).all (fun e => (Store.get ps (32 * u + e)).isSome))
    (whole.map (fun u => (u, (List.range 32).flatMap (fun e => Store.getD ps (32 * u + e) []))),
     whole.foldl (fun m u => Store.eraseRange m (32 * u) (32 * u + 32)) ps)

/-- Writes in their order, cut where the 32 B block they lie in changes: what slot 6 takes in one cycle (R118). -/
def byBlock (wr : List (Nat × Byte)) : List (List (Nat × Byte)) :=
  wr.foldr (fun p acc => match acc with
    | (q :: g) :: rest => if p.1 / 32 = q.1 / 32 then (p :: q :: g) :: rest else [p] :: (q :: g) :: rest
    | _ => [p] :: acc) []
/-- What a read answer writes through slot 6, up to an abort of the drill (R214); scale bytes are kept for the groups they scale, those
in the own scratchpad are read through slot 6. A group whose scale transfer was answered with an error has no scale: nothing is
written for it, and its element transfer completes all the same (DESIGN CHOICE, log entry 83). -/
def State.landRead (s : State) (core d : Nat) (r : DescRun) (x : Xfer) (bs : List Byte) : State :=
  let ws := r.words
  if x.scale then
    let sc := ((List.range x.count).map (fun k => (x.unit + k, (bs[k]?.getD 0).toNat))).foldl
      (fun m p => Store.put m p.1 p.2) r.scales
    s.setRun core d { r with scales := sc }
  else
    let g := groupsOf r x bs
    let need := decide (dXform ws = 3) && decide (0 < scaleXfers ws)
    let own := if dXform ws = 3 ∧ !need then s.spReadAt core (g.1.map (fun p => (dw ws 8 + p.1, 6))) else ([], s)
    let wr := ((List.range g.1.length).zip g.1).flatMap (fun q =>
      let u := q.2.1
      match (if need then Store.get r.scales u else some 0) with
      | none => []
      | some sc =>
        let o := s.transformUnit core d r u q.2.2 (if dXform ws = 3 ∧ !need then (own.1[q.1]?.getD 0).toNat else sc)
        unitWrites ws u o.1 ++ (if dXform ws = 2 then [((dw ws 8 + u) % 2 ^ 18, BitVec.ofNat 8 o.2)] else []))
    let s1 := own.2
    if (s1.drill core d).active.isNone then s1
    else
      let s2 := if dPieces ws = 1 then s1 else s1.setRun core d { r with parts := g.2 }
      (byBlock wr).foldl (fun t w => if (t.drill core d).active.isSome then t.spWriteAt core 6 w else t) s2

/-- R203: a read of a core is answered with a STATUS and its bytes. -/
def State.readAnswered (s : State) (core tag status : Nat) (bs : List Byte) : State :=
  match s.drillOfTag core tag with
  | some d =>
    let x := s.drill core d
    match x.active, x.out.find? (fun o => decide (o.tag = tag)) with
    | some r, some o => (if status = 0 then s.landRead core d r o bs else s).postXfer core tag status
    | _, _ => s.postXfer core tag status
  | none => s.postXfer core tag status

/-- What comes to a core's drills from the companion takes effect. -/
def State.actComp (s : State) (core : Nat) (e : CompIn) : State :=
  match e with
  | .wrote tag status => s.postXfer core tag status
  | .read tag status bs => s.readAnswered core tag status bs
  | .fail d => s.failDrill core d
/-- It waits while the croft stands (R209). -/
def State.compCame (s : State) (core : Nat) (e : CompIn) : State :=
  if s.croftLive (croftOf core) then s.actComp core e else s.modCore core (fun c => { c with compIn := c.compIn ++ [e] })
/-- What has waited for the croft. -/
def State.takeCompIn (s : State) (core : Nat) : State :=
  if (s.core core).compIn.isEmpty ∨ !s.croftLive (croftOf core) then s
  else (s.core core).compIn.foldl (fun t e => t.actComp core e) (s.modCore core (fun c => { c with compIn := [] }))

/-- TRANSFER_COMPLETE (R203, R205, R213): a transfer answered frees its place; its first nonzero STATUS and the error count are
kept, but for 0x13 (R212); the descriptor completes after its last, and a written RESUME acts after the last answer. What the endpoint
answered while the croft stood comes first (R209). -/
def execTransferComplete (core : CoreId) (d : DrillId) (tag : Fin 256) (s : State) : Host.Outcome State Fault Refusal :=
  let i := core.val
  let s := s.takeCompIn i
  let x := s.drill i d.val
  match x.active, x.out.find? (fun o => decide (o.tag = tag.val) && o.done.isSome) with
  | some r, some o =>
    if !s.croftLive (croftOf i) then .next s
    else
    let st := o.done.getD 0
    let out := x.out.filter (fun p => decide (p.tag ≠ tag.val))
    let r1 : DescRun :=
      if st = 0 ∨ st = 0x13 then r else { r with status := if r.status = 0 then st else r.status, errs := r.errs + 1 }
    let paused := x.paused && !(x.resume && out.isEmpty)
    let s1 := s.setDrill i d.val { x with out := out, active := some r1, paused := paused, resume := x.resume && paused }
    if !paused && r1.finished out then .next ((s1.postDesc i d.val r1).promote i d.val) else .next s1
  | _, _ => .next s

/-- RESUME (R213): DRL_RUN.RESUME. -/
def execResume (core : CoreId) (d : DrillId) (s : State) : Host.Outcome State Fault Refusal := .next (s.resumeDrill core.val d.val)
/-- FAIL (R213): DRL_RUN.FAIL. -/
def execFail (core : CoreId) (d : DrillId) (s : State) : Host.Outcome State Fault Refusal := .next (s.compCame core.val (.fail d.val))

/-- ABORT (R214): the steading writes DRL_RUN.ABORT. -/
def execAbort (core : CoreId) (d : DrillId) (s : State) : Host.Outcome State Fault Refusal :=
  .next (if s.corePresent core.val then s.abortDrill core.val d.val else s)

/-! ### DWAIT (R204) -/

/-- The condition of MODE 0: DONE has reached the count. -/
def State.doneReached (s : State) (core d count : Nat) : Bool :=
  decide ((s.rd Reg.DRL_DONE.DONE core d + 2 ^ 32 - count % 2 ^ 32) % 2 ^ 32 < 2 ^ 31)
/-- The condition of MODE 1: the pending place is empty. -/
def State.pendingFree (s : State) (core d : Nat) : Bool :=
  !(s.drill core d).pendTaken

/-- A DWAIT word: illegal with reserved bits set; holds the hand while its condition fails. -/
def dwaitWord (core : CoreId) (w : DrillWord) (s : State) : Host.Outcome State Fault Refusal :=
  let i := core.val
  .next (s.issueNext i (w.word 2#4) (decide (w.rsv = 0)) (fun t =>
    let d := w.d.toNat
    if w.mode = 0 then
      let n := bits (t.h i w.hs.toNat).toNat 0 32
      if t.doneReached i d n then t else t.modCore i (fun c => { c with hold := .dwait d n })
    else if t.pendingFree i d then t else t.modCore i (fun c => { c with hold := .dwaitPending d })))

/-- DWAIT (R204), with MODE 0 as its row has it. -/
def execDwait (core : CoreId) (w : DrillWord) (s : State) : Host.Outcome State Fault Refusal := dwaitWord core w s
/-- DWAIT_PENDING_FREE (R204): DWAIT with MODE 1. -/
def execDwaitPendingFree (core : CoreId) (w : DrillWord) (s : State) : Host.Outcome State Fault Refusal :=
  dwaitWord core { w with mode := 1 } s

/-- DWAIT_RELEASE (R204): the condition holds. -/
def execDwaitRelease (core : CoreId) (s : State) : Host.Outcome State Fault Refusal :=
  let i := core.val
  let free (ok : Bool) : State := if ok && !s.stopped i then s.releaseHold i else s
  match (s.core i).hold with
  | .dwait d n => .next (free (s.doneReached i d n))
  | .dwaitPending d => .next (free (s.pendingFree i d))
  | _ => .next s

end Sys2Proof.Machine
end

