-- ==== Sys2Proof/Machine/Mesh.lean ====
section
/-! DEFINITION. The mesh (R172-R193): routes, credits, arbitration, injection, multicast forks and their
acknowledgements, headland queues. A packet moves whole; the cycle it moves in is the command's. -/

namespace Sys2Proof.Machine

/-! ### Buffers (R173, R519) -/

def State.tabko (s : State) (t : Nat) : TabkoX := Store.getD s.tabkos t TabkoX.init
def State.setTabko (s : State) (t : Nat) (x : TabkoX) : State := { s with tabkos := Store.put s.tabkos t x }
def State.modTabko (s : State) (t : Nat) (f : TabkoX → TabkoX) : State := s.setTabko t (f (s.tabko t))

/-- Flits of a packet: header, tree flit, beats (R174). -/
def Packet.flits (p : Packet) : Nat := 1 + b2n (!p.tree.isEmpty) + p.data.length / 32
/-- Flits a list of packets holds. -/
def flitsOf (l : List Packet) : Nat := (l.map Packet.flits).sum
/-- Router input buffer of a channel (R173). -/
def inputDepth (vc : Nat) : Nat := if vc = 2 then 20 else if vc = 3 then 2 else 18
/-- Headland queue of a channel (R173). -/
def headlandDepth (vc : Nat) : Nat := if vc = 3 then 16 else 64
/-- Depth of the queue beyond an output: what goes to a floor lies in its entry's own buffer of 18 flits (R173, R519;
DEDUCED, log entry 75). -/
def crossDepth (side vc : Nat) : Nat := if side = 5 then 18 else headlandDepth vc

/-- Key of a queue of a router: side and channel. -/
def qKey (core side vc : Nat) : Nat := core * 32 + side * 4 + vc
def State.inputOf (s : State) (core inp vc : Nat) : List MPkt := Store.getD s.inq (qKey core inp vc) []
def State.setInput (s : State) (core inp vc : Nat) (l : List MPkt) : State :=
  { s with inq := if l.isEmpty then Store.erase s.inq (qKey core inp vc) else Store.put s.inq (qKey core inp vc) l }
def State.ejectOf (s : State) (core vc : Nat) : List Packet := Store.getD s.ejq (core * 4 + vc) []
def State.setEject (s : State) (core vc : Nat) (l : List Packet) : State :=
  { s with ejq := if l.isEmpty then Store.erase s.ejq (core * 4 + vc) else Store.put s.ejq (core * 4 + vc) l }
def State.headland (s : State) (core side vc : Nat) : List HlEntry := Store.getD s.hlq (qKey core side vc) []
def State.setHeadland (s : State) (core side vc : Nat) (l : List HlEntry) : State :=
  { s with hlq := if l.isEmpty then Store.erase s.hlq (qKey core side vc) else Store.put s.hlq (qKey core side vc) l }

/-- A router input has credit for a packet. -/
def State.inputRoom (s : State) (core inp : Nat) (p : Packet) : Bool :=
  decide (flitsOf ((s.inputOf core inp p.vc).map MPkt.pkt) + p.flits ≤ inputDepth p.vc)
/-- A headland queue has credit for a packet, credits on their way back not counted (R174). -/
def State.headlandRoom (s : State) (core side : Nat) (p : Packet) : Bool :=
  let q := qKey core side p.vc
  let due := ((s.credits.filter (fun c => decide (c.queue = q))).map CreditRet.flits).sum
  decide (flitsOf ((s.headland core side p.vc).map HlEntry.pkt) + due + p.flits ≤ crossDepth side p.vc)
/-- The packet takes a place of the RSP ejection buffer: notices and acknowledgements that a router combines take none (R180, R187). -/
def Packet.takesPlace (p : Packet) : Bool := !(decide (p.ty = 8) || decide (p.ty = 9))
/-- The progress kept for a channel's ejection buffer. -/
def State.landingOf (s : State) (core vc : Nat) : Landing := if vc = 2 then (s.core core).mcLand else (s.core core).gwLand
/-- Flits of the head of an ejection buffer that have left it: a write whose landing has begun gave up its header, and each beat that
has been taken (R174). -/
def State.landedFlits (s : State) (core vc : Nat) : Nat :=
  let n := (s.landingOf core vc).next
  if n = 0 then 0 else n + 1 + b2n (decide (vc = 2))
/-- A core's ejection buffer has room; RSP counts reservations (R173, R180). -/
def State.ejectRoom (s : State) (core : Nat) (p : Packet) : Bool :=
  if p.vc = 1 then !p.takesPlace || decide (((s.ejectOf core 1).filter Packet.takesPlace).length < 16)
  else decide (flitsOf (s.ejectOf core p.vc) - s.landedFlits core p.vc + p.flits ≤ inputDepth p.vc)

/-! ### Routes (R26, R176) -/

/-- The router at which a packet leaves the mesh. -/
def dstCore (p : Packet) : Nat :=
  if p.dkind = 0 then (if p.ty = 8 then p.via else p.dst) else if p.dkind = 1 then portCore p.dst
  else if p.dkind = 2 then coreAt p.dst 0 else coreAt p.dst 319
/-- The output a unicast packet takes at a router: along the row, then along the column (R26). -/
def nextOut (core : Nat) (p : Packet) : Nat :=
  let t := dstCore p
  if colOf core < colOf t then 2 else if colOf t < colOf core then 4
  else if rowOf core < rowOf t then 3 else if rowOf t < rowOf core then 1
  else if p.dkind = 0 then 0 else 5
/-- The router beyond an output. -/
def neighbour (core out : Nat) : Nat :=
  if out = 1 then core - 320 else if out = 2 then core + 1 else if out = 3 then core + 320 else core - 1
/-- The input of the neighbour that an output leads to. -/
def facing (out : Nat) : Nat := if out = 1 then 3 else if out = 2 then 4 else if out = 3 then 1 else 2
/-- An output of a router that leads to another router. -/
def hasNeighbour (core out : Nat) : Bool :=
  if out = 1 then decide (0 < rowOf core) else if out = 2 then decide (colOf core < 319)
  else if out = 3 then decide (rowOf core < 255) else if out = 4 then decide (0 < colOf core) else false

/-! ### Multicast trees (R181-R183) -/

/-- A rectangle word (R181). -/
structure Rect where
  row0 : Nat
  rown : Nat
  rstep : Nat
  col0 : Nat
  coln : Nat
  cstep : Nat
  gate : Nat
  rsv : Nat
  deriving DecidableEq, Repr

def Rect.ofWord (w : Word) : Rect :=
  let x := w.toNat
  ⟨bits x 0 8, bits x 8 9, bits x 17 4, bits x 21 9, bits x 30 9, bits x 39 4, bits x 43 3, bits x 46 18⟩
def rectsOf (p : Packet) : List Rect := p.tree.map Rect.ofWord
def Rect.isEmpty (r : Rect) : Bool := decide (r.rown = 0) || decide (r.coln = 0)
/-- How many of `n` places from `base` by `step` lie at or below `x`. -/
def upToCount (base step n x : Nat) : Nat :=
  if x < base then 0 else if step = 0 then n else min n ((x - base) / step + 1)
/-- Whether `x` is one of those places. -/
def isPlace (base step n x : Nat) : Bool :=
  decide (0 < n) && decide (base ≤ x) &&
  (if step = 0 then decide (x = base) else decide ((x - base) % step = 0) && decide ((x - base) / step < n))
/-- R182: the rectangle is malformed. -/
def Rect.bad (r : Rect) : Bool :=
  decide (r.rsv ≠ 0) || (decide (r.rstep = 0) && decide (2 ≤ r.rown)) || (decide (r.cstep = 0) && decide (2 ≤ r.coln)) ||
  (!r.isEmpty && (decide (255 < r.row0 + (r.rown - 1) * r.rstep) || decide (319 < r.col0 + (r.coln - 1) * r.cstep)))
def Rect.hits (r : Rect) (core : Nat) : Bool :=
  isPlace r.row0 r.rstep r.rown (rowOf core) && isPlace r.col0 r.cstep r.coln (colOf core)

/-- Targets of a branch that leaves router `core` by output `out` (R183): 1-4 a side, 8 + k the core for rectangle k. -/
def branchCount (p : Packet) (core out : Nat) : Nat :=
  let x := colOf core
  let y := rowOf core
  if 8 ≤ out then 1
  else ((rectsOf p).map (fun r =>
    if r.isEmpty then 0
    else if out = 2 then (r.coln - upToCount r.col0 r.cstep r.coln x) * r.rown
    else if out = 4 then (if x = 0 then 0 else upToCount r.col0 r.cstep r.coln (x - 1)) * r.rown
    else if isPlace r.col0 r.cstep r.coln x then
      (if out = 1 then (if y = 0 then 0 else upToCount r.row0 r.rstep r.rown (y - 1)) else r.rown - upToCount r.row0 r.rstep r.rown y)
    else 0)).sum

/-- The tree outputs of a multicast at a router (R183). The sender is never a target. -/
def mcOuts (p : Packet) (core : Nat) : List Nat :=
  let r := rowOf p.src
  let c := colOf p.src
  let y := rowOf core
  let x := colOf core
  let some? (o : Nat) : List Nat := if branchCount p core o = 0 then [] else [o]
  let here := if core = p.src then [] else
    ((List.range p.tree.length).filter (fun k => ((rectsOf p)[k]?.map (fun q => q.hits core)).getD false)).map (fun k => 8 + k)
  (if y = r then (if c ≤ x then some? 2 else []) ++ (if x ≤ c then some? 4 else []) ++ some? 1 ++ some? 3
   else if y < r then some? 1 else some? 3) ++ here
/-- Targets of a whole multicast. -/
def mcTargets (p : Packet) : Nat := ((mcOuts p p.src).map (branchCount p p.src)).sum

/-- The outputs a packet is to be copied to at a router; a stile forwards straight on alone (R191). -/
def State.outsAt (s : State) (core inp : Nat) (p : Packet) : List Nat :=
  if p.ty = 7 then
    let os := mcOuts p core
    if s.stiled core then os.filter (fun o => decide (1 ≤ inp ∧ inp ≤ 4 ∧ o = facing inp)) else os
  else [nextOut core p]

/-! ### Answers and acknowledgements of the routers (R177, R187, R189) -/

/-- A packet of a router waits for the Local input's RSP channel. -/
def State.routerSends (s : State) (at_ : Nat) (p : Packet) : State :=
  s.modCore at_ (fun c => { c with rspOut := c.rspOut ++ [p] })

/-- A response to a packet, sent by the router `at_` for its target. -/
def respTo (p : Packet) (ty status body via : Nat) (data : List Byte) : Packet :=
  { ty := ty, vc := 1, dkind := p.skind, dst := p.src, skind := p.dkind, src := p.dst, encl := p.encl, tag := p.tag, tick := 0
    status := status, kcopy := p.kcopy, body := body, via := via, tree := [], data := data, poison := [] }

/-- Sums of a multicast acknowledgement (R179): landed, refused, missed, fenced, first refusal code. -/
structure McSum where
  landed : Nat
  refused : Nat
  missed : Nat
  fenced : Nat
  rcode : Nat
  deriving DecidableEq, Repr
def McSum.total (a : McSum) : Nat := a.landed + a.refused + a.missed + a.fenced
/-- Body of an MC_ACK (R179). -/
def McSum.body (a : McSum) : Nat :=
  a.landed % 2 ^ 17 + a.refused % 2 ^ 17 * 2 ^ 17 + a.missed % 2 ^ 17 * 2 ^ 34 + a.fenced % 2 ^ 17 * 2 ^ 51 + a.rcode % 2 ^ 8 * 2 ^ 68
def McSum.ofBody (b : Nat) : McSum := ⟨bits b 0 17, bits b 17 17, bits b 34 17, bits b 51 17, bits b 68 8⟩

/-- An MC_ACK for the multicast of `src` with a tag, towards router `via`. -/
def mcAckPacket (from_ via src encl tag : Nat) (a : McSum) : Packet :=
  { ty := 8, vc := 1, dkind := 0, dst := src, skind := 0, src := from_, encl := encl, tag := tag, tick := 0, status := 0
    kcopy := false, body := a.body, via := via, tree := [], data := [], poison := [] }

/-- Target core and gate of a sender's transfer, from the credit entry its descriptor names. -/
def State.gateOfTag (s : State) (core tag : Nat) : Nat × Nat :=
  match s.drillOfTag core tag with
  | some d => match (s.drill core d).active with
    | some r => (s.rd Reg.GCR.TARGET core (dGcr r.words), s.rd Reg.GCR.GATE core (dGcr r.words))
    | none => (0, 0)
  | none => (0, 0)

/-- The source kind and ring of an event about a packet's sender. -/
def State.raiseSender (s : State) (p : Packet) (code detail : Nat) : State :=
  let kind := if p.skind = 0 then skCore else if p.skind = 1 then skTabko else skFloor
  let unit := if p.skind = 2 then 0 else if p.skind = 3 then 1 else p.src
  let tk := if p.skind = 0 then s.estTick (croftOf p.src) else s.now
  s.raiseAt p.encl code kind unit tk (s.stepOf (some p.encl)) detail

/-- R189: a packet without a response for a fallow core is discarded and counted. -/
def State.discardFor (s : State) (at_ : Nat) (p : Packet) : State := (s.incSat Reg.RTR_STAT.ANSWERED 1 at_).raiseSender p 0x21 at_

/-- R187, R184: the root acknowledgement posts the sender's completion and raises what the sums say. STATUS takes the first
refusal code, else a miss, else a fenced target (DESIGN CHOICE, log entry 15). DETAIL of GATE_CLOSED and GATE_RANGE, which R490 gives
for one target and its beats, names the target and gate of the credit entry and the targets that landed (DESIGN CHOICE, log entry 85).
For a sender made fallow it is discarded (R189). -/
def State.mcComplete (s0 : State) (core encl tag : Nat) (a : McSum) : State :=
  let s := if (s0.core core).hedged.contains tag then s0.modCore core (fun c => { c with hedged := c.hedged.filter (fun k => decide (k ≠ tag)) }) else s0
  if s.fallow core then s.discardFor core (mcAckPacket core core core encl tag a)
  else
  let tg := s.gateOfTag core tag
  let st := if a.rcode ≠ 0 then a.rcode else if 0 < a.missed then 0x22 else if 0 < a.fenced then 0x21 else 0
  let s1 := (s.wr Reg.MC_STAT.OUT (s.rd Reg.MC_STAT.OUT core - 1) core).postXfer core tag st
  let s2 := if a.rcode = 0x23 ∨ a.rcode = 0x25 then
      s1.raiseCore core a.rcode (tg.1 + tg.2 * 2 ^ 17 + a.landed % 2 ^ 8 * 2 ^ 20)
    else s1
  if 0 < a.missed then s2.raiseCore core 0x22 (s2.copyOf Reg.MC_STAT.OUT core) else s2

/-- Combining entries in use (R193). -/
def State.combSync (s : State) (core : Nat) : State := s.wr Reg.RTR_STAT.COMB ((s.core core).comb.length) core

/-- The router that answers for a core that has just become fallow: its own, or, where a stile has taken its place, the first router
beside it (R190, R191; DESIGN CHOICE, log entry 59). -/
def State.answerRouter (s : State) (core : Nat) : Nat :=
  if s.stiled core then ((([4, 2, 1, 3].filter (hasNeighbour core)).map (neighbour core)).find? (fun r => !s.stiled r)).getD core else core
/-- R187: an acknowledgement joins the combining entry of its multicast at router `at_`, whose sums go on, sent by `by_`, once every target
has answered; at the sender it is the root one. -/
def State.mcJoin (s : State) (by_ at_ src encl tag : Nat) (a : McSum) : State :=
  match (s.core at_).comb.find? (fun e => decide (e.src = src) && decide (e.tag = tag)) with
  | some e =>
    let e1 : CombEntry :=
      { e with
        left := e.left - a.total, landed := e.landed + a.landed, refused := e.refused + a.refused, missed := e.missed + a.missed
        fenced := e.fenced + a.fenced, rcode := if e.rcode = 0 then a.rcode else e.rcode }
    let rest := (s.core at_).comb.filter (fun x => !(decide (x.src = src) && decide (x.tag = tag)))
    let sum : McSum := ⟨e1.landed, e1.refused, e1.missed, e1.fenced, e1.rcode⟩
    if e1.left = 0 then
      let s1 := (s.modCore at_ (fun c => { c with comb := rest })).combSync at_
      if e.up = at_ then s1.mcComplete at_ encl tag sum else s1.routerSends by_ (mcAckPacket by_ e.up src encl tag sum)
    else s.modCore at_ (fun c => { c with comb := rest ++ [e1] })
  | none => if at_ = src then s.mcComplete at_ encl tag a else s
/-- An acknowledgement reaches the router that combines it. -/
def State.mcDeliver (s : State) (at_ src encl tag : Nat) (a : McSum) : State := s.mcJoin (s.answerRouter at_) at_ src encl tag a

/-- A branch's acknowledgement leaves router `at_` for the router that combines it. -/
def State.mcAck (s : State) (at_ via : Nat) (p : Packet) (a : McSum) : State :=
  if via = at_ then s.mcDeliver at_ p.src p.encl p.tag a else s.routerSends at_ (mcAckPacket at_ via p.src p.encl p.tag a)

/-- R189, R190, R191: a packet is consumed and answered for a core it cannot reach, by router `at_`, with STATUS 0x21 or 0x27;
`landed` beats of a gate write had landed. A landing port that takes no traffic is answered for with STATUS 0x66 (R24). What a router
combined before its stile took its place goes on being combined by the router beside it (R190; DESIGN CHOICE, log entry 59). -/
def State.answerFor (s : State) (at_ target status landed : Nat) (p : Packet) : State :=
  if p.ty = 8 ∧ status = 0x21 then s.mcJoin at_ p.via p.dst p.encl p.tag (McSum.ofBody p.body)
  else
  let s0 := if status = 0x21 then s.incSat Reg.RTR_STAT.ANSWERED 1 at_ else s
  let s1 := if status = 0x66 then s0 else s0.raiseSender p status target
  if p.ty = 1 then s1.routerSends at_ (respTo p 2 status p.body 0 [])
  else if p.ty = 3 then s1.routerSends at_ (respTo p 4 status p.body 0 [])
  else if p.ty = 5 then s1.routerSends at_ (respTo p 6 status landed (bits p.body 18 3) [])
  else if p.ty = 7 then s1.mcAck at_ p.via p (if status = 0x21 then ⟨0, 0, 0, 1, 0⟩ else ⟨0, 1, 0, 0, status⟩)
  else s1

/-! ### Forks (R183, R187, R265, R191) -/

/-- R265: an access meets the hedge: HEDGE_DENIED on the enclosure, which is faulted. -/
def State.hedgeDenied (s : State) (n detail m : Nat) : State := (s.raiseEncl n 0xD6 skEncl n detail).faultEncl n 0xD6 m

/-- The same for a packet of a core: once for a multicast, at however many routers and targets it is denied. -/
def State.hedgeOnce (s : State) (p : Packet) (detail m : Nat) : State :=
  if p.ty ≠ 7 then s.hedgeDenied p.encl detail m
  else if (s.core p.src).hedged.contains p.tag then s
  else (s.modCore p.src (fun c => { c with hedged := c.hedged ++ [p.tag] })).hedgeDenied p.encl detail m

/-- What becomes of one output of a multicast at a router: targets refused with the code, targets fenced, and whether the copy
goes on beyond the stiles that follow. -/
def State.branchFate (s : State) (p : Packet) (o : Nat) : Nat → Nat → Nat × Nat × Nat × Bool
  | 0, _ => (0, 0, 0, true)
  | n + 1, core =>
    if 8 ≤ o ∨ !hasNeighbour core o then (0, 0, 0, true)
    else
      let nb := neighbour core o
      if s.enclOf (croftOf nb) ≠ some p.encl then (branchCount p core o, 0xD6, 0, false)
      else if s.stiled nb then
        let os := mcOuts p nb
        let turn := ((os.filter (fun q => decide (q < 8) && decide (q ≠ o))).map (branchCount p nb)).sum
        let here := (os.filter (fun q => decide (8 ≤ q))).length
        if os.contains o then
          let r := State.branchFate s p o n nb
          (turn + r.1, if turn = 0 ∨ r.2.1 = 0xD6 then r.2.1 else 0x27, here + r.2.2.1, r.2.2.2)
        else (turn, 0x27, here, false)
      else (0, 0, 0, true)

/-- A fresh multicast at the head of an input takes its combining entry, if it forks, and its refused and fenced targets are
answered for; without a free entry it waits (R187). -/
def State.openFork (s : State) (core inp : Nat) : State :=
  match s.inputOf core inp 2 with
  | [] => s
  | m :: rest =>
    if !m.fresh then s
    else
      let p := m.pkt
      let fates := m.outs.map (fun o => (o, if s.stiled core then (0, 0, 0, true) else s.branchFate p o 320 core))
      let live := (fates.filter (fun f => f.2.2.2.2)).map Prod.fst
      let refused := (fates.map (fun f => f.2.1)).sum
      let code := ((fates.map (fun f => if f.2.1 = 0 then 0 else f.2.2.1)).find? (fun c => decide (c ≠ 0))).getD 0
      let fenced := (fates.map (fun f => f.2.2.2.1)).sum
      let parts := live.length + b2n (decide (0 < refused)) + b2n (decide (0 < fenced))
      let x := s.core core
      if 1 < parts ∧ 16 ≤ x.comb.length then s
      else
        let total := (m.outs.map (branchCount p core)).sum
        let s1 := if 1 < parts then
            (s.setCore core { x with comb := x.comb ++ [⟨p.src, p.tag, p.via, total, 0, 0, 0, 0, 0⟩] }).combSync core
          else s
        let via := if 1 < parts then core else p.via
        let m1 : MPkt := { m with pkt := { p with via := via }, outs := live, fresh := false }
        let s2 := s1.setInput core inp 2 (if live.isEmpty then rest else m1 :: rest)
        let hedge := fates.any (fun f => decide (f.2.2.1 = 0xD6) && decide (0 < f.2.1))
        let s3 := if hedge then s2.hedgeOnce p p.src (s2.estTick (croftOf core)) else s2
        let s4 := if code = 0x27 then
            fates.foldl (fun t f => if f.2.2.1 = 0x27 ∧ 0 < f.2.1 then t.raiseSender p 0x27 (neighbour core f.1) else t) s3
          else s3
        let s5 := if 0 < fenced then
            fates.foldl (fun t f => if 0 < f.2.2.2.1 then
              (t.incSat Reg.RTR_STAT.ANSWERED 1 core).raiseSender p 0x21 (neighbour core f.1) else t) s4
          else s4
        if 0 < refused + fenced then s5.mcAck core via p ⟨0, refused, 0, fenced, code⟩ else s5

/-! ### Injection (R182, R207, R265, R330) -/

/-- A packet enters a router input (R183). -/
def State.enterInput (s : State) (core inp : Nat) (p : Packet) (cyc segTick segCyc : Nat) : State :=
  s.setInput core inp p.vc (s.inputOf core inp p.vc ++ [⟨p, s.outsAt core inp p, decide (p.ty = 7), cyc, segTick, segCyc⟩])

/-- Both cores lie in one enclosure. -/
def State.sameHedge (s : State) (a b : Nat) : Bool :=
  decide (b < 81920) && (s.enclOfCore a).isSome && decide (s.enclOfCore a = s.enclOfCore b)

/-- A packet of the core departs: the source router's checks, then the Local input. -/
def State.injectOne (s : State) (core sub : Nat) (p : Packet) : State :=
  let tk := s.estTick (croftOf core)
  let q := { p with tick := tk % 2 ^ 16 }
  let denied (t : State) : State :=
    match t.enclOfCore core with
    | some n => (t.raiseEncl n 0xD6 skEncl n p.dst).coreFault core 6 0xD6
    | none => t.raiseAt stRing 0xD6 skCore core tk 0 p.dst
  if p.skind = 0 ∧ p.src = core ∧ p.ty = 7 then
    if (rectsOf p).any Rect.bad then (s.raiseCore core 0x26 p.tag).postXfer core p.tag 0x26
    else if mcTargets p = 0 then s.postXfer core p.tag 0
    else (s.enterInput core 0 q sub tk (s.cycles (croftOf core))).incSat Reg.MC_STAT.OUT 1 core
  else if p.skind = 0 ∧ p.src = core ∧ p.ty = 5 ∧ !s.sameHedge core p.dst then denied (s.postXfer core p.tag 0xD6)
  else if p.skind = 0 ∧ p.src = core ∧ p.ty = 0xB ∧ !s.sameHedge core p.dst then denied s
  else s.enterInput core 0 q sub tk (s.cycles (croftOf core))

/-- Packets of a list enter the Local input while its channel has room; those that stay. -/
def State.injectList (core sub : Nat) : State → List Packet → State × List Packet
  | s, [] => (s, [])
  | s, p :: rest => if s.inputRoom core 0 p then State.injectList core sub (s.injectOne core sub p) rest else (s, p :: rest)

/-- A transfer of a core is one of companion memory, which takes no reservation (R201). -/
def State.atEndpoint (s : State) (core tag : Nat) : Bool :=
  let is (r : CompReq) : Bool := decide (r.core = core) && decide (r.tag = tag)
  s.compQ.any is || s.yosal.ops.any (fun o => is o.req)
/-- The core's RSP ejection reservations that are taken: mesh transfers of its drills that are not answered or may still be, and the
inspection copy's writes on the mesh (R180, R201, R207, R214). -/
def State.reserved (s : State) (core : Nat) : Nat :=
  let x := s.core core
  let tags := x.drills.flatMap (fun d => (d.out.filter (fun o => o.done.isNone)).map Xfer.tag ++ d.orphans)
  (tags.filter (fun k => !s.atEndpoint core k)).length + (x.copyOut - x.copyQ.length)
/-- The inspection copy's writes leave while reservations are free (R138, R180). -/
def State.injectCopy (s : State) (core sub : Nat) : State :=
  let l := (s.core core).copyQ
  let n := 16 - s.reserved core
  if l.isEmpty ∨ n = 0 then s
  else
    let r := State.injectList core sub (s.modCore core (fun c => { c with copyQ := [] })) (l.take n)
    r.1.modCore core (fun c => { c with copyQ := r.2 ++ l.drop n })

/-- The landing port at a router, if it carries one. -/
def portAt (core : Nat) : Option Nat := (List.range 48).find? (fun t => decide (portCore t = core))

/-- Everything that waits for the Local input, in its order: emission ahead of drills (R330), the inspection copy, grants and
syncs, and the router's own answers; a fallow core's injection port is closed (R189), and a stile injects nothing but carries the
attachment (R191). What leaves a landing port enters the Attachment input of its router (R519). -/
def State.inject (s : State) (core sub : Nat) : State :=
  let own (t : State) (get : CoreX → List Packet) (put : CoreX → List Packet → CoreX) : State :=
    let l := get (t.core core)
    if l.isEmpty then t
    else
      let n := l.length
      let r := State.injectList core sub (t.modCore core (fun c => put c [])) l
      let left := r.2
      if left.length = n then t else r.1.modCore core (fun c => put c (left ++ get c))
  let s1 := if s.fallow core then s
    else
      let e := (s.core core).emit
      let a0 := own s (fun c => c.emit) (fun c l => { c with emit := l })
      -- what has left makes room for a flush that waits (R88)
      let a := if (a0.core core).emit.length = e.length then a0 else (a0.flushOut core).emitSync core
      let b := own a (fun c => c.staged) (fun c l => { c with staged := l })
      let d := b.injectCopy core sub
      own d (fun c => c.ctl) (fun c l => { c with ctl := l })
  let s2 := if s.stiled core then s1 else own s1 (fun c => c.rspOut) (fun c l => { c with rspOut := l })
  match portAt core with
  | none => s2
  | some t =>
    let x := s2.tabko t
    if x.out.isEmpty ∨ !s2.portReachable t then s2
    else
      let tk := s2.estTick (croftOf core)
      let go := x.out.foldl (fun (a : State × List Packet) p =>
        if a.2.any (fun q => decide (q.vc = p.vc)) || !a.1.inputRoom core 5 p then (a.1, a.2 ++ [p])
        else (a.1.enterInput core 5 { p with tick := tk % 2 ^ 16 } sub tk (a.1.cycles (croftOf core)), a.2)) (s2, [])
      if go.2.length = x.out.length then s2 else go.1.modTabko t (fun y => { y with out := go.2 })

/-! ### Arbitration (R175) -/

/-- Header a is older than header b (R175). -/
def olderTick (a b : Nat) : Bool :=
  let d := (b + 2 ^ 16 - a) % 2 ^ 16
  decide (1 ≤ d) && decide (d ≤ 32767)
/-- Rank of a channel among equals (R175). -/
def vcRank (vc : Nat) : Nat := if vc = 3 then 0 else if vc = 1 then 1 else if vc = 2 then 2 else 3

/-- Rank of an input among equals (R175); input 6 + k is multicast slot k. -/
def inputRank (i : Nat) : Nat := if 6 ≤ i then 0 else i + 1

/-- `a` (input, header) goes before `b` (R175). -/
def goesBefore (a b : Nat × Packet) : Bool :=
  if (a.2.vc = 3) ≠ (b.2.vc = 3) then decide (a.2.vc = 3)
  else if olderTick a.2.tick b.2.tick then true
  else if olderTick b.2.tick a.2.tick then false
  else if vcRank a.2.vc ≠ vcRank b.2.vc then decide (vcRank a.2.vc < vcRank b.2.vc)
  else if a.2.src ≠ b.2.src then decide (a.2.src < b.2.src)
  else decide (inputRank a.1 < inputRank b.1)

/-- An output code that belongs to an output port. -/
def usesPort (port o : Nat) : Bool := if port = 0 then decide (o = 0) || decide (8 ≤ o) else decide (o = port)

/-- R191: the packet cannot pass the stiles that follow one another beyond an output: the stile at which it ends and its STATUS,
or none. -/
def State.stileStops (s : State) (out : Nat) (p : Packet) : Nat → Nat → Option (Nat × Nat)
  | 0, _ => none
  | n + 1, core =>
    let nb := neighbour core out
    if hasNeighbour core out && p.ty ≠ 7 && s.stiled nb then
      let o := nextOut nb p
      if o = 0 then some (nb, 0x21) else if o = 5 then none else if o = out then State.stileStops s out p n nb else some (nb, 0x27)
    else none

/-- The floor beside an edge router. -/
def edgeSlack (s : State) (core : Nat) : Nat := s.slack (croftOf core) (if colOf core = 0 then 4 else 2)

/-- Full credit for a packet beyond an output port (R174, R519). -/
def State.portRoom (s : State) (core port : Nat) (p : Packet) : Bool :=
  if port = 0 then s.fallow core || s.ejectRoom core p
  else if port = 5 then
    if p.dkind = 1 then
      let x := s.tabko p.dst
      if !s.portReachable p.dst then true
      else if p.vc = 1 then decide (flitsOf x.rspBuf + p.flits ≤ 18) else decide (flitsOf (x.reqBuf.map SlowReq.pkt) + p.flits ≤ 18)
    else s.headlandRoom core 5 p
  else if !hasNeighbour core port then false
  else if (s.stileStops port p 320 core).isSome then true
  else
    let nb := neighbour core port
    if croftOf nb = croftOf core then s.inputRoom nb (facing port) p else s.headlandRoom core port p

/-- Branches in multicast slots that can start their ejection: the buffer has room, and their hold has not run out (R185, R186). -/
def State.slotsReady (s : State) (core : Nat) : List (Nat × Packet) :=
  let l := (s.core core).mcSlots
  let hold := s.rd Reg.MESH_CTL.MCAST_HOLD (croftOf core)
  ((List.range l.length).zip l).filterMap (fun q =>
    if s.estTick (croftOf core) < q.2.tick + hold ∧ s.ejectRoom core q.2.pkt then some (6 + q.1, q.2.pkt) else none)

/-- The headers an output port may choose among: heads of the inputs with a copy for it and full credit, and for the Local port
the branches in slots, which go before the MC inputs (R175, R185). -/
def State.candidates (s : State) (core port : Nat) : List (Nat × Packet) :=
  let slots := if port = 0 then s.slotsReady core else []
  slots ++ (List.range 6).flatMap (fun i => (List.range 4).filterMap (fun vc =>
    match s.inputOf core i vc with
    | [] => none
    | m :: _ =>
      if !m.fresh && m.outs.any (usesPort port) && s.portRoom core port m.pkt && !(decide (vc = 2) && !slots.isEmpty) then some (i, m.pkt)
      else none))

/-- The header chosen (R175). -/
def choose : List (Nat × Packet) → Option (Nat × Packet)
  | [] => none
  | x :: rest => some (rest.foldl (fun a b => if goesBefore b a then b else a) x)

/-! ### Departure (R174-R177, R230, R478) -/

/-- The copy of a multicast for one rectangle of its target: the body takes the gate (R181). -/
def withGate (p : Packet) (o : Nat) : Packet :=
  let g := ((rectsOf p)[o - 8]?.map Rect.gate).getD 0
  { p with body := bits p.body 0 18 + g * 2 ^ 18 + p.body / 2 ^ 21 * 2 ^ 21 }

/-- Arrival at the ejection port of a core (R128), or the answer for a fallow one (R189). -/
def State.ejectTo (s : State) (core o : Nat) (p : Packet) : State :=
  let q := if 8 ≤ o then withGate p o else p
  if s.fallow core ∧ q.ty ≠ 8 then s.answerFor core core 0x21 0 q
  else s.setEject core p.vc (s.ejectOf core p.vc ++ [q])

/-- R230: the stamp of an entry whose header is written in cycle `c` of a segment counted from tick `n`. -/
def State.stampOf (s : State) (croft n c slack : Nat) : Nat :=
  n + ceilDiv (20 * (c + 1)) (unitsPerTick (s.opOf croft)) - 1 + 3 + slack

/-- R231: an entry that comes to a queue into croft `f` after the check of its stamp's tick finds that check failed: the croft stands
(DEDUCED, log entry 76). -/
def State.missed (s : State) (f side stamp : Nat) : State :=
  let x := s.croft f
  match x.relAt with
  | some t => if stamp ≤ t ∧ x.stall.isNone then s.setCroft f { x with stall := some ⟨stamp, side, false⟩ } else s
  | none => s

/-- A copy goes through an output port; `c` is its cycle in the segment counted from tick `n`, at which the croft had counted
`base` cycles. At a tripped holding the headland discards it (R426). -/
def State.sendOut (s : State) (core port o c n base : Nat) (p : Packet) : State :=
  let f := croftOf core
  let s1 := s.incWrap Reg.RTR_FLITS.FLITS p.flits core
  if port = 0 then s1.ejectTo core o p
  else if port = 5 then
    if p.dkind = 1 ∧ !s.portReachable p.dst then s1.answerFor core p.dst 0x66 0 p
    else if p.dkind = 1 then
      if p.vc = 1 then s1.modTabko p.dst (fun x => { x with rspBuf := x.rspBuf ++ [p] })
      else
        let arr := n + ceilDiv (20 * c) (unitsPerTick (s.opOf f))
        s1.modTabko p.dst (fun x => { x with reqBuf := x.reqBuf ++ [⟨p, arr⟩] })
    else s1.setHeadland core 5 p.vc (s1.headland core 5 p.vc ++ [⟨p, s.stampOf f n c (edgeSlack s core)⟩])
  else
    let nb := neighbour core port
    if croftOf nb = f then s1.enterInput nb (facing port) p (c + 1) n base
    else
      let x := s.stampOf f n c (s.slack f port)
      if s.tripOff (croftOf nb) then { s1 with credits := s1.credits ++ [⟨qKey core port p.vc, p.flits, s.estTick f + 2⟩] }
      else (s1.setHeadland core port p.vc (s1.headland core port p.vc ++ [⟨p, x⟩])).missed (croftOf nb) (facing port) x

/-- The chosen header's packet leaves input `inp` through a port. -/
def State.depart (s : State) (core port sub inp : Nat) (bad : LinkFault) (p : Packet) : State :=
  match s.inputOf core inp p.vc with
  | [] => s
  | m :: rest =>
    let o := (m.outs.find? (usesPort port)).getD 0
    let outs := m.outs.filter (fun q => decide (q ≠ o))
    let s1 := s.setInput core inp p.vc (if outs.isEmpty then rest else { m with outs := outs } :: rest)
    let f := croftOf core
    let c := max m.cyc (s.cycles f - m.segCyc + sub)
    match s.stileStops port p 320 core with
    | some st => s1.answerFor core st.1 st.2 0 p
    | none =>
      match bad with
      | .none => s1.sendOut core port o c m.segTick m.segCyc p
      | .header => (s1.incWrap Reg.RTR_FLITS.FLITS p.flits core).linkParity core port false true
      | .payload b =>
        if b.val < p.data.length / 32 then
          (s1.sendOut core port o c m.segTick m.segCyc { p with poison := p.poison ++ [b.val] }).linkParity core port false false
        else s1.sendOut core port o c m.segTick m.segCyc p

/-- Occupied multicast slots (R193). -/
def State.slotSync (s : State) (core : Nat) : State := s.wr Reg.RTR_STAT.MCSLOT ((s.core core).mcSlots.length) core
/-- The branch in slot `k` leaves for the ejection buffer (R185). -/
def State.ejectSlot (s : State) (core k : Nat) (p : Packet) : State :=
  let s1 := (s.modCore core (fun c => { c with mcSlots := c.mcSlots.eraseIdx k })).incWrap Reg.RTR_FLITS.FLITS p.flits core
  (s1.setEject core 2 (s1.ejectOf core 2 ++ [p])).slotSync core

/-- PACKET_DEPARTURE (R174, R175, R182, R230): what waits for the Local input enters it, forks take their combining entries, and
one output port chooses a header with full credit and forwards its packet, in cycle `sub` of the croft's tick. -/
def execPacketDeparture (core : CoreId) (port : Fin 6) (sub : Fin 8) (bad : LinkFault) (s : State) :
    Host.Outcome State Fault Refusal :=
  let i := core.val
  if s.croftLive (croftOf i) ∧ s.corePresent i then
    let s1 := s.inject i sub.val
    let s2 := (List.range 6).foldl (fun t k => t.openFork i k) s1
    match choose (s2.candidates i port.val) with
    | none => .next s2
    | some c => .next (if 6 ≤ c.1 then s2.ejectSlot i (c.1 - 6) c.2 else s2.depart i port.val sub.val c.1 bad c.2)
  else .next s

/-! ### Crossings (R174, R231) -/

/-- MESH_CREDIT_RETURN (R174): credits of a headland queue whose tick has come reach the sending croft. -/
def execMeshCreditReturn (core : CoreId) (side : Fin 7) (vc : Fin 4) (s : State) : Host.Outcome State Fault Refusal :=
  let q := qKey core.val side.val vc.val
  let tk := s.estTick (croftOf core.val)
  .next { s with credits := s.credits.filter (fun c => !(decide (c.queue = q) && decide (c.due ≤ tk))) }

/-- The routers of a croft along one side: 1 N, 2 E, 3 S, 4 W. -/
def edgeCores (croft side : Nat) : List Nat :=
  let r := croft / 16 * 16
  let c := croft % 16 * 20
  if side = 1 then (List.range 20).map (fun k => coreAt r (c + k))
  else if side = 2 then (List.range 16).map (fun k => coreAt (r + k) (c + 19))
  else if side = 3 then (List.range 20).map (fun k => coreAt (r + 15) (c + k))
  else (List.range 16).map (fun k => coreAt (r + k) c)

/-- Credits of `n` flits that leave a queue from its cycle `i0` of tick `tk` on, one in a cycle, each two ticks later (R174). -/
def flitCredits (q i0 n p tk : Nat) : List CreditRet := (List.range n).map (fun k => ⟨q, 1, tk + 20 * (i0 + k) / p + 2⟩)
/-- The entries of one queue whose stamp has come go, in order, into the router input behind the crossing, behind flits that are still
leaving; their credit is on its way back (R174, R231). -/
def State.releaseQueue (s : State) (from_ side vc to_ inp tk : Nat) : State :=
  let f := croftOf to_
  let p := unitsPerTick (s.opOf f)
  let key := qKey from_ side vc
  let leaving := (s.credits.filter (fun c => decide (c.queue = key) && decide (tk + 2 ≤ c.due))).length
  let go := (s.headland from_ side vc).foldl (fun (a : State × Nat × List HlEntry) e =>
    if a.2.2.isEmpty ∧ e.stamp ≤ tk ∧ a.1.inputRoom to_ inp e.pkt then
      let n := e.pkt.flits
      let t := a.1.enterInput to_ inp e.pkt a.2.1 tk (s.cycles f)
      ({ t with credits := t.credits ++ flitCredits key a.2.1 n p tk }, a.2.1 + n, [])
    else (a.1, a.2.1, a.2.2 ++ [e])) (s, leaving, [])
  if (s.headland from_ side vc).isEmpty then s else go.1.setHeadland from_ side vc go.2.2

/-- What the floor beside an edge croft has for the wafer is written into its entries, stamped like a headland entry (R25), with TICK
at its departure (R178). -/
def State.floorFeed (s : State) (croft tk : Nat) : State :=
  if croft % 16 ≠ 0 ∧ croft % 16 ≠ 15 then s
  else
    let fl := if croft % 16 = 0 then 0 else 1
    let x := Store.getD s.floors fl FloorX.init
    let go := x.out.foldl (fun (a : State × List (Nat × Packet)) p =>
      let e := coreAt p.1 (if fl = 0 then 0 else 319)
      if croftOf e = croft ∧ !(a.2.any (fun q => decide (q.1 = p.1) && decide (q.2.vc = p.2.vc))) ∧ a.1.headlandRoom e 6 p.2 then
        (a.1.setHeadland e 6 p.2.vc (a.1.headland e 6 p.2.vc ++ [⟨{ p.2 with tick := s.now % 2 ^ 16 }, tk + 3 + edgeSlack s e⟩]), a.2)
      else (a.1, a.2 ++ [p])) (s, [])
    if x.out.isEmpty then s else { go.1 with floors := Store.put go.1.floors fl { x with out := go.2 } }

/-- Every queue into a croft releases what is stamped for its tick (R25, R231). -/
def State.releaseCroft (s0 : State) (croft : Nat) : State :=
  let tk := s0.estTick croft
  let s := s0.floorFeed croft tk
  let sides := [1, 2, 3, 4].foldl (fun t d => (edgeCores croft d).foldl (fun u c =>
    if hasNeighbour c d then
      (List.range 4).foldl (fun v vc => v.releaseQueue (neighbour c d) (facing d) vc c d tk) u
    else (List.range 4).foldl (fun v vc => v.releaseQueue c 6 vc c 5 tk) u) t) s
  sides

/-- A segment in which the wave of a lag has come to the croft, with the ticks it is to stall (R161). -/
def State.waveOf (s : State) (f : Nat) : Option (Nat × Nat) :=
  (List.range 256).findSome? (fun g =>
    if s.rd Reg.FUR_RUN.RUN (j := g) = 1 then
      ((s.seg g).wave.find? (fun w => decide (w.croft = f) && decide (w.at_ ≤ s.estTick f))).map (fun w => (g, w.ticks))
    else none)

/-- R161: a stall of `k` ticks from tick `tk` on has ended: it was a wave's as far as one was to come to the croft, and what goes
beyond it is a lag of its own, which moves on round each running segment of the croft. -/
def State.lagMoves (s : State) (f tk k : Nat) : State :=
  (List.range 256).foldl (fun t g =>
    if t.rd Reg.FUR_RUN.RUN (j := g) = 1 ∧ (t.segCrofts g).contains f then
      let x := t.seg g
      let mine := x.wave.find? (fun w => decide (w.croft = f) && decide (w.at_ ≤ t.estTick f))
      let rest := match mine with
        | some w => x.wave.erase w
        | none => x.wave
      let due := (mine.map LagStop.ticks).getD 0
      if k ≤ due then t.setSeg g { x with wave := rest }
      else (t.setSeg g { x with wave := rest ++ t.lagWave g f tk (k - due) }).incSat Reg.FUR_HOLD.LAGS 1 (j := g)
    else t) s

/-- The core of a croft whose catch buffer holds more than 128 beats (R163). -/
def State.catchOver (s : State) (f : Nat) : Option Nat :=
  (coresOfCroft f).find? (fun c => (s.core c).catchUp.isSome && decide (128 < s.catchNow c 0))

/-- R163: a croft that stands and lets a furrow queue into it exceed 128 beats: the core behind that crossing faults, the first of
such in plough order (DESIGN CHOICE, log entry 57). -/
def State.stallFault (s : State) (f : Nat) : State :=
  match (List.range 256).findSome? (fun g =>
    if s.rd Reg.FUR_RUN.RUN (j := g) = 1 ∧ (s.segCrofts g).contains f then s.crossOverflow g f else none) with
  | some c => s.furFault c 5
  | none => s

/-- The stall of a croft ends: it is recorded, LAG is raised, and the croft releases what it holds (R231). -/
def State.endStall (s : State) (f : Nat) (y : Stall) : State :=
  let x := s.croft f
  let k := s.stallTicks f
  let s1 := ((((s.setCroft f { x with stall := none }).wr Reg.LAG_REC.STAMP y.stamp f).wr Reg.LAG_REC.SIDE y.side f).wr
    Reg.LAG_REC.FURROW (b2n y.furrow) f).wr Reg.LAG_REC.K (min k 0xFF) f
  let s2 := ((s1.incSat Reg.LAG_COUNT.LAGS 1 f).incWrap Reg.LAG_COUNT.TICKS k f).lagMoves f y.stamp k
  let ring := (s2.enclOf f).getD stRing
  (s2.raiseAt ring 0x51 skCroft f (s2.estTick f) (s2.stepOf (s2.enclOf f)) (s2.copyOf Reg.LAG_REC.STAMP f)).releaseCroft f

/-- HEADLAND_RELEASE (R161, R231, R233): in the first cycle of its tick a croft releases the entries stamped for it; with an entry
missing (its side, and whether it is a furrow beat) it stalls, tick by tick, until it holds them; the stall is recorded and
LAG raised once. A croft that a lag reaches by the furrow stalls as long as the croft it arose at. A queue that the stall lets exceed
128 beats, or a catch buffer of the croft, faults (R163). Which entries are missing is the command's: the sending croft's progress
shows it (DEDUCED, log entry 57). -/
def execHeadlandRelease (croft : CroftId) (missing : Option (Fin 4 × Bool)) (s : State) : Host.Outcome State Fault Refusal :=
  let f := croft.val
  let x := s.croft f
  let tk := s.estTick f
  if !x.clock ∨ x.relAt = some tk then .next s
  else
    let s0 := match s.catchOver f with
      | some c => (s.setCroft f { x with relAt := some tk }).furFault c 5
      | none => s.setCroft f { x with relAt := some tk }
    let miss : Option (Nat × Bool) := match missing with
      | some m => some (m.1.val + 1, m.2)
      | none => match s.waveOf f with
        | some (g, k) => if s.stallTicks f < k then some (((s.crossingsInto g f).head?.map (fun p => sideTo f p.1)).getD 4, true) else none
        | none => none
    match miss, x.stall with
    | some m, none => .next (s0.modCroft f (fun z => { z with stall := some ⟨tk, m.1, m.2⟩ }))
    | some _, some _ => .next (s0.stallFault f)
    | none, none => .next (s0.releaseCroft f)
    | none, some y => .next ((s0.stallFault f).endStall f y)

end Sys2Proof.Machine
end

