-- ==== Sys2Proof/Machine/MeshEnds.lean ====
section
/-! DEFINITION. What packets do where they arrive: grants, syncs, gate and multicast writes, acknowledgements, miss notices,
read data, and the inspection copy that leaves as packets (R128-R138, R177-R192, R203, R238). -/

namespace Sys2Proof.Machine

/-! ### Control packets (R131, R238) -/

/-- R202: a grant that updates an entry ends the wait of the drills that need it. -/
def State.creditCame (s : State) (core gcr : Nat) : State :=
  [0, 1, 2, 3].foldl (fun t d =>
    if t.rd Reg.DRL_STAT.CREDIT_WAIT core d = 1 ∧ ((t.drill core d).active.map (fun r => dGcr r.words)) = some gcr then
      t.wr Reg.DRL_STAT.CREDIT_WAIT 0 core d
    else t) s
/-- R131: a grant of `u` units at an epoch reaches a sender for a target core and gate. -/
def State.applyGrant (s : State) (core target gate u e : Nat) : State :=
  match (List.range 16).find? (fun j => decide (s.rd Reg.GCR.VALID core j = 1) && decide (s.rd Reg.GCR.TARGET core j = target) &&
      decide (s.rd Reg.GCR.GATE core j = gate)) with
  | none => s.incSat Reg.GCR_LOST.LOST 1 core
  | some j =>
    let old := s.rd Reg.GCR.UNITS core j
    if s.rd Reg.GCR.EPOCH core j = e then (s.wr Reg.GCR.UNITS (min (old + u) 1024) core j).creditCame core j
    else
      let s1 := ((s.wr Reg.GCR.EPOCH e core j).wr Reg.GCR.UNITS (min u 1024) core j).creditCame core j
      if old = 0 then s1 else s1.raiseCore core 0x24 (j + e * 2 ^ 32)

/-- GRANT (R131): the grant at the head of the core's CTL ejection buffer. -/
def execGrant (core : CoreId) (s : State) : Host.Outcome State Fault Refusal :=
  let i := core.val
  match s.ejectOf i 3 with
  | p :: rest =>
    if p.ty = 0xA ∧ s.croftLive (croftOf i) then
      .next ((s.setEject i 3 rest).applyGrant i p.src (bits p.body 8 3) (bits p.body 0 8) (bits p.body 24 32))
    else .next s
  | [] => .next s

/-- SYNC (R238): the named counter of the target increments. -/
def execSync (core : CoreId) (s : State) : Host.Outcome State Fault Refusal :=
  let i := core.val
  match s.ejectOf i 3 with
  | p :: rest =>
    if p.ty = 0xB ∧ s.croftLive (croftOf i) then
      .next ((s.setEject i 3 rest).incWrap Reg.SYN_CNT.COUNT 1 i (bits p.body 0 3))
    else .next s
  | [] => .next s

/-! ### Gate and multicast writes at their target (R133, R184) -/

/-- The condition of R133 that beat `j` of a write fails first: its STATUS, or 0 when it lands; a poisoned beat never lands
(R478). -/
def State.beatCheck (s : State) (core : Nat) (p : Packet) (j : Nat) : Nat :=
  let g := bits p.body 18 3
  let off := bits p.body 0 18 + 32 * j
  let base := s.rd Reg.GATE_WIN.BASE core g
  if p.poison.contains j then 0x2A
  else if !s.gateOpen core g ∨ s.rd Reg.GATE_EPOCH.EPOCH core g ≠ bits p.body 24 32 then 0x23
  else if off < base ∨ base + s.rd Reg.GATE_WIN.SIZE core g < off + 32 then 0x25
  else if s.enclOfCore core ≠ some p.encl then 0xD6
  else 0

/-- A write's end at its target: STALE and TORN, the hedge, and its acknowledgement (R133, R177, R187). -/
def State.endLanding (s : State) (core : Nat) (p : Packet) (l : Landing) : State :=
  let g := bits p.body 18 3
  let s1 := if l.code = 0x23 ∨ l.code = 0x25 then s.incSat Reg.GATE_STAT.STALE 1 core g else s
  let s2 := if l.code = 0x23 ∧ 0 < l.landed then s1.wr Reg.GATE_STAT.TORN 1 core g else s1
  let s3 := if l.denied then s2.hedgeOnce p core (s2.estTick (croftOf core)) else s2
  if p.ty = 7 then s3.mcAck core p.via p (if l.code = 0 then ⟨1, 0, 0, 0, 0⟩ else ⟨0, 1, 0, 0, l.code⟩)
  else s3.routerSends core (respTo p 6 l.code l.landed g [])

def State.setLanding (s : State) (core vc : Nat) (l : Landing) : State :=
  s.modCore core (fun c => if vc = 2 then { c with mcLand := l } else { c with gwLand := l })

/-- A beat of a gate write lands, but for the bytes that a write-back leaves out (R133, R316). -/
def State.landBeat (s : State) (core : Nat) (p : Packet) (j : Nat) : State :=
  let o := bits p.body 0 18 + 32 * j
  let d := slice p.data (32 * j) 32
  if p.keep.isEmpty then s.spWrite core o 7 d
  else s.spWriteAt core 7 ((d.zip (List.range 32)).filterMap (fun b => if p.keep.contains (32 * j + b.2) then none else some (o + b.2, b.1)))

/-- The next `n` beats of the write at the head of an ejection buffer, each checked in its own slot 7 cycle. The first code met is the
answer, a poisoned beat's too (R478; DESIGN CHOICE, log entry 73). -/
def State.landBeats (core vc : Nat) : Nat → State → State
  | 0, s => s
  | n + 1, s =>
    match s.ejectOf core vc with
    | [] => s
    | p :: rest =>
      let len := p.data.length / 32
      let l := s.landingOf core vc
      let r : State × Landing :=
        if l.next < len then
          let c := s.beatCheck core p l.next
          if c = 0 then
            let g := bits p.body 18 3
            let t := (s.landBeat core p l.next).incWrap Reg.GATE_STAT.LANDED 1 core g
            (t, ⟨l.next + 1, l.landed + 1, l.code, l.denied⟩)
          else (s, ⟨l.next + 1, l.landed, if l.code = 0 then c else l.code, l.denied || decide (c = 0xD6)⟩)
        else (s, l)
      let t :=
        if len ≤ r.2.next then
          ((r.1.setEject core vc rest).setLanding core vc ⟨0, 0, 0, false⟩).endLanding core p r.2
        else r.1.setLanding core vc r.2
      State.landBeats core vc n t

/-- GATE_WR (R133): the gate write that has reached its target lands its next beats, `beats` of them; a CLOSE between them cuts
it. -/
def execGateWr (core : CoreId) (beats : Fin 9) (s : State) : Host.Outcome State Fault Refusal :=
  .next (if s.croftLive (croftOf core.val) then State.landBeats core.val 0 beats.val s else s)

/-- R186: a branch is dropped: a miss notice to the sender, and its acknowledgement up the tree. -/
def State.dropBranch (s : State) (core : Nat) (p : Packet) : State :=
  let tk := s.estTick (croftOf core)
  let miss : Packet := { respTo p 9 0 (core + tk % 2 ^ 16 * 2 ^ 17) 0 [] with src := core }
  (s.routerSends core miss).mcAck core p.via p ⟨0, 0, 1, 0, 0⟩

/-- R185, R186: the branch for this core at the head of an MC input finds the ejection buffer without room: it moves into a
slot, or with MCAST_HOLD = 0 is dropped, or with both slots taken stays. -/
def State.placeBranch (s : State) (core inp : Nat) : State :=
  match s.inputOf core inp 2 with
  | [] => s
  | m :: rest =>
    match m.outs.find? (fun o => decide (8 ≤ o)) with
    | none => s
    | some o =>
      let p := withGate m.pkt o
      let x := s.core core
      if m.fresh ∨ s.fallow core ∨ s.ejectRoom core p then s
      else
        let outs := m.outs.filter (fun q => decide (q ≠ o))
        let hold := s.rd Reg.MESH_CTL.MCAST_HOLD (croftOf core)
        let pop (t : State) : State := t.setInput core inp 2 (if outs.isEmpty then rest else { m with outs := outs } :: rest)
        if hold = 0 then (pop s).dropBranch core p
        else if x.mcSlots.length < 2 then
          ((pop s).modCore core (fun c => { c with mcSlots := c.mcSlots ++ [⟨p, s.estTick (croftOf core)⟩] })).slotSync core
        else s

/-- MC_WR (R133, R183-R186): the branch at an MC input is placed where its target has no room (`place`), or the branch at the
head of the ejection buffer lands its next beats. -/
def execMcWr (core : CoreId) (place : Option (Fin 6)) (beats : Fin 9) (s : State) : Host.Outcome State Fault Refusal :=
  let i := core.val
  if s.croftLive (croftOf i) then
    match place with
    | some k => .next ((s.openFork i k.val).placeBranch i k.val)
    | none => .next (State.landBeats i 2 beats.val s)
  else .next s

/-- MC_SLOT_EJECT (R175, R185): a branch in a slot wins the Local port and leaves for the ejection buffer, which has room. -/
def execMcSlotEject (core : CoreId) (slot : Fin 2) (s : State) : Host.Outcome State Fault Refusal :=
  let i := core.val
  match choose (s.candidates i 0) with
  | some c => .next (if s.croftLive (croftOf i) ∧ c.1 = 6 + slot.val then s.ejectSlot i slot.val c.2 else s)
  | none => .next s

/-- MC_BRANCH_DROP (R186): a branch that has not started ejection by the start of tick m + MCAST_HOLD is dropped. -/
def execMcBranchDrop (core : CoreId) (slot : Fin 2) (s : State) : Host.Outcome State Fault Refusal :=
  let i := core.val
  let x := s.core i
  match x.mcSlots[slot.val]? with
  | none => .next s
  | some b =>
    if s.croftLive (croftOf i) ∧ b.tick + s.rd Reg.MESH_CTL.MCAST_HOLD (croftOf i) ≤ s.estTick (croftOf i) then
      .next (((s.setCore i { x with mcSlots := x.mcSlots.eraseIdx slot.val }).slotSync i).dropBranch i b.pkt)
    else .next s

/-! ### Responses -/

/-- The first packet of a type in a core's RSP ejection buffer, and the rest. -/
def takeTy (ty : Nat) : List Packet → Option (Packet × List Packet)
  | [] => none
  | p :: t => if p.ty = ty then some (p, t) else (takeTy ty t).map (fun r => (r.1, p :: r.2))

/-- A count of packets still unanswered, by enclosure, down by one. -/
def countDown (l : List (Nat × Nat)) (n : Nat) : List (Nat × Nat) := Store.put l n (Store.getD l n 0 - 1)

/-- GATE_ACK (R177, R203, R317): at a core, the sender's completion is posted, and a refusal raised; at a landing port, one
write-back packet is answered, a refused one counted and raised once per step. -/
def execGateAck (dest : Requestee) (s : State) : Host.Outcome State Fault Refusal :=
  match dest with
  | .core core =>
    let i := core.val
    if !s.croftLive (croftOf i) then .next s
    else match takeTy 6 (s.ejectOf i 1) with
    | none => .next s
    | some r =>
      let p := r.1
      let s1 := s.setEject i 1 r.2
      let s2 := if p.status = 0x23 ∨ p.status = 0x25 then
          s1.raiseCore i p.status (p.src + p.via * 2 ^ 17 + bits p.body 0 4 * 2 ^ 20)
        else s1
      .next (s2.postXfer i p.tag p.status)
  | .port t =>
    match takeTy 6 (s.tabko t.val).rspBuf with
    | none => .next s
    | some r =>
      let p := r.1
      let s1 := s.modTabko t.val (fun x => { x with rspBuf := r.2, wbOut := countDown x.wbOut p.encl })
      if p.status = 0x23 ∨ p.status = 0x25 then
        let s2 := s1.incSat Reg.UPD_CNT.WB_REFUSED 1 t.val p.encl
        if (s2.tabko t.val).wbRefused.contains p.encl then .next s2
        else
          let s3 := s2.modTabko t.val (fun x => { x with wbRefused := p.encl :: x.wbRefused })
          let det := s3.copyOf Reg.UPD_CNT.NONFIN t.val p.encl
          .next ((s3.raiseEncl p.encl 0x69 skTabko t.val det).raiseAt stRing 0x69 skTabko t.val s3.now
            (s3.stepOf (some p.encl)) det)
      else .next s1
  | .floor _ _ => .next s

/-- MC_ACK (R187): an acknowledgement reaches the router that combines it, or the sender. -/
def execMcAck (core : CoreId) (s : State) : Host.Outcome State Fault Refusal :=
  let i := core.val
  match takeTy 8 (s.ejectOf i 1) with
  | none => .next s
  | some r => .next (if !s.croftLive (croftOf i) then s else (s.setEject i 1 r.2).mcDeliver i r.1.dst r.1.encl r.1.tag (McSum.ofBody r.1.body))

/-- MC_MISS (R188): a notice is written into the log entry at WR. -/
def execMcMiss (core : CoreId) (s : State) : Host.Outcome State Fault Refusal :=
  let i := core.val
  if !s.croftLive (croftOf i) then .next s
  else match takeTy 9 (s.ejectOf i 1) with
  | none => .next s
  | some r =>
    let p := r.1
    let k := s.rd Reg.MC_STAT.WR i
    let s1 := s.setEject i 1 r.2
    let s2 := if s1.rd Reg.MC_MISS.VALID i k = 1 then s1.wr Reg.MC_STAT.OVF 1 i else s1
    let s3 := (((s2.wr Reg.MC_MISS.TARGET (bits p.body 0 17) i k).wr Reg.MC_MISS.TAG p.tag i k).wr Reg.MC_MISS.VALID 1 i k).wr
      Reg.MC_MISS.DROP_TICK (bits p.body 17 16) i k
    .next ((s3.wr Reg.MC_STAT.WR (k + 1) i).incSat Reg.MC_STAT.MISSES 1 i)

/-! ### Read data (R203, R206) -/

/-- A read answer waits for a scale transfer of its groups that is still on its way (R200, log entry 16). -/
def awaitsScale (r : DescRun) (out : List Xfer) (x : Xfer) : Bool :=
  decide (dXform r.words = 3) && decide (0 < scaleXfers r.words) && !x.scale &&
  (List.range x.count).any (fun k => (Store.get r.scales (x.unit + k)).isNone &&
    out.any (fun o => o.scale && o.done.isNone && decide (o.unit ≤ x.unit + k) && decide (x.unit + k < o.unit + o.count)))

/-- RD_RSP (R203, R206, R478): the first read answer in the core's RSP buffer lands through slot 6 and completes its transfer; a
nonzero STATUS carries no data, and a poisoned answer is not written. -/
def execRdRsp (core : CoreId) (s : State) : Host.Outcome State Fault Refusal :=
  let i := core.val
  match takeTy 2 (s.ejectOf i 1) with
  | none => .next s
  | some r =>
    let p := r.1
    let wait : Bool := match s.drillOfTag i p.tag with
      | some d => match (s.drill i d).active, (s.drill i d).out.find? (fun o => decide (o.tag = p.tag)) with
        | some q, some x => awaitsScale q (s.drill i d).out x
        | _, _ => false
      | none => false
    if wait || !s.croftLive (croftOf i) then .next s
    else
      let st := if p.status = 0 ∧ !p.poison.isEmpty then 0x2A else p.status
      .next ((s.setEject i 1 r.2).readAnswered i p.tag st (slice p.data (bits p.body 0 48 % 32) (bits p.body 48 9)))

/-! ### The inspection copy (R138, R258, R277) -/

/-- Address of byte `b` of a spread tensor (R298). -/
def partAddr (ps : List Part) (b : Nat) : Option Nat :=
  (ps.find? (fun q => decide (q.off ≤ b) && decide (b < q.off + q.len))).map (fun q => q.mpa + (b - q.off))

/-- The writes of a core's inspection copy: 256 B each, KCOPY = 1 (R178). -/
def State.copyPackets (s : State) (core : Nat) (n : Nat) (data : List Byte) : List Packet :=
  let th := (s.core core).thread.getD 0
  (List.range 1024).filterMap (fun k =>
    match partAddr (s.encl n).inspect (th * 0x40000 + k * 256) with
    | none => none
    | some a => (s.tabkoOf a).map (fun t =>
        { s.corePacket core 3 0 1 t (k % 256) (slowBody a 256) [] (slice data (k * 256) 256) with encl := n, kcopy := true }))

/-- INSPECTION_COPY_DONE (R138): the harrow has read the last byte of the copy; its writes are on their way, and the wipe's own
cycles begin. -/
def execInspectionCopyDone (core : CoreId) (s : State) : Host.Outcome State Fault Refusal :=
  let i := core.val
  match (if s.harrowRuns i then (s.core i).copy else none), s.enclOfCore i with
  | some _, some n =>
    let r := s.spRead i 0 0x40000 7
    let ps := r.2.copyPackets i n r.1
    .next (r.2.modCore i (fun c => { c with copy := none, copyOut := c.copyOut + ps.length, copyQ := c.copyQ ++ ps }))
  | some _, none => .next (s.modCore i (fun c => { c with copy := none }))
  | none, _ => .next s

end Sys2Proof.Machine
end

