-- ==== Sys2Proof/Machine/Maint.lean ====
section
/-! DEFINITION. The maintenance arbiter (R473, R474): claims as MAINT_CLAIM holds them, and their conflicts. -/

namespace Sys2Proof.Machine

/-- A claim: activity, kind of resource (0 croft rectangle, 1 holding, 2 Tabko, 3 port), its index, and the rectangle. -/
structure Claim where
  act : Nat
  kind : Nat
  index : Nat
  crows : Nat
  ccols : Nat
  deriving DecidableEq, Repr

/-- A claim as MAINT_CLAIM lays it out (R476). -/
def Claim.word (c : Claim) : Nat :=
  c.act + 2 ^ 4 + c.kind * 2 ^ 5 + c.index * 2 ^ 16 + c.crows % 32 * 2 ^ 24 + c.ccols % 32 * 2 ^ 29
/-- The crofts a claim covers. -/
def Claim.crofts (c : Claim) : List Nat :=
  if c.kind = 0 then rectCrofts c.index c.crows c.ccols else if c.kind = 1 then croftsOfHolding c.index else []

/-- Two claims conflict (second table of R473). -/
def Claim.conflicts (a b : Claim) : Bool :=
  let croft := a.crofts.any (fun x => b.crofts.contains x)
  let unit := decide (a.kind = b.kind) && decide (2 ≤ a.kind) && decide (a.index = b.index)
  let pair (p q : Nat → Bool) : Bool := (p a.act && q b.act) || (p b.act && q a.act)
  let is (l : List Nat) (n : Nat) : Bool := l.contains n
  pair (is [1]) (is [1]) || (pair (is [1, 2]) (is [2, 4, 5, 9]) && croft) || (pair (is [2]) (is [6, 7, 8]) && unit) ||
  (pair (is [4]) (is [5]) && croft) || (pair (is [6, 7, 8]) (is [6, 7, 8]) && unit)

/-- The claims that MAINT_CLAIM lists, each with its number. -/
def State.listedClaims (s : State) : List (Nat × Claim) :=
  ((List.range 32).filter (fun j => decide (s.rd Reg.MAINT_CLAIM.VALID 0 j = 1))).map (fun j =>
    (j, ⟨s.rd Reg.MAINT_CLAIM.ACT 0 j, s.rd Reg.MAINT_CLAIM.KIND 0 j, s.rd Reg.MAINT_CLAIM.INDEX 0 j,
      s.rd Reg.MAINT_CLAIM.CROWS 0 j, s.rd Reg.MAINT_CLAIM.CCOLS 0 j⟩))
/-- The claims in force. A yoke compare's claim counts also where the 32 places of MAINT_CLAIM are taken; its number is then 32. -/
def State.claims (s : State) : List (Nat × Claim) :=
  let l := s.listedClaims
  l ++ ((s.tabkos.filter (fun p => p.2.cmp.isSome && !l.any (fun q => decide (q.2.act = 7) && decide (q.2.index = p.1)))).map
    (fun p => (32, ⟨7, 2, p.1, 0, 0⟩)))
/-- A claim meets no conflict. -/
def State.claimOk (s : State) (c : Claim) : Bool := s.claims.all (fun p => !(c.conflicts p.2))
/-- Some claim of the activities given is in force for a unit. -/
def State.claimed (s : State) (acts : List Nat) (kind index : Nat) : Bool :=
  s.claims.any (fun p => acts.contains p.2.act && decide (p.2.kind = kind) && decide (p.2.index = index))
/-- Some claim of the activities given covers a croft. -/
def State.croftClaimed (s : State) (acts : List Nat) (c : Nat) : Bool :=
  s.claims.any (fun p => acts.contains p.2.act && p.2.crofts.contains c)

/-- A claim is entered in the first free place. -/
def State.addClaim (s : State) (c : Claim) : State :=
  match (List.range 32).find? (fun j => decide (s.rd Reg.MAINT_CLAIM.VALID 0 j = 0)) with
  | none => s
  | some j =>
    (((((s.wr Reg.MAINT_CLAIM.ACT c.act 0 j).wr Reg.MAINT_CLAIM.KIND c.kind 0 j).wr Reg.MAINT_CLAIM.INDEX c.index 0 j).wr
      Reg.MAINT_CLAIM.CROWS c.crows 0 j).wr Reg.MAINT_CLAIM.CCOLS c.ccols 0 j).wr Reg.MAINT_CLAIM.VALID 1 0 j
/-- The claims that meet a test are released. -/
def State.dropClaims (s : State) (f : Claim → Bool) : State :=
  s.listedClaims.foldl (fun t p => if f p.2 then t.wr Reg.MAINT_CLAIM.VALID 0 0 p.1 else t) s
/-- R473: a refused claim raises MAINT_BUSY. -/
def State.refuseClaim (s : State) (c : Claim) : State := s.raiseSt 0xC1 c.word
/-- A claim, taken or refused. -/
def State.tryClaim (s : State) (c : Claim) : Bool × State :=
  if s.claimOk c then (true, s.addClaim c) else (false, s.refuseClaim c)

end Sys2Proof.Machine
end

