-- ==== Sys2Proof/Machine/Slow.lean ====
section
/-! DEFINITION. The slow tier (R282-R306): spans and interleave, regions, admission, the answers at their fixed counts, wipe on
first touch, the patrol, retraining and failure. -/

namespace Sys2Proof.Machine

/-! ### Addresses (R284-R287) -/

/-- Bytes of a span (R284). -/
def spanBytes : Nat := 0xF00000000
/-- First address of a Tabko's span. -/
def State.spanBase (s : State) (t : Nat) : Nat := s.spanIndex t * spanBytes
/-- The address lies in the Tabko's span. -/
def State.inSpan (s : State) (t a : Nat) : Bool := decide (s.spanBase t ≤ a) && decide (a < s.spanBase t + spanBytes)
/-- Where a local offset lies in the DRAM (R285). -/
structure DramPlace where
  channel : Nat
  group : Nat
  bank : Nat
  row : Nat
  /-- Block of the row that holds the byte. -/
  block : Nat
  deriving DecidableEq, Repr

/-- R285: the quad part in units of 256 B, the pair part, from 56 GiB on, in units of 128 B. -/
def dramPlace (l : Nat) : DramPlace :=
  if l < 0xE00000000 then
    let u := l / 256
    ⟨u % 8, u / 8 % 4, u / 32 % 4, u / 896, 4 * (u / 128 % 7) + l / 64 % 4⟩
  else
    let u := (l - 0xE00000000) / 128
    ⟨u % 8, u / 8 % 4, u / 32 % 4, u / 128, 28 + l / 64 % 2⟩
/-- Channel of a local offset (R285). -/
def channelOf (l : Nat) : Nat := (dramPlace l).channel

/-- What a byte of a 2 KiB DRAM row holds (R286): a byte of a data block, a byte of a check word, or nothing, written as zero. -/
inductive RowByte where
  | data (block k : Nat)
  | check (block k : Nat)
  | unused
  deriving DecidableEq, Repr
/-- R286. -/
def rowByte (b : Nat) : RowByte :=
  if b < 1920 then .data (b / 64) (b % 64) else if b < 2040 then .check ((b - 1920) / 4) ((b - 1920) % 4) else .unused
/-- The burst of the row, of 64 B, that holds the check word of a block: 30 for blocks 0 to 15, 31 for the others (R286). -/
def checkBurst (block : Nat) : Nat := (1920 + 4 * block) / 64
/-- Granules of a span, blocks of a granule (R297). -/
def granules : Nat := 983040
/-- Tick of a landing port: that of its croft. -/
def State.portTick (s : State) (t : Nat) : Nat := s.estTick (portCroft t)

/-- Local blocks a byte range touches (R286). -/
def blocksOf (l n : Nat) : List Nat := if n = 0 then [] else (List.range ((l + n - 1) / 64 - l / 64 + 1)).map (fun k => l / 64 + k)
/-- The range covers a block whole. -/
def coversBlock (l n b : Nat) : Bool := decide (l ≤ b * 64) && decide (b * 64 + 64 ≤ l + n)
/-- Slots a request costs on each channel it touches (R291): its blocks and the burst of their check words, which one unit shares (R286);
a write that covers blocks in part reads them before. -/
def slotCosts (write : Bool) (l n : Nat) : List (Nat × Nat) :=
  let bs := blocksOf l n
  (List.range 8).filterMap (fun c =>
    let mine := bs.filter (fun b => decide (channelOf (b * 64) = c))
    if mine.isEmpty then none
    else
      let part := (mine.filter (fun b => !coversBlock l n b)).length
      some (c, mine.length + 1 + (if write ∧ 0 < part then part + 1 else 0)))
/-- The pieces of a byte range of a Tabko that lie in one unit of 256 B each: offset and length (R200, R291). -/
def unitPieces (l n : Nat) : List (Nat × Nat) :=
  if n = 0 then []
  else (List.range ((l + n - 1) / 256 - l / 256 + 1)).map (fun k =>
    let lo := max l ((l / 256 + k) * 256)
    (lo, min (l + n) ((l / 256 + k + 1) * 256) - lo))

/-- The region of a Tabko that holds a granule (R297, R306). -/
def State.regionOf (s : State) (t g : Nat) : Option Nat :=
  (List.range 64).find? (fun r => decide (s.rd Reg.TBK_REGION.VALID t r = 1) && decide (s.rd Reg.TBK_REGION.BASE t r ≤ g) &&
    decide (g < s.rd Reg.TBK_REGION.BASE t r + s.rd Reg.TBK_REGION.COUNT t r))
/-- Regions of an enclosure on a Tabko. -/
def State.regionsOf (s : State) (t n : Nat) : List Nat :=
  (List.range 64).filter (fun r => decide (s.rd Reg.TBK_REGION.VALID t r = 1) && decide (s.rd Reg.TBK_REGION.ENCL t r = n))
/-- Enclosures with a region on a Tabko. -/
def State.enclsOn (s : State) (t : Nat) : List Nat := (List.range 16).filter (fun n => !(s.regionsOf t n).isEmpty)

/-! ### Generations, stale blocks (R297, R299) -/

/-- Generation and marks of a granule. -/
def TabkoX.gran (x : TabkoX) (g : Nat) : Nat × Nat := Store.getD x.grans g (0, 0)
/-- A block of a PENDING granule not written since the mark reads as zeros. -/
def TabkoX.stale (x : TabkoX) (b : Nat) : Bool := x.pendings.contains (b / 1024) && !x.fresh.contains b
/-- TBK_STAT.PENDING counts the PENDING granules; with none left on any Tabko the wipe of R459 is over. -/
def State.pendSync (s : State) (t : Nat) : State :=
  let s1 := s.wr Reg.TBK_STAT.PENDING (s.tabko t).pendings.length t
  if s1.rd Reg.GNT_STAT.REFURB_BUSY = 1 ∧ (List.range 48).all (fun k => (s1.tabko k).pendings.isEmpty) then s1.wr Reg.GNT_STAT.REFURB_BUSY 0 else s1
/-- The harrow's wipe of a granule: zeros in every stale block (R300). -/
def State.wipeGranule (s : State) (t g : Nat) : State :=
  let x := s.tabko t
  let base := s.spanBase t + g * 65536
  let stale := (List.range 1024).filter (fun k => x.stale (g * 1024 + k))
  let s1 := stale.foldl (fun (u : State) k =>
    { u with
      mem := Memory.writeList u.mem (base + k * 64) (List.replicate 64 0)
      slowErrs := Store.erase u.slowErrs (base + k * 64) }) s
  (s1.setTabko t { x with
    pendings := x.pendings.filter (fun h => decide (h ≠ g)), wipeOrder := x.wipeOrder.filter (fun h => decide (h ≠ g))
    fresh := x.fresh.filter (fun b => decide (b / 1024 ≠ g)), grans := Store.put x.grans g ((x.gran g).1, 0) }).pendSync t
/-- R299, R300: a granule is marked for wipe; one marked 15 times since its last wipe is wiped before. -/
def State.markGranule (s : State) (t g : Nat) : State :=
  let s0 := if 15 ≤ ((s.tabko t).gran g).2 then s.wipeGranule t g else s
  let x := s0.tabko t
  let q := x.gran g
  (s0.setTabko t { x with
    grans := Store.put x.grans g ((q.1 + 1) % 16, q.2 + 1), pendings := if x.pendings.contains g then x.pendings else x.pendings ++ [g]
    wipeOrder := x.wipeOrder.filter (fun h => decide (h ≠ g)), fresh := x.fresh.filter (fun b => decide (b / 1024 ≠ g)) }).pendSync t
/-- A request touches a granule: the first to touch a PENDING one moves it to the head of the wipe order (R299). -/
def State.touchGranule (s : State) (t g : Nat) : State :=
  let x := s.tabko t
  if x.pendings.contains g && !x.wipeOrder.contains g then s.setTabko t { x with wipeOrder := g :: x.wipeOrder } else s

/-! ### Blocks (R287-R289) -/

/-- What a DRAM access found: corrected symbols, and the blocks beyond correction. -/
structure Found where
  corr : Nat
  bad : List Nat
  deriving DecidableEq, Repr
def State.blockErr (s : State) (a : Nat) : Nat := Store.getD s.slowErrs (a / 64 * 64) 0
/-- Bytes of a span as a read returns them: stale blocks as zeros; `l` is the local offset. -/
def State.dramRead (s : State) (t l n : Nat) : List Byte × Found :=
  let x := s.tabko t
  let base := s.spanBase t
  let live := (blocksOf l n).filter (fun b => !x.stale b)
  let bad := live.filter (fun b => decide (s.blockErr (base + b * 64) = 2))
  ((List.range n).map (fun k => if x.stale ((l + k) / 64) then 0 else s.byte (base + l + k)),
   ⟨(live.filter (fun b => decide (s.blockErr (base + b * 64) = 1))).length, bad.map (fun b => base + b * 64)⟩)
/-- Bytes written to a span (R289, R299): a block covered whole takes a fresh check; in a part of one, a stale rest is zeros, a
correctable error is corrected, and a block beyond correction keeps its content. -/
def State.dramWrite (s : State) (t l : Nat) (bs : List Byte) : State × Found :=
  let base := s.spanBase t
  let n := bs.length
  (blocksOf l n).foldl (fun (acc : State × Found) b =>
    let u := acc.1
    let x := u.tabko t
    let stale := x.stale b
    let lo := max l (b * 64)
    let hi := min (l + n) (b * 64 + 64)
    let part := (bs.drop (lo - l)).take (hi - lo)
    let whole := coversBlock l n b
    let e := if stale then 0 else u.blockErr (base + b * 64)
    if e = 2 ∧ !whole then (u, { acc.2 with bad := acc.2.bad ++ [base + b * 64] })
    else
      let m0 := if stale ∧ !whole then Memory.writeList u.mem (base + b * 64) (List.replicate 64 0) else u.mem
      let v : State :=
        { u with
          mem := Memory.writeList m0 (base + lo) part
          slowErrs := Store.erase u.slowErrs (base + b * 64) }
      let w := if x.pendings.contains (b / 1024) ∧ !x.fresh.contains b then v.setTabko t { x with fresh := x.fresh ++ [b] } else v
      (w, { acc.2 with corr := acc.2.corr + (if e = 1 ∧ !whole then 1 else 0) })) (s, ⟨0, []⟩)

/-- R288: corrected symbols are counted; the first of a period of 65,536 tk is raised. -/
def State.symbols (s : State) (t n : Nat) : State :=
  if n = 0 then s
  else
    let s1 := s.incWrap Reg.TBK_ECC.CORR n t
    let per := s1.now / 65536
    let s2 := s1.countSymbols n
    if (s2.tabko t).corrPeriod = some per then s2
    else (s2.modTabko t (fun x => { x with corrPeriod := some per })).raiseUnit 0x61 skTabko t (s2.copyOf Reg.TBK_ECC.CORR t)
/-- R289: a block beyond correction: recorded with its source, raised to its owner and to the steading. -/
def State.badBlock (s : State) (t a source : Nat) : State :=
  let s1 := ((((s.incSat Reg.TBK_ECC.UNCORR 1 t).wr Reg.TBK_ECC_LOC.ADDR a t).wr Reg.TBK_ECC_LOC.CHANNEL (channelOf (a - s.spanBase t)) t).wr
    Reg.TBK_ECC_LOC.SOURCE source t).wr Reg.TBK_ECC_LOC.VALID 1 t
  let det := s1.copyOf Reg.TBK_ECC_LOC.ADDR t
  let s2 := match s1.regionOf t ((a - s.spanBase t) / 65536) with
    | some r => s1.raiseEncl (s1.rd Reg.TBK_REGION.ENCL t r) 0x62 skTabko t det
    | none => s1
  s2.raiseUnit 0x62 skTabko t det
/-- Both kinds of finding of an access are reported, every block beyond correction by itself. -/
def State.report (s : State) (t source : Nat) (f : Found) : State :=
  f.bad.foldl (fun u a => u.badBlock t a source) (s.symbols t f.corr)
/-- Symbol errors come into the rows of a Tabko: its block, and whether one symbol is wrong or more. They stay until the block is written or
the patrol repairs it (R287, R288). -/
def State.upset (s : State) (t : Nat) (l : List (BitVec 30 × Bool)) : State :=
  l.foldl (fun u e =>
    let a := s.spanBase t + e.1.toNat * 64
    if granules * 1024 ≤ e.1.toNat then u
    else { u with slowErrs := Store.put u.slowErrs a (if e.2 ∧ u.blockErr a ≠ 2 then 1 else 2) }) s

/-! ### Requests at the port (R293, R295-R297) -/

/-- Landing ports and floors discard what carries the enclosure (R275): its cores have halted, or it is over. -/
def State.muted (s : State) (n : Nat) : Bool :=
  let st := s.rd Reg.ENCL_STATE.STATE (j := n)
  decide (st = 0) || decide (st = 5) || (decide (st = 4) && (s.encl n).haltDue.isNone)

def reqAddr (p : Packet) : Nat := bits p.body 0 48
def reqBytes (p : Packet) : Nat := bits p.body 48 9

/-- A request at the head of the port's REQ buffer enters the admission queue, of 64 places; one of an enclosure whose traffic is
discarded goes nowhere (R275). -/
def State.takeRequest (s : State) (t ty : Nat) : State :=
  let x := s.tabko t
  match x.reqBuf with
  | r :: rest =>
    if r.pkt.ty ≠ ty then s
    else if s.muted r.pkt.encl ∧ !r.pkt.kcopy then s.setTabko t { x with reqBuf := rest }
    else if x.admq.length < 64 then s.setTabko t { x with reqBuf := rest, admq := x.admq ++ [r] }
    else s
  | [] => s

/-- RD_REQ (R293). -/
def execRdReq (tabko : TabkoId) (s : State) : Host.Outcome State Fault Refusal := .next (s.takeRequest tabko.val 1)
/-- WR_REQ (R293). -/
def execWrReq (tabko : TabkoId) (s : State) : Host.Outcome State Fault Refusal := .next (s.takeRequest tabko.val 3)

/-- The byte lies in the enclosure's inspection range (R258). -/
def State.inInspect (s : State) (n a : Nat) : Bool :=
  (s.encl n).inspect.any (fun q => decide (q.mpa ≤ a) && decide (a < q.mpa + q.len))

/-- R296, R297, R304: the STATUS of a request that is answered with no DRAM access. -/
def State.quickStatus (s : State) (t : Nat) (p : Packet) : Option Nat :=
  let a := reqAddr p
  let n := reqBytes p
  let len := p.data.length / 32
  if s.rd Reg.TBK_STAT.DOWN t = 1 then some 0x66
  else if (0 < n ∧ a / 256 ≠ (a + n - 1) / 256) ∨ len ≠ (if p.ty = 3 then ceilDiv (a % 32 + n) 32 else 0) then some 0x64
  else if !s.inSpan t a then some 0x02
  else
    let g := (a - s.spanBase t) / 65536
    match s.regionOf t g with
    | none => some 0xD6
    | some r =>
      let mine := decide (s.rd Reg.TBK_REGION.ENCL t r = p.encl)
      if s.rd Reg.TBK_REGION.CLOSED t r = 1 ∧ !(mine && p.kcopy && decide (p.ty = 3) && s.inInspect p.encl a) then some 0x67
      else if !mine then some 0xD6
      else if n = 0 then some 0
      else if p.ty = 3 ∧ !p.poison.isEmpty then some 0x2A
      else none

/-- What such an answer raises (R34, R265, R296, R297). -/
def State.quickEvent (s : State) (t st : Nat) (p : Packet) : State :=
  let a := reqAddr p
  if st = 0x64 ∨ st = 0x67 then s.raiseEncl p.encl st skTabko t a
  else if st = 0x02 then s.raiseSender p 0x02 a
  else if st = 0xD6 then s.hedgeDenied p.encl a (s.portTick t)
  else s

/-- Cost of an enclosure's requests on a channel, of its cores and of the tillers, over the window that ends in tick `tk` (R293, R295). -/
def State.windowCost (s : State) (t n ch tk : Nat) : Nat :=
  let w := s.rd Reg.TBK_ID.ADMIT_WIN t
  let x := s.tabko t
  ((x.tracks.filter (fun k => decide (k.pkt.encl = n) && decide (tk < k.acc + w))).map (fun k => Store.getD k.costs ch 0)).sum +
  ((x.tills.filter (fun k => decide (k.encl = n) && k.acc.any (fun a => decide (tk < a + w)))).map (fun k => Store.getD k.costs ch 0)).sum
/-- Conditions 2 and 3 of R293 for a request of given costs. -/
def State.fitsShare (s : State) (t n tk : Nat) (costs : List (Nat × Nat)) : Bool :=
  costs.all (fun c => decide (s.windowCost t n c.1 tk + c.2 ≤ s.rd Reg.TBK_SHARE.SHARE t n)) &&
  decide (s.rd Reg.TBK_SHARE.INUSE t n < s.rd Reg.TBK_SHARE.TRACK t n)
/-- Tracker entries of a landing port that no enclosure holds: those of steading and window accesses (R295). A share sums to 60 at most,
so that 24 remain; such an access is over within its command and holds its entry no longer (R250). -/
def State.restEntries (s : State) (t : Nat) : Nat := 384 - ((List.range 16).map (fun n => s.rd Reg.TBK_SHARE.TRACK t n)).sum

/-- The three conditions of R293, behind the enclosure's earlier requests that still wait. -/
def State.admits (s : State) (t tk : Nat) (kept : List SlowReq) (p : Packet) : Bool :=
  let cost (q : Packet) : List (Nat × Nat) := slotCosts (decide (q.ty = 3)) (reqAddr q - s.spanBase t) (reqBytes q)
  let mine := cost p
  kept.all (fun k => !(decide (k.pkt.encl = p.encl) && (cost k.pkt).any (fun c => mine.any (fun d => decide (c.1 = d.1))))) &&
  s.fitsShare t p.encl tk mine

/-- An accepted request: its DRAM access takes its place in the order of its channel (R294), and its tracker entry. -/
def State.acceptReq (s : State) (t tk : Nat) (p : Packet) : State :=
  let l := reqAddr p - s.spanBase t
  let n := reqBytes p
  let s0 := (s.touchGranule t (l / 65536)).wr Reg.TBK_SHARE.INUSE (s.rd Reg.TBK_SHARE.INUSE t p.encl + 1) t p.encl
  let costs := slotCosts (decide (p.ty = 3)) l n
  if p.ty = 3 then
    let r := s0.dramWrite t l (slice p.data (reqAddr p % 32) n)
    r.1.modTabko t (fun x => { x with tracks := x.tracks ++ [⟨p, tk, if r.2.bad.isEmpty then 0 else 0x62, [], costs, r.2.corr, r.2.bad⟩] })
  else
    let r := s0.dramRead t l n
    s0.modTabko t (fun x => { x with
      tracks := x.tracks ++ [⟨p, tk, if r.2.bad.isEmpty then 0 else 0x62, r.1, costs, r.2.corr, r.2.bad⟩] })

/-- The wheel turns and the port admits (R293, R301, R303). -/
def State.admitting (s : State) (t : Nat) : Bool :=
  decide (s.mpState = 0) && decide (s.rd Reg.TBK_STAT.INIT_BUSY t = 0) && decide (s.rd Reg.TBK_STAT.RECAL_BUSY t = 0)

/-- Bytes a tiller reads; a block beyond correction is reported, and what its bytes give is open (log entry 14). -/
def State.tillRead (s : State) (t l n : Nat) : List Byte × State :=
  let r := s.dramRead t l n
  let x := s.tabko t
  let bad (k : Nat) : Bool := !x.stale ((l + k) / 64) && decide (s.blockErr (s.spanBase t + l + k) = 2)
  let d := (List.range n).map (fun k => if bad k then Config.freeByte (s.freeIx + k) else r.1[k]?.getD 0)
  let s1 := s.report t 1 r.2
  (d, if r.2.bad.isEmpty then s1 else { s1 with freeIx := s1.freeIx + n })
/-- Bytes a tiller writes. -/
def State.tillWrite (s : State) (t l : Nat) (bs : List Byte) : State :=
  let r := s.dramWrite t l bs
  r.1.report t 1 r.2
/-- An access of the tillers is accepted at tick `tk`: it takes its tracker entry and its place in the order of its channel (R294, R295). What a
read gives goes to its work. -/
def State.acceptTill (s : State) (t tk j : Nat) (k : TillAcc) : State :=
  let s0 := ((s.wr Reg.TBK_SHARE.INUSE (s.rd Reg.TBK_SHARE.INUSE t k.encl + 1) t k.encl).modTabko t (fun x =>
    { x with tills := x.tills.set j { k with acc := some tk } })).touchGranule t (k.at_ / 65536)
  if k.write then s0.tillWrite t k.at_ k.data
  else
    let r := s0.tillRead t k.at_ k.len
    r.2.modTabko t (fun x => { x with
      work := x.work.map (fun w => if w.id = k.job then { w with left := w.left - 1, got := w.got ++ [(k.at_, r.1)] } else w) })

/-- The access has been answered by tick `tk` (R294). -/
def TillAcc.over (k : TillAcc) (tk : Nat) : Bool := k.acc.any (fun a => decide (a + k.count ≤ tk))
/-- Accesses of the tillers whose answers have left give their tracker entries back (R294, R295). -/
def State.endTills (s : State) (t tk : Nat) : State :=
  let x := s.tabko t
  if x.tills.any (fun k => k.over tk) then
    ((x.tills.filter (fun k => k.over tk)).foldl (fun u k => u.wr Reg.TBK_SHARE.INUSE (u.rd Reg.TBK_SHARE.INUSE t k.encl - 1) t k.encl) s).setTabko t
      { x with tills := x.tills.filter (fun k => !k.over tk) }
  else s
/-- R295: after the requests of the mesh the port considers those of the tillers, in their order; one waits behind an earlier request of its
enclosure on a channel it touches. -/
def State.admitTills (s : State) (t tk : Nat) (kept : List SlowReq) : State :=
  let held := kept.map (fun r => (r.pkt.encl, slotCosts (decide (r.pkt.ty = 3)) (reqAddr r.pkt - s.spanBase t) (reqBytes r.pkt)))
  let n := (s.tabko t).tills.length
  ((List.range n).foldl (fun (acc : State × List (Nat × List (Nat × Nat))) j =>
    match (acc.1.tabko t).tills[j]? with
    | none => acc
    | some k =>
      if k.acc.isSome then acc
      else if acc.2.all (fun h => !(decide (h.1 = k.encl) && h.2.any (fun c => k.costs.any (fun d => decide (c.1 = d.1))))) &&
          acc.1.fitsShare t k.encl tk k.costs then
        (acc.1.acceptTill t tk j k, acc.2)
      else (acc.1, acc.2 ++ [(k.encl, k.costs)])) (s, held)).1

/-- R293, R295: the port admits the requests whose header has arrived, in order of arrival, then those of the tillers. -/
def State.portAdmit (s : State) (t : Nat) : State :=
  let tk := s.portTick t
  let go := (s.tabko t).admq.foldl (fun (acc : State × List SlowReq) r =>
    let u := acc.1
    if tk < r.arr then (u, acc.2 ++ [r])
    else match u.quickStatus t r.pkt with
      | some st =>
        ((u.quickEvent t st r.pkt).modTabko t (fun x => { x with tracks := x.tracks ++ [⟨r.pkt, tk, st, [], [], 0, []⟩] }), acc.2)
      | none =>
        if u.admits t tk acc.2 r.pkt then (u.acceptReq t tk r.pkt, acc.2)
        else (u.incWrap Reg.TBK_SHARE.ADMIT_WAIT 1 t r.pkt.encl, acc.2 ++ [r])) (s.endTills t tk, [])
  (go.1.modTabko t (fun x => { x with admq := go.2 })).admitTills t tk go.2

/-! ### Answers (R294, R304) -/

/-- R304: TABKO_LINK, and a retraining at the next step boundary. -/
def State.linkFailed (s : State) (t n : Nat) : State :=
  let s1 := (s.incSat Reg.TBK_LINK.FAILS 1 t).modTabko t (fun x => { x with retrainDue := true })
  let det := s1.copyOf Reg.TBK_LINK.REPLAYS t
  (s1.raiseEncl n 0x63 skTabko t det).raiseUnit 0x63 skTabko t det

/-- R304: the bytes of a write answered 0x63 hold what the spec does not say, and so do the reads of them accepted since, until
they are written again (log entry 14). -/
def State.unknownBytes (s : State) (t : Nat) (p : Packet) (later : List Track) : State :=
  let a := reqAddr p
  let n := reqBytes p
  let free (k : Nat) : Byte := Config.freeByte (s.freeIx + k)
  let go := later.foldl (fun (acc : List Nat × List Track) k =>
    let b := reqAddr k.pkt
    let m := reqBytes k.pkt
    if k.costs.isEmpty then (acc.1, acc.2 ++ [k])
    else if k.pkt.ty = 3 then (acc.1.filter (fun j => !(decide (b ≤ a + j) && decide (a + j < b + m))), acc.2 ++ [k])
    else
      let d := (List.range k.data.length).map (fun i =>
        if a ≤ b + i ∧ acc.1.contains (b + i - a) then free (b + i - a) else k.data[i]?.getD 0)
      (acc.1, acc.2 ++ [{ k with data := d }])) (List.range n, [])
  let s1 := go.1.foldl (fun (u : State) j => { u with mem := Memory.write u.mem (a + j) (free j) }) s
  { s1.modTabko t (fun x => { x with tracks := go.2 }) with freeIx := s.freeIx + n }

/-- The first accepted request of a type, those before it, those after. -/
def takeTrack (ty : Nat) : List Track → Option (Track × List Track × List Track)
  | [] => none
  | k :: t => if k.pkt.ty = ty then some (k, [], t) else (takeTrack ty t).map (fun r => (r.1, k :: r.2.1, r.2.2))

/-- The answer of an accepted request leaves at its fixed count. -/
def State.answerTrack (s : State) (t ty count : Nat) (linkFail : Bool) : State :=
  match takeTrack ty (s.tabko t).tracks with
  | none => s
  | some q =>
    let k := q.1
    let p := k.pkt
    if s.portTick t < k.acc + count then s
    else
      let dram := !k.costs.isEmpty
      let fail := linkFail && dram && decide (s.rd Reg.TBK_STAT.DOWN t = 0)
      let st := if s.rd Reg.TBK_STAT.DOWN t = 1 then 0x66 else if fail then 0x63 else k.status
      let s1 := s.modTabko t (fun x => { x with tracks := q.2.1 ++ q.2.2 })
      let s2 := if fail ∧ ty = 3 then
          (s1.modTabko t (fun x => { x with tracks := q.2.2 })).unknownBytes t p q.2.2 |>.modTabko t
            (fun x => { x with tracks := q.2.1 ++ x.tracks })
        else s1
      let s3 := if fail then s2.linkFailed t p.encl else s2
      let s4 := if dram then
          (s3.wr Reg.TBK_SHARE.INUSE (s3.rd Reg.TBK_SHARE.INUSE t p.encl - 1) t p.encl).report t (if ty = 3 then 3 else 0) ⟨k.corr, k.bad⟩
        else s3
      let data := if ty = 1 ∧ st = 0 then padBeats (reqAddr p) k.data else []
      if s4.muted p.encl ∧ !p.kcopy then s4
      else s4.modTabko t (fun x => { x with out := x.out ++ [respTo p (ty + 1) st p.body 0 data] })

/-- READ_ANSWER (R294): at acceptance + 112; `linkFail`: its frame failed twice (R304). -/
def execReadAnswer (tabko : TabkoId) (linkFail : Bool) (s : State) : Host.Outcome State Fault Refusal :=
  .next (s.answerTrack tabko.val 1 112 linkFail)
/-- WRITE_ACK (R294): at acceptance + 96. -/
def execWriteAck (tabko : TabkoId) (linkFail : Bool) (s : State) : Host.Outcome State Fault Refusal :=
  .next (s.answerTrack tabko.val 3 96 linkFail)

/-! ### The harrow (R299, R300) -/

/-- GRANULE_WIPE (R300): the head of the wipe order, else the lowest PENDING granule. -/
def execGranuleWipe (tabko : TabkoId) (s : State) : Host.Outcome State Fault Refusal :=
  let t := tabko.val
  let x := s.tabko t
  if !s.admitting t then .next s
  else match x.wipeOrder with
    | g :: _ => .next (s.wipeGranule t g)
    | [] => match x.pendings with
      | [] => .next s
      | g :: rest => .next (s.wipeGranule t (rest.foldl min g))

/-- The harrow reads a block: an error found is corrected, or reported (R288-R300). -/
def State.harrowRead (s : State) (t b : Nat) : State :=
  let a := s.spanBase t + b * 64
  if (s.tabko t).stale b then s
  else if s.blockErr a = 1 then { s with slowErrs := Store.erase s.slowErrs a }.symbols t 1
  else if s.blockErr a = 2 then s.badBlock t a 2
  else s

/-- PATROL_READ (R300): the patrol reads its next block. `upsets` are the symbol errors that have come into the Tabko's rows, wherever they
lie and whether or not the patrol may read: any later read meets them (R288; log entry 65). -/
def execPatrolRead (tabko : TabkoId) (upsets : List (BitVec 30 × Bool)) (s : State) : Host.Outcome State Fault Refusal :=
  let t := tabko.val
  let x := s.tabko t
  let s1 := if s.tabkoPresent t then s.upset t upsets else s
  if !s.admitting t || decide (s.rd Reg.TBK_SCRUB.EN t = 0) || !x.pendings.isEmpty || s.claimed [2, 6, 8] 2 t then .next s1
  else
    let b := x.patrol
    let last := decide (granules * 1024 ≤ b + 1)
    let s2 := (s1.modTabko t (fun y => { y with patrol := if last then 0 else b + 1 })).harrowRead t b
    .next (if last then s2.incWrap Reg.TBK_SCRUB.PASSES 1 t else s2)

/-! ### Retraining and failure (R302-R304) -/

/-- An enclosure is at rest at a step boundary: its step is closed and not released, or nothing runs in it. -/
def State.atBoundary (s : State) (n : Nat) : Bool :=
  let st := s.rd Reg.ENCL_STATE.STATE (j := n)
  (s.encl n).closed || decide (st = 0) || decide (st = 5)

/-- TABKO_RETRAIN_START (R303): the Tabko is claimed; with its enclosures at a step boundary and nothing in flight the wheel
stops at a bell, and the port admits nothing. -/
def execTabkoRetrainStart (tabko : TabkoId) (s : State) : Host.Outcome State Fault Refusal :=
  let t := tabko.val
  let x := s.tabko t
  if !s.tabkoPresent t || x.retrain.isSome || decide (s.rd Reg.TBK_STAT.DOWN t = 1) || !s.admitting t then .next s
  else
    let held := s.claimed [6, 8] 2 t
    let c := if held then (true, s) else s.tryClaim ⟨if x.retrainDue then 6 else 8, 2, t, 0, 0⟩
    if !c.1 then .next c.2
    else if (s.enclsOn t).all (fun n => s.atBoundary n) ∧ x.tracks.isEmpty ∧ x.tills.isEmpty ∧ x.work.isEmpty ∧ x.admq.isEmpty ∧
        x.reqBuf.isEmpty ∧ s.now % 1024 = 0 then
      .next (((c.2.modTabko t (fun y => { y with retrain := some s.now })).wr Reg.TBK_STAT.RECAL_BUSY 1 t).wr Reg.TBK_STAT.READY 0 t)
    else .next c.2

/-- R304: DOWN: every enclosure with a region there is faulted, and the port is reached no more (R24). -/
def State.tabkoDown (s : State) (t : Nat) : State :=
  if s.rd Reg.TBK_STAT.DOWN t = 1 ∨ !s.tabkoPresent t then s
  else
    let s1 := (((s.wr Reg.TBK_STAT.DOWN 1 t).wr Reg.TBK_STAT.READY 0 t).wr Reg.TBK_STAT.LINK_UP 0 t).rebuild
    let det := s1.copyOf Reg.TBK_STAT.INIT_BUSY t
    (s1.enclsOn t).foldl (fun u n => (u.raiseEncl n 0x66 skTabko t det).faultEncl n 0x66 u.now) (s1.raiseUnit 0x66 skTabko t det)

/-- The end of a retraining (R303): after 4,096 tk the wheel turns again and the port admits; a Tabko that does not retrain goes DOWN
(R304). -/
def State.retrainEnd (s : State) (t : Nat) (failed : Bool) : State :=
  match (s.tabko t).retrain with
  | none => s
  | some b =>
    if s.now < b + 4096 then s
    else
      let s1 := (((s.modTabko t (fun y => { y with retrain := none, retrainDue := false })).wr Reg.TBK_STAT.RECAL_BUSY 0 t).incSat
        Reg.TBK_LINK.RETRAINS 1 t).dropClaims (fun c => (decide (c.act = 6) || decide (c.act = 8)) && decide (c.kind = 2) && decide (c.index = t))
      if failed then s1.tabkoDown t
      else if s1.mpState = 0 ∧ s1.rd Reg.TBK_STAT.INIT_BUSY t = 0 ∧ s1.rd Reg.TBK_STAT.DOWN t = 0 then s1.wr Reg.TBK_STAT.READY 1 t else s1

/-- TABKO_DOWN (R304). -/
def execTabkoDown (tabko : TabkoId) (s : State) : Host.Outcome State Fault Refusal := .next (s.tabkoDown tabko.val)

/-- DRAM_HOT (R302): the case temperatures of the two packages; one above the limit sets HOT and is raised. -/
def execDramHot (tabko : TabkoId) (temp0 temp1 : BitVec 8) (s : State) : Host.Outcome State Fault Refusal :=
  let t := tabko.val
  if !s.tabkoPresent t then .next s
  else
    let s1 := (s.wr Reg.TBK_TEMP.PKG0 temp0.toNat t).wr Reg.TBK_TEMP.PKG1 temp1.toNat t
    let lim := s1.rd Reg.TBK_TEMP.LIMIT t
    let hot := decide (lim < temp0.toNat) || decide (lim < temp1.toNat)
    if hot ∧ s1.rd Reg.TBK_TEMP.HOT t = 0 then
      let s2 := s1.wr Reg.TBK_TEMP.HOT 1 t
      .next (s2.raiseUnit 0x65 skTabko t (s2.copyOf Reg.TBK_TEMP.PKG0 t))
    else .next s1

end Sys2Proof.Machine
end

