-- ==== Sys2Proof/Machine/Bellon.lean ====
section
/-! DEFINITION. Bellon ports (R354-R376): training, sequence numbers and replay, credits, forwarding, identity and beacons, the
loss of a port. -/

namespace Sys2Proof.Machine

def State.port (s : State) (p : Nat) : PortX := Store.getD s.ports p PortX.init
def State.setPort (s : State) (p : Nat) (x : PortX) : State := { s with ports := Store.put s.ports p x }
def State.modPort (s : State) (p : Nat) (f : PortX → PortX) : State := s.setPort p (f (s.port p))
/-- The floor a port belongs to. -/
def floorOf (p : Nat) : Nat := p / 8
/-- State of a port (R375): 0 DISABLED, 1 DARK, 2 LIGHT, 3 LOCK, 4 ALIGN, 5 HELLO, 6 UP. -/
def State.portState (s : State) (p : Nat) : Nat := s.rd Reg.BLN_STAT.STATE p
/-- MODULE_ID (R368). -/
def State.moduleId (s : State) : Nat := s.rd Reg.FWD_ID.MODULE_ID 0

/-! ### Credits and sequence numbers (R360, R361) -/

/-- Place of a class and lane among the totals. -/
def clIndex (cls lane : Nat) : Nat := cls * 2 + lane
/-- Units of a receive buffer (R361). -/
def bufferUnits (k : Nat) : Nat := ([64, 64, 6144, 6144, 2048, 2048, 6144, 0] : List Nat)[k]?.getD 0
/-- Units of 256 B a frame takes. -/
def Frame.units (f : Frame) : Nat := ceilDiv (16 + f.body.length + 4) 256
/-- Bytes a frame takes in a replay buffer: header, body padded to 4, CRC. -/
def Frame.bytes (f : Frame) : Nat := 16 + ceilDiv f.body.length 4 * 4 + 4
/-- A frame on the fibre (R358): header, body, padding, CRC-32C, which a stomped frame carries inverted (R360). -/
def Frame.wire (f : Frame) (seq ack : Nat) (stomped : Bool) : List Byte :=
  let n := f.body.length
  let b := leBytes 1 f.ty ++ leBytes 1 (f.cls % 4 + f.lane % 2 * 4 + f.floor % 2 * 8) ++ leBytes 2 n ++ leBytes 2 (f.dst % 2 ^ 14) ++ leBytes 2 (f.src % 2 ^ 14) ++
    leBytes 2 seq ++ leBytes 2 ack ++ leBytes 1 f.hops ++ leBytes 3 0 ++ f.body ++ List.replicate (ceilDiv n 4 * 4 - n) 0
  b ++ leBytes 4 (if stomped then 2 ^ 32 - 1 - crc32c b else crc32c b)
/-- Units held at the peer for a class and lane: what it has, less what is sent and not returned. -/
def PortX.held (x : PortX) (k : Nat) : Nat :=
  bufferUnits k - (((x.used[k]?.getD 0) + 2 ^ 32 - (x.back[k]?.getD 0)) % 2 ^ 32)
/-- BLN_CREDIT and BLN_REPLAY show the port's credits and replay buffer. -/
def State.portSync (s : State) (p : Nat) : State :=
  let x := s.port p
  ((((s.wr Reg.BLN_CREDIT.REDUCE0 (x.held 2) p).wr Reg.BLN_CREDIT.REDUCE1 (x.held 3) p).wr Reg.BLN_CREDIT.GLEAN0 (x.held 4) p).wr
    Reg.BLN_CREDIT.YOKE0 (x.held 6) p).wr Reg.BLN_REPLAY.INFLIGHT x.replay.length p
/-- A total up by `n`, modulo 2^32. -/
def addAt (l : List Nat) (k n : Nat) : List Nat := l.set k (((l[k]?.getD 0) + n) % 2 ^ 32)
/-- `a` comes before `b` among sequence numbers modulo 2^16. -/
def seqBefore (a b : Nat) : Bool := let d := (b + 2 ^ 16 - a) % 2 ^ 16; decide (0 < d) && decide (d < 2 ^ 15)

/-- An ACK covers every frame before it (R360); with its progress the sends of the others are counted anew (R371). -/
def State.ackFrames (s : State) (p ack : Nat) : State :=
  let x := s.port p
  let left := x.replay.filter (fun r => !seqBefore r.1 ack)
  if left.length = x.replay.length then s
  else (s.setPort p { x with
    replay := left.map (fun r => (r.1, 0, r.2.2)), again := x.again.filter (fun q => !seqBefore q ack), ackAt := s.now }).portSync p
/-- A bad or unexpected frame is discarded; a NAK asks for the expected one, and frames are discarded until it comes. -/
def State.badFrame (s : State) (p : Nat) : State :=
  s.modPort p (fun x => if x.discard then x else { x with nak := true, discard := true })

/-- Fields of a link header, before its body is understood. -/
def frameOf (f : LinkFrame) (ty cls : Nat) : Frame :=
  { ty := ty, cls := cls, lane := f.lane.val, floor := f.floor.val, dst := f.dst.toNat, src := f.src.toNat, hops := f.hops.toNat, body := f.body
    inLane := f.lane.val }

/-- A frame with a good CRC reaches an UP port (or one in HELLO); with the expected SEQ it is taken: what it acknowledges is freed,
its own units are returned as it leaves the buffer, at once unless it waits there (`waits`) for another port. `none`: it is not
taken. -/
def State.takeFrame (s : State) (p cls : Nat) (f : LinkFrame) (sequenced : Bool) (waits : Bool := false) : Option State :=
  if !s.portPresent p || decide (s.portState p < 5) then none
  else
    let s1 := (s.modPort p (fun x => { x with rxAt := s.now })).ackFrames p f.ack.toNat
    if !sequenced then some (s1.incWrap Reg.BLN_FRAMES.RX 1 p)
    else
      let x := s1.port p
      if f.seq.toNat ≠ x.seqRx then none
      else
        let u := (frameOf f 0 cls).units
        some ((s1.setPort p { x with
          seqRx := (x.seqRx + 1) % 2 ^ 16, discard := false, ackOwe := if x.ackOwe.isSome then x.ackOwe else some s.now
          owe := if cls = 0 ∨ waits ∨ x.owe.isSome then x.owe else some s.now
          freed := if cls = 0 ∨ waits then x.freed else addAt x.freed (clIndex cls f.lane.val) u }).incWrap Reg.BLN_FRAMES.RX 1 p)
/-- The state after a frame of another SEQ, which is received and not taken (R360, R371). -/
def State.refuseFrame (s : State) (p : Nat) : State :=
  if !s.portPresent p || decide (s.portState p < 5) then s else (s.badFrame p).modPort p (fun x => { x with rxAt := s.now })

/-! ### Routes (R362-R366) -/

/-- A frame waits at a port. -/
def State.toPort (s : State) (p : Nat) (f : Frame) : State := s.modPort p (fun x => { x with txq := x.txq ++ [f] })
/-- R363: a frame without a route or hops is discarded and reported once per 2^20 tk. -/
def State.noRoute (s : State) (fl : Nat) : State :=
  let s1 := s.incWrap Reg.FWD_STAT.NOROUTE 1 fl
  let x := Store.getD s1.floors fl FloorX.init
  let fresh : Bool := match x.noRoute with
    | some t => decide (t + 2 ^ 20 ≤ s.now)
    | none => true
  if fresh then
    { s1 with floors := Store.put s1.floors fl { x with noRoute := some s.now } }.raiseUnit 0x85 skFloor fl (s1.copyOf Reg.FWD_STAT.NOROUTE fl)
  else s1
/-- The outgoing lane (R364). -/
def laneOp (op lane : Nat) : Nat := if op = 1 then 1 else if op = 2 then 0 else lane
/-- The port the forwarding table gives a destination, with its lane operation (R364). -/
def State.egress (s : State) (fl d : Nat) : Option (Nat × Nat) :=
  let e := s.rd Reg.FWD.EGRESS fl d
  let a := s.rd Reg.FWD.ALT fl d
  if s.rd Reg.FWD.VALID fl d = 0 then none
  else if s.rd Reg.BLN_STAT.FAILED e = 0 then some (e, s.rd Reg.FWD.LOP fl d)
  else if s.rd Reg.FWD.ALT_VALID fl d = 1 ∧ s.rd Reg.BLN_STAT.FAILED a = 0 then some (a, s.rd Reg.FWD.ALT_LOP fl d)
  else none
/-- A forwarded frame leaves the buffer it waited in: its units return there (R361). -/
def State.returnUnits (s : State) (f : Frame) : State :=
  match f.buf with
  | some b => s.modPort b.port (fun x => if x.lightAt = b.lightAt then
      { x with freed := addAt x.freed b.k b.units, owe := if x.owe.isSome then x.owe else some s.now } else x)
  | none => s
/-- A frame leaves by the forwarding table of a floor. -/
def State.routeFrame (s : State) (fl : Nat) (f : Frame) : State :=
  match s.egress fl f.dst with
  | some e => s.toPort e.1 { f with lane := laneOp e.2 f.inLane, table := fl }
  | none => (s.noRoute fl).returnUnits f
/-- R366: a ring frame of this module leaves through a port of its ring while it is UP, else by its destination's entry. -/
def State.sendRing (s : State) (fl port ty cls dst : Nat) (body : List Byte) : State :=
  let f : Frame :=
    { ty := ty, cls := cls, lane := 0, floor := fl, dst := dst, src := s.moduleId, hops := s.rd Reg.FWD_ID.HOPS_INIT 0, body := body
      table := fl }
  let p := 8 * fl + port
  if s.portState p = 6 ∧ s.rd Reg.BLN_STAT.FAILED p = 0 then s.toPort p f else s.routeFrame fl f

/-- R363: a frame of another module, in the buffer of port `p`: hops, entry, lane. -/
def State.forward (s : State) (p : Nat) (f : Frame) : State :=
  let g := { f with buf := some ⟨p, clIndex f.cls f.lane, f.units, (s.port p).lightAt⟩ }
  if f.hops = 0 then (s.noRoute (floorOf p)).returnUnits g else s.routeFrame (floorOf p) { g with hops := f.hops - 1 }

/-- R400: a YOKE frame from another port than B0, or from another module than the mate, is discarded and counted. -/
def State.strayYoke (s : State) (p src : Nat) : Bool :=
  decide (p ≠ 0) || decide (s.rd Reg.YK_CFG.EN = 0) || decide (src ≠ s.rd Reg.YK_CFG.MATE_ID)
/-- A frame of a class reaches port `p`: for this module it is handed on (`some`), else it is forwarded or not taken; a YOKE frame (TYPE
3) is never forwarded (R364). -/
def State.deliver (s : State) (p ty cls : Nat) (f : LinkFrame) : Option State × State :=
  match s.takeFrame p cls f true (decide (s.portState p = 6) && decide (f.dst.toNat ≠ s.moduleId) && decide (ty ≠ 3)) with
  | none => (none, s.refuseFrame p)
  | some s1 =>
    if s1.portState p ≠ 6 then (none, s1)
    else if f.dst.toNat = s1.moduleId then (some s1, s1)
    else if ty = 3 then (none, if s1.strayYoke p f.src.toNat then s1.incSat Reg.YK_STAT.STRAY 1 else s1)
    else (none, s1.forward p (frameOf f ty cls))

/-! ### Training (R356, R357) -/

/-- A port enters LIGHT: sequence numbers and credits begin anew (log entry 18). -/
def State.enterLight (s : State) (p : Nat) : State :=
  ((s.wr Reg.BLN_STAT.STATE 2 p).setPort p { PortX.init with
    lightAt := s.now, txq := (s.port p).txq }).portSync p

/-- The enclosures whose ring at the port's floor names it (R371). -/
def State.ringUsers (s : State) (p : Nat) : List Nat :=
  let fl := floorOf p
  (List.range 16).filter (fun n => decide (s.rd Reg.FLR_RING.VALID fl n = 1) && decide (2 ≤ s.rd Reg.FLR_RING.LEN fl n) &&
    (decide (s.rd Reg.FLR_RING.NEXT fl n = p % 8) || decide (s.rd Reg.FLR_RING.PREV fl n = p % 8)))

/-- R371, R372: an UP port goes down: PORT_DOWN, FAILED, and its frames are looked up again in order, each in the table that routed it; a YOKE
frame, which only port B0
carries and none forwards (R364, R400), has no usable port. -/
def State.portLoss (s : State) (p : Nat) : State :=
  if s.portState p ≠ 6 then s
  else
    let x := s.port p
    let frames := (x.replay.map (fun r => r.2.2)).filter (fun f => decide (f.ty ≤ 3)) ++ x.txq
    let s1 := ((s.wr Reg.BLN_STAT.FAILED 1 p).setPort p { x with txq := [] }).enterLight p
    let det := s1.copyOf Reg.BLN_STAT.PRESENT p
    let s2 := (s1.ringUsers p).foldl (fun u n => u.raiseEncl n 0x81 skPort p det) (s1.raiseUnit 0x81 skPort p det)
    frames.foldl (fun u f => if f.ty = 3 then u.noRoute (floorOf p) else u.routeFrame f.table f) s2

/-- SIGNAL_DETECT (R356): LIGHT to LOCK. -/
def execSignalDetect (port : PortId) (s : State) : Host.Outcome State Fault Refusal :=
  let p := port.val
  .next (if s.portState p = 2 then (s.wr Reg.BLN_STAT.STATE 3 p).modPort p (fun x => { x with lockAt := s.now }) else s)

/-- CODEWORD_LOCK (R356): every lane has held lock for 1,024 tk: LOCK to ALIGN. -/
def execCodewordLock (port : PortId) (s : State) : Host.Outcome State Fault Refusal :=
  let p := port.val
  .next (if s.portState p = 3 ∧ (s.port p).lockAt + 1024 ≤ s.now then s.wr Reg.BLN_STAT.STATE 4 p else s)

/-- The lane map fields in order. -/
def laneMap : List Fld :=
  [Reg.BLN_LANEMAP.LANE0, Reg.BLN_LANEMAP.LANE1, Reg.BLN_LANEMAP.LANE2, Reg.BLN_LANEMAP.LANE3, Reg.BLN_LANEMAP.LANE4,
   Reg.BLN_LANEMAP.LANE5, Reg.BLN_LANEMAP.LANE6, Reg.BLN_LANEMAP.LANE7, Reg.BLN_LANEMAP.LANE8, Reg.BLN_LANEMAP.LANE9,
   Reg.BLN_LANEMAP.LANE10, Reg.BLN_LANEMAP.LANE11, Reg.BLN_LANEMAP.LANE12, Reg.BLN_LANEMAP.LANE13, Reg.BLN_LANEMAP.LANE14,
   Reg.BLN_LANEMAP.LANE15]

/-- The port enters HELLO and sends its HELLO. -/
def State.enterHello (s : State) (p : Nat) : State :=
  (s.wr Reg.BLN_STAT.STATE 5 p).modPort p (fun x => { x with hello := true, helloAt := s.now })

/-- LANE_ALIGN (R356, R357): all 16 logical lanes are found: the lane map is recorded, ALIGN to HELLO. -/
def execLaneAlign (port : PortId) (lanes : List (Fin 16)) (s : State) : Host.Outcome State Fault Refusal :=
  let p := port.val
  if s.portState p = 4 then
    .next (((laneMap.zip lanes).foldl (fun u x => u.wr x.1 x.2.val p) s).enterHello p)
  else .next s

/-- TRAINING_TIMEOUT (R356): not UP within 2^21 tk of LIGHT; a port that FWD_ID.COMMIT sent back to HELLO has been UP. -/
def execTrainingTimeout (port : PortId) (s : State) : Host.Outcome State Fault Refusal :=
  let p := port.val
  let st := s.portState p
  .next (if 2 ≤ st ∧ st ≤ 5 ∧ !(s.port p).wasUp ∧ (s.port p).lightAt + 2 ^ 21 ≤ s.now then (s.incSat Reg.BLN_STAT.TRAINS 1 p).enterLight p else s)

/-- HELLO (R357): the peer's identity is recorded; a match brings the port UP, each mismatch raises its own event. -/
def execHello (port : PortId) (f : LinkFrame) (id : BitVec 14) (install : BitVec 32) (peer : Fin 16) (version : BitVec 8) (s : State) :
    Host.Outcome State Fault Refusal :=
  let p := port.val
  match s.takeFrame p 0 f true with
  | none => .next (s.refuseFrame p)
  | some s0 =>
    let s1 := ((s0.wr Reg.BLN_STAT.PEER_ID id.toNat p).wr Reg.BLN_STAT.PEER_PORT peer.val p).wr Reg.BLN_STAT.PEER_VALID 1 p
    let det := s1.copyOf Reg.BLN_STAT.PRESENT p
    let other := decide (install.toNat ≠ s1.rd Reg.FWD_ID.INSTALL 0) || decide (version.toNat ≠ 1)
    let self_ := decide (id.toNat = s1.moduleId)
    if other || self_ then
      let s2 := if other then s1.raiseUnit 0x86 skPort p det else s1
      .next (if self_ then s2.raiseUnit 0x84 skPort p det else s2)
    else if s1.portState p = 5 then
      let s2 := (s1.wr Reg.BLN_STAT.STATE 6 p).modPort p (fun x => { x with wasUp := true, rxAt := s.now, ackAt := s.now, creditAt := s.now, beaconAt := s.now })
      .next (s2.raiseUnit 0x82 skPort p (s2.copyOf Reg.BLN_STAT.PRESENT p))
    else .next s1

/-- HELLO_RESEND (R357): every 2^16 tk in HELLO. -/
def execHelloResend (port : PortId) (s : State) : Host.Outcome State Fault Refusal :=
  let p := port.val
  .next (if s.portState p = 5 ∧ (s.port p).helloAt + 2 ^ 16 ≤ s.now then
    s.modPort p (fun x => { x with hello := true, helloAt := s.now }) else s)

/-! ### Sending (R360-R362) -/

/-- The frame goes on the fibre with a SEQ and the current ACK, which waits no longer. -/
def State.putOut (s : State) (p seq : Nat) (f : Frame) (stomped : Bool := false) : State :=
  (s.modPort p (fun x => { x with sent := some (f, seq, x.seqRx), wire := f.wire seq x.seqRx stomped, ackOwe := none })).incWrap Reg.BLN_FRAMES.TX 1 p
/-- A frame that takes the next SEQ and is kept for replay; it leaves the buffer it waited in. -/
def State.sendNew (s : State) (p : Nat) (g : Frame) : State :=
  let s := s.returnUnits g
  let f := { g with buf := none }
  let x := s.port p
  let s1 := s.putOut p x.seqTx f
  (s1.modPort p (fun y => { y with
    replay := y.replay ++ [(x.seqTx, 1, f)], seqTx := (x.seqTx + 1) % 2 ^ 16, ackAt := if x.replay.isEmpty then s.now else y.ackAt
    used := if f.cls = 0 then y.used else addAt y.used (clIndex f.cls f.lane) f.units })).portSync p
/-- A link frame of this port. -/
def State.linkFrame (s : State) (ty : Nat) (body : List Byte) : Frame :=
  { ty := ty, cls := 0, lane := 0, floor := 0, dst := 0, src := s.moduleId, hops := s.rd Reg.FWD_ID.HOPS_INIT 0, body := body }
/-- The body of a HELLO: identity, installation, port, link version 1 (order of R357; log entry 19). -/
def State.helloBody (s : State) (p : Nat) : List Byte :=
  leBytes 2 s.moduleId ++ leBytes 4 (s.rd Reg.FWD_ID.INSTALL 0) ++ leBytes 1 p ++ leBytes 1 1
/-- The body of a BEACON (R370). -/
def State.beaconBody (s : State) (p : Nat) : List Byte :=
  let up := (List.range 16).foldl (fun a q => if s.portState q = 6 then a + 2 ^ q else a) 0
  leBytes 2 s.moduleId ++ leBytes 1 p ++ leBytes 1 (s.floorState (floorOf p)) ++ leBytes 4 (s.rd Reg.FWD_ID.INSTALL 0) ++
    leBytes 2 (s.rd Reg.YK_STAT.STATE) ++ leBytes 2 up ++ List.replicate 20 0
/-- The replay buffer takes another frame (R360). -/
def PortX.roomFor (x : PortX) (f : Frame) : Bool :=
  decide (x.replay.length < 4096) && decide (((x.replay.map (fun r => r.2.2.bytes)).sum) + f.bytes ≤ 4 * 2 ^ 20)
/-- A CREDIT frame is due (R360, R361): an ACK waits for 32 tk; in UP also 64 units of a class and lane wait, 32 tk since the first of what waits,
1,024 tk. -/
def State.creditDue (s : State) (p : Nat) : Bool :=
  let x := s.port p
  let late (o : Option Nat) : Bool := match o with
    | some t => decide (t + 32 ≤ s.now)
    | none => false
  late x.ackOwe || (decide (s.portState p = 6) &&
    ((List.range 8).any (fun k => decide (64 ≤ ((x.freed[k]?.getD 0) + 2 ^ 32 - (x.told[k]?.getD 0)) % 2 ^ 32)) || late x.owe ||
      decide (x.creditAt + 1024 ≤ s.now)))
/-- The CREDIT frame: eight totals (R359); it takes no SEQ. -/
def State.sendCredit (s : State) (p : Nat) : State :=
  let x := s.port p
  (s.putOut p 0 (s.linkFrame 0x08 (x.freed.flatMap (leBytes 4)))).modPort p (fun y => { y with told := x.freed, owe := none, creditAt := s.now })

/-- The next class frame in rotating order that holds credit, with its place in the queue. -/
def PortX.pick (x : PortX) : Option (Nat × Frame) :=
  let order := (List.range 3).map (fun k => (x.rot - 1 + k) % 3 + 1)
  let firsts (c : Nat) : List (Nat × Frame) :=
    [0, 1].filterMap (fun l => (((List.range x.txq.length).zip x.txq).find? (fun q => decide (q.2.cls = c) && decide (q.2.lane = l))))
  (order.flatMap (fun c => firsts c)).find? (fun q => decide (q.2.units ≤ x.held (clIndex q.2.cls q.2.lane)) && x.roomFor q.2)

/-- FRAME_SEND (R360, R362): the next frame at a frame boundary: NAK, CREDIT, HELLO, BEACON, replay, then the classes. -/
def execFrameSend (port : PortId) (s : State) : Host.Outcome State Fault Refusal :=
  let p := port.val
  let x := s.port p
  let st := s.portState p
  if !s.portPresent p || decide (st < 5) then .next s
  else if x.nak then
    .next (((s.putOut p 0 (s.linkFrame 0x09 (leBytes 2 x.seqRx))).modPort p (fun y => { y with nak := false })).incSat Reg.BLN_REPLAY.NAKS 1 p)
  else if s.creditDue p then .next (s.sendCredit p)
  else if x.hello ∧ x.roomFor (s.linkFrame 0x0A (s.helloBody p)) then
    .next ((s.modPort p (fun y => { y with hello := false })).sendNew p (s.linkFrame 0x0A (s.helloBody p)))
  else if st = 6 ∧ x.beacon ∧ x.roomFor (s.linkFrame 0x0B (s.beaconBody p)) then
    .next ((s.modPort p (fun y => { y with beacon := false })).sendNew p (s.linkFrame 0x0B (s.beaconBody p)))
  else match x.again with
    | q :: rest =>
      match x.replay.find? (fun r => decide (r.1 = q)) with
      | some r =>
        .next ((s.putOut p q r.2.2).modPort p (fun y => { y with
          again := rest, replay := y.replay.map (fun k => if k.1 = q then (k.1, k.2.1 + 1, k.2.2) else k) }))
      | none => .next (s.modPort p (fun y => { y with again := rest }))
    | [] =>
      if st ≠ 6 ∨ s.rd Reg.BLN_STAT.FAILED p = 1 then .next s
      else match x.pick with
        | none => .next s
        | some q => .next ((s.modPort p (fun y => { y with txq := y.txq.eraseIdx q.1, rot := q.2.cls % 3 + 1 })).sendNew p q.2)

/-- CREDIT_SEND (R361). -/
def execCreditSend (port : PortId) (s : State) : Host.Outcome State Fault Refusal :=
  let p := port.val
  .next (if 5 ≤ s.portState p ∧ s.creditDue p then s.sendCredit p else s)

/-- CREDIT (R361): the peer's totals. -/
def execCredit (port : PortId) (f : LinkFrame) (s : State) : Host.Outcome State Fault Refusal :=
  let p := port.val
  match s.takeFrame p 0 f false with
  | none => .next s
  | some s1 => .next ((s1.modPort p (fun x => { x with back := (List.range 8).map (fun k => leNat ((f.body.drop (4 * k)).take 4)) })).portSync p)

/-- A replay begins from the oldest unacknowledged frame. -/
def State.replay (s : State) (p : Nat) : State :=
  (s.modPort p (fun x => { x with again := x.replay.map Prod.fst, ackAt := s.now })).incSat Reg.BLN_REPLAY.REPLAYS 1 p

/-- NAK (R360): the peer names the SEQ it expects; what is before it is acknowledged, the rest is sent again. -/
def execNak (port : PortId) (f : LinkFrame) (s : State) : Host.Outcome State Fault Refusal :=
  let p := port.val
  match s.takeFrame p 0 f false with
  | none => .next s
  | some s1 => .next ((s1.ackFrames p (leNat (f.body.take 2))).replay p)

/-- REPLAY_TIMEOUT (R360): 256 tk without ACK progress. -/
def execReplayTimeout (port : PortId) (s : State) : Host.Outcome State Fault Refusal :=
  let p := port.val
  let x := s.port p
  .next (if 5 ≤ s.portState p ∧ !x.replay.isEmpty ∧ x.ackAt + 256 ≤ s.now then s.replay p else s)

/-- BAD_FRAME (R360): a bad CRC or an unexpected SEQ; a stomped frame is only counted. -/
def execBadFrame (port : PortId) (stomped : Bool) (s : State) : Host.Outcome State Fault Refusal :=
  let p := port.val
  if !s.portPresent p || decide (s.portState p < 5) then .next s
  else if stomped then .next (s.incSat Reg.FWD_STAT.STOMPED 1 (floorOf p))
  else .next (s.badFrame p)

/-- FRAME_FORWARD (R363, R364): a frame for another module; one that fails its CRC while it cuts through goes on inverted, to be
discarded by the next receiver, and is asked for again here. It takes no SEQ, which that receiver still expects (DESIGN CHOICE, log entry 18). -/
def execFrameForward (port : PortId) (f : LinkFrame) (gleaner badCrc : Bool) (s : State) : Host.Outcome State Fault Refusal :=
  let p := port.val
  let ty := if gleaner then 2 else 1
  if s.portState p ≠ 6 ∨ f.dst.toNat = s.moduleId then .next s
  else if badCrc then
    let s1 := s.badFrame p
    match s1.egress (floorOf p) f.dst.toNat with
    | some e =>
      let g := frameOf f ty ty
      .next (if f.hops = 0 then s1 else s1.putOut e.1 (s1.port e.1).seqTx { g with hops := g.hops - 1, lane := laneOp e.2 g.inLane } true)
    | none => .next s1
  else match s.takeFrame p ty f true true with
    | none => .next (s.refuseFrame p)
    | some s1 => .next (s1.forward p (frameOf f ty ty))

/-! ### Beacons, identity, tables (R368-R370) -/

/-- BEACON (R370): the last beacon is kept. -/
def execBeacon (port : PortId) (f : LinkFrame) (s : State) : Host.Outcome State Fault Refusal :=
  let p := port.val
  match s.takeFrame p 0 f true with
  | none => .next (s.refuseFrame p)
  | some s1 =>
    let w (k : Nat) : Nat := leNat ((f.body.drop (8 * k)).take 8)
    .next ((((s1.wr Reg.BLN_PEER.WORD0 (w 0) p).wr Reg.BLN_PEER.WORD1 (w 1) p).wr Reg.BLN_PEER.WORD2 (w 2) p).wr Reg.BLN_PEER.WORD3 (w 3) p)

/-- BEACON_SEND (R370): every 2^20 tk. -/
def execBeaconSend (port : PortId) (s : State) : Host.Outcome State Fault Refusal :=
  let p := port.val
  .next (if s.portState p = 6 ∧ (s.port p).beaconAt + 2 ^ 20 ≤ s.now then
    s.modPort p (fun x => { x with beacon := true, beaconAt := s.now }) else s)

/-- FWD_ID_COMMIT (R368): one identity serves both floors; the East floor's registers take no write. -/
def execFwdIdCommit (floor : FloorId) (s : State) : Host.Outcome State Fault Refusal :=
  if floor.val = 1 then .next s
  else
    let fs := [Reg.FWD_ID.MODULE_ID, Reg.FWD_ID.INSTALL, Reg.FWD_ID.HOPS_INIT]
    let ringed := (List.range 16).any (fun n => decide (s.rd Reg.ENCL_STATE.STATE (j := n) = 2) &&
      [0, 1].any (fun f => decide (s.rd Reg.FLR_RING.LEN f n ≠ 0)))
    if !s.anyStaged fs 0 then .next s
    else if ringed ∨ s.stg Reg.FWD_ID.HOPS_INIT 0 = 0 then
      .next ((s.dropAll fs 0).mismatch (Reg.FWD_ID.COMMIT.addr 0 0) skFloor 0)
    else
      .next ((List.range 16).foldl (fun u p => if u.portState p = 6 then u.enterHello p else u) (s.applyAll fs 0))

/-- Every forwarding field. -/
def fwdFields : List Fld :=
  [Reg.FWD.EGRESS, Reg.FWD.VALID, Reg.FWD.LOCAL, Reg.FWD.LOP, Reg.FWD.ALT, Reg.FWD.ALT_VALID, Reg.FWD.ALT_LOP]

/-- R369: the staged entry of an identity agrees. -/
def State.fwdOk (s : State) (fl d : Nat) : Bool :=
  let v (f : Fld) : Nat := s.stg f fl d
  (if d = s.moduleId then decide (v Reg.FWD.LOCAL = 1) && decide (v Reg.FWD.VALID = 0) else decide (v Reg.FWD.LOCAL = 0)) &&
  (decide (v Reg.FWD.VALID = 0) || s.portPresent (v Reg.FWD.EGRESS)) &&
  (decide (v Reg.FWD.ALT_VALID = 0) || s.portPresent (v Reg.FWD.ALT)) &&
  decide (v Reg.FWD.LOP ≠ 3) && decide (v Reg.FWD.ALT_LOP ≠ 3)

/-- FWD_CTL_COMMIT (R369). -/
def execFwdCtlCommit (floor : FloorId) (s : State) : Host.Outcome State Fault Refusal :=
  let fl := floor.val
  let ids := List.range 16384
  if !ids.any (fun d => s.anyStaged fwdFields fl d) then .next s
  else if ids.all (fun d => s.fwdOk fl d) then
    let s1 := ids.foldl (fun u d => u.applyAll fwdFields fl d) s
    let s2 := (List.range 16).foldl (fun u p => if u.portState p = 6 then u.wr Reg.BLN_STAT.FAILED 0 p else u) s1
    .next (s2.incWrap Reg.FWD_CTL.GEN 1 fl)
  else .next ((ids.foldl (fun u d => u.dropAll fwdFields fl d) s).mismatch (Reg.FWD_CTL.COMMIT.addr fl 0) skFloor fl)

end Sys2Proof.Machine
end

