-- ==== Sys2Proof/Machine/Season.lean ====
section
/-! DEFINITION. The season engine (R320, R321): the learning rate of a set at a step, in exact arithmetic with one rounding. A
value that is not rational is enclosed between rationals until both ends round alike. -/

namespace Sys2Proof.Machine

/-- An exact rational, its denominator positive. -/
structure Rat' where
  n : Int
  d : Nat
  deriving DecidableEq, Repr

def Rat'.ofNat (a : Nat) : Rat' := ⟨a, 1⟩
def Rat'.add (a b : Rat') : Rat' := ⟨a.n * b.d + b.n * a.d, a.d * b.d⟩
def Rat'.sub (a b : Rat') : Rat' := ⟨a.n * b.d - b.n * a.d, a.d * b.d⟩
def Rat'.mul (a b : Rat') : Rat' := ⟨a.n * b.n, a.d * b.d⟩
def Rat'.half (a : Rat') : Rat' := ⟨a.n, a.d * 2⟩
def Rat'.lt (a b : Rat') : Bool := decide (a.n * b.d < b.n * a.d)
def Rat'.max (a b : Rat') : Rat' := if a.lt b then b else a
def Rat'.pow (a : Rat') (k : Nat) : Rat' := ⟨a.n ^ k, a.d ^ k⟩
/-- The exact value of a finite FP32 code. -/
def Rat'.ofCode (c : BitVec 32) : Rat' :=
  match fp32.decode c.toNat with
  | .fin neg m e => if 0 ≤ e then ⟨signed neg (m * 2 ^ e.toNat), 1⟩ else ⟨signed neg m, 2 ^ (-e).toNat⟩
  | _ => ⟨0, 1⟩

/-- A rational as a dyadic number with at least 200 bits, its last bit sticky: it rounds to FP32 as the rational does. -/
def Rat'.dyadic (a : Rat') : FVal :=
  let k := 200 + ilog2 a.d
  let x := a.n.natAbs * 2 ^ k
  .fin (decide (a.n < 0)) (2 * (x / a.d) + b2n (decide (x % a.d ≠ 0))) (-((k + 1 : Nat) : Int))
/-- rne32 (R321). -/
def Rat'.rne32 (a : Rat') : Nat := if a.n = 0 then 0 else fp32.round a.dyadic

/-! ### cos (R321) -/

/-- Σ (-1)^i / ((2i+1) x^(2i+1)), in units of 2^-w: arctan(1/x). -/
def atanSum (x : Nat) : Nat → Nat → Nat → Int → Int
  | 0, _, _, acc => acc
  | fuel + 1, i, pw, acc =>
    let t : Int := ((pw / (2 * i + 1) : Nat) : Int)
    atanSum x fuel (i + 1) (pw / (x * x)) (if i % 2 = 0 then acc + t else acc - t)
/-- π in units of 2^-w, within w + 64 units (Machin). -/
def piFix (w : Nat) : Int := 16 * atanSum 5 (w / 4) 0 (2 ^ w / 5) 0 - 4 * atanSum 239 (w / 8) 0 (2 ^ w / 239) 0
/-- Σ (-1)^i y^(2i) / (2i)!, in units of 2^-w. -/
def cosSum (w : Nat) (y2 : Nat) : Nat → Nat → Nat → Int → Int
  | 0, _, _, acc => acc
  | fuel + 1, i, t, acc =>
    cosSum w y2 fuel (i + 1) (t * y2 / 2 ^ w / ((2 * i + 1) * (2 * i + 2))) (if i % 2 = 0 then acc + (t : Int) else acc - (t : Int))
/-- cos(π·n/d) for 0 ≤ n ≤ d between two rationals 2^(33 - w) apart. -/
def cosBounds (w n d : Nat) : Rat' × Rat' :=
  let y := (piFix w).toNat * n / d
  let c := cosSum w (y * y / 2 ^ w) (w / 2 + 16) 0 (2 ^ w) 0
  (⟨c - 2 ^ 32, 2 ^ w⟩, ⟨c + 2 ^ 32, 2 ^ w⟩)
/-- The arguments at which cos(π·x) is rational. -/
def cosExact (n d : Nat) : Option Rat' :=
  if n = 0 then some ⟨1, 1⟩ else if n = d then some ⟨-1, 1⟩ else if 2 * n = d then some ⟨0, 1⟩
  else if 3 * n = d then some ⟨1, 2⟩ else if 3 * n = 2 * d then some ⟨-1, 2⟩ else none
/-- rne32 of a + b·cos(π·n/d): the precision doubles until both bounds round alike. -/
def cosRound (a b : Rat') (n d : Nat) : Nat → Nat → Nat
  | 0, w => (a.add (b.mul (cosBounds w n d).1)).rne32
  | fuel + 1, w =>
    let c := cosBounds w n d
    let lo := (a.add (b.mul c.1)).rne32
    if lo = (a.add (b.mul c.2)).rne32 then lo else cosRound a b n d fuel (2 * w)
/-- rne32 of a + b·cos(π·n/d). -/
def affCos (a b : Rat') (n d : Nat) : Nat :=
  if b.n = 0 then a.rne32
  else match cosExact n d with
    | some c => (a.add (b.mul c)).rne32
    | none => cosRound a b n d 8 192

/-! ### η (R320) -/

/-- Periods of a restart: index, position in it, length. -/
def seasonPeriod (mult : Nat) : Nat → Nat → Nat → Nat → Nat × Nat × Nat
  | 0, u, k, len => (k, u, len)
  | fuel + 1, u, k, len => if len ≤ u then seasonPeriod mult fuel (u - len) (k + 1) (len * mult) else (k, u, len)

/-- rne32 of the larger of `mn` and pk·sqrt(p/q). -/
def maxRoot (mn pk : Rat') (p q : Nat) : Nat :=
  -- pk·sqrt(p/q) = ±sqrt(v)
  let v : Rat' := ⟨pk.n * pk.n * p, pk.d * pk.d * q⟩
  let k := 260 + ilog2 v.d
  let x := v.n.natAbs * 2 ^ (2 * k) / v.d
  let r := isqrtBits (ilog2 x / 2 + 1) x 0
  let exact := decide (r * r = x) && decide (v.n.natAbs * 2 ^ (2 * k) % v.d = 0)
  let root : Rat' := ⟨signed (decide (pk.n < 0)) (2 * r + b2n (!exact)), 2 ^ (k + 1)⟩
  (mn.max root).rne32

/-- Every FP32 field of the set is finite. -/
def UpdSet.finite (h : UpdSet) : Bool :=
  [h.etaStart, h.etaPeak, h.etaMin, h.gamma, h.gain, h.b1, h.omb1, h.b2, h.omb2, h.lambda, h.gscale].all
    (fun c => !(fp32.decode c.toNat).nonFinite)

/-- R320: η of a set at step `n`, its FP32 code. -/
def UpdSet.eta (h : UpdSet) (base n : Nat) : Nat :=
  if !h.finite then fp32.nanCode
  else if n < base then 0
  else
    let peak := Rat'.ofCode h.etaPeak
    let start := Rat'.ofCode h.etaStart
    let mn := Rat'.ofCode h.etaMin
    let t := n - base
    if t < h.warmLen then
      let dif := peak.sub start
      if h.warm = 0 then peak.rne32
      else if h.warm = 1 then (start.add (dif.mul ⟨t, h.warmLen⟩)).rne32
      else affCos (start.add dif.half) ((Rat'.ofNat 0).sub dif.half) t h.warmLen
    else
      let u0 := t - h.warmLen
      let mult := if h.mult = 0 then 1 else h.mult
      let per : Nat × Nat × Nat :=
        if h.restart ∧ 0 < h.decayLen then
          (if mult = 1 then (u0 / h.decayLen, u0 % h.decayLen, h.decayLen) else seasonPeriod mult 64 u0 0 h.decayLen)
        else (0, u0, h.decayLen)
      let u := per.2.1
      let len := per.2.2
      let pk := peak.mul ((Rat'.ofCode h.gain).pow per.1)
      let x : Rat' := if len = 0 ∨ len ≤ u then ⟨1, 1⟩ else ⟨u, len⟩
      if h.decay = 0 then pk.rne32
      else if h.decay = 1 then (pk.add ((mn.sub pk).mul x)).rne32
      else if h.decay = 2 then
        let dif := pk.sub mn
        affCos (mn.add dif.half) dif.half x.n.toNat x.d
      else if h.decay = 3 then
        (if h.stepLen = 0 then pk else mn.max (pk.mul ((Rat'.ofCode h.gamma).pow (u / h.stepLen)))).rne32
      else if h.invT0 = 0 then mn.rne32
      else maxRoot mn pk h.invT0 (h.invT0 + u)

end Sys2Proof.Machine
end

