-- ==== Sys2Proof/Machine/Update.lean ====
section
/-! DEFINITION. The parameter update (R307-R323): the gradient, the sign rule, the write-back of the compute copy, and what a
Tabko does as a step closes. -/

namespace Sys2Proof.Machine

/-! ### One element (R313-R316) -/

def mulF (a b : Nat) : Nat := fp32.round (FVal.mul (fp32.decode a) (fp32.decode b))
/-- a·b + c with one rounding (R104). -/
def fmaF (a b c : Nat) : Nat := fp32.round (FVal.add (FVal.mul (fp32.decode a) (fp32.decode b)) (fp32.decode c))
/-- −(a·b) + c with one rounding (R104). -/
def fnmaF (a b c : Nat) : Nat := fp32.round (FVal.add (FVal.mul (fp32.decode a) (fp32.decode b)).neg (fp32.decode c))

/-- R313: g of an element from its reduced value; `scale` is the agreed scale of an exact sheaf. -/
def gradOf (exact : Bool) (scale : Int) (gscale raw : Nat) : Nat :=
  if exact then
    let a := fp32.round (FVal.ofInt (sint 32 raw))
    mulF (fp32.round ((fp32.decode a).scale scale)) gscale
  else mulF raw gscale

/-- R314: the sign rule: w' (FP32) and m' (BF16) of an element. -/
def signRule (h : UpdSet) (eta g w m : Nat) : Nat × Nat :=
  let mf := fp32.round (bf16.decode m)
  let t1 := mulF h.omb1.toNat g
  let c := fmaF h.b1.toNat mf t1
  let s := floatSign fp32 c
  let u := fmaF h.lambda.toNat w s
  let w2 := fnmaF eta u w
  let t2 := mulF h.omb2.toNat g
  let m2 := fmaF h.b2.toNat mf t2
  (w2, (bf16.convert .rne false (fp32.decode m2)).code)

/-- R316: an element of the compute copy: nearest even, saturating. -/
def copyCode (cfmt w : Nat) : Nat := ((codeFmt cfmt).convert .rne true (fp32.decode w)).code
/-- Bytes of an element of the compute copy. -/
def copyBytes (cfmt : Nat) : Nat := codeWidth cfmt / 8

/-! ### The tillers' accesses (R312) -/

/-- Accesses of one range, unit by unit (R291, R312). -/
def State.tillPieces (s : State) (t n job : Nat) (write : Bool) (a len : Nat) (data : List Byte) : List TillAcc :=
  let l := a - s.spanBase t
  (unitPieces l len).map (fun p => ⟨n, write, p.1, p.2, slice data (p.1 - l) p.2, job, slotCosts write p.1 p.2, none⟩)
/-- The reads of an entry: its G, w and m. -/
def State.tillReads (s : State) (t job : Nat) (e : UpdEntry) : List TillAcc :=
  s.tillPieces t e.encl job false e.g (4 * e.count) [] ++ s.tillPieces t e.encl job false e.w (4 * e.count) [] ++
    s.tillPieces t e.encl job false e.m (2 * e.count) []
/-- Its writes: w and m. -/
def State.tillWrites (s : State) (t job : Nat) (e : UpdEntry) (w m : List Byte) : List TillAcc :=
  s.tillPieces t e.encl job true e.w (4 * e.count) w ++ s.tillPieces t e.encl job true e.m (2 * e.count) m
/-- Bytes of a range that the reads of an entry gave. -/
def State.tillGot (s : State) (t : Nat) (w : TillWork) (a n : Nat) : List Byte :=
  (unitPieces (a - s.spanBase t) n).flatMap (fun p => ((w.got.find? (fun g => decide (g.1 = p.1) && decide (g.2.length = p.2))).map Prod.snd).getD [])

/-- Element `j` of a byte string of `w`-byte elements. -/
def elemAt (bs : List Byte) (w j : Nat) : Nat := leNat (slice bs (w * j) w)

/-! ### Write-back (R316, R317) -/

/-- The whole beats that hold a run of elements in its share: first byte and length. -/
def runSpan (cb : Nat) (r : UpdRun) : Nat × Nat :=
  let lo := r.off / 32 * 32
  (lo, ceilDiv (r.off + r.count * cb) 32 * 32 - lo)
/-- Packets of a run. -/
def runPackets (cb : Nat) (r : UpdRun) : Nat := ceilDiv (runSpan cb r).2 256
/-- Packets the write-back of an entry sends to a core. -/
def UpdEntry.packetsTo (e : UpdEntry) (core : Nat) : Nat :=
  ((e.runs.filter (fun r => decide (r.core = core))).map (runPackets (copyBytes e.cfmt))).sum

/-- The packets of an entry's write-back, in ascending element order; `ws` are its w. Bytes of a beat that the run does not cover are not
written (log entry 17). -/
def State.writeBack (s : State) (t : Nat) (e : UpdEntry) (ws : List Nat) : List Packet :=
  let cb := copyBytes e.cfmt
  e.runs.flatMap (fun r =>
    let sp := runSpan cb r
    let pre := r.off - sp.1
    let codes := (List.range r.count).flatMap (fun k => leBytes cb (copyCode e.cfmt (ws[r.first + k]?.getD 0)))
    let bytes := List.replicate pre 0 ++ codes ++ List.replicate (sp.2 - pre - codes.length) (0 : Byte)
    let epoch := (((s.tabko t).wbCred.find? (fun c => decide (c.encl = e.encl) && decide (c.core = r.core))).map WbCredit.epoch).getD 0
    (List.range (ceilDiv sp.2 256)).map (fun k =>
      { ty := 5, vc := 0, dkind := 0, dst := r.core, skind := 1, src := t, encl := e.encl, tag := k % 256, tick := 0, status := 0
        kcopy := false, body := (sp.1 + 256 * k) % 2 ^ 18 + 7 * 2 ^ 18 + epoch * 2 ^ 24, via := 0, tree := []
        data := slice bytes (256 * k) 256, poison := []
        keep := (List.range (min 256 (sp.2 - 256 * k))).filter (fun j => decide (256 * k + j < pre) || decide (pre + codes.length ≤ 256 * k + j)) : Packet }))

/-- Each packet takes one unit of its core's entry (R132, R317). -/
def spendUnits (l : List WbCredit) (n : Nat) (ps : List Packet) : List WbCredit :=
  l.map (fun c => if c.encl = n then
    { c with units := c.units - (ps.filter (fun p => decide (p.dst = c.core))).length } else c)

/-! ### Entries (R312, R315) -/

/-- The tillers take up one entry: its reads go to the port's admission (R312). -/
def State.takeEntry (s : State) (t : Nat) (e : UpdEntry) (scale : Int) : State :=
  let id := (s.tabko t).workId
  let rs := s.tillReads t id e
  s.modTabko t (fun x => { x with tills := x.tills ++ rs, work := x.work ++ [⟨id, e, scale, rs.length, []⟩], workId := id + 1 })
/-- What an entry's elements become: skipped, w, m (R313-R315). -/
def UpdEntry.results (e : UpdEntry) (h : UpdSet) (scale : Int) (eta : Nat) (g w m : List Byte) : List (Bool × Nat × Nat) :=
  (List.range e.count).map (fun j =>
    let gj := gradOf e.exact scale h.gscale.toNat (elemAt g 4 j)
    let wj := elemAt w 4 j
    let mj := elemAt m 2 j
    if (fp32.decode gj).nonFinite then (true, wj, mj) else (false, signRule h eta gj wj mj))
/-- Skipped elements are counted, and raised once for a step (R315). -/
def State.skipElems (s : State) (t n k : Nat) : State :=
  if k = 0 then s
  else
    let u := s.incWrap Reg.UPD_CNT.NONFIN k t n
    if (u.tabko t).nonfin.contains n then u
    else (u.modTabko t (fun x => { x with nonfin := n :: x.nonfin })).raiseEncl n 0x68 skTabko t (u.copyOf Reg.UPD_CNT.NONFIN t n)
/-- The tillers apply an entry whose reads have all been accepted: its writes go to the port's admission, its copy to the mesh. -/
def State.applyEntry (s : State) (t : Nat) (k : TillWork) : State :=
  let e := k.entry
  match Store.get (s.tabko t).sets (e.encl * 8 + e.set) with
  | none => s
  | some h =>
    let got (a n : Nat) : List Byte := s.tillGot t k a n
    let outs := e.results h k.scale (s.rd Reg.UPD_ETA.ETA t (e.encl * 8 + e.set)) (got e.g (4 * e.count)) (got e.w (4 * e.count)) (got e.m (2 * e.count))
    let s2 := s.skipElems t e.encl (outs.filter (fun o => o.1)).length
    let ps := s2.writeBack t e (outs.map (fun o => o.2.1))
    let accs := s.tillWrites t k.id e (outs.flatMap (fun o => leBytes 4 o.2.1)) (outs.flatMap (fun o => leBytes 2 o.2.2))
    s2.modTabko t (fun x => { x with
      tills := x.tills ++ accs, out := x.out ++ ps, wbOut := Store.put x.wbOut e.encl (Store.getD x.wbOut e.encl 0 + ps.length)
      wbCred := spendUnits x.wbCred e.encl ps })
/-- Every entry whose reads have all been accepted is applied. -/
def State.applyReady (s : State) (t : Nat) : State :=
  let go := (s.tabko t).work.filter (fun k => decide (k.left = 0))
  if go.isEmpty then s
  else go.foldl (fun u k => u.applyEntry t k) (s.modTabko t (fun x => { x with work := x.work.filter (fun k => decide (k.left ≠ 0)) }))

/-- PORT_ADMISSION (R293, R295, R312): requests of the mesh, then those of the tillers; what the last read of an entry completes is applied. -/
def execPortAdmission (tabko : TabkoId) (s : State) : Host.Outcome State Fault Refusal :=
  .next (if s.admitting tabko.val then (s.portAdmit tabko.val).applyReady tabko.val else s)

/-- LANDING_NOTICE (R312-R317): a landed sheaf of a closed step is taken up: its entries at this Tabko are read, applied and written
back. -/
def execLandingNotice (tabko : TabkoId) (s : State) : Host.Outcome State Fault Refusal :=
  let t := tabko.val
  let x := s.tabko t
  match x.landed.find? (fun l => (s.encl l.1).closed && decide (s.rd Reg.UPD_STAT.BUSY t l.1 = 1)) with
  | none => .next s
  | some l =>
    if !s.admitting t || decide (s.rd Reg.TBK_STAT.DOWN t = 1) then .next s
    else
      let mine (e : UpdEntry) : Bool := decide (e.encl = l.1) && decide (e.sheaf = l.2.1)
      let s1 := s.setTabko t { x with
        landed := x.landed.filter (fun k => decide (k ≠ l)), entries := x.entries.map (fun e => if mine e then { e with done := true } else e) }
      .next ((x.entries.filter (fun e => mine e && !e.done)).foldl (fun u e => u.takeEntry t e l.2.2) s1)

/-! ### The step at a Tabko (R317, R318, R320) -/

/-- Tabkos that hold an entry of an enclosure. -/
def State.updTabkos (s : State) (n : Nat) : List Nat :=
  (List.range 48).filter (fun t => (s.tabko t).entries.any (fun e => decide (e.encl = n)))

/-- The close of a step at a Tabko: η of every set, entries of no elements are done, write-back credits loaded. -/
def State.openUpdate (s : State) (t n : Nat) : State :=
  let step := s.rd Reg.ENCL_STATE.STEP (j := n)
  let x := s.tabko t
  let base := Store.getD x.base n 0
  let s1 := (List.range 8).foldl (fun u k => match Store.get x.sets (n * 8 + k) with
    | some h => (u.wr Reg.UPD_ETA.ETA (h.eta base step) t (n * 8 + k)).wr Reg.UPD_ETA.VALID 1 t (n * 8 + k)
    | none => u) s
  let mine := x.entries.filter (fun e => decide (e.encl = n))
  let cores := (mine.flatMap (fun e => e.runs.map UpdRun.core)).eraseDups
  let cred := cores.map (fun c => (⟨n, c, (mine.map (fun e => e.packetsTo c)).sum, s.rd Reg.GATE_EPOCH.EPOCH c 7⟩ : WbCredit))
  let s2 := s1.modTabko t (fun y => { y with
    entries := y.entries.map (fun e => if e.encl = n then { e with done := decide (e.count = 0) } else e)
    wbCred := y.wbCred.filter (fun c => decide (c.encl ≠ n)) ++ cred
    nonfin := y.nonfin.filter (fun k => decide (k ≠ n)), wbRefused := y.wbRefused.filter (fun k => decide (k ≠ n)) })
  ((s2.wr Reg.UPD_STAT.BUSY 1 t n).wr Reg.UPD_STAT.DONE 0 t n).wr Reg.UPD_STAT.STEP step t n

/-- UPDATE_DONE (R318): every entry applied, every write and write-back packet acknowledged. -/
def execUpdateDone (tabko : TabkoId) (encl : EnclId) (s : State) : Host.Outcome State Fault Refusal :=
  let t := tabko.val
  let n := encl.val
  let x := s.tabko t
  let mine := x.entries.filter (fun e => decide (e.encl = n))
  if s.rd Reg.UPD_STAT.BUSY t n = 1 ∧ mine.all (fun e => e.done) ∧ x.work.all (fun k => decide (k.entry.encl ≠ n)) ∧
      x.tills.all (fun k => decide (k.encl ≠ n) || k.over (s.portTick t)) ∧ Store.getD x.wbOut n 0 = 0 then
    .next (((s.wr Reg.UPD_STAT.BUSY 0 t n).wr Reg.UPD_STAT.DONE 1 t n).wr Reg.UPD_ELEMS.ELEMS ((mine.map UpdEntry.count).sum) t n)
  else .next s

end Sys2Proof.Machine
end

