-- ==== Sys2Proof/Machine/Floor.lean ====
section
/-! DEFINITION. The threshing floors (R324-R348): folds, ring frames, reduce and distribute passes, scale misses, landing
notices, the gleaner. -/

namespace Sys2Proof.Machine

def State.floor (s : State) (f : Nat) : FloorX := Store.getD s.floors f FloorX.init
def State.setFloor (s : State) (f : Nat) (x : FloorX) : State := { s with floors := Store.put s.floors f x }
def State.modFloor (s : State) (f : Nat) (g : FloorX → FloorX) : State := s.setFloor f (g (s.floor f))

/-! ### The ring frame (R336) -/

/-- Bytes of one value of a payload (R336, R346). -/
def valBytes (kind pass : Nat) : Nat := if 2 ≤ pass then (if kind = 0 then 40 else 8) else if kind = 2 then 8 else 4
/-- The body of a frame: 32 B of header, then the payload (R336). -/
def SheafFrame.bytes (f : SheafFrame) : List Byte :=
  let w := valBytes f.kind f.pass
  leBytes 4 f.job ++ leBytes 4 f.step ++ leBytes 2 f.sheaf ++ leBytes 2 f.tile ++
  leBytes 1 (f.kind + f.pass * 4 + b2n f.miss * 16 + b2n f.nf * 32 + b2n f.csat * 64 + b2n f.glean * 128) ++ leBytes 1 f.round ++
  leBytes 2 (wrapInt 9 f.scale + f.gk % 32 * 2 ^ 9) ++ leBytes 1 f.missBits ++ leBytes 1 0 ++ leBytes 2 f.origin ++ leBytes 2 f.sender ++
  leBytes 2 0 ++ leBytes 4 (f.vals.length * w) ++ leBytes 4 0 ++ f.vals.flatMap (fun v => leBytes w (wrapInt (8 * w) v))
/-- The frame a body holds. -/
def SheafFrame.ofBytes (b : List Byte) : SheafFrame :=
  let n (o k : Nat) : Nat := leNat (slice b o k)
  let c := n 12 1
  let kind := c % 4
  let pass := c / 4 % 4
  let w := valBytes kind pass
  let sgn := decide (2 ≤ pass) || decide (kind = 1)
  { job := n 0 4, step := n 4 4, sheaf := n 8 2, tile := n 10 2, kind := kind, pass := pass, miss := decide (bits c 4 1 = 1)
    nf := decide (bits c 5 1 = 1), csat := decide (bits c 6 1 = 1), glean := decide (bits c 7 1 = 1), round := n 13 1 % 16
    scale := sint 9 (n 14 2), gk := bits (n 14 2) 9 5, missBits := n 16 1, origin := n 18 2 % 2 ^ 14, sender := n 20 2 % 2 ^ 14
    vals := (List.range (n 24 4 / w)).map (fun k => let v := leNat (slice b (32 + w * k) w)
      if sgn then sint (8 * w) v else (v : Int)) }

/-! ### Sheaves and tiles -/

/-- A sheaf of the enclosure's table. -/
def State.sheafOf (s : State) (n num : Nat) : Option Sheaf := (s.encl n).sheaves.find? (fun h => decide (h.num = num))
/-- The FLR_SCALE entry of an exact sheaf. -/
def State.scaleEntry (s : State) (fl n num : Nat) : Option Nat :=
  (List.range 64).find? (fun j => decide (s.rd Reg.FLR_SCALE.VALID fl (n * 64 + j) = 1) &&
    decide (s.rd Reg.FLR_SCALE.SHEAF fl (n * 64 + j) = num))
/-- Round and scale in force of a sheaf. -/
def State.roundOf (s : State) (fl n num : Nat) : Nat :=
  ((s.scaleEntry fl n num).map (fun j => s.rd Reg.FLR_SCALE.ROUND fl (n * 64 + j))).getD 0
def State.scaleOf (s : State) (fl n num : Nat) : Int :=
  ((s.scaleEntry fl n num).map (fun j => sint 9 (s.rd Reg.FLR_SCALE.S fl (n * 64 + j)))).getD 0

/-- A tile with nothing taken in. -/
def TileX.new (n sheaf tile round kind : Nat) : TileX :=
  { encl := n, sheaf := sheaf, tile := tile, round := round, kind := kind, got := [0, 0, 0, 0], sums := [], ints := [], ovf := 0, nf := false
    csat := false, loc := none, locOvf := 0, inc := none, sent := false, fin := none, acks := 0, glean := false, gk := 0, gIn := none
    gSum := none, gDone := false, gMiss := false }
def TileX.is (t : TileX) (n sheaf tile : Nat) : Bool := decide (t.encl = n) && decide (t.sheaf = sheaf) && decide (t.tile = tile)
/-- The tile as the floor holds it, or a new one in the round in force. -/
def State.tileOf (s : State) (fl n sheaf tile kind : Nat) : TileX :=
  ((s.floor fl).tiles.find? (fun t => t.is n sheaf tile)).getD (TileX.new n sheaf tile (s.roundOf fl n sheaf) kind)
/-- The tile holds a fold entry (R335). -/
def TileX.folding (t : TileX) : Bool := decide (0 < t.got.sum) && !t.sent
/-- The edge router of a row beside a floor. -/
def edgeCore (fl row : Nat) : Nat := coreAt row (if fl = 0 then 0 else 319)
/-- REQ credit of a floor entry goes back over its crossing (R174). -/
def State.floorCredit (s : State) (e vc flits : Nat) : State :=
  { s with credits := s.credits ++ [⟨qKey e 5 vc, flits, s.estTick (croftOf e) + 2⟩] }
/-- R335: all fold entries are taken from now on, or no longer: the ticks are counted, and the REQ credit held back goes. -/
def State.foldFull (s : State) (fl : Nat) (full : Bool) : State :=
  let x := s.floor fl
  match x.full, full with
  | none, true => s.setFloor fl { x with full := some s.now }
  | some t, false => x.owed.foldl (fun u o => u.floorCredit o.1 0 o.2) ((s.setFloor fl { x with full := none, owed := [] }).incWrap Reg.FLR_STAT.FOLD_WAIT (s.now - t) fl)
  | _, _ => s
/-- FLR_STAT follows the fold entries (R335, R353). -/
def State.foldSync (s : State) (fl : Nat) : State :=
  let n := ((s.floor fl).tiles.filter TileX.folding).length
  ((s.wr Reg.FLR_STAT.FOLD_USED n fl).wr Reg.FLR_STAT.FOLD_PEAK (max (s.rd Reg.FLR_STAT.FOLD_PEAK fl) n) fl).foldFull fl (decide (8192 ≤ n))
def State.setTile (s : State) (fl : Nat) (t : TileX) : State :=
  s.modFloor fl (fun x => { x with tiles := x.tiles.filter (fun u => !u.is t.encl t.sheaf t.tile) ++ [t] })

/-- Raise once: the key has not been raised. -/
def State.onceAt (s : State) (fl code n sheaf round : Nat) : Bool × State :=
  if (s.floor fl).raised.contains (code, n, sheaf, round) then (false, s)
  else (true, s.modFloor fl (fun x => { x with raised := x.raised ++ [(code, n, sheaf, round)] }))
/-- R335: a partial or mark that fits no open sheaf, or a wrong count, faults the enclosure. -/
def State.sheafFault (s : State) (fl n code sheaf tile core : Nat) : State :=
  let det := sheaf + tile * 2 ^ 16 + core * 2 ^ 32
  ((s.raiseEncl n code skFloor fl det).raiseAt stRing code skFloor fl s.now (s.stepOf (some n)) det).faultEncl n code s.now

/-! ### Landing (R338, R348, R406) -/

/-- Every tile of a sheaf has its final copy and its writes are acknowledged. -/
def State.sheafComplete (s : State) (fl n num : Nat) : Bool :=
  let x := s.encl n
  let have_ (t : Nat) : Bool := (s.floor fl).tiles.any (fun u => u.is n num t && u.fin.isSome && decide (u.acks = 0))
  if num = x.statSheaf then x.tally.all (fun d => have_ d.id)
  else match s.sheafOf n num with
    | some h => if h.tiles = 0 then have_ 0 else (List.range h.tiles).all have_
    | none => false
/-- Every sheaf of the enclosure, the statistics sheaf included, with its floor. -/
def State.allSheaves (s : State) (n : Nat) : List (Nat × Nat) :=
  let x := s.encl n
  (x.sheaves.map (fun h => (h.num, h.floor))) ++ (if x.statSheaf = 0xFFFF then [] else [(x.statSheaf, x.statFloor)])
/-- Every sheaf of the open step is complete at this module. -/
def State.stepComplete (s : State) (n : Nat) : Bool :=
  (s.allSheaves n).all (fun p => (s.floor p.2).done.contains (n, p.1))
/-- Sampled tiles of a sheaf have all passed (R348). -/
def State.gleaned (s : State) (fl n num : Nat) : Bool :=
  ((s.floor fl).tiles.filter (fun t => decide (t.encl = n) && decide (t.sheaf = num) && t.glean)).all (fun t => t.gDone && !t.gMiss)
/-- The landing notice of a sheaf goes to each Tabko that holds an entry of it, with S. -/
def State.noticeOf (s : State) (n num : Nat) : State :=
  let fl := ((s.sheafOf n num).map Sheaf.floor).getD 0
  let sc := s.scaleOf fl n num
  (List.range 48).foldl (fun u t =>
    if (u.tabko t).entries.any (fun e => decide (e.encl = n) && decide (e.sheaf = num)) then
      u.modTabko t (fun x => { x with landed := x.landed ++ [(n, num, sc)] })
    else u) s
/-- R338, R348, R406: the notices that may go. At a yoked enclosure all of a step go together, once every sheaf is complete. -/
def State.sendNotices (s : State) (n : Nat) : State :=
  let x := s.encl n
  let hold := decide (s.rd Reg.GLN_CTL.HOLD 0 n = 1)
  let flOf (k : Nat) : Nat := if k = x.statSheaf then x.statFloor else ((s.sheafOf n k).map Sheaf.floor).getD 0
  let ready := x.notices.filter (fun k => !hold || s.gleaned (flOf k) n k)
  let go (s : State) (l : List Nat) : State :=
    (l.foldl (fun u k => u.noticeOf n k) s).modEncl n (fun y => { y with notices := y.notices.filter (fun k => !l.contains k) })
  if s.rd Reg.ENCL_SHAPE.YOKE (j := n) = 0 then (if ready.isEmpty then s else go s ready)
  else if s.stepComplete n ∧ ready.length = x.notices.length then
    let fins := (s.allSheaves n).map (fun p => (p.1, s.roundOf p.2 n p.1, s.scaleOf p.2 n p.1))
    let stats := x.tally.map (fun d => let t := s.tileOf x.statFloor n x.statSheaf d.id 2
                                       (d.id, t.csat, t.fin.getD []))
    let s1 := ((go s ready).wr Reg.YK_ENCL.LANDED (s.rd Reg.ENCL_STATE.STEP (j := n)) 0 n).wr Reg.YK_ENCL.ACCEPTING 0 0 n
    s1.modEncl n (fun y => { y with accept := none, finals := fins, statFin := stats })
  else s
/-- R338: a sheaf that is now complete: counted, its retention slots freed, its notices due. -/
def State.checkComplete (s : State) (fl n num : Nat) : State :=
  if (s.floor fl).done.contains (n, num) || !s.sheafComplete fl n num then s
  else
    let s1 := s.modFloor fl (fun x => { x with done := x.done ++ [(n, num)] })
    let s2 := (s1.wr Reg.FLR_ENCL.OPEN (s1.rd Reg.FLR_ENCL.OPEN fl n - 1) fl n).incWrap Reg.FLR_ENCLCNT.DONE 1 fl n
    let s3 := (s2.enclCores n).foldl (fun u c =>
      if (u.core c).retention.any (fun r => decide (r.sheaf = num)) then
        (u.modCore c (fun x => { x with retention := x.retention.filter (fun r => decide (r.sheaf ≠ num)) })).emitSync c
      else u) s2
    (s3.modEncl n (fun x => { x with notices := x.notices ++ [num] })).sendNotices n

/-! ### The gleaner (R345-R348) -/

/-- R345: the tile is sampled. -/
def sampled (step sheaf tile k : Nat) : Bool :=
  let x0 := step * 2 ^ 32 + sheaf * 2 ^ 16 + tile
  let x1 := x0 * 0x9E3779B97F4A7C15 % 2 ^ 64
  let x2 := x1 ^^^ (x1 / 2 ^ 29)
  let x3 := x2 * 0xBF58476D1CE4E5B9 % 2 ^ 64
  let x4 := x3 ^^^ (x3 / 2 ^ 32)
  decide (x4 % 2 ^ k = 0)
/-- A finite FP32 code in units of 2^-149; 0 for others. -/
def fp32Units (c : Int) : Int :=
  match fp32.decode c.toNat with
  | .fin neg m e => signed neg (scaleNat m (e + 149))
  | _ => 0
/-- A module's contribution to the gleaner's sums: A, and for FP32 sheaves B (R346). -/
def gleanPart (kind : Nat) (loc : List Int) : List Int :=
  if kind = 0 then (loc.map fp32Units) ++ (loc.map (fun c => ((fp32Units c).natAbs : Int))) else loc
def addLists (a b : List Int) : List Int := (a.zip b).map (fun p => p.1 + p.2)
/-- R347: an element passes: compared and good, compared and bad, or not compared. -/
def gleanElem (kind len : Nat) (r a b : Int) : Option Bool :=
  if kind = 0 then
    (if (fp32.decode r.toNat).nonFinite then none
     else some (decide (((fp32Units r - a).natAbs : Nat) * 2 ^ 24 ≤ (len - 1) * b.natAbs)))
  else some (decide (r = a))
/-- R347, R348: the comparison of a sampled tile, once its finished sum and its final copy are here. -/
def State.gleanCompare (s : State) (fl : Nat) (t : TileX) : State :=
  match t.gSum, t.fin with
  | some a, some r =>
    if !t.glean || t.gDone then s
    else
      let n := t.encl
      let len := s.rd Reg.FLR_RING.LEN fl n
      let res := (List.range r.length).map (fun k => gleanElem t.kind len (r[k]?.getD 0) (a[k]?.getD 0) (a[k + r.length]?.getD 0))
      let skip := (res.filter (fun x => x.isNone)).length
      let bad := res.any (fun x => decide (x = some false))
      let s1 := ((s.setTile fl { t with gDone := true, gMiss := bad }).incWrap Reg.GLN_STAT.SAMPLED 1 0 n).incSat Reg.GLN_STAT.SKIPPED skip 0 n
      if !bad then s1.sendNotices n
      else
        let s2 := s1.incSat Reg.GLN_STAT.MISSES 1 0 n
        let s3 := if s2.rd Reg.GLN_LAST.VALID 0 n = 1 then s2
          else (((s2.wr Reg.GLN_LAST.SHEAF t.sheaf 0 n).wr Reg.GLN_LAST.TILE t.tile 0 n).wr Reg.GLN_LAST.STEP
            (s2.rd Reg.ENCL_STATE.STEP (j := n)) 0 n).wr Reg.GLN_LAST.VALID 1 0 n
        let o := s3.onceAt fl 0x72 n t.sheaf 0
        let det := s3.copyOf Reg.GLN_LAST.SHEAF 0 n
        let s4 := if o.1 then (o.2.raiseEncl n 0x72 skFloor fl det).raiseAt stRing 0x72 skFloor fl s.now (s.stepOf (some n)) det else o.2
        if s4.rd Reg.GLN_CTL.HOLD 0 n = 1 then s4.faultEncl n 0x72 s.now else s4.sendNotices n
  | _, _ => s

/-- A frame of a tile as this module sends it. -/
def State.frameFor (s : State) (fl : Nat) (t : TileX) (pass : Nat) (miss : Bool) (missBits : Nat) (vals : List Int) : SheafFrame :=
  let n := t.encl
  let len := s.rd Reg.FLR_RING.LEN fl n
  { job := s.rd Reg.ENCL_SHAPE.JOB_ID (j := n), step := s.rd Reg.ENCL_STATE.STEP (j := n), sheaf := t.sheaf, tile := t.tile, kind := t.kind
    pass := pass, miss := miss, nf := t.nf, csat := t.csat, glean := t.glean, round := t.round, scale := s.scaleOf fl n t.sheaf, gk := t.gk
    missBits := missBits, origin := if len = 0 then 0 else t.sheaf % len, sender := s.rd Reg.FLR_RING.POS fl n, vals := vals }
/-- A SHEAF frame forward, a GLEAN frame backward (R324, R346, R366). -/
def State.ringSend (s : State) (fl n : Nat) (f : SheafFrame) : State :=
  if f.pass ≤ 1 then s.sendRing fl (s.rd Reg.FLR_RING.NEXT fl n) 1 1 (s.rd Reg.FLR_PEER.NEXT_ID fl n) f.bytes
  else s.sendRing fl (s.rd Reg.FLR_RING.PREV fl n) 2 2 (s.rd Reg.FLR_PEER.PREV_ID fl n) f.bytes

/-- R346: a gleaner frame on its first lap meets the contribution of this module, the origin's included. -/
def State.gleanStep (s : State) (fl : Nat) (t : TileX) : State :=
  let n := t.encl
  let len := s.rd Reg.FLR_RING.LEN fl n
  let p := s.rd Reg.FLR_RING.POS fl n
  match t.loc with
  | none => s
  | some loc =>
    let p0 := if len = 0 then 0 else t.sheaf % len
    let sum : Option (List Int) :=
      if p = p0 then (if t.gDone ∨ t.gSum.isSome then none else some (gleanPart t.kind loc))
      else t.gIn.map (fun f => addLists f.vals (gleanPart t.kind loc))
    match sum with
    | none => s
    | some a =>
      let t1 := { t with gIn := none }
      if p = (p0 + 1) % max len 1 then
        let t2 := { t1 with gSum := some a }
        let s1 := (s.setTile fl t2).gleanCompare fl t2
        if len ≤ 1 then s1 else s1.ringSend fl n (s.frameFor fl t2 3 false 0 a)
      else (s.setTile fl t1).ringSend fl n (s.frameFor fl t1 2 false 0 a)

/-! ### Final tiles (R338) -/

/-- The four writes of a final tile into G, from the floor entry in the row of the Tabko's landing port (log entry 20). -/
def State.finalWrites (s : State) (fl : Nat) (h : Sheaf) (t : TileX) (vals : List Int) : List (Nat × Packet) :=
  let bytes := vals.flatMap (fun v => leBytes 4 (wrapInt 32 v))
  (List.range 4).filterMap (fun k =>
    match partAddr h.g (4 * (h.gFirst + 256 * t.tile) + 256 * k) with
    | none => none
    | some a => (s.tabkoOf a).map (fun tb =>
        let row := rowOf (portCore tb)
        (row, { ty := 3, vc := 0, dkind := 1, dst := tb, skind := 2 + fl, src := row, encl := t.encl, tag := t.round * 16 + k
                tick := s.now % 2 ^ 16, status := 0, kcopy := false, body := slowBody a 256, via := 0, tree := []
                data := slice bytes (256 * k) 256, poison := [] })))
/-- A tile's final copy is here. The floor entries beside a tripped holding discard what goes into it (R426). -/
def State.holdFinal (s : State) (fl : Nat) (t : TileX) (scale : Int) (vals : List Int) : State :=
  let ws := match s.sheafOf t.encl t.sheaf with
    | some h => if h.tiles = 0 then [] else s.finalWrites fl h t vals
    | none => []
  let t1 := { t with fin := some vals, acks := ws.length }
  let s1 := match s.scaleEntry fl t.encl t.sheaf with
    | some j => s.wr Reg.FLR_SCALE.S (wrapInt 9 scale) fl (t.encl * 64 + j)
    | none => s
  let go := ws.filter (fun w => !s.tripOff (croftOf (edgeCore fl w.1)))
  let s2 := (s1.setTile fl t1).modFloor fl (fun x => { x with out := x.out ++ go })
  (s2.gleanCompare fl t1).checkComplete fl t.encl t.sheaf

/-! ### Scale misses (R342, R343) -/

/-- On learning of a miss of round r with MISS_BITS: SCALE_MISS, the next scale and round everywhere, the sheaf's tiles dropped,
re-emission asked for. -/
def State.scaleMiss (s : State) (fl n num round missBits : Nat) : State :=
  if s.roundOf fl n num ≠ round then s
  else
    let sc := s.scaleOf fl n num
    let new : Int := if round + 1 = 15 then 127 else min (sc + missBits + 1) 127
    let det := num + round * 2 ^ 16 + missBits * 2 ^ 20
    let s1 := ((s.raiseEncl n 0x71 skFloor fl det).incSat Reg.FLR_ENCL.MISSES 1 fl n).modFloor fl
      (fun x => { x with tiles := x.tiles.filter (fun t => !(decide (t.encl = n) && decide (t.sheaf = num))) })
    let s2 := match s1.scaleEntry fl n num with
      | some j => (s1.wr Reg.FLR_SCALE.S (wrapInt 9 new) fl (n * 64 + j)).wr Reg.FLR_SCALE.ROUND (round + 1) fl (n * 64 + j)
      | none => s1
    ((s2.enclCores n).foldl (fun u c =>
      let v := match u.exactEntry c num with
        | some j => (u.wr Reg.EMIT_SCALE.S (wrapInt 9 new) c j).wr Reg.EMIT_SCALE.ROUND (round + 1) c j
        | none => u
      if (v.core c).retention.any (fun r => decide (r.sheaf = num)) then
        (v.modCore c (fun x => { x with
          retention := x.retention.map (fun r => if r.sheaf = num then { r with again := true } else r) })).emitSync c
      else v) s2).foldSync fl

/-! ### The reduce pass (R337) -/

/-- Overflow of an exact sum: bitlen − 31 beyond ±(2^31 − 1) (R334). -/
def ovfOf (v : List Int) : Nat := (v.map (fun x => if 2147483647 < x.natAbs then bitlen x.natAbs - 31 else 0)).foldl max 0
/-- The sum of an incoming frame and the local contribution: FP32 with one rounding; exact; counters that stop at 2^64 − 1, with
the flag that one stopped. -/
def reduceSum (kind : Nat) (a b : List Int) : List Int × Bool :=
  let top : Int := 2 ^ 64 - 1
  if kind = 0 then
    ((a.zip b).map (fun p => ((fp32.round (FVal.add (fp32.decode p.1.toNat) (fp32.decode p.2.toNat)) : Nat) : Int)), false)
  else if kind = 1 then (addLists a b, false)
  else ((addLists a b).map (fun x => if top < x then top else x), (addLists a b).any (fun x => decide (top < x)))

/-- R337: the tile goes on along the reduce pass once its fold is complete and, away from the origin, the frame is held. -/
def State.reduceStep (s : State) (fl : Nat) (t : TileX) : State :=
  let n := t.encl
  let len := s.rd Reg.FLR_RING.LEN fl n
  let p := s.rd Reg.FLR_RING.POS fl n
  match t.loc with
  | none => s
  | some loc =>
    if t.sent ∨ len = 0 then s
    else
      let p0 := t.sheaf % len
      let en := (s.encl n).glean
      let k := s.rd Reg.GLN_CTL.K 0 n
      let step := s.rd Reg.ENCL_STATE.STEP (j := n)
      let zero : Bool := match s.sheafOf n t.sheaf with
        | some h => decide (h.tiles = 0)
        | none => true
      let res : Option (TileX × Bool × Nat × List Int) :=
        if p = p0 then
          let g := en && !zero && sampled step t.sheaf t.tile k
          some ({ t with glean := g, gk := if g then k else 0 }, decide (0 < t.locOvf), t.locOvf, loc)
        else match t.inc with
          | none => none
          | some f =>
            let b0 := max f.missBits t.locOvf
            let t1 := { t with glean := f.glean, gk := f.gk, nf := t.nf || f.nf, csat := t.csat || f.csat, inc := none }
            if f.miss then some (t1, true, b0, [])
            else
              let r := reduceSum t.kind f.vals loc
              let b1 := if t.kind = 1 then max b0 (ovfOf r.1) else b0
              some ({ t1 with csat := t1.csat || r.2 }, decide (0 < b1), b1, r.1)
      match res with
      | none => s
      | some (t1, miss, b, acc) =>
        let t2 := { t1 with sent := true }
        let s1 := (s.setTile fl t2).foldSync fl
        let vals := if miss then [] else acc
        if p = (p0 + len - 1) % len then
          let s2 := if len = 1 then s1 else s1.ringSend fl n (s.frameFor fl t2 1 miss b vals)
          if miss then s2.scaleMiss fl n t.sheaf t.round b
          else
            let s3 := s2.holdFinal fl t2 (s.scaleOf fl n t.sheaf) acc
            if t2.glean then s3.gleanStep fl (s3.tileOf fl n t.sheaf t.tile t.kind) else s3
        else
          let s2 := s1.ringSend fl n (s.frameFor fl t2 0 miss b vals)
          if t2.glean then s2.gleanStep fl (s2.tileOf fl n t.sheaf t.tile t.kind) else s2

/-! ### The fold (R334, R335) -/

/-- A fold that has all its partials: the module's contribution. -/
def TileX.close (t : TileX) : TileX :=
  if t.kind = 0 then { t with loc := some (t.sums.map (fun v => ((fp32.round v : Nat) : Int))) }
  else if t.kind = 1 then { t with loc := some t.ints, locOvf := max t.ovf (ovfOf t.ints) }
  else { t with loc := some t.ints }
/-- Values of a packet of a tile, added at the elements of its PART. -/
def TileX.addPart (t : TileX) (part ovf : Nat) (nf csat : Bool) (data : List Byte) : TileX :=
  let w (k : Nat) : Nat := leNat (slice data (4 * k) 4)
  let got := t.got.set part ((t.got[part]?.getD 0) + 1)
  if t.kind = 0 then
    let base := if t.sums.isEmpty then List.replicate 256 none else t.sums.map some
    let first := decide ((t.got[part]?.getD 0) = 0)
    let sums := (List.range 256).map (fun k =>
      let old : Option FVal := (base[k]?).join
      if k / 64 = part then
        let x := fp32.decode (w (k % 64))
        if first then x else FVal.add (old.getD x) x
      else old.getD (.fin false 0 0))
    { t with got := got, sums := sums }
  else
    let n := if t.kind = 1 then 256 else 68
    let lo := if t.kind = 1 then 64 * part else (if part = 0 then 0 else 64)
    let cnt := if t.kind = 1 ∨ part = 0 then 64 else 4
    let base := if t.ints.isEmpty then List.replicate n 0 else t.ints
    let raw := (List.range n).map (fun k =>
      let old : Int := base[k]?.getD 0
      if lo ≤ k ∧ k < lo + cnt then old + (if t.kind = 1 then sint 32 (w (k - lo)) else (w (k - lo) : Int)) else old)
    let top : Int := 2 ^ 64 - 1
    let past := decide (t.kind = 2) && raw.any (fun x => decide (top < x))
    { t with got := got, ints := if t.kind = 2 then raw.map (fun x => if top < x then top else x) else raw, ovf := max t.ovf ovf
             nf := t.nf || nf, csat := t.csat || csat || past }

/-- The packet at the head of a floor entry's queue whose stamp has come, and the state with its credit on the way back, which for REQ waits
while all fold entries are taken (R335). The floor runs in ON and in DARK (R415). -/
def State.floorHead (s : State) (fl row vc : Nat) : Option (Packet × State) :=
  let e := edgeCore fl row
  match s.headland e 5 vc with
  | h :: rest =>
    if h.stamp ≤ s.now ∧ s.floorState fl ≠ 3 then
      let t := s.setHeadland e 5 vc rest
      some (h.pkt, if vc = 0 ∧ (s.floor fl).full.isSome then t.modFloor fl (fun x => { x with owed := x.owed ++ [(e, h.pkt.flits)] })
        else t.floorCredit e vc h.pkt.flits)
    else none
  | [] => none

/-- A gleaner frame that waited for this contribution goes on. -/
def State.gleanLate (s : State) (fl n sheaf tile kind : Nat) : State :=
  let t := s.tileOf fl n sheaf tile kind
  if t.gIn.isSome then s.gleanStep fl t else s

/-- A partial as a packet carries it is folded (R334); `s` has the packet taken out. -/
def State.foldPacket (s : State) (fl : Nat) (p : Packet) : State :=
  let n := p.encl
  let sheaf := bits p.body 0 16
  let tile := bits p.body 16 16
  let part := bits p.body 32 2
  let kind := bits p.body 34 2
  let round := bits p.body 36 4
  let step := bits p.body 59 32
  let x := s.encl n
  let stray := s.sheafFault fl n 0x74 sheaf tile p.src
  if s.muted n || !p.poison.isEmpty || (x.checked && x.restart) then s
  else if step ≠ s.rd Reg.ENCL_STATE.STEP (j := n) ∨ x.checked then stray
  else
    let known : Bool :=
      if kind = 2 then decide (sheaf = x.statSheaf) && decide (fl = x.statFloor) && x.tally.any (fun d => decide (d.id = tile)) && decide (part ≤ 1)
      else match s.sheafOf n sheaf with
        | some h => decide (tile < h.tiles) && decide (h.floor = fl) && decide (kind = b2n h.exact)
        | none => false
    if !known then stray
    else if kind = 1 ∧ round < s.roundOf fl n sheaf then s
    else
      let t := s.tileOf fl n sheaf tile kind
      let contrib := ((s.sheafOf n sheaf).map Sheaf.contrib).getD 0
      if kind ≠ 2 ∧ contrib ≤ (t.got[part]?.getD 0) then s.sheafFault fl n 0x73 sheaf tile p.src
      else
        let t1 := t.addPart part (bits p.body 51 8) (decide (bits p.body 49 1 = 1)) (decide (bits p.body 50 1 = 1)) p.data
        let full := decide (kind ≠ 2) && t1.got.all (fun g => decide (g = contrib))
        let t2 := if full then t1.close else t1
        let s1 := (s.setTile fl t2).foldSync fl
        if full then (s1.reduceStep fl t2).gleanLate fl n sheaf tile kind else s1

end Sys2Proof.Machine
end

