-- ==== Sys2Proof/Machine/Crypto.lean ====
section
/-! DEFINITION. SHA-384 (FIPS 180-4) and ECDSA over P-384 (FIPS 186-5), which images, quotes, the ledger and the gauntlet use. -/

namespace Sys2Proof.Machine

/-! ### SHA-384 -/

/-- `r` with those of its `k` low bits set that keep its power `e` at most `n`: from 0, the `e`-th root of `n`, rounded down. -/
def rootFrom (e n : Nat) : Nat → Nat → Nat
  | 0, r => r
  | k + 1, r => rootFrom e n k (if (r + 2 ^ k) ^ e ≤ n then r + 2 ^ k else r)
/-- The first 64 bits of the fractional part of the `e`-th root of a number. -/
def rootBits64 (e n : Nat) : Nat := rootFrom e (n * 2 ^ (64 * e)) 70 0 % 2 ^ 64
/-- The first 80 primes. -/
def primes80 : List Nat :=
  (List.range 410).filter (fun p => decide (2 ≤ p) && (List.range 21).all (fun d => decide (d < 2) || decide (p ≤ d) || decide (p % d ≠ 0)))
/-- The round constants: bits of the cube roots of the first 80 primes. -/
def shaConsts : List Nat := primes80.map (rootBits64 3)

/-- A 64-bit number turned right by each of the amounts, the turns added bit by bit. -/
def turns (amounts : List Nat) (x : Nat) : Nat :=
  amounts.foldl (fun acc n => acc ^^^ ((x + x * 2 ^ 64) / 2 ^ n % 2 ^ 64)) 0

/-- The working variables of the hash, as the two sequences they shift through: the last four values of each, newest first. -/
structure ShaRegs where
  a : List Nat
  e : List Nat
  deriving DecidableEq, Repr

/-- A value enters a sequence, and its oldest leaves. -/
def shiftIn (x : Nat) (l : List Nat) : List Nat := x % 2 ^ 64 :: l.take 3
/-- One round; `kw` is its constant plus its word of the schedule. -/
def ShaRegs.round (v : ShaRegs) (kw : Nat) : ShaRegs :=
  match v.a, v.e with
  | [a0, a1, a2, a3], [e0, e1, e2, e3] =>
    let t := e3 + turns [14, 18, 41] e0 + (e2 ^^^ (e0 &&& (e1 ^^^ e2))) + kw
    ⟨shiftIn (t + turns [28, 34, 39] a0 + ((a0 &&& (a1 ||| a2)) ||| (a1 &&& a2))) v.a, shiftIn (a3 + t) v.e⟩
  | _, _ => v
/-- The schedule: the 16 words of the block, and each further one from those 2, 7, 15 and 16 before it; `l` holds the words so far, newest
first. -/
def schedule : Nat → List Nat → List Nat
  | 0, l => l.reverse
  | n + 1, l =>
    let back (k : Nat) : Nat := l.getD (k - 1) 0
    schedule n (((turns [19, 61] (back 2) ^^^ (back 2 / 2 ^ 6)) + back 7 + (turns [1, 8] (back 15) ^^^ (back 15 / 2 ^ 7)) + back 16) % 2 ^ 64 :: l)

/-- Big-endian reading of bytes. -/
def beNat (bs : List Byte) : Nat := bs.foldl (fun a b => a * 256 + b.toNat) 0
/-- The `n` bytes of a number, most significant first. -/
def beBytes (n x : Nat) : List Byte := (leBytes n x).reverse

/-- A block of 128 bytes enters the hash. -/
def ShaRegs.absorb (v : ShaRegs) (blk : List Byte) : ShaRegs :=
  let words := schedule 64 ((List.range 16).map (fun i => beNat (slice blk (120 - 8 * i) 8)))
  let r := (words.zip shaConsts).foldl (fun u q => u.round (q.1 + q.2)) v
  let plus (x y : List Nat) : List Nat := (x.zip y).map (fun q => (q.1 + q.2) % 2 ^ 64)
  ⟨plus v.a r.a, plus v.e r.e⟩

/-- The initial value of SHA-384: bits of the square roots of the ninth to the sixteenth prime. -/
def sha384Start : ShaRegs :=
  let h := ((primes80.drop 8).take 8).map (rootBits64 2)
  ⟨h.take 4, h.drop 4⟩

/-- SHA-384 of a string of bytes, 48 bytes. -/
def sha384 (m : List Byte) : List Byte :=
  let pad := m ++ [0x80] ++ List.replicate ((111 + 128 - m.length % 128) % 128) 0 ++ beBytes 16 (8 * m.length)
  let v := (List.range (pad.length / 128)).foldl (fun v k => v.absorb (slice pad (128 * k) 128)) sha384Start
  beBytes 48 (((v.a ++ v.e).take 6).foldl (fun n x => n * 2 ^ 64 + x) 0)

/-! ### P-384 -/

def p384 : Nat := 0xfffffffffffffffffffffffffffffffffffffffffffffffffffffffffffffffeffffffff0000000000000000ffffffff
def p384n : Nat := 0xffffffffffffffffffffffffffffffffffffffffffffffffc7634d81f4372ddf581a0db248b0a77aecec196accc52973
def p384b : Nat := 0xb3312fa7e23ee7e4988e056be3f82d19181d9c6efe8141120314088f5013875ac656398d8a2ed19d2a85c8edd3ec2aef
def p384gx : Nat := 0xaa87ca22be8b05378eb1c71ef320ad746e1d3b628ba79b9859f741e082542a385502f25dbf55296c3a545e3872760ab7
def p384gy : Nat := 0x3617de4a96262c6f5d9e98bf9292dc29f8f41dbd289a147ce9da3113b5f0b8c00a60b1ce1d7e819d7a431d7c90ea0e5f

/-- Power modulo `m`, the exponent's bits taken from the top of `fuel` bits. -/
def powMod (m x e : Nat) : Nat → Nat
  | 0 => 1 % m
  | fuel + 1 =>
    let h := powMod m x (e / 2) fuel
    if e % 2 = 1 then h * h % m * x % m else h * h % m
/-- Inverse modulo a prime. -/
def invMod (m x : Nat) : Nat := powMod m (x % m) (m - 2) 384

/-- A point in Jacobian coordinates; z = 0 is the point at infinity. -/
structure Pt where
  x : Nat
  y : Nat
  z : Nat
  deriving DecidableEq, Repr

/-- Difference modulo p. -/
def subP (a b : Nat) : Nat := (a + p384 - b % p384) % p384
def mulP (a b : Nat) : Nat := a * b % p384

/-- Twice a point (a = −3). -/
def Pt.dbl (p : Pt) : Pt :=
  if p.z = 0 ∨ p.y = 0 then ⟨1, 1, 0⟩
  else
    let d := mulP p.z p.z
    let g := mulP p.y p.y
    let b := mulP p.x g
    let al := mulP 3 (mulP (subP p.x d) ((p.x + d) % p384))
    let x := subP (mulP al al) (8 * b)
    let z := subP (subP (mulP (p.y + p.z) (p.y + p.z)) g) d
    let y := subP (mulP al (subP (4 * b) x)) (8 * mulP g g)
    ⟨x, y, z⟩
/-- Sum of two points. -/
def Pt.add (p q : Pt) : Pt :=
  if p.z = 0 then q
  else if q.z = 0 then p
  else
    let zz1 := mulP p.z p.z
    let zz2 := mulP q.z q.z
    let u1 := mulP p.x zz2
    let u2 := mulP q.x zz1
    let s1 := mulP p.y (mulP q.z zz2)
    let s2 := mulP q.y (mulP p.z zz1)
    if u1 = u2 then (if s1 = s2 then p.dbl else ⟨1, 1, 0⟩)
    else
      let h := subP u2 u1
      let r := subP s2 s1
      let h2 := mulP h h
      let h3 := mulP h h2
      let v := mulP u1 h2
      let x := subP (subP (mulP r r) h3) (2 * v)
      let y := subP (mulP r (subP v x)) (mulP s1 h3)
      ⟨x, y, mulP h (mulP p.z q.z)⟩
/-- A multiple of a point, by the low `fuel` bits of `k`. -/
def Pt.mul (p : Pt) (k : Nat) : Nat → Pt
  | 0 => ⟨1, 1, 0⟩
  | fuel + 1 =>
    let h := (Pt.mul p (k / 2) fuel).dbl
    if k % 2 = 1 then h.add p else h
/-- Affine x and y. -/
def Pt.affine (p : Pt) : Nat × Nat :=
  let i := invMod p384 p.z
  let i2 := mulP i i
  (mulP p.x i2, mulP p.y (mulP i i2))
/-- The base point. -/
def p384g : Pt := ⟨p384gx, p384gy, 1⟩
/-- The affine point lies on the curve. -/
def onCurve (x y : Nat) : Bool :=
  decide (x < p384) && decide (y < p384) && decide (mulP y y = (mulP x (mulP x x) + (p384 - 3) * x + p384b) % p384)

/-- ECDSA over P-384 with SHA-384: a signature r, s of 48 B each, big-endian, verifies under a public key X, Y (96 B). -/
def ecdsaVerify (pub msg sig : List Byte) : Bool :=
  let qx := beNat (pub.take 48)
  let qy := beNat (slice pub 48 48)
  let r := beNat (sig.take 48)
  let s := beNat (slice sig 48 48)
  let z := beNat (sha384 msg)
  if onCurve qx qy && decide (0 < r) && decide (r < p384n) && decide (0 < s) && decide (s < p384n) then
    let w := invMod p384n s
    let q := (p384g.mul (z * w % p384n) 384).add ((⟨qx, qy, 1⟩ : Pt).mul (r * w % p384n) 384)
    decide (q.z ≠ 0) && decide (q.affine.1 % p384n = r)
  else false
/-- The signature of a message under a private key with a per-message secret number. -/
def ecdsaSign (d k : Nat) (msg : List Byte) : List Byte :=
  let r := (p384g.mul (k % p384n) 384).affine.1 % p384n
  let z := beNat (sha384 msg)
  let s := invMod p384n k * (z + r * (d % p384n)) % p384n
  beBytes 48 r ++ beBytes 48 s
/-- The public key of a private key, X then Y. -/
def ecdsaPublic (d : Nat) : List Byte :=
  let q := (p384g.mul (d % p384n) 384).affine
  beBytes 48 q.1 ++ beBytes 48 q.2

/-- HMAC-SHA-384 (R461). -/
def hmac384 (key m : List Byte) : List Byte :=
  let k := (if 128 < key.length then sha384 key else key)
  let k := k ++ List.replicate (128 - k.length) 0
  sha384 (k.map (fun b => b ^^^ 0x5C) ++ sha384 (k.map (fun b => b ^^^ 0x36) ++ m))

end Sys2Proof.Machine
end

