-- ==== Sys2Proof/Machine/Ledger.lean ====
section
/-! DEFINITION. The life-cycle state as the fuses and the session give it (R455), and the ledger's journal: its signed records and
checkpoints (R449-R451). -/

namespace Sys2Proof.Machine

/-- BOOT_STAT.LC and GNT_STAT.LC_COUNT follow (R454, R476). -/
def State.lcSync (s : State) : State := (s.wr Reg.BOOT_STAT.LC s.lc).wr Reg.GNT_STAT.LC_COUNT s.otp.lcFuses
/-- The counter block (R450). -/
def State.counterBlock (s : State) : List Byte := (List.range 24).flatMap (fun j => leBytes 8 (s.rd Reg.LED_CNT.BLOCK 0 j))

/-- ASCII bytes. -/
def ascii (l : List Nat) : List Byte := l.map (BitVec.ofNat 8)
/-- "KZLR". -/
def ledMagic : List Byte := ascii [0x4B, 0x5A, 0x4C, 0x52]

/-- Bytes 0-223 of a record (R449). -/
def State.recordBody (s : State) (w : LedgerWrite) (ckpt : Nat) : List Byte :=
  ledMagic ++ leBytes 4 (s.rd Reg.TRUST_STAT.SEQ + 1) ++ leBytes 4 ckpt ++ leBytes 1 w.kind ++ leBytes 1 w.lc ++ [0, 0] ++
    w.block ++ w.detail.take 16 ++ List.replicate (16 - w.detail.length) 0
/-- The identity key's signature; without ID_SEED there is no key and no signature (R446). -/
def State.sign (s : State) (m : List Byte) : List Byte :=
  match s.otp.idSeed with
  | some seed => ecdsaSign (Config.identityKey seed) (Config.signSecret s.freeIx) m
  | none => List.replicate 96 0
/-- Records a sector holds, and the journal (R434): a record lies whole in one sector (DESIGN CHOICE, log entry 29). -/
def sectorRecords : Nat := 65536 / 320
/-- R451: the oldest sector is erased when the ring is full and the newest checkpoint lies in a later one. -/
def trimJournal (j : List (List Byte)) : List (List Byte) :=
  if 128 * sectorRecords < j.length ∧ (j.drop sectorRecords).any (fun r => decide (leNat (slice r 12 1) = 2)) then j.drop sectorRecords else j

/-- Wipe counts of every core that has any (R451). -/
def State.wipeTable (s : State) : List (Nat × Nat) :=
  ((List.range 81920).map (fun c => (c, s.rd Reg.SP_WIPE.COUNT c))).filter (fun p => decide (p.2 ≠ 0))
/-- A signed record is written (R449). -/
def State.record (s : State) (w : LedgerWrite) (ckpt : Nat) : State :=
  let b := s.recordBody w ckpt
  let s1 := s.incWrap Reg.TRUST_STAT.SEQ 1
  { s1 with
    flash := { s1.flash with journal := trimJournal (s1.flash.journal ++ [b ++ s.sign b]) }
    freeIx := s1.freeIx + 1 }
/-- The three steps of a checkpoint (R451): wipe table, record, fuse. -/
def State.checkpointNow (s : State) (w : LedgerWrite) : State :=
  let t := s.wipeTable
  let s1 : State := { s with flash := if s.flash.lastB then { s.flash with bankA := t, lastB := false } else { s.flash with bankB := t, lastB := true } }
  let c := min (s.otp.ckpt + 1) 4095
  let s2 := s1.record w c
  ({ s2 with otp := { s2.otp with ckpt := c } } : State).wr Reg.TRUST_STAT.CKPT c
/-- A record is written now: a checkpoint, or a record of the kinds that carry the checkpoint in force. -/
def State.writeRecord (s : State) (w : LedgerWrite) : State := if w.kind = 2 then s.checkpointNow w else s.record w s.otp.ckpt
/-- An event of a kind: its record is written, or waits for the write-through in progress (R441). -/
def State.ledRecord (s : State) (kind : Nat) (detail : List Byte) : State :=
  let w : LedgerWrite := ⟨kind, s.lc, s.counterBlock, detail⟩
  if s.rd Reg.BOOT_LOAD_STAT.BUSY = 1 then { s with trust := { s.trust with waiting := s.trust.waiting ++ [w] } } else s.writeRecord w
/-- A checkpoint (R451). -/
def State.checkpoint (s : State) : State := s.ledRecord 2 []
/-- A write-through has ended: the records that waited are written in their order (R441). -/
def State.writeWaiting (s : State) : State :=
  s.trust.waiting.foldl (fun t w => t.writeRecord w) { s with trust := { s.trust with waiting := [] } }
/-- Details of a life-cycle record, of wipes of a rectangle and of a core, and of a change of a core (R449; the bytes' places: log
entry 29). Kinds of change: 1 made fallow, 2 mark cleared, 3 array spare row, 4 croft spare row. -/
def detailLc (old new : Nat) : List Byte := leBytes 1 old ++ leBytes 1 new
def detailRect (origin crows ccols : Nat) : List Byte := leBytes 1 origin ++ leBytes 1 crows ++ leBytes 1 ccols
def detailCore (core : Nat) : List Byte := leBytes 4 (core + 2 ^ 31)
def detailChange (phys kind : Nat) : List Byte := leBytes 4 phys ++ leBytes 1 kind

/-- Physical index of a core (R20). -/
def State.physOf (s : State) (core : Nat) : Nat :=
  let c := croftOf core
  physicalIndex (rowOf core) (colOf core) (decide (s.rd Reg.CROFT_TABLE.SPARE_USED 0 c = 1)) (s.rd Reg.CROFT_TABLE.BAD_ROW 0 c)

/-! ### A wipe on its own (R137, R139) -/

/-- WIPE_START (R139): a write of SP_WIPE.START by the steading to a halted core; the ledger records the core (R137, log entry 29). Written
while a wipe of the core runs it does nothing: that wipe goes on (DESIGN CHOICE, log entry 78). -/
def execWipeStart (core : CoreId) (s : State) : Host.Outcome State Fault Refusal :=
  let i := core.val
  .next (if s.rd Reg.HND_STAT.HALTED i = 1 ∧ s.corePresent i ∧ s.rd Reg.SP_STAT.WIPE_BUSY i = 0 then
    (s.wipeStart i false).ledRecord 4 (detailCore i) else s)

end Sys2Proof.Machine
end

