-- ==== Sys2Proof/Machine/YokeFrame.lean ====
section
/-! DEFINITION. YOKE frames (R402): their header, and the FALLOW frame of a load or a step boundary (R401, R484). -/

namespace Sys2Proof.Machine

/-- The fields of a yoke header (R402) beside STATE and BYTES. -/
structure YokeHdr where
  kind : Nat
  encl : Nat
  job : Nat
  step : Nat
  fprint : Nat
  offset : Nat
  yoke : Nat
  deriving DecidableEq, Repr

/-- The 32 bytes of a header. -/
def YokeHdr.bytes (h : YokeHdr) (state len : Nat) : List Byte :=
  leBytes 1 h.kind ++ leBytes 1 h.encl ++ leBytes 2 state ++ leBytes 4 h.job ++ leBytes 4 h.step ++ leBytes 4 h.fprint ++
    leBytes 8 h.offset ++ leBytes 4 len ++ leBytes 1 h.yoke ++ List.replicate 3 0
/-- A header read from a body. -/
def yokeHdr (b : List Byte) : YokeHdr :=
  { kind := leNat (slice b 0 1), encl := leNat (slice b 1 1), job := leNat (slice b 4 4), step := leNat (slice b 8 4)
    fprint := leNat (slice b 12 4), offset := leNat (slice b 16 8), yoke := leNat (slice b 28 1) }
/-- The sender's yoke state. -/
def yokeStateOf (b : List Byte) : Nat := leNat (slice b 2 2)
/-- The payload. -/
def yokePayload (b : List Byte) : List Byte := slice b 32 (leNat (slice b 24 4))

/-- State of R403: 0 UNPAIRED, 1 PAIRED, 2 LOST, 3 SOLO, 4 SEEDING, 5 JOINING. -/
def State.ykState (s : State) : Nat := s.rd Reg.YK_STAT.STATE % 8
/-- The state changes; MATE_UP stays. -/
def State.setYk (s : State) (st : Nat) : State := s.wr Reg.YK_STAT.STATE (s.rd Reg.YK_STAT.STATE / 8 * 8 + st)
/-- MATE_UP. -/
def State.setMateUp (s : State) (up : Bool) : State := s.wr Reg.YK_STAT.STATE (s.ykState + 8 * b2n up)

/-- A YOKE frame goes to the mate through port B0 (R400). -/
def State.sendYoke (s : State) (h : YokeHdr) (payload : List Byte) : State :=
  s.toPort 0 { ty := 3, cls := 3, lane := 0, floor := 0, dst := s.rd Reg.YK_CFG.MATE_ID, src := s.moduleId
               hops := s.rd Reg.FWD_ID.HOPS_INIT 0, body := h.bytes (s.rd Reg.YK_STAT.STATE) payload.length ++ payload }

/-- HDR_CRC of an enclosure's seed lot (R253). -/
def EnclX.fprint (x : EnclX) : Nat := leNat (slice x.lot 32 4)
/-- The module's fallow map in the layout of R32. -/
def State.fallowMap (s : State) : List Byte :=
  (List.range 10240).map (fun k => BitVec.ofNat 8 ((List.range 8).foldl (fun a b => if s.fallow (8 * k + b) then a + 2 ^ b else a) 0))
/-- A core is set in a map. -/
def inMap (m : List Byte) (core : Nat) : Bool := decide (bits (leNat (slice m (core / 8) 1)) (core % 8) 1 = 1)

/-- A FALLOW frame of an enclosure for a step (R401, R484). -/
def State.sendFallow (s : State) (n step : Nat) : State :=
  let x := s.encl n
  s.sendYoke ⟨3, n, s.rd Reg.ENCL_SHAPE.JOB_ID (j := n), step, x.fprint, 0, s.rd Reg.ENCL_SHAPE.YOKE (j := n)⟩ s.fallowMap

/-- The enclosure takes part in a yoke of two mates: not when detached, nor in SOLO, SEEDING or JOINING. -/
def State.yoked (s : State) (n : Nat) : Bool :=
  decide (s.rd Reg.ENCL_SHAPE.YOKE (j := n) ≠ 0) && decide (s.rd Reg.YK_CFG.EN = 1) && !(s.encl n).detached &&
    (decide (s.ykState = 1) || decide (s.ykState = 2))
/-- The loss window of R404. -/
def State.lossWindow (s : State) : Nat := s.rd Reg.YK_CTL.HB_MISS * s.rd Reg.YK_CTL.HB_PERIOD
/-- The copy of a seed image is to start, or frames of it wait at port B0 or are not acknowledged (R411). -/
def State.copying (s : State) : Bool :=
  let seed (f : Frame) : Bool := decide (f.ty = 3) && decide (4 ≤ leNat (slice f.body 0 1))
  s.yoke.copyDue || (s.port 0).txq.any seed || (s.port 0).replay.any (fun r => seed r.2.2)
/-- The step whose boundary an enclosure stands at, its counters already moved on (R350 row 6). -/
def State.boundaryStep (s : State) (n : Nat) : Nat := (s.rd Reg.ENCL_STATE.STEP (j := n) + 2 ^ 32 - 1) % 2 ^ 32
/-- Some core of the enclosure is still being fenced. -/
def State.fencingIn (s : State) (n : Nat) : Bool := (s.enclCores n).any (fun c => (s.core c).fencing.isSome)
/-- R484: the FALLOW frame of a boundary, once the fencing of the boundary is over. -/
def State.boundaryFallow (s : State) (n : Nat) : State :=
  if s.yoked n ∧ (s.encl n).checked ∧ !s.fencingIn n then s.sendFallow n (s.boundaryStep n) else s
/-- The mate's map has a core of the enclosure that the placement in force did not leave out: the union has changed (R412, R484). -/
def State.mateChanged (s : State) (n : Nat) : Bool :=
  match (s.encl n).mateMap with
  | some m => (s.enclCores n).any (fun c => inMap m c && !(s.encl n).union.contains c)
  | none => false
/-- R278: the enclosure goes into RESOWING, its cores halted at the release. -/
def State.beginResow (s : State) (n : Nat) : State :=
  (s.enclCores n).foldl (fun u c => u.haltCore c 4) (s.wr Reg.ENCL_STATE.STATE 3 (j := n))
/-- R412: both mates have released the same step: the yoke is PAIRED again. -/
def State.attached (s : State) (n : Nat) : State :=
  let s1 : State := { (s.setYk 1).wr Reg.YK_SEED.BUSY 0 with
                      yoke := { s.yoke with seeding := none, image := [], stateIn := none, ready := false, copyDue := false } }
  let det := s1.copyOf Reg.YK_STAT.STATE
  (s1.raiseSt 0x8A det).raiseEncl n 0x8A skSteading 0 det

end Sys2Proof.Machine
end

