-- ==== Sys2Proof/Machine/Threshing.lean ====
section
/-! DEFINITION. The commands of threshing (R325, R335-R350): partials, marks, ring frames, re-emission, write acknowledgements,
the close of a step and its boundary. -/

namespace Sys2Proof.Machine

/-! ### Partials and marks (R334, R335, R349) -/

/-- SHEAF_MARK (R349): a core's mark; one of another step is a stray (R335). -/
def execSheafMark (floor : FloorId) (row : Fin 256) (s : State) : Host.Outcome State Fault Refusal :=
  let fl := floor.val
  match s.floorHead fl row.val 0 with
  | none => .next s
  | some r =>
    let p := r.1
    let n := p.encl
    if p.ty ≠ 0xC ∨ bits p.body 34 2 ≠ 3 then .next s
    else if s.muted n || ((s.encl n).checked && (s.encl n).restart) then .next r.2
    else if bits p.body 59 32 ≠ s.rd Reg.ENCL_STATE.STEP (j := n) ∨ (s.encl n).checked then
      .next (r.2.sheafFault fl n 0x74 (bits p.body 0 16) (bits p.body 16 16) p.src)
    else .next (r.2.modFloor fl (fun x => { x with marks := if x.marks.contains (n, p.src) then x.marks else x.marks ++ [(n, p.src)] }))

/-! ### Ring frames (R336-R338, R343, R346, R367) -/

/-- The enclosure a JOB_ID names. -/
def State.enclOfJob (s : State) (job : Nat) : Option Nat :=
  (List.range 16).find? (fun n => s.enclHolds n && !s.muted n && decide (s.rd Reg.ENCL_SHAPE.JOB_ID (j := n) = job))
/-- What marks a frame as already taken (R367). -/
def SheafFrame.key (f : SheafFrame) : List Nat := [f.job, f.step, f.sheaf, f.tile, f.pass, f.round, f.sender]
/-- The sheaf a frame names is one of the enclosure's table, or its statistics sheaf, at this floor. -/
def State.frameKnown (s : State) (fl n : Nat) (f : SheafFrame) : Bool :=
  let x := s.encl n
  if f.kind = 2 then decide (f.sheaf = x.statSheaf) && decide (fl = x.statFloor) && x.tally.any (fun d => decide (d.id = f.tile))
  else match s.sheafOf n f.sheaf with
    | some h => decide (h.floor = fl) && decide (f.kind = b2n h.exact) && decide (f.tile < max h.tiles 1)
    | none => false

/-- A frame of the open step is acted on. `src` is the module that sent it. -/
def State.actFrame (s : State) (fl n src : Nat) (f : SheafFrame) : State :=
  let len := s.rd Reg.FLR_RING.LEN fl n
  let p := s.rd Reg.FLR_RING.POS fl n
  let p0 := if len = 0 then 0 else f.sheaf % len
  let t := s.tileOf fl n f.sheaf f.tile f.kind
  if f.pass = 0 then
    let t1 := { t with inc := some f }
    ((s.setTile fl t1).reduceStep fl t1).gleanLate fl n f.sheaf f.tile f.kind
  else if f.pass = 1 then
    match (s.encl n).accept with
    | some d =>
      if src = d ∧ t.fin.isNone ∧ !f.miss then s.holdFinal fl { t with glean := false, csat := f.csat } f.scale f.vals else s
    | none =>
      let t1 := { t with glean := f.glean, gk := f.gk, csat := f.csat, nf := f.nf }
      let s1 := if (p + 1) % max len 1 = (p0 + len - 1) % max len 1 then s
        else s.ringSend fl n { f with sender := p }
      if f.miss then s1.scaleMiss fl n f.sheaf f.round f.missBits
      else if t.fin.isSome then s1
      else s1.holdFinal fl t1 f.scale f.vals
  else if f.pass = 2 then
    let t1 := { t with gIn := some f, glean := f.glean, gk := f.gk }
    (s.setTile fl t1).gleanStep fl t1
  else
    let t1 := { t with gSum := some f.vals, glean := f.glean, gk := f.gk }
    let s1 := if p = (p0 + 2) % max len 1 then s else s.ringSend fl n { f with sender := p }
    (s1.setTile fl t1).gleanCompare fl t1

/-- A frame is held until its step or its round comes; a repeat is counted and discarded (R336, R346, R367). -/
def State.holdFrame (s : State) (fl : Nat) (f : SheafFrame) : State :=
  if (s.floor fl).held.any (fun g => decide (g.key = f.key)) then s.incSat Reg.FWD_STAT.DUPS 1 fl
  else s.modFloor fl (fun x => { x with held := x.held ++ [f] })
/-- R336, R367: a delivered frame by its STEP and ROUND. A step is open from its release on, the first from the
start of its cores (DEDUCED, log entry 22). -/
def State.takeSheafFrame (s : State) (fl src : Nat) (f : SheafFrame) : State :=
  match s.enclOfJob f.job with
  | none => s
  | some n =>
    let step := s.rd Reg.ENCL_STATE.STEP (j := n)
    if f.step = (step + 1) % 2 ^ 32 ∨ (f.step = step ∧ ((s.encl n).checked ∨ s.rd Reg.ENCL_STATE.STATE (j := n) = 1)) then
      s.holdFrame fl f
    else if f.step ≠ step ∨ !s.frameKnown fl n f then s.incSat Reg.FLR_ENCLCNT.STRAY 1 fl n
    else if (s.floor fl).seen.contains f.key then s.incSat Reg.FWD_STAT.DUPS 1 fl
    else if f.round < s.roundOf fl n f.sheaf then s
    else if s.roundOf fl n f.sheaf < f.round then s.holdFrame fl f
    else (s.modFloor fl (fun x => { x with seen := x.seen ++ [f.key] })).actFrame fl n src f

/-- The frames held for the step that opens are taken up. -/
def State.drainHeld (s : State) (n : Nat) : State :=
  let held := [0, 1].flatMap (fun fl => ((s.floor fl).held.filter (fun f =>
    decide (s.enclOfJob f.job = some n) && decide (f.step = s.rd Reg.ENCL_STATE.STEP (j := n)))).map (fun f => (fl, f)))
  held.foldl (fun u p =>
    (u.modFloor p.1 (fun y => { y with held := y.held.filter (fun f => decide (f ≠ p.2)) })).takeSheafFrame p.1
      (s.rd Reg.FLR_PEER.PREV_ID p.1 n) p.2) s

/-- The first frame held for a round that is now in force. -/
def State.heldRound (s : State) (fl : Nat) : Option (Nat × SheafFrame) :=
  (s.floor fl).held.findSome? (fun f => match s.enclOfJob f.job with
    | some n => if f.step = s.rd Reg.ENCL_STATE.STEP (j := n) ∧ !(s.encl n).checked ∧ f.round ≤ s.roundOf fl n f.sheaf ∧ s.rd Reg.ENCL_STATE.STATE (j := n) ≠ 1 then
        some (n, f) else none
    | none => none)
/-- Up to `k` frames held for a round are taken up once it is in force (R346). -/
def State.drainRounds (fl : Nat) : Nat → State → State
  | 0, s => s
  | k + 1, s => match s.heldRound fl with
    | none => s
    | some (n, f) =>
      State.drainRounds fl k ((s.modFloor fl (fun x => { x with held := x.held.filter (fun g => decide (g ≠ f)) })).takeSheafFrame fl
        (s.rd Reg.FLR_PEER.PREV_ID fl n) f)
/-- Every frame whose round has come is taken up. -/
def State.roundsUp (s : State) (fl : Nat) : State := State.drainRounds fl (s.floor fl).held.length s

/-- SHEAF (R334): the partial at the head of a floor entry's REQ queue is folded; without a free fold entry it waits. -/
def execSheaf (floor : FloorId) (row : Fin 256) (s : State) : Host.Outcome State Fault Refusal :=
  let fl := floor.val
  match s.floorHead fl row.val 0 with
  | none => .next s
  | some r =>
    let p := r.1
    if p.ty ≠ 0xC ∨ bits p.body 34 2 = 3 then .next s
    else
      let t := s.tileOf fl p.encl (bits p.body 0 16) (bits p.body 16 16) (bits p.body 34 2)
      if 8192 ≤ s.rd Reg.FLR_STAT.FOLD_USED fl ∧ !t.folding then .next s
      else .next ((r.2.foldPacket fl p).roundsUp fl)

/-- A frame on a port, of TYPE SHEAF or GLEAN, that the command says carries a PASS. -/
def State.ringFrame (s : State) (p ty pass : Nat) (f : LinkFrame) : State :=
  let h := SheafFrame.ofBytes f.body
  if h.pass ≠ pass then s
  else match s.deliver p ty ty f with
    | (none, t) => t
    | (some t, _) => if t.floorState f.floor.val = 0 then (t.takeSheafFrame f.floor.val f.src.toNat h).roundsUp f.floor.val else t

/-- SHEAF_FRAME_REDUCE (R337). -/
def execSheafFrameReduce (port : PortId) (f : LinkFrame) (s : State) : Host.Outcome State Fault Refusal :=
  .next (s.ringFrame port.val 1 0 f)
/-- SHEAF_FRAME_DISTRIBUTE (R338). -/
def execSheafFrameDistribute (port : PortId) (f : LinkFrame) (s : State) : Host.Outcome State Fault Refusal :=
  .next (s.ringFrame port.val 1 1 f)
/-- GLEAN_FIRST_LAP (R346). -/
def execGleanFirstLap (port : PortId) (f : LinkFrame) (s : State) : Host.Outcome State Fault Refusal :=
  .next (s.ringFrame port.val 2 2 f)
/-- GLEAN_SECOND_LAP (R346, R347). -/
def execGleanSecondLap (port : PortId) (f : LinkFrame) (s : State) : Host.Outcome State Fault Refusal :=
  .next (s.ringFrame port.val 2 3 f)

/-- RE_EMIT (R343): a core re-emits the next retained tile that a miss asks for, at the scale and round in force. -/
def execReEmit (core : CoreId) (s : State) : Host.Outcome State Fault Refusal :=
  let c := core.val
  let x := s.core c
  match x.retention.find? Retained.again with
  | none => .next s
  | some r =>
    match s.exactEntry c r.sheaf with
    | none => .next s
    | some j =>
      if 4 < x.emit.length ∨ !s.croftLive (croftOf c) then .next s
      else
        let round := s.rd Reg.EMIT_SCALE.ROUND c j
        let ps := s.tilePackets c r.floor r.sheaf r.tile round (some (sint 9 (s.rd Reg.EMIT_SCALE.S c j)))
          (r.vals.map (fun v => fp32.decode v))
        .next ((s.setCore c { x with
          emit := x.emit ++ ps
          retention := x.retention.map (fun q => if q = r then { q with again := false, round := round } else q) }).emitSync c)

/-! ### Write acknowledgements (R203, R338) -/

/-- R338: a floor's write of a final tile is acknowledged. -/
def State.floorAck (s : State) (fl : Nat) (p : Packet) : State :=
  let n := p.encl
  let a := reqAddr p
  let hit (t : TileX) : Bool := decide (t.encl = n) && decide (t.round = p.tag / 16) && decide (0 < t.acks) &&
    (match s.sheafOf n t.sheaf with
     | some h => decide (partAddr h.g (4 * (h.gFirst + 256 * t.tile) + 256 * (p.tag % 16)) = some a)
     | none => false)
  match (s.floor fl).tiles.find? hit with
  | none => s
  | some t => (s.setTile fl { t with acks := t.acks - 1 }).checkComplete fl n t.sheaf

/-- WR_ACK (R203, R138, R338): at a core its drill's completion, or one write of the harrow's copy; at a floor one write into G. -/
def execWrAck (dest : Requestee) (s : State) : Host.Outcome State Fault Refusal :=
  match dest with
  | .core core =>
    let i := core.val
    match (if s.croftLive (croftOf i) then takeTy 4 (s.ejectOf i 1) else none) with
    | none => .next s
    | some r =>
      let s1 := s.setEject i 1 r.2
      if r.1.kcopy then .next (s1.modCore i (fun c => { c with copyOut := c.copyOut - 1 }))
      else .next (s1.postXfer i r.1.tag r.1.status)
  | .port _ => .next s
  | .floor floor row =>
    match s.floorHead floor.val row.val 1 with
    | none => .next s
    | some r => if r.1.ty = 4 then .next (if s.muted r.1.encl then r.2 else r.2.floorAck floor.val r.1) else .next s

/-! ### The step barrier (R349) -/

/-- The core carries a thread of the enclosure (log entry 21). -/
def State.carries (s : State) (n core : Nat) : Bool := (s.encl n).groups.any (fun g => g.2.contains core)
/-- The non-fallow cores of an enclosure that run its job. -/
def State.runCores (s : State) (n : Nat) : List Nat := ((s.encl n).groups.flatMap (fun g => g.2)).filter (fun c => !s.fallow c)
/-- Floors at which an enclosure has a ring. -/
def State.ringFloors (s : State) (n : Nat) : List Nat :=
  [0, 1].filter (fun fl => decide (s.rd Reg.FLR_RING.VALID fl n = 1) && decide (0 < s.rd Reg.FLR_RING.LEN fl n))
/-- R349: a core that holds at SBAR, its emissions read and its flush buffer empty, sends its marks, once the emission path has room for them
(R331). -/
def State.arriveCore (s : State) (n core : Nat) : State :=
  let x := s.core core
  let emits (q : Option (Nat × ArrInsn)) : Bool := match q with
    | some (_, .emit _ _ _ _) => true
    | _ => false
  let reads := x.rdRun.any (fun r => decide (s.cycle (croftOf core) 0 < r.readEnd))
  let busy := emits x.rdPend || x.arrQ.any (fun a => emits (some a)) || x.flush.isSome || reads
  let step := s.rd Reg.NUM_SR.STEP core
  let ms := (s.ringFloors n).map (fun fl => s.sheafPacket core fl (sheafBody 0 0 0 3 0 0 0 0 0 step) [])
  if x.hold = .sbar ∧ !x.arrived ∧ !busy ∧ x.emit.length + ms.length ≤ 8 then
    (s.setCore core { x with arrived := true, emit := x.emit ++ ms }).emitSync core
  else s

/-- SBAR (R238, R349). -/
def execSbar (core : CoreId) (w : SyncWord) (s : State) : Host.Outcome State Fault Refusal :=
  let i := core.val
  .next (s.issueNext i (w.word 5#4) (decide (w.rsv = 0) && decide (w.hd = 0) && decide (w.hs = 0) && decide (w.cnt = 0)) (fun t =>
    let u := t.modCore i (fun c => { c with hold := .sbar })
    match u.enclOfCore i with
    | some n => u.arriveCore n i
    | none => u))

/-! ### The close of a step (R339, R349, R350) -/

/-- A tile whose local part is complete without partials: a sheaf of zero tiles, or a tally id at the close (R339). -/
def State.closeLocal (s : State) (fl n sheaf tile kind : Nat) : State :=
  let t := s.tileOf fl n sheaf tile kind
  let t1 := { t with loc := some (if kind = 2 then (if t.ints.isEmpty then List.replicate 68 0 else t.ints) else []) }
  (s.setTile fl t1).reduceStep fl t1

/-- R335: a tile that has fewer than CONTRIB partials at the close point. After a miss the partials come again from the retention slots, which
hold every one of them until the sheaf is complete (R332, R343). -/
def State.tileShort (s : State) (n : Nat) (h : Sheaf) (tile : Nat) : Bool :=
  (s.tileOf h.floor n h.num tile (b2n h.exact)).loc.isNone &&
  (decide (s.roundOf h.floor n h.num = 0) ||
   decide (((s.enclCores n).map (fun c => ((s.core c).retention.filter (fun r => decide (r.sheaf = h.num) && decide (r.tile = tile))).length)).sum < h.contrib))

/-- STEP_CLOSE (R349, R350 rows 1 and 2): every core has arrived and every mark is in: the season engines run, tiles short of
partials fault the enclosure, zero-tile and statistics sheaves start. -/
def execStepClose (encl : EnclId) (s : State) : Host.Outcome State Fault Refusal :=
  let n := encl.val
  let x := s.encl n
  if s.rd Reg.ENCL_STATE.STATE (j := n) ≠ 2 ∨ x.closed then .next s
  else
    let cores := s.runCores n
    let s0 := cores.foldl (fun u c => u.arriveCore n c) s
    let here := cores.all (fun c => (s0.core c).arrived && (s0.core c).emit.isEmpty)
    let marked := (s0.ringFloors n).all (fun fl => cores.all (fun c => (s0.floor fl).marks.contains (n, c)))
    let scan := (List.range 48).any (fun t => ((s0.tabko t).cmp.map Prod.fst) = some n)
    if !(here && marked) || scan || cores.isEmpty then .next s0
    else
      let s1 := (s0.updTabkos n).foldl (fun u t => u.openUpdate t n) (s0.modEncl n (fun y => { y with closed := true }))
      let short := x.sheaves.findSome? (fun h => ((List.range h.tiles).find? (fun t => s1.tileShort n h t)).map (fun t => (h, t)))
      match short with
      | some (h, t) => .next (s1.sheafFault h.floor n 0x73 h.num t 0)
      | none =>
        let s2 := (x.sheaves.filter (fun h => decide (h.tiles = 0))).foldl
          (fun u h => u.closeLocal h.floor n h.num 0 (b2n h.exact)) s1
        if x.statSheaf = 0xFFFF then .next s2
        else .next ((x.tally.foldl (fun u d => u.closeLocal x.statFloor n x.statSheaf d.id 2) s2).checkComplete x.statFloor n x.statSheaf)

/-! ### The boundary (R90, R91, R344, R350) -/

/-- R344: the next scale of an exact sheaf from its final values; second: e, when a value is nonzero. -/
def nextScale (q : List Int) (sc : Int) (head : Nat) : Int × Option Int :=
  let m := (q.map Int.natAbs).foldl max 0
  if m = 0 then (sc, none)
  else
    let e : Int := (bitlen m : Int) - 1 + sc
    (clampInt (-160) 127 (e + 1 + head - 31), some e)

/-- R90: the format and σ of the next step from the reduced statistics: HIST[0..63], ZERO, NONFIN, OVF, UNF. -/
def chooseFormat (d : TallyDef) (v : List Int) (csat : Bool) : Nat × Int :=
  let h (b : Nat) : Nat := (v[b]?.getD 0).toNat
  let nonfin := (v[65]?.getD 0).toNat
  let ovf := (v[66]?.getD 0).toNat
  if d.pin then (d.fmt, d.sigma)
  else if 0 < nonfin ∨ csat ∨ 0 < h 63 then (2, 0)
  else
    let n := ((List.range 64).map h).sum
    if n = 0 then (d.fmt, d.sigma)
    else
      let top : Int := ((List.range 64).foldl (fun a b => if 0 < h b then b else a) 0 : Nat)
      let etop := top - 48
      let hd : Int := if 0 < ovf then d.headOvf else d.head
      let try_ (emax emin : Int) : Int × Bool :=
        let sg := clampInt (-64) 63 (emax - hd - etop)
        let lost := ((List.range 64).map (fun (b : Nat) => if b = 0 ∨ (b : Int) - 48 + sg < emin then h b else 0)).sum
        (sg, decide (lost * 2 ^ d.lossShift ≤ n))
      let a := try_ 8 (-6)
      let b := try_ 15 (-14)
      if a.2 then (3, a.1) else if b.2 then (4, b.1) else (2, 0)

/-- An entry of the choice table (R91). -/
def TallyDef.entry (d : TallyDef) : Nat := d.fmt + b2n d.pin * 16 + wrapInt 8 d.sigma * 2 ^ 8
/-- R91: the choice table on every core that runs the job. -/
def State.writeChoices (s : State) (n : Nat) : State :=
  let x := s.encl n
  (s.runCores n).foldl (fun u c => x.tally.foldl (fun v d => v.spWrite c (x.choiceOff + 4 * d.id) 7 (leBytes 4 d.entry)) u) s

/-- Every gleaner comparison of the step is made (R350 row 3). -/
def State.gleanedAll (s : State) (n : Nat) : Bool :=
  [0, 1].all (fun fl => (s.floor fl).tiles.all (fun t => !(decide (t.encl = n) && t.glean) || t.gDone))

/-- The scales of the next step, for one exact sheaf. -/
def State.foldScale (s : State) (n : Nat) (h : Sheaf) : State :=
  match s.scaleEntry h.floor n h.num with
  | none => s
  | some j =>
    let fl := h.floor
    let q := ((s.floor fl).tiles.filter (fun t => decide (t.encl = n) && decide (t.sheaf = h.num))).flatMap (fun t => t.fin.getD [])
    let r := nextScale q (s.scaleOf fl n h.num) (s.encl n).head
    let s1 := (s.wr Reg.FLR_SCALE.S (wrapInt 9 r.1) fl (n * 64 + j)).wr Reg.FLR_SCALE.ROUND 0 fl (n * 64 + j)
    let s2 := match r.2 with
      | some e => (s1.wr Reg.FLR_SCALE.EMAX (wrapInt 9 e) fl (n * 64 + j)).wr Reg.FLR_SCALE.EVALID 1 fl (n * 64 + j)
      | none => s1.wr Reg.FLR_SCALE.EVALID 0 fl (n * 64 + j)
    (s2.enclCores n).foldl (fun u c => match u.exactEntry c h.num with
      | some i => (u.wr Reg.EMIT_SCALE.S (wrapInt 9 r.1) c i).wr Reg.EMIT_SCALE.ROUND 0 c i
      | none => u) s2

/-- The sheaves in ascending number. -/
def EnclX.ascending (x : EnclX) : List Sheaf := sortBy (fun a b => decide (a.num ≤ b.num)) x.sheaves

/-- BOUNDARY_FOLD (R350 row 4): with every sheaf complete, scales and format choices of the next step; retention slots are
freed. -/
def execBoundaryFold (encl : EnclId) (s : State) : Host.Outcome State Fault Refusal :=
  let n := encl.val
  let x := s.encl n
  if !x.closed || x.folded || !s.stepComplete n || !s.gleanedAll n || !x.notices.isEmpty then .next s
  else
    let s1 := x.ascending.foldl (fun u h => if h.exact then u.foldScale n h else u) s
    let defs := x.tally.map (fun d =>
      let t := s.tileOf x.statFloor n x.statSheaf d.id 2
      match t.fin with
      | some v => let c := chooseFormat d v t.csat
                  { d with fmt := c.1, sigma := c.2 }
      | none => d)
    let s2 := (s1.modEncl n (fun y => { y with tally := defs, folded := true })).writeChoices n
    .next ((s2.enclCores n).foldl (fun u c => if (u.core c).retention.isEmpty then u
      else (u.modCore c (fun k => { k with retention := [] })).emitSync c) s2)

/-- Row 6 of R350: the counters of the step that ended, and the next step opened. -/
def State.nextStep (s : State) (n : Nat) : State :=
  let step := (s.rd Reg.ENCL_STATE.STEP (j := n) + 1) % 2 ^ 32
  let s1 := (s.enclCores n).foldl (fun u c =>
    let v := (((u.wr Reg.NUM_SR.STEP step c).wr Reg.NUM_SR_SEQ.SEQ 0 c).wr Reg.VEC_SRSEQ.SEQ 0 c).wr Reg.ARR_CHK.CHK_STEP 0 c
    let w := [0, 1, 2, 3].foldl (fun a d => a.wr Reg.DRL_RUN.SRSEQ 0 c d) v
    (w.wr Reg.EMIT_STAT.TILES 0 c).modCore c (fun x => { x with wCorr := false })) s
  let s2 := s1.wr Reg.ENCL_STATE.STEP step (j := n)
  [0, 1].foldl (fun u fl =>
    let open_ := ((u.allSheaves n).filter (fun p => decide (p.2 = fl))).length
    let v := u.modFloor fl (fun x => { x with
      tiles := x.tiles.filter (fun t => decide (t.encl ≠ n)), marks := x.marks.filter (fun m => decide (m.1 ≠ n))
      held := x.held.filter (fun f => !(decide (f.job = s.rd Reg.ENCL_SHAPE.JOB_ID (j := n)) && decide (f.step = s.rd Reg.ENCL_STATE.STEP (j := n))))
      done := x.done.filter (fun d => decide (d.1 ≠ n)), raised := x.raised.filter (fun r => decide (r.2.1 ≠ n))
      seen := x.seen.filter (fun k => decide (k.head? ≠ some (s.rd Reg.ENCL_SHAPE.JOB_ID (j := n)))) })
    ((v.wr Reg.FLR_ENCL.STEP step fl n).wr Reg.FLR_ENCL.OPEN open_ fl n).foldSync fl) s2

/-- R65, R481: the step's checks ask to fence a core, or R485 brings in its array spare in place of that. -/
def State.checkCore (s : State) (core : Nat) : State :=
  let lim := s.rd Reg.ARR_CHK.CHK_LIMIT core
  if lim ≠ 0 ∧ lim ≤ s.rd Reg.ARR_CHK.CHK_STEP core ∧ !s.fallow core then s.modCore core (fun x => { x with fenceReq := some 1 }) else s

/-- R485: the array spare row can take the place of fencing. -/
def State.spareFits (s : State) (core : Nat) : Bool :=
  decide (s.rd Reg.ARR_CHK.LOC_VALID core = 1) && decide (s.rd Reg.ARR_CHK.LOC_ROW core ≤ 16) && decide (s.rd Reg.ARR_CHK.LOC_COL core ≤ 15) &&
  decide (s.rd Reg.ARR_REPAIR.SPARE_GOOD core = 1) && decide (s.rd Reg.ARR_REPAIR.SPARE_EN core = 0)
/-- R485, R69: the spare row is in service; the fault is cleared, the ledger counts it and holds a record. -/
def State.bringSpare (s : State) (core : Nat) : State :=
  ((((((s.wr Reg.ARR_REPAIR.SPARE_EN 1 core).wr Reg.ARR_REPAIR.BAD_ROW (s.rd Reg.ARR_CHK.LOC_ROW core) core).wr Reg.ARR_STAT.FAULT 0 core).modCore core
    (fun x => { x with fenceReq := none })).ledAdd 112 4 1).ledRecord 5 (detailChange (s.physOf core) 3))

/-- Every Tabko that holds an entry of the enclosure reports its update done (R318). -/
def State.updateDone (s : State) (n : Nat) : Bool :=
  (s.updTabkos n).all (fun t => decide (s.rd Reg.UPD_STAT.DONE t n = 1) && decide (s.rd Reg.UPD_STAT.STEP t n = s.rd Reg.ENCL_STATE.STEP (j := n)))

/-- Row 7 of R350 still waits for the mate's FALLOW frame of this boundary (R484); the wait ends at TAKEOVER, which leaves the yoke
SOLO, and at ABANDON. -/
def State.awaitsMate (s : State) (n : Nat) : Bool :=
  s.yoked n && !(s.encl n).restart && decide ((s.encl n).mateStep ≠ some (s.boundaryStep n))
/-- The Tabkos on which an enclosure holds a region. -/
def State.tabkosOf (s : State) (n : Nat) : List Nat := (List.range 48).filter (fun t => (s.enclsOn t).contains n)

/-- An enclosure uses a holding (R420): a croft, a transit croft or the landing port of a Tabko on which it holds a region;
placed routes run through its crofts and transit crofts. -/
def State.uses (s : State) (n h : Nat) : Bool :=
  decide (s.rd Reg.ENCL_STATE.STATE (j := n) ≠ 0) &&
  ((s.enclHolds n && (s.enclCrofts n).any (fun c => decide (holdingOf c = h))) ||
   (s.encl n).transit.any (fun c => decide (holdingOf c = h)) ||
   (List.range 48).any (fun t => decide (holdingOf (portCroft t) = h) && !(s.regionsOf t n).isEmpty))

/-- The furrow segments of an enclosure. -/
def State.segsOf (s : State) (n : Nat) : List Nat :=
  (List.range 256).filter (fun g => decide (s.rd Reg.FUR_SEG.EN (j := g) = 1) && decide (s.rd Reg.FUR_SEG.ENCL (j := g) = n))

/-- A domain is ON, and neither waits to leave it nor is on its way out (R420). -/
def State.staysOn (s : State) (d : Nat) : Bool :=
  decide (s.rd Reg.PWR_DOM.CUR (j := d) = 0) && decide (s.rd Reg.PWR_DOM.BUSY (j := d) = 0) && decide (s.rd Reg.PWR_DOM.WAITING (j := d) = 0) &&
  (match s.power.card with
   | some c => if d < 16 then !(decide (s.rd Reg.PWR_CTL.PHASE = 1) && decide (bits c.hmask d 1 = 1) && decide (bits c.hstate (2 * d) 2 ≠ 0))
     else !(decide (s.rd Reg.PWR_CTL.PHASE = 2) && decide (bits c.dmask 0 1 = 1) && decide (c.mp ≠ 0))
   | none => true)

/-- RELEASE_NAMING (R148, R234, R238, R350 row 7, R420): the release tick, `ahead` ticks from now and at least 16, withheld while an
operating-point stop waits or goes on; every holding the enclosure uses, and MP, is ON. After a re-sowing the segments start with the
release, which is then a bell. -/
def execReleaseNaming (encl : EnclId) (ahead : Nat) (s : State) : Host.Outcome State Fault Refusal :=
  let n := encl.val
  let x := s.encl n
  let opStop := (s.enclCrofts n ++ x.transit).any (fun c =>
    decide (s.rd Reg.HOLD_OP.BUSY (j := holdingOf c) = 1) || decide (s.rd Reg.HOLD_OP.WAITING (j := holdingOf c) = 1))
  let domains := s.staysOn 16 && (List.range 16).all (fun h => !s.uses n h || s.staysOn h)
  if x.closed && x.checked && x.release.isNone && decide (s.rd Reg.ENCL_STATE.STATE (j := n) = 2) && x.ringWait.isEmpty && !(x.soloWait && decide (s.ykState = 2)) &&
      !(decide (s.yoke.seeding = some n) && s.copying) && !s.awaitsMate n && !opStop && domains &&
      (s.tabkosOf n).all (fun t => (s.tabko t).retrain.isNone && decide (s.rd Reg.TBK_STAT.RECAL_BUSY t = 0)) then
    let r := s.now + max 16 ahead
    if x.restart ∧ !(s.segsOf n).isEmpty then
      let b := (r + 1023) / 1024 * 1024
      .next ((s.segsOf n).foldl (fun t g => t.modSeg g (fun y => { y with startReq := some b })) (s.modEncl n (fun y => { y with release := some b })))
    else .next (s.modEncl n (fun y => { y with release := some r }))
  else .next s

/-- R421: a core back from KEEP goes on at its ENTRY. -/
def State.enterCore (s : State) (core : Nat) : State :=
  if s.rd Reg.HND_STAT.HALTED core = 1 then s
  else ((s.wr Reg.HND_STAT.PC (s.rd Reg.HND_CTL.ENTRY core) core).wr Reg.HND_CYC.CYCLES 0 core).modCore core (fun x => { x with hold := .none, runOff := false })

/-! ### The compare of a step (R407, R502) -/

/-- R407, R473, R502: in a step whose number is a multiple of CMP_EVERY each Tabko of a yoked enclosure claims a yoke compare; a refused
claim, or a U1 at work on another scan, skips it. -/
def State.startCompare (s : State) (n : Nat) : State :=
  let step := s.rd Reg.ENCL_STATE.STEP (j := n)
  let e := s.rd Reg.YK_CTL.CMP_EVERY
  if !s.yoked n ∨ e = 0 ∨ step % e ≠ 0 then s
  else (s.tabkosOf n).foldl (fun u t =>
    let c : Claim := ⟨7, 2, t, 0, 0⟩
    if u.rd Reg.TBK_STAT.READY t = 0 then u
    else if u.claimOk c ∧ (Store.get u.cvus (t * 4 + 1)).isNone then (u.addClaim c).modTabko t (fun x => { x with cmp := some (n, step) })
    else (u.refuseClaim c).incSat Reg.YK_CMPCNT.SKIPPED 1) s
/-- The compare scans of an enclosure are given up. -/
def State.dropCompare (s : State) (n : Nat) : State :=
  (List.range 48).foldl (fun u t => if ((u.tabko t).cmp.map Prod.fst) = some n then
    (u.dropClaims (fun c => decide (c.act = 7) && decide (c.index = t))).modTabko t (fun x => { x with cmp := none }) else u) s

/-! ### Rings (R325, R376) -/

/-- FLR_RING_COMMIT (R325, R376); the ring of an enclosure that joins is committed while it waits in SOWING (R412). -/
def execFlrRingCommit (floor : FloorId) (encl : EnclId) (s : State) : Host.Outcome State Fault Refusal :=
  let fl := floor.val
  let n := encl.val
  let fs := [Reg.FLR_RING.LEN, Reg.FLR_RING.POS, Reg.FLR_RING.NEXT, Reg.FLR_RING.PREV, Reg.FLR_PEER.NEXT_ID, Reg.FLR_PEER.PREV_ID]
  let len := s.stg Reg.FLR_RING.LEN fl n
  let st := s.rd Reg.ENCL_STATE.STATE (j := n)
  let quiet := decide (st = 0) || (decide (st = 1) && decide (s.yoke.seeding = some n)) ||
    (decide (st = 2) && (s.encl n).closed && ((s.allSheaves n).filter (fun p => decide (p.2 = fl))).all (fun p => (s.encl n).checked || (s.floor fl).done.contains (n, p.1)))
  let ports := decide (len < 2) || (s.portPresent (8 * fl + s.stg Reg.FLR_RING.NEXT fl n) && s.portPresent (8 * fl + s.stg Reg.FLR_RING.PREV fl n) &&
    decide (s.stg Reg.FLR_PEER.NEXT_ID fl n ≠ s.moduleId) && decide (s.stg Reg.FLR_PEER.PREV_ID fl n ≠ s.moduleId))
  if !s.anyStaged fs fl n then .next s
  else if decide (len ≤ 16384) && (decide (len = 0) || decide (s.stg Reg.FLR_RING.POS fl n < len)) && ports && quiet then
    .next (((s.applyAll fs fl n).wr Reg.FLR_RING.VALID 1 fl n).modEncl n (fun x => { x with ringWait := x.ringWait.filter (fun f => decide (f ≠ fl)) }))
  else .next ((s.dropAll fs fl n).mismatch (Reg.FLR_RING.COMMIT.addr fl n) skFloor fl)

end Sys2Proof.Machine
end

