-- ==== Sys2Proof/Machine/Clocks.lean ====
section
/-! DEFINITION. Clocks, the almanac and the sync unit (R217-R238): sync instructions, the bell, references, operating points,
and what one almanac tick does. -/

namespace Sys2Proof.Machine

/-! ### The sync unit (R237, R238) -/

/-- Fields of a sync word that its operation does not use are zero (R237). -/
def syncFields (w : SyncWord) (useD useS useC : Bool) : Bool :=
  decide (w.rsv = 0) && (useD || decide (w.hd = 0)) && (useS || decide (w.hs = 0)) && (useC || decide (w.cnt = 0))

/-- TREAD: the croft's estimated tick and remainder. -/
def execTread (core : CoreId) (w : SyncWord) (s : State) : Host.Outcome State Fault Refusal :=
  let i := core.val
  let c := croftOf i
  let p := unitsPerTick (s.opOf c)
  .next (s.issueNext i (w.word 1#4) (syncFields w true false false) (fun t =>
    t.setH i w.hd.toNat (BitVec.ofNat 64 (s.estTick c % 2 ^ 48 + s.estUnits c % p % 2 ^ 8 * 2 ^ 48))))

/-- TWAIT: the hand holds until the croft's tick reaches h[HS][47:0]; a tick that has passed holds nothing. -/
def execTwait (core : CoreId) (w : SyncWord) (s : State) : Host.Outcome State Fault Refusal :=
  let i := core.val
  let tk := bits (s.h i w.hs.toNat).toNat 0 48
  .next (s.issueNext i (w.word 2#4) (syncFields w false true false) (fun t =>
    if tk ≤ s.estTick (croftOf i) then t else t.modCore i (fun c => { c with hold := .twait tk })))

/-- TWAIT_RELEASE: in the first cycle of the awaited tick the hand goes on. -/
def execTwaitRelease (core : CoreId) (s : State) : Host.Outcome State Fault Refusal :=
  let i := core.val
  match (s.core i).hold with
  | .twait tk => .next (if tk ≤ s.estTick (croftOf i) ∧ !s.stopped i then s.releaseHold i else s)
  | _ => .next s

/-- SSEND: a SYNC packet to core h[HS], naming counter CNT (R239). -/
def execSsend (core : CoreId) (w : SyncWord) (s : State) : Host.Outcome State Fault Refusal :=
  let i := core.val
  let dst := bits (s.h i w.hs.toNat).toNat 0 17
  .next (s.issueNext i (w.word 3#4) (syncFields w false true true) (fun t =>
    let p := t.corePacket i 0xB 3 0 dst 0 w.cnt.toNat [] []
    t.modCore i (fun c => { c with ctl := c.ctl ++ [p] })))

/-- The counter has reached the value: (SYN_CNT − value) mod 2^32 lies in 0 to 2^31 − 1. -/
def State.syncMet (s : State) (core cnt value : Nat) : Bool :=
  decide ((s.rd Reg.SYN_CNT.COUNT core cnt + 2 ^ 32 - value % 2 ^ 32) % 2 ^ 32 < 2 ^ 31)

/-- SWAIT: the hand holds until its counter CNT reaches h[HS][31:0]. -/
def execSwait (core : CoreId) (w : SyncWord) (s : State) : Host.Outcome State Fault Refusal :=
  let i := core.val
  let v := bits (s.h i w.hs.toNat).toNat 0 32
  .next (s.issueNext i (w.word 4#4) (syncFields w false true true) (fun t =>
    if s.syncMet i w.cnt.toNat v then t else t.modCore i (fun c => { c with hold := .swait w.cnt.toNat v })))

/-- SWAIT_RELEASE: the condition holds and the hand goes on. -/
def execSwaitRelease (core : CoreId) (s : State) : Host.Outcome State Fault Refusal :=
  let i := core.val
  match (s.core i).hold with
  | .swait cnt v => .next (if s.syncMet i cnt v ∧ !s.stopped i then s.releaseHold i else s)
  | _ => .next s

/-! ### References (R219-R222) -/

/-- Every croft PLL enters or leaves holdover. -/
def State.pllHoldover (s : State) (v : Nat) : State :=
  (List.range 256).foldl (fun t c => if t.croftPresent c ∧ t.rd Reg.CLK_STAT.LOCKED c = 1 then t.wr Reg.CLK_STAT.HOLDOVER v c else t) s

/-- An event of the references: the steading and every enclosure that is not FREE (R240). -/
def State.raiseRef (s : State) (code : Nat) : State :=
  let det := s.copyOf Reg.REF_CTL.ACTIVE
  (List.range 16).foldl (fun t n =>
    if t.rd Reg.ENCL_STATE.STATE (j := n) = 0 then t else t.raiseAt n code skSteading 0 t.now (t.stepOf (some n)) det) (s.raiseSt code det)

/-- R221: a switch begins in this tick. -/
def State.beginSwitch (s : State) : State :=
  { (s.wr Reg.REF_CTL.HOLDOVER 1).pllHoldover 1 with refPhase := .switching s.now false }
/-- R222: neither reference is good. -/
def State.beginLoss (s : State) : State :=
  let t : State := { s with refPhase := .lost s.now }
  ((((t.wr Reg.REF_CTL.HOLDOVER 1).wr Reg.REF_CTL.LOST 1).wr Reg.REF_CTL.ON_OSC 1).pllHoldover 1).raiseRef 0x53

/-- Goodness of a reference: 0 REFA, 1 REFB. -/
def State.refGood (s : State) (r : Nat) : Bool := decide (s.rd (if r = 0 then Reg.REF_CTL.A_GOOD else Reg.REF_CTL.B_GOOD) = 1)
def State.setGood (s : State) (r : Nat) (v : Bool) : State := s.wr (if r = 0 then Reg.REF_CTL.A_GOOD else Reg.REF_CTL.B_GOOD) (b2n v)

/-- The module has started on a reference (R219): the start has reached its last phase. -/
def State.refStarted (s : State) : Bool := decide (8 ≤ s.rd Reg.BOOT_STAT.PHASE) && decide (s.rd Reg.BOOT_STAT.PHASE ≠ 15)

/-- R220: a reference is found not good: the active one brings a switch or the loss, the standby is reported. Before the start
the module runs on none (R219; DEDUCED, log entry 74). A switch in progress goes on while the reference it goes to is good. -/
def State.refFailed (s : State) (r : Nat) : State :=
  let act := s.rd Reg.REF_CTL.ACTIVE
  let s1 := s.setGood r false
  let standby : State := if s.refGood r then s1.raiseSt 0x57 (s1.copyOf Reg.REF_COUNT.A_EDGES) else s1
  match s.refPhase with
  | .lost _ => s1
  | .switching _ selected =>
    if !s1.refGood (1 - r) then s1.beginLoss else if r ≠ act then standby else if selected then s1.beginSwitch else s1
  | .idle => if r ≠ act then standby else if !s.refStarted then s1 else if s1.refGood (1 - r) then s1.beginSwitch else s1.beginLoss

/-- REF_EDGE_LOSS (R220): a reference has had no edge for 30 ns: 0 REFA, 1 REFB. -/
def execRefEdgeLoss (ref : Fin 2) (s : State) : Host.Outcome State Fault Refusal :=
  .next (if !s.stRuns then s
    else
      let t : State := { s with refLoss := Store.put s.refLoss ref.val s.now }
      if s.refGood ref.val then t.refFailed ref.val else t)

/-- SELECT (R220): a write of REF_CTL.SELECT while the standby is good. A write while a switch or a loss goes on is ignored (DESIGN
CHOICE, log entry 77). -/
def execSelect (s : State) : Host.Outcome State Fault Refusal :=
  .next (if s.refPhase = .idle ∧ s.refGood (1 - s.rd Reg.REF_CTL.ACTIVE) then s.beginSwitch else s)

/-- A croft's count is to come apart from the almanac, by at most 2 tk over the switch (R221). -/
def State.driftCroft (s : State) (c : Nat) (d : Int) : State :=
  let lim : Int := (2 * unitsPerTick (s.opOf c) : Nat)
  if (s.croft c).clock then s.modCroft c (fun x => { x with drift := clampInt (-lim) lim d }) else s

/-- REF_SWITCH_SELECT (R221): at d + 8 the other reference is selected, and `drift` gives the units by which crofts' counts come apart
from the almanac from now to d + 64. A reference that is not good any more is left again at once (R220). -/
def execRefSwitchSelect (drift : List (CroftId × Int)) (s : State) : Host.Outcome State Fault Refusal :=
  match s.refPhase with
  | .switching d false =>
    if d + 8 ≤ s.now then
      let act := 1 - s.rd Reg.REF_CTL.ACTIVE
      let s1 : State := { s.wr Reg.REF_CTL.ACTIVE act with refPhase := .switching d true }
      let s2 := drift.foldl (fun t p => t.driftCroft p.1.val p.2) s1
      .next (if s.refGood act then s2 else s2.beginSwitch)
    else .next s
  | _ => .next s

/-- REF_SWITCH (R221): at d + 64 holdover ends. -/
def execRefSwitch (s : State) : Host.Outcome State Fault Refusal :=
  match s.refPhase with
  | .switching d true =>
    .next (if d + 64 ≤ s.now then
        ({ ((s.wr Reg.REF_CTL.HOLDOVER 0).pllHoldover 0).incSat Reg.REF_CTL.SWITCHES 1 with refPhase := .idle } : State).raiseRef 0x52
      else s)
  | _ => .next s

/-- The cores of an enclosure halt with CAUSE 4 as it is faulted (R222). -/
def State.lossFault (s : State) (n : Nat) : State :=
  let st := s.rd Reg.ENCL_STATE.STATE (j := n)
  if st = 1 ∨ st = 2 ∨ st = 3 then (s.enclCores n).foldl (fun u c => if u.fallow c then u else u.haltCore c 4) (s.faultEncl n 0x53 s.now) else s

/-- The PLLs of a holding lock or release lock. -/
def State.lockPll (s : State) (h v : Nat) : State := (croftsOfHolding h).foldl (fun t c => t.wr Reg.CLK_STAT.LOCKED v c) s
/-- The clocks of a holding are gated. -/
def State.gateHolding (s : State) (h : Nat) : State :=
  (croftsOfHolding h).foldl (fun t c => if (t.croft c).clock then t.modCroft c CroftX.gated else t) s

/-- A holding's clocks stop; it reads OP4 until a card commands a point, so a stop that waits or goes on ends (R222, R236). -/
def State.stopClocks (s : State) (h : Nat) : State :=
  let s1 := ((s.gateHolding h).lockPll h 0).wr Reg.HOLD_OP.CUR 4 (j := h)
  if s1.rd Reg.HOLD_OP.BUSY (j := h) = 0 ∧ s1.rd Reg.HOLD_OP.WAITING (j := h) = 0 then s1
  else
    let s2 := (s1.wr Reg.HOLD_OP.BUSY 0 (j := h)).wr Reg.HOLD_OP.WAITING 0 (j := h)
    let p := s2.power
    let s3 : State := { s2 with power := { p with
      opAt := p.opAt.filter (fun o => decide (o.1 ≠ h))
      card := p.card.map (fun c => { c with opmask := c.opmask - bits c.opmask h 1 * 2 ^ h }) } }
    s3.dropClaims (fun c => decide (c.act = 5) && decide (c.index = h))

/-- R222: no croft clock runs for want of a reference. -/
def State.clocksLost (s : State) : Bool := decide (s.rd Reg.REF_CTL.LOST = 1) && decide (s.rd Reg.REF_CTL.HOLDOVER = 0)

/-- LOSS_HALT (R222): at d + 1,024 every enclosure is faulted and every holding's clocks stop. -/
def execLossHalt (s : State) : Host.Outcome State Fault Refusal :=
  match s.refPhase with
  | .lost d =>
    if d + 1024 ≤ s.now ∧ s.rd Reg.REF_CTL.HOLDOVER = 1 then
      let s1 := (List.range 16).foldl (fun t n => t.lossFault n) ((s.wr Reg.REF_CTL.HOLDOVER 0).pllHoldover 0)
      .next ((List.range 16).foldl (fun t h => if t.holdPresent h then t.stopClocks h else t) s1).rebuild
    else .next s
  | _ => .next s

/-- REF_RELOCK (R222): a reference good for 1,024 tk takes the almanac master back. -/
def execRefRelock (ref : Fin 2) (s : State) : Host.Outcome State Fault Refusal :=
  match s.refPhase with
  | .lost d =>
    if s.rd Reg.REF_CTL.HOLDOVER = 0 ∧ d + 1024 ≤ s.now ∧ s.refGood ref.val then
      .next { ((s.wr Reg.REF_CTL.LOST 0).wr Reg.REF_CTL.ON_OSC 0).wr Reg.REF_CTL.ACTIVE ref.val with refPhase := .idle }
    else .next s
  | _ => .next s

/-! ### Margin (R224, R225) -/

/-- RUN_OUT (R224). -/
def execRunOut (croft : CroftId) (s : State) : Host.Outcome State Fault Refusal :=
  let c := croft.val
  let s1 := s.wr Reg.CLK_MON.RUNOUT 1 c
  .next (if (s.croft c).clock then s1.raiseCroft 0x54 c (s1.copyOf Reg.CLK_MON.WARN_LIMIT c) else s)

/-! ### The bell (R220, R225, R227, R229, R232, R373) -/

/-- R229: one croft corrects its estimate; R225: its stretched periods. -/
def State.bellCroft (s : State) (c : Nat) (r : Option BellReport) : State :=
  if !(s.croftPresent c && (s.croft c).clock) then s
  else
    let samp : Int := match r with
      | some x => (x.sample.val : Int) - 20
      | none => 0
    let p : Int := (unitsPerTick (s.opOf c) : Nat)
    let e := samp + ((s.now : Int) * p - ((s.croft c).est : Int))
    let slew : Int := if e.natAbs ≤ 20 then 0 else clampInt (-p) p e
    let s1 := (s.modCroft c (fun x => { x with slew := slew })).wr Reg.CLK_STAT.ERR (wrapInt 16 e) c
    let s2 := if p.natAbs < e.natAbs then
        let t := s1.incSat Reg.CLK_STAT.SLIPS 1 c
        t.raiseCroft 0x55 c (t.copyOf Reg.CLK_STAT.OP c)
      else s1
    match r with
    | none => (s2.wr Reg.CLK_MON.LAST_COUNT 0 c).wr Reg.CLK_MON.WARN_MAP 0 c
    | some x =>
      let n := x.s25.toNat + x.s50.toNat
      let s3 := (((s2.incWrap Reg.CLK_STRETCH.S25 x.s25.toNat c).incWrap Reg.CLK_STRETCH.S50 x.s50.toNat c).wr
        Reg.CLK_MON.LAST_COUNT (min n 0xFFFF) c).wr Reg.CLK_MON.WARN_MAP x.warn.toNat c
      let lim := s3.rd Reg.CLK_MON.WARN_LIMIT c
      if lim ≠ 0 ∧ lim < n then s3.raiseCroft 0x54 c (s3.copyOf Reg.CLK_MON.WARN_LIMIT c) else s3

/-- R232: slack values written since the last bell take effect; a change rebuilds the tables. -/
def State.bellSlack (s : State) : State :=
  let want (c : Nat) : Nat := s.rd Reg.HL_SLACK.S_N c + s.rd Reg.HL_SLACK.S_E c * 4 + s.rd Reg.HL_SLACK.S_S c * 16 + s.rd Reg.HL_SLACK.S_W c * 64
  let ch := (List.range 256).filter (fun c => decide (want c ≠ (s.croft c).slack))
  if ch.isEmpty then s else (ch.foldl (fun t c => t.modCroft c (fun x => { x with slack := want c })) s).rebuild

/-- R220: edge counts of the ending interval. -/
def State.bellRefs (s : State) (a b : Nat) : State :=
  let lost (r : Nat) : Bool := match Store.get s.refLoss r with
    | some t => decide (s.now ≤ t + 1024)
    | none => false
  let one (t : State) (r n : Nat) : State :=
    if n < 950 ∨ 975 < n then t.refFailed r else if lost r then t else t.setGood r true
  let s1 := (s.wr Reg.REF_COUNT.A_EDGES a).wr Reg.REF_COUNT.B_EDGES b
  -- the standby first, so that a switch is decided on this interval's counts
  if s1.rd Reg.REF_CTL.ACTIVE = 0 then one (one s1 1 b) 0 a else one (one s1 0 a) 1 b

/-- R371, R373: a port's codewords of the ending interval. -/
def State.bellPort (s : State) (r : PortReport) : State :=
  let p := r.port.val
  if !s.portPresent p then s
  else
    let s1 := ((s.incWrap Reg.BLN_FEC.CORR_CW r.corr.toNat p).incSat Reg.BLN_FEC.UNCORR_CW r.bad.toNat p).modPort p
      (fun x => { x with badBell := r.bad.toNat })
    let s2 := ((s1.wr Reg.BLN_OPTICS.TEMP r.temp.toNat p).wr Reg.BLN_OPTICS.TXPWR_MIN r.tx.toNat p).wr Reg.BLN_OPTICS.RXPWR_MIN r.rx.toNat p
    let lim := s2.rd Reg.BLN_CTL.MARGIN_LIMIT p
    if lim ≠ 0 ∧ lim * 1024 < r.corr.toNat ∧ s2.portState p = 6 then s2.raiseUnit 0x83 skPort p (s2.copyOf Reg.BLN_FEC.CORR_CW p) else s2

/-- R306, R429, R450, R508: sensor readings and Tabko counts of the ending interval. -/
def State.bellSensors (s : State) (x : Sensors) : State :=
  let s1 := ((s.wr Reg.PWR_METER.WATTS x.watts.toNat).wr Reg.PWR_METER.VOLTS x.volts.toNat).wr Reg.PWR_METER.AMPS x.amps.toNat
  let s2 := x.holds.foldl (fun t r => ((t.wr Reg.PWR_HOLD.TJ_MAX r.tj.toNat (j := r.hold.val)).wr Reg.PWR_HOLD.I_CORE r.amps.toNat
    (j := r.hold.val)).wr Reg.PWR_HOLD.MILLIVOLTS r.mv.toNat (j := r.hold.val)) s1
  let top : Nat := (x.holds.map (fun r => r.tj.toNat)).foldl max 0
  let s2 := x.tabkos.foldl (fun t r => if t.tabkoPresent r.tabko.val then
    (t.incWrap Reg.TBK_WHEEL.REVS r.revs.toNat r.tabko.val).incSat Reg.TBK_LINK.REPLAYS r.replays.toNat r.tabko.val else t) s2
  let tr := s2.trust
  let fall := tr.hot && decide (top < 40) && !x.holds.isEmpty
  let s3 := if fall then s2.ledAdd 36 4 1 else s2
  { s3 with
    power := { s3.power with studs := x.studs.map BitVec.toNat, pairs := x.pairs.map BitVec.toNat }
    trust := { s3.trust with hot := (tr.hot && !fall) || decide (80 < top), hourMax := max tr.hourMax top } }

/-- BELL (R227): at every multiple of 1,024 tk, once. -/
def execBell (a b : BitVec 16) (crofts : List BellReport) (ports : List PortReport) (sens : Sensors) (s : State) :
    Host.Outcome State Fault Refusal :=
  if s.now % 1024 ≠ 0 ∨ s.bellAt = some s.now ∨ !s.stRuns then .next s
  else
    let s1 := ({ s with bellAt := some s.now } : State).bellRefs a.toNat b.toNat
    let s2 := (List.range 256).foldl (fun t c => t.bellCroft c (crofts.find? (fun r => decide (r.croft.val = c)))) s1
    .next ((ports.foldl (fun t r => t.bellPort r) s2.bellSlack).bellSensors sens)

/-! ### Operating points (R234-R236) -/

/-- R234: the enclosure is at a step boundary, with no transfer in flight and no segment running in the holding. -/
def State.restsFor (s : State) (n h : Nat) : Bool :=
  s.atBoundary n && (s.encl n).release.isNone && (s.enclCores n).all (fun c => (s.core c).drills.all (fun d => d.out.isEmpty && d.orphans.isEmpty)) &&
  (List.range 256).all (fun g => !(decide (s.rd Reg.FUR_RUN.RUN (j := g) = 1) &&
    (s.segCrofts g).any (fun c => decide (holdingOf c = h))))

/-- R147: segments that run in the holding are stopped, those of an enclosure at its step boundary. -/
def State.stopForOp (s : State) (h : Nat) : State :=
  (List.range 256).foldl (fun t g =>
    if t.rd Reg.FUR_RUN.RUN (j := g) = 1 ∧ (t.seg g).stopReq.isNone ∧ (t.segCrofts g).any (fun c => decide (holdingOf c = h)) ∧
        t.atBoundary (t.rd Reg.FUR_SEG.ENCL (j := g)) then t.modSeg g (fun x => { x with stopReq := some (s.now + 1) })
    else t) s
/-- OP_STOP_BEGIN (R147, R234, R235): at a bell, once every enclosure that has a croft in the holding or routes through it is at rest,
the holding's stop begins; until then segments that run in it are stopped at their enclosures' boundaries. -/
def execOpStopBegin (hold : HoldId) (s : State) : Host.Outcome State Fault Refusal :=
  let h := hold.val
  if s.rd Reg.HOLD_OP.WAITING (j := h) = 1 ∧ s.now % 1024 = 0 ∧ (List.range 16).all (fun n => !s.uses n h || s.restsFor n h) then
    let s1 := (s.wr Reg.HOLD_OP.WAITING 0 (j := h)).wr Reg.HOLD_OP.BUSY 1 (j := h)
    .next { s1 with power := { s1.power with opAt := s1.power.opAt ++ [(h, s.now)] } }
  else .next (if s.rd Reg.HOLD_OP.WAITING (j := h) = 1 then s.stopForOp h else s)

/-- The crofts of a holding begin to run at an operating point: estimates loaded, arrays cold; at OP4 the clocks stay stopped. -/
def State.runHolding (s : State) (h op : Nat) : State :=
  (croftsOfHolding h).foldl (fun t c =>
    let u := (t.modCroft c (fun x => if op = 4 then x.gated else x.started (s.now * unitsPerTick op))).wr Reg.CLK_STAT.LOCKED (b2n (decide (op ≠ 4))) c
    (coresOfCroft c).foldl (fun v i => v.chill i) u) (s.wr Reg.HOLD_OP.CUR op (j := h))

/-- The end of a stop (R235). A point commanded while neither reference is good runs the clocks all the same (DESIGN CHOICE, log
entry 77). -/
def State.endOpStop (s : State) (h : Nat) : State :=
  let s1 := (s.runHolding h (s.rd Reg.HOLD_OP.TARGET (j := h))).wr Reg.HOLD_OP.BUSY 0 (j := h)
  let s2 := (s1.incSat Reg.HOLD_OP.CHANGES 1 (j := h)).wr Reg.HOLD_OP.LAST_END s.now (j := h)
  let s3 : State := { s2 with power := { s2.power with opAt := s2.power.opAt.filter (fun p => decide (p.1 ≠ h)) } }
  ((s3.raiseUnit 0x56 skDomain h (s3.copyOf Reg.HOLD_OP.CUR 0 h)).dropClaims
    (fun c => decide (c.act = 5) && decide (c.index = h))).rebuild

/-! ### One tick (R226, R228, R229, R235, R450) -/

/-- A croft through one tick of its clock: its cycles, each of which adds its units and slews by one (R228, R229), and a part of what
a switch of the reference has still to add, in cycles more or fewer, with `left` ticks to its end and never so much that a count steps
(R221; the even parts are DESIGN CHOICE, log entry 58). In a stall the cycles count as stalled. -/
def CroftX.run (p left : Nat) (x : CroftX) : CroftX :=
  if !x.clock then x
  else
    let lim : Int := (p / 28 + 1 : Nat)
    let q := clampInt (-lim) lim (if left ≤ 1 then x.drift else x.drift.tdiv left + x.drift.sign)
    let q := clampInt (-(x.drift.natAbs : Int)) x.drift.natAbs q
    let run := ((p : Int) + q).toNat
    let n : Int := (ceilDiv (x.cyc20 + run) 20 - ceilDiv x.cyc20 20 : Nat)
    let d := clampInt (-n) n x.slew
    { x with
      est := ((x.est : Int) + run + d).toNat, slew := x.slew - d, drift := x.drift - q, cyc20 := x.cyc20 + run
      lag20 := if x.stall.isSome then x.lag20 + run else x.lag20 }
/-- Ticks that a switch of the reference has still to go. -/
def State.switchLeft (s : State) : Nat := match s.refPhase with
  | .switching d _ => d + 64 - s.now
  | _ => 0

/-- Ticks in a second, and in an hour (R226). -/
def ticksPerSecond : Nat := 106250000

/-- R450: what the ledger counts each second, and each minute. -/
def State.second (s : State) : State :=
  let s1 := s.ledAdd 0 8 1
  let s2 := if s.now / ticksPerSecond % 60 = 0 then
      (List.range 16).foldl (fun t h => if t.holdPresent h ∧ t.rd Reg.PWR_DOM.CUR (j := h) = 0 ∧ t.rd Reg.HOLD_OP.CUR (j := h) ≤ 4 then
        t.ledAdd (8 + 4 * t.rd Reg.HOLD_OP.CUR (j := h)) 4 1 else t) s1
    else s1
  let j := s2.trust.joules + s2.rd Reg.PWR_METER.WATTS
  let s3 := if j / 3600 = 0 then s2 else s2.ledAdd 28 8 (j / 3600)
  let s4 : State := { s3 with trust := { s3.trust with joules := j % 3600 } }
  (List.range 16).foldl (fun t p =>
    if 2 ≤ t.portState p then
      let n := Store.getD t.trust.lit p 0 + 1
      let u : State := { t with trust := { t.trust with lit := Store.put t.trust.lit p (n % 3600) } }
      if n = 3600 then (u.ledAdd (128 + 4 * p) 4 1).incSat Reg.BLN_LASER.HOURS 1 p else u
    else t) s4

/-- One tick of the almanac: crofts run; holdings in a stop or on their way out of ON lose their clocks after 128 tk, in a stop their
PLLs' lock too (R235). -/
def State.tick (s : State) : State :=
  if !s.stRuns then s
  else
    let s1 : State := (s.wr Reg.ALM_TICK.TICK (s.now + 1))
    let s2 : State := { s1 with
      crofts := s.crofts.map (fun p => (p.1, p.2.run (unitsPerTick (s.opOf p.1)) s.switchLeft)) }
    let stops := (s2.power.opAt.filter (fun p => decide (p.2 + 128 ≤ s2.now))).map Prod.fst
    let leave := (s2.power.chg.filter (fun c => decide (c.dom < 16) && decide (c.from_ = 0) && decide (c.start + 128 ≤ s2.now))).map DomChg.dom
    let s3 := leave.foldl (fun t h => t.gateHolding h) (stops.foldl (fun t h => (t.gateHolding h).lockPll h 0) s2)
    if s3.now % ticksPerSecond = 0 then s3.second else s3

end Sys2Proof.Machine
end

