-- ==== Sys2Proof/Machine/CfgImage.lean ====
section
/-! DEFINITION. The configuration image as records (R442, R443). -/

namespace Sys2Proof.Machine

/-- A record of a configuration image: TYPE, where its record header starts, LEN. -/
structure CfgRec where
  ty : Nat
  at_ : Nat
  len : Nat
  deriving DecidableEq, Repr

/-- Records in order from byte `o`, `n` of them at most (R442). -/
def cfgRecsFrom (img : List Byte) : Nat → Nat → List CfgRec
  | 0, _ => []
  | n + 1, o =>
    let len := leNat (slice img (o + 4) 4)
    ⟨leNat (slice img o 2), o, len⟩ :: cfgRecsFrom img n (o + ceilDiv (16 + len) 64 * 64)
/-- The records of an image. -/
def cfgRecs (img : List Byte) : List CfgRec := cfgRecsFrom img (leNat (slice img 10 2)) 64
/-- The body of the first record of a type. -/
def cfgBody (img : List Byte) (ty : Nat) : Option (List Byte) :=
  ((cfgRecs img).find? (fun r => decide (r.ty = ty))).map (fun r => slice img (r.at_ + 16) r.len)
/-- A number of the body of a record of the accepted configuration; 0 without one. -/
def State.cfgNum (s : State) (ty o n : Nat) : Nat :=
  match s.trust.cfg.bind (fun img => cfgBody img ty) with
  | some b => leNat (slice b o n)
  | none => 0
/-- CHK_LIMIT and SLACK_FLOOR of the PLACEMENT record (R443). -/
def State.cfgChkLimit (s : State) : Nat := s.cfgNum 0x07 0 1
def State.cfgSlackFloor (s : State) : Nat := s.cfgNum 0x07 1 1

end Sys2Proof.Machine
end

