-- ==== Sys2Proof/Machine/Lot.lean ====
section
/-! DEFINITION. The seed lot (R252-R262, R308-R310, R326, R327): its sections as data, and the checks of phase 1 of sowing. -/

namespace Sys2Proof.Machine

/-- A refusal (R274): subcode, section type, ITEM, NEED, HAVE. -/
structure Refuse where
  sub : Nat
  sect : Nat
  item : Nat
  need : Nat
  have_ : Nat
  deriving DecidableEq, Repr

/-- What a phase of sowing gives, or its refusal. -/
abbrev Res (α : Type) := Except Refuse α

/-- A condition, or its refusal. -/
def need (ok : Bool) (r : Refuse) : Res Unit := if ok then .ok () else .error r
/-- A FORMAT condition: section type and byte offset. -/
def fmtOk (sect off : Nat) (ok : Bool) : Res Unit := need ok ⟨0x01, sect, off, 0, 0⟩

/-- Little-endian number of `n` bytes at an offset (R10). -/
def numAt (b : List Byte) (o n : Nat) : Nat := leNat (slice b o n)
/-- The fields given, offset and length, are zero; the refusal names the first that is not. -/
def zeroFields (sect base : Nat) (b : List Byte) (fs : List (Nat × Nat)) : Res Unit :=
  match fs.find? (fun f => decide (numAt b f.1 f.2 ≠ 0)) with
  | some f => .error ⟨0x01, sect, base + f.1, 0, 0⟩
  | none => .ok ()

/-! ### Sections as data -/

/-- A section-table entry (R253): its place in the table, type, COUNT, OFFSET, LENGTH. -/
structure Sect where
  ent : Nat
  ty : Nat
  count : Nat
  off : Nat
  len : Nat
  deriving DecidableEq, Repr

/-- PROFILE (R258). -/
structure Profile where
  crows : Nat
  ccols : Nat
  share : Nat
  desc : Nat × Nat
  treeOff : Nat
  choiceOff : Nat
  yokeOff : Option Nat
  user : Nat × Nat
  slowBytes : Nat
  deriving DecidableEq, Repr

/-- A tensor entry (R255). -/
structure TensorE where
  tid : Nat
  tier : Nat
  fmt : Nat
  life : Nat
  flags : Nat
  bytes : Nat
  src : Nat
  group : Nat
  deriving DecidableEq, Repr

/-- A relocation (R256). -/
structure Reloc where
  word : Nat
  kind : Nat
  tid : Nat
  arg : Nat
  deriving DecidableEq, Repr

/-- A code image (R257). -/
structure Image where
  words : List Nat
  relocs : List Reloc
  deriving DecidableEq, Repr

/-- A thread group (R259). -/
structure GroupE where
  id : Nat
  image : Nat
  shape : Nat
  crows : Nat
  ccols : Nat
  seg : Nat
  threads : Nat
  entry : Nat
  deriving DecidableEq, Repr

/-- A segment entry (R260). -/
structure SegE where
  row0 : Nat
  col0 : Nat
  crows : Nat
  ccols : Nat
  lap : Nat
  deriving DecidableEq, Repr

/-- A furrow plan entry (R260). -/
structure PlanE where
  seg : Nat
  kind : Nat
  lane : Nat
  group : Nat
  thread : Nat
  word : Nat
  tiles : Nat
  beat : Nat
  laps : Nat
  deriving DecidableEq, Repr

/-- A gate window entry (R261). -/
structure WinE where
  group : Nat
  thread : Nat
  tid : Nat
  gate : Nat
  deriving DecidableEq, Repr

/-- A credit entry (R261). -/
structure CreditE where
  sgroup : Nat
  sthread : Nat
  tgroup : Nat
  tthread : Nat
  gate : Nat
  deriving DecidableEq, Repr

/-- A multicast group entry (R261): its gate and rectangle words. -/
structure MGroupE where
  gate : Nat
  rects : List Nat
  deriving DecidableEq, Repr

/-- A point entry (R261). -/
structure PointE where
  group : Nat
  word : Nat
  gate : Nat
  kind : Nat
  mgroup : Nat
  deriving DecidableEq, Repr

/-- A DRILLS entry (R262). -/
structure DrillE where
  group : Nat
  outs : List Nat
  deriving DecidableEq, Repr

/-- A sheaf entry (R327). -/
structure SheafE where
  num : Nat
  kind : Nat
  floor : Nat
  tiles : Nat
  contrib : Nat
  gTid : Nat
  gFirst : Nat
  sInit : Int
  deriving DecidableEq, Repr

/-- An update entry (R310). -/
structure UpdE where
  sheaf : Nat
  set : Nat
  w : Nat
  m : Nat
  g : Nat
  c : Nat
  first : Nat
  count : Nat
  deriving DecidableEq, Repr

/-- A CHECKS entry (R262). -/
structure CheckE where
  group : Nat
  limit : Nat
  scrub : Nat
  hold : Nat
  deriving DecidableEq, Repr

/-- A whole seed lot. Reserved codes of the UPDATE section are kept for phase 9 (R311). -/
structure Lot where
  srSeed : Nat
  crc : Nat
  profile : Profile
  tensors : List TensorE
  images : List Image
  groups : List GroupE
  segs : List SegE
  plans : List PlanE
  wins : List WinE
  credits : List CreditE
  mgroups : List MGroupE
  points : List PointE
  drills : List DrillE
  /-- SHEAVES header: STAT_SHEAF, STAT_FLOOR, HEAD. -/
  stat : Option (Nat × Nat × Nat)
  sheaves : List SheafE
  tally : Option (List TallyDef)
  /-- UPDATE header: RULE and SEASON_BASE. -/
  rule : Nat
  season : Nat
  /-- Sets, each with whether a code of it is reserved. -/
  sets : List (UpdSet × Bool)
  updates : List UpdE
  checks : List CheckE
  deriving DecidableEq, Repr

/-! ### Header and section table (R252-R254) -/

/-- The names of the section types are known up to this one. -/
def lastSection : Nat := 0x000B

/-- The header and the section table of a lot whose card gives `bytes`: every check of R252-R254, in the order of R268. -/
def parseTable (lot : List Byte) (bytes : Nat) : Res (List Sect) := do
  fmtOk 0 0 (decide (slice lot 0 8 = [0x4B, 0x5A, 0x53, 0x45, 0x45, 0x44, 0x4C, 0x54]))
  fmtOk 0 12 (decide (numAt lot 12 2 = 1))
  let n := numAt lot 14 2
  fmtOk 0 14 (decide (1 ≤ n) && decide (n ≤ 64))
  fmtOk 0 16 (decide (numAt lot 16 8 = bytes) && decide (64 + 32 * n ≤ bytes) && decide (lot.length = bytes))
  zeroFields 0 0 lot [(28, 4), (36, 28)]
  let ents := (List.range n).map (fun k =>
    let e := 64 + 32 * k
    (⟨e, numAt lot e 2, numAt lot (e + 4) 4, numAt lot (e + 8) 8, numAt lot (e + 16) 8⟩ : Sect))
  ents.forM (fun s => do
    zeroFields s.ty s.ent (slice lot s.ent 32) [(3, 1), (28, 4)]
    fmtOk s.ty (s.ent + 2) (decide (numAt lot (s.ent + 2) 1 < 2))
    fmtOk s.ty s.ent (!(decide (s.ty = 0 ∨ lastSection < s.ty) && decide (numAt lot (s.ent + 2) 1 = 1)))
    fmtOk s.ty s.ent (!ents.any (fun t => decide (t.ty = s.ty) && decide (t.ent < s.ent)))
    fmtOk s.ty (s.ent + 8) (decide (s.off % 64 = 0))
    fmtOk s.ty (s.ent + 16) (decide (s.off + s.len ≤ bytes)))
  let head := slice lot 0 32 ++ List.replicate 4 0 ++ slice lot 36 (28 + 32 * n)
  fmtOk 0 32 (decide (crc32c head = numAt lot 32 4))
  ents.forM (fun s => fmtOk s.ty (s.ent + 24) (decide (crc32c (slice lot s.off s.len) = numAt lot (s.ent + 24) 4)))
  need (decide (numAt lot 8 2 = 1) && decide (numAt lot 10 2 = 0)) ⟨0x02, 0, 0xFFFFFFFF, numAt lot 8 2 * 2 ^ 16 + numAt lot 10 2, 2 ^ 16⟩
  [1, 2, 3, 4].forM (fun ty => fmtOk ty 64 (ents.any (fun s => decide (s.ty = ty))))
  pure ents

/-! ### Sections -/

/-- The entries of a section: `n` of `w` bytes from byte `o` of the section, each parsed from its bytes and its byte offset in the
lot. -/
def entries {α : Type} (lot : List Byte) (s : Sect) (o w n : Nat) (f : Nat → List Byte → Res α) : Res (List α) := do
  fmtOk s.ty (s.ent + 16) (decide (o + w * n ≤ s.len))
  (List.range n).mapM (fun k => f (s.off + o + w * k) (slice lot (s.off + o + w * k) w))

/-- The ids of a list do not repeat; the refusal names the byte offset `base + w · k` of the first entry that repeats one. -/
def distinctIds (sect base w : Nat) (ids : List Nat) : Res Unit :=
  match (List.range ids.length).find? (fun k => (ids.take k).contains (ids[k]?.getD 0)) with
  | some k => .error ⟨0x01, sect, base + w * k, 0, 0⟩
  | none => .ok ()

/-- PROFILE (R258) but for what depends on other sections. -/
def parseProfile (lot : List Byte) (s : Sect) : Res Profile := do
  fmtOk 1 (s.ent + 4) (decide (s.count = 1))
  let ps ← entries lot s 0 64 1 (fun a b => do
    let crows := numAt b 0 1
    let ccols := numAt b 1 1
    let share := numAt b 2 1
    fmtOk 1 a (decide (1 ≤ crows) && decide (crows ≤ 16))
    fmtOk 1 (a + 1) (decide (1 ≤ ccols) && decide (ccols ≤ 16))
    fmtOk 1 (a + 2) (decide (share = 0) || (decide (8 ≤ share) && decide (share ≤ 60)))
    zeroFields 1 a b [(3, 1), (40, 24)]
    let y := numAt b 20 4
    pure ({ crows := crows, ccols := ccols, share := share, desc := (numAt b 4 4, numAt b 8 4), treeOff := numAt b 12 4
            choiceOff := numAt b 16 4, yokeOff := if y = 0xFFFFFFFF then none else some y, user := (numAt b 24 4, numAt b 28 4)
            slowBytes := numAt b 32 8 } : Profile))
  match ps with
  | p :: _ => pure p
  | [] => .error ⟨0x01, 1, s.ent + 4, 0, 0⟩

/-- TENSORS (R255). -/
def parseTensors (lot : List Byte) (s : Sect) : Res (List TensorE) := do
  let ts ← entries lot s 0 32 s.count (fun a b => do
    let life := numAt b 6 1
    fmtOk 2 (a + 4) (decide (numAt b 4 1 ≤ 3))
    fmtOk 2 (a + 5) (decide (numAt b 5 1 ≤ 9))
    fmtOk 2 (a + 6) (decide (life ≤ 3))
    fmtOk 2 (a + 7) (decide (numAt b 7 1 < 16))
    fmtOk 2 (a + 16) (decide (life = 1) || decide (numAt b 16 4 = 0xFFFFFFFF))
    zeroFields 2 a b [(24, 8)]
    pure (⟨numAt b 0 4, numAt b 4 1, numAt b 5 1, life, numAt b 7 1, numAt b 8 8, numAt b 16 4, numAt b 20 4⟩ : TensorE))
  distinctIds 2 s.off 32 (ts.map TensorE.tid)
  pure ts

/-- The images of the CODE section from byte `o` of it (R257). -/
def parseImages (lot : List Byte) (s : Sect) : Nat → Nat → Res (List Image)
  | 0, _ => pure []
  | n + 1, o => do
    fmtOk 3 (s.ent + 16) (decide (o + 16 ≤ s.len))
    let a := s.off + o
    let w := numAt lot a 4
    let r := numAt lot (a + 4) 4
    zeroFields 3 a (slice lot a 16) [(8, 8)]
    let size := 16 + 8 * w + 16 * r
    fmtOk 3 (s.ent + 16) (decide (o + size ≤ s.len))
    let words := (List.range w).map (fun k => numAt lot (a + 16 + 8 * k) 8)
    let relocs ← (List.range r).mapM (fun k => do
      let b := a + 16 + 8 * w + 16 * k
      zeroFields 3 b (slice lot b 16) [(5, 3)]
      fmtOk 3 (b + 4) (decide (1 ≤ numAt lot (b + 4) 1) && decide (numAt lot (b + 4) 1 ≤ 6))
      pure (⟨numAt lot b 4, numAt lot (b + 4) 1, numAt lot (b + 8) 4, numAt lot (b + 12) 4⟩ : Reloc))
    let pad := (64 - size % 64) % 64
    zeroFields 3 (a + size) (slice lot (a + size) pad) [(0, pad)]
    let rest ← parseImages lot s n (o + size + pad)
    pure (⟨words, relocs⟩ :: rest)

/-- THREADS (R259). -/
def parseThreads (lot : List Byte) (s : Sect) : Res (List GroupE) := do
  let gs ← entries lot s 0 32 s.count (fun a b => do
    let sh := numAt b 8 1
    let r := numAt b 9 1
    let c := numAt b 10 1
    fmtOk 4 (a + 8) (decide (sh ≤ 1))
    fmtOk 4 (a + 9) (if sh = 1 then decide (1 ≤ r) && decide (r ≤ 16) else decide (r = 0))
    fmtOk 4 (a + 10) (if sh = 1 then decide (1 ≤ c) && decide (c ≤ 16) else decide (c = 0))
    fmtOk 4 (a + 12) (decide (sh = 0) || decide (numAt b 12 4 = 0))
    fmtOk 4 (a + 16) (decide (numAt b 16 2 ≤ 2047))
    zeroFields 4 a b [(18, 14)]
    pure (⟨numAt b 0 4, numAt b 4 4, sh, r, c, numAt b 11 1, numAt b 12 4, numAt b 16 2⟩ : GroupE))
  distinctIds 4 s.off 32 (gs.map GroupE.id)
  pure gs

/-- FURROW (R260). -/
def parseFurrow (lot : List Byte) (s : Sect) : Res (List SegE × List PlanE) := do
  if s.count = 0 then pure ([], [])
  else
    fmtOk 5 (s.ent + 16) (decide (16 ≤ s.len))
    let n := numAt lot s.off 4
    let m := numAt lot (s.off + 4) 4
    fmtOk 5 (s.ent + 4) (decide (s.count = n + m))
    zeroFields 5 s.off (slice lot s.off 16) [(8, 8)]
    let segs ← entries lot s 16 16 n (fun a b => do
      fmtOk 5 (a + 2) (decide (1 ≤ numAt b 2 1) && decide (numAt b 2 1 ≤ 16))
      fmtOk 5 (a + 3) (decide (1 ≤ numAt b 3 1) && decide (numAt b 3 1 ≤ 16))
      zeroFields 5 a b [(8, 8)]
      pure (⟨numAt b 0 1, numAt b 1 1, numAt b 2 1, numAt b 3 1, numAt b 4 4⟩ : SegE))
    let plans ← entries lot s (16 + 16 * n) 32 m (fun a b => do
      let k := numAt b 2 1
      fmtOk 5 (a + 2) (decide (1 ≤ k) && decide (k ≤ 3))
      fmtOk 5 (a + 3) (if k = 3 then decide (numAt b 3 1 = 0) else decide (numAt b 3 1 ≤ 1))
      fmtOk 5 (a + 14) (if k = 3 then decide (numAt b 14 2 = 0) else decide (numAt b 14 2 ≤ 2047))
      zeroFields 5 a b [(22, 2), (26, 6)]
      pure (⟨numAt b 0 2, k, numAt b 3 1, numAt b 4 4, numAt b 8 4, numAt b 12 2, numAt b 14 2, numAt b 16 6, numAt b 24 2⟩ : PlanE))
    pure (segs, plans)

/-- GATES (R261). -/
def parseGates (lot : List Byte) (s : Sect) : Res (List WinE × List CreditE × List MGroupE × List PointE) := do
  if s.count = 0 then pure ([], [], [], [])
  else
    fmtOk 6 (s.ent + 16) (decide (16 ≤ s.len))
    let nw := numAt lot s.off 4
    let nc := numAt lot (s.off + 4) 4
    let nm := numAt lot (s.off + 8) 4
    let np := numAt lot (s.off + 12) 4
    fmtOk 6 (s.ent + 4) (decide (s.count = nw + nc + nm + np))
    let wins ← entries lot s 16 16 nw (fun a b => do
      fmtOk 6 (a + 12) (decide (numAt b 12 1 ≤ 7))
      zeroFields 6 a b [(13, 3)]
      pure (⟨numAt b 0 4, numAt b 4 4, numAt b 8 4, numAt b 12 1⟩ : WinE))
    let creds ← entries lot s (16 + 16 * nw) 32 nc (fun a b => do
      fmtOk 6 (a + 16) (decide (numAt b 16 1 ≤ 7))
      zeroFields 6 a b [(17, 15)]
      pure (⟨numAt b 0 4, numAt b 4 4, numAt b 8 4, numAt b 12 4, numAt b 16 1⟩ : CreditE))
    let mgs ← entries lot s (16 + 16 * nw + 32 * nc) 48 nm (fun a b => do
      fmtOk 6 a (decide (numAt b 0 1 ≤ 7))
      zeroFields 6 a b [(1, 15)]
      let rects := (List.range 4).map (fun k => numAt b (16 + 8 * k) 8)
      (List.range 4).forM (fun k => fmtOk 6 (a + 16 + 8 * k) (decide (bits (rects[k]?.getD 0) 46 18 = 0)))
      pure (⟨numAt b 0 1, rects⟩ : MGroupE))
    let pts ← entries lot s (16 + 16 * nw + 32 * nc + 48 * nm) 16 np (fun a b => do
      fmtOk 6 (a + 6) (decide (numAt b 6 1 ≤ 7))
      fmtOk 6 (a + 7) (decide (1 ≤ numAt b 7 1) && decide (numAt b 7 1 ≤ 3))
      zeroFields 6 a b [(12, 4)]
      pure (⟨numAt b 0 4, numAt b 4 2, numAt b 6 1, numAt b 7 1, numAt b 8 4⟩ : PointE))
    pure (wins, creds, mgs, pts)

/-- DRILLS (R262). -/
def parseDrills (lot : List Byte) (s : Sect) : Res (List DrillE) := do
  let ds ← entries lot s 0 8 s.count (fun a b => do
    (List.range 4).forM (fun k => fmtOk 7 (a + 4 + k) (decide (numAt b (4 + k) 1 ≤ 8)))
    pure (⟨numAt b 0 4, (List.range 4).map (fun k => numAt b (4 + k) 1)⟩ : DrillE))
  distinctIds 7 s.off 8 (ds.map DrillE.group)
  pure ds

/-- SHEAVES (R326, R327). Its limits are phase 9's (R328). -/
def parseSheaves (lot : List Byte) (s : Sect) : Res ((Nat × Nat × Nat) × List SheafE) := do
  fmtOk 8 (s.ent + 16) (decide (32 ≤ s.len))
  let h := slice lot s.off 32
  fmtOk 8 (s.off + 2) (decide (numAt h 2 1 ≤ 1))
  fmtOk 8 (s.off + 3) (decide (numAt h 3 1 ≤ 15))
  fmtOk 8 (s.ent + 4) (decide (numAt h 4 4 = s.count))
  zeroFields 8 s.off h [(8, 24)]
  let es ← entries lot s 32 32 s.count (fun a b => do
    fmtOk 8 (a + 2) (decide (numAt b 2 1 ≤ 1))
    fmtOk 8 (a + 3) (decide (numAt b 3 1 ≤ 1))
    fmtOk 8 (a + 16) (decide (numAt b 16 2 < 2 ^ 9))
    zeroFields 8 a b [(18, 14)]
    pure (⟨numAt b 0 2, numAt b 2 1, numAt b 3 1, numAt b 4 2, numAt b 6 2, numAt b 8 4, numAt b 12 4, sint 9 (numAt b 16 2)⟩ : SheafE))
  pure ((numAt h 0 2, numAt h 2 1, numAt h 3 1), es)

/-- TALLY (R262). More than 1,024 entries, which cannot all differ, are phase 9's to refuse. -/
def parseTally (lot : List Byte) (s : Sect) : Res (List TallyDef) := do
  let ts ← entries lot s 0 16 s.count (fun a b => do
    fmtOk 9 a (decide (numAt b 0 2 ≤ 1023))
    fmtOk 9 (a + 2) (decide (2 ≤ numAt b 2 1) && decide (numAt b 2 1 ≤ 4))
    fmtOk 9 (a + 3) (decide (-64 ≤ sint 8 (numAt b 3 1)) && decide (sint 8 (numAt b 3 1) ≤ 63))
    fmtOk 9 (a + 4) (decide (numAt b 4 1 ≤ 1))
    fmtOk 9 (a + 5) (decide (numAt b 5 1 ≤ 31))
    fmtOk 9 (a + 6) (decide (numAt b 6 1 ≤ 15))
    fmtOk 9 (a + 7) (decide (numAt b 7 1 ≤ 15))
    zeroFields 9 a b [(8, 8)]
    pure (⟨numAt b 0 2, numAt b 2 1, sint 8 (numAt b 3 1), decide (numAt b 4 1 = 1), numAt b 5 1, numAt b 6 1, numAt b 7 1⟩ : TallyDef))
  if s.count ≤ 1024 then distinctIds 9 s.off 16 (ts.map TallyDef.id) else pure ()
  pure ts

/-- A hyperparameter set (R309) from its 64 bytes. -/
def parseSet (b : List Byte) : UpdSet :=
  let f (o : Nat) : BitVec 32 := BitVec.ofNat 32 (numAt b o 4)
  { warm := numAt b 0 1, decay := numAt b 1 1, mult := numAt b 2 1, restart := decide (numAt b 3 1 % 2 = 1)
    warmLen := numAt b 4 4, decayLen := numAt b 8 4, stepLen := numAt b 12 4, invT0 := numAt b 16 4
    etaStart := f 20, etaPeak := f 24, etaMin := f 28, gamma := f 32, gain := f 36, b1 := f 40, omb1 := f 44, b2 := f 48
    omb2 := f 52, lambda := f 56, gscale := f 60 }
/-- A code of a set is reserved (R309). -/
def UpdSet.reserved (h : UpdSet) : Bool := decide (2 < h.warm) || decide (4 < h.decay) || decide (8 < h.mult)

/-- UPDATE (R308-R310): RULE, SEASON_BASE, sets, entries. -/
def parseUpdate (lot : List Byte) (s : Sect) : Res (Nat × Nat × List (UpdSet × Bool) × List UpdE) := do
  fmtOk 0xA (s.ent + 16) (decide (64 ≤ s.len))
  let h := slice lot s.off 64
  fmtOk 0xA (s.ent + 4) (decide (numAt h 4 4 = s.count))
  fmtOk 0xA (s.off + 1) (decide (numAt h 1 1 ≤ 8))
  zeroFields 0xA s.off h [(2, 2), (12, 52)]
  let k := numAt h 1 1
  let sets ← entries lot s 64 64 k (fun a b => do
    fmtOk 0xA (a + 3) (decide (numAt b 3 1 < 2))
    pure (parseSet b, (parseSet b).reserved))
  let es ← entries lot s (64 + 64 * k) 32 s.count (fun a b => do
    zeroFields 0xA a b [(3, 1), (20, 4)]
    pure (⟨numAt b 0 2, numAt b 2 1, numAt b 4 4, numAt b 8 4, numAt b 12 4, numAt b 16 4, numAt b 24 4, numAt b 28 4⟩ : UpdE))
  pure (numAt h 0 1, numAt h 8 4, sets, es)

/-- CHECKS (R262). -/
def parseChecks (lot : List Byte) (s : Sect) : Res (List CheckE) := do
  let cs ← entries lot s 0 16 s.count (fun a b => do
    fmtOk 0xB (a + 5) (decide (numAt b 5 1 ≤ 1))
    zeroFields 0xB a b [(8, 8)]
    pure (⟨numAt b 0 4, numAt b 4 1, numAt b 5 1, numAt b 6 2⟩ : CheckE))
  distinctIds 0xB s.off 16 (cs.map CheckE.group)
  pure cs

/-- The scratchpad ranges the PROFILE reserves (R258), each with the offset of its field. -/
def Lot.ranges (l : Lot) : List (Nat × Nat × Nat) :=
  let p := l.profile
  let ids := (l.tally.getD []).map TallyDef.id
  [(4, p.desc.1, p.desc.2), (12, p.treeOff, 32 * l.mgroups.length),
   (16, p.choiceOff, if l.tally.isNone ∨ ids.isEmpty then 0 else 4 * (ids.foldl max 0 + 1)),
   (20, p.yokeOff.getD 0, if p.yokeOff.isSome then 64 else 0), (24, p.user.1, p.user.2)].filter (fun r => decide (0 < r.2.2))

/-- The ranges lie inside the scratchpad, aligned, apart from each other; SLOW_BYTES is the sum of the slow-tier tensors (R258). -/
def Lot.profileOk (l : Lot) (base : Nat) : Res Unit := do
  l.ranges.forM (fun r => do
    let al := if r.1 = 16 then 8 else if r.1 = 20 then 64 else 32
    fmtOk 1 (base + r.1) (decide (r.2.1 % al = 0) && (decide (r.1 = 16) || decide (r.2.2 % 32 = 0)) && decide (r.2.1 + r.2.2 ≤ 0x40000))
    fmtOk 1 (base + r.1) (!l.ranges.any (fun q => decide (q.1 < r.1) && decide (q.2.1 < r.2.1 + r.2.2) && decide (r.2.1 < q.2.1 + q.2.2))))
  fmtOk 1 (base + 32) (decide (l.profile.slowBytes = ((l.tensors.filter (fun t => decide (t.tier = 1))).map TensorE.bytes).sum))

/-- Phase 1 of sowing (R268): the whole lot, or its refusal. -/
def parseLot (lot : List Byte) (bytes : Nat) : Res Lot := do
  let ents ← parseTable lot bytes
  let find (ty : Nat) : Option Sect := ents.find? (fun s => decide (s.ty = ty))
  let opt {α : Type} (ty : Nat) (d : α) (f : Sect → Res α) : Res α := match find ty with
    | some s => f s
    | none => pure d
  let some sp := find 1 | .error ⟨0x01, 1, 64, 0, 0⟩
  let p ← parseProfile lot sp
  let tensors ← opt 2 [] (parseTensors lot)
  let images ← opt 3 [] (fun s => parseImages lot s s.count 0)
  let groups ← opt 4 [] (parseThreads lot)
  let fur ← opt 5 ([], []) (parseFurrow lot)
  let gates ← opt 6 ([], [], [], []) (parseGates lot)
  let drills ← opt 7 [] (parseDrills lot)
  let sheaves ← opt 8 none (fun s => (parseSheaves lot s).map some)
  let tally ← opt 9 none (fun s => (parseTally lot s).map some)
  let upd ← opt 0xA (0, 0, [], []) (parseUpdate lot)
  let checks ← opt 0xB [] (parseChecks lot)
  let l : Lot :=
    { srSeed := numAt lot 24 4, crc := numAt lot 32 4, profile := p, tensors := tensors, images := images, groups := groups
      segs := fur.1, plans := fur.2, wins := gates.1, credits := gates.2.1, mgroups := gates.2.2.1, points := gates.2.2.2
      drills := drills, stat := sheaves.map Prod.fst, sheaves := (sheaves.map Prod.snd).getD [], tally := tally
      rule := upd.1, season := upd.2.1, sets := upd.2.2.1, updates := upd.2.2.2, checks := checks }
  l.profileOk sp.off
  pure l

end Sys2Proof.Machine
end

