-- ==== Sys2Proof/Machine/YosalFlits.lean ====
section
/-! DEFINITION. Messages, slots and flits of the Yosal link (R379-R383): how messages lie in slots and slots in flits, credits,
acknowledgement and replay. -/

namespace Sys2Proof.Machine

/-! ### Messages (R382, R383) -/

def rdOnce (addr : Nat) : YMsg := ⟨0x01, 0, addr, 0, 0, 0, 0, []⟩
def wrFull (addr : Nat) (data : List Byte) : YMsg := ⟨0x03, 0, addr, 0, 0, 0, 0, data⟩
/-- WR_PART of bytes that start at `off` in the line at `addr`. -/
def wrPart (addr off : Nat) (bs : List Byte) : YMsg :=
  ⟨0x04, 0, addr, 0, 0, 0, (2 ^ bs.length - 1) * 2 ^ off,
   List.replicate off 0 ++ bs ++ List.replicate (64 - off - bs.length) 0⟩

/-- The header slot of a message (R382). -/
def YMsg.header (m : YMsg) : BitVec 128 :=
  BitVec.ofNat 128 (m.opc % 2 ^ 8 + m.tag % 2 ^ 12 * 2 ^ 8 + m.addr % 2 ^ 52 * 2 ^ 24 + m.status % 2 ^ 8 * 2 ^ 76 + m.space % 2 ^ 16 * 2 ^ 84 +
    m.aux % 2 ^ 28 * 2 ^ 100)
/-- The slots of a message of the module (R383): header, mask slot of WR_PART, line of the operations that carry one. -/
def YMsg.slots (m : YMsg) : List (BitVec 128) :=
  let line := (List.range 4).map (fun k => BitVec.ofNat 128 (leNat (slice m.data (16 * k) 16)))
  if m.opc = 0x04 then m.header :: BitVec.ofNat 128 (m.mask % 2 ^ 64) :: line
  else if m.opc = 0x03 ∨ m.opc = 0x23 then m.header :: line else [m.header]
/-- The virtual channel of a message of the module (R383): 0 REQ, 1 RSP, 4 WRSP. -/
def YMsg.vc (m : YMsg) : Nat := if m.opc ≤ 0x07 then 0 else if m.opc ≤ 0x22 then 1 else 4

/-- Channel and slots of a companion's operation (R383): 1 RSP, 2 SNP, 3 WREQ; none for another OPC, which is taken as reserved. -/
def rxOp (opc : Nat) : Option (Nat × Nat) :=
  if opc = 0x11 then some (1, 5) else if opc = 0x12 then some (1, 1) else if opc = 0x13 then some (1, 2)
  else if opc = 0x14 ∨ opc = 0x15 then some (2, 1) else if opc = 0x16 then some (3, 1) else if opc = 0x17 then some (3, 6) else none

/-! ### Received slots (R381) -/

/-- One received slot: part of the message being received, idle, or the header of a message; its credit is owed back. -/
def YosalX.takeSlot (y : YosalX) (x : BitVec 128) : YosalX :=
  let owe (v n : Nat) : YosalX := { y with owed := y.owed.modify v (fun c => c + 1), rxLeft := n, rxVc := v }
  if 0 < y.rxLeft then owe y.rxVc (y.rxLeft - 1)
  else match rxOp (x.toNat % 256) with
    | some (v, n) => owe v (n - 1)
    | none => y
/-- The slots of a flit. -/
def YosalX.takeSlots (y : YosalX) (l : List (BitVec 128)) : YosalX := l.foldl YosalX.takeSlot y
/-- Headers of reserved OPC among the slots of a flit: neither idle nor an operation (R383). -/
def YosalX.badSlots (y : YosalX) (l : List (BitVec 128)) : Nat :=
  (l.foldl (fun (a : YosalX × Nat) x =>
    (a.1.takeSlot x, a.2 + b2n (decide (a.1.rxLeft = 0) && decide (x.toNat % 256 ≠ 0) && (rxOp (x.toNat % 256)).isNone))) (y, 0)).2

/-- The header of a flit taken in sequence (R380): credit returned, flits acknowledged leave the replay buffer, a NAK starts a replay. -/
def YosalX.takeHeader (y : YosalX) (f : FlitHeader) : YosalX :=
  let oldest := (y.replay.head?.map YFlit.seq).getD y.seqTx
  let n := (f.ack.toNat + 4096 - oldest) % 4096
  let k := if n ≤ y.replay.length then n else 0
  let kept := y.replay.drop k
  let tries := if 0 < k then 0 else y.tries
  { y with
    seqRx := (y.seqRx + 1) % 4096, discard := false, ackRx := f.ack.toNat, replay := kept
    credit := y.credit.modify f.cvc.toNat (fun c => c + f.ccount.toNat)
    replayAt := if f.nak then 0 else y.replayAt - k
    tries := if f.nak ∧ !kept.isEmpty then tries + 1 else tries }
/-- A flit is discarded (R380); `again`: it is answered by NAK, as a bad flit is and the first one out of sequence (DEDUCED, log entry 79). -/
def YosalX.refuse (y : YosalX) (again : Bool) : YosalX := { y with discard := true, nak := y.nak || again }

/-! ### Sent flits (R379-R381) -/

/-- The next slot to send: of the message whose sending goes on; of the first message whose channel holds credit for all its slots, none of
its channel before it waiting; idle otherwise. -/
def YosalX.nextSlot (y : YosalX) : BitVec 128 × YosalX :=
  match y.txRest with
  | x :: rest => (x, { y with txRest := rest })
  | [] =>
    let go := (List.range y.tx.length).find? (fun k => match y.tx[k]? with
      | some m => decide (m.slots.length ≤ y.credit.getD m.vc 0) && (y.tx.take k).all (fun p => decide (p.vc ≠ m.vc))
      | none => false)
    match go.bind (fun k => (y.tx[k]?).map (fun m => (k, m))) with
    | some (k, m) =>
      (m.header, { y with
        tx := y.tx.eraseIdx k, txRest := m.slots.tail, credit := y.credit.modify m.vc (fun c => c - m.slots.length) })
    | none => (0, y)
/-- The 14 slots of a new flit. -/
def YosalX.fill (y : YosalX) : List (BitVec 128) × YosalX :=
  (List.range 14).foldl (fun a _ => let r := a.2.nextSlot; (a.1 ++ [r.1], r.2)) ([], y)

/-- The header of a flit (R380) with SEQ `q`: what is expected next, a NAK owed, and the credit owed of the first channel that is owed any. -/
def YosalX.flitHeader (y : YosalX) (q : Nat) : Nat × YosalX :=
  let v := (List.range 5).find? (fun k => decide (0 < y.owed.getD k 0))
  let n := (v.map (fun k => min 4095 (y.owed.getD k 0))).getD 0
  (q % 4096 + y.seqRx * 2 ^ 12 + b2n y.nak * 2 ^ 24 + v.getD 5 * 2 ^ 25 + n * 2 ^ 28,
   { y with nak := false, owed := y.owed.modify (v.getD 5) (fun c => c - n) })
/-- The 256 B of a flit (R379): header, slots, check bytes. -/
def flitBytes (header : Nat) (slots : List (BitVec 128)) : List Byte :=
  let b := leBytes 8 header ++ slots.flatMap (fun x => leBytes 16 x.toNat)
  b ++ (List.range 24).map (Config.flitCheck b)
/-- A flit goes out, its header as it stands now. -/
def YosalX.putFlit (y : YosalX) (f : YFlit) : YosalX :=
  let h := y.flitHeader f.seq
  { h.2 with wire := flitBytes h.1 f.slots }
/-- The module's next flit (R380): of a replay, while one goes on; a new one, kept until acknowledged; none while 512 are kept. -/
def YosalX.sendFlit (y : YosalX) : YosalX :=
  match y.replay[y.replayAt]? with
  | some f => ({ y with replayAt := y.replayAt + 1 } : YosalX).putFlit f
  | none =>
    if 512 ≤ y.replay.length then y
    else
      let r := y.fill
      let f : YFlit := ⟨y.seqTx, r.1⟩
      ({ r.2 with seqTx := (y.seqTx + 1) % 4096, replay := r.2.replay ++ [f], replayAt := r.2.replay.length + 1 } : YosalX).putFlit f

/-- The link as training leaves it after DOWN: sequence numbers, credits and the replay buffer start anew; messages that no flit has
carried stay (DESIGN CHOICE, log entry 79). -/
def YosalX.newLink (y : YosalX) : YosalX :=
  { y with
    seqRx := 0, discard := false, ackRx := 0, credit := List.replicate 5 0, nak := false, rxLeft := 0, rxVc := 0
    owed := List.replicate 5 0, seqTx := 0, replay := [], replayAt := 0, tries := 0, txRest := [], winq := [] }

end Sys2Proof.Machine
end

