-- ==== Sys2Proof/Machine/Yosal.lean ====
section
/-! DEFINITION. The Yosal link (R377-R398): states, flits, tags and timeouts, watched lines, translation, line operations of
drills, fault cards, signals. -/

namespace Sys2Proof.Machine

/-! ### Tags (R385) -/

/-- Replace the endpoint's record. -/
def State.setYosal (s : State) (y : YosalX) : State := { s with yosal := y }
/-- A change to the endpoint's record. -/
def State.modYosal (s : State) (f : YosalX → YosalX) : State := s.setYosal (f s.yosal)
/-- The link is UP. -/
def State.yUp (s : State) : Bool := decide (s.rd Reg.YEP_STAT.STATE = 2)

/-- A message with no response is handed to the link (R383). -/
def State.ySend (s : State) (m : YMsg) : State := s.modYosal (fun y => { y with tx := y.tx ++ [m] })

/-- The first free tag from `n` on, among the next `fuel`. -/
def freeYTag (used : List YTag) : Nat → Nat → Nat
  | 0, n => n % 4096
  | fuel + 1, n => if used.any (fun t => decide (t.tag = n % 4096)) then freeYTag used fuel (n + 1) else n % 4096

/-- YEP_STAT.OUTSTANDING counts the tags in use. -/
def State.tagSync (s : State) : State := s.wr Reg.YEP_STAT.OUTSTANDING s.yosal.tags.length

/-- R385: requests that wait take tags, in order, while the link is UP and tags are free. -/
def State.yPump (s : State) : State :=
  if !s.yUp ∨ s.yosal.wait.isEmpty then s
  else
    let go := s.yosal.wait.foldl (fun (acc : YosalX × List (YMsg × YReq)) p =>
      let q := acc.1
      if 4096 ≤ q.tags.length then (q, acc.2 ++ [p])
      else
        let tag := freeYTag q.tags 4096 q.nextTag
        let m := { p.1 with tag := tag }
        ({ q with tags := q.tags ++ [⟨tag, m, p.2, s.now, false⟩], nextTag := (tag + 1) % 4096, tx := q.tx ++ [m] }, acc.2))
      (s.yosal, [])
    (s.setYosal { go.1 with wait := go.2 }).tagSync
/-- A request is posted. -/
def State.yPost (s : State) (m : YMsg) (r : YReq) : State :=
  (s.modYosal (fun y => { y with wait := y.wait ++ [(m, r)] })).yPump

/-- The little-endian bytes of words. -/
def wordBytes (ws : List Nat) : List Byte := ws.flatMap (fun w => leBytes 8 w)
/-- The words of a line. -/
def lineWords (bs : List Byte) : List Word := (List.range 8).map (fun k => BitVec.ofNat 64 (leNat (slice bs (8 * k) 8)))

/-! ### Signals (R396) -/

/-- A signal on a vector, or none yet within the gap. -/
def State.signal (s : State) (vec : Nat) : State :=
  let gap := s.rd Reg.YEP_SIG.GAP
  let near : Bool := match Store.get s.yosal.sigAt vec with
    | some t => decide (0 < gap) && decide (s.now < t + gap)
    | none => false
  if near then s.modYosal (fun y => { y with sigDue := if y.sigDue.contains vec then y.sigDue else y.sigDue ++ [vec] })
  else (s.ySend ⟨0x06, 0, 0, 0, 0, vec, 0, []⟩).modYosal (fun y => { y with sigAt := Store.put y.sigAt vec s.now })

/-- SIGNAL_GAP_END (R396): one signal announces the writes made within the gap. -/
def execSignalGapEnd (vec : BitVec 8) (s : State) : Host.Outcome State Fault Refusal :=
  let v := vec.toNat
  if s.yosal.sigDue.contains v then
    .next ((s.modYosal (fun y => { y with sigDue := y.sigDue.filter (fun d => decide (d ≠ v)) })).signal v)
  else .next s

/-! ### Watched lines (R387-R389) -/

/-- CPA of watched line `w`. -/
def State.lineAddr (s : State) (w : Nat) : Nat := s.rd Reg.YEP_WATCH_A.LINE 0 w * 64
/-- RD_SHARED of a watched line. -/
def State.readLine (s : State) (w : Nat) (base : Bool) : State :=
  s.yPost ⟨0x02, 0, s.lineAddr w, 0, 0, 0, 0, []⟩ (.watch w base)
/-- A read of the line is posted or unanswered. -/
def State.lineReading (s : State) (w : Nat) : Bool :=
  let is (r : YReq) : Bool := match r with
    | .watch x _ => decide (x = w)
    | _ => false
  s.yosal.wait.any (fun p => is p.2) || s.yosal.tags.any (fun t => !t.dead && is t.req)

/-- WATCH_ENABLE (R388): EN from 0 to 1. -/
def execWatchEnable (line : Fin 64) (s : State) : Host.Outcome State Fault Refusal :=
  let w := line.val
  if s.rd Reg.YEP_WATCH_B.EN 0 w = 0 then .next ((s.wr Reg.YEP_WATCH_B.EN 1 0 w).readLine w true) else .next s

/-- The request is a read of a watched line. -/
def YReq.watches (r : YReq) (w : Nat) : Bool := match r with
  | .watch x _ => decide (x = w)
  | _ => false
/-- A line is no longer watched: its reads that wait go, and the answer to one under way will be discarded. -/
def YosalX.unwatch (y : YosalX) (w : Nat) : YosalX :=
  { y with
    again := y.again.filter (fun x => decide (x ≠ w)), wait := y.wait.filter (fun p => !p.2.watches w)
    tags := y.tags.map (fun t => if t.req.watches w then { t with dead := true } else t) }
/-- WATCH_DISABLE (R388): EN from 1 to 0. -/
def execWatchDisable (line : Fin 64) (s : State) : Host.Outcome State Fault Refusal :=
  let w := line.val
  if s.rd Reg.YEP_WATCH_B.EN 0 w = 1 then
    .next ((((s.wr Reg.YEP_WATCH_B.EN 0 0 w).wr Reg.YEP_WATCH_B.HELD 0 0 w).modYosal (fun y => y.unwatch w)).ySend ⟨0x07, 0, s.lineAddr w, 0, 0, 0, 0, []⟩)
  else .next s

/-- SNP_INV (R384, R388): a hit of a held line is re-read; a line whose read is unanswered is read once more after it. -/
def execSnpInv (tag : BitVec 12) (addr : BitVec 52) (s : State) : Host.Outcome State Fault Refusal :=
  let ack := s.ySend ⟨0x21, tag.toNat, addr.toNat / 64 * 64, 0, 0, 0, 0, []⟩
  .next ((List.range 64).foldl (fun t w =>
    if t.rd Reg.YEP_WATCH_B.EN 0 w = 1 ∧ t.lineAddr w = addr.toNat / 64 * 64 then
      if t.rd Reg.YEP_WATCH_B.HELD 0 w = 1 then (t.wr Reg.YEP_WATCH_B.HELD 0 0 w).readLine w false
      else if t.lineReading w ∧ !t.yosal.again.contains w then t.modYosal (fun y => { y with again := y.again ++ [w] })
      else t
    else t) ack)

/-- R389: a data-ready line read with value `v`. -/
def State.dataReady (s : State) (w v : Nat) : State :=
  let x := (v + 2 ^ 32 - s.rd Reg.YEP_WATCH_B.LAST 0 w) % 2 ^ 32
  let s1 := s.wr Reg.YEP_WATCH_B.LAST v 0 w
  let n := s.rd Reg.YEP_WATCH_B.ENCL 0 w
  let c := s.rd Reg.YEP_WATCH_B.CORE 0 w
  if 0 < x ∧ s.rd Reg.ENCL_STATE.STATE (j := n) = 2 ∧ c < 81920 ∧ s.inRect n (croftOf c) ∧ !s.fallow c then
    s1.incWrap Reg.SYN_CNT.COUNT x c (s.rd Reg.YEP_WATCH_B.CNT 0 w)
  else s1

/-! ### The module's words of a card (R267, R392) -/

/-- Word 6 of the state card, or words 6 and 7 of a job card, are written, then word 5 with the SEQ answered, and the events follow: ring,
code, unit, DETAIL. -/
def State.answerCard (s : State) (w rseq w6 w7 : Nat) (evs : List (Nat × Nat × Nat × Nat)) : State :=
  s.yPost (wrPart (s.lineAddr w) 48 (wordBytes (if w = 16 then [w6] else [w6, w7]))) (.words w (some rseq) evs)
/-- A write of a card's words is over. -/
def State.wordsDone (s : State) (w : Nat) (rseq : Option Nat) (evs : List (Nat × Nat × Nat × Nat)) : State :=
  match rseq with
  | some q => s.yPost (wrPart (s.lineAddr w) 40 (wordBytes [q])) (.words w none evs)
  | none => evs.foldl (fun t e =>
    let n := e.2.2.1
    -- the events of R266 carry ENCL_STATE as it stands at the raise (R490)
    let det := if 0xD2 ≤ e.2.1 ∧ e.2.1 ≤ 0xD5 then t.copyOf Reg.ENCL_STATE.STATE 0 n else e.2.2.2
    t.raiseAt e.1 e.2.1 skEncl n t.now (t.stepOf (some n)) det) s

/-! ### Fault cards (R393-R395) -/

/-- Cards that wait are written while the ring has an entry free (R394). -/
def State.writeCards (s : State) : State :=
  let go := s.yosal.cards.foldl (fun (acc : State × List (Nat × Nat × Nat × List Word)) c =>
    let u := acc.1
    let q := u.yosal.cardSeq
    if 256 ≤ (q + 2 ^ 32 - u.rd Reg.YEP_FRING_STAT.CI) % 2 ^ 32 then (u, acc.2 ++ [c])
    else
      let ws := c.2.2.2.map BitVec.toNat
      let line := wordBytes (((ws[0]?.getD 0) + q * 2 ^ 32) :: ws.drop 1)
      let v := u.modYosal (fun y => { y with cardSeq := (q + 1) % 2 ^ 32, cardsOut := y.cardsOut ++ [(q, c.1, c.2.1)] })
      (v.yPost (wrFull (u.rd Reg.YEP_FRING.BASE * 2 ^ 14 + q % 256 * 64) line) (.card c.1 c.2.1 c.2.2.1), acc.2))
    (s.modYosal (fun y => { y with cards := [] }), [])
  go.1.modYosal (fun y => { y with cards := go.2 })

/-- A drill has paused on a translation fault: its card (R212, R393). -/
def State.faultCard (s : State) (r : CompReq) (va : Nat) : State :=
  let w0 := 3 + r.encl * 2 ^ 8 + r.drill * 2 ^ 12 + b2n r.wr * 2 ^ 14 + r.space * 2 ^ 16
  let ws := [w0, va, r.core, s.copyOf Reg.DRL_RESUME.I0 r.core r.drill, 0, 0, 0, 0]
  (s.modYosal (fun y => { y with cards := y.cards ++ [(r.core, r.drill, va, ws.map (fun w => BitVec.ofNat 64 w))] })).writeCards

/-- Answers that are all in are applied in order, and CI follows (R395). An answer for a fault that an abort has ended, the
drill having paused again since, is ignored. -/
def State.applyAnswers (s : State) : State :=
  let y := s.yosal
  let ci := s.rd Reg.YEP_FRING_STAT.CI
  let n := (y.bell + 2 ^ 32 - ci) % 2 ^ 32
  let mine := (List.range n).filterMap (fun k => y.answers.find? (fun a => decide (a.q = (ci + k) % 2 ^ 32)))
  if n = 0 ∨ mine.length < n then s
  else
    let s1 := mine.foldl (fun (t : State) (a : CardAnswer) =>
      let later : Bool := y.cards.any (fun c => decide ((c.1, c.2.1) = (a.core, a.drill))) || y.cardsOut.any (fun c => decide (c.2 = (a.core, a.drill)) && decide ((c.1 + 2 ^ 32 - ci) % 2 ^ 32 > (a.q + 2 ^ 32 - ci) % 2 ^ 32))
      if later ∨ 81920 ≤ a.core then t else if a.resume then t.resumeDrill a.core a.drill else t.compCame a.core (.fail a.drill)) s
    ((s1.wr Reg.YEP_FRING_STAT.CI y.bell).modYosal (fun z => { z with
      answers := z.answers.filter (fun a => !mine.contains a)
      cardsOut := z.cardsOut.filter (fun c => decide (n ≤ (c.1 + 2 ^ 32 - ci) % 2 ^ 32)) })).writeCards

/-- RD_ONCE of fault card q. -/
def State.readAnswer (s : State) (q : Nat) : State :=
  s.yPost (rdOnce (s.rd Reg.YEP_FRING.BASE * 2 ^ 14 + q % 256 * 64)) (.answer q)

/-- A doorbell read with value `v` (R395): cards up to it are read; a value that would pass PI is taken as PI. -/
def State.doorbell (s : State) (v : Nat) : State :=
  let ci := s.rd Reg.YEP_FRING_STAT.CI
  let far (x : Nat) : Nat := (x + 2 ^ 32 - ci) % 2 ^ 32
  let pi := s.rd Reg.YEP_FRING_STAT.PI
  let v' := if far pi < far v then pi else v
  let have_ := far s.yosal.bell
  if far v' ≤ have_ then s
  else
    (List.range (far v' - have_)).foldl (fun t k => t.readAnswer ((ci + have_ + k) % 2 ^ 32)) (s.modYosal (fun y => { y with bell := v' }))

/-! ### Translation and line operations (R386, R390, R391) -/

/-- First 64 B line of a byte range and how many it touches. -/
def linesOf (va n : Nat) : List Nat := if n = 0 then [] else (List.range ((va + n - 1) / 64 - va / 64 + 1)).map (fun k => va / 64 + k)
/-- The 4 KiB pages a byte range touches. -/
def pagesOf (va n : Nat) : List Nat := if n = 0 then [] else (List.range ((va + n - 1) / 4096 - va / 4096 + 1)).map (fun k => va / 4096 + k)

/-- Pages of a translation, in 4 KiB. -/
def Transl.span (t : Transl) : Nat := 2 ^ (9 * t.size)
/-- The translation covers a page of a space. -/
def Transl.covers (t : Transl) (space page : Nat) : Bool :=
  decide (t.space = space) && decide (t.vpn ≤ page) && decide (page < t.vpn + t.span)
/-- Set of the cache that an entry lies in: DESIGN CHOICE, log entry 23. -/
def Transl.set (t : Transl) : Nat := (t.space + t.vpn / t.span) % 1024

/-- R391: a translation enters the cache, 8 ways to a set, the least recently used leaving. -/
def cachePut (l : List Transl) (t : Transl) : List Transl :=
  let rest := l.filter (fun e => !(decide (e.space = t.space) && decide (e.vpn = t.vpn) && decide (e.size = t.size)))
  let mine := rest.filter (fun e => decide (e.set = t.set))
  match mine.getLast? with
  | some old => t :: (if 8 ≤ mine.length then rest.filter (fun e => decide (e ≠ old)) else rest)
  | none => t :: rest

/-- R391: a space id names a valid entry that grants it to an enclosure. -/
def State.spaceGranted (s : State) (space n : Nat) : Bool :=
  (List.range 64).any (fun k => decide (s.rd Reg.YEP_SPACE.VALID 0 k = 1) && decide (s.rd Reg.YEP_SPACE.SPACE 0 k = space) &&
    decide (bits (s.rd Reg.YEP_SPACE.ENCL 0 k) n 1 = 1))

/-- Whether a request is the one of a core's tag. -/
def CompReq.is (r : CompReq) (core tag : Nat) : Bool := decide (r.core = core) && decide (r.tag = tag)
/-- Replace a transfer at the endpoint. -/
def State.setOp (s : State) (o : YOp) : State :=
  s.modYosal (fun y => { y with ops := y.ops.map (fun p => if p.req.is o.req.core o.req.tag then o else p) })
/-- A transfer leaves the endpoint; TRANS_INVs that wait for it go on (R391). -/
def State.dropOp (s : State) (r : CompReq) : State :=
  let y := s.yosal
  let invs := y.invs.map (fun p => (p.1, p.2.filter (fun k => decide (k ≠ (r.core, r.tag)))))
  let ended := invs.filter (fun p => p.2.isEmpty)
  s.setYosal { y with
    ops := y.ops.filter (fun p => !p.req.is r.core r.tag), invs := invs.filter (fun p => !p.2.isEmpty)
    tx := y.tx ++ ended.map (fun p => ⟨0x22, p.1, 0, 0, 0, 0, 0, []⟩) }

/-- A transfer is answered (R203, R386). -/
def State.endOp (s : State) (o : YOp) (status : Nat) : State :=
  let r := o.req
  let s1 := s.dropOp r
  if r.wr then s1.compCame r.core (.wrote r.tag status)
  else if status ≠ 0 then s1.compCame r.core (.read r.tag status [])
  else
    let all := (linesOf r.va r.bytes).flatMap (fun l => Store.getD o.got l (List.replicate 64 0))
    s1.compCame r.core (.read r.tag 0 (slice all (r.va % 64) r.bytes))

/-- R212: the first faulting transfer of a drill pauses it; every later one is answered 0x13. -/
def State.compFault (s : State) (o : YOp) (page : Nat) : State :=
  let r := o.req
  let live := decide (s.drillOfTag r.core r.tag = some r.drill)
  let s1 := if live then (s.pauseDrill r.core r.drill r.tag (page * 4096)).faultCard r (page * 4096) else s
  let later := s.yosal.ops.filter (fun p => decide (p.req.core = r.core) && decide (p.req.drill = r.drill) && !p.sent && !p.req.is r.core r.tag)
  (if live then later else []).foldl (fun t p => t.endOp p 0x13) (s1.endOp o 0x13)

/-- The line operations of a translated transfer (R386). -/
def State.sendLines (s : State) (o : YOp) : State :=
  let r := o.req
  let ls := linesOf r.va r.bytes
  let s1 := s.setOp { o with sent := true, left := ls.length }
  ls.foldl (fun t l =>
    let cpa := (Store.getD o.pages (l / 64) 0) * 4096 + l % 64 * 64
    if r.wr then
      let lo := max r.va (l * 64)
      let hi := min (r.va + r.bytes) (l * 64 + 64)
      let bs := slice r.data (lo - r.va) (hi - lo)
      t.yPost (if bs.length = 64 then wrFull cpa bs else wrPart cpa (lo - l * 64) bs) (.line r.core r.tag l)
    else t.yPost (rdOnce cpa) (.line r.core r.tag l)) s1

/-- The pages of a transfer are looked up; a miss asks for a translation, and once all are known its lines go out (R391). -/
def State.translate (s : State) (o : YOp) : State :=
  let r := o.req
  if !s.spaceGranted r.space r.encl then
    (s.endOp o 0xD6).hedgeDenied r.encl r.va (s.estTick (croftOf r.core))
  else
    let go := (pagesOf r.va r.bytes).foldl (fun (acc : State × YOp) pg =>
      let u := acc.1
      let q := acc.2
      if q.asked.isSome ∨ (Store.get q.pages pg).isSome then acc
      else match u.yosal.cache.find? (fun e => e.covers r.space pg && (e.w || !r.wr)) with
        | some e =>
          ((u.incWrap Reg.YEP_TC.HITS 1).modYosal (fun y => { y with cache := e :: y.cache.filter (fun k => decide (k ≠ e)) }),
           { q with pages := Store.put q.pages pg (e.pfn + (pg - e.vpn)) })
        | none =>
          ((u.incWrap Reg.YEP_TC.MISSES 1).yPost ⟨0x05, 0, pg, 0, r.space, 0, 0, []⟩ (.trans r.core r.tag pg), { q with asked := some pg })) (s, o)
    if go.2.asked.isSome then go.1.setOp go.2 else go.1.sendLines go.2

/-- The endpoint goes on with every transfer whose drill has no earlier one untranslated (R211). -/
def State.translateAll (s : State) : State :=
  s.yosal.ops.foldl (fun t k =>
    match t.yosal.ops.find? (fun p => p.req.is k.req.core k.req.tag) with
    | none => t
    | some o =>
      let first := (t.yosal.ops.find? (fun p => decide (p.req.core = k.req.core) && decide (p.req.drill = k.req.drill) && !p.sent)).map YOp.req
      if !o.sent ∧ o.asked.isNone ∧ first = some o.req then t.translate o else t) s

/-- Companion transfers that have left their drills reach the endpoint (R211). -/
def State.takeCompanion (s : State) : State :=
  if s.compQ.isEmpty then s
  else
    ({ s with
      compQ := []
      yosal := { s.yosal with ops := s.yosal.ops ++ s.compQ.map (fun r => ⟨r, [], none, false, 0, 0, []⟩) } } : State).translateAll

/-- A line operation of a transfer is answered. -/
def State.lineDone (s : State) (core tag line status : Nat) (bs : List Byte) : State :=
  match s.yosal.ops.find? (fun p => p.req.is core tag) with
  | none => s
  | some o =>
    let o1 := { o with
      left := o.left - 1, status := if o.status = 0 then status else o.status
      got := if o.req.wr then o.got else Store.put o.got line bs }
    if o1.left = 0 then s.endOp o1 o1.status else s.setOp o1

/-- A translation is answered with a STATUS other than a translation or a fault, or in time by none. -/
def State.transFailed (s : State) (core tag status : Nat) : State :=
  match s.yosal.ops.find? (fun p => p.req.is core tag) with
  | none => s
  | some o => (s.endOp o status).translateAll

/-! ### Forming a transfer -/

/-- TRANSFER_FORM (R200-R202, R207): an active drill with a free outstanding place, room in the staging buffer and, for a gate
or multicast, a credit unit forms its next transfer. -/
def execTransferForm (core : CoreId) (d : DrillId) (s : State) : Host.Outcome State Fault Refusal :=
  let i := core.val
  let x := s.drill i d.val
  match x.active with
  | none => .next s
  | some r =>
    let ws := r.words
    let needMesh := decide (dSkind ws ≠ 2) && decide (dDkind ws ≠ 2)
    if x.paused || r.failed || decide (dRemote ws = 0) || decide (s.outLimit i d.val ≤ x.out.length) ||
        (needMesh && decide (2 ≤ (s.stagedBy i d.val).length)) || !s.croftIssues (croftOf i) then .next s
    else if scaleDue r then .next (s.formScale i d.val r).takeCompanion
    else if dTotal ws ≤ r.next then .next s
    else if 3 ≤ dDkind ws ∧ s.rd Reg.GCR.UNITS i (dGcr ws) = 0 then .next (s.wr Reg.DRL_STAT.CREDIT_WAIT 1 i d.val)
    else .next ((s.wr Reg.DRL_STAT.CREDIT_WAIT 0 i d.val).formElems i d.val r).takeCompanion

/-! ### Answers -/

/-- A tag is free again; a request that waits may take it. -/
def State.freeTagOf (s : State) (tag : Nat) : State :=
  (s.modYosal (fun y => { y with tags := y.tags.filter (fun t => decide (t.tag ≠ tag)) })).tagSync.yPump

/-- The late answer of a request that timed out frees its tag and is discarded (R385); otherwise the request is answered. -/
def State.yAnswered (s : State) (tag : Nat) (f : YReq → Option (State → State)) : State :=
  match s.yosal.tags.find? (fun t => decide (t.tag = tag)) with
  | none => s
  | some t =>
    match f t.req with
    | none => s
    | some g => if t.dead then s.freeTagOf tag else g (s.freeTagOf tag)

/-- The content of a watched line that a read returns (R388): the baseline, or acted on, unless it is to be read once more. -/
def State.lineRead (s : State) (w : Nat) (base : Bool) (status : Nat) (bs : List Byte) : State :=
  if s.rd Reg.YEP_WATCH_B.EN 0 w = 0 ∨ status ≠ 0 then s
  else if s.yosal.again.contains w then
    (s.modYosal (fun y => { y with again := y.again.filter (fun x => decide (x ≠ w)) })).readLine w base
  else
    let s1 := s.wr Reg.YEP_WATCH_B.HELD 1 0 w
    let ws := lineWords bs
    let v := leNat (bs.take 4)
    let seq := leNat (slice bs 4 4)
    if w < 16 then s1.modEncl w (fun x => { x with card := ws, seqDone := if base then some seq else x.seqDone })
    else if w = 16 then
      ({ s1 with power := { s1.power with words := ws } } : State).modYosal (fun y => { y with stateSeq := if base then some seq else y.stateSeq })
    else if w = 17 then (if base then s1 else s1.doorbell v)
    else if base then s1.wr Reg.YEP_WATCH_B.LAST v 0 w else s1.dataReady w v

/-- A line of a write-through's content has come, or none will (R440). -/
def State.bootLine (s : State) (l : Nat) (bs : List Byte) : State :=
  match s.trust.reading with
  | none => s
  | some r =>
    let got := if bs.length = 64 then Store.put r.got l bs else r.got
    { s with trust := { s.trust with reading := some { r with got := got, left := r.left - 1 } } }

/-- DATA (R386, R388, R389, R395, R440). -/
def execData (tag : BitVec 12) (status : BitVec 8) (line : List (BitVec 8)) (s : State) : Host.Outcome State Fault Refusal :=
  .next (s.yAnswered tag.toNat (fun r => match r with
    | .watch w base => some (fun t => t.lineRead w base status.toNat line)
    | .line core tg l => some (fun t => t.lineDone core tg l status.toNat line)
    | .answer q => some (fun t =>
      let ws := (lineWords line).map BitVec.toNat
      let a : CardAnswer :=
        ⟨q, bits (ws[2]?.getD 0) 0 17, bits (ws[0]?.getD 0) 12 2, decide (bits (ws[4]?.getD 0) 0 8 = 1)⟩
      (t.modYosal (fun y => { y with answers := y.answers ++ [a] })).applyAnswers)
    | .boot l => some (fun t => t.bootLine l (if status = 0 then line else []))
    | _ => none))

/-- A quote's last line is written: BUSY clears, QUOTE_DONE outside HOLD (R447). -/
def State.quoteLine (s : State) : State :=
  let s1 : State := { s with trust := { s.trust with quoteOut := s.trust.quoteOut - 1 } }
  if s.trust.quoteOut = 1 then
    let s2 := (s1.wr Reg.ATT_CTL.BUSY 0).incWrap Reg.ATT_CTL.QUOTES 1
    if s2.pins.stHold then s2 else s2.raiseSt 0xB5 (s2.copyOf Reg.ATT_CTL.BUSY)
  else s1

/-- The vector of a ring (R396). -/
def State.ringVector (s : State) (ring : Nat) : Nat :=
  if ring = 16 then s.rd Reg.YEP_SIG.VEC_ST else (s.rd Reg.YEP_SIG.VEC_ENCL + ring) % 256

/-- WR_DONE (R386, R394, R396, R488). -/
def execWrDone (tag : BitVec 12) (status : BitVec 8) (s : State) : Host.Outcome State Fault Refusal :=
  .next (s.yAnswered tag.toNat (fun r => match r with
    | .line core tg l => some (fun t => t.lineDone core tg l status.toNat [])
    | .card core d va => some (fun t =>
      ((t.incWrap Reg.YEP_FRING_STAT.PI 1).raiseCore core 0x13 (d + va / 4096 * 4096)).signal (t.rd Reg.YEP_SIG.VEC_FAULT))
    | .event ring => some (fun t => (t.incWrap Reg.EVR_PI.PI 1 (j := ring)).signal (t.ringVector ring))
    | .words w q evs => some (fun t => t.wordsDone w q evs)
    | .quote => some (fun t => t.quoteLine)
    | _ => none))

/-- TRANS_RSP (R390, R391, R212): a translation enters the cache and its transfer goes on; a fault, a frame not aligned to its
size, or a write to a page without W pauses the drill. -/
def execTransRsp (tag : BitVec 12) (status : BitVec 8) (pfn : BitVec 40) (size : Fin 3) (w : Bool) (s : State) :
    Host.Outcome State Fault Refusal :=
  .next (s.yAnswered tag.toNat (fun r => match r with
    | .trans core tg page => some (fun t =>
      match t.yosal.ops.find? (fun p => p.req.is core tg) with
      | none => t
      | some o =>
        let span := 2 ^ (9 * size.val)
        if status.toNat ≠ 0 ∧ status.toNat ≠ 0x13 then t.transFailed core tg status.toNat
        else if status.toNat = 0x13 ∨ pfn.toNat % span ≠ 0 then (t.compFault o page).translateAll
        else
          let e : Transl := ⟨o.req.space, page / span * span, size.val, pfn.toNat, w⟩
          let t1 := t.modYosal (fun y => { y with cache := cachePut y.cache e })
          if o.req.wr ∧ !w then (t1.compFault o page).translateAll
          else
            (t1.setOp { o with asked := none, pages := Store.put o.pages page (pfn.toNat + page % span) }).translateAll)
    | _ => none))

/-- TRANS_INV (R391): the matching entries go at once; DONE follows once the line operations translated through them are
answered. -/
def execTransInv (tag : BitVec 12) (scope : Fin 3) (space : BitVec 16) (page : BitVec 52) (s : State) :
    Host.Outcome State Fault Refusal :=
  let y := s.yosal
  let hit (e : Transl) : Bool :=
    decide (scope.val = 2) || (decide (scope.val = 1) && decide (e.space = space.toNat)) || e.covers space.toNat page.toNat
  let gone := y.cache.filter hit
  let held := y.ops.filter (fun o => o.pages.any (fun p => gone.any (fun e => e.covers o.req.space p.1)))
  let s1 := s.setYosal { y with cache := y.cache.filter (fun e => !hit e) }
  if held.isEmpty then .next (s1.ySend ⟨0x22, tag.toNat, 0, 0, 0, 0, 0, []⟩)
  else .next (s1.modYosal (fun z => { z with invs := z.invs ++ [(tag.toNat, held.map (fun o => (o.req.core, o.req.tag)))] }))

/-- SPACE_COMMIT (R391). -/
def execSpaceCommit (s : State) : Host.Outcome State Fault Refusal :=
  let fs := [Reg.YEP_SPACE.SPACE, Reg.YEP_SPACE.ENCL, Reg.YEP_SPACE.VALID]
  let rows := (List.range 64).filter (fun k => decide (s.stg Reg.YEP_SPACE.VALID 0 k = 1))
  let space (k : Nat) : Nat := s.stg Reg.YEP_SPACE.SPACE 0 k
  let twice := rows.any (fun a => rows.any (fun b => decide (a < b) && decide (space a = space b)))
  let withdrawn := (List.range 64).any (fun k => decide (s.rd Reg.YEP_SPACE.VALID 0 k = 1) &&
    (List.range 16).any (fun n => decide (bits (s.rd Reg.YEP_SPACE.ENCL 0 k) n 1 = 1) &&
      decide (s.rd Reg.ENCL_STATE.STATE (j := n) ≠ 0) &&
      !rows.any (fun r => decide (space r = s.rd Reg.YEP_SPACE.SPACE 0 k) && decide (bits (s.stg Reg.YEP_SPACE.ENCL 0 r) n 1 = 1))))
  if !(List.range 64).any (fun k => s.anyStaged fs 0 k) then .next s
  else if twice ∨ withdrawn then
    .next (((List.range 64).foldl (fun t k => t.dropAll fs 0 k) s).mismatch (Reg.YEP_CTL.SPACE_COMMIT.addr 0 0) skSteading 0)
  else
    let s1 := (List.range 64).foldl (fun t k => t.applyAll fs 0 k) s
    .next (s1.modYosal (fun y => { y with cache := y.cache.filter (fun e => rows.any (fun r => decide (space r = e.space))) }))

/-- YOSAL_TIMEOUT (R385): a request unanswered for TIMEOUT × 1,024 tk. Cards, ring entries and card reads are sent again
(DESIGN CHOICE, log entry 24). -/
def execYosalTimeout (tag : BitVec 12) (s : State) : Host.Outcome State Fault Refusal :=
  let k := s.rd Reg.YEP_CTL.TIMEOUT
  match s.yosal.tags.find? (fun t => decide (t.tag = tag.toNat)) with
  | none => .next s
  | some t =>
    if k = 0 ∨ t.dead ∨ s.now < t.sent + k * 1024 then .next s
    else
      let s1 := (s.modYosal (fun y => { y with tags := y.tags.map (fun x => if x.tag = tag.toNat then { x with dead := true } else x) })).raiseSt
        0x92 (t.msg.opc + tag.toNat * 2 ^ 8)
      .next (match t.req with
        | .watch w base =>
          if s1.yosal.again.contains w then
            (s1.modYosal (fun y => { y with again := y.again.filter (fun x => decide (x ≠ w)) })).readLine w base
          else s1
        | .line core tg l => s1.lineDone core tg l 0x92 []
        | .trans core tg _ => s1.transFailed core tg 0x92
        | .words w q evs => s1.wordsDone w q evs
        | .quote => s1.quoteLine
        | .boot l => s1.bootLine l []
        | _ => s1.yPost t.msg t.req)

/-! ### States of the link (R378) and flits (R379, R380) -/

/-- Entry into a state of the link. -/
def State.linkTo (s : State) (st : Nat) : State := (s.wr Reg.YEP_STAT.STATE st).modYosal (fun y => { y with since := s.now })

/-- YREF_DETECT: DOWN to TRAIN, domain ST out of reset. -/
def execYrefDetect (s : State) : Host.Outcome State Fault Refusal :=
  if s.rd Reg.YEP_STAT.STATE = 0 ∧ s.stRuns then .next (s.linkTo 1) else .next s

/-- YOSAL_TRAINED: TRAIN or RETRAIN to UP, on 16 lanes or 8 (R377). From TRAIN every enabled watched line is read again and taken
as a hit; from RETRAIN replay resumes from the oldest flit not acknowledged. -/
def execYosalTrained (width8 : Bool) (s : State) : Host.Outcome State Fault Refusal :=
  let st := s.rd Reg.YEP_STAT.STATE
  if st = 1 then
    let s1 := (s.linkTo 2).wr Reg.YEP_STAT.WIDTH8 (b2n width8)
    -- a line whose baseline was never read has it read now
    let fresh (w : Nat) : Bool := s.yosal.wait.any (fun p => decide (p.2 = .watch w true))
    let s2 := s1.modYosal (fun y => { y.newLink with
      wait := y.wait.filter (fun p => match p.2 with
        | .watch _ _ => false
        | _ => true) })
    .next ((List.range 64).foldl (fun t w => if t.rd Reg.YEP_WATCH_B.EN 0 w = 1 then t.readLine w (fresh w) else t) s2.yPump)
  else if st = 3 then .next ((((s.linkTo 2).wr Reg.YEP_STAT.WIDTH8 (b2n width8)).modYosal (fun y => { y with replayAt := 0, tries := 0 })).yPump)
  else .next s

/-- UP to RETRAIN; the replay buffer is kept. -/
def State.toRetrain (s : State) : State :=
  let s1 := (s.linkTo 3).incSat Reg.YEP_STAT.RETRAINS 1
  s1.raiseSt 0x93 (s1.copyOf Reg.YEP_STAT.STATE)
/-- YOSAL_RETRAIN: loss of signal on a lane, or what FLIT itself finds: 8 successive replays of one flit. -/
def execYosalRetrain (s : State) : Host.Outcome State Fault Refusal :=
  .next (if s.rd Reg.YEP_STAT.STATE = 2 then s.toRetrain else s)

/-- YOSAL_DOWN: RETRAIN to DOWN after 2^20 tk: every watched line is lost. -/
def execYosalDown (s : State) : Host.Outcome State Fault Refusal :=
  if s.rd Reg.YEP_STAT.STATE = 3 ∧ s.yosal.since + 2 ^ 20 ≤ s.now then
    let s1 := (List.range 64).foldl (fun t w => if t.rd Reg.YEP_WATCH_B.HELD 0 w = 1 then t.wr Reg.YEP_WATCH_B.HELD 0 0 w else t) (s.linkTo 0)
    let s2 := s1.modYosal (fun y => { y with again := [] })
    .next (s2.raiseSt 0x94 (s2.copyOf Reg.YEP_STAT.STATE))
  else .next s

/-- FLIT (R379-R383): corrected, checked, then taken in sequence; the messages of its slots are commands of their own, but for those of
reserved OPC. Each direction carries a flit at a time, so the module sends its next flit with it (DESIGN CHOICE, log entry 79); 8
successive replays of one flit lead to RETRAIN instead (R378). -/
def execFlit (f : FlitHeader) (corrected crcFail : Bool) (slots : List (BitVec 128)) (s : State) : Host.Outcome State Fault Refusal :=
  if !s.yUp then .next s
  else
    let s1 := if corrected then s.incSat Reg.YEP_LINK.FEC_CORR 1 else s
    if crcFail then .next ((s1.incSat Reg.YEP_LINK.CRC_FAIL 1).modYosal (fun y => (y.refuse true).sendFlit))
    else if f.seq.toNat ≠ s1.yosal.seqRx then .next (s1.modYosal (fun y => (y.refuse !y.discard).sendFlit))
    else
      let bad := s1.yosal.badSlots slots
      let s2 := s1.modYosal (fun y => (y.takeHeader f).takeSlots slots)
      let s3 := if f.nak then s2.incSat Reg.YEP_LINK.REPLAYS 1 else s2
      let s4 := if bad = 0 then s3 else s3.incSat Reg.YEP_LINK.BADMSG bad
      .next (if 8 ≤ s4.yosal.tries then s4.toRetrain else s4.modYosal YosalX.sendFlit)

end Sys2Proof.Machine
end

