-- ==== Sys2Proof/Machine/Place.lean ====
section
/-! DEFINITION. Placement (R264, R269-R272, R298): the enclosure's rectangle, which cores run which threads, where tensors live in
scratchpads and on Tabkos. A fixed function of its inputs (R272). Where the rules fix the amounts and not the places, the first
place that fits is taken (DESIGN CHOICE, log entry 25). -/

namespace Sys2Proof.Machine

/-! ### The card and the rectangle (R267, R268 phase 2) -/

/-- A LOAD card (R267). -/
structure JobCard where
  seq : Nat
  op : Nat
  bytes : Nat
  space : Nat
  origin : Nat
  crows : Nat
  ccols : Nat
  auto : Bool
  reserve : Nat
  keep : Bool
  yoke : Nat
  share : Nat
  job : Nat
  step0 : Nat
  deriving DecidableEq, Repr

/-- A job card of enclosure `n`, its words read; none when TYPE or ENCL say otherwise. -/
def jobCard (ws : List Word) (n : Nat) : Option JobCard :=
  let w (k : Nat) : Nat := (ws[k]?.getD 0).toNat
  if bits (w 0) 0 8 = 1 ∧ bits (w 0) 12 4 = n then
    some { seq := bits (w 0) 32 32, op := bits (w 0) 8 4, bytes := bits (w 2) 0 40, space := bits (w 2) 40 16
           origin := bits (w 3) 0 8, crows := bits (w 3) 8 5, ccols := bits (w 3) 13 5, auto := decide (bits (w 3) 18 1 = 1)
           reserve := bits (w 3) 19 5, keep := decide (bits (w 3) 24 1 = 1), yoke := bits (w 3) 25 2, share := bits (w 3) 27 6
           job := bits (w 4) 0 32, step0 := bits (w 4) 32 32 }
  else none

/-- The SHARE that a refusal asks for: a share of 1 to 7 can never be granted, and 8 is the least that can (R292). -/
def JobCard.shareNeed (c : JobCard) : Nat := if c.share = 0 then 0 else max 8 c.share

/-- The fields of a LOAD card that are out of range or reserved: byte offset of the first in the card. R274 names no offset, and a card with a
reserved OP, another TYPE or another ENCL is no card of the enclosure: it is not answered (DESIGN CHOICE, log entry 89). -/
def cardFormat (ws : List Word) (c : JobCard) : Option Nat :=
  let w (k : Nat) : Nat := (ws[k]?.getD 0).toNat
  if bits (w 0) 16 16 ≠ 0 then some 2
  else if w 1 % 4096 ≠ 0 then some 8
  else if bits (w 2) 56 8 ≠ 0 then some 23
  else if 20 < c.reserve ∨ c.yoke = 3 ∨ bits (w 3) 33 31 ≠ 0 then some 24
  else none

/-- A croft is quarantined (R471). -/
def State.quarantined (s : State) (c : Nat) : Bool := bits (s.rd Reg.BIST_QUAR.CROFTS 0 (c / 64)) (c % 64) 1 = 1

/-- A croft can be placed into enclosure `n` (R268 phase 2, R471). -/
def State.croftFree (s : State) (n c : Nat) : Bool :=
  s.croftPresent c && (s.enclOf c).isNone && ((s.transitOf c).isNone || decide (s.transitOf c = some n)) &&
  s.holdRuns (holdingOf c) && !s.quarantined c
/-- The rectangle lies on the wafer. -/
def rectFits (origin crows ccols : Nat) : Bool :=
  decide (1 ≤ crows) && decide (1 ≤ ccols) && decide (origin / 16 + crows ≤ 16) && decide (origin % 16 + ccols ≤ 16)
/-- The first croft of a rectangle that fails phase 2. -/
def State.rectFails (s : State) (n origin crows ccols : Nat) : Option Nat :=
  if rectFits origin crows ccols then (rectCrofts origin crows ccols).find? (fun c => !s.croftFree n c) else some origin

/-! ### What a sowing works on -/

/-- The inputs of a placement (R272): the card, the lot, the fallow map in the union with the mate's, the cores newly fallow since
the load (R279), and the slow-tier placement that stays at a re-sowing (R278). -/
structure SowIn where
  n : Nat
  card : JobCard
  origin : Nat
  lot : Lot
  fallow : List Nat
  newFallow : List Nat
  keep : Option (List Placed × List Part)
  /-- A re-sowing within FALLOW_RESERVE new fallow cores per croft, which always succeeds (R279): what the load has settled about the lot
  and the positions of threads is not asked again (log entry 62). -/
  settled : Bool
  deriving DecidableEq, Repr

/-- The cores of a rectangle in plough order (R142, R269). -/
def ploughCores (origin crows ccols : Nat) : List Nat :=
  let w := 20 * ccols
  (List.range (320 * crows * ccols)).map (fun p =>
    let r := p / w
    let k := p % w
    coreAt (origin / 16 * 16 + r) (origin % 16 * 20 + (if r % 2 = 0 then k else w - 1 - k)))
/-- The enclosure's cores that are not fallow, in plough order. -/
def SowIn.cores (i : SowIn) : List Nat :=
  (ploughCores i.origin i.card.crows i.card.ccols).filter (fun c => !i.fallow.contains c)
/-- Crofts of a segment of the lot. -/
def SowIn.segCrofts (i : SowIn) (g : SegE) : List Nat := rectCrofts (i.origin + g.row0 * 16 + g.col0) g.crows g.ccols

/-! ### Threads (R259, R269, R279) -/

/-- Cores fallow when the enclosure was loaded. -/
def SowIn.fallowAtLoad (i : SowIn) : List Nat := i.fallow.filter (fun c => !i.newFallow.contains c)

/-- The group is a run of cores: SHAPE 0 and no furrow segment (R259). -/
def GroupE.isRun (g : GroupE) : Bool := decide (g.shape ≠ 1) && decide (g.seg = 0xFF)

/-- What a group of threads gets. -/
structure GroupMap where
  grp : GroupE
  /-- Its cores on the fallow map of the load (R269). -/
  span : List Nat
  /-- Cores of its threads, in order. -/
  run : List Nat
  /-- Cores over which its SHARDED tensors are divided (R270). -/
  shards : Nat
  /-- Why it could not be mapped. -/
  bad : Option Refuse
  deriving DecidableEq, Repr

/-- R270: the divisor of a group's SHARDED tensors: its cores at the load less FALLOW_RESERVE for each of its crofts. It stays at a
re-sowing (log entry 26). -/
def shardCount (cores crofts reserve : Nat) : Nat := max 1 (cores - crofts * reserve)

/-- A rectangle of whole crofts for a group: SEG's, or the next free one at the lowest index (R259, R269). -/
def SowIn.groupRect (i : SowIn) (busy : List Nat) (g : GroupE) (short : Refuse) : Res Nat :=
  let clear (o : Nat) : Bool := (rectCrofts o g.crows g.ccols).all (fun c => !busy.contains c)
  if g.seg ≠ 0xFF then
    match i.lot.segs[g.seg]? with
    | none => .error ⟨0x09, 5, g.seg, 0, 0⟩
    | some q =>
      let o := i.origin + q.row0 * 16 + q.col0
      if g.shape ≠ 1 ∨ q.crows ≠ g.crows ∨ q.ccols ≠ g.ccols then .error ⟨0x09, 5, g.seg, 0, 0⟩
      else if clear o then .ok o else .error short
  else
    match (rectCrofts i.origin i.card.crows i.card.ccols).find? (fun o =>
      decide (o / 16 + g.crows ≤ i.origin / 16 + i.card.crows) && decide (o % 16 + g.ccols ≤ i.origin % 16 + i.card.ccols) && clear o) with
    | some o => .ok o
    | none => .error short

/-- CROFTS for a group that does not fit, beside the cores still free (R259). -/
def GroupE.short (g : GroupE) (free : Nat) : Refuse := ⟨0x04, 4, g.id, if g.isRun then g.threads else g.crows * g.ccols * 320, free⟩

/-- One group on the fallow map of the load: a rectangle, or the next THREADS cores in plough order that are not fallow (R269). A group
that cannot be mapped is counted by its size, for phase 3. -/
def SowIn.mapGroup (i : SowIn) (acc : List GroupMap) (g : GroupE) : List GroupMap :=
  let used := acc.flatMap GroupMap.span
  let free := (ploughCores i.origin i.card.crows i.card.ccols).filter (fun c => !i.fallowAtLoad.contains c && !used.contains c)
  let reserve := i.card.reserve
  let short := g.short free.length
  let lost (r : Refuse) : GroupMap :=
    ⟨g, [], [], if g.isRun then shardCount g.threads (ceilDiv g.threads 320) reserve
      else shardCount (g.crows * g.ccols * 320) (g.crows * g.ccols) reserve, some r⟩
  acc ++ [if g.isRun then
    let cs := free.take g.threads
    if cs.length < g.threads then lost short else ⟨g, cs, cs, shardCount g.threads ((cs.map croftOf).eraseDups).length reserve, none⟩
  else
    match i.groupRect ((used.map croftOf).eraseDups) g short with
    | .error r => lost r
    | .ok o =>
      let cs := (ploughCores o g.crows g.ccols).filter (fun c => !i.fallowAtLoad.contains c)
      ⟨g, cs, cs, shardCount cs.length (g.crows * g.ccols) reserve, none⟩]
/-- Cores that runs may have: those not fallow outside the rectangles that groups hold. -/
def SowIn.pool (i : SowIn) (ms : List GroupMap) : List Nat :=
  let rects := (ms.filter (fun m => !m.grp.isRun)).flatMap GroupMap.span
  i.cores.filter (fun c => !rects.contains c)
/-- One group on the fallow map in force: rectangles stay, without their new fallow cores, and runs take the next cores of the pool (R278;
log entry 62). At a load this changes nothing. -/
def SowIn.passFallow (i : SowIn) (pool : List Nat) (acc : List GroupMap) (m : GroupMap) : List GroupMap :=
  acc ++ [if m.bad.isSome then m
    else if m.grp.isRun then
      let used := (acc.filter (fun q => q.grp.isRun)).flatMap GroupMap.run
      let free := pool.filter (fun c => !used.contains c)
      if free.length < m.grp.threads then { m with run := [], bad := some (m.grp.short free.length) }
      else { m with run := free.take m.grp.threads }
    else { m with run := m.span.filter (fun c => !i.fallow.contains c) }]
/-- Every group, in ascending id (R269). -/
def SowIn.mapGroups (i : SowIn) : List GroupMap :=
  let ms := (sortBy (fun a b => decide (a.id ≤ b.id)) i.lot.groups).foldl i.mapGroup []
  ms.foldl (i.passFallow (i.pool ms)) []
/-- FALLOW_RESERVE (R267, R279): the runs must find their cores whichever so many more of each croft become fallow. A group that would not is
refused as one that does not fit, the cores that may be lost counted with those it needs (log entry 62). -/
def SowIn.checkReserve (i : SowIn) (ms : List GroupMap) : Res Unit := do
  let pool := i.pool ms
  let lost := (((pool.map croftOf).eraseDups).map (fun c => min i.card.reserve (pool.filter (fun k => decide (croftOf k = c))).length)).sum
  let _ ← (ms.filter (fun m => m.grp.isRun)).foldlM (fun (used : Nat) m => do
    need (decide (used + m.grp.threads + lost ≤ pool.length)) ⟨0x04, 4, m.grp.id, m.grp.threads + lost, pool.length - used⟩
    pure (used + m.grp.threads)) 0
  pure ()

/-! ### Scratchpad (R255, R258, R270, R311) -/

/-- The lowest multiple of `al` from `lo` at which `n` units fit below `hi` apart from the ranges in use. -/
def firstFit (used : List (Nat × Nat)) (n al lo hi : Nat) : Option Nat :=
  let up (x : Nat) : Nat := ceilDiv x al * al
  let ok (x : Nat) : Bool := decide (x + n ≤ hi) && used.all (fun u => decide (x + n ≤ u.1) || decide (u.1 + u.2 ≤ x))
  ((up lo :: (used.filter (fun u => decide (lo ≤ u.1 + u.2))).map (fun u => up (u.1 + u.2))).filter ok).foldl
    (fun a x => some (match a with
      | some y => min x y
      | none => x)) none

/-- A tensor as a group's cores hold it: id, bytes on each core, W-class. -/
structure OnCore where
  tid : Nat
  bytes : Nat
  wt : Bool
  deriving DecidableEq, Repr

/-- 16 KiB segments that the bytes of both classes take (R270). -/
def segCount (ranges : List (Nat × Nat)) (ts : List OnCore) : Nat :=
  let w := ((ts.filter OnCore.wt).map OnCore.bytes).sum
  let a := ((ts.filter (fun t => !t.wt)).map OnCore.bytes).sum + (ranges.map Prod.snd).sum
  ceilDiv w 0x4000 + ceilDiv a 0x4000

/-- Bytes of tensors that lie one behind another, each at a multiple of `al`. -/
def blockBytes (al : Nat) (b : List OnCore) : Nat := (b.map (fun t => ceilDiv t.bytes al * al)).sum
/-- Their offsets, from the first. -/
def blockOffs (al o : Nat) (b : List OnCore) : List (Nat × Nat) :=
  (b.foldl (fun (a : Nat × List (Nat × Nat)) t => (a.1 + ceilDiv t.bytes al * al, a.2 ++ [(t.tid, a.1)])) (o, [])).2
/-- Blocks of tensors in the order of the list, each where it first fits at a multiple of `al` in the range given. -/
def packIn (used : List (Nat × Nat)) (al lo hi : Nat) (bs : List (List OnCore)) : Option (List (Nat × Nat) × List (Nat × Nat)) :=
  bs.foldl (fun acc b => acc.bind (fun p => (firstFit p.1 (blockBytes al b) al lo hi).map (fun o => (p.1 ++ [(o, blockBytes al b)], p.2 ++ blockOffs al o b))))
    (some (used, []))
/-- A layout that keeps the W-class tensors in the `k` whole segments from segment `b`, the others where they first fit. -/
def layoutAt (ranges : List (Nat × Nat)) (al b k : Nat) (ws as : List (List OnCore)) : Option (List (Nat × Nat)) :=
  if ranges.all (fun u => decide (u.1 + u.2 ≤ b * 0x4000) || decide ((b + k) * 0x4000 ≤ u.1)) then
    (packIn [] al (b * 0x4000) ((b + k) * 0x4000) ws).bind (fun w =>
      (packIn ((b * 0x4000, k * 0x4000) :: ranges) al 0 0x40000 as).map (fun a => w.2 ++ a.2))
  else none
/-- The stretches of a scratchpad that the ranges given leave: first byte, length. -/
def freeGaps (used : List (Nat × Nat)) : List (Nat × Nat) :=
  let r := (sortBy (fun a b => decide (a.1 ≤ b.1)) used).foldl (fun (a : Nat × List (Nat × Nat)) u =>
    (max a.1 (u.1 + u.2), if a.1 < u.1 then a.2 ++ [(a.1, u.1 - a.1)] else a.2)) (0, [])
  if r.1 < 0x40000 then r.2 ++ [(r.1, 0x40000 - r.1)] else r.2
/-- Every way to share blocks out over stretches is tried in turn. -/
def fillGaps (al : Nat) : List (List OnCore) → List (Nat × Nat) → Option (List (Nat × Nat))
  | [], _ => some []
  | b :: bs, gaps => (List.range gaps.length).findSome? (fun k => match gaps[k]? with
    | none => none
    | some g =>
      let o := ceilDiv g.1 al * al
      let n := blockBytes al b
      if o + n ≤ g.1 + g.2 then (fillGaps al bs (gaps.set k (o + n, g.1 + g.2 - (o + n)))).map (fun r => blockOffs al o b ++ r) else none)
/-- A layout found by trying every set of segments for the W-class and every share of the blocks: with `al` = 1 it misses none. -/
def layoutAny (ranges : List (Nat × Nat)) (al : Nat) (ws as : List (List OnCore)) : Option (List (Nat × Nat)) :=
  (List.range 65536).findSome? (fun m =>
    let segs (v : Nat) : List (Nat × Nat) := ((List.range 16).filter (fun k => decide (bits m k 1 = v))).map (fun k => (k * 0x4000, 0x4000))
    if (segs 1).any (fun q => ranges.any (fun u => decide (0 < u.2) && overlap q.1 q.2 u.1 u.2)) then none
    else (fillGaps al ws (freeGaps (segs 0))).bind (fun w => (fillGaps al as (freeGaps (segs 1 ++ ranges))).map (fun a => w ++ a)))
/-- Offsets on a core (R270; DESIGN CHOICE, log entry 25): the W-class tensors in the highest run of whole segments free of the reserved
ranges, the others where they first fit, at multiples of 256; where that fails, smaller multiples and the larger tensors first, then every
layout there is. -/
def layoutCore (ranges : List (Nat × Nat)) (ws as : List (List OnCore)) : Option (List (Nat × Nat)) :=
  let big (l : List (List OnCore)) : List (List OnCore) := sortBy (fun a b => decide (blockBytes 1 b ≤ blockBytes 1 a)) l
  ([256, 32, 1].findSome? (fun al =>
    let k := ceilDiv ((ws.map (blockBytes al)).sum) 0x4000
    [(ws, as), (big ws, big as)].findSome? (fun p =>
      (List.range (17 - k)).reverse.findSome? (fun b => layoutAt ranges al b k p.1 p.2)))).orElse (fun _ =>
    [256, 32, 1].findSome? (fun al => layoutAny ranges al ws as))

/-- Bytes of a tensor on each core of its group (R270). -/
def GroupMap.perCore (m : GroupMap) (t : TensorE) : Nat :=
  if bits t.flags 2 1 = 1 then ceilDiv (ceilDiv t.bytes m.shards) 256 * 256 else t.bytes
/-- The tensor is an update's compute copy (R311). -/
def Lot.isCopy (l : Lot) (tid : Nat) : Bool := l.updates.any (fun u => decide (u.c = tid))

/-- Lifetimes (R255). A derived tensor's source is in the slow tier; of one of TIER 2 that placement tells. -/
def Lot.lifeOk (l : Lot) (t : TensorE) : Bool :=
  let slowSrc := l.tensors.any (fun q => decide (q.tid = t.src) && (decide (q.tier = 1) || (decide (q.tier = 2) && decide (q.life ≠ 1))))
  if t.tier = 0 ∧ 2 ≤ t.life then false
  else if t.life = 1 then (decide (t.tier = 0) || decide (t.tier = 2)) && slowSrc
  else if t.life = 2 then decide (t.tier = 1) || decide (t.tier = 2)
  else true

/-- The homes of a group's scratchpad tensors: offset and bytes on each core for every tensor id, and the ids of TIER 2 that found no
room. The compute copies of a class lie one behind another (R311). -/
def SowIn.layoutGroup (i : SowIn) (all : List GroupMap) (m : GroupMap) : Res (List (TensorE × Nat) × List Nat) :=
  let ranges := i.lot.ranges.map (fun r => (r.2.1, r.2.2))
  let mine := (i.lot.tensors.filter (fun t => decide (t.group = m.grp.id) && (decide (t.tier = 0) || (decide (t.tier = 2) && decide (t.life ≤ 1)))))
  let on (t : TensorE) : OnCore := ⟨t.tid, m.perCore t, decide (bits t.flags 1 1 = 1)⟩
  let blocks (l : List TensorE) (wt : Bool) : List (List OnCore) :=
    let mine := l.filter (fun t => decide ((on t).wt = wt))
    let copies := (mine.filter (fun t => i.lot.isCopy t.tid)).map on
    (if copies.isEmpty then [] else [copies]) ++ (mine.filter (fun t => !i.lot.isCopy t.tid)).map (fun t => [on t])
  let try_ (l : List TensorE) : Option (List (Nat × Nat)) :=
    if segCount ranges (l.map on) ≤ 16 then layoutCore ranges (blocks l true) (blocks l false) else none
  let must := mine.filter (fun t => decide (t.tier = 0) || decide (t.life = 1))
  let everyone := all.all (fun q => decide (q.grp.id = m.grp.id) || q.run.isEmpty)
  if m.run.isEmpty ∧ m.bad.isNone then .ok ([], (mine.filter (fun t => decide (t.tier = 2) && decide (t.life = 0))).map TensorE.tid)
  else match try_ must with
  | none => .error ⟨0x05, 2, if everyone then 0xFFFFFFFF else m.run.head?.getD 0xFFFFFFFF, segCount ranges (must.map on), 16⟩
  | some _ =>
    let go := (mine.filter (fun t => !must.contains t)).foldl (fun (acc : List TensorE × List Nat) t =>
      if (try_ (acc.1 ++ [t])).isSome then (acc.1 ++ [t], acc.2) else (acc.1, acc.2 ++ [t.tid])) (must, [])
    let offs := (try_ go.1).getD []
    .ok (go.1.filterMap (fun t => (Store.get offs t.tid).map (fun o => (t, o))), go.2)

/-! ### Routes and the slow tier (R264, R271, R298) -/

/-- A croft may carry the enclosure's routes: its own, or one of no enclosure and no other's transit crofts, running, not quarantined. -/
def State.mayCross (s : State) (i : SowIn) (c : Nat) : Bool :=
  (rectCrofts i.origin i.card.crows i.card.ccols).contains c || s.croftFree i.n c
/-- The crofts of the routes between a core and another, both ways. -/
def routeCrofts (a b : Nat) : List Nat := ((routeSegs a b).map Prod.fst) ++ ((routeSegs b a).map Prod.fst)
/-- No turn of the two routes falls on a stile (R191). -/
def State.turnsClear (s : State) (a b : Nat) : Bool :=
  decide (rowOf a = rowOf b) || decide (colOf a = colOf b) ||
  (!s.stiled (coreAt (rowOf a) (colOf b)) && !s.stiled (coreAt (rowOf b) (colOf a)))
/-- P: the Tabkos whose landing ports the enclosure reaches by legal routes (R264, R271). -/
def State.reached (s : State) (i : SowIn) : List Nat :=
  (List.range 48).filter (fun t => s.portReachable t &&
    (rectCrofts i.origin i.card.crows i.card.ccols).all (fun c => (routeCrofts (anchor c) (portCore t)).all (fun x => s.mayCross i x)) &&
    i.cores.all (fun c => s.turnsClear c (portCore t)))

/-- Granule runs taken on a Tabko. -/
def State.takenOn (s : State) (t : Nat) : List (Nat × Nat) :=
  ((List.range 64).filter (fun r => decide (s.rd Reg.TBK_REGION.VALID t r = 1))).map
    (fun r => (s.rd Reg.TBK_REGION.BASE t r, s.rd Reg.TBK_REGION.COUNT t r))
/-- Free granules of a Tabko. -/
def State.freeGranules (s : State) (t : Nat) : Nat := granules - ((s.takenOn t).map Prod.snd).sum
/-- Share slots of a Tabko that are free (R292). -/
def State.freeSlots (s : State) (t : Nat) : Nat := 60 - s.rd Reg.TBK_STAT.SHARE_USED t

/-- A new granule run: Tabko, first granule, granules. -/
structure Run where
  tabko : Nat
  base : Nat
  count : Nat
  deriving DecidableEq, Repr

/-- Room for `n` granules on a Tabko beside the new runs. -/
def State.roomOn (s : State) (runs : List Run) (t n : Nat) : Option Nat :=
  firstFit (s.takenOn t ++ (runs.filter (fun r => decide (r.tabko = t))).map (fun r => (r.base, r.count))) n 1 0 granules
/-- MiB, rounded up. -/
def mib (bytes : Nat) : Nat := ceilDiv bytes 0x100000
/-- SLOW_TIER (R274): MiB needed, MiB free on the Tabkos given. -/
def State.noRoom (s : State) (p : List Nat) (item bytes : Nat) : Refuse :=
  ⟨0x07, 2, item, mib bytes, ((p.map (fun t => s.freeGranules t)).sum) / 16⟩

/-- One part of `bytes` on a Tabko, its offset in the tensor, if it has room. -/
def State.placePart (s : State) (acc : List Part × List Run) (t off bytes : Nat) : Option (List Part × List Run) :=
  let k := ceilDiv bytes 65536
  (s.roomOn acc.2 t k).map (fun b => (acc.1 ++ [⟨off, bytes, s.spanBase t + b * 65536⟩], acc.2 ++ [⟨t, b, k⟩]))

/-- A tensor spread over P (R298): a part of the same size, whole granules, on every Tabko of P. -/
def State.spread (s : State) (p : List Nat) (runs : List Run) (item bytes : Nat) : Res (List Part × List Run) :=
  if bytes = 0 then .ok ([], runs)
  else if p.isEmpty then .error (s.noRoom p item bytes)
  else
    let len := ceilDiv (ceilDiv bytes p.length) 65536 * 65536
    (p.zip (List.range p.length)).foldlM (fun acc tj => match s.placePart acc tj.1 (tj.2 * len) len with
      | some r => .ok r
      | none => .error (s.noRoom p item bytes)) (([], runs) : List Part × List Run)

/-- A NEAR tensor on the Tabko of least cost (R271). -/
def State.placeNear (s : State) (i : SowIn) (p : List Nat) (cores : List Nat) (runs : List Run) (t : TensorE) : Res (List Part × List Run) :=
  if t.bytes = 0 then .ok ([], runs)
  else
    let room := p.filter (fun k => (s.roomOn runs k (ceilDiv t.bytes 65536)).isSome)
    let cost (k : Nat) : Nat := (cores.map (fun c => (s.dist (croftOf c) k).tkOut + (s.dist (croftOf c) k).tkBack)).sum
    let best := (room.filter (fun k => decide (i.card.share ≤ s.freeSlots k))).foldl (fun (b : Option (Nat × Nat)) k => match b with
      | none => some (k, cost k)
      | some q => if cost k < q.2 then some (k, cost k) else some q) none
    match best, room with
    | some q, _ => match s.placePart ([], runs) q.1 0 t.bytes with
      | some r => .ok r
      | none => .error (s.noRoom p t.tid t.bytes)
    | none, k :: _ => .error ⟨0x0D, 2, k, i.card.shareNeed, s.freeSlots k⟩
    | none, [] => .error (s.noRoom p t.tid t.bytes)

/-- A tensor entry without a place. -/
def TensorE.placed (t : TensorE) (parts : List Part) (homes : List Home) : Placed :=
  ⟨t.tid, t.tier, t.fmt, t.life, t.flags, t.bytes, t.src, t.group, parts, homes⟩

/-- The homes of a scratchpad tensor on the cores of its group. -/
def GroupMap.homesOf (m : GroupMap) (t : TensorE) (off : Nat) : List Home :=
  if bits t.flags 2 1 = 1 then
    let share := m.perCore t
    (m.run.zip (List.range m.run.length)).filterMap (fun cj =>
      if t.bytes ≤ cj.2 * share then none else some ⟨cj.1, off, cj.2 * share, min share (t.bytes - cj.2 * share)⟩)
  else m.run.map (fun c => ⟨c, off, 0, t.bytes⟩)

/-- What phase 3 gives. -/
structure Tensors where
  placed : List Placed
  inspect : List Part
  runs : List Run
  deriving DecidableEq, Repr

/-- Granule runs of a Tabko, neighbours joined. -/
def joinRuns (l : List (Nat × Nat)) : List (Nat × Nat) :=
  (sortBy (fun a b => decide (a.1 ≤ b.1)) l).foldl (fun acc r => match acc.getLast? with
    | some q => if q.1 + q.2 = r.1 then acc.dropLast ++ [(q.1, q.2 + r.2)] else acc ++ [r]
    | none => [r]) []
/-- The new regions of a placement on a Tabko. -/
def regionsOn (runs : List Run) (t : Nat) : List (Nat × Nat) :=
  joinRuns ((runs.filter (fun r => decide (r.tabko = t))).map (fun r => (r.base, r.count)))
/-- Free places of a Tabko's region table. -/
def State.freeRegions (s : State) (t : Nat) : List Nat := (List.range 64).filter (fun r => decide (s.rd Reg.TBK_REGION.VALID t r = 0))
/-- Every Tabko's region table can hold the new regions. -/
def State.tablesHold (s : State) (runs : List Run) : Bool :=
  (List.range 48).all (fun t => decide ((regionsOn runs t).length ≤ (s.freeRegions t).length))

/-- Phase 3 (R268): every tensor, and the inspection range; at a re-sowing the slow tier stays as it is. -/
def State.placeTensors (s : State) (i : SowIn) (gs : List GroupMap) : Res Tensors := do
  i.lot.tensors.forM (fun t => need (i.lot.lifeOk t) ⟨0x06, 2, t.tid, 0, 0⟩)
  let p := s.reached i
  let free := (p.map (fun t => s.freeGranules t)).sum * 65536
  need (i.keep.isSome || decide (i.lot.profile.slowBytes ≤ free)) ⟨0x07, 2, 0xFFFFFFFF, mib i.lot.profile.slowBytes, free / 0x100000⟩
  let lay ← gs.mapM (fun g => do
    let r ← i.layoutGroup gs g
    pure (r.1.map (fun q => q.1.placed [] (g.homesOf q.1 q.2)), r.2))
  let scratch := lay.flatMap Prod.fst
  let there (t : TensorE) : Bool := scratch.any (fun q => decide (q.tid = t.tid))
  let isSlow (t : TensorE) : Bool := decide (t.tier = 1) || (decide (t.tier = 2) && decide (t.life ≠ 1) && !there t)
  i.lot.tensors.forM (fun t => need (decide (t.life ≠ 1) || i.lot.tensors.any (fun q => decide (q.tid = t.src) && isSlow q)) ⟨0x06, 2, t.tid, 0, 0⟩)
  match i.keep with
  | some k =>
    let slow := i.lot.tensors.filterMap (fun t => if isSlow t then
      some (t.placed (((k.1.find? (fun q => decide (q.tid = t.tid))).map Placed.parts).getD []) []) else none)
    let rest := i.lot.tensors.filter (fun t => !isSlow t && !there t)
    match slow.find? (fun q => q.parts.isEmpty && decide (0 < q.bytes)) with
    | some q => .error (s.noRoom p q.tid q.bytes)
    | none => pure ⟨scratch ++ slow ++ rest.map (fun t => t.placed [] []), k.2, []⟩
  | none =>
    let go ← (i.lot.tensors.filter isSlow).foldlM (fun (acc : List Placed × List Run) t => do
      let cores := ((gs.find? (fun g => decide (g.grp.id = t.group))).map GroupMap.run).getD []
      let r ← if bits t.flags 3 1 = 1 then s.placeNear i p cores acc.2 t else s.spread p acc.2 t.tid t.bytes
      pure (acc.1 ++ [t.placed r.1 []], r.2)) ([], [])
    let rest := i.lot.tensors.filter (fun t => !isSlow t && !there t)
    let ins ← if i.card.keep then s.spread p go.2 0xFFFFFFFF (i.cores.length * 0x40000) else pure ([], go.2)
    need (s.tablesHold ins.2) (s.noRoom p 0xFFFFFFFF i.lot.profile.slowBytes)
    pure ⟨scratch ++ go.1 ++ rest.map (fun t => t.placed [] []), ins.1, ins.2⟩

end Sys2Proof.Machine
end

