-- ==== Sys2Proof/Machine/SowPlan.lean ====
section
/-! DEFINITION. Phases 4 to 9 of sowing (R268): code and relocations, furrow segments and their plan, gates, drills, routes, slack,
slot shares, tally, sheaves, update. -/

namespace Sys2Proof.Machine

/-- What phases 3 to 9 work on and hand to phase 10. -/
structure Plan where
  inp : SowIn
  groups : List (GroupE × List Nat)
  tens : Tensors
  /-- Segments: hardware number, entry, LAP, LAP_MIN. -/
  segs : List (Nat × SegE × Nat × Nat)
  /-- Slack of each crossing: croft, side, S. -/
  slacks : List (Nat × Nat × Nat)
  /-- Gate windows: core, gate, base, size. -/
  wins : List (Nat × Nat × Nat × Nat)
  /-- Credits: core, entry, target, gate, number of the credit in the lot. -/
  creds : List (Nat × Nat × Nat × Nat × Nat)
  /-- Multicast groups: gate and resolved rectangle words. -/
  trees : List (Nat × List Word)
  transit : List Nat
  deriving DecidableEq, Repr

/-- The cores of a group. -/
def coresOfGroup (gs : List (GroupE × List Nat)) (id : Nat) : List Nat := ((gs.find? (fun g => decide (g.1.id = id))).map Prod.snd).getD []
/-- A thread's core. -/
def threadCore (gs : List (GroupE × List Nat)) (id thread : Nat) : Option Nat := (coresOfGroup gs id)[thread]?
/-- A thread, or every thread of a group for 0xFFFFFFFF. -/
def threadCores (gs : List (GroupE × List Nat)) (id thread : Nat) : List Nat :=
  if thread = 0xFFFFFFFF then coresOfGroup gs id else (threadCore gs id thread).toList

/-! ### Slack (R232) -/

/-- s_min of a longest segment of `k` cycles between crofts whose operating points give `us` and `ur` units per tick. -/
def sMin (k us ur : Nat) : Nat := ceilDiv ((10 * (k - k / 5) + 20) * ur + 20 * us) (us * ur) - 1
/-- The croft over a side, or the croft itself beside a floor. -/
def beyond (croft side : Nat) : Nat :=
  if side = 1 then (if croft < 16 then croft else croft - 16) else if side = 2 then (if croft % 16 = 15 then croft else croft + 1)
  else if side = 3 then (if 240 ≤ croft then croft else croft + 16) else if croft % 16 = 0 then croft else croft - 1
/-- A placed route of packets: its ends, the flits that follow the header, and the floor whose entry it goes on into. -/
structure Flow where
  src : Nat
  dst : Nat
  tail : Nat
  floor : Option Nat
  deriving DecidableEq, Repr

/-- The crossing out of a croft over a side, as one number. -/
def crossKey (croft side : Nat) : Nat := croft * 8 + side
/-- The crossings of a route with their segments, which run to the write of the last flit (R27, R232). -/
def Flow.crossings (f : Flow) : List (Nat × Nat) :=
  let segs := routeSegs f.src f.dst
  (segs.zip (segs.drop 1)).map (fun p => (crossKey p.1.1 (sideTo p.1.1 p.2.1), p.1.2 + f.tail)) ++
  (match f.floor, segs.getLast? with
   | some fl, some l => [(crossKey l.1 (if fl = 0 then 4 else 2), l.2 + 1 + f.tail)]
   | _, _ => [])
/-- The furrow crossings of a rectangle with the cycles a beat takes through the croft before each, at most the 35 that R232 gives the
longest segment (DEDUCED, log entry 27). -/
def furrowCrossings (origin crows ccols : Nat) : List (Nat × Nat) :=
  let runs := ploughRuns origin crows ccols
  (((runs.zip (runs.drop 1)).foldl (fun (a : Nat × List (Nat × Nat)) p =>
    if p.1 = p.2 then (a.1 + 20, a.2) else (20, a.2 ++ [(crossKey p.1 (sideTo p.1 p.2), min a.1 35)])) (20, [])).2) ++
  (List.range (crows - 1)).map (fun k => (crossKey (origin + (k + 1) * 16) 1, 16))
/-- The longest segment of every crossing, by its number. -/
def longest (l : List (Nat × Nat)) : List (Nat × Nat) :=
  l.foldl (fun m q => if Store.getD m q.1 0 < q.2 then Store.put m q.1 q.2 else m) []
/-- Slack of every crossing out of the crofts given, from the longest segments of the placed traffic: croft, side, S. -/
def State.slacksFor (s : State) (crofts : List Nat) (long : List (Nat × Nat)) : Res (List (Nat × Nat × Nat)) :=
  (crofts.flatMap (fun c => [1, 2, 3, 4].map (fun d => (c, d)))).mapM (fun cd =>
    match Store.get long (crossKey cd.1 cd.2) with
    | none => .ok (cd.1, cd.2, s.cfgSlackFloor)
    | some k =>
      let m := sMin k (unitsPerTick (s.opOf cd.1)) (unitsPerTick (s.opOf (beyond cd.1 cd.2)))
      if 3 < m then .error ⟨0x0F, 0, cd.1, m, 3⟩ else .ok (cd.1, cd.2, max m s.cfgSlackFloor))
/-- The state with slacks in force, for the laps that follow from them (R144, R145). -/
def State.withSlacks (s : State) (l : List (Nat × Nat × Nat)) : State :=
  l.foldl (fun t q => t.modCroft q.1 (fun x =>
    let lo := 2 * ((q.2.1 + 3) % 4)
    { x with slack := x.slack - bits x.slack lo 2 * 2 ^ lo + q.2.2 * 2 ^ lo })) s

/-! ### Furrow (R145, R146, R167, R260) -/

/-- Segments get the lowest free numbers, and their laps. -/
def State.planSegs (s : State) (i : SowIn) : Res (List (Nat × SegE × Nat × Nat)) :=
  let free := (List.range 256).filter (fun g => decide (s.rd Reg.FUR_SEG.EN (j := g) = 0) || decide (s.rd Reg.FUR_SEG.ENCL (j := g) = i.n))
  (i.lot.segs.zip (List.range i.lot.segs.length)).mapM (fun gk => do
    let g := gk.1
    let bad : Refuse := ⟨0x09, 5, gk.2, 0, 0⟩
    let o := i.origin + g.row0 * 16 + g.col0
    need (decide (g.row0 + g.crows ≤ i.card.crows) && decide (g.col0 + g.ccols ≤ i.card.ccols)) bad
    let crofts := i.segCrofts g
    need (!(i.lot.segs.take gk.2).any (fun h => (i.segCrofts h).any (fun c => crofts.contains c))) bad
    need (crofts.all (fun c => decide (s.opOf c = s.opOf o) && decide (s.opOf c ≠ 4))) bad
    let lm := s.lapMin o g.crows g.ccols
    let lap := if g.lap = 0xFFFFFFFF then ceilDiv lm 16 * 16 else g.lap
    need (decide (lap % 16 = 0) && decide (lm ≤ lap) && decide (lap ≤ lm + 63)) bad
    match free[gk.2]? with
    | some h => pure (h, g, lap, lm)
    | none => .error bad)

/-- A planned beat (R260). -/
def PlanE.planned (p : PlanE) (segs : List (Nat × SegE × Nat × Nat)) : Nat :=
  p.beat + p.laps * ((segs[p.seg]?.map (fun g => g.2.2.1)).getD 0)
/-- Position of a core in a segment of the lot. -/
def SowIn.posIn (i : SowIn) (g : SegE) (core : Nat) : Nat :=
  posAt (20 * g.ccols) (rowOf core - (i.origin / 16 + g.row0) * 16) (colOf core - (i.origin % 16 + g.col0) * 20)

/-- R167: entries of one lane never meet a live payload. -/
def entriesClear (lap : Nat) (es : List (Nat × Nat × Nat)) : Bool :=
  let meets (a n b m : Nat) : Bool := decide (a < b + m) && decide (b < a + n)
  (List.range es.length).all (fun x => (List.range es.length).all (fun y =>
    match es[x]?, es[y]? with
    | some p, some q =>
      decide (x = y) || (!meets p.2.1 p.2.2 q.2.1 q.2.2 && (decide (p.1 ≤ q.1) || !meets (p.2.1 + lap) p.2.2 q.2.1 q.2.2))
    | _, _ => true))

/-- The furrow plan: its issuing cores lie in its segments, beats fit, entries do not collide (R167, R260). -/
def SowIn.checkPlans (i : SowIn) (gs : List (GroupE × List Nat)) (segs : List (Nat × SegE × Nat × Nat)) : Res Unit := do
  i.lot.plans.forM (fun p => do
    let bad : Refuse := ⟨0x09, 5, p.seg, 0, 0⟩
    match segs[p.seg]?, threadCore gs p.group p.thread with
    | some g, some c => need ((i.segCrofts g.2.1).contains (croftOf c)) bad
    | _, _ => .error bad
    need (decide (p.planned segs < 2 ^ 32)) bad)
  (List.range segs.length).forM (fun k => do
    match segs[k]? with
    | none => pure ()
    | some g =>
      [0, 1].forM (fun lane =>
        let es := (i.lot.plans.filter (fun p => decide (p.seg = k) && decide (p.kind = 1) && decide (p.lane = lane) && decide (0 < p.tiles))).map
          (fun p => (i.posIn g.2.1 ((threadCore gs p.group p.thread).getD 0), p.planned segs, 16 * p.tiles))
        need (entriesClear g.2.2.1 es) ⟨0x09, 5, k, 0, 0⟩))

/-! ### Code (R93, R256, R257) -/

/-- The offset of a tensor on a core. -/
def homeOff (placed : List Placed) (tid core : Nat) : Option Nat :=
  ((placed.find? (fun p => decide (p.tid = tid))).bind (fun p => p.homes.find? (fun h => decide (h.core = core)))).map Home.off
/-- The MPA of a byte of a slow-tier tensor (R298). Where it has one part, every ADDEND has an address: the tensor's MPA and ARG (R256). -/
def tensorMpa (placed : List Placed) (tid b : Nat) : Option Nat :=
  (placed.find? (fun p => decide (p.tid = tid))).bind (fun p => match p.parts with
    | [q] => some (q.mpa + b)
    | ps => partAddr ps b)

/-- Credit entries numbered on each sending core in section order (R261): core, entry, target, gate, number of the credit. A thread that a
re-sowing no longer has is no target: its entry keeps the number and stays invalid (log entry 62). -/
def SowIn.numberCreds (i : SowIn) (gs : List (GroupE × List Nat)) : List (Nat × Nat × Option Nat × Nat × Nat) :=
  ((i.lot.credits.zip (List.range i.lot.credits.length)).flatMap (fun ck =>
    (threadCores gs ck.1.sgroup ck.1.sthread).map (fun c => (c, ck.1, ck.2)))).foldl (fun acc x =>
      acc ++ [(x.1, (acc.filter (fun a => decide (a.1 = x.1))).length, threadCore gs x.2.1.tgroup x.2.1.tthread, x.2.1.gate, x.2.2)]) []
/-- The entries that phase 10 writes. -/
def SowIn.planCreds (i : SowIn) (gs : List (GroupE × List Nat)) : List (Nat × Nat × Nat × Nat × Nat) :=
  (i.numberCreds gs).filterMap (fun q => q.2.2.1.map (fun t => (q.1, q.2.1, t, q.2.2.2)))

/-- The value of a relocation on a core of a group (R256): a tensor that its group shares out lies at one offset on every core of the
group. None where what it names has no place on the core. -/
def Plan.resolve (p : Plan) (g : GroupE) (core : Nat) (r : Reloc) : Option Nat :=
  match r.kind with
  | 1 => ((homeOff p.tens.placed r.tid core).orElse (fun _ => (p.tens.placed.find? (fun t => decide (t.tid = r.tid) && decide (t.group = g.id))).bind
      (fun t => t.homes.head?.map Home.off))).map (fun o => o + r.arg)
  | 2 => (tensorMpa p.tens.placed r.tid r.arg).map (fun a => a % 2 ^ 32)
  | 3 => (tensorMpa p.tens.placed r.tid r.arg).map (fun a => a / 2 ^ 32)
  | 4 => threadCore p.groups g.id r.arg
  | 5 => (p.inp.lot.plans[r.arg]?).map (fun e => e.planned p.segs % 2 ^ 32)
  | 6 => ((p.inp.numberCreds p.groups).find? (fun c => decide (c.1 = core) && decide (c.2.2.2.2 = r.arg))).map (fun c => c.2.1)
  | _ => none
/-- A relocation names an entry of the lot: a bad one does not (R274). -/
def Plan.names (p : Plan) (image : Nat) (r : Reloc) : Bool :=
  if r.kind ≤ 3 then p.inp.lot.tensors.any (fun t => decide (t.tid = r.tid))
  else if r.kind = 4 then p.groups.any (fun g => decide (g.1.image = image) && decide (r.arg < g.2.length)) || p.groups.all (fun g => decide (g.1.image ≠ image))
  else if r.kind = 5 then decide (r.arg < p.inp.lot.plans.length)
  else decide (r.arg < p.inp.lot.credits.length)

/-- Images fit the code store, and every relocation names a hand word and an entry of the lot (R257, R274). -/
def Plan.checkCode (p : Plan) : Res Unit :=
  (List.range p.inp.lot.images.length).forM (fun k => do
    match p.inp.lot.images[k]? with
    | none => pure ()
    | some m =>
      let bad : Refuse := ⟨0x08, 3, k, m.words.length, 2048⟩
      need (decide (m.words.length ≤ 2048)) bad
      m.relocs.forM (fun r => do
        need (match m.words[r.word]? with
          | some w => decide (bits w 60 4 = 0)
          | none => false) bad
        need (p.names k r) bad))

/-- HALT with every other field zero (R94, R98). -/
def haltWord : Nat := 0x07F0000000000000

/-- The words of an image on a core of a group, relocations resolved into IMM[31:0] (R257). Of two that name one word the first counts
(DESIGN CHOICE, log entry 86). -/
def Plan.words (p : Plan) (g : GroupE) (m : Image) (core : Nat) : List Nat :=
  (List.range m.words.length).map (fun k =>
    let w := m.words[k]?.getD haltWord
    match m.relocs.find? (fun r => decide (r.word = k)) with
    | some r => w - bits w 0 32 + (((p.resolve g core r).getD (Config.openReloc core r.word r.arg).toNat) % 2 ^ 32)
    | none => w)

/-! ### The schedule (R248, R268 phase 8) -/

/-- The words that may issue next after word `k` of a code store (R94, R98): past the words of the image every word is HALT. -/
def nextWords (ws : List Nat) (k : Nat) : List Nat :=
  let w := ws[k]?.getD haltWord
  let op := bits w 52 8
  let dest : Int := k + sint 32 (bits w 0 32)
  let target : List Nat := if 0 ≤ dest ∧ dest < 2048 then [dest.toNat] else []
  if bits w 60 4 ≠ 0 then [k + 1]
  else if op = 0x7F then []
  else if 0x30 ≤ op ∧ op ≤ 0x34 then (k + 1) :: target
  else if op = 0x38 then target
  else if op = 0x39 then List.range ws.length
  else [k + 1]
/-- Words reached from those of the front in `n` issues or fewer, with the least number of issues before each. -/
def wordsWithin (ws : List Nat) : Nat → Nat → List Nat → List (Nat × Nat) → List (Nat × Nat)
  | 0, _, _, seen => seen
  | n + 1, d, front, seen =>
    let fresh := (front.eraseDups).filter (fun k => decide (k < ws.length) && (Store.get seen k).isNone)
    if fresh.isEmpty then seen
    else wordsWithin ws n (d + 1) (fresh.flatMap (nextWords ws)) (fresh.foldl (fun m k => Store.put m k d) seen)
/-- The least number of words that issue before word `k` when a core starts at `entry`, one a cycle (R94); none where no path leads to
it. -/
def issuesBefore (ws : List Nat) (entry k : Nat) : Option Nat := Store.get (wordsWithin ws 2048 0 [entry] []) k

/-- R268 phase 8, R156, R158: every furrow instruction of the plan can meet its beat. Cores and segments start together (phase 11), so
an instruction behind `d` words sees its position in beat `d` less the position's delay; an entry or a capture must start later than
that, a wait must not end before it. The count takes no wait of the program, none of the mesh and no slot 6 loss (R246): a plan it
refuses would be LATE on every schedule (DESIGN CHOICE, log entry 27). -/
def State.checkBeats (s : State) (p : Plan) : Res Unit :=
  p.inp.lot.plans.forM (fun e =>
    match p.groups.find? (fun g => decide (g.1.id = e.group)), p.segs[e.seg]?, threadCore p.groups e.group e.thread with
    | some g, some q, some c =>
      let ws := ((p.inp.lot.images[g.1.image]?).map (fun m => p.words g.1 m c)).getD []
      match (if e.tiles = 0 ∧ e.kind ≠ 3 then none else issuesBefore ws g.1.entry e.word) with
      | none => .ok ()
      | some d =>
        let lagged := s.delayIn (p.inp.origin + q.2.1.row0 * 16 + q.2.1.col0) q.2.1.crows q.2.1.ccols (p.inp.posIn q.2.1 c)
        let first := if e.kind = 3 then d - lagged else d + 1 - lagged
        need (decide (first ≤ e.planned p.segs)) ⟨0x12, 5, c, e.planned p.segs, first⟩
    | _, _, _ => .ok ())

/-! ### Gates and drills (R261, R262, R311) -/

/-- Windows of the lot, and G7 over the shares of compute copies (R311). -/
def SowIn.planWins (i : SowIn) (gs : List (GroupE × List Nat)) (placed : List Placed) : List (Nat × Nat × Nat × Nat) × List Nat :=
  let size (tid core : Nat) : Nat := ((placed.find? (fun p => decide (p.tid = tid))).bind (fun p => p.homes.find? (fun h => decide (h.core = core)))).elim 0 Home.bytes
  let own := i.lot.wins.flatMap (fun w => (threadCores gs w.group w.thread).filterMap (fun c =>
    (homeOff placed w.tid c).map (fun o =>
      let b := o / 256 * 256
      (c, w.gate, b, ceilDiv (o + size w.tid c - b) 256 * 256))))
  let copies := placed.filter (fun p => i.lot.isCopy p.tid)
  let cores := (copies.flatMap (fun p => p.homes.map Home.core)).eraseDups
  let g7 := cores.filterMap (fun c =>
    let hs := copies.flatMap (fun p => p.homes.filter (fun h => decide (h.core = c) && decide (0 < h.bytes)))
    match hs with
    | [] => none
    | h :: t =>
      let lo := (t.map Home.off).foldl min h.off / 256 * 256
      let hi := (t.map (fun x => x.off + x.bytes)).foldl max (h.off + h.bytes)
      some (c, 7, lo, ceilDiv (hi - lo) 256 * 256))
  (own ++ g7, g7.map Prod.fst)


/-- A rectangle word with its corner counted from the enclosure's north-west core, resolved, and its GATE set (R181, R261). -/
def SowIn.rectWord (i : SowIn) (gate w : Nat) : Word :=
  let row := bits w 0 8 + i.origin / 16 * 16
  let col := bits w 21 9 + i.origin % 16 * 20
  BitVec.ofNat 64 (row % 2 ^ 8 + bits w 8 13 * 2 ^ 8 + col % 2 ^ 9 * 2 ^ 21 + bits w 30 13 * 2 ^ 30 + gate * 2 ^ 43)
/-- The rectangle stays inside the enclosure. -/
def SowIn.rectInside (i : SowIn) (w : Nat) : Bool :=
  let r := Rect.ofWord (BitVec.ofNat 64 w)
  r.isEmpty || (!r.bad && decide (r.row0 + (r.rown - 1) * r.rstep < 16 * i.card.crows) && decide (r.col0 + (r.coln - 1) * r.cstep < 20 * i.card.ccols))
/-- The cores a resolved tree reaches. -/
def treeTargets (cores : List Nat) (tree : List Word) : List Nat := cores.filter (fun c => tree.any (fun w => (Rect.ofWord w).hits c))

/-- Gates, credits, multicast rectangles and points (R184, R261, R311). A credit whose target names no thread is refused HEDGE with ITEM
TGROUP (DESIGN CHOICE, log entry 88). -/
def SowIn.checkGates (i : SowIn) (gs : List (GroupE × List Nat)) (wins : List (Nat × Nat × Nat × Nat)) (g7 : List Nat)
    (creds : List (Nat × Nat × Nat × Nat × Nat)) (trees : List (Nat × List Word)) : Res Unit := do
  let on (c : Nat) : List (Nat × Nat × Nat × Nat) := wins.filter (fun w => decide (w.1 = c))
  (gs.flatMap Prod.snd).forM (fun c => do
    let ws := on c
    let own := if g7.contains c then ws.length - 1 else ws.length
    need (decide (ws.length ≤ 8)) ⟨0x0A, 6, c, ws.length, 8⟩
    need (!(g7.contains c && decide ((ws.filter (fun w => decide (w.2.1 = 7))).length ≠ 1))) ⟨0x0A, 6, c, own, 8⟩
    need ((List.range ws.length).all (fun x => (List.range ws.length).all (fun y => match ws[x]?, ws[y]? with
      | some p, some q => decide (x = y) || (decide (p.2.1 ≠ q.2.1) && !overlap p.2.2.1 p.2.2.2 q.2.2.1 q.2.2.2)
      | _, _ => true))) ⟨0x0A, 6, c, ws.length, 8⟩
    let n := (creds.filter (fun q => decide (q.1 = c))).length
    need (decide (n ≤ 16)) ⟨0x0A, 6, c, n, 16⟩)
  i.lot.credits.forM (fun k => match threadCore gs k.tgroup k.tthread with
    | none => .error ⟨0x0B, 6, k.tgroup, 0, 0⟩
    | some c => need (!(decide (k.gate = 7) && g7.contains c)) ⟨0x0A, 6, c, 0, 0⟩)
  i.lot.points.forM (fun p => match (coresOfGroup gs p.group).find? (fun c => decide (p.gate = 7) && g7.contains c) with
    | none => .ok ()
    | some c => .error ⟨0x0A, 6, c, 0, 0⟩)
  (List.range i.lot.mgroups.length).forM (fun k => do
    need (((i.lot.mgroups[k]?.map MGroupE.rects).getD []).all i.rectInside) ⟨0x0B, 6, k, 0, 0⟩
    let targets := treeTargets i.cores ((trees[k]?.map Prod.snd).getD [])
    match targets.find? (fun c => decide ((trees[k]?.map Prod.fst).getD 0 = 7) && g7.contains c) with
    | none => pure ()
    | some c => .error ⟨0x0A, 6, c, 0, 0⟩
    let owners := gs.filter (fun g => g.2.any (fun c => targets.contains c))
    let pts (g : Nat) : List (PointE × Nat) := sortBy (fun a b => decide (a.1.word ≤ b.1.word))
      ((i.lot.points.zip (List.range i.lot.points.length)).filter (fun p => decide (p.1.mgroup = k) && decide (p.1.group = g)))
    let kinds (g : Nat) : List Nat := (pts g).map (fun p => p.1.kind)
    match owners with
    | [] => pure ()
    | g :: rest => match rest.find? (fun h => decide (kinds h.1.id ≠ kinds g.1.id)) with
      | none => pure ()
      | some h => .error ⟨0x0A, 6, (((pts h.1.id ++ pts g.1.id).head?).map Prod.snd).getD 0, 0, 0⟩)

/-- Drill limits (R201, R262). -/
def SowIn.checkDrills (i : SowIn) : Res Unit :=
  i.lot.drills.forM (fun d => need (decide (d.outs.sum ≤ 16)) ⟨0x0C, 7, d.group, d.outs.sum, 16⟩)

/-! ### Routes and shares (R264, R268 phase 7, R292) -/

/-- Tabkos on which the enclosure has parts. -/
def State.tabkosUsed (s : State) (t : Tensors) : List Nat :=
  (List.range 48).filter (fun k => s.tabkoPresent k && (t.placed.flatMap Placed.parts ++ t.inspect).any (fun p => decide (0 < p.len) && s.inSpan k p.mpa))
/-- Floors that the sheaves name. -/
def Lot.floors (l : Lot) : List Nat :=
  [0, 1].filter (fun f => l.sheaves.any (fun h => decide (h.floor = f)) || (match l.stat with
    | some st => decide (st.1 ≠ 0xFFFF) && decide (st.2.1 = f)
    | none => false))

/-- The crofts on the enclosure's routes to a floor, and from that floor to the Tabkos it writes (R25, R27). -/
def SowIn.floorCrofts (i : SowIn) (floor : Nat) (tabkos : List Nat) : List Nat :=
  ((rectCrofts i.origin i.card.crows i.card.ccols).flatMap (fun c => routeCrofts (anchor c) (edgeOf (anchor c) floor))) ++
  tabkos.flatMap (fun t => routeCrofts (portCore t) (edgeOf (portCore t) floor))

/-- Senders of a multicast group: cores whose credits name its anchor, the lowest target, and its gate (R184). -/
def treeSenders (cores : List Nat) (creds : List (Nat × Nat × Nat × Nat × Nat)) (tree : Nat × List Word) : List Nat :=
  match treeTargets cores tree.2 with
  | [] => []
  | c :: r => ((creds.filter (fun q => decide (q.2.2.1 = r.foldl min c) && decide (q.2.2.2.1 = tree.1))).map Prod.fst).eraseDups
/-- The routes of gate writes and multicasts that the lot plans, both ways: writes of up to eight beats, their answers and grants back
(R132, R179, R183). -/
def Plan.gateFlows (p : Plan) : List Flow :=
  p.creds.flatMap (fun q => [⟨q.1, q.2.2.1, 8, none⟩, ⟨q.2.2.1, q.1, 0, none⟩]) ++
  p.trees.flatMap (fun tr => (treeSenders p.inp.cores p.creds tr).flatMap (fun c =>
    (treeTargets p.inp.cores tr.2).flatMap (fun d => [⟨c, d, 9, none⟩, ⟨d, c, 0, none⟩])))
/-- The routes between the enclosure's cores, the landing ports and the floors that its tensors and sheaves use, both ways. -/
def SowIn.farFlows (i : SowIn) (tabkos floors : List Nat) : List Flow :=
  i.cores.flatMap (fun c =>
    tabkos.flatMap (fun k => [⟨c, portCore k, 8, none⟩, ⟨portCore k, c, 8, none⟩]) ++ floors.map (fun f => ⟨c, edgeOf c f, 8, some f⟩)) ++
  floors.flatMap (fun f => tabkos.flatMap (fun k =>
    [⟨edgeOf (portCore k) f, portCore k, 8, none⟩, ⟨portCore k, edgeOf (portCore k) f, 0, some f⟩]))
/-- R232: the longest segments of everything placed: packets and furrow beats. -/
def State.longSegs (s : State) (p : Plan) : List (Nat × Nat) :=
  longest ((p.gateFlows ++ p.inp.farFlows (s.tabkosUsed p.tens) p.inp.lot.floors).flatMap Flow.crossings ++
    p.inp.lot.segs.flatMap (fun g => furrowCrossings (p.inp.origin + g.row0 * 16 + g.col0) g.crows g.ccols))

/-- R191: no route of a planned gate write turns on a stile. Such a route has no target of R28: ITEM is 0xFFFFFFFF (DESIGN CHOICE, log
entry 64). -/
def State.checkTurns (s : State) (p : Plan) : Res Unit :=
  need (p.gateFlows.all (fun f => s.turnsClear f.src f.dst)) ⟨0x0E, 6, 0xFFFFFFFF, 0, 0⟩

/-- Phase 7: transit crofts. -/
def State.planRoutes (s : State) (i : SowIn) (t : Tensors) : Res (List Nat) := do
  let mine := rectCrofts i.origin i.card.crows i.card.ccols
  let tks := s.tabkosUsed t
  let tw := tks.flatMap (fun k => mine.flatMap (fun c => routeCrofts (anchor c) (portCore k)))
  tks.forM (fun k => need (mine.all (fun c => (s.dist c k).valid)) ⟨0x0E, 0, k, 0, 0⟩)
  let fl ← i.lot.floors.mapM (fun f => do
    let cs := i.floorCrofts f tks
    need (decide (s.floorState f ≠ 3)) ⟨0x0E, 0, 48 + f, 0, 0⟩
    match cs.find? (fun c => s.quarantined c) with
    | some c => .error ⟨0x04, 0, c, 0, 0⟩
    | none => pure ()
    need (cs.all (fun c => s.mayCross i c)) ⟨0x0E, 0, 48 + f, 0, 0⟩
    pure cs)
  pure ((tw ++ fl.flatten).eraseDups.filter (fun c => !mine.contains c))

/-- Slot shares (R258, R292). -/
def State.checkShares (s : State) (i : SowIn) (t : Tensors) : Res Unit := do
  let tks := s.tabkosUsed t
  let sh := i.card.share
  let first := tks.head?.getD 0xFFFFFFFF
  let have_ := (tks.head?.map (fun k => s.freeSlots k)).getD 60
  need (decide (i.lot.profile.share ≤ sh)) ⟨0x0D, 1, first, i.lot.profile.share, have_⟩
  need (decide (sh = 0) || decide (8 ≤ sh)) ⟨0x0D, 0, first, 8, have_⟩
  match (if i.keep.isSome then none else tks.find? (fun k => decide (s.freeSlots k < sh))) with
  | some k => .error ⟨0x0D, 0, k, sh, s.freeSlots k⟩
  | none => need (decide (sh ≤ 60)) ⟨0x0D, 0, first, sh, have_⟩

/-! ### Reduction and update (R262, R311, R328) -/

/-- A slow-tier tensor by id. -/
def slowTensor (placed : List Placed) (tid : Nat) : Option Placed :=
  placed.find? (fun p => decide (p.tid = tid) && (decide (p.tier = 1) || (decide (p.tier = 2) && decide (p.life ≠ 1) && p.homes.isEmpty)))
/-- Bytes of an element of an R106 format code. -/
def r106Bytes (c : Nat) : Nat := if c = 0 ∨ c = 5 then 4 else if c = 1 ∨ c = 2 ∨ c = 6 then 2 else 1
/-- The exact sheaf that an AEMIT word names, if it does (R51, R329). -/
def exactEmit (l : Lot) (w : Nat) : Option Nat :=
  if bits w 60 4 = 2 ∧ bits w 56 4 = 3 ∧ l.sheaves.any (fun e => decide (e.num = bits w 38 16) && decide (e.kind = 1)) then some (bits w 38 16) else none
/-- The emission words of an image that name exact sheaves (R328). -/
def exactEmits (l : Lot) (m : Image) : List Nat := m.words.filterMap (exactEmit l)
/-- The most exact tiles emitted from each word on to the end of the step, on a path that only goes forward; SBAR ends the step (R349). -/
def emitsFrom (l : Lot) (ws : List Nat) : List (Nat × Nat) :=
  (List.range ws.length).reverse.foldl (fun acc k =>
    let w := ws[k]?.getD haltWord
    let rest := if bits w 60 4 = 5 ∧ bits w 56 4 = 5 then 0
      else (((nextWords ws k).filter (fun j => decide (k < j))).map (fun j => Store.getD acc j 0)).foldl max 0
    Store.put acc k (rest + b2n (exactEmit l w).isSome)) []
/-- The most exact tiles that a core with an image emits in one step, each word once (R328; log entry 27). -/
def mostEmits (l : Lot) (ws : List Nat) : Nat := ((emitsFrom l ws).map Prod.snd).foldl max 0

/-- R328. -/
def State.checkSheaves (s : State) (i : SowIn) (gs : List (GroupE × List Nat)) (t : Tensors) : Res Unit := do
  let l := i.lot
  let bad (n : Nat) : Refuse := ⟨0x11, 8, n, 0, 0⟩
  let stat := (l.stat.map (fun h => h.1)).getD 0xFFFF
  let ringless (f : Nat) : Bool := decide (s.rd Reg.FLR_RING.LEN f i.n = 0)
  need (decide (l.sheaves.length ≤ 4096)) (bad ((l.sheaves[4096]?.map SheafE.num).getD 0))
  (List.range l.sheaves.length).forM (fun k => do
    match l.sheaves[k]? with
    | none => pure ()
    | some h =>
      need (!(l.sheaves.take k).any (fun q => decide (q.num = h.num)) && decide (h.num ≠ stat)) (bad h.num)
      need (decide (((l.sheaves.take (k + 1)).filter (fun q => decide (q.kind = 1))).length ≤ 64)) (bad h.num)
      need (decide (h.tiles = 0) || decide (0 < h.contrib)) (bad h.num)
      need (decide (h.contrib ≤ 1024)) (bad h.num)
      need (match t.placed.find? (fun p => decide (p.tid = h.gTid)) with
        | some g => decide (g.fmt = if h.kind = 1 then 5 else 0) && decide (h.gFirst % 256 = 0) && decide (h.gFirst + 256 * h.tiles ≤ g.bytes / 4) &&
          (decide (h.tiles = 0) || (slowTensor t.placed h.gTid).isSome)
        | none => false) (bad h.num)
      need (decide (h.kind = 0) || (decide (-160 ≤ h.sInit) && decide (h.sInit ≤ 127))) (bad h.num)
      need (!ringless h.floor) (bad h.num))
  (gs.filter (fun g => !g.2.isEmpty)).forM (fun g => match l.images[g.1.image]? with
    | none => pure ()
    | some m => need (decide (mostEmits l m.words ≤ 8)) (bad (((exactEmits l m)[8]?).getD 0)))
  need (decide (l.tally.isSome = decide (stat ≠ 0xFFFF))) (bad stat)
  need (decide (stat = 0xFFFF) || !ringless ((l.stat.map (fun h => h.2.1)).getD 0)) (bad stat)

/-- A range of elements of a tensor lies in one part; its first byte's address. -/
def rangeAt (p : Placed) (w first count : Nat) : Option Nat :=
  (p.parts.find? (fun q => decide (q.off ≤ first * w) && decide ((first + count) * w ≤ q.off + q.len))).map (fun q => q.mpa + (first * w - q.off))

/-- R311. -/
def State.checkUpdate (s : State) (i : SowIn) (t : Tensors) : Res Unit :=
  let l := i.lot
  (List.range l.updates.length).forM (fun k => do
    match l.updates[k]? with
    | none => pure ()
    | some u =>
      let bad : Refuse := ⟨0x11, 0xA, u.sheaf, 0, 0⟩
      need (decide (l.rule = 0)) bad
      need (match l.sets[u.set]? with
        | some q => !q.2
        | none => false) bad
      let sh := l.sheaves.find? (fun h => decide (h.num = u.sheaf))
      match slowTensor t.placed u.w, slowTensor t.placed u.m, slowTensor t.placed u.g, t.placed.find? (fun p => decide (p.tid = u.c)) with
      | some w, some m, some g, some c =>
        need (decide (w.fmt = 0) && decide (m.fmt = 2) && (decide (g.fmt = 0) || decide (g.fmt = 5))) bad
        need (decide (c.life = 1) && decide (c.src = u.w) && decide (1 ≤ c.fmt) && decide (c.fmt ≤ 4)) bad
        let e := u.first + u.count
        need (decide (u.count = 0) ||
          (decide (e ≤ w.bytes / 4) && decide (e ≤ m.bytes / 2) && decide (e ≤ g.bytes / 4) && decide (e ≤ c.bytes / r106Bytes c.fmt))) bad
        need (decide (u.count = 0) || (match rangeAt w 4 u.first u.count, rangeAt m 2 u.first u.count, rangeAt g 4 u.first u.count with
          | some a, some b, some d => decide (s.tabkoOf a = s.tabkoOf b) && decide (s.tabkoOf a = s.tabkoOf d)
          | _, _, _ => false)) bad
        need (decide (u.count = 0) || !(l.updates.take k).any (fun q => decide (q.w = u.w) && decide (0 < q.count) && decide (q.first < e) &&
          decide (u.first < q.first + q.count))) bad
        need (decide (u.count = 0) || (sh.map (fun h => decide (0 < h.tiles))).getD false) bad
        need (match sh with
          | some h => decide (decide (h.kind = 1) = decide (g.fmt = 5))
          | none => decide (u.count = 0)) bad
      | _, _, _, _ => .error bad)

/-- TALLY (R268 phase 9). -/
def SowIn.checkTally (i : SowIn) : Res Unit :=
  let n := (i.lot.tally.getD []).length
  need (decide (n ≤ 1024)) ⟨0x10, 9, 0xFFFFFFFF, n, 1024⟩

/-! ### Phases 3 to 9 -/

/-- R144, R163, R268 phase 5: on the free path no catch buffer holds a beat, and a crossing queue holds those under way: a segment with a
queue of more than 128. -/
def State.queueOver (s : State) (i : SowIn) : Option Nat :=
  (List.range i.lot.segs.length).find? (fun k => match i.lot.segs[k]? with
    | none => false
    | some g =>
      let runs := ploughRuns (i.origin + g.row0 * 16 + g.col0) g.crows g.ccols
      (runs.zip (runs.drop 1)).any (fun p => decide (p.1 ≠ p.2) && decide (128 < s.crossBeats p.1 p.2 (s.opOf p.2))))

/-- Phases 3 to 9 (R268): the whole plan, or the first refusal in phase order. -/
def State.planSowing (s : State) (i : SowIn) : Res Plan := do
  let gm := i.mapGroups
  let tens ← s.placeTensors i gm
  match gm.findSome? GroupMap.bad with
  | some r => .error r
  | none => pure ()
  if i.keep.isSome then pure () else i.checkReserve gm
  let gs := gm.map (fun m => (m.grp, m.run))
  let w := i.planWins gs tens.placed
  let creds := i.planCreds gs
  let trees := i.lot.mgroups.map (fun m => (m.gate, m.rects.map (i.rectWord m.gate)))
  -- laps come first, for the relocations that name them; they follow from the slack of the placed traffic
  let pre : Plan :=
    { inp := i, groups := gs, tens := tens, segs := [], slacks := [], wins := w.1, creds := creds, trees := trees, transit := [] }
  let long := s.longSegs pre
  let tw := (s.tabkosUsed tens).flatMap (fun k => (rectCrofts i.origin i.card.crows i.card.ccols).flatMap (fun c => routeCrofts (anchor c) (portCore k)))
  let s1 := s.withSlacks (match s.slacksFor (rectCrofts i.origin i.card.crows i.card.ccols ++ tw).eraseDups long with
    | .ok l => l
    | .error _ => [])
  let segs := s1.planSegs i
  let p0 : Plan := { pre with segs := (match segs with
    | .ok l => l
    | .error _ => []) }
  if i.settled then pure () else p0.checkCode
  let _ ← segs
  if i.settled then pure () else i.checkPlans gs p0.segs
  match s1.queueOver i with
  | some g => .error ⟨0x09, 5, g, 0, 0⟩
  | none => pure ()
  if i.settled then pure () else i.checkGates gs w.1 w.2 creds trees
  i.checkDrills
  let transit ← s.planRoutes i tens
  if i.settled then pure () else s.checkTurns p0
  let sl ← s.slacksFor (rectCrofts i.origin i.card.crows i.card.ccols ++ transit) long
  s.checkShares i tens
  if i.settled then pure () else s1.checkBeats p0
  i.checkTally
  s.checkSheaves i gs tens
  s.checkUpdate i tens
  need (decide (i.card.yoke = 0) || decide (s.rd Reg.YK_CFG.EN = 1)) ⟨0x13, 0, 0xFFFFFFFF, 0, 0⟩
  pure { p0 with slacks := sl, transit := transit }

/-- A placement anew at a re-sowing (R278, R279): on the cores kept at the load, and, where more than the reserve has become fallow, on what
cores there are. -/
def State.replanSowing (s : State) (i : SowIn) : Res Plan :=
  match s.planSowing i with
  | .ok p => .ok p
  | .error r => if i.newFallow.isEmpty then .error r else s.planSowing { i with newFallow := [] }

end Sys2Proof.Machine
end

