-- ==== Sys2Proof/Machine/Sow.lean ====
section
/-! DEFINITION. Phase 10 of sowing (R268): what a placement writes into cores, crofts, Tabkos and floors. -/

namespace Sys2Proof.Machine

/-! ### Code and threads (R93, R256, R269) -/

/-- The code store of a core: the words, and HALT in every word past them. -/
def State.setCode (s : State) (core : Nat) (ws : List Nat) : State :=
  let lo := core * 2048
  let block := (List.range 2048).map (fun k => (lo + k, BitVec.ofNat 64 (ws[k]?.getD haltWord)))
  { s with code := s.code.filter (fun e => decide (e.1 < lo)) ++ block ++ s.code.filter (fun e => decide (lo + 2048 ≤ e.1)) }

/-- Segments of a core that hold WEIGHT tensors, as SP_CLASS has them. -/
def classMask (placed : List Placed) (core : Nat) : Nat :=
  let hs := (placed.filter (fun t => decide (bits t.flags 1 1 = 1))).flatMap (fun t => t.homes.filter (fun h => decide (h.core = core) && decide (0 < h.bytes)))
  (List.range 16).foldl (fun a k => if hs.any (fun h => decide (h.off < (k + 1) * 0x4000) && decide (k * 0x4000 < h.off + h.bytes)) then a + 2 ^ k else a) 0

/-- The CHECKS values of a group: CHK_LIMIT, SCRUB, MCAST_HOLD (R262). -/
def State.checksOf (s : State) (l : Lot) (group : Nat) (weights : Bool) : Nat × Nat × Nat :=
  match l.checks.find? (fun c => decide (c.group = group)) with
  | some c => (c.limit, c.scrub, c.hold)
  | none => (s.cfgChkLimit, b2n weights, 0x40)

/-- The classes of a core as a placement has them; a segment whose class changes is re-encoded (R122, R126). -/
def State.setClass (s : State) (core mask : Nat) : State :=
  (s.wr Reg.SP_CLASS.CLASS mask core).reencodeSegs core (s.changedSegs core mask)
/-- What phase 10 writes into one core of a group. An IMAGE that the lot does not have is an empty one: every word HALT (DESIGN CHOICE, log entry
87). -/
def State.writeCore (s : State) (p : Plan) (g : GroupE) (core : Nat) : State :=
  let l := p.inp.lot
  let m := l.images[g.image]?.getD ⟨[], []⟩
  let mask := classMask p.tens.placed core
  let ck := s.checksOf l g.id ((coresOfGroup p.groups g.id).any (fun c => decide (classMask p.tens.placed c ≠ 0)))
  let s1 := (((s.setCode core (p.words g m core)).wr Reg.HND_CTL.ENTRY g.entry core).setClass core mask).wr Reg.SP_SCRUB.EN ck.2.1 core
  let s2 := s1.wr Reg.ARR_CHK.CHK_LIMIT ck.1 core
  let outs := ((l.drills.find? (fun d => decide (d.group = g.id))).map DrillE.outs).getD [0, 0, 0, 0]
  let s3 := (([Reg.DRL_CFG.OUT0, Reg.DRL_CFG.OUT1, Reg.DRL_CFG.OUT2, Reg.DRL_CFG.OUT3].zip outs).foldl (fun t f => t.wr f.1 f.2 core) s2)
  (List.range 16).foldl (fun t k => match p.creds.find? (fun c => decide (c.1 = core) && decide (c.2.1 = k)) with
    | some c => ((t.wr Reg.GCR.TARGET c.2.2.1 core k).wr Reg.GCR.GATE c.2.2.2.1 core k).wr Reg.GCR.VALID 1 core k
    | none => t.wr Reg.GCR.VALID 0 core k) s3

/-- EMIT_SCALE of one core: every exact sheaf of the lot in section order, at the scale and round in force (R329, R343, R353). -/
def State.writeScales (s : State) (p : Plan) (core : Nat) : State :=
  let exact := p.inp.lot.sheaves.filter (fun h => decide (h.kind = 1))
  (List.range 64).foldl (fun t j => match exact[j]? with
    | some h =>
      (((t.wr Reg.EMIT_SCALE.SHEAF h.num core j).wr Reg.EMIT_SCALE.S (wrapInt 9 (t.scaleOf h.floor p.inp.n h.num)) core j).wr Reg.EMIT_SCALE.VALID 1 core j).wr
        Reg.EMIT_SCALE.ROUND (t.roundOf h.floor p.inp.n h.num) core j
    | none => t.wr Reg.EMIT_SCALE.VALID 0 core j) s

/-- The resolved tree flits, in the tree range of every core of the enclosure that is not fallow (R258, R261). -/
def State.writeTrees (s : State) (p : Plan) : State :=
  p.inp.cores.foldl (fun u c => (List.range p.trees.length).foldl (fun t k =>
    t.spFill c (p.inp.lot.profile.treeOff + 32 * k) 7 (((p.trees[k]?.map Prod.snd).getD []).flatMap (fun w => leBytes 8 w.toNat))) u) s

/-- Seeds and the step's random sequence on every core of the rectangle that runs (R82, R268). -/
def State.writeSeeds (s : State) (p : Plan) (step : Nat) : State :=
  p.inp.cores.foldl (fun t c =>
    let u := (((t.wr Reg.NUM_SR.SEED p.inp.lot.srSeed c).wr Reg.NUM_SR.STEP step c).wr Reg.NUM_SR_SEQ.SEQ 0 c).wr Reg.VEC_SRSEQ.SEQ 0 c
    [0, 1, 2, 3].foldl (fun v d => v.wr Reg.DRL_RUN.SRSEQ 0 c d) u) s
/-- The thread numbers of R269: by plough order, over the cores that are not fallow here or at the mate. -/
def State.writeThreads (s : State) (p : Plan) : State :=
  let cs := p.inp.cores
  let s1 := (s.enclCores p.inp.n).foldl (fun t c => if (t.core c).thread.isSome then t.modCore c (fun x => { x with thread := none }) else t) s
  (cs.zip (List.range cs.length)).foldl (fun t q => t.modCore q.1 (fun x => { x with thread := some q.2 })) s1

/-! ### Gates, slack, segments (R147, R184, R232, R311) -/

/-- Windows of the placement: the gates are closed first, so that a window of an earlier placement ends. -/
def State.writeWins (s : State) (p : Plan) : State :=
  let s1 := p.inp.cores.foldl (fun t c => (List.range 8).foldl (fun u g =>
    if u.rd Reg.GATE_WIN.SIZE c g = 0 then u else (u.closeGate c g).wr Reg.GATE_WIN.SIZE 0 c g) t) s
  p.wins.foldl (fun t w => (t.wr Reg.GATE_WIN.BASE w.2.2.1 w.1 w.2.1).wr Reg.GATE_WIN.SIZE w.2.2.2 w.1 w.2.1) s1
/-- R184: the gates of a multicast group advance to one epoch more than the largest among them. -/
def State.advanceEpochs (s : State) (p : Plan) : State :=
  p.trees.foldl (fun t q =>
    let owners := treeTargets p.inp.cores q.2
    let top := (owners.map (fun c => t.rd Reg.GATE_EPOCH.EPOCH c q.1)).foldl max 0
    owners.foldl (fun u c => u.setEpoch c q.1 (top + 1)) t) s
/-- R311: G7 opens on every core that holds a share of a compute copy. -/
def State.openCopies (s : State) (p : Plan) : State :=
  let cs := ((p.tens.placed.filter (fun t => p.inp.lot.isCopy t.tid)).flatMap (fun t => t.homes.map Home.core)).eraseDups
  cs.foldl (fun t c => t.openGate c 7) s
/-- HL_SLACK and MESH_CTL of the crofts (R186, R232, R262). -/
def State.writeCrofts (s : State) (p : Plan) : State :=
  let side (d : Nat) : Fld := if d = 1 then Reg.HL_SLACK.S_N else if d = 2 then Reg.HL_SLACK.S_E else if d = 3 then Reg.HL_SLACK.S_S else Reg.HL_SLACK.S_W
  let s1 := p.slacks.foldl (fun t q => t.wr (side q.2.1) q.2.2 q.1) s
  (rectCrofts p.inp.origin p.inp.card.crows p.inp.card.ccols).foldl (fun t c =>
    let hs := (p.groups.filter (fun g => g.2.any (fun k => decide (croftOf k = c)))).map (fun g => (s.checksOf p.inp.lot g.1.id false).2.2)
    t.wr Reg.MESH_CTL.MCAST_HOLD (match hs with
      | [] => 0x40
      | h :: r => r.foldl min h) c) s1

/-- The segments of an enclosure are taken out of use. -/
def State.dropSegs (s : State) (n : Nat) : State :=
  (List.range 256).foldl (fun t g =>
    if t.rd Reg.FUR_SEG.EN (j := g) = 1 ∧ t.rd Reg.FUR_SEG.ENCL (j := g) = n then ((t.stopSeg g).clearPos g).wr Reg.FUR_SEG.EN 0 (j := g) else t) s
/-- The segments of the placement are committed. -/
def State.writeSegs (s : State) (p : Plan) : State :=
  p.segs.foldl (fun t q =>
    let g := q.1
    let e := q.2.1
    let u := ((((t.wr Reg.FUR_SEG.ORIGIN (p.inp.origin + e.row0 * 16 + e.col0) (j := g)).wr Reg.FUR_SEG.CROWS e.crows (j := g)).wr Reg.FUR_SEG.CCOLS e.ccols
      (j := g)).wr Reg.FUR_SEG.ENCL p.inp.n (j := g)).wr Reg.FUR_SEG.EN 1 (j := g)
    (((u.wr Reg.FUR_SEG.LAP q.2.2.1 (j := g)).wr Reg.FUR_LAPMIN.LAP_MIN q.2.2.2 (j := g)).wr Reg.FUR_LAPMIN.VALID 1 (j := g)).writePos g) (s.dropSegs p.inp.n)

/-! ### Tabkos (R268, R292, R308-R311) -/

/-- Region owners are reserved. -/
def State.writeRegions (s : State) (p : Plan) : State :=
  (List.range 48).foldl (fun u t =>
    ((u.freeRegions t).zip (regionsOn p.tens.runs t)).foldl (fun v q =>
      ((((v.wr Reg.TBK_REGION.BASE q.2.1 t q.1).wr Reg.TBK_REGION.COUNT q.2.2 t q.1).wr Reg.TBK_REGION.ENCL p.inp.n t q.1).wr Reg.TBK_REGION.VALID 1 t q.1).wr
        Reg.TBK_REGION.CLOSED 0 t q.1) u) s
/-- SHARE_USED and SHARE_FREE of a Tabko. -/
def State.setShareUsed (s : State) (t n : Nat) : State := (s.wr Reg.TBK_STAT.SHARE_USED n t).wr Reg.TBK_WHEEL.SHARE_FREE (60 - n) t
/-- Slot shares are reserved (R292). -/
def State.writeShares (s : State) (p : Plan) : State :=
  (s.tabkosUsed p.tens).foldl (fun u t =>
    ((u.wr Reg.TBK_SHARE.SHARE p.inp.card.share t p.inp.n).wr Reg.TBK_SHARE.TRACK (6 * p.inp.card.share) t p.inp.n).setShareUsed t
      (u.rd Reg.TBK_STAT.SHARE_USED t + p.inp.card.share)) s

/-- The runs of an update entry's compute copy, in ascending element order (R316). -/
def runsOf (c : Placed) (first count : Nat) : List UpdRun :=
  let w := r106Bytes c.fmt
  sortBy (fun a b => decide (a.first < b.first) || (decide (a.first = b.first) && decide (a.core ≤ b.core))) (c.homes.filterMap (fun h =>
    let lo := max first (h.first / w)
    let hi := min (first + count) ((h.first + h.bytes) / w)
    if lo < hi then some (⟨h.core, h.off + (lo * w - h.first), lo - first, hi - lo⟩ : UpdRun) else none))
/-- Update entries as placed, each with its Tabko. -/
def State.entriesOf (s : State) (p : Plan) : List (Nat × UpdEntry) :=
  p.inp.lot.updates.filterMap (fun u =>
    match slowTensor p.tens.placed u.w, slowTensor p.tens.placed u.m, slowTensor p.tens.placed u.g, p.tens.placed.find? (fun q => decide (q.tid = u.c)) with
    | some w, some m, some g, some c =>
      match rangeAt w 4 u.first u.count, rangeAt m 2 u.first u.count, rangeAt g 4 u.first u.count with
      | some a, some b, some d => (s.tabkoOf a).map (fun t =>
          (t, ⟨p.inp.n, u.sheaf, u.set, decide (g.fmt = 5), a, b, d, c.fmt, u.count, runsOf c u.first u.count, false⟩))
      | _, _, _ => none
    | _, _, _, _ => none)
/-- Sets, season base and entries at every Tabko of the enclosure; the counters of a fresh load start at zero (R308-R310, R323). -/
def State.writeUpdate (s : State) (p : Plan) (fresh : Bool) : State :=
  let n := p.inp.n
  let es := s.entriesOf p
  (s.tabkosUsed p.tens).foldl (fun u t =>
    let mine := (es.filter (fun e => decide (e.1 = t))).map Prod.snd
    let v := u.modTabko t (fun x => { x with
      entries := x.entries.filter (fun e => decide (e.encl ≠ n)) ++ mine, base := Store.put x.base n p.inp.lot.season
      sets := (p.inp.lot.sets.zip (List.range 8)).foldl (fun l q => Store.put l (n * 8 + q.2) q.1.1) x.sets })
    let w := (v.wr Reg.UPD_STAT.SETS p.inp.lot.sets.length t n).wr Reg.UPD_STAT.ENTRIES (min mine.length 0xFFFF) t n
    if fresh then
      ((((w.wr Reg.UPD_STAT.BUSY 0 t n).wr Reg.UPD_STAT.DONE 0 t n).wr Reg.UPD_STAT.STEP 0 t n).wr Reg.UPD_CNT.NONFIN 0 t n).wr Reg.UPD_CNT.WB_REFUSED 0 t n
    else w) s

/-! ### Derived tensors (R255, R268) -/

/-- A byte of the slow tier as a read returns it; of a block beyond correction, which gives no data (R289), it is open (log entry 14). -/
def State.slowByteAt (s : State) (a : Nat) : Byte :=
  match s.tabkoOf a with
  | some t =>
    let r := s.dramRead t (a - s.spanBase t) 1
    if r.2.bad.isEmpty then r.1.headD 0 else Config.freeByte (s.freeIx + a)
  | none => 0
/-- Bytes of a placed slow-tier tensor. -/
def State.tensorBytes (s : State) (t : Placed) (b n : Nat) : List Byte :=
  (List.range n).map (fun k => match partAddr t.parts (b + k) with
    | some a => s.slowByteAt a
    | none => 0)
/-- The value of element `k` of a slow-tier tensor, by its FMT (R255): a code of R106 where it is one; 0x9 names MXFP4, whose groups stand
one after another, 16 B of elements and the scale byte (DESIGN CHOICE, log entry 61). -/
def State.tensorVal (s : State) (t : Placed) (k : Nat) : FVal :=
  match cvtFmt t.fmt with
  | some (.float f) => f.decode (leNat (s.tensorBytes t (k * r106Bytes t.fmt) (r106Bytes t.fmt)))
  | some (.int w sg) =>
    let x := leNat (s.tensorBytes t (k * r106Bytes t.fmt) (r106Bytes t.fmt))
    .ofInt (if sg then sint w x else (x : Int))
  | none =>
    let sc := leNat (s.tensorBytes t (k / 32 * 17 + 16) 1)
    let x := bits (leNat (s.tensorBytes t (k / 32 * 17 + k % 32 / 2) 1)) (k % 2 * 4) 4
    if sc = 0xFF then .nan else (e2m1.decode x).scale ((sc : Int) - 127)
/-- A value in a format of R106, to nearest even. -/
def cvtVal (d : CvtFmt) (v : FVal) : Nat := match d with
  | .float f => (f.convert .rne true v).code
  | .int w sg =>
    wrapInt w (v.toIntClamp (if sg then -((2 ^ (w - 1) : Nat) : Int) else 0) ((2 ^ (if sg then w - 1 else w) : Nat) - 1)).1
/-- Byte `b` of an MXFP4 tensor made from another by R75. -/
def State.mxByte (s : State) (src : Placed) (b : Nat) : Byte :=
  let g := mxGroup e2m1 (fun _ => .rne) ((List.range 32).map (fun e => s.tensorVal src (b / 17 * 32 + e)))
  BitVec.ofNat 8 (if b % 17 = 16 then g.scale else g.elems.getD (b % 17 * 2) 0 + 16 * g.elems.getD (b % 17 * 2 + 1) 0)
/-- The bytes of a home of a derived tensor, from its source (R268): those of the source in the same format, else converted (R75-R80) to
nearest even and saturating, as a compute copy's are (R316; of other copies the spec does not say whether they saturate: DESIGN CHOICE,
log entry 61). -/
def State.derived (s : State) (t src : Placed) (h : Home) : List Byte :=
  if t.fmt = src.fmt then s.tensorBytes src h.first h.bytes
  else match cvtFmt t.fmt with
    | some d =>
      let wd := r106Bytes t.fmt
      (List.range (h.bytes / wd)).flatMap (fun k => leBytes wd (cvtVal d (s.tensorVal src (h.first / wd + k))))
    | none => (List.range h.bytes).map (fun k => s.mxByte src (h.first + k))
/-- What reading a slow-tier tensor finds in its blocks is reported (R288, R289). -/
def State.noteReads (s : State) (t : Placed) : State :=
  t.parts.foldl (fun u q => match u.tabkoOf q.mpa with
    | some k =>
      let f := (u.dramRead k (q.mpa - u.spanBase k) q.len).2
      if f.corr = 0 ∧ f.bad.isEmpty then u else u.report k 2 f
    | none => u) s
/-- Every derived tensor is loaded from its source. -/
def State.loadDerived (s : State) (placed : List Placed) : State :=
  (placed.filter (fun t => decide (t.life = 1))).foldl (fun u t =>
    match slowTensor placed t.src with
    | some src => (t.homes.foldl (fun v h => v.spFill h.core h.off 7 (v.derived t src h)) u).noteReads src
    | none => u) s

/-! ### The yoke range (R410) -/

/-- SHARES and SOLO of an enclosure (R410): YK_ENCL, and the yoke word on every core of the enclosure, fallow cores aside, if the PROFILE
reserves a range. -/
def State.writeYokeWord (s : State) (n shares solo : Nat) : State :=
  let s1 := (s.wr Reg.YK_ENCL.SHARES shares (j := n)).wr Reg.YK_ENCL.SOLO solo (j := n)
  match (s1.encl n).yokeOff with
  | some o => ((s1.enclCores n).filter (fun c => !s1.fallow c)).foldl (fun t c => t.spWrite c o 7 (leBytes 4 (shares + solo * 4))) s1
  | none => s1

/-! ### The floors (R326-R328, R353) -/

/-- FLR_ENCL and, at a fresh load, FLR_SCALE of an enclosure. -/
def State.writeFloors (s : State) (p : Plan) (step : Nat) (fresh : Bool) : State :=
  let n := p.inp.n
  let exact (fl : Nat) : List SheafE := p.inp.lot.sheaves.filter (fun h => decide (h.kind = 1) && decide (h.floor = fl))
  [0, 1].foldl (fun u fl =>
    let open_ := ((u.allSheaves n).filter (fun q => decide (q.2 = fl))).length
    let v := (u.wr Reg.FLR_ENCL.STEP step fl n).wr Reg.FLR_ENCL.OPEN open_ fl n
    if fresh then
      let w := ((v.wr Reg.FLR_ENCL.MISSES 0 fl n).wr Reg.FLR_ENCLCNT.DONE 0 fl n)
      (List.range 64).foldl (fun a j => match (exact fl)[j]? with
        | some h =>
          (((((a.wr Reg.FLR_SCALE.SHEAF h.num fl (n * 64 + j)).wr Reg.FLR_SCALE.S (wrapInt 9 h.sInit) fl (n * 64 + j)).wr Reg.FLR_SCALE.VALID 1 fl
            (n * 64 + j)).wr Reg.FLR_SCALE.ROUND 0 fl (n * 64 + j)).wr Reg.FLR_SCALE.EMAX 0 fl (n * 64 + j)).wr Reg.FLR_SCALE.EVALID 0 fl (n * 64 + j)
        | none => a.wr Reg.FLR_SCALE.VALID 0 fl (n * 64 + j)) w
    else v) s

/-! ### The whole write -/

/-- The sheaf table of an enclosure. -/
def Plan.sheaves (p : Plan) : List Sheaf :=
  p.inp.lot.sheaves.map (fun h =>
    { num := h.num, exact := decide (h.kind = 1), floor := h.floor, tiles := h.tiles, contrib := h.contrib
      g := ((slowTensor p.tens.placed h.gTid).map Placed.parts).getD [], gFirst := h.gFirst, sInit := h.sInit : Sheaf })
/-- Slow-tier bytes reserved, in granules. -/
def Tensors.granules (t : Tensors) : Nat := ((t.placed.flatMap Placed.parts ++ t.inspect).map (fun q => ceilDiv q.len 65536)).sum

/-- The enclosure's record after a placement. -/
def Plan.enclX (p : Plan) (x : EnclX) (fresh : Bool) : EnclX :=
  let l := p.inp.lot
  { x with
    transit := p.transit, statSheaf := (l.stat.map (fun h => h.1)).getD 0xFFFF, statFloor := (l.stat.map (fun h => h.2.1)).getD 0
    head := (l.stat.map (fun h => h.2.2)).getD 0, inspect := p.tens.inspect, sheaves := p.sheaves
    tally := if fresh then l.tally.getD [] else x.tally
    choiceOff := l.profile.choiceOff, yokeOff := l.profile.yokeOff, placed := p.tens.placed
    groups := p.groups.map (fun g => (g.1.id, g.2)), fallow0 := if fresh then p.inp.fallow else x.fallow0
    union := p.inp.fallow }

/-- Phase 10: a fresh load writes everything; a re-sowing leaves what the slow tier, the shares, the scales and the format choices hold
(R278). -/
def State.writePlan (s : State) (p : Plan) (step : Nat) (fresh : Bool) : State :=
  let n := p.inp.n
  let s0 := if fresh then (s.writeRegions p).writeShares p else s
  let s1 := (s0.writeThreads p).modEncl n (fun x => p.enclX x fresh)
  let s2 := (s1.writeFloors p step fresh).writeSeeds p step
  let s3 := p.inp.cores.foldl (fun t c => t.writeScales p c) (p.groups.foldl (fun t g => g.2.foldl (fun u c => u.writeCore p g.1 c) t) s2)
  let s4 := ((((s3.writeTrees p).writeWins p).advanceEpochs p).openCopies p).writeCrofts p
  let s5 := ((s4.writeSegs p).writeUpdate p fresh).loadDerived p.tens.placed
  let s6 := (s5.writeChoices n).writeYokeWord n (if fresh then 1 else s.rd Reg.YK_ENCL.SHARES (j := n)) (if fresh then 0 else s.rd Reg.YK_ENCL.SOLO (j := n))
  let s7 := if fresh then ((s6.wr Reg.GLN_STAT.SAMPLED 0 0 n).wr Reg.ENCL_RES.RESOWS 0 (j := n)).wr Reg.ENCL_RES.FALLOW_MAX 0 (j := n) else s6
  let s8 := if fresh then s7.wr Reg.ENCL_RES.SLOW_MIB (p.tens.granules / 16) (j := n) else s7
  (s8.wr Reg.ENCL_TRANSIT.CROFTS p.transit.length (j := n)).rebuild

end Sys2Proof.Machine
end

