-- ==== Sys2Proof/Machine/Reeve.lean ====
section
/-! DEFINITION. The reeve's commands (R263-R281): loading, starting, killing, releasing, halting and re-sowing enclosures. -/

namespace Sys2Proof.Machine

/-! ### Answers (R267, R274) -/

/-- Words 6 and 7 of a refused card. -/
def Refuse.words (r : Refuse) : Nat × Nat :=
  (0xD1 + r.sub % 2 ^ 8 * 2 ^ 8 + r.sect % 2 ^ 16 * 2 ^ 16 + r.item % 2 ^ 32 * 2 ^ 32, r.need % 2 ^ 32 + r.have_ % 2 ^ 32 * 2 ^ 32)
/-- Word 6 of a card with no refusal: CODE, ITEM 0xFFFF_FFFF. -/
def codeWord6 (code : Nat) : Nat := code + 0xFFFFFFFF * 2 ^ 32

/-- The events named by a CODE (R280): LOADED on the steading and the enclosure, the others on the steading. -/
def codeEvents (code n det : Nat) : List (Nat × Nat × Nat × Nat) :=
  if code = 0xD2 then [(stRing, code, n, det), (n, code, n, det)] else [(stRing, code, n, det)]

/-- A card is answered: REEVE_STAT records its CODE, the SEQ counts as answered, and its words go out (R267, R281). -/
def State.answerJob (s : State) (n seq code w6 w7 : Nat) (events : Bool) : State :=
  let s1 := (s.wr Reg.REEVE_STAT.LAST_CODE code).modEncl n (fun x => { x with seqDone := some seq })
  s1.answerCard n seq w6 w7 (if events then codeEvents code n w6 else [])

/-- The reeve is no longer at work on a card of an enclosure. -/
def State.reeveIdle (s : State) (n : Nat) : State :=
  if s.rd Reg.REEVE_STAT.BUSY = 1 ∧ s.rd Reg.REEVE_STAT.ENCL = n then s.wr Reg.REEVE_STAT.BUSY 0 else s
/-- The reeve is done with an enclosure: its sowing claim is released. -/
def State.sowEnd (s : State) (n : Nat) : State :=
  let o := s.rd Reg.ENCL_SHAPE.ORIGIN (j := n)
  (s.reeveIdle n).dropClaims (fun c => decide (c.act = 9) && decide (c.index = o))

/-- The enclosure no longer holds its crofts: shape, transit crofts and segments go (R264, R281). -/
def State.freeCrofts (s : State) (n : Nat) : State :=
  let s1 := (s.dropSegs n).modEncl n (fun x => { x with transit := [] })
  ((s1.wr Reg.ENCL_TRANSIT.CROFTS 0 (j := n)).wr Reg.ENCL_SHAPE.CROWS 0 (j := n)).wr Reg.ENCL_SHAPE.CCOLS 0 (j := n)

/-- Every granule of the enclosure's regions is marked for wipe, its regions and its share of a Tabko are released, and its sets, η
values and UPD registers are cleared (R299, R493). -/
def State.leaveTabko (s : State) (n t : Nat) : State :=
  let rs := s.regionsOf t n
  let s1 := rs.foldl (fun u r =>
    let b := u.rd Reg.TBK_REGION.BASE t r
    let v := (List.range (u.rd Reg.TBK_REGION.COUNT t r)).foldl (fun w k => w.markGranule t (b + k)) u
    (v.wr Reg.TBK_REGION.VALID 0 t r).wr Reg.TBK_REGION.CLOSED 0 t r) s
  let sh := s1.rd Reg.TBK_SHARE.SHARE t n
  let s2 := if sh = 0 then s1
    else ((s1.wr Reg.TBK_SHARE.SHARE 0 t n).wr Reg.TBK_SHARE.TRACK 0 t n).setShareUsed t (s1.rd Reg.TBK_STAT.SHARE_USED t - sh)
  let x := s2.tabko t
  if rs.isEmpty ∧ !x.entries.any (fun e => decide (e.encl = n)) ∧ (Store.get x.base n).isNone ∧ !x.tills.any (fun k => decide (k.encl = n)) ∧
      !x.work.any (fun k => decide (k.entry.encl = n)) then s2
  else
    let s3 := s2.setTabko t { x with
      base := Store.erase x.base n, sets := Store.eraseRange x.sets (n * 8) (n * 8 + 8), entries := x.entries.filter (fun e => decide (e.encl ≠ n))
      tills := x.tills.filter (fun k => decide (k.encl ≠ n) || k.acc.isSome), work := x.work.filter (fun k => decide (k.entry.encl ≠ n))
      landed := x.landed.filter (fun l => decide (l.1 ≠ n)), wbCred := x.wbCred.filter (fun c => decide (c.encl ≠ n)), wbOut := Store.erase x.wbOut n
      nonfin := x.nonfin.filter (fun k => decide (k ≠ n)), wbRefused := x.wbRefused.filter (fun k => decide (k ≠ n))
      cmpPos := Store.erase x.cmpPos n, cmp := if x.cmp.map Prod.fst = some n then none else x.cmp }
    let s4 := [Reg.UPD_STAT.SETS, Reg.UPD_STAT.BUSY, Reg.UPD_STAT.DONE, Reg.UPD_STAT.ENTRIES, Reg.UPD_STAT.STEP, Reg.UPD_CNT.NONFIN, Reg.UPD_CNT.WB_REFUSED,
      Reg.UPD_ELEMS.ELEMS].foldl (fun u f => u.wr f 0 t n) s3
    (List.range 8).foldl (fun u k => (u.wr Reg.UPD_ETA.ETA 0 t (n * 8 + k)).wr Reg.UPD_ETA.VALID 0 t (n * 8 + k)) s4

/-- The registers of an enclosure that a LOAD card changes when its enclosure becomes SOWING. -/
def sowFields : List Fld :=
  [Reg.ENCL_SHAPE.ORIGIN, Reg.ENCL_SHAPE.CROWS, Reg.ENCL_SHAPE.CCOLS, Reg.ENCL_SHAPE.FALLOW_RESERVE, Reg.ENCL_SHAPE.KEEP, Reg.ENCL_SHAPE.YOKE,
   Reg.ENCL_SHAPE.SHARE, Reg.ENCL_SHAPE.JOB_ID, Reg.ENCL_STATE.CAUSE, Reg.ENCL_STATE.SUBCODE, Reg.ENCL_STATE.STEP]
/-- A load that ends before phase 11 leaves the module as it was (R268): registers, crofts and the yoke's state; a plan already written
gives back its regions and shares, and where the crofts have been shown as enclosed the tables are rebuilt (R30, R412). -/
def State.undoSowing (s : State) (n : Nat) : State :=
  let x := s.encl n
  let s0 := if x.groups.isEmpty then s else (List.range 48).foldl (fun t k => t.leaveTabko n k) s
  let s1 := (s0.sowEnd n).freeCrofts n
  let s2 := (sowFields.zip x.before).foldl (fun t q => t.wr q.1 q.2 (j := n)) s1
  let s3 := (s2.wr Reg.ENCL_STATE.STATE 0 (j := n)).modEncl n (fun y => { EnclX.init with card := y.card, seqDone := y.seqDone })
  let s4 := if s3.yoke.seeding = some n then
      { s3.setYk s3.yoke.joinFrom with yoke := { s3.yoke with seeding := none, image := [], stateIn := none, ready := false, copyDue := false } }
    else s3
  if x.mateWait.isSome || !x.groups.isEmpty then s4.rebuild else s4

/-- A LOAD is refused (R266, R274); `undo`: its enclosure had become SOWING. -/
def State.refuseLoad (s : State) (n seq : Nat) (r : Refuse) (undo : Bool) : State :=
  let s1 := if undo then s.undoSowing n else s
  ((s1.wr Reg.REEVE_STAT.LAST_SUB r.sub).answerJob n seq 0xD1 r.words.1 r.words.2 true)

/-! ### LOAD (R268) -/

/-- The cores of the rectangle that are fallow here or in the mate's map (R272). A survivor that re-sows for its replacement places against
the map the replacement placed against: the replacement's own with the survivor's placed map (R412). -/
def State.unionFallow (s : State) (n : Nat) : List Nat :=
  let x := s.encl n
  let placed := decide (s.yoke.seeding = some n) && decide (s.ykState = 4)
  (s.enclCores n).filter (fun c => s.fallow c || (placed && x.union.contains c) || (match x.mateMap with
    | some b => inMap b c
    | none => false))

/-- Phases 3 to 10: the plan, written, or the refusal. A replacement that joins waits for its seed image (R412). -/
def State.finishLoad (s : State) (n : Nat) (c : JobCard) : State :=
  match parseLot (s.encl n).lot c.bytes with
  | .error r => s.refuseLoad n c.seq r true
  | .ok l =>
    let i : SowIn := ⟨n, c, s.rd Reg.ENCL_SHAPE.ORIGIN (j := n), l, s.unionFallow n, [], none, false⟩
    match s.planSowing i with
    | .error r => s.refuseLoad n c.seq r true
    | .ok p =>
      let s1 := s.writePlan p c.step0 true
      if s.yoke.seeding = some n then s1
      else s1.modEncl n (fun x => { x with startDue := some ((s.now / 1024 + 1) * 1024) })

/-- The mate's FALLOW frame of the load that an enclosure makes (R401): job, fingerprint, policy and step agree, and the mate's load still
waits, which it does for the loss window (DEDUCED, log entry 90). -/
def State.mateFrame (s : State) (n : Nat) : Option FallowMsg :=
  s.yoke.fallows.find? (fun m => decide (m.job = s.rd Reg.ENCL_SHAPE.JOB_ID (j := n)) && decide (m.fprint = (s.encl n).fprint) &&
    decide (m.yoke = s.rd Reg.ENCL_SHAPE.YOKE (j := n)) && decide (m.step = s.rd Reg.ENCL_STATE.STEP (j := n)) && decide (s.now ≤ m.at_ + s.lossWindow))
/-- The mate's map of a load is taken, and the frame is used up; a mate that is SOLO makes this module its replacement (R412). -/
def State.takeMap (s : State) (n : Nat) (m : FallowMsg) : State :=
  let s0 : State := { s with yoke := { s.yoke with fallows := s.yoke.fallows.erase m } }
  let s1 := s0.modEncl n (fun x => { x with mateMap := some m.map, mateStep := some m.step })
  if m.state % 8 = 3 ∧ s.rd Reg.ENCL_STATE.STATE (j := n) = 1 then
    { s1.setYk 5 with yoke := { s1.yoke with seeding := some n, joinFrom := s.rd Reg.YK_STAT.STATE % 8, image := [], stateIn := none, ready := false } }
  else s1

/-- The enclosure becomes SOWING with the card's shape. -/
def State.openSowing (s : State) (n : Nat) (c : JobCard) (origin : Nat) (lot : List Byte) : State :=
  let s1 := ((((s.wr Reg.ENCL_SHAPE.ORIGIN origin (j := n)).wr Reg.ENCL_SHAPE.CROWS c.crows (j := n)).wr Reg.ENCL_SHAPE.CCOLS c.ccols (j := n)).wr
    Reg.ENCL_SHAPE.FALLOW_RESERVE c.reserve (j := n)).wr Reg.ENCL_SHAPE.KEEP (b2n c.keep) (j := n)
  let s2 := ((s1.wr Reg.ENCL_SHAPE.YOKE c.yoke (j := n)).wr Reg.ENCL_SHAPE.SHARE c.share (j := n)).wr Reg.ENCL_SHAPE.JOB_ID c.job (j := n)
  let s3 := (((s2.wr Reg.ENCL_STATE.STATE 1 (j := n)).wr Reg.ENCL_STATE.CAUSE 0 (j := n)).wr Reg.ENCL_STATE.SUBCODE 0 (j := n)).wr Reg.ENCL_STATE.STEP
    c.step0 (j := n)
  ((s3.wr Reg.REEVE_STAT.BUSY 1).wr Reg.REEVE_STAT.ENCL n).modEncl n (fun x =>
    { EnclX.init with card := x.card, seqDone := x.seqDone, before := sowFields.map (fun f => s.rd f (j := n)), load := x.card, loading := true, lot := lot })

/-- A LOAD card is taken up: phases 1 and 2, then, unless the mate's map is awaited, the rest. -/
def State.takeLoad (s : State) (n : Nat) (c : JobCard) (lot : List Byte) (spaceFault : Bool) : State :=
  let no (r : Refuse) : State := s.refuseLoad n c.seq r false
  match cardFormat (s.encl n).card c with
  | some o => no ⟨0x01, 0, o, 0, 0⟩
  | none =>
    if spaceFault || !s.spaceGranted c.space n then no ⟨0x14, 0, 0xFFFFFFFF, 0, 0⟩
    else match parseLot lot c.bytes with
      | .error r => no r
      | .ok l =>
        if s.rd Reg.ENCL_STATE.STATE (j := n) ≠ 0 ∨ s.lc = 4 ∨ s.pins.stHold ∨ s.rd Reg.GNT_STAT.REFURB_BUSY = 1 then no ⟨0x03, 0, 0xFFFFFFFF, 0, 0⟩
        else if c.crows < l.profile.crows ∨ c.ccols < l.profile.ccols then no ⟨0x04, 1, c.origin, 0, 0⟩
        else
          let o := if c.auto then ((List.range 256).find? (fun k => (s.rectFails n k c.crows c.ccols).isNone)).getD 0 else c.origin
          match s.rectFails n o c.crows c.ccols with
          | some k => no ⟨0x04, 0, k, 0, 0⟩
          | none =>
            let cl : Claim := ⟨9, 0, o, c.crows, c.ccols⟩
            if cl.crofts.any (fun k => s.croftClaimed [1] k) then s
            else if !s.claimOk cl then
              (s.refuseClaim cl).refuseLoad n c.seq ⟨0x04, 0, (cl.crofts.find? (fun k => s.croftClaimed [2, 4, 5] k)).getD o, 0, 0⟩ false
            else
              let s1 := (s.addClaim cl).openSowing n c o lot
              if c.yoke ≠ 0 ∧ s1.rd Reg.YK_CFG.EN = 1 then
                let s2 := s1.sendFallow n c.step0
                match s2.mateFrame n with
                | some m => (s2.takeMap n m).finishLoad n c
                | none => (s2.modEncl n (fun x => { x with mateWait := some s.now })).rebuild
              else s1.finishLoad n c

/-- The companion's cards are acted on from READY on, and answered in HOLD (R432, R439). -/
def State.takesCards (s : State) : Bool := s.pins.stReady || s.pins.stHold
/-- LOAD (R266-R268): a LOAD card with a new SEQ runs phases 1 to 10, or is refused; it waits while the reeve is at work on another
card, while a BIST slice holds one of its crofts, and for the mate's map. The lot is what the copy through SPACE reads. -/
def execLoad (encl : EnclId) (lot : List (BitVec 8)) (spaceFault : Bool) (s : State) : Host.Outcome State Fault Refusal :=
  let n := encl.val
  let x := s.encl n
  if x.loading then
    match jobCard x.load n with
    | some c => .next (if s.rd Reg.ENCL_STATE.STATE (j := n) = 1 ∧ x.mateMap.isSome ∧ x.groups.isEmpty ∧ x.startDue.isNone then s.finishLoad n c else s)
    | none => .next s
  else match jobCard x.card n with
    | none => .next s
    | some c =>
      if c.op ≠ 1 ∨ x.seqDone = some c.seq ∨ s.rd Reg.REEVE_STAT.BUSY = 1 ∨ !s.takesCards then .next s
      else .next (s.takeLoad n c lot spaceFault)

/-- Phase 11: every core and every segment starts at one bell; the card is answered with 0xD2 (R268). -/
def State.startSowing (s : State) (n : Nat) : State :=
  let x := s.encl n
  let s1 := (s.runCores n).foldl (fun t c =>
    (if (t.core c).wCorr then t.modCore c (fun y => { y with wCorr := false }) else t).startCore c) (s.wr Reg.ENCL_STATE.STATE 2 (j := n))
  let s2 := (List.range 256).foldl (fun t g =>
    if t.rd Reg.FUR_SEG.EN (j := g) = 1 ∧ t.rd Reg.FUR_SEG.ENCL (j := g) = n then t.modSeg g (fun y => { y with startReq := some s.now }) else t) s1
  let s2 : State := { s2 with power := { s2.power with fromKeep := s2.power.fromKeep.filter (fun c => !s.inRect n c) } }
  let s3 := (s2.modEncl n (fun y => { y with
    startDue := none, loading := false, mateWait := none, glean := decide (s.rd Reg.GLN_CTL.EN 0 n = 1) })).incSat Reg.REEVE_STAT.LOADS 1
  let s4 := (s3.sowEnd n).rebuild
  let s4 := if s4.yoke.seeding = some n then s4.attached n else s4
  match jobCard x.load n with
  | some c => s4.answerJob n c.seq 0xD2 (codeWord6 0xD2) 0 true
  | none => s4

/-- SOWING_START (R268): at the bell of phase 11. -/
def execSowingStart (encl : EnclId) (s : State) : Host.Outcome State Fault Refusal :=
  let n := encl.val
  match (s.encl n).startDue with
  | none => .next s
  | some d =>
    if d ≤ s.now ∧ s.now % 1024 = 0 ∧ s.rd Reg.ENCL_STATE.STATE (j := n) = 1 then .next (((s.startSowing n).drainHeld n).startCompare n) else .next s

/-! ### The end of an enclosure (R275-R277, R299, R493) -/

/-- The enclosure becomes FREE. -/
def State.freeEncl (s : State) (n : Nat) : State :=
  let s1 := ((List.range 48).foldl (fun u t => u.leaveTabko n t) s).freeCrofts n
  let s2 := [0, 1].foldl (fun u fl => (List.range 64).foldl (fun v j =>
    if v.rd Reg.FLR_SCALE.VALID fl (n * 64 + j) = 1 then v.wr Reg.FLR_SCALE.VALID 0 fl (n * 64 + j) else v) u) s1
  let s3 := (s2.wr Reg.ENCL_RES.SLOW_MIB 0 (j := n)).wr Reg.ENCL_STATE.STATE 0 (j := n)
  s3.modEncl n (fun x => { EnclX.init with card := x.card, seqDone := x.seqDone })

/-- ENCL_ENDED, and the answer of the KILL or RELEASE that asked for the end, if one did (R266, R267). -/
def State.ended (s : State) (n : Nat) (asked : Option Nat) : State :=
  match asked with
  | some seq => s.answerJob n seq 0xD4 (codeWord6 0xD4) 0 true
  | none => s.raiseAt stRing 0xD4 skEncl n s.now (s.stepOf (some n)) (s.copyOf Reg.ENCL_STATE.STATE 0 n)

/-- A sowing in progress is abandoned: its LOAD card is answered with 0xD4, and the event named by CODE is raised (R267). -/
def State.abandonLoad (s : State) (n : Nat) : State :=
  let x := s.encl n
  if !x.loading then s
  else
    let s1 := (s.sowEnd n).modEncl n (fun y => { y with loading := false, startDue := none, mateWait := none })
    let s2 := if s1.yoke.seeding = some n then { s1.setYk 1 with yoke := { s1.yoke with seeding := none, image := [], stateIn := none, ready := false } } else s1
    match jobCard x.load n with
    | some c => s2.answerJob n c.seq 0xD4 (codeWord6 0xD4) 0 true
    | none => s2

/-- KILL (R267, R276): the sequence of R275 with cause 0, from the tick at which the card is taken up. The table of R267 names no other
state: of one that ends already the card is answered with its end, of another one at once with no effect (DESIGN CHOICE, log entry 82). -/
def execKill (encl : EnclId) (s : State) : Host.Outcome State Fault Refusal :=
  let n := encl.val
  let x := s.encl n
  match jobCard x.card n with
  | none => .next s
  | some c =>
    if c.op ≠ 2 ∨ x.seqDone = some c.seq ∨ x.kill = some c.seq ∨ !s.takesCards then .next s
    else
      let st := s.rd Reg.ENCL_STATE.STATE (j := n)
      if st = 1 ∨ st = 2 ∨ st = 3 then
        let s1 := (s.abandonLoad n).modEncl n (fun y => { y with kill := some c.seq, haltDue := some (s.now + 4) })
        .next (((s1.wr Reg.ENCL_STATE.STATE 4 (j := n)).wr Reg.ENCL_STATE.CAUSE 0 (j := n)).stopSegsOf n)
      else if st = 4 then .next (s.modEncl n (fun y => { y with kill := some c.seq }))
      else .next (s.ended n (some c.seq))

/-- RELEASE (R267, R277): INSPECT ends; its regions are marked and its shares released. Of any other state it has no effect. -/
def execRelease (encl : EnclId) (s : State) : Host.Outcome State Fault Refusal :=
  let n := encl.val
  let x := s.encl n
  match jobCard x.card n with
  | none => .next s
  | some c =>
    if c.op ≠ 3 ∨ x.seqDone = some c.seq ∨ !s.takesCards then .next s
    else if s.rd Reg.ENCL_STATE.STATE (j := n) = 5 then .next ((s.freeEncl n).ended n (some c.seq))
    else .next (s.ended n (some c.seq))

/-- ENCLOSURE_HALT (R275): from tick m + 4 every core halts, its scratchpad locks and its copy or wipe starts; floors and Tabkos drop
what is the enclosure's. -/
def execEnclosureHalt (encl : EnclId) (s : State) : Host.Outcome State Fault Refusal :=
  let n := encl.val
  let x := s.encl n
  match x.haltDue with
  | none => .next s
  | some d =>
    if s.now < d then .next s
    else
      let s0 := ((s.abandonLoad n).dropCompare n).stopSegsOf n
      let s1 := (s0.enclCores n).foldl (fun t c => if t.fallow c ∨ !t.corePresent c then t else (t.haltCore c 4).wipeOf n c) s0
      let s2 := [0, 1].foldl (fun t fl => (t.modFloor fl (fun y => { y with
        tiles := y.tiles.filter (fun k => decide (k.encl ≠ n)), held := y.held.filter (fun f => decide (f.job ≠ s.rd Reg.ENCL_SHAPE.JOB_ID (j := n)))
        marks := y.marks.filter (fun m => decide (m.1 ≠ n)), done := y.done.filter (fun m => decide (m.1 ≠ n))
        raised := y.raised.filter (fun r => decide (r.2.1 ≠ n)) })).foldSync fl) s1
      let s3 := (List.range 48).foldl (fun t k =>
        let u := if (t.tabko k).landed.any (fun l => decide (l.1 = n)) ∨ (t.tabko k).work.any (fun w => decide (w.entry.encl = n)) ∨
            (t.tabko k).tills.any (fun a => decide (a.encl = n)) then
            t.modTabko k (fun y => { y with
              landed := y.landed.filter (fun l => decide (l.1 ≠ n)), work := y.work.filter (fun w => decide (w.entry.encl ≠ n))
              tills := y.tills.filter (fun a => decide (a.encl ≠ n) || a.acc.isSome) })
          else t
        (u.regionsOf k n).foldl (fun v r => v.wr Reg.TBK_REGION.CLOSED 1 k r) u) s2
      .next (s3.modEncl n (fun y => { y with
        haltDue := none, closed := false, folded := false, checked := false, release := none, restart := false, notices := [], accept := none
        ringWait := [], soloWait := false }))

/-- Every wipe of an enclosure is over and the writes of its copies are acknowledged. -/
def State.wipesOver (s : State) (n : Nat) : Bool :=
  (s.enclCores n).all (fun c => decide (s.rd Reg.SP_STAT.WIPE_BUSY c = 0) && decide ((s.core c).copyOut = 0) && (s.core c).copyQ.isEmpty)

/-- R481, R485: the cores whose array has failed are repaired or fenced, and fencing asked for during the job begins. -/
def State.fenceAfter (s : State) (cores : List Nat) : State :=
  cores.foldl (fun t c =>
    if t.fallow c ∨ !t.corePresent c then t
    else if t.rd Reg.ARR_STAT.FAULT c = 1 then (if t.spareFits c then t.bringSpare c else t.beginFence c 2)
    else match (t.core c).fenceReq with
      | some r => t.beginFence c r
      | none => t) s

/-- ENCLOSURE_WIPES_DONE (R275, R277): KEEP = 0 marks the regions and frees the enclosure; KEEP = 1 leaves it in INSPECT, its crofts
freed. The ledger counts a tenant wipe (R450, R451). -/
def execEnclosureWipesDone (encl : EnclId) (s : State) : Host.Outcome State Fault Refusal :=
  let n := encl.val
  let x := s.encl n
  if s.rd Reg.ENCL_STATE.STATE (j := n) ≠ 4 ∨ x.haltDue.isSome ∨ !s.wipesOver n then .next s
  else
    let cores := s.enclCores n
    let det := detailRect (s.rd Reg.ENCL_SHAPE.ORIGIN (j := n)) (s.rd Reg.ENCL_SHAPE.CROWS (j := n)) (s.rd Reg.ENCL_SHAPE.CCOLS (j := n))
    let s1 := (s.ledAdd 124 4 1).ledRecord 4 det
    let s2 := if s.rd Reg.ENCL_SHAPE.KEEP (j := n) = 1 then ((s1.freeCrofts n).wr Reg.ENCL_STATE.STATE 5 (j := n)).modEncl n (fun y => { y with kill := none })
      else s1.freeEncl n
    let s3 := cores.foldl (fun t c => if (t.core c).thread.isSome then t.modCore c (fun y => { y with thread := none }) else t) s2
    .next ((s3.fenceAfter cores).rebuild.ended n x.kill)

/-! ### Re-sowing (R278, R279) -/

/-- New fallow cores of the enclosure since its load, at most in one croft. -/
def State.newFallowMax (s : State) (n : Nat) (new : List Nat) : Nat :=
  ((s.enclCrofts n).map (fun c => (new.filter (fun k => decide (croftOf k = c))).length)).foldl max 0

/-- RESOWING_DONE (R278, R279): with every fencing of the boundary over and the mate's map in, phases 3 to 10 are repeated with the new
fallow map; the job then goes on at its next release, every core starting at its ENTRY. A placement that fails faults the enclosure, and
so does an uncorrectable word that its writes meet (R125). -/
def execResowingDone (encl : EnclId) (s : State) : Host.Outcome State Fault Refusal :=
  let n := encl.val
  let x := s.encl n
  let wiping := (s.enclCores n).any (fun c => decide (s.rd Reg.SP_STAT.WIPE_BUSY c = 1))
  if s.rd Reg.ENCL_STATE.STATE (j := n) ≠ 3 ∨ !x.checked ∨ s.fencingIn n ∨ wiping ∨ s.awaitsMate n then .next s
  else match jobCard x.load n with
    | none => .next s
    | some c =>
      match parseLot x.lot c.bytes with
      | .error r => .next ((s.wr Reg.ENCL_STATE.SUBCODE r.sub (j := n)).faultEncl n 0xD1 s.now)
      | .ok l =>
        let un := s.unionFallow n
        let new := un.filter (fun k => !x.fallow0.contains k)
        let i : SowIn := ⟨n, c, s.rd Reg.ENCL_SHAPE.ORIGIN (j := n), l, un, new, some (x.placed.filter (fun t => !t.parts.isEmpty), x.inspect),
          decide (s.newFallowMax n new ≤ c.reserve)⟩
        let s0 := (s.wr Reg.ENCL_RES.FALLOW_MAX (s.newFallowMax n new) (j := n))
        match s0.replanSowing i with
        | .error r => .next ((s0.wr Reg.ENCL_STATE.SUBCODE r.sub (j := n)).faultEncl n 0xD1 s.now)
        | .ok p =>
          let s1 := (s0.writePlan p (s0.rd Reg.ENCL_STATE.STEP (j := n)) false).modEncl n (fun y => { y with restart := true })
          let s2 := (s1.wr Reg.ENCL_STATE.STATE 2 (j := n)).incSat Reg.ENCL_RES.RESOWS 1 (j := n)
          let det := s2.copyOf Reg.ENCL_STATE.STATE 0 n
          let step := s2.boundaryStep n
          if s1.rd Reg.ENCL_STATE.STATE (j := n) ≠ 3 then .next s1
          else .next ((s2.raiseAt stRing 0xD5 skEncl n s.now step det).raiseAt n 0xD5 skEncl n s.now step det)

end Sys2Proof.Machine
end

