-- ==== Sys2Proof/Machine/Yoke.lean ====
section
/-! DEFINITION. The yoke (R400-R414): heartbeats, the loss of the mate, compares, abandoned steps, takeover, and the seeding of a
replacement; the release of a step and the loss of a port, which end or fail a seeding. -/

namespace Sys2Proof.Machine

/-! ### Frames of the mate (R400, R403, R404) -/

/-- A copy of a yoke register on the steading ring and on the ring of an enclosure (R413). -/
def State.raiseYoke (s : State) (n code : Nat) (f : Fld) : State :=
  let det := s.copyOf f
  (s.raiseSt code det).raiseEncl n code skSteading 0 det
/-- The enclosure of a yoke frame: its job, taking part in the yoke (not after DETACH, R408). -/
def State.yokeEncl (s : State) (job : Nat) : Option Nat :=
  (List.range 16).find? (fun n => decide (s.rd Reg.ENCL_STATE.STATE (j := n) ≠ 0) && decide (s.rd Reg.ENCL_SHAPE.YOKE (j := n) ≠ 0) &&
    decide (s.rd Reg.ENCL_SHAPE.JOB_ID (j := n) = job) && !(s.encl n).detached)

/-- R412: a seeding fails. The survivor is SOLO again, its ring unchanged; a replacement refuses its card with YOKE. -/
def State.seedFail (s : State) : State :=
  match s.yoke.seeding with
  | none => s
  | some n =>
    let s1 := (s.wr Reg.YK_SEED.BUSY 0).raiseSt 0x8B (s.copyOf Reg.YK_SEED.BYTES)
    let s2 : State := { s1 with yoke := { s1.yoke with seeding := none, image := [], stateIn := none, ready := false, copyDue := false } }
    if s.ykState = 4 then (s2.setYk 3).modEncl n (fun x => { x with ringWait := [] })
    else match jobCard (s.encl n).load n with
      | some c => (s2.setYk 1).refuseLoad n c.seq ⟨0x13, 0, 0xFFFFFFFF, 0, 0⟩ true
      | none => s2.setYk 1
/-- R412: port B0 was lost during the copy; `before` is the state before the loss. -/
def State.seedLoss (s : State) (p : Nat) (before : State) : State :=
  if p = 0 ∧ before.portState 0 = 6 ∧ ((before.ykState = 4 ∧ before.copying) ∨ (before.ykState = 5 ∧ before.rd Reg.YK_SEED.BUSY = 1)) then s.seedFail
  else s

/-- What every YOKE frame taken does (R404): the mate is up, LOST returns to PAIRED. While a seeding goes on, the mate's own state tells
the survivor of a failure, and the replacement of the release (DEDUCED, log entry 31). -/
def State.yokeTaken (s : State) (mate : Nat) : State :=
  let s1 : State := { s.wr Reg.YK_STAT.LAST_RX (s.now % 2 ^ 32) with yoke := { s.yoke with rxAt := s.now } }
  let s2 := (if s1.ykState = 2 then s1.setYk 1 else s1).setMateUp true
  match s2.yoke.seeding with
  | none => s2
  | some n =>
    if s2.ykState = 4 ∧ mate % 8 ≠ 5 ∧ !s2.copying ∧ !(s2.encl n).ringWait.isEmpty then s2.seedFail
    else if s2.ykState = 5 ∧ s2.yoke.ready ∧ mate % 8 = 1 ∧ (s2.encl n).startDue.isNone then
      s2.modEncl n (fun x => { x with startDue := some ((s2.now / 1024 + 1) * 1024) })
    else s2

/-- A frame on a port, of TYPE YOKE, that the command says carries a KIND; handed on are header and payload. R400: only port B0 takes
one, and only from the mate. -/
def State.yokeIn (s : State) (p kind : Nat) (f : LinkFrame) (act : State → YokeHdr → List Byte → State) : State :=
  let h := yokeHdr f.body
  if h.kind ≠ kind then s
  else match s.deliver p 3 3 f with
    | (none, t) => t
    | (some t, _) =>
      if t.strayYoke p f.src.toNat then t.incSat Reg.YK_STAT.STRAY 1
      else act (t.yokeTaken (yokeStateOf f.body)) h (yokePayload f.body)

/-- HEARTBEAT_SEND (R404): every HB_PERIOD tk while port B0 is UP. -/
def execHeartbeatSend (s : State) : Host.Outcome State Fault Refusal :=
  if s.rd Reg.YK_CFG.EN = 0 ∨ s.portState 0 ≠ 6 ∨ s.now < s.yoke.hbAt + s.rd Reg.YK_CTL.HB_PERIOD then .next s
  else .next (({ s with yoke := { s.yoke with hbAt := s.now } } : State).sendYoke ⟨1, 0, 0, 0, 0, 0, 0⟩ [])
/-- YOKE_LOST (R404): no YOKE frame for HB_MISS × HB_PERIOD tk. -/
def execYokeLost (s : State) : Host.Outcome State Fault Refusal :=
  if s.rd Reg.YK_CFG.EN = 0 ∨ s.now < s.yoke.rxAt + s.lossWindow then .next s
  else
    let s1 := s.setMateUp false
    if s1.ykState ≠ 1 then .next s1
    else
      let s2 := s1.setYk 2
      let det := s2.copyOf Reg.YK_STAT.STATE
      .next ((List.range 16).foldl (fun u n =>
        if u.rd Reg.ENCL_STATE.STATE (j := n) ≠ 0 ∧ u.rd Reg.ENCL_SHAPE.YOKE (j := n) ≠ 0 then u.raiseEncl n 0x87 skSteading 0 det else u) (s2.raiseSt 0x87 det))
/-- HEARTBEAT (R404). -/
def execHeartbeat (port : PortId) (f : LinkFrame) (s : State) : Host.Outcome State Fault Refusal :=
  .next (s.yokeIn port.val 1 f (fun t _ _ => t))

/-! ### Fallow maps (R272, R401, R484, R412) -/

/-- The placed map of an enclosure (R412): in its rectangle the fallow cores of the union it was placed against (DEDUCED, log entry 90), the
module's own map elsewhere. -/
def State.placedMap (s : State) (n : Nat) : List Byte :=
  let own := s.fallowMap
  (List.range 10240).map (fun k => BitVec.ofNat 8 ((List.range 8).foldl (fun a b =>
    let c := 8 * k + b
    let set := if s.inRect n (croftOf c) then (s.encl n).union.contains c else inMap own c
    if set then a + 2 ^ b else a) 0))
/-- A FALLOW frame of a load that this module has not taken up yet: the latest of each job is kept for it (log entry 90). -/
def State.keepFallow (s : State) (m : FallowMsg) : State :=
  { s with yoke := { s.yoke with
    fallows := s.yoke.fallows.filter (fun k => !(decide (k.job = m.job) && decide (k.fprint = m.fprint) && decide (k.yoke = m.yoke))) ++ [m] } }
/-- A FALLOW frame of the mate: without a load of its job, fingerprint and policy it is kept for one to come; a load that waits takes it; a
placed enclosure's boundary takes it, and a SOLO survivor answers a replacement with its placed map. -/
def State.takeFallow (s : State) (m : FallowMsg) : State :=
  match s.yokeEncl m.job with
  | none => s.keepFallow m
  | some n =>
    let x := s.encl n
    if x.fprint ≠ m.fprint ∨ s.rd Reg.ENCL_SHAPE.YOKE (j := n) ≠ m.yoke then s.keepFallow m
    else if x.loading ∧ x.mateMap.isNone then s.takeMap n m
    else
      let s1 := s.modEncl n (fun y => { y with mateMap := some m.map, mateStep := some m.step })
      let s2 := if s1.ykState = 3 then
          s1.sendYoke ⟨3, n, m.job, s1.rd Reg.ENCL_STATE.STEP (j := n), x.fprint, 0, m.yoke⟩ (s1.placedMap n)
        else s1
      if s2.yoked n ∧ x.checked ∧ x.release.isNone ∧ s2.rd Reg.ENCL_STATE.STATE (j := n) = 2 ∧ m.step = s2.boundaryStep n ∧ s2.mateChanged n then
        s2.beginResow n
      else s2
/-- FALLOW (R401, R484). -/
def execFallow (port : PortId) (f : LinkFrame) (s : State) : Host.Outcome State Fault Refusal :=
  .next (s.yokeIn port.val 3 f (fun t h d => t.takeFallow ⟨h.job, h.fprint, h.yoke, yokeStateOf f.body, h.step, d, t.now⟩))
/-- FALLOW_WAIT_TIMEOUT (R401): the mate's map has not come in HB_MISS × HB_PERIOD tk: the load is refused with YOKE. -/
def execFallowWaitTimeout (encl : EnclId) (s : State) : Host.Outcome State Fault Refusal :=
  let n := encl.val
  let x := s.encl n
  match x.mateWait, jobCard x.load n with
  | some t, some c =>
    if x.loading ∧ x.mateMap.isNone ∧ t + s.lossWindow ≤ s.now then .next (s.refuseLoad n c.seq ⟨0x13, 0, 0xFFFFFFFF, 0, 0⟩ true) else .next s
  | _, _ => .next s

/-! ### Compares (R407) -/

/-- The granules of an enclosure's persistent regions on a Tabko, ascending. -/
def State.persistGranules (s : State) (t n : Nat) : List Nat :=
  let base := s.spanBase t
  let ps := ((s.encl n).placed.filter (fun p => decide (p.life = 2))).flatMap Placed.parts
  sortBy (fun a b => decide (a ≤ b)) ((ps.filter (fun p => decide (s.tabkoOf p.mpa = some t))).flatMap (fun p =>
    (List.range (ceilDiv p.len 65536)).map (fun k => (p.mpa - base) / 65536 + k)))
/-- The COMPARE frame of a step goes to the mate: 48 values, zero for a Tabko without a scan. -/
def State.sendCompare (s : State) (n step : Nat) (vals : List (Option (Nat × Nat))) : State :=
  let first := ((vals.find? Option.isSome).join.map Prod.fst).getD 0
  s.sendYoke ⟨2, n, s.rd Reg.ENCL_SHAPE.JOB_ID (j := n), step, 0, first, 0⟩ (vals.flatMap (fun v => leBytes 4 ((v.map Prod.snd).getD 0)))
/-- The values of both mates are compared, Tabko by Tabko; a zero of the mate is a Tabko without a scan (DEDUCED, log entry 30). -/
def State.compareVals (s : State) (n step : Nat) (a : List (Option (Nat × Nat))) (b : List Nat) : State :=
  ((List.range 48).foldl (fun u t => match a[t]?.join with
    | some (g, v) =>
      let w := b[t]?.getD 0
      if w = 0 ∨ w = v then u
      else ((((u.wr Reg.YK_CMP.STEP step).wr Reg.YK_CMP.TABKO t).wr Reg.YK_CMP.GRANULE g).wr Reg.YK_CMP.VALID 1).raiseYoke n 0x88 Reg.YK_CMP.STEP
    | none => u) s).incWrap Reg.YK_CMPCNT.DONE 1
/-- Both sides' values of a step are here, and no scan of it goes on. -/
def State.tryCompare (s : State) (n : Nat) : State :=
  if (List.range 48).any (fun t => ((s.tabko t).cmp.map Prod.fst) = some n) then s
  else match s.yoke.mine.find? (fun m => decide (m.1 = n)) with
    | none => s
    | some m =>
      match s.yoke.mate.find? (fun q => decide (q.1 = n) && decide (q.2.1 = m.2.1)) with
      | none => s
      | some q =>
        let s1 : State := { s with yoke := { s.yoke with mine := s.yoke.mine.filter (fun k => decide (k.1 ≠ n)), mate := s.yoke.mate.filter (fun k => decide (k.1 ≠ n)) } }
        s1.compareVals n m.2.1 m.2.2 q.2.2.2
/-- COMPARE_SCAN_DONE (R407): a Tabko's scan ends. When the last of the step has ended the values go to the mate. A block beyond correction
is reported, and leaves the Tabko without a value. -/
def execCompareScanDone (tabko : TabkoId) (s : State) : Host.Outcome State Fault Refusal :=
  let t := tabko.val
  match (s.tabko t).cmp with
  | none => .next s
  | some (n, step) =>
    let gs := s.persistGranules t n
    let pos := Store.getD (s.tabko t).cmpPos n 0
    let k := s.rd Reg.YK_CTL.CMP_GRAN
    let scan := (List.range k).filterMap (fun i => gs[(pos + i) % gs.length]?)
    let rd := scan.map (fun g => s.dramRead t (g * 65536) 65536)
    let s1 := rd.foldl (fun u r => u.report t 2 r.2) s
    let val : Option (Nat × Nat) := if rd.any (fun r => !r.2.bad.isEmpty) then none else some (gs[pos % gs.length]?.getD 0, crc32c (rd.flatMap Prod.fst))
    let s2 := (s1.dropClaims (fun c => decide (c.act = 7) && decide (c.index = t))).modTabko t (fun x => { x with
      cmp := none, cmpPos := Store.put x.cmpPos n ((pos + k) % max gs.length 1) })
    let old := ((s2.yoke.mine.find? (fun m => decide (m.1 = n) && decide (m.2.1 = step))).map (fun m => m.2.2)).getD (List.replicate 48 none)
    let vals := old.set t val
    let s3 : State := { s2 with yoke := { s2.yoke with mine := s2.yoke.mine.filter (fun m => decide (m.1 ≠ n)) ++ [(n, step, vals)] } }
    if (List.range 48).any (fun q => ((s3.tabko q).cmp.map Prod.fst) = some n) then .next s3
    else .next ((s3.sendCompare n step vals).tryCompare n)
/-- COMPARE (R407): the mate's values. -/
def execCompare (port : PortId) (f : LinkFrame) (s : State) : Host.Outcome State Fault Refusal :=
  .next (s.yokeIn port.val 2 f (fun t h d => match t.yokeEncl h.job with
    | none => t
    | some n =>
      let vals := (List.range 48).map (fun k => leNat (slice d (4 * k) 4))
      let u : State := { t with yoke := { t.yoke with mate := t.yoke.mate.filter (fun q => decide (q.1 ≠ n)) ++ [(n, h.step, h.offset, vals)] } }
      u.tryCompare n))

/-! ### YK_CMD (R408-R410) -/

/-- The staged fields of YK_CMD. -/
def ykFields : List Fld := [Reg.YK_CMD.OP, Reg.YK_CMD.ENCL, Reg.YK_CMD.POLICY, Reg.YK_CMD.DST, Reg.YK_CMD.STEP]
/-- Floors that an enclosure uses: those of its sheaves. -/
def State.usedFloors (s : State) (n : Nat) : List Nat := [0, 1].filter (fun fl => (s.allSheaves n).any (fun p => decide (p.2 = fl)))
/-- The enclosure stands at a boundary whose row 6 (R350) is done, and waits for its release to be named. -/
def State.atRelease (s : State) (n : Nat) : Bool := (s.encl n).closed && (s.encl n).checked && (s.encl n).release.isNone

/-! ### Row 6 of a boundary (R350) -/

/-- Row 6 of R350: the checks of R65, the fencing asked for, and the step counters. Cores that become fallow, here or at the mate (R484),
send the enclosure into RESOWING, its cores halted (R278). -/
def State.rowSix (s : State) (n : Nat) : State :=
  let s1 := (s.enclCores n).foldl (fun u c => u.checkCore c) s
  let asked := (s1.enclCores n).filter (fun c => (s1.core c).fenceReq.isSome)
  let s2 := (s1.nextStep n).modEncl n (fun y => { y with checked := true })
  let mate := s2.yoked n && decide ((s.encl n).mateStep = some (s2.boundaryStep n)) && s2.mateChanged n
  if asked.isEmpty && !mate then s2.boundaryFallow n
  else
    (asked.foldl (fun u c =>
      if (u.core c).fenceReq = some 1 ∧ u.spareFits c then u.bringSpare c else u.beginFence c (((u.core c).fenceReq).getD 0))
      (s2.beginResow n)).boundaryFallow n

/-- R409: what a floor holds of an enclosure's open step is discarded. -/
def State.dropStep (s : State) (n : Nat) : State :=
  let job := s.rd Reg.ENCL_SHAPE.JOB_ID (j := n)
  let step := s.rd Reg.ENCL_STATE.STEP (j := n)
  let s1 := [0, 1].foldl (fun u fl => u.modFloor fl (fun x => { x with
    held := x.held.filter (fun f => !(decide (f.job = job) && decide (f.step = step))) })) s
  (s1.enclCores n).foldl (fun u c => (u.modCore c (fun x => { x with emit := [], retention := [], flush := none, arrived := false })).emitSync c) s1
/-- ABANDON (R409) of the open step; row 6 of R350 follows, with its checks, its fencing and a re-sowing where they ask for one. -/
def State.abandon (s : State) (n : Nat) : State :=
  let s1 := (((s.enclCores n).foldl (fun u c => u.haltCore c 4) s).stopSegsOf n).dropStep n
  let s2 := ((s1.updTabkos n).foldl (fun u t => u.wr Reg.UPD_STAT.BUSY 0 t n) s1).modEncl n (fun x => { x with
    closed := true, folded := true, release := none, restart := true, notices := [], accept := none
    ringWait := s.usedFloors n, soloWait := true })
  (s2.wr Reg.YK_ENCL.ACCEPTING 0 0 n).rowSix n

/-- A distribute frame of one final tile (R408). -/
def State.distribute (s : State) (fl n dst step sheaf tile kind round : Nat) (scale : Int) (csat : Bool) (vals : List Int) : State :=
  let len := s.rd Reg.FLR_RING.LEN fl n
  let f : SheafFrame :=
    { job := s.rd Reg.ENCL_SHAPE.JOB_ID (j := n), step := step, sheaf := sheaf, tile := tile, kind := kind, pass := 1, miss := false, nf := false
      csat := csat, glean := false, round := round, scale := scale, gk := 0, missBits := 0, origin := if len = 0 then 0 else sheaf % len
      sender := s.rd Reg.FLR_RING.POS fl n, vals := vals }
  s.routeFrame fl { ty := 1, cls := 1, lane := 0, floor := fl, dst := dst, src := s.moduleId, hops := s.rd Reg.FWD_ID.HOPS_INIT 0, body := f.bytes }
/-- REDISTRIBUTE (R408): the final tiles of every sheaf of the landed step, read from G; the statistics as they were landed. -/
def State.redistribute (s : State) (n dst step : Nat) : State :=
  let x := s.encl n
  let roundOf (k : Nat) : Nat × Int := ((x.finals.find? (fun f => decide (f.1 = k))).map Prod.snd).getD (0, 0)
  let s1 := x.sheaves.foldl (fun u h =>
    let r := roundOf h.num
    if h.tiles = 0 then u.distribute h.floor n dst step h.num 0 (b2n h.exact) r.1 r.2 false []
    else (List.range h.tiles).foldl (fun v tile =>
      let vals := (List.range 256).map (fun e =>
        let b := (List.range 4).map (fun k => match partAddr h.g (4 * (h.gFirst + 256 * tile + e) + k) with
          | some a => v.slowByteAt a
          | none => 0)
        if h.exact then sint 32 (leNat b) else (leNat b : Int))
      v.distribute h.floor n dst step h.num tile (b2n h.exact) r.1 r.2 false vals) u) s
  if x.statSheaf = 0xFFFF then s1
  else x.statFin.foldl (fun u t => u.distribute x.statFloor n dst step x.statSheaf t.1 2 0 0 t.2.1 t.2.2) s1

/-- The seed image of an enclosure (R411): the bytes of its persistent tensors on the slow tier, by ascending tensor id. -/
def State.seedImage (s : State) (n : Nat) : List Byte :=
  (sortBy (fun a b => decide (a.tid ≤ b.tid)) ((s.encl n).placed.filter (fun t => decide (t.life = 2) && !t.parts.isEmpty))).flatMap
    (fun t => s.tensorBytes t 0 t.bytes)
/-- The exact sheaves of an enclosure with their FLR_SCALE entries, ascending. -/
def State.exactSheaves (s : State) (n : Nat) : List (Sheaf × Nat) :=
  ((s.encl n).ascending.filter Sheaf.exact).filterMap (fun h => (s.scaleEntry h.floor n h.num).map (fun j => (h, n * 64 + j)))
/-- Payload of SEED_STATE: what R411 lists, in a layout of the model (DESIGN CHOICE, log entry 32). -/
def State.seedState (s : State) (n : Nat) : List Byte :=
  leBytes 4 (s.rd Reg.ENCL_STATE.STEP (j := n)) ++
  (s.exactSheaves n).flatMap (fun p => leBytes 2 (s.rd Reg.FLR_SCALE.S p.1.floor p.2) ++ leBytes 1 (s.rd Reg.FLR_SCALE.ROUND p.1.floor p.2) ++
    leBytes 2 (s.rd Reg.FLR_SCALE.EMAX p.1.floor p.2) ++ leBytes 1 (s.rd Reg.FLR_SCALE.EVALID p.1.floor p.2)) ++
  (s.encl n).tally.flatMap (fun d => leBytes 4 d.entry ++ leBytes 1 d.fmt ++ leBytes 1 (wrapInt 8 d.sigma))
/-- The copy of R412: image, state and CRC go to the replacement; a change of the union re-sows the survivor. -/
def State.attachCopy (s : State) (n : Nat) : State :=
  let img := s.seedImage n
  let h (kind off : Nat) : YokeHdr := ⟨kind, n, s.rd Reg.ENCL_SHAPE.JOB_ID (j := n), s.rd Reg.ENCL_STATE.STEP (j := n), (s.encl n).fprint, off,
    s.rd Reg.ENCL_SHAPE.YOKE (j := n)⟩
  let s2 : State := { s.wr Reg.YK_SEED.BYTES img.length with yoke := { s.yoke with copyDue := false } }
  let s3 := (List.range (ceilDiv img.length 16384)).foldl (fun u k => u.sendYoke (h 4 (16384 * k)) (slice img (16384 * k) 16384)) s2
  let s4 := (s3.sendYoke (h 5 0) (s.seedState n)).sendYoke (h 6 0) (leBytes 4 (crc32c img))
  if s4.mateChanged n then s4.beginResow n else s4
/-- ATTACH (R412): the survivor holds its release, enters SEEDING and copies; before row 6 of its boundary the copy waits for it, since the
state it carries is what the boundary leaves (R411). -/
def State.attach (s : State) (n : Nat) : State :=
  let s1 := ((s.setYk 4).wr Reg.YK_SEED.BUSY 1).modEncl n (fun x => { x with release := none, ringWait := s.usedFloors n })
  let s2 : State := { s1 with yoke := { s1.yoke with seeding := some n, copyDue := true } }
  if (s.encl n).checked then s2.attachCopy n else s2

/-- BOUNDARY_CHECKS (R350 row 6, R278): once fold and update are done. A copy that waited for it starts (R412). -/
def execBoundaryChecks (encl : EnclId) (s : State) : Host.Outcome State Fault Refusal :=
  let n := encl.val
  let x := s.encl n
  if !x.closed || !x.folded || x.checked || !([2, 3].contains (s.rd Reg.ENCL_STATE.STATE (j := n))) || !s.updateDone n then .next s
  else
    let t := s.rowSix n
    .next (if s.yoke.seeding = some n ∧ s.yoke.copyDue then t.attachCopy n else t)

/-- The staged fields agree with the table of R408. The enclosure is at a boundary between its close point and its release (R350). -/
def State.ykAgrees (s : State) (op n : Nat) : Bool :=
  let x := s.encl n
  let cur := s.rd Reg.ENCL_STATE.STEP (j := n)
  let step := s.stg Reg.YK_CMD.STEP
  let landed := s.rd Reg.YK_ENCL.LANDED (j := n)
  let last := decide (step = cur) && decide (landed = (cur + 2 ^ 32 - 1) % 2 ^ 32)
  let pol := s.stg Reg.YK_CMD.POLICY
  if op = 1 then last
  else if op = 2 then last && x.closed && !x.checked
  else if op = 3 then decide (landed = step)
  else if op = 4 then decide (s.ykState = 2) && decide (step = cur) && (decide (pol = 1) || decide (pol = 2)) && s.atRelease n
  else if op = 5 then (decide (s.ykState = 1) || decide (s.ykState = 2)) && x.closed && (x.checked || s.stepComplete n)
  else if op = 6 then decide (s.ykState = 3) && x.closed && (x.checked || s.updateDone n)
  else false
/-- YK_GO.COMMIT (R408). -/
def State.ykCommit (s : State) : State :=
  let op := s.stg Reg.YK_CMD.OP
  let n := s.stg Reg.YK_CMD.ENCL
  if !s.anyStaged ykFields then s
  else if !s.ykAgrees op n then (s.dropAll ykFields).mismatch (Reg.YK_GO.COMMIT.addr 0 0) skSteading 0
  else
    let s1 := s.applyAll ykFields
    let dst := s1.rd Reg.YK_CMD.DST
    if op = 1 then s1.abandon n
    else if op = 2 then (s1.wr Reg.YK_ENCL.ACCEPTING 1 (j := n)).modEncl n (fun x => { x with accept := some dst })
    else if op = 3 then s1.redistribute n dst (s1.rd Reg.YK_CMD.STEP)
    else if op = 4 then ((s1.setYk 3).raiseYoke n 0x89 Reg.YK_STAT.STATE).writeYokeWord n (if s1.rd Reg.YK_CMD.POLICY = 1 then 2 else 1) 1
    else if op = 5 then s1.modEncl n (fun x => { x with detached := true })
    else s1.attach n
/-- A COMMIT of the command OP. -/
def State.ykOp (s : State) (op : Nat) : State := if s.stg Reg.YK_CMD.OP = op then s.ykCommit else s

/-- ABANDON (R408, R409). -/
def execAbandon (s : State) : Host.Outcome State Fault Refusal := .next (s.ykOp 1)
/-- ACCEPT (R408). -/
def execAccept (s : State) : Host.Outcome State Fault Refusal := .next (s.ykOp 2)
/-- REDISTRIBUTE (R408). -/
def execRedistribute (s : State) : Host.Outcome State Fault Refusal := .next (s.ykOp 3)
/-- TAKEOVER (R408, R410). -/
def execTakeover (s : State) : Host.Outcome State Fault Refusal := .next (s.ykOp 4)
/-- DETACH (R408). -/
def execDetach (s : State) : Host.Outcome State Fault Refusal := .next (s.ykOp 5)
/-- ATTACH (R408, R412). -/
def execAttach (s : State) : Host.Outcome State Fault Refusal := .next (s.ykOp 6)

/-! ### The replacement (R411, R412) -/

/-- The enclosure that joins, if the frame is for it. -/
def State.joining (s : State) (h : YokeHdr) : Option Nat :=
  match s.yoke.seeding with
  | some n => if s.ykState = 5 ∧ s.rd Reg.ENCL_SHAPE.JOB_ID (j := n) = h.job ∧ (s.encl n).fprint = h.fprint ∧ !(s.encl n).groups.isEmpty then some n else none
  | none => none
/-- A byte string written into a placed slow-tier tensor from byte `b` on. -/
def State.putTensor (s : State) (t : Placed) (b : Nat) (bs : List Byte) : State :=
  t.parts.foldl (fun u q =>
    let lo := max b q.off
    let hi := min (b + bs.length) (q.off + q.len)
    let a := q.mpa + (lo - q.off)
    if lo < hi then match u.tabkoOf a with
      | some k =>
        let r := u.dramWrite k (a - u.spanBase k) (slice bs (lo - b) (hi - lo))
        r.1.report k 3 r.2
      | none => u
    else u) s
/-- A chunk of the seed image from byte `off` on, written into the regions. -/
def State.putImage (s : State) (n off : Nat) (bs : List Byte) : State :=
  (((sortBy (fun a b => decide (a.tid ≤ b.tid)) ((s.encl n).placed.filter (fun t => decide (t.life = 2) && !t.parts.isEmpty))).foldl
    (fun (acc : Nat × State) t =>
      let lo := max off acc.1
      let hi := min (off + bs.length) (acc.1 + t.bytes)
      (acc.1 + t.bytes, if lo < hi then acc.2.putTensor t (lo - acc.1) (slice bs (lo - off) (hi - lo)) else acc.2)) (0, s))).2
/-- The state of a SEED_STATE payload is taken. -/
def State.takeSeedState (s : State) (n : Nat) (d : List Byte) : State :=
  let step := leNat (slice d 0 4)
  let ex := s.exactSheaves n
  let s1 := (ex.zip (List.range ex.length)).foldl (fun u q =>
    let b := slice d (4 + 6 * q.2) 6
    let fl := q.1.1.floor
    let j := q.1.2
    let sc := leNat (slice b 0 2)
    let rd := leNat (slice b 2 1)
    let v := (((u.wr Reg.FLR_SCALE.S sc fl j).wr Reg.FLR_SCALE.ROUND rd fl j).wr Reg.FLR_SCALE.EMAX (leNat (slice b 3 2)) fl j).wr Reg.FLR_SCALE.EVALID
      (leNat (slice b 5 1)) fl j
    (v.enclCores n).foldl (fun w c => match w.exactEntry c q.1.1.num with
      | some i => (w.wr Reg.EMIT_SCALE.S sc c i).wr Reg.EMIT_SCALE.ROUND rd c i
      | none => w) v) s
  let defs := (s.encl n).tally
  let off := 4 + 6 * ex.length
  let new := (defs.zip (List.range defs.length)).map (fun q =>
    let b := slice d (off + 6 * q.2) 6
    { q.1 with fmt := leNat (slice b 4 1), sigma := sint 8 (leNat (slice b 5 1)) })
  let s2 := ((s1.modEncl n (fun x => { x with tally := new })).writeChoices n).wr Reg.ENCL_STATE.STEP step (j := n)
  let s3 := [0, 1].foldl (fun u fl => u.wr Reg.FLR_ENCL.STEP step fl n) s2
  (s3.runCores n).foldl (fun u c => u.wr Reg.NUM_SR.STEP step c) s3

/-- SEED_DATA (R411): a chunk that goes on where the last one ended is written into the regions. -/
def execSeedData (port : PortId) (f : LinkFrame) (s : State) : Host.Outcome State Fault Refusal :=
  .next (s.yokeIn port.val 4 f (fun t h d => match t.joining h with
    | none => t
    | some n =>
      if h.offset ≠ t.yoke.image.length ∨ t.yoke.ready then t
      else
        let img := t.yoke.image ++ d
        let u : State := { t with yoke := { t.yoke with image := img } }
        ((u.putImage n h.offset d).wr Reg.YK_SEED.BYTES img.length).wr Reg.YK_SEED.BUSY 1))
/-- SEED_STATE (R411): the payload is kept until the image is checked. -/
def execSeedState (port : PortId) (f : LinkFrame) (s : State) : Host.Outcome State Fault Refusal :=
  .next (s.yokeIn port.val 5 f (fun t h d => match t.joining h with
    | none => t
    | some _ => ({ t with yoke := { t.yoke with stateIn := some d } } : State).wr Reg.YK_SEED.BUSY 1))
/-- SEED_DONE (R412): the image is checked; derived tensors are rebuilt and the state is taken, or the seeding fails. -/
def execSeedDone (port : PortId) (f : LinkFrame) (s : State) : Host.Outcome State Fault Refusal :=
  .next (s.yokeIn port.val 6 f (fun t h d => match t.joining h with
    | none => t
    | some n =>
      match t.yoke.stateIn with
      | some st =>
        if crc32c t.yoke.image = leNat (slice d 0 4) then
          let u := ((t.loadDerived (t.encl n).placed).takeSeedState n st).wr Reg.YK_SEED.BUSY 0
          { u with yoke := { u.yoke with ready := true } }
        else t.seedFail
      | none => t.seedFail))

/-! ### The release of a step -/

/-- STEP_RELEASE (R238, R409, R421): in the first cycle of the release tick every core of the enclosure goes on; after an abandoned step
or a re-sowing every core starts at its ENTRY. -/
def execStepRelease (encl : EnclId) (s : State) : Host.Outcome State Fault Refusal :=
  let n := encl.val
  let x := s.encl n
  match x.release with
  | none => .next s
  | some r =>
    if s.now < r then
      .next (if x.restart then s
        else (s.runCores n).foldl (fun u c =>
          let k := u.core c
          if r ≤ u.estTick (croftOf c) ∧ k.hold = .sbar ∧ k.arrived ∧ !s.power.fromKeep.contains (croftOf c) then
            (u.modCore c (fun k => { k with arrived := false })).releaseHold c
          else u) s)
    else
      let s0 := if s.yoke.seeding = some n ∧ s.ykState = 4 then (s.attached n).writeYokeWord n 1 0 else s
      let s1 := s0.modEncl n (fun y => { y with
        closed := false, folded := false, checked := false, release := none, restart := false, soloWait := false
        glean := decide (s.rd Reg.GLN_CTL.EN 0 n = 1) })
      let s2 := (s.runCores n).foldl (fun u c =>
        -- in a croft whose own tick is still behind R the hand goes on at that tick
        let late := decide (u.estTick (croftOf c) < r)
        let k := u.core c
        let v := u.modCore c (fun k => { k with arrived := false })
        let held (t : State) : State := if late then t.modCore c (fun k => { k with hold := .twait r }) else t
        if x.restart then held (v.startCore c)
        else if s.power.fromKeep.contains (croftOf c) then held (v.enterCore c)
        else if k.hold = .sbar ∧ k.arrived then (if late then held v else v.releaseHold c) else v) s1
      let s2 : State := { s2 with power := { s2.power with fromKeep := s2.power.fromKeep.filter (fun c => !s.inRect n c) } }
      .next ((s2.drainHeld n).startCompare n)

/-! ### The loss of a port -/

/-- BLN_EN (R356, R371): a write of EN. -/
def execBlnEn (port : PortId) (en : Bool) (s : State) : Host.Outcome State Fault Refusal :=
  let p := port.val
  if !s.portPresent p then .next s
  else
    let s1 := s.wr Reg.BLN_CTL.EN (b2n en) p
    let dom := s.floorState (floorOf p)
    if en then
      if s.portState p ≠ 0 then .next s1
      else if dom = 0 then .next (s1.enterLight p)
      else if dom = 1 then .next (s1.wr Reg.BLN_STAT.STATE 1 p)
      else .next s1
    else .next (((s1.portLoss p).seedLoss p s).wr Reg.BLN_STAT.STATE 0 p)

/-- RETRAIN (R356, R371). -/
def execRetrain (port : PortId) (s : State) : Host.Outcome State Fault Refusal := .next ((s.portLoss port.val).seedLoss port.val s)

/-- PORT_DOWN (R371): no signal for 16 tk, over 64 uncorrectable codewords in the bell interval, a SEQ sent 8 times, or no frame
for 4,096 tk. -/
def execPortDown (port : PortId) (noSignal : Bool) (s : State) : Host.Outcome State Fault Refusal :=
  let p := port.val
  let x := s.port p
  .next (if noSignal || decide (64 < x.badBell) || x.replay.any (fun r => decide (8 ≤ r.2.1)) ||
      decide (x.rxAt + 4096 ≤ s.now) then (s.portLoss p).seedLoss p s else s)

end Sys2Proof.Machine
end

