-- ==== Sys2Proof/Machine/SelfTest.lean ====
section
/-! DEFINITION. Self-test and the service functions (R466-R472): BIST on command, periodic slices, fallow edits, journal reads. -/

namespace Sys2Proof.Machine

/-! ### Units, limits, claims (R466, R467, R473) -/

/-- Events of R453 and R475 are raised outside HOLD. -/
def State.raiseLive (s : State) (code : Nat) (f : Fld) : State := if s.pins.stHold then s else s.raiseSt code (s.copyOf f)

/-- A croft can be tested (R466). -/
def State.bistCroft (s : State) (c : Nat) : Bool :=
  s.croftPresent c && (s.enclOf c).isNone && (s.transitOf c).isNone && decide (s.rd Reg.PWR_DOM.CUR (j := holdingOf c) = 0)
/-- A Tabko can be tested. -/
def State.bistTabko (s : State) (t : Nat) : Bool := s.tabkoPresent t && (s.enclsOn t).isEmpty && decide (s.mpState = 0)
/-- A port can be tested. -/
def State.bistPort (s : State) (p : Nat) : Bool :=
  s.portPresent p && decide (s.floorState (floorOf p) = 0) && (s.ringUsers p).all (fun n => decide (s.rd Reg.ENCL_STATE.STATE (j := n) = 0)) &&
  !(decide (p = 0) && decide (s.rd Reg.YK_CFG.EN = 1))

/-- Nominal core supply of OP0 to OP2, mV (R235). -/
def nominalMv (op : Nat) : Nat := if op = 0 then 780 else if op = 1 then 740 else 700
/-- A holding is at OP0-OP2 with its supply within 3 % (R467). -/
def State.railOk (s : State) (h : Nat) : Bool :=
  let op := s.rd Reg.HOLD_OP.CUR (j := h)
  let mv := 100 * s.rd Reg.PWR_HOLD.MILLIVOLTS (j := h)
  decide (op ≤ 2) && decide (97 * nominalMv op ≤ mv) && decide (mv ≤ 103 * nominalMv op)

/-- Some core of a croft is being wiped: the arbiter's activity 4. -/
def State.wiping (s : State) (c : Nat) : Bool := (coresOfCroft c).any (fun i => decide (s.rd Reg.SP_STAT.WIPE_BUSY i = 1))
/-- A claim meets no conflict, wipes under way among the others (R473). -/
def State.claimClear (s : State) (c : Claim) : Bool :=
  s.claimOk c && !([1, 2, 5].contains c.act && c.crofts.any (fun k => s.croftPresent k && s.wiping k))

/-- One bit of a bitmap of crofts in registers of 64. -/
def State.setCroftBit (s : State) (f : Fld) (c : Nat) (v : Bool) : State :=
  let w := s.rd f 0 (c / 64)
  s.wr f (w - bits w (c % 64) 1 * 2 ^ (c % 64) + b2n v * 2 ^ (c % 64)) 0 (c / 64)
/-- A number with the bits given set. -/
def bitSet (l : List Nat) : Nat := l.eraseDups.foldl (fun a b => a + 2 ^ b) 0
/-- Indices below `n` whose bit is set. -/
def bitsOf (x n : Nat) : List Nat := (List.range n).filter (fun k => decide (bits x k 1 = 1))

/-! ### BIST on command (R466-R468) -/

/-- The activity's own wipe of a croft (R474, R468). -/
def State.wipeCroft (s : State) (c : Nat) : State :=
  (coresOfCroft c).foldl (fun t i => if t.rd Reg.SP_STAT.WIPE_BUSY i = 1 then t else t.wipeStart i false) s

/-- The same wipe, recorded (R137, log entry 29). -/
def State.wipeCroftOwn (s : State) (c : Nat) : State := (s.wipeCroft c).ledRecord 4 (detailRect c 1 1)

/-- Whatever its verdict, a test leaves its crofts wiped and cold, its Tabkos to be retrained and its ports in LIGHT (R468). -/
def State.testOver (s : State) (r : BistRun) : State :=
  let s1 := r.crofts.foldl (fun t c => (coresOfCroft c).foldl (fun u i => u.chill i) (t.wipeCroftOwn c)) s
  let s2 := r.tabkos.foldl (fun t k => t.modTabko k (fun x => { x with retrainDue := true })) s1
  let s3 := (r.ports.foldl (fun t p => t.enterLight p) s2).dropClaims (fun c => decide (c.act = 2))
  let s4 : State := { s3 with bist := { s3.bist with run := none } }
  (s4.wr Reg.BIST_STAT.BUSY 0).incSat Reg.BIST_STAT.RUNS 1

/-- A test ends with no verdict (R467, R426). -/
def State.testVoid (s : State) (result : Option Nat) : State :=
  match s.bist.run with
  | none => s
  | some r =>
    let s1 := (s.testOver r).wr Reg.BIST_STAT.PASS 0
    match result with
    | some v => (s1.wr Reg.BIST_STAT.RESULT v).raiseLive v Reg.BIST_STAT.BUSY
    | none => s1

/-- The units a test concerns, one domain's: a holding, MP, FW, FE. -/
def BistRun.inDomain (r : BistRun) (dom : Nat) : Bool :=
  if dom < 16 then r.crofts.any (fun c => decide (holdingOf c = dom))
  else if dom = 16 then !r.tabkos.isEmpty else r.ports.any (fun p => decide (floorOf p = dom - 17))

/-- The units that BIST_CMD and BIST_UNITS name and that are eligible (R466). -/
def State.bistUnits (s : State) : BistRun :=
  let kind := s.rd Reg.BIST_CMD.KIND
  let any (l : List Nat) : Bool := l.any (fun b => decide (bits kind b 1 = 1))
  let rect := (rectCrofts (s.rd Reg.BIST_CMD.ORIGIN) (s.rd Reg.BIST_CMD.CROWS) (s.rd Reg.BIST_CMD.CCOLS)).filter (fun c => decide (c < 256))
  { kind := kind
    crofts := if any [0, 1, 2, 3, 8] then rect.filter s.bistCroft else []
    tabkos := if any [4, 5, 8] then (bitsOf (s.rd Reg.BIST_UNITS.TABKOS) 48).filter s.bistTabko else []
    ports := if any [6, 7, 8] then (bitsOf (s.rd Reg.BIST_UNITS.PORTS) 16).filter s.bistPort else [] }
/-- What a test claims (R473). -/
def State.bistClaims (s : State) (r : BistRun) : List Claim :=
  (if r.crofts.isEmpty then [] else [⟨2, 0, s.rd Reg.BIST_CMD.ORIGIN, s.rd Reg.BIST_CMD.CROWS, s.rd Reg.BIST_CMD.CCOLS⟩]) ++
  r.tabkos.map (fun t => ⟨2, 2, t, 0, 0⟩) ++ r.ports.map (fun p => ⟨2, 3, p, 0, 0⟩)

/-- A GO of BIST_CMD (R466): refused outside the states that permit it, outside the limits, or by the arbiter; else it starts.
GO while a test runs is ignored. -/
def State.bistGo (s : State) : State :=
  let r := s.bistUnits
  let refuse (code : Nat) : State := (s.wr Reg.BIST_STAT.RESULT code).raiseLive code Reg.BIST_STAT.BUSY
  if s.rd Reg.BIST_STAT.BUSY = 1 then s
  else if !s.serviceOk then refuse 0xC9
  else if r.crofts.any (fun c => !s.railOk (holdingOf c)) then refuse 0xC3
  else match (s.bistClaims r).find? (fun c => !s.claimClear c) with
    | some c => (s.wr Reg.BIST_STAT.RESULT 0xC1).refuseClaim c
    | none =>
      let s1 := (s.wr Reg.BIST_STAT.RESULT 0)
      let s1 : State := { s1 with bist := { s1.bist with sealOk := false } }
      if r.crofts.isEmpty && r.tabkos.isEmpty && r.ports.isEmpty then
        ((s1.wr Reg.BIST_STAT.PASS 1).incSat Reg.BIST_STAT.RUNS 1).raiseLive 0xC8 Reg.BIST_STAT.BUSY
      else
        let s2 := (s.bistClaims r).foldl (fun t c => t.addClaim c) (s1.wr Reg.BIST_STAT.BUSY 1)
        { s2 with bist := { s2.bist with run := some r } }

/-- BIST_GO (R466). -/
def execBistGo (s : State) : Host.Outcome State Fault Refusal := .next s.bistGo

/-- The test covered every present unit with every KIND bit set (R458). -/
def State.coversAll (s : State) (r : BistRun) : Bool :=
  decide (r.kind = 0x1FF) && (List.range 256).all (fun c => !s.croftPresent c || r.crofts.contains c) &&
  (List.range 48).all (fun t => !s.tabkoPresent t || r.tabkos.contains t) && (List.range 16).all (fun p => !s.portPresent p || r.ports.contains p)

/-- BIST_END (R468, R471, R481): the verdict: the units that failed, and the cores whose checksum column or corner cell failed.
Failing crofts are quarantined, a croft that passes KIND bits 0-3 leaves quarantine. -/
def execBistEnd (failC : List CroftId) (failT : List TabkoId) (failP : List PortId) (cells : List CoreId) (s : State) :
    Host.Outcome State Fault Refusal :=
  match s.bist.run with
  | none => .next s
  | some r =>
    let fc := r.crofts.filter (fun c => failC.any (fun k => decide (k.val = c)))
    let ft := r.tabkos.filter (fun c => failT.any (fun k => decide (k.val = c)))
    let fp := r.ports.filter (fun c => failP.any (fun k => decide (k.val = c)))
    let pass := fc.isEmpty && ft.isEmpty && fp.isEmpty
    let full := decide (r.kind % 16 = 15)
    let s1 := r.crofts.foldl (fun t c =>
      let bad := fc.contains c
      let u := t.setCroftBit Reg.BIST_FAILC.CROFTS c bad
      if bad then u.setCroftBit Reg.BIST_QUAR.CROFTS c true else if full then u.setCroftBit Reg.BIST_QUAR.CROFTS c false else u) s
    let s2 := ((s1.wr Reg.BIST_FAILU.TABKOS (bitSet ft)).wr Reg.BIST_FAILU.PORTS (bitSet fp)).wr Reg.BIST_STAT.PASS (b2n pass)
    let good := if full then r.crofts.filter (fun c => !fc.contains c) else []
    let s3 : State := { s2 with bist := { s2.bist with sealOk := pass && s.coversAll r, passed := (s2.bist.passed ++ good).eraseDups } }
    let s4 := s3.testOver r
    let s5 := if pass then s4 else s4.raiseLive 0xC2 Reg.BIST_STAT.BUSY
    let s6 := s5.raiseLive 0xC8 Reg.BIST_STAT.BUSY
    .next (cells.foldl (fun t i => if r.crofts.contains (croftOf i.val) then t.requestFence i.val 6 else t)
      (if (List.range 4).all (fun k => decide (s6.rd Reg.BIST_QUAR.CROFTS 0 k = s.rd Reg.BIST_QUAR.CROFTS 0 k)) then s6 else s6.rebuild))

/-! ### Slices (R469-R471) -/

/-- The slice under way ends, its claim released. -/
def State.sliceOver (s : State) : State :=
  let t := s.dropClaims (fun c => decide (c.act = 1))
  { t with bist := { t.bist with slice := none } }
/-- A slice is abandoned: no verdict, no event; its croft is wiped. -/
def State.sliceVoid (s : State) : State :=
  match s.bist.slice with
  | none => s
  | some (c, _) => s.sliceOver.wipeCroftOwn c

/-- SLICE_START (R469): at a bell, PERIOD bells after the start of the slice before, the next eligible croft. -/
def execSliceStart (s : State) : Host.Outcome State Fault Refusal :=
  let due : Bool := match s.bist.sliceAt with
    | some t => decide (t + 1024 * s.rd Reg.BIST_SLICE.PERIOD ≤ s.now)
    | none => true
  if s.rd Reg.BIST_SLICE.EN = 0 ∨ s.lc = 4 ∨ s.bist.slice.isSome ∨ s.now % 1024 ≠ 0 ∨ !due ∨ !s.stRuns then .next s
  else
    let last := s.rd Reg.BIST_SLICE.LAST
    match ((List.range 256).map (fun k => (last + 1 + k) % 256)).find? (fun c =>
        s.bistCroft c && s.railOk (holdingOf c) && !s.quarantined c && !s.croftClaimed [2, 9] c) with
    | none => .next s
    | some c =>
      let cl : Claim := ⟨1, 0, c, 1, 1⟩
      if s.claimClear cl then
        let s1 := (s.addClaim cl).wr Reg.BIST_SLICE.LAST c
        .next { s1 with bist := { s1.bist with slice := some (c, s.now), sliceAt := some s.now } }
      else .next (s.refuseClaim cl)

/-- SLICE_END (R469-R471, R481): the croft has been wiped (R137); a failing slice gates its clocks and quarantines it. -/
def execSliceEnd (pass : Bool) (cells : List CoreId) (s : State) : Host.Outcome State Fault Refusal :=
  match s.bist.slice with
  | none => .next s
  | some (c, b) =>
    if s.now < b + 2048 then .next s
    else
      let s1 := (((coresOfCroft c).foldl (fun t i => t.wipeNow i) s).ledRecord 4 (detailRect c 1 1)).incWrap Reg.BIST_SLICE.RUNS 1
      let s2 := (s1.setCroftBit Reg.BIST_FAILC.CROFTS c (!pass)).sliceOver
      let s3 := if pass then s2
        else ((s2.modCroft c CroftX.gated).setCroftBit Reg.BIST_QUAR.CROFTS c true).rebuild.raiseLive 0xC2 Reg.BIST_STAT.BUSY
      .next (cells.foldl (fun t i => if croftOf i.val = c then t.requestFence i.val 6 else t) s3)

/-- BIST_LIMIT (R467, R469): a supply leaves its window: a test on command ends with no verdict and BIST_LIMIT, a slice with neither. -/
def execBistLimit (dom : DomId) (s : State) : Host.Outcome State Fault Refusal :=
  let d := dom.val
  let s1 := match s.bist.run with
    | some r => if r.inDomain d then s.testVoid (some 0xC3) else s
    | none => s
  .next (match s1.bist.slice with
    | some (c, _) => if holdingOf c = d then s1.sliceVoid else s1
    | none => s1)

/-! ### Fallow edits (R472) -/

/-- The logical core that a physical index carries, if one (R20). -/
def State.logicalOf (s : State) (phys : Nat) : Option Nat :=
  let row := phys / 320
  let p := row % 17
  let c := row / 17 * 16 + phys % 320 / 20
  let core (r : Nat) : Nat := coreAt (row / 17 * 16 + r) (phys % 320)
  if s.rd Reg.CROFT_TABLE.SPARE_USED 0 c = 1 then
    let b := s.rd Reg.CROFT_TABLE.BAD_ROW 0 c
    if p = b then none else some (core (if b < p then p - 1 else p))
  else if p = 16 then none else some (core p)

/-- The crofts a passed BIST counts for, without the croft of a core newly marked. -/
def State.unpass (s : State) (croft : Nat) : State := { s with bist := { s.bist with passed := s.bist.passed.filter (fun c => decide (c ≠ croft)) } }
/-- Croft of a physical index. -/
def croftOfPhys (phys : Nat) : Nat := phys / 320 / 17 * 16 + phys % 320 / 20

/-- FALLOW_EDIT SET (R472): a core is fenced by R481; a physical core that carries no logical position is only marked. -/
def State.fallowSet (s : State) (phys : Nat) : State :=
  let c := croftOfPhys phys
  if !s.serviceOk || !s.croftPresent c then s
  else match s.logicalOf phys with
    | some i => s.requestFence i 3
    | none =>
      if s.bist.marks.contains phys then s
      else
        let t := (s.unpass c).ledRecord 5 (detailChange phys 1)
        ({ t with bist := { t.bist with marks := t.bist.marks ++ [phys] } } : State).rebuild
/-- FALLOW_EDIT CLEAR (R472): a mark goes when the core's croft is in no enclosure and has passed BIST since, and ARR_STAT.FAULT with it
(R70). The core of a stiled router stays fallow (R191). -/
def State.fallowClear (s : State) (phys : Nat) : State :=
  let c := croftOfPhys phys
  if !s.serviceOk || (s.enclOf c).isSome || !s.bist.passed.contains c then s
  else match s.logicalOf phys with
    | some i => if s.fallow i ∧ !s.stiled i then (((s.wr Reg.RTR_STAT.FENCED 0 i).wr Reg.ARR_STAT.FAULT 0 i).ledRecord 5 (detailChange phys 2)).rebuild else s
    | none =>
      if s.bist.marks.contains phys then
        let t := s.ledRecord 5 (detailChange phys 2)
        ({ t with bist := { t.bist with marks := t.bist.marks.filter (fun k => decide (k ≠ phys)) } } : State).rebuild
      else s

/-- FALLOW_SET (R472). -/
def execFallowSet (core : Fin 87040) (s : State) : Host.Outcome State Fault Refusal := .next (s.fallowSet core.val)
/-- FALLOW_CLEAR (R472). -/
def execFallowClear (core : Fin 87040) (s : State) : Host.Outcome State Fault Refusal := .next (s.fallowClear core.val)

/-! ### Journal reads (R472) -/

/-- A record's signature verifies under the identity key. -/
def State.recordOk (s : State) (r : List Byte) : Bool :=
  match s.otp.idSeed with
  | some seed => ecdsaVerify (ecdsaPublic (Config.identityKey seed)) (r.take 224) (slice r 224 96)
  | none => false
/-- LED_SEL: the record of a SEQ appears in LED_REC, or zeros. -/
def State.selectRecord (s : State) (seq : Nat) : State :=
  if !s.serviceOk then s
  else
    let r := (s.flash.journal.find? (fun r => decide (leNat (slice r 4 4) = seq) && decide (r.take 4 = ledMagic) && s.recordOk r)).getD []
    (List.range 40).foldl (fun t k => t.wr Reg.LED_REC.WORD (leNat (slice r (8 * k) 8)) 0 k) (s.wr Reg.LED_SEL.SEQ seq)
/-- LED_SEL (R472). -/
def execLedSel (seq : BitVec 32) (s : State) : Host.Outcome State Fault Refusal := .next (s.selectRecord seq.toNat)

end Sys2Proof.Machine
end

