-- ==== Sys2Proof/Machine/Gauntlet.lean ====
section
/-! DEFINITION. The gauntlet and the life cycle (R455-R465): credentials, passwords, challenges, sessions, transitions. -/

namespace Sys2Proof.Machine

/-! ### Bytes and credentials (R461) -/

/-- Free bytes (log entry 14). -/
def State.freeBytes (s : State) (n : Nat) : List Byte × State :=
  ((List.range n).map (fun k => Config.freeByte (s.freeIx + k)), { s with freeIx := s.freeIx + n })
/-- Bytes held in registers of 8 B. -/
def State.regBytes (s : State) (f : Fld) (n : Nat) : List Byte := ((List.range (ceilDiv n 8)).flatMap (fun k => leBytes 8 (s.rd f 0 k))).take n
/-- Bytes written into registers of 8 B. -/
def State.putBytes (s : State) (f : Fld) (bs : List Byte) : State :=
  (List.range (ceilDiv bs.length 8)).foldl (fun t k => t.wr f (leNat (slice bs (8 * k) 8)) 0 k) s

/-- "KZJCREDS". -/
def credMagic : List Byte := ascii [0x4B, 0x5A, 0x4A, 0x43, 0x52, 0x45, 0x44, 0x53]
/-- The credential block is present: its MAGIC and its SEAL are right. -/
def State.credOk (s : State) : Bool :=
  let c := s.flash.creds
  decide (slice c 0 8 = credMagic) && decide (slice c 144 48 = hmac384 Config.sealKey (slice c 0 144))
/-- A flag of the block in force: 0 PW, 1 LKEY. -/
def State.credFlag (s : State) (b : Nat) : Bool := s.credOk && decide (bits (leNat (slice s.flash.creds 8 1)) b 1 = 1)
/-- GNT_STAT.CRED_VALID. -/
def State.credSync (s : State) : State := s.wr Reg.GNT_STAT.CRED_VALID (b2n s.credOk)

/-- RESULT of an operation, with its event. -/
def State.gntResult (s : State) (code : Nat) : State := s.wr Reg.GNT_STAT.RESULT code
def State.gntFail (s : State) (code : Nat) : State := (s.gntResult code).raiseLive code Reg.GNT_STAT.SESSION

/-! ### Sessions (R465) -/

/-- Almanac ticks of a minute. -/
def ticksPerMinute : Nat := 6375000000
/-- TIMEOUT names a session. -/
def State.timeoutOk (s : State) : Bool := decide (1 ≤ s.rd Reg.GNT_CTL.TIMEOUT) && decide (s.rd Reg.GNT_CTL.TIMEOUT ≤ 1440)
/-- A session opens with a scope: 1 service, 2 full. -/
def State.openSession (s : State) (scope : Nat) : State :=
  let old := s.lc
  let s1 := (((s.wr Reg.GNT_STAT.SESSION scope).wr Reg.GNT_END.TICK (s.now + s.rd Reg.GNT_CTL.TIMEOUT * ticksPerMinute)).gntResult 0).lcSync
  (s1.ledRecord 3 (detailLc old s1.lc)).raiseLive 0xC5 Reg.GNT_STAT.SESSION
/-- The session in force is over, its KIND 3 record naming the state before and after (R460, R465). -/
def State.endSession (s : State) (old new : Nat) : State :=
  (((s.wr Reg.GNT_STAT.SESSION 0).lcSync).ledRecord 3 (detailLc old new)).raiseLive 0xC7 Reg.GNT_STAT.SESSION
/-- The state without a session. -/
def State.lcClosed (s : State) : Nat := (s.wr Reg.GNT_STAT.SESSION 0).lc
/-- The session in force ends. -/
def State.closeSession (s : State) : State := if s.rd Reg.GNT_STAT.SESSION = 0 then s else s.endSession s.lc s.lcClosed

/-- SESSION_TIMEOUT (R465). -/
def execSessionTimeout (s : State) : Host.Outcome State Fault Refusal :=
  .next (if s.rd Reg.GNT_STAT.SESSION ≠ 0 ∧ s.rd Reg.GNT_END.TICK ≤ s.now then s.closeSession else s)
/-- OP CLOSE (R465). -/
def State.gntClose (s : State) : State := s.closeSession.gntResult 0
def execClose (s : State) : Host.Outcome State Fault Refusal := .next s.gntClose

/-! ### Passwords (R463) -/

/-- Ticks to wait after LAST with 8 fails or more. -/
def failWait (fails : Nat) : Nat := 2 ^ (27 + min fails 24 - 8)

/-- OP PASSWORD (R463). -/
def State.password (s : State) : State :=
  let fails := s.rd Reg.GNT_STAT.FAILS
  let len := s.rd Reg.GNT_CTL.PW_LEN
  if 8 ≤ fails ∧ s.now < s.trust.last + failWait fails then (s.gntResult 0xCA).wr Reg.GNT_RETRY.TICK (s.trust.last + failWait fails)
  else if len < 16 ∨ 64 < len ∨ !s.credFlag 0 ∨ !s.timeoutOk then s.gntFail 0xC6
  else if sha384 (slice s.flash.creds 16 32 ++ s.regBytes Reg.GNT_PW.DATA len) = slice s.flash.creds 48 48 then (s.wr Reg.GNT_STAT.FAILS 0).openSession 1
  else
    let s1 := s.wr Reg.GNT_STAT.FAILS (min (fails + 1) 63)
    ({ s1 with trust := { s1.trust with last := s.now } } : State).gntFail 0xC6
/-- PASSWORD (R463). -/
def execPassword (s : State) : Host.Outcome State Fault Refusal := .next s.password

/-! ### Transitions (R458-R460) -/

/-- Every enclosure is FREE. -/
def State.allFree (s : State) : Bool := (List.range 16).all (fun n => decide (s.rd Reg.ENCL_STATE.STATE (j := n) = 0))
/-- A transition (R460): the fuse is blown; the session in force ends (R465); a KIND 3 record and a checkpoint follow, and LC_CHANGED. -/
def State.transition (s : State) (blow : Otp → Otp) : State :=
  let old := s.lcClosed
  let s1 : State := { s with otp := blow s.otp }
  let s2 := ((if s.rd Reg.GNT_STAT.SESSION = 0 then s1 else s1.endSession s.lc old).lcSync).ledAdd 110 2 1
  ((s2.ledRecord 3 (detailLc old s2.lc)).checkpoint.gntResult 0).raiseLive 0xC4 Reg.BOOT_STAT.PHASE
/-- One transition fuse is blown. -/
def blowFuse (o : Otp) : Otp := { o with lcFuses := o.lcFuses + 1 }

/-- R458, R459: every scratchpad of every ON holding is wiped, the ledger recording each holding (R137). -/
def State.wipeOn (s : State) : State :=
  (List.range 16).foldl (fun t h =>
    if t.holdPresent h ∧ t.rd Reg.PWR_DOM.CUR (j := h) = 0 then
      ((croftsOfHolding h).foldl (fun u c => u.wipeCroft c) t).ledRecord 4 (detailRect (h / 4 * 64 + h % 4 * 4) 4 4)
    else t) s
/-- Every granule of every Tabko is marked for wipe (R299). -/
def State.markAll (s : State) : State :=
  (List.range 48).foldl (fun t k => if t.tabkoPresent k then (List.range granules).foldl (fun u g => u.markGranule k g) t else t) s
/-- The credential block is erased. -/
def State.eraseCreds (s : State) : State := ({ s with flash := { s.flash with creds := [] } } : State).credSync

/-- Entry into REFURBISH (R458, R459). -/
def State.refurbish (s : State) : State :=
  let ok := s.allFree && (List.range 16).all (fun h => !s.holdPresent h || [0, 3].contains (s.rd Reg.PWR_DOM.CUR (j := h))) &&
    decide (s.mpState = 0) && decide (s.otp.lcFuses < 62)
  if !ok then s.gntFail 0xCB
  else
    let s1 := (s.transition blowFuse).wipeOn
    let s2 := (List.range 48).foldl (fun t k => (List.range 64).foldl (fun u r =>
      if u.rd Reg.TBK_REGION.VALID k r = 1 then (u.wr Reg.TBK_REGION.VALID 0 k r).wr Reg.TBK_REGION.CLOSED 0 k r else u) t) s1
    let s3 := s2.markAll.eraseCreds
    let s4 := s3.ledAdd 124 4 1
    if (List.range 48).all (fun k => (s4.tabko k).pendings.isEmpty) then s4 else s4.wr Reg.GNT_STAT.REFURB_BUSY 1
/-- Entry into RETIRED (R458). -/
def State.retired (s : State) : State :=
  if !s.allFree || s.otp.retired then s.gntFail 0xCB
  else
    let s1 := (s.transition (fun o => { o with retired := true })).wipeOn.markAll.eraseCreds
    { s1 with otp := { s1.otp with idSeed := none }, flash := { s1.flash with chain := [] } }

/-- LC_CMD SEAL (R458). -/
def State.seal (s : State) : State :=
  if [0, 3].contains s.lc && decide (s.rd Reg.TRUST_STAT.ID_OK = 1) && s.bist.sealOk && decide (s.rd Reg.GNT_STAT.REFURB_BUSY = 0) then s.transition blowFuse
  else s.gntFail 0xCB
/-- LC_CMD RETIRE (R458). -/
def State.retireCmd (s : State) : State := if [0, 3].contains s.lc then s.retired else s.gntFail 0xCB
/-- SEAL (R458). -/
def execSeal (s : State) : Host.Outcome State Fault Refusal := .next s.seal
/-- RETIRE (R458). -/
def execRetire (s : State) : Host.Outcome State Fault Refusal := .next s.retireCmd

/-! ### Challenges (R464) -/

/-- OP CHALLENGE (R464): a fresh nonce, for the scope and signer asked. -/
def State.challenge (s : State) : State :=
  let r := s.freeBytes 48
  let s1 := (r.2.putBytes Reg.GNT_NONCE.DATA r.1).wr Reg.GNT_STAT.NONCE_VALID 1
  let n : Nat := s.rd Reg.GNT_CTL.SCOPE
  ({ s1 with trust := { s1.trust with nonce := some (s.now, n, decide (s.rd Reg.GNT_CTL.SIGNER = 1)) } } : State).gntResult 0
/-- CHALLENGE (R464). -/
def execChallenge (s : State) : Host.Outcome State Fault Refusal := .next s.challenge

/-- The nonce is no longer valid. -/
def State.dropNonce (s : State) : State :=
  let t := s.wr Reg.GNT_STAT.NONCE_VALID 0
  { t with trust := { t.trust with nonce := none } }
/-- Ticks for which a nonce is valid. -/
def nonceLife : Nat := 2 ^ 33
/-- NONCE_EXPIRY (R464). -/
def execNonceExpiry (s : State) : Host.Outcome State Fault Refusal :=
  match s.trust.nonce with
  | none => .next s
  | some (t, _, _) => .next (if t + nonceLife ≤ s.now then s.dropNonce else s)

/-- "KZJGNTLT". -/
def gntMagic : List Byte := ascii [0x4B, 0x5A, 0x4A, 0x47, 0x4E, 0x54, 0x4C, 0x54]
/-- The signed message (R464). -/
def State.gntMessage (s : State) (scope : Nat) (lessor : Bool) : List Byte :=
  gntMagic ++ s.regBytes Reg.GNT_NONCE.DATA 48 ++ leBytes 1 scope ++ leBytes 1 (b2n lessor) ++ List.replicate 6 0 ++ leBytes 8 s.otp.serial
/-- The response's key is the signer's. -/
def State.signerOk (s : State) (lessor : Bool) (key : List Byte) : Bool :=
  if lessor then s.credFlag 1 && decide (sha384 key = slice s.flash.creds 96 48)
  else match s.trust.image with
    | some img => decide (key = Config.accessKey (img.drop 1024))
    | none => false

/-- OP RESPOND (R464): the response consumes the nonce; a pass opens a session or carries out the transition asked for. -/
def State.respond (s : State) : State :=
  let s1 := s.dropNonce
  match s.trust.nonce with
  | none => s1.gntFail 0xC6
  | some (t, scope, lessor) =>
    let resp := s.regBytes Reg.GNT_RESP.DATA 192
    let key := resp.take 96
    let ok := decide (s.now < t + nonceLife) && s.signerOk lessor key && ecdsaVerify key (s.gntMessage scope lessor) (resp.drop 96) &&
      !(decide (scope = 3) && lessor) && (decide (scope = 1) || (decide (2 ≤ scope) && decide (scope ≤ 4) && [1, 2].contains s.lc))
    if !ok then s1.gntFail 0xC6
    else if scope ≤ 2 then (if s.timeoutOk then s1.openSession scope else s1.gntFail 0xC6)
    else if scope = 3 then s1.refurbish
    else s1.retired
/-- RESPOND (R464). -/
def execRespond (s : State) : Host.Outcome State Fault Refusal := .next s.respond

/-! ### SET_CRED (R462) -/

/-- OP SET_CRED (R462): a new credential block, under a fresh salt. -/
def State.setCred (s : State) : State :=
  let len := s.rd Reg.GNT_CTL.PW_LEN
  if !([0, 3].contains s.lc) || !(decide (len = 0) || (decide (16 ≤ len) && decide (len ≤ 64))) then s.gntFail 0xC6
  else
    let r := s.freeBytes 32
    let key := s.regBytes Reg.GNT_RESP.DATA 96
    let lkey := key.any (fun b => decide (b ≠ 0))
    let pw := if len = 0 then List.replicate 48 0 else sha384 (r.1 ++ s.regBytes Reg.GNT_PW.DATA len)
    let body := credMagic ++ leBytes 1 (b2n (decide (len ≠ 0)) + 2 * b2n lkey) ++ List.replicate 7 0 ++ r.1 ++ pw ++
      (if lkey then sha384 key else List.replicate 48 0)
    let block := body ++ hmac384 Config.sealKey body ++ List.replicate 3904 0
    (({ r.2 with flash := { r.2.flash with creds := block } } : State).credSync).gntResult 0
/-- SET_CRED (R462). -/
def execSetCred (s : State) : Host.Outcome State Fault Refusal := .next s.setCred

end Sys2Proof.Machine
end

