-- ==== Sys2Proof/Machine/Cvu.lean ====
section
/-! DEFINITION. Check-value units (R496-R503): GO, the reads of a scan, its end. -/

namespace Sys2Proof.Machine

/-- The unit's number in the state: Tabko × 4 + unit. -/
def cvuIx (t u : Nat) : Nat := t * 4 + u
/-- Every staged field of a unit (R498). -/
def cvuFields : List Fld :=
  [Reg.CVU_CFG.PRESET, Reg.CVU_CFG.CUSTOM, Reg.CVU_CFG.WIDTH, Reg.CVU_CFG.REFIN, Reg.CVU_CFG.REFOUT, Reg.CVU_POLY.VALUE, Reg.CVU_INIT.VALUE,
   Reg.CVU_XOROUT.VALUE, Reg.CVU_START.MPA, Reg.CVU_LEN.BYTES]

/-- A check value's parameters: width, POLY, INIT, REFIN, REFOUT, XOROUT (R496). -/
structure CheckCfg where
  width : Nat
  poly : Nat
  init : Nat
  refin : Bool
  refout : Bool
  xorout : Nat
  deriving DecidableEq, Repr

/-- Preset 0 (R497). -/
def preset0 : CheckCfg := ⟨32, 0x1EDC6F41, 0xFFFFFFFF, true, true, 0xFFFFFFFF⟩
/-- A preset, if it is valid (R497). -/
def State.preset (s : State) (t k : Nat) : Option CheckCfg :=
  if k = 0 then some preset0
  else if s.rd Reg.CVU_PRE.VALID t k = 0 then none
  else some ⟨s.rd Reg.CVU_PRE.WIDTH t k, s.rd Reg.CVU_PREPOLY.VALUE t k, s.rd Reg.CVU_PREINIT.VALUE t k, decide (s.rd Reg.CVU_PRE.REFIN t k = 1),
    decide (s.rd Reg.CVU_PRE.REFOUT t k = 1), s.rd Reg.CVU_PREXOROUT.VALUE t k⟩
/-- The parameters that the staged fields name, if they agree (R498). -/
def State.cvuConfig (s : State) (t i : Nat) : Option CheckCfg :=
  if s.stg Reg.CVU_CFG.CUSTOM i = 0 then s.preset t (s.stg Reg.CVU_CFG.PRESET i)
  else
    let w := s.stg Reg.CVU_CFG.WIDTH i
    let ok (f : Fld) : Bool := decide (s.stg f i < 2 ^ w)
    if decide (1 ≤ w) && decide (w ≤ 64) && ok Reg.CVU_POLY.VALUE && ok Reg.CVU_INIT.VALUE && ok Reg.CVU_XOROUT.VALUE then
      some ⟨w, s.stg Reg.CVU_POLY.VALUE i, s.stg Reg.CVU_INIT.VALUE i, decide (s.stg Reg.CVU_CFG.REFIN i = 1),
        decide (s.stg Reg.CVU_CFG.REFOUT i = 1), s.stg Reg.CVU_XOROUT.VALUE i⟩
    else none

/-- A scan ends. -/
def State.cvuOver (s : State) (i : Nat) : State :=
  ({ s with cvus := Store.erase s.cvus i } : State).wr Reg.CVU_CTL.BUSY 0 i |>.incWrap Reg.CVU_CTL.SCANS 1 i
/-- A scan ends with its value. -/
def State.cvuPost (s : State) (i : Nat) (x : CvuX) : State :=
  ((s.cvuOver i).wr Reg.CVU_CTL.DONE 1 i).wr Reg.CVU_RESULT.VALUE (checkEnd x.width x.refout x.xorout x.r) i
/-- A scan in progress ends as aborted (R501). -/
def State.cvuAbort (s : State) (i : Nat) : State :=
  match Store.get s.cvus i with
  | none => s
  | some _ => ((s.cvuOver i).wr Reg.CVU_CTL.ABORTED 1 i).wr Reg.CVU_CTL.STATUS 0 i

/-- A GO of a unit (R498, R502): the COMMIT of its staged fields; with nothing staged it has no effect (R13). -/
def State.cvuGo (s : State) (t u : Nat) : State :=
  let i := cvuIx t u
  let start := s.stg Reg.CVU_START.MPA i
  let len := s.stg Reg.CVU_LEN.BYTES i
  if !s.tabkoPresent t || !s.anyStaged cvuFields i then s
  else
    let free := (Store.get s.cvus i).isNone && !(decide (u = 1) && s.claimed [7] 2 t)
    let range := s.inSpan t start && (decide (len = 0) || s.inSpan t (start + len - 1))
    let ready := decide (s.mpState = 0) && decide (s.rd Reg.TBK_STAT.READY t = 1)
    match s.cvuConfig t i with
    | some c =>
      if free && range && ready then
        let s1 := (((((s.applyAll cvuFields i).wr Reg.CVU_CTL.DONE 0 i).wr Reg.CVU_CTL.ABORTED 0 i).wr Reg.CVU_CTL.STATUS 0 i).wr Reg.CVU_RESULT.VALUE 0 i)
        let x : CvuX := ⟨start, start + len, c.width, c.poly, c.refin, c.refout, c.xorout, c.init⟩
        if len = 0 then s1.cvuPost i x
        else ({ s1 with cvus := Store.put s1.cvus i x } : State).wr Reg.CVU_CTL.BUSY 1 i
      else ((s.dropAll cvuFields i).wr Reg.CVU_CTL.STATUS 1 i).mismatch (Reg.CVU_CTL.GO.addr i 0) skTabko t
    | none => ((s.dropAll cvuFields i).wr Reg.CVU_CTL.STATUS 1 i).mismatch (Reg.CVU_CTL.GO.addr i 0) skTabko t

/-- CVU_GO (R498). -/
def execCvuGo (tabko : TabkoId) (unit : Fin 2) (s : State) : Host.Outcome State Fault Refusal := .next (s.cvuGo tabko.val unit.val)
/-- CVU_ABORT (R501). -/
def execCvuAbort (tabko : TabkoId) (unit : Fin 2) (s : State) : Host.Outcome State Fault Refusal :=
  .next (s.cvuAbort (cvuIx tabko.val unit.val))

/-- A local offset lies in a CLOSED region (R297). -/
def State.closedAt (s : State) (t l : Nat) : Bool :=
  match s.regionOf t (l / 65536) with
  | some r => decide (s.rd Reg.TBK_REGION.CLOSED t r = 1)
  | none => false

/-- One block of a scan (R499-R501): read and decoded; a CLOSED region or a block beyond correction ends the scan. -/
def State.scanBlock (s : State) (t i : Nat) (x : CvuX) : State :=
  let l := x.next - s.spanBase t
  let n := min x.stop ((x.next / 64 + 1) * 64) - x.next
  if s.closedAt t l = true then ((s.cvuOver i).wr Reg.CVU_CTL.STATUS 0x67 i).raiseUnit 0x67 skTabko t x.next
  else
    let d := s.dramRead t l n
    match d.2.bad with
    | a :: _ => ((s.cvuOver i).wr Reg.CVU_CTL.STATUS 0x62 i).badBlock t a 2
    | [] =>
      let y := { x with next := x.next + n, r := checkRun x.width x.poly x.refin x.r d.1 }
      let s1 := s.symbols t d.2.corr
      { s1 with cvus := Store.put s1.cvus i y }

/-- SCAN_READ (R499, R501): the next block of a scan, while the wheel turns (R303). -/
def execScanRead (tabko : TabkoId) (unit : Fin 2) (s : State) : Host.Outcome State Fault Refusal :=
  let i := cvuIx tabko.val unit.val
  match Store.get s.cvus i with
  | none => .next s
  | some x => .next (if x.next < x.stop ∧ s.admitting tabko.val then s.scanBlock tabko.val i x else s)

/-- SCAN_DONE (R499): the last block is read and the value posted. -/
def execScanDone (tabko : TabkoId) (unit : Fin 2) (s : State) : Host.Outcome State Fault Refusal :=
  let i := cvuIx tabko.val unit.val
  match Store.get s.cvus i with
  | none => .next s
  | some x =>
    if (x.next / 64 + 1) * 64 < x.stop ∨ !s.admitting tabko.val then .next s
    else
      let s1 := if x.next < x.stop then s.scanBlock tabko.val i x else s
      .next (match Store.get s1.cvus i with
        | some y => s1.cvuPost i y
        | none => s1)

end Sys2Proof.Machine
end

