-- ==== Sys2Proof/Machine/Power.lean ====
section
/-! DEFINITION. Power domains (R415-R429): state cards and their phases, changes of holdings, MP and the floors, protective trips. -/

namespace Sys2Proof.Machine

/-- State of a domain: 0-15 holdings, 16 MP, 17 FW, 18 FE (R429). -/
def State.domCur (s : State) (d : Nat) : Nat := s.rd Reg.PWR_DOM.CUR (j := d)
/-- A change to power's record. -/
def State.modPower (s : State) (f : PowerX → PowerX) : State := { s with power := f s.power }

/-! ### The card (R392, R417) -/

/-- Words 0 to 3 of a card as its fields. -/
def stateCard (ws : List Word) : StateCard :=
  let w (k : Nat) : Nat := (ws[k]?.getD 0).toNat
  { seq := bits (w 0) 32 32, hstate := bits (w 1) 0 32, hmask := bits (w 1) 32 16, hop := w 2, opmask := bits (w 3) 0 16, mp := bits (w 3) 16 2
    fw := bits (w 3) 18 2, fe := bits (w 3) 20 2, stOff := decide (bits (w 3) 22 1 = 1), dmask := bits (w 3) 23 3 }
/-- A reserved value or field of a card (R392). -/
def cardReserved (ws : List Word) : Bool :=
  let w (k : Nat) : Nat := (ws[k]?.getD 0).toNat
  decide (bits (w 0) 0 32 ≠ 2) || decide (bits (w 1) 48 16 ≠ 0) || (List.range 16).any (fun h => decide (4 < bits (w 2) (4 * h) 4)) ||
  [16, 18, 20].any (fun b => decide (bits (w 3) b 2 = 2)) || decide (bits (w 3) 26 38 ≠ 0) || decide (w 4 ≠ 0) ||
  decide (bits (w 5) 32 32 ≠ 0) || decide (bits (w 6) 8 56 ≠ 0) || decide (w 7 ≠ 0)

/-- The state a card commands for a domain. -/
def StateCard.dom (c : StateCard) (d : Nat) : Option Nat :=
  if d < 16 then (if bits c.hmask d 1 = 1 then some (bits c.hstate (2 * d) 2) else none)
  else if bits c.dmask (d - 16) 1 = 1 then some (if d = 16 then c.mp else if d = 17 then c.fw else c.fe) else none
/-- The operating point a card commands for a holding. -/
def StateCard.op (c : StateCard) (h : Nat) : Option Nat := if bits c.opmask h 1 = 1 then some (bits c.hop (4 * h) 4) else none
/-- With ST_OFF the masks are ignored: every holding, MP, FW and FE go OFF (R419). -/
def State.effCard (s : State) (c : StateCard) : StateCard :=
  if c.stOff then
    { c with hstate := 0xFFFFFFFF, hmask := bitSet ((List.range 16).filter s.holdPresent), opmask := 0, mp := 3, fw := 3, fe := 3, dmask := 7 }
  else c

/-- Enclosures that are not FREE. -/
def State.busyEncls (s : State) : List Nat := (List.range 16).filter (fun n => decide (s.rd Reg.ENCL_STATE.STATE (j := n) ≠ 0))
/-- An enclosure has a ring of `len` modules or more at a floor. -/
def State.ringed (s : State) (fl n len : Nat) : Bool := decide (s.rd Reg.FLR_RING.VALID fl n = 1) && decide (len ≤ s.rd Reg.FLR_RING.LEN fl n)

/-- The condition for which a domain tripped still holds: its sensor against its limit (R425). Tabkos that are OFF draw no current, so
cause 4 does not hold. -/
def State.tripHolds (s : State) (d : Nat) : Bool :=
  match Store.getD s.power.tripCause d 0 with
  | 1 => decide (s.rd Reg.PWR_LIMIT.TJ_TRIP < s.rd Reg.PWR_HOLD.TJ_MAX (j := d))
  | 2 => decide (s.rd Reg.PWR_LIMIT.HOLD_ITRIP < s.rd Reg.PWR_HOLD.I_CORE (j := d))
  | 3 => (List.range 48).any (fun t => decide (s.rd Reg.PWR_LIMIT.DRAM_TRIP < max (s.rd Reg.TBK_TEMP.PKG0 t) (s.rd Reg.TBK_TEMP.PKG1 t)))
  | 5 => (List.range 8).any (fun k => decide (s.rd Reg.PWR_LIMIT.OPT_TRIP < s.rd Reg.BLN_OPTICS.TEMP ((d - 17) * 8 + k)))
  | 6 => decide (s.rd Reg.PWR_LIMIT.IN_ITRIP < s.rd Reg.PWR_METER.AMPS)
  | 7 => s.power.pairs.any (fun a => decide (s.rd Reg.PWR_LIMIT.PAIR_ITRIP < a))
  | _ => false

/-- The state with the points a card commands in force (R148). -/
def State.withOps (s : State) (c : StateCard) : State :=
  (List.range 16).foldl (fun t h => match c.op h with
    | some p => t.wr Reg.HOLD_OP.CUR p (j := h)
    | none => t) s
/-- Phases 3 to 9 of sowing pass for an enclosure that is placed (R148). -/
def State.placeable (s : State) (n : Nat) : Bool :=
  let x := s.encl n
  match jobCard x.load n with
  | none => true
  | some c => match parseLot x.lot c.bytes with
    | .error _ => false
    | .ok l =>
      let un := s.unionFallow n
      let i : SowIn := ⟨n, c, s.rd Reg.ENCL_SHAPE.ORIGIN (j := n), l, un, un.filter (fun k => !x.fallow0.contains k),
        some (x.placed.filter (fun t => !t.parts.isEmpty), x.inspect), false⟩
      match s.replanSowing i with
      | .ok _ => true
      | .error _ => false
/-- A commanded point changes for a holding that is ON. -/
def State.opChanges (s : State) (c : StateCard) : List Nat :=
  (List.range 16).filter (fun h => s.holdPresent h && decide (s.domCur h = 0) && (match c.op h with
    | some p => decide (p ≠ s.rd Reg.HOLD_OP.CUR (j := h))
    | none => false))

/-- The check of a whole card (R417): RESULT, REASON, and a refused claim. HOLD refuses every card (R439). -/
def State.cardRefusal (s : State) (ws : List Word) : Option (Nat × Nat × Option Claim) :=
  let c := stateCard ws
  let busy := s.busyEncls
  let falls (d v : Nat) : Bool := decide (c.dom d = some v) && decide (s.domCur d < v)
  let absent := (bitsOf c.hmask 16 ++ bitsOf c.opmask 16).any (fun h => !s.holdPresent h)
  let clash := (s.opChanges c).map (fun h => (⟨5, 1, h, 0, 0⟩ : Claim)) |>.find? (fun k => !s.claimClear k)
  let no (code reason : Nat) : Option (Nat × Nat × Option Claim) := some (code, reason, none)
  if s.pins.stHold then no 0xA2 6
  else if cardReserved ws then no 0x01 0
  else if c.stOff then (if busy.isEmpty then none else no 0xA2 5)
  else if absent then no 0x01 0
  else if clash.isSome then some (0xC1, 0, clash)
  else if (List.range 16).any (fun h => decide (s.domCur h = 0) && decide (c.dom h = some 3) && busy.any (fun n => s.uses n h)) then no 0xA2 1
  else if falls 16 3 && !busy.isEmpty then no 0xA2 1
  else if [0, 1].any (fun f => (falls (17 + f) 1 && busy.any (fun n => s.ringed f n 2)) || (falls (17 + f) 3 && busy.any (fun n => s.ringed f n 1))) then no 0xA2 2
  else if (falls 17 1 || falls 17 3) && decide (s.rd Reg.YK_CFG.EN = 1) && busy.any (fun n => decide (s.rd Reg.ENCL_SHAPE.YOKE (j := n) ≠ 0)) then no 0xA2 3
  else if (List.range 19).any (fun d => decide (s.rd Reg.PWR_DOM.TRIPPED (j := d) = 1) && (match c.dom d with
      | some v => decide (v < 3)
      | none => false) && s.tripHolds d) then no 0xA2 4
  else
    let t := s.withOps c
    let moved := (List.range 16).filter (fun h => match c.op h with
      | some p => decide (p ≠ s.rd Reg.HOLD_OP.CUR (j := h))
      | none => false)
    if busy.any (fun n => moved.any (fun h => s.uses n h) &&
        !t.placeable n) then no 0xA2 7
    else none

/-! ### The card carried out (R418-R422) -/

/-- The card takes a domain to a higher state, or to a lower one. -/
def State.goes (s : State) (c : StateCard) (up : Bool) (d : Nat) : Bool :=
  match c.dom d with
  | some v => if up then decide (v < s.domCur d) else decide (s.domCur d < v)
  | none => false
/-- The domains or holdings that phase `k` still has to change (R419). -/
def State.phaseWork (s : State) (c : StateCard) (k : Nat) : List Nat :=
  if k = 1 then (List.range 16).filter (fun h => s.holdPresent h && s.goes c false h)
  else if k = 2 then [17, 18, 16].filter (s.goes c false)
  else if k = 3 then [16, 17, 18].filter (s.goes c true)
  else if k = 4 then (List.range 16).filter (fun h => s.holdPresent h && s.goes c true h)
  else if k = 5 then s.opChanges c
  else []

/-- An enclosure rests as R420 asks: the conditions of R234, and its update of the step done. -/
def State.rests (s : State) (n h : Nat) : Bool :=
  s.restsFor n h && (decide (s.rd Reg.ENCL_STATE.STATE (j := n) = 5) || (s.encl n).checked || s.updateDone n)
/-- A domain may leave ON (R420). -/
def State.mayLeave (s : State) (d : Nat) : Bool :=
  if d < 16 then (List.range 16).all (fun n => !s.uses n d || s.rests n d)
  else if d = 16 then s.busyEncls.all (fun n => s.rests n 16)
  else true
/-- WAITING of a domain that leaves ON and may not yet. -/
def State.waitFor (s : State) (d : Nat) : State := if s.domCur d = 0 ∧ !s.mayLeave d then s.wr Reg.PWR_DOM.WAITING 1 (j := d) else s

/-- R438: what a start that reaches READY takes from its image. -/
def State.applyImage (s : State) : State :=
  match s.trust.image with
  | none => s
  | some img =>
    let flags := leNat (slice img 28 4)
    let slot := leNat (slice img 10 2)
    let o1 := if flags % 2 = 1 then { s.otp with minSvn := max s.otp.minSvn (min 63 (leNat (slice img 12 4))) } else s.otp
    let o2 := if flags / 2 % 2 = 1 then { o1 with revoked := (o1.revoked ++ List.range slot).eraseDups } else o1
    ({ s with otp := o2 } : State).wr Reg.BOOT_STAT.MIN_SVN o2.minSvn
/-- READY (R432, R438). -/
def State.bootReady (s : State) : State :=
  let t := (s.wr Reg.BOOT_STAT.PHASE 9).applyImage
  { t with pins := { t.pins with stReady := true } }

/-- The last phase of the card has ended: STATE_DONE; under ST_OFF the journal record follows, and the supply goes 16,384 tk after
MP reads OFF (R419). -/
def State.cardDone (s : State) (c : StateCard) : State :=
  let s1 := ((s.wr Reg.PWR_CTL.PHASE 0).wr Reg.PWR_CTL.DONE_SEQ c.seq).wr Reg.PWR_CTL.BUSY (b2n c.stOff)
  let s2 := s1.modPower (fun p => { p with card := none, boot := false, offAt := if c.stOff then some s.now else none })
  let s3 := s2.raiseSt 0xA3 (s2.copyOf Reg.PWR_CTL.BUSY)
  let s4 := if c.stOff then s3.ledRecord 1 [] else s3
  if s.power.boot then s4.bootReady else s4

/-- The card goes on to its next phase with work once the phase in progress has none left, or ends. -/
def State.cardStep (s : State) : State :=
  match s.power.card with
  | none => s
  | some c =>
    let p := s.rd Reg.PWR_CTL.PHASE
    if !(s.phaseWork c p).isEmpty then s
    else match [1, 2, 3, 4, 5].find? (fun k => decide (p < k) && !(s.phaseWork c k).isEmpty) with
      | none => s.cardDone c
      | some k =>
        let s1 := (s.wr Reg.PWR_CTL.PHASE k).modPower (fun q => { q with phaseFrom := if p = 0 then s.now else s.now + 1 })
        if k ≤ 2 then (s.phaseWork c k).foldl (fun t d => t.waitFor d) s1 else s1

/-- A card that has passed its check is taken up. -/
def State.takeCard (s : State) (c : StateCard) (boot : Bool) : State :=
  let e := s.effCard c
  let s1 := (List.range 19).foldl (fun t d => match e.dom d with
    | some v => t.wr Reg.PWR_DOM.TARGET v (j := d)
    | none => t) (s.modPower (fun p => { p with card := some e, boot := boot }))
  let s2 := (List.range 16).foldl (fun t h => match e.op h with
    | some p => t.wr Reg.HOLD_OP.TARGET p (j := h)
    | none => t) s1
  ((s2.wr Reg.PWR_CTL.BUSY 1).wr Reg.PWR_CTL.PHASE 0).cardStep

/-- STATE_CARD (R392, R417, R418): a card with a new SEQ, no other being carried out, is checked whole, answered, and taken up or
refused. The companion's cards are acted on from READY on, and refused in HOLD (R432, R439). -/
def execStateCard (s : State) : Host.Outcome State Fault Refusal :=
  let ws := s.power.words
  let c := stateCard ws
  if ws.isEmpty ∨ s.yosal.stateSeq = some c.seq ∨ s.rd Reg.PWR_CTL.BUSY = 1 ∨ !(s.pins.stReady || s.pins.stHold) then .next s
  else
    let s1 := s.modYosal (fun y => { y with stateSeq := some c.seq })
    match s.cardRefusal ws with
    | none => .next ((s1.answerCard 16 c.seq 0 0 []).takeCard c false)
    | some (code, reason, claim) =>
      let s2 := match claim with
        | some k => s1.refuseClaim k
        | none => s1
      let s3 := if code = 0xA2 then
          let t := s2.wr Reg.PWR_CTL.REASON reason
          t.raiseSt 0xA2 (t.copyOf Reg.PWR_CTL.BUSY)
        else s2
      .next (s3.answerCard 16 c.seq code 0 [])

/-! ### Starts of changes (R419, R423, R424) -/

/-- Ticks of a holding's change (R423); `moved`: TARGET differs from CUR. -/
def holdTime (from_ to_ : Nat) (moved : Bool) : Nat :=
  if from_ = 0 then (if to_ = 1 then 256 else 512)
  else if from_ = 1 then (if to_ = 0 ∧ moved then 2048 else 256)
  else if from_ = 2 then (if to_ = 3 then 256 else 2048)
  else 4096
/-- Ticks of a change of MP, FW or FE (R424). -/
def domTime (d from_ to_ : Nat) : Nat :=
  if d = 16 then (if to_ = 3 then 2048 else if from_ = 3 then 134217728 else 1024)
  else if to_ = 3 then 256 else if from_ = 3 then 2048 else if to_ = 1 then 64 else 1024

/-- Domain MP leaves ON: every scan ends as aborted (R501). -/
def State.abortScans (s : State) : State := s.cvus.foldl (fun t p => t.cvuAbort p.1) s
/-- A change of a domain starts at a tick. -/
def State.startChange (s : State) (d to_ start : Nat) : State :=
  let f := s.domCur d
  let len := if d < 16 then holdTime f to_ (decide (s.rd Reg.HOLD_OP.TARGET (j := d) ≠ s.rd Reg.HOLD_OP.CUR (j := d))) else domTime d f to_
  let s1 := ((s.wr Reg.PWR_DOM.BUSY 1 (j := d)).wr Reg.PWR_DOM.WAITING 0 (j := d)).modPower (fun p => { p with chg := p.chg ++ [⟨d, f, to_, start, start + len⟩] })
  if d ≠ 16 then s1
  else if f = 0 then s1.abortScans
  else if f = 3 then (List.range 48).foldl (fun t k => if t.tabkoPresent k then t.wr Reg.TBK_STAT.INIT_BUSY 1 k else t) s1
  else s1

/-- No change of a domain is under way. -/
def State.settled (s : State) (d : Nat) : Bool := s.power.chg.all (fun c => decide (c.dom ≠ d))
/-- Of a phase that starts one domain to a bell, the next one (R419). -/
def State.startOne (s : State) (c : StateCard) (l : List Nat) : State :=
  match l.find? s.settled with
  | none => s
  | some d =>
    if s.domCur d = 0 ∧ !s.mayLeave d then s.waitFor d
    else (s.startChange d ((c.dom d).getD 0) s.now).modPower (fun p => { p with phaseFrom := s.now + 1 })

/-- Phase 5 for one holding: the claim of R234, and the wait; a refused claim drops the command. -/
def State.beginOp (s : State) (c : StateCard) (h : Nat) : State :=
  if s.rd Reg.HOLD_OP.WAITING (j := h) = 1 ∨ s.rd Reg.HOLD_OP.BUSY (j := h) = 1 then s
  else
    let k : Claim := ⟨5, 1, h, 0, 0⟩
    if s.claimClear k then (s.addClaim k).wr Reg.HOLD_OP.WAITING 1 (j := h)
    else
      ((s.refuseClaim k).wr Reg.HOLD_OP.TARGET (s.rd Reg.HOLD_OP.CUR (j := h)) (j := h)).modPower (fun p =>
        { p with card := some { c with opmask := (p.card.getD c).opmask - bits (p.card.getD c).opmask h 1 * 2 ^ h } })

/-- POWER_PHASE_START (R419-R422): at a bell the phase in progress starts what is ready to start. -/
def execPowerPhaseStart (s : State) : Host.Outcome State Fault Refusal :=
  match s.power.card with
  | none => .next s
  | some c =>
    let p := s.rd Reg.PWR_CTL.PHASE
    if s.now % 1024 ≠ 0 ∨ s.now < s.power.phaseFrom then .next s
    else
      let w := (s.phaseWork c p).filter s.settled
      let want (d : Nat) : Nat := (c.dom d).getD 0
      if p = 1 then
        .next (if w.all (fun h => decide (s.domCur h ≠ 0) || s.mayLeave h) then w.foldl (fun t h => t.startChange h (want h) s.now) s
          else w.foldl (fun t h => t.waitFor h) s)
      else if p = 2 ∨ p = 3 then .next (s.startOne c w)
      else if p = 4 then
        let deep := w.filter (fun h => decide (2 ≤ s.domCur h))
        let s1 := (w.filter (fun h => decide (s.domCur h = 1))).foldl (fun t h => t.startChange h (want h) s.now) s
        .next ((deep.zip (List.range deep.length)).foldl (fun t q => t.startChange q.1 (want q.1) (s.now + 256 * q.2)) s1)
      else if p = 5 then .next ((w.foldl (fun t h => match t.power.card with
        | some k => t.beginOp k h
        | none => t) s).cardStep)
      else .next s

/-! ### What a holding loses (R415, R423) -/

/-- The entries of a store outside `lo` to `hi`, and those in it whose place modulo `m` is kept. -/
def keepIn (l : List (Nat × Nat)) (lo hi m : Nat) (keep : List Nat) : List (Nat × Nat) :=
  l.filter (fun p => decide (p.1 < lo) || decide (hi ≤ p.1) || keep.contains ((p.1 - lo) % m))
/-- Places of fields in the block of a unit, every register of each group. -/
def placesOf (fs : List Fld) : List Nat := fs.flatMap (fun f => (List.range f.count).map (fun j => (f.off + j * f.stride) * 64 + f.lo))
/-- What a core keeps over OFF: retained epochs (R134), repair and fallow maps (R423), its wipe count (R452). -/
def coreKept : List Nat :=
  placesOf [Reg.GATE_EPOCH.EPOCH, Reg.ARR_REPAIR.SPARE_EN, Reg.ARR_REPAIR.BAD_ROW, Reg.ARR_REPAIR.SPARE_GOOD, Reg.RTR_STAT.FENCED, Reg.RTR_STAT.STILE,
    Reg.SP_WIPE.COUNT]
/-- A headland queue is emptied and its credits are on their way back (R174, R426). -/
def State.dropQueue (s : State) (core side vc : Nat) : State :=
  let q := s.headland core side vc
  if q.isEmpty then s
  else
    let t := s.setHeadland core side vc []
    { t with credits := t.credits ++ q.map (fun e => ⟨qKey core side vc, e.pkt.flits, s.estTick (croftOf core) + 2⟩) }
/-- Everything of a core is lost with its supply. -/
def State.loseCore (s : State) (core : Nat) : State :=
  let lo := Block.base .core core * 64
  let x := s.core core
  let s1 := [1, 2, 3, 4].foldl (fun t d => if hasNeighbour core d then
    (List.range 4).foldl (fun u vc => u.dropQueue (neighbour core d) (facing d) vc) t else t) (s.clearCore core)
  let s2 : State := { s1 with
    fields := keepIn s1.fields lo (lo + 0x1000 * 64) (0x1000 * 64) coreKept
    stagedF := Store.eraseRange s1.stagedF lo (lo + 0x1000 * 64)
    cores := Store.put s1.cores core { CoreX.init with thread := x.thread, fenceReq := x.fenceReq, fencing := x.fencing }
    inq := Store.eraseRange s1.inq (core * 32) (core * 32 + 32), ejq := Store.eraseRange s1.ejq (core * 4) (core * 4 + 4)
    hlq := Store.eraseRange s1.hlq (core * 32) (core * 32 + 32)
    credits := s1.credits.filter (fun c => decide (c.queue / 32 ≠ core)) }
  s2.wr Reg.ARR_CHK.CHK_LIMIT s.cfgChkLimit core
/-- A holding's supply goes: nothing is kept in it. -/
def State.loseHolding (s : State) (h : Nat) : State :=
  (croftsOfHolding h).foldl (fun t c =>
    let u := (coresOfCroft c).foldl (fun v i => v.loseCore i) t
    let lo := Block.base .croft c * 64
    { u with
      fields := keepIn u.fields lo (lo + 0x10000 * 64) (0x10000 * 64) (placesOf [Reg.CLK_MON.WARN_LIMIT])
      stagedF := Store.eraseRange u.stagedF lo (lo + 0x10000 * 64), crofts := Store.put u.crofts c CroftX.init
      power := { u.power with fromKeep := u.power.fromKeep.filter (fun k => decide (k ≠ c)) } }) s

/-- Free 32-bit codes for both bins of a core, whose content KEEP does not keep and does not say (log entry 14). -/
def State.freeBins (s : State) (core : Nat) : State :=
  let code (k : Nat) : BitVec 32 := BitVec.ofNat 32 (leNat ((List.range 4).map (fun b => Config.freeByte (s.freeIx + 4 * k + b))))
  let lo := core * 512
  { s with
    bins := s.bins.filter (fun e => decide (e.1 < lo)) ++ (List.range 512).map (fun k => (lo + k, code k)) ++ s.bins.filter (fun e => decide (lo + 512 ≤ e.1))
    freeIx := s.freeIx + 2048 }
/-- Registers of a core that mirror what KEEP loses. -/
def keepLost : List Fld :=
  [Reg.HND_H.VALUE, Reg.VEC_VL.VL, Reg.VSTAT.OOR, Reg.VSTAT.ISAT, Reg.VSTAT.FSAT, Reg.VEC_SRSEQ.SEQ, Reg.ARR_STAT.BUSY, Reg.ARR_STAT.QDEPTH,
   Reg.FUR_STAT.CATCH, Reg.FUR_STAT.INJ_A, Reg.FUR_STAT.INJ_B, Reg.FUR_STAT.CAP, Reg.EMIT_STAT.RET_USED, Reg.EMIT_STAT.BUSY, Reg.EMIT_STAT.REEMIT,
   Reg.TLY_CTL.FLUSH_BUSY]
/-- A core in KEEP: hand and vector registers, pipelines, catch buffers and retention slots are lost (R415). -/
def State.keepCore (s : State) (core : Nat) : State :=
  let s1 := (s.clearFields keepLost core).modCore core (fun x => { x with
    arrQ := [], mmaPend := none, feed := none, flight := [], rdPend := none, rdRun := none, catchUp := none, injA := none, injApend := none, injB := none, injBpend := none, cap := none
    capPend := none, flush := none, binds := [], staged := [], emit := [], retention := [] })
  ({ s1 with vregs := Store.eraseRange s1.vregs (core * 32) (core * 32 + 32) } : State).freeBins core
def State.keepHolding (s : State) (h : Nat) : State :=
  (croftsOfHolding h).foldl (fun t c => (coresOfCroft c).foldl (fun u i => u.keepCore i) t) s
/-- The power-up wipe of R423 is counted (R137); epochs stay (R134). -/
def State.countWipes (s : State) (h : Nat) : State :=
  (croftsOfHolding h).foldl (fun t c => (coresOfCroft c).foldl (fun u i => u.incWrap Reg.SP_WIPE.COUNT 1 i) t) (s.ledRecord 4 (detailRect (h / 4 * 64 + h % 4 * 4) 4 4))

/-! ### Ends of changes (R423, R424) -/

/-- The registers of a domain at the end of a change. -/
def State.domEnds (s : State) (d to_ : Nat) : State :=
  ((((s.wr Reg.PWR_DOM.CUR to_ (j := d)).wr Reg.PWR_DOM.BUSY 0 (j := d)).incSat Reg.PWR_DOM.CHANGES 1 (j := d)).wr Reg.PWR_DOM.LAST_END s.now (j := d)).modPower
    (fun p => { p with chg := p.chg.filter (fun c => decide (c.dom ≠ d)) })
/-- A holding enters a state. While no croft clock runs for want of a reference it comes up at OP4; after it at the point the card commands
or, without one, at TARGET, also where R222 had brought it to OP4 (R419 phase 4, R422; DESIGN CHOICE, log entry 77). -/
def State.enterHold (s : State) (h from_ to_ : Nat) : State :=
  let s1 := if from_ = 3 ∧ to_ ≠ 3 then (s.countWipes h).wr Reg.PWR_DOM.TRIPPED 0 (j := h) else s
  let s2 := if from_ = 2 ∧ to_ ≤ 1 then s1.modPower (fun p => { p with fromKeep := p.fromKeep ++ croftsOfHolding h }) else s1
  let point := if s2.clocksLost then 4 else s2.rd Reg.HOLD_OP.TARGET (j := h)
  if to_ = 0 then s2.runHolding h point
  else if to_ = 1 then (if from_ = 0 then s2.gateHolding h else ((s2.runHolding h point).gateHolding h).lockPll h 1)
  else if to_ = 2 then (if from_ = 3 then s2 else (s2.keepHolding h)).gateHolding h |>.lockPll h 0
  else (s2.gateHolding h).loseHolding h

/-- HOLDING_CHANGE_END (R423). -/
def execHoldingChangeEnd (hold : HoldId) (s : State) : Host.Outcome State Fault Refusal :=
  let h := hold.val
  match s.power.chg.find? (fun c => decide (c.dom = h)) with
  | none => .next s
  | some c => .next (if c.due ≤ s.now then ((s.enterHold h c.from_ c.to_).domEnds h c.to_).rebuild.cardStep else s)

/-- What a Tabko keeps over OFF: what the configuration image gave it. -/
def tabkoKept : List Nat :=
  placesOf [Reg.TBK_ID.RATE, Reg.TBK_ID.ADMIT_WIN, Reg.TBK_SCRUB.EN, Reg.CVU_PRE.WIDTH, Reg.CVU_PRE.REFIN,
    Reg.CVU_PRE.REFOUT, Reg.CVU_PRE.VALID, Reg.CVU_PREPOLY.VALUE, Reg.CVU_PREINIT.VALUE, Reg.CVU_PREXOROUT.VALUE]
/-- Domain MP loses everything; no granule is left to wipe (R459). -/
def State.loseTabkos (s : State) : State :=
  let lo := Block.base .tabko 0 * 64
  let hi := Block.base .tabko 48 * 64
  ({ s with
    fields := keepIn s.fields lo hi (0x100000 * 64) tabkoKept, stagedF := Store.eraseRange s.stagedF lo hi
    mem := Store.eraseRange s.mem 0 (48 * spanBytes), slowErrs := [], tabkos := [], cvus := [] } : State).wr Reg.GNT_STAT.REFURB_BUSY 0
/-- A flag of every present Tabko. -/
def State.tabkoFlag (s : State) (f : Fld) (v : Nat) : State :=
  (List.range 48).foldl (fun t k => if t.tabkoPresent k then t.wr f v k else t) s
/-- Domain MP enters a state (R301, R424): from OFF the initial wipe has run. A Tabko that is DOWN admits nothing (R304). -/
def State.enterMp (s : State) (from_ to_ : Nat) : State :=
  if to_ = 3 then s.loseTabkos
  else if to_ = 1 then ((s.tabkoFlag Reg.TBK_STAT.READY 0).tabkoFlag Reg.TBK_STAT.SELF_REFRESH 1).tabkoFlag Reg.TBK_STAT.INIT_BUSY 0
  else
    let s1 := if from_ = 3 then s.tabkoFlag Reg.TBK_STAT.LINK_UP 1 else s
    let s2 := (s1.tabkoFlag Reg.TBK_STAT.INIT_BUSY 0).tabkoFlag Reg.TBK_STAT.SELF_REFRESH 0
    (List.range 48).foldl (fun t k => if t.tabkoPresent k ∧ t.rd Reg.TBK_STAT.DOWN k = 0 ∧ t.rd Reg.TBK_STAT.RECAL_BUSY k = 0 then
      t.wr Reg.TBK_STAT.READY 1 k else t) s2

/-- Ports of a floor. -/
def portsOf (fl : Nat) : List Nat := (List.range 8).map (fun k => 8 * fl + k)
/-- A port follows its floor's domain (R356, R371, R424); the loss of port B0 fails a seeding (R412). -/
def State.portTo (s : State) (p st : Nat) : State :=
  if !s.portPresent p then s
  else
    let t := (s.portLoss p).seedLoss p s
    if t.rd Reg.BLN_CTL.EN p = 0 then t.wr Reg.BLN_STAT.STATE 0 p
    else if st = 2 then t.enterLight p else t.wr Reg.BLN_STAT.STATE st p
/-- A floor's registers, staged values, store, tables and counters are lost; the module's identity, which both floors show, is not. -/
def State.loseFloor (s0 : State) (fl : Nat) : State :=
  let s := s0.foldFull fl false
  let lo := Block.base .floor fl * 64
  let hi := lo + 0x400000 * 64
  { s with
    fields := keepIn s.fields lo hi (0x400000 * 64) (placesOf [Reg.FWD_ID.MODULE_ID, Reg.FWD_ID.INSTALL, Reg.FWD_ID.HOPS_INIT])
    stagedF := Store.eraseRange s.stagedF lo hi, floors := Store.erase s.floors fl }
/-- FW or FE enters a state (R424). -/
def State.enterFloor (s : State) (fl from_ to_ : Nat) : State :=
  if to_ = 3 then ((portsOf fl).foldl (fun t p => t.portTo p 0) s).loseFloor fl
  else if to_ = 1 then (portsOf fl).foldl (fun t p => t.portTo p 1) (if from_ = 3 then s.wr Reg.FLR_STAT.READY 1 fl else s)
  else
    let s1 := if from_ = 3 then s.wr Reg.FLR_STAT.READY 1 fl else s
    (portsOf fl).foldl (fun t p => t.portTo p 2) s1
/-- A domain other than a holding enters a state; a card that brings it out of OFF ends TRIPPED (R429). -/
def State.enterDom (s : State) (d from_ to_ : Nat) : State :=
  let s1 := if from_ = 3 ∧ to_ ≠ 3 then s.wr Reg.PWR_DOM.TRIPPED 0 (j := d) else s
  if d = 16 then s1.enterMp from_ to_ else s1.enterFloor (d - 17) from_ to_

/-- DOMAIN_CHANGE_END (R424): 0 MP, 1 FW, 2 FE. -/
def execDomainChangeEnd (dom : Fin 3) (s : State) : Host.Outcome State Fault Refusal :=
  let d := 16 + dom.val
  match s.power.chg.find? (fun c => decide (c.dom = d)) with
  | none => .next s
  | some c => .next (if c.due ≤ s.now then ((s.domEnds d c.to_).enterDom d c.from_ c.to_).rebuild.cardStep else s)

/-- A holding that the enclosure uses has a stop of its operating point to come or under way (R234). -/
def State.opWaits (s : State) (n : Nat) : Bool :=
  (List.range 16).any (fun h => s.uses n h && (decide (s.rd Reg.HOLD_OP.WAITING (j := h) = 1) || decide (s.rd Reg.HOLD_OP.BUSY (j := h) = 1)))

/-- OP_CHANGED (R235, R148): 2,048 tk after the stop began the holding runs at its new point; the enclosures that use it are re-sown
once every holding they use has its new point. -/
def execOpChanged (hold : HoldId) (s : State) : Host.Outcome State Fault Refusal :=
  let h := hold.val
  match s.power.opAt.find? (fun p => decide (p.1 = h)) with
  | none => .next s
  | some (_, b) =>
    if s.now < b + 2048 then .next s
    else
      .next ((List.range 16).foldl (fun t n =>
        if t.uses n h ∧ t.rd Reg.ENCL_STATE.STATE (j := n) = 2 ∧ !t.opWaits n then t.beginResow n else t) (s.endOpStop h)).cardStep

/-! ### Trips (R425, R426) -/

/-- The domains a cause switches off, as PWR_TRIP names them: one, or every holding (31). -/
def tripDomain (cause unit : Nat) : Nat := if cause ≤ 2 then unit else if cause ≤ 4 then 16 else if cause = 5 then 17 + unit / 8 else 31
/-- Limit of a cause (R425). -/
def State.tripLimit (s : State) (cause : Nat) : Nat :=
  if cause = 1 then s.rd Reg.PWR_LIMIT.TJ_TRIP else if cause = 2 then s.rd Reg.PWR_LIMIT.HOLD_ITRIP else if cause = 3 then s.rd Reg.PWR_LIMIT.DRAM_TRIP
  else if cause = 4 then 45 else if cause = 5 then s.rd Reg.PWR_LIMIT.OPT_TRIP else if cause = 6 then s.rd Reg.PWR_LIMIT.IN_ITRIP
  else s.rd Reg.PWR_LIMIT.PAIR_ITRIP
/-- An enclosure uses a domain: FW and FE through its rings at them; MP as R492 has it. -/
def State.usesDom (s : State) (n d : Nat) : Bool :=
  if d < 16 then s.uses n d else if d = 16 then decide (s.rd Reg.ENCL_STATE.STATE (j := n) ≠ 0) else s.ringed (d - 17) n 1
/-- A claim lies on a domain. -/
def Claim.onDom (c : Claim) (d : Nat) : Bool :=
  if d < 16 then c.crofts.any (fun k => decide (holdingOf k = d))
  else if d = 16 then decide (c.kind = 2) else decide (c.kind = 3) && decide (floorOf c.index = d - 17)
/-- Activities that hold a claim on a domain end without a verdict (R426, R467, R474). -/
def State.endActivities (s : State) (d : Nat) : State :=
  let s1 := match s.bist.run with
    | some r => if r.inDomain d then s.testVoid none else s
    | none => s
  let s2 := match s1.bist.slice with
    | some (c, _) => if d < 16 ∧ holdingOf c = d then s1.sliceVoid else s1
    | none => s1
  let s3 : State := match s2.bist.spare with
    | some (c, _, _) => if holdingOf c = d then ({ s2 with bist := { s2.bist with spare := none } } : State).wr Reg.FLT_SPARE.BUSY 0 else s2
    | none => s2
  let s4 := if d = 16 then (List.range 16).foldl (fun t n => t.dropCompare n) s3 else s3
  s4.dropClaims (fun c => c.onDom d)
/-- One domain trips, one on its way out of OFF too: changes, waits, stops and what the card still has for it end; its users are faulted; it is OFF 64 tk later. -/
def State.tripOne (s : State) (d cause : Nat) : State :=
  if (s.domCur d = 3 ∧ s.settled d) ∨ s.power.trips.any (fun t => decide (t.1 = d)) then s
  else
    let s1 := (List.range 16).foldl (fun t n => if t.usesDom n d then t.faultEncl n 0xA1 t.now else t) s
    let s2 := ((s1.wr Reg.PWR_DOM.BUSY 0 (j := d)).wr Reg.PWR_DOM.WAITING 0 (j := d)).modPower (fun p => { p with
      chg := p.chg.filter (fun c => decide (c.dom ≠ d)), opAt := p.opAt.filter (fun o => decide (o.1 ≠ d))
      trips := p.trips ++ [(d, s.now + 64)], tripCause := Store.put p.tripCause d cause
      card := p.card.map (fun c => if d < 16 then
          { c with hmask := c.hmask - bits c.hmask d 1 * 2 ^ d, opmask := c.opmask - bits c.opmask d 1 * 2 ^ d }
        else { c with dmask := c.dmask - bits c.dmask (d - 16) 1 * 2 ^ (d - 16) }) })
    let s3 := if d < 16 then ((s2.wr Reg.HOLD_OP.WAITING 0 (j := d)).wr Reg.HOLD_OP.BUSY 0 (j := d)).wr Reg.HOLD_OP.TARGET (s.rd Reg.HOLD_OP.CUR (j := d)) (j := d)
      else if d = 16 then s2.abortScans else s2
    s3.endActivities d

/-- PROTECTIVE_TRIP (R425, R426): a sensor has been beyond its limit for its persistence. -/
def execProtectiveTrip (cause : Fin 8) (unit : Fin 16) (value : BitVec 16) (s : State) : Host.Outcome State Fault Refusal :=
  let k := cause.val
  let dom := tripDomain k unit.val
  let ds := (if dom = 31 then (List.range 16).filter s.holdPresent else [dom]).filter (fun d => decide (s.domCur d ≠ 3) || !s.settled d)
  if k = 0 ∨ value.toNat ≤ s.tripLimit k ∨ ds.isEmpty then .next s
  else
    let s1 := ((((s.wr Reg.PWR_TRIP.CAUSE k).wr Reg.PWR_TRIP.DOMAIN dom).wr Reg.PWR_TRIP.VALID 1).wr Reg.PWR_TRIP.VALUE value.toNat).wr Reg.PWR_TRIP.TICK s.now
    .next ((ds.foldl (fun t d => t.tripOne d k) (s1.raiseUnit 0xA1 skDomain dom (s1.copyOf Reg.PWR_TRIP.CAUSE))).cardStep)

/-- R426: the floor entries beside a tripped holding discard what waits to go into it. -/
def State.dropFloorOut (s : State) (h : Nat) : State :=
  [0, 1].foldl (fun t fl => t.modFloor fl (fun x => { x with out := x.out.filter (fun p => decide (holdingOf (croftOf (edgeCore fl p.1)) ≠ h)) })) s
/-- TRIP_DOMAIN_OFF (R425): 64 tk after a trip. -/
def execTripDomainOff (dom : DomId) (s : State) : Host.Outcome State Fault Refusal :=
  let d := dom.val
  if s.power.trips.any (fun t => decide (t.1 = d) && decide (t.2 ≤ s.now)) then
    let s1 := s.modPower (fun p => { p with trips := p.trips.filter (fun t => decide (t.1 ≠ d)) })
    let f := s.domCur d
    let s2 := if d < 16 then ((s1.enterHold d f 3).domEnds d 3).dropFloorOut d else (s1.domEnds d 3).enterDom d f 3
    .next (s2.wr Reg.PWR_DOM.TRIPPED 1 (j := d)).rebuild.cardStep
  else .next s

/-- THERM_WARN (R425): once per bell interval, a junction sensor above TJ_WARN; 0 disables. -/
def execThermWarn (hold : HoldId) (temp : BitVec 8) (s : State) : Host.Outcome State Fault Refusal :=
  let h := hold.val
  let lim := s.rd Reg.PWR_LIMIT.TJ_WARN
  let k := (h, s.now / 1024)
  if lim = 0 ∨ temp.toNat ≤ lim ∨ s.power.warned.contains k ∨ !s.stRuns then .next s
  else
    let s1 := (s.wr Reg.PWR_HOLD.TJ_MAX (max temp.toNat (s.rd Reg.PWR_HOLD.TJ_MAX (j := h))) (j := h)).modPower (fun p =>
      { p with warned := k :: p.warned.filter (fun q => decide (q.1 ≠ h)) })
    .next (s1.raiseUnit 0xA4 skDomain h (s1.copyOf Reg.PWR_HOLD.TJ_MAX 0 h))

/-! ### The supply of domain ST (R419, R431) -/

/-- Domain ST has lost its state: what a reset leaves. OTP, flash, pins, the stud pairs and the commands that wait stay, and so does
FAILS, which the key unit retains (R463). A write-through cut off leaves its region unspecified (R441). -/
def State.resetSt (s : State) (pins : PinsX) : State :=
  let flash : FlashX := match s.trust.load with
    | none => s.flash
    | some r => if r.config then { s.flash with tornConfig := true } else { s.flash with tornImage := true }
  let t : State := { State.reset with
    otp := s.otp, flash := flash, pins := pins, freeIx := s.freeIx, pending := s.pending
    power := { PowerX.init with studs := s.power.studs, lostPairs := s.power.lostPairs } }
  t.wr Reg.GNT_STAT.FAILS (s.rd Reg.GNT_STAT.FAILS)
/-- The steading supply is lost: FAILS becomes 8 (R463). -/
def State.loseSupply (s : State) (pins : PinsX) : State := (s.resetSt pins).wr Reg.GNT_STAT.FAILS 8

/-- ST_SUPPLY_REMOVE (R419): 16,384 tk after MP reads OFF under ST_OFF the steading removes its own supply, its record written (R451). -/
def execStSupplyRemove (s : State) : Host.Outcome State Fault Refusal :=
  match s.power.offAt with
  | none => .next s
  | some t =>
    .next (if t + 16384 ≤ s.now ∧ s.trust.waiting = [] then s.loseSupply { s.pins with pgOut := false, stReady := false, stHold := false, stOff := true } else s)

end Sys2Proof.Machine
end

