-- ==== Sys2Proof/Machine/Boot.lean ====
section
/-! DEFINITION. Start-up (R430-R434, R443), images and write-through (R435-R444), identity and quotes (R446-R448), the recovery of the
ledger and its hourly record (R450-R452). -/

namespace Sys2Proof.Machine

/-! ### The firmware image (R435, R437) -/

/-- Every byte is zero. -/
def zeros (bs : List Byte) : Bool := bs.all (fun b => decide (b = 0))
/-- "KZJIMAGE" and "KZJCONFG". -/
def imageMagic : List Byte := ascii [0x4B, 0x5A, 0x4A, 0x49, 0x4D, 0x41, 0x47, 0x45]
def configMagic : List Byte := ascii [0x4B, 0x5A, 0x4A, 0x43, 0x4F, 0x4E, 0x46, 0x47]

/-- R437: the number of the first check that an image fails in `limit` bytes, 0 when it verifies. -/
def State.imageReason (s : State) (img : List Byte) (limit : Nat) : Nat :=
  let num (o n : Nat) : Nat := leNat (slice img o n)
  let len := num 24 4
  let slot := num 10 2
  let pub := slice img 80 96
  if slice img 0 8 ≠ imageMagic ∨ num 8 2 ≠ 1 ∨ !zeros (slice img 176 80) ∨ !zeros (slice img 352 672) ∨ 4 ≤ num 28 4 then 1
  else if len < 4096 ∨ 16773120 < len ∨ len % 4096 ≠ 0 ∨ limit < 1024 + len then 2
  else if 4 ≤ slot ∨ s.otp.keyHash[slot]? ≠ some (sha384 pub) then 3
  else if s.otp.revoked.contains slot then 4
  else if num 12 4 < s.otp.minSvn then 5
  else if !ecdsaVerify pub (slice img 0 256) (slice img 256 96) then 6
  else if sha384 (slice img 1024 len) ≠ slice img 32 48 then 7
  else 0

/-! ### The configuration image (R442-R444) -/

/-- Bytes of a body that the table of R443 calls zero: those of the record, by TYPE. -/
def cfgZero (ty : Nat) (b : List Byte) : Bool :=
  let z (l : List (Nat × Nat)) : Bool := l.all (fun p => zeros (slice b p.1 p.2))
  if ty = 0x01 then z [(13, 3)] && decide (leNat (slice b 12 1) < 2)
  else if ty = 0x03 then (List.range 16).all (fun p => z [(768 + 4 * p + 1, 1)] && decide (leNat (slice b (768 + 4 * p) 1) < 2))
  else if ty = 0x06 then z [(1, 1), (7, 1), (13, 3)] && decide (leNat (slice b 0 1) < 2)
  else if ty = 0x07 then z [(2, 6)]
  else if ty = 0x09 then (List.range (b.length / 32)).all (fun k => z [(32 * k + 2, 6)])
  else if ty = 0x0A then z [(10, 6), (27, 21)]
  else if ty = 0x0B then (List.range (b.length / 8)).all (fun k => z [(8 * k + 3, 1), (8 * k + 6, 2)])
  else true
/-- LEN of a record as the table of R443 gives it. -/
def cfgLenOk (ty len : Nat) : Bool :=
  if ty = 0x01 then decide (len = 16) else if ty = 0x02 then decide (len = 32) else if ty = 0x03 then decide (len = 832)
  else if ty = 0x04 then decide (len = 87552) else if ty = 0x05 then decide (len = 10880) else if ty = 0x06 then decide (len = 16)
  else if ty = 0x07 then decide (len = 8) else if ty = 0x08 then decide (len % 64 = 0) && decide (len ≤ 512)
  else if ty = 0x09 then decide (len % 32 = 0) && decide (len ≤ 480) else if ty = 0x0A then decide (len = 192)
  else decide (len % 8 = 0)
/-- The ranges of check 5 (R444). -/
def cfgRanges (img : List Byte) : Bool :=
  let num (ty o n : Nat) : Nat := leNat (slice ((cfgBody img ty).getD []) o n)
  let croft (c : Nat) : Bool :=
    let v := num 0x04 (2 * c) 2
    let used := bits v 0 1
    decide (bits v 1 4 ≤ 15) && (decide (used = 0) || decide (bits v 5 1 = 0)) && (decide (used = 1) || decide (bits v 1 4 = 0))
  let core (i : Nat) : Bool :=
    let v := num 0x04 (512 + i) 1
    let en := bits v 0 1
    decide (bits v 1 5 ≤ 16) && (decide (en = 0) || decide (bits v 6 1 = 1)) && (decide (en = 1) || decide (bits v 1 5 = 0))
  let en := decide (num 0x06 0 1 = 1)
  decide (num 0x01 3 1 ≤ 2) && decide (1 ≤ num 0x01 2 1) && decide (num 0x07 1 1 ≤ 3) && decide (num 0x06 6 1 ≤ 15) &&
  (!en || (decide (1 ≤ num 0x06 4 2) && decide (1 ≤ num 0x06 6 1) && decide (num 0x06 2 2 ≠ num 0x01 0 2))) &&
  (List.range 256).all croft && (List.range 87040).all core
/-- The entries of the FORWARD record: identity, floor, value of FWD_d. -/
def cfgForward (img : List Byte) : List (Nat × Nat × Nat) :=
  let b := (cfgBody img 0x0B).getD []
  (List.range (b.length / 8)).map (fun k => (leNat (slice b (8 * k) 2), leNat (slice b (8 * k + 2) 1), leNat (slice b (8 * k + 4) 2)))
/-- A field's value in the word of an entry. -/
def fldOf (f : Fld) (v : Nat) : Nat := bits v f.lo f.width
/-- An entry of the FORWARD record meets R369. -/
def State.forwardOk (s : State) (own : Nat) (e : Nat × Nat × Nat) : Bool :=
  let v := e.2.2
  let g (f : Fld) : Nat := fldOf f v
  decide (e.1 < 16384) && decide (e.2.1 < 2) && decide (v < 2 ^ 15) &&
  (if e.1 = own then decide (g Reg.FWD.VALID = 0) else decide (g Reg.FWD.LOCAL = 0)) &&
  (decide (g Reg.FWD.VALID = 0) || s.portPresent (g Reg.FWD.EGRESS)) && (decide (g Reg.FWD.ALT_VALID = 0) || s.portPresent (g Reg.FWD.ALT)) &&
  decide (g Reg.FWD.LOP ≠ 3) && decide (g Reg.FWD.ALT_LOP ≠ 3)
/-- The CPA of a watched line in the LINK record, if the line is enabled there. -/
def cfgLine (img : List Byte) (w : Nat) : Option Nat :=
  let b := (cfgBody img 0x0A).getD []
  if bits (leNat (slice b 24 3)) w 1 = 1 then some (leNat (slice b (48 + 8 * w) 8)) else none
/-- The lines of the LINK record are lines of companion memory, none twice (R388). -/
def cfgLinesOk (img : List Byte) : Bool :=
  let ls := (List.range 18).filterMap (cfgLine img)
  ls.all (fun a => decide (a % 64 = 0) && decide (a < 2 ^ 52)) && decide ls.Nodup
/-- Words 0 to 3 of the POWER record's card. -/
def cfgCard (img : List Byte) : List Word :=
  let b := (cfgBody img 0x02).getD []
  (List.range 4).map (fun k => BitVec.ofNat 64 (leNat (slice b (8 * k) 8)))

/-- R444: the number of the first check that a configuration image fails in `limit` bytes, 0 when it is accepted. -/
def State.configReason (s : State) (img : List Byte) (limit : Nat) : Nat :=
  let num (o n : Nat) : Nat := leNat (slice img o n)
  let len := num 12 4
  let recs := cfgRecs img
  let hdrZero := zeros (slice img 24 40) && recs.all (fun r => zeros (slice img (r.at_ + 2) 2) && zeros (slice img (r.at_ + 12) 4) &&
    cfgZero r.ty (slice img (r.at_ + 16) r.len))
  let fits := recs.all (fun r => decide (r.at_ + 16 + r.len ≤ len))
  let own := leNat (slice ((cfgBody img 0x01).getD []) 0 2)
  let card := cfgCard img
  let c := stateCard card
  if slice img 0 8 ≠ configMagic ∨ num 8 2 ≠ 1 ∨ num 10 2 < 1 ∨ 32 < num 10 2 ∨ 4194304 < len ∨ limit < len ∨ !fits ∨ !hdrZero ∨
      recs.any (fun r => decide (0x0B < r.ty) || decide (r.ty = 0)) then 1
  else if crc32c (slice img 0 20 ++ List.replicate 4 0 ++ slice img 24 40) ≠ num 20 4 then 2
  else if recs.any (fun r => decide (crc32c (slice img (r.at_ + 16) r.len) ≠ num (r.at_ + 8) 4)) then 3
  else if !decide (recs.map CfgRec.ty).Nodup ∨ ([1, 2, 3, 4, 5, 7, 0x0A] : List Nat).any (fun t => !(recs.map CfgRec.ty).contains t) ∨
      recs.any (fun r => !cfgLenOk r.ty r.len) then 4
  else if !cfgRanges img then 5
  else if !(cfgForward img).all (s.forwardOk own) ∨ !cfgLinesOk img then 6
  else if cardReserved card ∨ c.seq ≠ 0 ∨ (bitsOf c.hmask 16 ++ bitsOf c.opmask 16).any (fun h => !s.holdPresent h) then 7
  else 0

/-! ### Pins (R430, R431, R513) -/

/-- A supply voltage in 40 to 59.5 V, in 0.1 V. -/
def voltsOk (v : Nat) : Bool := decide (400 ≤ v) && decide (v ≤ 595)
/-- EN_IN_HIGH (R430, R513): EN_IN is taken high. -/
def execEnInHigh (volts : List (BitVec 16)) (s : State) : Host.Outcome State Fault Refusal :=
  if s.pins.enIn then .next s
  else .next { s with pins := { s.pins with enIn := true }, power := { s.power with studs := volts.map BitVec.toNat } }
/-- PG_OUT (R430, R513): the steading supply is up, every pair in its range. A module that ST_OFF has turned off waits for a power cycle or
RST_N (R415). -/
def execPgOut (volts : List (BitVec 16)) (s : State) : Host.Outcome State Fault Refusal :=
  if s.pins.enIn && !s.pins.pgOut && !s.pins.stOff && volts.all (fun v => voltsOk v.toNat) then
    .next { s with pins := { s.pins with pgOut := true }, power := { s.power with studs := volts.map BitVec.toNat, lostPairs := [] } }
  else .next s
/-- The reset of domain ST (R431): every other domain is OFF, ST_READY and ST_HOLD fall. -/
def State.rstLow (s : State) : State := s.resetSt { s.pins with rstN := false, stReady := false, stHold := false, stOff := false }
/-- RST_N (R431). -/
def execRstN (s : State) : Host.Outcome State Fault Refusal := .next s.rstLow
/-- STEADING_RESET (R480): as RST_N; no event is written. -/
def execSteadingReset (s : State) : Host.Outcome State Fault Refusal := .next s.rstLow
/-- RESTART (R431, R441): ignored while a write-through goes on. -/
def execRestart (s : State) : Host.Outcome State Fault Refusal := .next (if s.rd Reg.BOOT_LOAD_STAT.BUSY = 1 then s else s.rstLow)

/-! ### Phases 1 to 5 (R432, R446) -/

/-- The module enters HOLD (R432, R439). -/
def State.enterHoldState (s : State) (cause reason : Nat) : State :=
  let t := ((s.wr Reg.BOOT_STAT.PHASE 15).wr Reg.BOOT_STAT.HOLD_CAUSE cause).wr Reg.BOOT_STAT.REASON reason
  { t with pins := { t.pins with stHold := true, stReady := false } }
/-- The REASON with which a region of unspecified content fails is open (log entry 14). -/
def State.tornReason (s : State) : State × Nat := ({ s with freeIx := s.freeIx + 1 }, (Config.freeByte s.freeIx).toNat)

/-- Phase 2: what the OTP gives (R445). -/
def State.bootOtp (s : State) : State :=
  ((((s.wr Reg.BOOT_STAT.MIN_SVN s.otp.minSvn).wr Reg.BOOT_ID.SERIAL s.otp.serial).wr Reg.TRUST_STAT.TAINT (b2n s.otp.taint)).wr
    Reg.TRUST_STAT.CKPT s.otp.ckpt).lcSync.credSync
/-- Phase 3: the image verified is the running image (R436). -/
def State.bootImage (s : State) : State :=
  let img := s.flash.image
  let s1 : State := { s with trust := { s.trust with image := some img } }
  ((s1.wr Reg.BOOT_STAT.SVN (leNat (slice img 12 4))).wr Reg.BOOT_VER.VERSION (leNat (slice img 16 8))).putBytes Reg.MEAS_FW.HASH (sha384 (slice img 0 256))
/-- Phase 4: the configuration accepted (R442). -/
def State.bootConfig (s : State) : State :=
  let img := s.flash.config
  let s1 : State := { s with trust := { s.trust with cfg := some img } }
  (s1.wr Reg.BOOT_STAT.CFG_GEN (leNat (slice img 16 4))).putBytes Reg.MEAS_CFG.HASH (sha384 (slice img 0 (leNat (slice img 12 4))))

/-- A DER element: length of its header and of its content. -/
def derHead (b : List Byte) : Nat × Nat :=
  let l := leNat (slice b 1 1)
  if l < 128 then (2, l) else (2 + (l - 128), beNat (slice b 2 (l - 128)))
/-- The content of the first element. -/
def derIn (b : List Byte) : List Byte := let h := derHead b; slice b h.1 h.2
/-- What follows the first `n` elements. -/
def derSkip (n : Nat) (b : List Byte) : List Byte := (List.range n).foldl (fun r _ => let h := derHead r; r.drop (h.1 + h.2)) b
/-- The P-384 key of the leaf certificate (R446): X and Y end its SubjectPublicKeyInfo, which follows version, serial number, signature
algorithm, issuer, validity and subject. -/
def leafKey (chain : List Byte) : List Byte :=
  let cert := slice chain 4 (leNat (slice chain 0 4))
  let tbs := derIn (derIn cert)
  let b := if leNat (slice tbs 0 1) = 0xA0 then derSkip 1 tbs else tbs
  let spki := derIn (derSkip 5 b)
  spki.drop (spki.length - 96)
/-- Phase 5: ID_OK (R446). -/
def State.bootIdentity (s : State) : State :=
  s.wr Reg.TRUST_STAT.ID_OK (b2n (match s.otp.idSeed with
    | some seed => decide (leafKey s.flash.chain = ecdsaPublic (Config.identityKey seed))
    | none => false))

/-! ### Phase 6 (R452) -/

/-- The counts of the wipe table and of the wipe records after the last checkpoint. -/
def State.bootWipes (s : State) : State :=
  let table := if s.flash.lastB then s.flash.bankB else s.flash.bankA
  let s1 := table.foldl (fun t p => t.wr Reg.SP_WIPE.COUNT p.2 p.1) s
  let j := s.flash.journal
  let after := (j.reverse.takeWhile (fun r => decide (leNat (slice r 12 1) ≠ 2))).reverse
  (after.filter (fun r => decide (leNat (slice r 12 1) = 4) && s.recordOk r)).foldl (fun t r =>
    let d := slice r 208 16
    let cores := if bits (leNat (slice d 0 4)) 31 1 = 1 then [leNat (slice d 0 4) % 2 ^ 31]
      else (rectCrofts (leNat (slice d 0 1)) (leNat (slice d 1 1)) (leNat (slice d 2 1))).flatMap coresOfCroft
    cores.foldl (fun u c => if u.corePresent c then u.incWrap Reg.SP_WIPE.COUNT 1 c else u) t) s1
/-- The newest record whose signature verifies. -/
def State.newestRecord (s : State) : Option (List Byte) :=
  s.flash.journal.reverse.find? (fun r => decide (r.take 4 = ledMagic) && s.recordOk r)
/-- SEQ, counters and wipe counts resume from the journal. A start that ends in HOLD before phase 6 resumes them too, so that records
and counters go on from there (R449, R450; DESIGN CHOICE, log entry 80). -/
def State.resumeLedger (s : State) : State :=
  let s1 := match s.newestRecord with
    | some r => (s.putBytes Reg.LED_CNT.BLOCK (slice r 16 192)).wr Reg.TRUST_STAT.SEQ (leNat (slice r 4 4))
    | none => s
  let s2 := s1.bootWipes
  { s2 with trust := { s2.trust with hourAt := s2.now, hours := 0 } }
/-- Phase 6: SEQ and counters resume, and the newest record's CKPT is held against the fuses. -/
def State.bootLedger (s : State) : State :=
  let c := s.otp.ckpt
  let s1 := s.resumeLedger
  let setCkpt (t : State) (n : Nat) : State := ({ t with otp := { t.otp with ckpt := n } } : State).wr Reg.TRUST_STAT.CKPT n
  let bad (t : State) : State :=
    let u := ({ t with otp := { t.otp with taint := true } } : State).wr Reg.TRUST_STAT.TAINT 1
    u.raiseSt 0xB4 (u.copyOf Reg.TRUST_STAT.ID_OK)
  match s.newestRecord with
  | none => if 0 < c ∧ c < 4095 then bad s1 else s1
  | some r =>
    let k := leNat (slice r 8 4)
    if c = 4095 ∨ k = c then s1 else if k = c + 1 then setCkpt s1 k else bad s1

/-! ### Phase 7 (R443) -/

/-- The records MODULE, POWER and LANES. -/
def State.loadModule (s : State) (img : List Byte) : State :=
  let num (ty o n : Nat) : Nat := leNat (slice ((cfgBody img ty).getD []) o n)
  let rate := num 0x01 3 1
  let win := if rate = 0 then 21 else if rate = 1 then 23 else 26
  let s1 := ((((s.wr Reg.FWD_ID.MODULE_ID (num 0x01 0 2)).wr Reg.FWD_ID.HOPS_INIT (num 0x01 2 1)).wr Reg.FWD_ID.INSTALL (num 0x01 4 4)).wr
    Reg.PWR_LIMIT.TJ_WARN (num 0x01 9 1))
  let s2 := (List.range 48).foldl (fun t k => if !t.tabkoPresent k then t
    else ((t.wr Reg.TBK_ID.RATE rate k).wr Reg.TBK_ID.ADMIT_WIN win k).wr Reg.TBK_SCRUB.EN (num 0x01 12 1) k) s1
  let s3 := (List.range 256).foldl (fun t c => if t.croftPresent c then t.wr Reg.CLK_MON.WARN_LIMIT (num 0x01 10 2) c else t) s2
  let c := stateCard (cfgCard img)
  let s4 := (List.range 19).foldl (fun t d => match c.dom d with
    | some v => t.wr Reg.PWR_DOM.TARGET v (j := d)
    | none => t) s3
  let s5 := (List.range 16).foldl (fun t h => match c.op h with
    | some p => (t.wr Reg.HOLD_OP.TARGET p (j := h)).wr Reg.HOLD_OP.CUR p (j := h)
    | none => t) s4
  let s6 := (List.range 16).foldl (fun t p => if !t.portPresent p then t
    else (t.wr Reg.BLN_CTL.EN (num 0x03 (768 + 4 * p) 1) p).wr Reg.BLN_CTL.MARGIN_LIMIT (num 0x03 (768 + 4 * p + 2) 2) p) s5
  { s6 with trust := { s6.trust with smbAddr := num 0x01 8 1 % 128 } }
/-- The records REPAIR and FALLOW, by physical index (R20); the core of a stiled router is fallow (R191). -/
def State.loadRepair (s : State) (img : List Byte) : State :=
  let num (ty o n : Nat) : Nat := leNat (slice ((cfgBody img ty).getD []) o n)
  let s1 := (List.range 256).foldl (fun t c =>
    let v := num 0x04 (2 * c) 2
    ((t.wr Reg.CROFT_TABLE.SPARE_USED (bits v 0 1) 0 c).wr Reg.CROFT_TABLE.BAD_ROW (bits v 1 4) 0 c).wr Reg.CROFT_TABLE.SPARE_GOOD (bits v 5 1) 0 c) s
  let s2 := (List.range 81920).foldl (fun t i =>
    let v := num 0x04 (512 + t.physOf i) 1
    ((((t.wr Reg.ARR_REPAIR.SPARE_EN (bits v 0 1) i).wr Reg.ARR_REPAIR.BAD_ROW (bits v 1 5) i).wr Reg.ARR_REPAIR.SPARE_GOOD (bits v 6 1) i).wr
      Reg.RTR_STAT.STILE (bits v 7 1) i).wr Reg.RTR_STAT.FENCED (bits v 7 1) i) s1
  let marked := (List.range 87040).filter (fun p => decide (bits (num 0x05 (p / 8) 1) (p % 8) 1 = 1))
  marked.foldl (fun t p => match t.logicalOf p with
    | some i => t.wr Reg.RTR_STAT.FENCED 1 i
    | none => { t with bist := { t.bist with marks := t.bist.marks ++ [p] } }) s2
/-- The records YOKE, PLACEMENT, SEASON and CHECKVAL. -/
def State.loadRest (s : State) (img : List Byte) : State :=
  let body (ty : Nat) : List Byte := (cfgBody img ty).getD []
  let num (ty o n : Nat) : Nat := leNat (slice (body ty) o n)
  let s1 := ((((((s.wr Reg.YK_CFG.EN (num 0x06 0 1)).wr Reg.YK_CFG.MATE_ID (num 0x06 2 2)).wr Reg.YK_CTL.HB_PERIOD (num 0x06 4 2)).wr
    Reg.YK_CTL.HB_MISS (num 0x06 6 1)).wr Reg.YK_CTL.CMP_EVERY (num 0x06 8 2)).wr Reg.YK_CTL.CMP_GRAN (num 0x06 10 3))
  let s2 := if num 0x06 0 1 = 1 then { s1.setYk 1 with yoke := { s1.yoke with rxAt := s1.now, hbAt := s1.now } } else s1
  let s3 := (List.range 81920).foldl (fun t i => if t.corePresent i then t.wr Reg.ARR_CHK.CHK_LIMIT (num 0x07 0 1) i else t) s2
  let s4 := (List.range 64).foldl (fun t k => t.wr Reg.CFG_SEASON.SET (num 0x08 (8 * k) 8) 0 k) s3
  let cv := body 0x09
  (List.range 48).foldl (fun t b => if !t.tabkoPresent b then t
    else (List.range (cv.length / 32)).foldl (fun u k =>
      let g (o n : Nat) : Nat := leNat (slice cv (32 * k + o) n)
      ((((((u.wr Reg.CVU_PRE.WIDTH (g 0 1) b (k + 1)).wr Reg.CVU_PRE.REFIN (bits (g 1 1) 0 1) b (k + 1)).wr Reg.CVU_PRE.REFOUT (bits (g 1 1) 1 1) b (k + 1)).wr
        Reg.CVU_PRE.VALID 1 b (k + 1)).wr Reg.CVU_PREPOLY.VALUE (g 8 8) b (k + 1)).wr Reg.CVU_PREINIT.VALUE (g 16 8) b (k + 1)).wr
        Reg.CVU_PREXOROUT.VALUE (g 24 8) b (k + 1)) t) s4
/-- The records LINK and FORWARD; the enabled lines are read for their baseline (R388). -/
def State.loadLink (s : State) (img : List Byte) : State :=
  let num (o n : Nat) : Nat := leNat (slice ((cfgBody img 0x0A).getD []) o n)
  let s1 := (((((((s.wr Reg.YEP_CTL.TIMEOUT (num 0 2)).wr Reg.YEP_WIN.BASE (num 2 2)).wr Reg.YEP_WIN.EN (num 4 1)).wr Reg.YEP_SIG.VEC_ST (num 5 1)).wr
    Reg.YEP_SIG.VEC_FAULT (num 6 1)).wr Reg.YEP_SIG.VEC_ENCL (num 7 1)).wr Reg.YEP_SIG.GAP (num 8 2)).wr Reg.YEP_FRING.BASE (num 16 8 / 2 ^ 14)
  let own := s.moduleId
  let s2 := (cfgForward img).foldl (fun t e => fwdFields.foldl (fun u f => u.wr f (fldOf f e.2.2) e.2.1 e.1) t) s1
  let s3 := [0, 1].foldl (fun t fl => t.wr Reg.FWD.LOCAL 1 fl own) s2
  let s4 := (List.range 18).foldl (fun t w => t.wr Reg.YEP_WATCH_A.LINE (num (48 + 8 * w) 8 / 64) 0 w) s3
  (List.range 18).foldl (fun t w => if (cfgLine img w).isSome then (t.wr Reg.YEP_WATCH_B.EN 1 0 w).readLine w true else t) s4
/-- Phase 7: the fields that the configuration gives, laser hours from the ledger, and geography. -/
def State.bootLink (s : State) : State :=
  let img := s.trust.cfg.getD []
  let s1 := (((s.loadModule img).loadRepair img).loadRest img).loadLink img
  let blk := s1.counterBlock
  let s2 := (List.range 16).foldl (fun t p => if t.portPresent p then t.wr Reg.BLN_LASER.HOURS (leNat (slice blk (128 + 4 * p) 4)) p else t) s1
  ((s2.wr Reg.GEO_CTL.READY 1).rebuild).wr Reg.BOOT_STAT.PHASE 7

/-! ### The start -/

/-- RST_N_RISE (R432): phases 1 to 7 of the start, `selfTest` being the outcome of phase 1; a failure ends in HOLD. -/
def execRstNRise (selfTest : Bool) (s : State) : Host.Outcome State Fault Refusal :=
  if !s.pins.pgOut || s.pins.rstN then .next s
  else
    let s0 : State := { s with pins := { s.pins with rstN := true } }
    if !selfTest then .next (s0.resumeLedger.enterHoldState 3 0)
    else
      let s2 := s0.bootOtp
      if s2.otp.retired then .next (s2.enterHoldState 4 0)
      else if s2.flash.tornImage then .next (s2.tornReason.1.resumeLedger.enterHoldState 1 s2.tornReason.2)
      else if s2.imageReason s2.flash.image 0x1000000 ≠ 0 then .next (s2.resumeLedger.enterHoldState 1 (s2.imageReason s2.flash.image 0x1000000))
      else
        let s3 := s2.bootImage
        if s3.flash.tornConfig then .next (s3.tornReason.1.resumeLedger.enterHoldState 2 s3.tornReason.2)
        else if s3.configReason s3.flash.config 0x400000 ≠ 0 then
          .next (s3.resumeLedger.enterHoldState 2 (s3.configReason s3.flash.config 0x400000))
        else .next s3.bootConfig.bootIdentity.bootLedger.bootLink

/-- Phase 8 has begun and no card has been taken up in it. -/
def State.awaitsRef (s : State) : Bool := decide (s.rd Reg.BOOT_STAT.PHASE = 8) && s.power.card.isNone
/-- BOOT_POWER_PHASE (R219, R432, R443): with the link trained phase 8 begins; with a reference good, REFA before REFB, the POWER record's
card is checked as any card and taken up; its refusal ends in HOLD with REASON 7. -/
def execBootPowerPhase (s : State) : Host.Outcome State Fault Refusal :=
  let s0 := if s.rd Reg.BOOT_STAT.PHASE = 7 ∧ s.yUp then s.wr Reg.BOOT_STAT.PHASE 8 else s
  if !s0.awaitsRef || (decide (s.rd Reg.REF_CTL.A_GOOD = 0) && decide (s.rd Reg.REF_CTL.B_GOOD = 0)) then .next s0
  else
    let ws := cfgCard (s.trust.cfg.getD [])
    let s1 := s0.wr Reg.REF_CTL.ACTIVE (1 - s.rd Reg.REF_CTL.A_GOOD)
    match s1.cardRefusal ws with
    | some _ => .next (s1.enterHoldState 2 7)
    | none => .next (s1.takeCard (stateCard ws) true)

/-! ### Write-through (R440, R441) -/

/-- A write-through has ended; `reason` is the check that failed, 0 for none: REASON keeps that of the last failed check. The ledger records
that waited for it follow. -/
def State.loadEnd (s : State) (result reason : Nat) (code : Nat) : State :=
  let s1 := (((s.wr Reg.BOOT_LOAD_STAT.BUSY 0).wr Reg.BOOT_LOAD_STAT.RESULT result).wr Reg.BOOT_LOAD_STAT.REASON
    (if reason = 0 then s.rd Reg.BOOT_LOAD_STAT.REASON else reason)).incSat Reg.BOOT_LOAD_STAT.COUNT 1
  let s2 := ({ s1 with trust := { s1.trust with reading := none, load := none } } : State).writeWaiting
  if code = 0 then s2 else s2.raiseLive code Reg.BOOT_LOAD_STAT.BUSY
/-- A configuration with GEN one more than the running one, its header's CRC made to fit (R440, R442). -/
def State.stampGen (s : State) (img : List Byte) : List Byte :=
  let a := slice img 0 16 ++ leBytes 4 (s.rd Reg.BOOT_STAT.CFG_GEN + 1)
  let b := slice img 24 40
  a ++ leBytes 4 (crc32c (a ++ List.replicate 4 0 ++ b)) ++ img.drop 24
/-- The content read: the bytes of a line that came without data are open, `lost` naming them by their place (DESIGN CHOICE, log entry 81). -/
def LoadRead.content (r : LoadRead) (lost : List Byte) (free : Nat → Byte) : List Byte :=
  ((List.range (ceilDiv r.len 64)).flatMap (fun l => match Store.get r.got l with
    | some bs => bs
    | none => (List.range 64).map (fun k => (lost[64 * l + k]?).getD (free (64 * l + k))))).take r.len
/-- Stage 2: what was read is checked; past its check it is programmed. -/
def State.loadGo (s : State) (r : LoadRead) (lost : List Byte) : State :=
  let data := r.content lost (fun k => Config.freeByte (s.freeIx + k))
  let s1 := ({ s with freeIx := s.freeIx + r.len } : State).wr Reg.BOOT_LOAD_STAT.STAGE 1
  let go (d : List Byte) : State :=
    ({ s1 with trust := { s1.trust with reading := none, load := some ⟨r.config, d⟩ } } : State).wr Reg.BOOT_LOAD_STAT.STAGE 2
  if !r.config then
    (if s.lc = 4 then s1.loadEnd 0xB6 0 0xB6
     else if s.imageReason data r.len ≠ 0 then s1.loadEnd 0xB1 (s.imageReason data r.len) 0xB1
     else go data)
  else
    (if s.configReason data r.len ≠ 0 then s1.loadEnd 0xB2 (s.configReason data r.len) 0xB2
     else if !s.serviceOk then s1.loadEnd 0xB6 0 0xB6
     else go (s.stampGen data))
/-- A GO of BOOT_LOAD_CTL starts a write-through, unless one goes on (R441) or TARGET is reserved: LEN and TARGET are taken, and
stage 1 reads the lines of companion memory with RD_ONCE. -/
def State.loadStart (s : State) : State :=
  let len := s.rd Reg.BOOT_LOAD_CTL.LEN
  let n := ceilDiv len 64
  if s.rd Reg.BOOT_LOAD_STAT.BUSY = 1 ∨ 2 ≤ s.rd Reg.BOOT_LOAD_CTL.TARGET then s
  else
    let s1 := (s.wr Reg.BOOT_LOAD_STAT.BUSY 1).wr Reg.BOOT_LOAD_STAT.STAGE 0
    let r : LoadRead := ⟨decide (s.rd Reg.BOOT_LOAD_CTL.TARGET = 1), len, [], n⟩
    (List.range n).foldl (fun t l => t.yPost (rdOnce (s.rd Reg.BOOT_LOAD_ADDR.CPA * 4096 + 64 * l)) (.boot l))
      { s1 with trust := { s1.trust with reading := some r } }
/-- WRITE_THROUGH_GO (R440): the GO, if none was given; once every line has been read, the check and the programming begin. -/
def execWriteThroughGo (lost : List (BitVec 8)) (s : State) : Host.Outcome State Fault Refusal :=
  let s1 := s.loadStart
  match s1.trust.reading with
  | some r => .next (if r.left = 0 then s1.loadGo r lost else s1)
  | none => .next s1
/-- WRITE_THROUGH_DONE (R440): erased, programmed and read back; `faults` are bytes that the flash does not hold as programmed. -/
def execWriteThroughDone (faults : List (Fin 16777216 × BitVec 8)) (s : State) : Host.Outcome State Fault Refusal :=
  match s.trust.load with
  | none => .next s
  | some r =>
    let back := faults.foldl (fun (d : List Byte) f => d.set f.1.val f.2) r.data
    let flash : FlashX := if r.config then { s.flash with config := back, tornConfig := false } else { s.flash with image := back, tornImage := false }
    let s1 := ({ s with flash := flash } : State).wr Reg.BOOT_LOAD_STAT.STAGE 3
    if sha384 back = sha384 r.data then .next ((s1.wr Reg.BOOT_LOAD_STAT.FLASH_BAD 0).loadEnd 0 0 0xB3)
    else .next ((s1.wr Reg.BOOT_LOAD_STAT.FLASH_BAD 1).loadEnd 0xB3 0 0)

/-! ### Quotes (R447, R448) -/

/-- "KZJQUOTE". -/
def quoteMagic : List Byte := ascii [0x4B, 0x5A, 0x4A, 0x51, 0x55, 0x4F, 0x54, 0x45]
/-- Bytes 0 to 511 of a quote. -/
def State.quoteBody (s : State) : List Byte :=
  let flags := b2n s.pins.stHold + 2 * b2n (decide (s.rd Reg.TRUST_STAT.ID_OK = 0)) + 4 * b2n s.otp.taint + 8 * b2n s.trust.cfg.isNone
  quoteMagic ++ leBytes 2 1 ++ leBytes 1 s.lc ++ leBytes 1 flags ++ leBytes 1 (s.rd Reg.BOOT_STAT.SVN) ++ leBytes 1 s.otp.minSvn ++ [0, 0] ++
    leBytes 8 s.otp.serial ++ leBytes 8 s.now ++ s.regBytes Reg.ATT_NONCE.NONCE 48 ++ s.regBytes Reg.MEAS_FW.HASH 48 ++ s.regBytes Reg.MEAS_CFG.HASH 48 ++
    leBytes 4 (s.rd Reg.TRUST_STAT.SEQ) ++ leBytes 4 s.otp.ckpt ++ List.replicate 72 0 ++ s.counterBlock ++ List.replicate 64 0
/-- A GO of ATT_CTL: the quote is built, signed, and its ten lines are written. A RETIRED module has no key to sign with (R446). -/
def State.quoteGo (s : State) : State :=
  if s.rd Reg.ATT_CTL.BUSY = 1 ∨ s.otp.idSeed.isNone then s
  else
    let b := s.quoteBody
    let q := b ++ s.sign b ++ List.replicate 32 0
    let s1 := ({ s with freeIx := s.freeIx + 1, trust := { s.trust with quoteOut := 10 } } : State).wr Reg.ATT_CTL.BUSY 1
    (List.range 10).foldl (fun t k => t.yPost (wrFull (s.rd Reg.ATT_DEST.CPA * 64 + 64 * k) (slice q (64 * k) 64)) .quote) s1
/-- QUOTE_GO (R447). -/
def execQuoteGo (s : State) : Host.Outcome State Fault Refusal := .next s.quoteGo

/-! ### The ledger's hour (R450, R451) -/

/-- The bin of the maximum-temperature histogram. -/
def tempBin (t : Nat) : Nat := if t < 70 then 0 else min ((t - 65) / 5) 15
/-- LEDGER_HOURLY (R451): each powered hour a record, and a checkpoint every 64 of them. -/
def execLedgerHourly (s : State) : Host.Outcome State Fault Refusal :=
  if !s.stRuns ∨ s.now < s.trust.hourAt + 60 * ticksPerMinute then .next s
  else
    let s1 := s.ledAdd (40 + 4 * tempBin s.trust.hourMax) 4 1
    let h := s.trust.hours + 1
    let s2 : State := { s1 with trust := { s1.trust with hourAt := s1.trust.hourAt + 60 * ticksPerMinute, hourMax := 0, hours := h % 64 } }
    let s3 := s2.ledRecord 1 []
    .next (if h = 64 then s3.checkpoint else s3)

end Sys2Proof.Machine
end

