-- ==== Sys2Proof/Machine/FaultCmds.lean ====
section
/-! DEFINITION. Fencing's end, the croft's spare row, the control tree and the event rings (R479, R482, R483, R486-R489, R495). -/

namespace Sys2Proof.Machine

/-! ### The end of a fencing (R482, R483) -/

/-- REASON 5 of R481: the router's stile is engaged. -/
def State.engageStile (s : State) (core : Nat) : State :=
  ((s.wr Reg.RTR_STAT.STILE 1 core).wr Reg.FLT_STILES.LAST core).incSat Reg.FLT_STILES.COUNT 1
/-- The step an event of a boundary carries (R487): the one that closed, where the enclosure's counters have moved on. -/
def State.closedStep (s : State) (n : Option Nat) : Nat :=
  match n with
  | some e => if (s.encl e).checked then s.boundaryStep e else s.stepOf n
  | none => 0
/-- R190: packets addressed to a core that has become fallow, in its ejection buffers and slots, stop landing and are answered. Those
that its router combines stay. -/
def State.answerLeft (s : State) (core : Nat) : State :=
  let x := s.core core
  let r := s.answerRouter core
  let mine (p : Packet) : Bool := p.ty ≠ 8
  let left : List (Packet × Nat) := [0, 1, 2, 3].flatMap (fun vc =>
    let l := (s.ejectOf core vc).filter mine
    match l with
    | p :: t => (p, if vc = 0 then x.gwLand.landed else 0) :: t.map (fun q => (q, 0))
    | [] => [])
  let s1 := [0, 1, 2, 3].foldl (fun t vc => t.setEject core vc ((t.ejectOf core vc).filter (fun p => !mine p))) s
  let s2 := (s1.setCore core { x with mcSlots := [], gwLand := ⟨0, 0, 0, false⟩, mcLand := ⟨0, 0, 0, false⟩ }).slotSync core
  (left ++ x.mcSlots.map (fun (b : McSlot) => (b.pkt, 0))).foldl (fun (t : State) (q : Packet × Nat) => t.answerFor r core 0x21 q.2 q.1) s2
/-- R191: a packet that has come from router `from_` towards a core whose stile now stands in its way is answered there: a unicast one,
or of a multicast the targets that it cannot reach straight on, `os` being its outputs. -/
def State.stileAnswers (s : State) (from_ core : Nat) (os : List Nat) (p : Packet) : State :=
  if p.ty = 7 then
    let here := (os.filter (fun o => decide (8 ≤ o))).length
    let turn := ((os.filter (fun o => decide (o < 8))).map (branchCount p core)).sum
    if here + turn = 0 then s
    else
      let s1 := if turn = 0 then s else s.raiseSender p 0x27 core
      let s2 := if here = 0 then s1 else (s1.incSat Reg.RTR_STAT.ANSWERED 1 from_).raiseSender p 0x21 core
      s2.mcAck from_ p.via p ⟨0, turn, 0, here, if turn = 0 then 0 else 0x27⟩
  else s.answerFor from_ core (if os.contains 0 then 0x21 else 0x27) 0 p
/-- The outputs a packet had at a router without its stile. -/
def outsOf (core : Nat) (p : Packet) : List Nat := if p.ty = 7 then mcOuts p core else [nextOut core p]
/-- R191: entries of the queue that leads from beyond a crossing to a router whose stile takes its place: what would end or turn there is
answered beyond the crossing, its credits on their way back. -/
def State.stileQueue (s : State) (core d vc : Nat) : State :=
  let nb := neighbour core d
  let q := s.headland nb (facing d) vc
  let goes (e : HlEntry) : Bool := (outsOf core e.pkt).any (fun o => decide (o = facing d) || decide (o = 5))
  let gone := q.filter (fun e => !goes e)
  if q.isEmpty then s
  else
    let t := s.setHeadland nb (facing d) vc (q.filter goes)
    let u : State := { t with credits := t.credits ++ gone.map (fun e => ⟨qKey nb (facing d) vc, e.pkt.flits, s.estTick (croftOf core) + 2⟩) }
    q.foldl (fun v e => if e.pkt.ty = 7 ∨ !goes e then v.stileAnswers nb core ((outsOf core e.pkt).filter (fun o => decide (o ≠ facing d))) e.pkt
      else v) u
/-- R191: what a router holds as its stile takes its place: packets that end or turn there are answered by the router they came from,
its own core's are dropped, and answers it was to send go by the router beside it (log entry 59). -/
def State.stileInputs (s : State) (core : Nat) : State :=
  let r := s.answerRouter core
  let s1 := s.modCore r (fun c => { c with rspOut := c.rspOut ++ (s.core core).rspOut })
  let s2 := if r = core then s else s1.modCore core (fun c => { c with rspOut := [] })
  let s3 := (List.range 5).foldl (fun t i => (List.range 4).foldl (fun u vc =>
    let l := u.inputOf core i vc
    let on (m : MPkt) : Bool := decide (1 ≤ i) && m.outs.all (fun o => decide (o = facing i) || decide (o = 5))
    let from_ := if i = 0 then core else neighbour core i
    (l.filter (fun m => !on m && decide (1 ≤ i))).foldl (fun v m => v.stileAnswers from_ core (m.outs.filter (fun o => decide (o ≠ facing i))) m.pkt)
      (u.setInput core i vc (l.filterMap (fun m =>
        if on m then some m
        else if 1 ≤ i ∧ m.pkt.ty = 7 ∧ m.outs.contains (facing i) then
          some { m with
            outs := [facing i], fresh := false }
        else none)))) t) s2
  [1, 2, 3, 4].foldl (fun t d =>
    if hasNeighbour core d ∧ croftOf (neighbour core d) ≠ croftOf core then (List.range 4).foldl (fun u vc => u.stileQueue core d vc) t else t) s3
/-- Cycle f of R482: the core is isolated, recorded and reported; what was addressed to it is answered (R190). -/
def State.isolate (s : State) (core reason : Nat) : State :=
  let phys := s.physOf core
  let s1 := (s.wr Reg.RTR_STAT.FENCED 1 core).modCore core (fun c => { c with fencing := none })
  let s2 := if reason = 5 then (s1.engageStile core).stileInputs core else s1
  let s2 := s2.answerLeft core
  let s3 := ((((s2.unpass (croftOf core)).rebuild).ledRecord 4 (detailCore core)).ledAdd 104 4 1).ledRecord 5 (detailChange phys 1)
  let n := s3.enclOfCore core
  s3.raiseAt (n.getD stRing) 0x28 skCore core (s3.estTick (croftOf core)) (s3.closedStep n) (phys + reason * 2 ^ 17)

/-- FENCE_ISOLATE (R482): 4,097 cycles after the fencing began, its wipe over; at a boundary the enclosure's FALLOW frame follows
the last fencing (R484). -/
def execFenceIsolate (core : CoreId) (s : State) : Host.Outcome State Fault Refusal :=
  match (s.core core.val).fencing with
  | some r =>
    if s.rd Reg.SP_STAT.WIPE_BUSY core.val = 1 then .next s
    else
      let t := s.isolate core.val r
      .next (match t.enclOfCore core.val with
        | some n => if t.rd Reg.ENCL_STATE.STATE (j := n) = 3 then t.boundaryFallow n else t
        | none => t)
  | none => .next s

/-! ### The croft's spare row (R486) -/

/-- What R486 asks of the croft and its row. -/
def State.rowFits (s : State) (c : Nat) : Bool :=
  s.serviceOk && s.croftPresent c && (s.enclOf c).isNone && (s.transitOf c).isNone && decide (s.rd Reg.PWR_DOM.CUR (j := holdingOf c) = 0) &&
  decide (s.rd Reg.CROFT_TABLE.SPARE_GOOD 0 c = 1) && decide (s.rd Reg.CROFT_TABLE.SPARE_USED 0 c = 0)
/-- FLT_SPARE.GO (R486): claimed for the next bell, or refused. GO while a change runs is ignored (log entry 33). -/
def State.spareGo (s : State) (c row : Nat) : State :=
  let cl : Claim := ⟨4, 0, c, 1, 1⟩
  if s.rd Reg.FLT_SPARE.BUSY = 1 then s
  else if !s.rowFits c then s.wr Reg.FLT_SPARE.RESULT 0x01
  else if !s.claimClear cl then (s.wr Reg.FLT_SPARE.RESULT 0xC1).refuseClaim cl
  else
    let t := ((s.addClaim cl).wr Reg.FLT_SPARE.BUSY 1).wr Reg.FLT_SPARE.RESULT 0
    { t with bist := { t.bist with spare := some (c, row, none) } }
/-- SPARE_GO (R486). -/
def execSpareGo (croft : CroftId) (row : BitVec 4) (s : State) : Host.Outcome State Fault Refusal := .next (s.spareGo croft.val row.toNat)

/-- SPARE_ROW_START (R486): at bell B every core of the croft halts and its clocks are gated. -/
def execSpareRowStart (s : State) : Host.Outcome State Fault Refusal :=
  match s.bist.spare with
  | some (c, row, none) =>
    if s.now % 1024 ≠ 0 then .next s
    else
      let t := ((coresOfCroft c).foldl (fun u i => u.haltCore i 4) s).modCroft c CroftX.gated
      .next { t with bist := { t.bist with spare := some (c, row, some s.now) } }
  | _ => .next s

/-- What the physical core at local row 16 brings: its bits of the REPAIR record, and whether it is marked fallow (R443). -/
def State.spareRowCore (s : State) (phys : Nat) : Nat × Nat := (s.cfgNum 0x04 (512 + phys) 1, b2n (s.bist.marks.contains phys))
/-- One logical core takes the physical core below it: array repair, stile and mark go with the physical core. -/
def State.shiftCore (s old : State) (i : Nat) : State :=
  let v : Nat × Nat × Nat × Nat × Nat :=
    if rowOf i % 16 = 15 then
      let q := old.spareRowCore (physicalIndex (rowOf i) (colOf i) true 0)
      (bits q.1 0 1, bits q.1 1 5, bits q.1 6 1, bits q.1 7 1, q.2)
    else
      let j := i + 320
      (old.rd Reg.ARR_REPAIR.SPARE_EN j, old.rd Reg.ARR_REPAIR.BAD_ROW j, old.rd Reg.ARR_REPAIR.SPARE_GOOD j, old.rd Reg.RTR_STAT.STILE j,
        old.rd Reg.RTR_STAT.FENCED j)
  ((((s.wr Reg.ARR_REPAIR.SPARE_EN v.1 i).wr Reg.ARR_REPAIR.BAD_ROW v.2.1 i).wr Reg.ARR_REPAIR.SPARE_GOOD v.2.2.1 i).wr
    Reg.RTR_STAT.STILE v.2.2.2.1 i).wr Reg.RTR_STAT.FENCED v.2.2.2.2 i
/-- The repair map of a croft takes its spare row (R20, R486): positions from the bad row on move down by one physical row; the marks of
the physical cores that carry a position or carry none follow. The spare row is in use, so SPARE_GOOD falls (R31). -/
def State.remapCroft (s : State) (c row : Nat) : State :=
  let moved := (coresOfCroft c).filter (fun i => decide (row ≤ rowOf i % 16))
  let bad := (moved.filter (fun i => decide (rowOf i % 16 = row) && s.fallow i)).map s.physOf
  let t := moved.foldl (fun u i => u.shiftCore s i) s
  let u := ((t.wr Reg.CROFT_TABLE.SPARE_USED 1 0 c).wr Reg.CROFT_TABLE.BAD_ROW row 0 c).wr Reg.CROFT_TABLE.SPARE_GOOD 0 0 c
  { u with bist := { u.bist with marks := u.bist.marks.filter (fun p => decide (croftOfPhys p ≠ c)) ++ bad } }

/-- SPARE_IN (R486): 2,048 tk after the bell: the remapped croft has been wiped, its estimate loaded, its arrays cold; at OP4 its clock
stays stopped (R236). -/
def execSpareIn (s : State) : Host.Outcome State Fault Refusal :=
  match s.bist.spare with
  | some (c, row, some b) =>
    if s.now < b + 2048 then .next s
    else
      let s1 := (coresOfCroft c).foldl (fun u i => (u.wipeNow i).chill i) (s.remapCroft c row)
      let s2 := (s1.modCroft c (fun x => if s.opOf c = 4 then x.gated else x.started (s.now * unitsPerTick (s.opOf c)))).rebuild
      let s3 := ((s2.ledRecord 4 (detailRect c 1 1)).ledAdd 108 2 1).ledRecord 5 (detailChange (physicalIndex (c / 16 * 16 + row) (c % 16 * 20) false 0) 4)
      let s4 := (s3.raiseCroft 0x29 c row).dropClaims (fun k => decide (k.act = 4))
      .next { s4.wr Reg.FLT_SPARE.BUSY 0 with bist := { s4.bist with spare := none } }
  | _ => .next s

/-! ### The control tree (R479) -/

/-- CTL_TREE (R479): the fourth failure of an access quarantines the croft and faults the enclosures that use it. -/
def execCtlTree (croft : CroftId) (offset : BitVec 64) (s : State) : Host.Outcome State Fault Refusal :=
  let c := croft.val
  if !s.croftPresent c then .next s
  else
    let s1 := ((s.setCroftBit Reg.BIST_QUAR.CROFTS c true).raiseCroft 0x05 c offset.toNat).rebuild
    .next ((List.range 16).foldl (fun t n =>
      if (s.enclHolds n && s.inRect n c) || (s.encl n).transit.contains c then t.faultEncl n 0x05 (s.estTick c) else t) s1)

/-! ### Event rings (R487-R489, R495) -/

/-- Entries of a ring; SIZE 11 to 15 count as 10 (R495). -/
def State.ringSize (s : State) (r : Nat) : Nat := 2 ^ (min (s.rd Reg.EVR_CTL.SIZE 0 r) 10 + 6)
/-- Entries written and not consumed. -/
def State.ringUsed (s : State) (r : Nat) : Nat := (s.rd Reg.EVR_PI.PI 0 r + 2 ^ 32 - s.rd Reg.EVR_CI.CI 0 r) % 2 ^ 32
/-- The words of an entry (R487). -/
def Event.words (e : Event) (seq : Nat) : List Nat :=
  [e.code + e.ring * 2 ^ 8 + e.skind * 2 ^ 13 + seq * 2 ^ 32, e.tick, e.unit % 2 ^ 17 + e.step * 2 ^ 32, e.detail]
/-- An entry is sent to its place in the ring with WR_PART (R488); PI follows with the answer. -/
def State.postEntry (s : State) (r : Nat) (e : Event) : State :=
  let pi := s.rd Reg.EVR_PI.PI 0 r
  let a := s.rd Reg.EVR_CTL.BASE 0 r * 4096 + pi % s.ringSize r * 32
  s.yPost (wrPart (a / 64 * 64) (a % 64) (wordBytes (e.words pi))) (.event r)
/-- An entry of the ring is on its way. -/
def State.ringBusy (s : State) (r : Nat) : Bool :=
  s.yosal.wait.any (fun p => decide (p.2 = YReq.event r)) || s.yosal.tags.any (fun t => decide (t.req = YReq.event r))
/-- The oldest event of a ring taken from the list, if one waits. -/
def takeEvent (r : Nat) : List Event → Option (Event × List Event)
  | [] => none
  | e :: t => if e.dest = r then some (e, t) else (takeEvent r t).map (fun q => (q.1, e :: q.2))

/-- EVENT_RING_WRITE (R488, R489): the next entry of a ring in use: RING_OVERFLOW when events were lost and a slot is free, else the
oldest event; with the ring full the oldest event is discarded and counted. -/
def execEventRingWrite (ring : RingId) (s : State) : Host.Outcome State Fault Refusal :=
  let r := ring.val
  if s.rd Reg.EVR_CTL.EN 0 r = 0 ∨ s.pins.stHold ∨ s.ringBusy r then .next s
  else if s.ringSize r - 1 ≤ s.ringUsed r then
    .next (match takeEvent r s.events with
      | some (_, l) => { s.incSat Reg.EVR_PI.LOST 1 0 r with events := l }
      | none => s)
  else if 0 < s.rd Reg.EVR_PI.LOST 0 r then
    .next ((s.wr Reg.EVR_PI.LOST 0 0 r).postEntry r ⟨r, 0x04, r, skSteading, 0, s.now, 0, s.rd Reg.EVR_PI.LOST 0 r⟩)
  else
    .next (match takeEvent r s.events with
      | some (e, l) => ({ s with events := l } : State).postEntry r e
      | none => s)

/-- A write of CI (R489): past PI it is taken as PI; more than the ring's entries behind PI it is ignored. -/
def State.setCi (s : State) (r v : Nat) : State :=
  let pi := s.rd Reg.EVR_PI.PI 0 r
  let behind := (pi + 2 ^ 32 - v) % 2 ^ 32
  if 2 ^ 31 ≤ behind then s.wr Reg.EVR_CI.CI pi 0 r
  else if s.ringSize r < behind then s
  else s.wr Reg.EVR_CI.CI v 0 r
/-- EVR_CI_WRITE (R489). -/
def execEvrCiWrite (ring : RingId) (value : BitVec 32) (s : State) : Host.Outcome State Fault Refusal := .next (s.setCi ring.val value.toNat)

/-- EN goes from 0 to 1 (R489): PI and CI become 0, LOST is kept. -/
def State.enableRing (s : State) (r : Nat) : State := ((s.wr Reg.EVR_CTL.EN 1 0 r).wr Reg.EVR_PI.PI 0 0 r).wr Reg.EVR_CI.CI 0 0 r
/-- EVR_ENABLE (R489, R495): a write of EVR_CTL with EN = 1. BASE and SIZE ignore it while EN = 1. -/
def execEvrEnable (ring : RingId) (base : BitVec 40) (size : BitVec 4) (s : State) : Host.Outcome State Fault Refusal :=
  let r := ring.val
  .next (if s.rd Reg.EVR_CTL.EN 0 r = 1 then s
    else ((s.wr Reg.EVR_CTL.BASE base.toNat 0 r).wr Reg.EVR_CTL.SIZE size.toNat 0 r).enableRing r)

end Sys2Proof.Machine
end

