-- ==== Sys2Proof/Machine/Telemetry.lean ====
section
/-! DEFINITION. Power entry, SMBus telemetry and test access (R508-R511, R513). What the module drives out on SMB_DAT in a transfer is
kept in `readData`. -/

namespace Sys2Proof.Machine

/-! ### Power entry (R513) -/

/-- STUD_LOST (R513): at a bell, a pair below 38 V while the input bus stays in range. -/
def execStudLost (pair : Fin 4) (volts : BitVec 16) (s : State) : Host.Outcome State Fault Refusal :=
  let p := pair.val
  if s.now % 1024 ≠ 0 ∨ !s.stRuns ∨ 380 ≤ volts.toNat ∨ s.power.lostPairs.contains p then .next s
  else
    let v := (List.range 4).map (fun k => if k = p then volts.toNat else (s.power.studs[k]?).getD 0)
    let det := (List.range 4).foldl (fun a k => a + (v[k]?).getD 0 % 2 ^ 16 * 2 ^ (16 * k)) 0
    .next (({ s with power := { s.power with studs := v, lostPairs := s.power.lostPairs ++ [p] } } : State).raiseSt 0xA5 det)

/-- POWER_LOST (R513): every domain loses its supply at once and no ledger record is written. EN_IN counts as low afterwards: a new
start begins with EN_IN_HIGH (log entry 34). -/
def execPowerLost (s : State) : Host.Outcome State Fault Refusal :=
  .next (s.loseSupply { s.pins with enIn := false, pgOut := false, stReady := false, stHold := false })

/-! ### SMBus (R508-R510) -/

/-- The target answers (R509): from the end of phase 2, in HOLD included, in every state but RETIRED. -/
def State.smbOn (s : State) : Bool := s.stRuns && decide (s.rd Reg.BOOT_STAT.PHASE ≠ 0) && decide (s.lc ≠ 4)
/-- Packet error code: CRC-8 with polynomial 0x07 over the bytes of the transfer (PRESUMED from SMBus 3.1, log entry 35). -/
def pecOf (bs : List Byte) : Byte := BitVec.ofNat 8 (checkRun 8 0x07 false 0 bs)
/-- A transfer of the host that the target does not acknowledge. -/
def State.smbNack (s : State) : State := { s with readData := [], trust := { s.trust with smbAck := false } }
/-- A Block Read (R508): the byte count, the bytes, and PEC when the host clocks it. -/
def State.blockRead (s : State) (code : Nat) (pec : Bool) (bs : List Byte) : State :=
  if !s.smbOn then s.smbNack
  else
    let a := s.trust.smbAddr % 128 * 2
    let body := leBytes 1 bs.length ++ bs
    let check := pecOf (leBytes 1 a ++ leBytes 1 code ++ leBytes 1 (a + 1) ++ body)
    { s with readData := body ++ (if pec then [check] else []), trust := { s.trust with smbAck := true } }
/-- The 8 bytes of a register, as R508 copies it. -/
def State.regCopy (s : State) (f : Fld) (i : Nat := 0) (j : Nat := 0) : List Byte := leBytes 8 (s.copyOf f i j)

/-- IDENT (R508). -/
def execIdent (pec : Bool) (s : State) : Host.Outcome State Fault Refusal :=
  .next (s.blockRead 0x01 pec (s.regCopy Reg.BOOT_ID.SERIAL ++ s.regCopy Reg.BOOT_VER.VERSION))
/-- BOOT (R508). -/
def execBoot (pec : Bool) (s : State) : Host.Outcome State Fault Refusal := .next (s.blockRead 0x02 pec (s.regCopy Reg.BOOT_STAT.PHASE))
/-- POWER (R508). -/
def execPower (pec : Bool) (s : State) : Host.Outcome State Fault Refusal := .next (s.blockRead 0x03 pec (s.regCopy Reg.PWR_METER.WATTS))
/-- STUDS (R508). -/
def execStuds (pec : Bool) (s : State) : Host.Outcome State Fault Refusal :=
  .next (s.blockRead 0x04 pec ((List.range 4).flatMap (fun k => leBytes 2 ((s.power.studs[k]?).getD 0))))
/-- TRIP (R508). -/
def execTrip (pec : Bool) (s : State) : Host.Outcome State Fault Refusal := .next (s.blockRead 0x05 pec (s.regCopy Reg.PWR_TRIP.CAUSE))
/-- DOMAINS (R508). -/
def execDomains (pec : Bool) (s : State) : Host.Outcome State Fault Refusal :=
  .next (s.blockRead 0x06 pec ((List.range 19).flatMap (fun d => leBytes 2 (s.copyOf Reg.PWR_DOM.CUR 0 d))))
/-- HOLDTEMP (R508). -/
def execHoldtemp (pec : Bool) (s : State) : Host.Outcome State Fault Refusal :=
  .next (s.blockRead 0x07 pec ((List.range 16).map (fun h => BitVec.ofNat 8 (if s.holdPresent h then s.rd Reg.PWR_HOLD.TJ_MAX 0 h else 0))))
/-- DRAMTEMP (R508). -/
def execDramtemp (pec : Bool) (s : State) : Host.Outcome State Fault Refusal :=
  .next (s.blockRead 0x08 pec ((List.range 48).map (fun t =>
    BitVec.ofNat 8 (if s.tabkoPresent t then max (s.rd Reg.TBK_TEMP.PKG0 t) (s.rd Reg.TBK_TEMP.PKG1 t) else 0))))
/-- OPTTEMP (R508). -/
def execOpttemp (pec : Bool) (s : State) : Host.Outcome State Fault Refusal :=
  .next (s.blockRead 0x09 pec ((List.range 16).map (fun p => BitVec.ofNat 8 (if s.portPresent p then s.rd Reg.BLN_OPTICS.TEMP p else 0))))
/-- LEDGER (R508). -/
def execLedger (pec : Bool) (s : State) : Host.Outcome State Fault Refusal := .next (s.blockRead 0x0A pec s.counterBlock)
/-- SMB_OTHER_COMMAND (R509): a code outside the table returns a byte count of 0; a code of the table has a row of its own. -/
def execSmbOtherCommand (code : BitVec 8) (pec : Bool) (s : State) : Host.Outcome State Fault Refusal :=
  .next (if 1 ≤ code.toNat ∧ code.toNat ≤ 10 then s else s.blockRead code.toNat pec [])
/-- SMB_WRITE (R509): NACKed at the first data byte; nothing of the module changes. -/
def execSmbWrite (_code : BitVec 8) (s : State) : Host.Outcome State Fault Refusal := .next s.smbNack

/-- SMBALERT_N is driven low (R510). -/
def State.smbAlert (s : State) : Bool := decide (s.rd Reg.PWR_TRIP.VALID = 1) || s.pins.stHold
/-- ALERT_RESPONSE (R510): the target answers with its own address, in bits 7 to 1 of the byte. -/
def execAlertResponse (pec : Bool) (s : State) : Host.Outcome State Fault Refusal :=
  .next (if s.smbOn && s.smbAlert then
      let b := leBytes 1 (s.trust.smbAddr % 128 * 2)
      { s with readData := b ++ (if pec then [pecOf (leBytes 1 0x19 ++ b)] else []), trust := { s.trust with smbAck := true } }
    else s.smbNack)

/-! ### Test access (R511) -/

/-- The identity the IDCODE register holds. -/
def idcodeWord : Nat := 0x1A9ED56B
/-- IDCODE (R511). -/
def execIdcode (s : State) : Host.Outcome State Fault Refusal :=
  .next { s with readData := leBytes 4 idcodeWord, trust := { s.trust with tapBypass := false } }
/-- BYPASS (R511): also the effect of every instruction not available in the state in force. -/
def execBypass (s : State) : Host.Outcome State Fault Refusal := .next { s with readData := [], trust := { s.trust with tapBypass := true } }
/-- TAP_RESET (R511): the TAP selects IDCODE again (PRESUMED from IEEE 1149.1, log entry 35). -/
def execTapReset (s : State) : Host.Outcome State Fault Refusal := .next { s with trust := { s.trust with tapBypass := false } }

end Sys2Proof.Machine
end

