-- ==== Sys2Proof/Machine/Window.lean ====
section
/-! DEFINITION. A write of a register with all it starts (R12, R13, R397), and the exported window (R397, R33-R35, R125, R135, R289, R297). -/

namespace Sys2Proof.Machine

/-! ### What a write of a register starts -/

/-- The state a command leads to. -/
def State.after (s : State) (f : State → Host.Outcome State Fault Refusal) : State :=
  match f s with
  | .next t => t
  | _ => s

/-- The requester's write of a field counts (R12, R117, R130). -/
def mayTrigger (who : Requester) (f : Fld) (i : Nat) : Bool :=
  match who with
  | .steading => true
  | .companion => !steadingOnly f && !gateReg f
  | .hand c => decide (f.blk = .core) && decide (i = c.val) && !steadingOnly f

/-- A write of TLY_BIND_n from outside (R88): it holds a hand that runs on; a core that is halted or held takes it behind what it
waits for (DEDUCED, log entry 36). -/
def State.writeTlyBind (s : State) (core n : Nat) (v : Word) : State :=
  let x := s.core core
  if s.rd Reg.HND_STAT.HALTED core = 0 ∧ x.hold = .none ∧ x.binds = [] then s.tlyBindHold core n v
  else
    let s1 := s.modCore core (fun c => { c with binds := c.binds ++ [(n, v)] })
    if x.binds = [] then s1.bindNext core else s1

/-- Command bits of core registers: `x` is the field's part of the value, `v` the value. One write of several bits performs them from
the lowest, HND_CTL's START before its STOP (DESIGN CHOICE, log entry 70). -/
def State.coreTrigger (s : State) (f : Fld) (i j x v : Nat) : State :=
  let c : CoreId := Fin.ofNat 81920 i
  let d : DrillId := Fin.ofNat 4 j
  if f = Reg.GATE_GRANT.DEST then s.grantGate i j (bits v 0 17) (bits v 24 8)
  else if f = Reg.GATE_OP.OPEN then (if v % 4 = 3 then s else s.writeGateOp i j v)
  else if f = Reg.TLY_BIND.TALLY_ID then s.writeTlyBind i j (BitVec.ofNat 64 v)
  else if x ≠ 1 then s
  else if f = Reg.ARR_REPAIR.COMMIT then s.after (execArrRepairCommit c)
  else if f = Reg.HND_CTL.START then s.after (execStart c)
  else if f = Reg.HND_CTL.STOP then s.after (execStop c)
  else if f = Reg.SP_CLASS.COMMIT then s.after (execSpClassCommit c)
  else if f = Reg.SP_WIPE.START then s.after (execWipeStart c)
  else if f = Reg.DRL_RUN.RESUME then s.after (execResume c d)
  else if f = Reg.DRL_RUN.FAIL then s.after (execFail c d)
  else if f = Reg.DRL_RUN.ABORT then s.after (execAbort c d)
  else if f = Reg.DRL_CFG.COMMIT then s.after (execDrlCfgCommit c)
  else s
/-- Command bits of the gauntlet and of the flash (R440, R447, R458, R461-R465). -/
def State.bootTrigger (s : State) (f : Fld) (x : Nat) : State :=
  if f = Reg.GNT_CTL.OP then
    (if x = 1 then s.password else if x = 2 then s.challenge else if x = 3 then s.respond else if x = 4 then s.gntClose
     else if x = 5 then s.setCred else s)
  else if f = Reg.LC_CMD.OP then (if x = 1 then s.seal else if x = 2 then s.retireCmd else s)
  else if x ≠ 1 then s
  else if f = Reg.BOOT_LOAD_CTL.GO then s.loadStart
  else if f = Reg.BOOT_LOAD_CTL.RESTART then s.after execRestart
  else if f = Reg.ATT_CTL.GO then s.quoteGo
  else s
/-- Command bits and counted writes of the steading's registers. -/
def State.steadingTrigger (s : State) (f : Fld) (j x v : Nat) : State :=
  if f = Reg.FALLOW_EDIT.SET then
    (if bits v 17 2 = 1 ∧ bits v 0 17 < 87040 then s.fallowSet (bits v 0 17)
     else if bits v 17 2 = 2 ∧ bits v 0 17 < 87040 then s.fallowClear (bits v 0 17) else s)
  else if f = Reg.EVR_CTL.EN then
    (if x = 0 then s.wr f 0 0 j else if s.rd f 0 j = 1 then s else s.enableRing j)
  else if f = Reg.EVR_CI.CI then s.setCi j x
  else if f = Reg.LED_SEL.SEQ then s.selectRecord x
  else if f = Reg.YEP_WATCH_B.EN then s.after (if x = 1 then execWatchEnable (Fin.ofNat 64 j) else execWatchDisable (Fin.ofNat 64 j))
  else if f = Reg.GLN_CTL.HOLD then (if x = 0 ∧ !(s.encl j).notices.isEmpty then s.sendNotices j else s)
  else if x ≠ 1 then s
  else if f = Reg.FUR_SEG.COMMIT then s.after (execFurSegCommit (Fin.ofNat 256 j))
  else if f = Reg.FUR_RUN.START then s.after (execFurRunStart (Fin.ofNat 256 j))
  else if f = Reg.FUR_RUN.STOP then s.after (execFurRunStop (Fin.ofNat 256 j))
  else if f = Reg.REF_CTL.SELECT then s.after execSelect
  else if f = Reg.YEP_CTL.SPACE_COMMIT then s.after execSpaceCommit
  else if f = Reg.YK_GO.COMMIT then s.ykCommit
  else if f = Reg.BIST_CMD.GO then s.bistGo
  else if f = Reg.FLT_SPARE.GO then s.spareGo (bits v 0 8) (bits v 8 4)
  else s
/-- Command bits of ports, floors and check-value units. -/
def State.unitTrigger (s : State) (f : Fld) (i j x : Nat) : State :=
  if f = Reg.BLN_CTL.EN then (if s.rd f i = x then s else s.after (execBlnEn (Fin.ofNat 16 i) (decide (x = 1))))
  else if x ≠ 1 then s
  else if f = Reg.BLN_CTL.RETRAIN then s.after (execRetrain (Fin.ofNat 16 i))
  else if f = Reg.FLR_RING.COMMIT then s.after (execFlrRingCommit (Fin.ofNat 2 i) (Fin.ofNat 16 j))
  else if f = Reg.FWD_ID.COMMIT then s.after (execFwdIdCommit (Fin.ofNat 2 i))
  else if f = Reg.FWD_CTL.COMMIT then s.after (execFwdCtlCommit (Fin.ofNat 2 i))
  else if f = Reg.CVU_CTL.GO then s.cvuGo (i / 4) (i % 4)
  else if f = Reg.CVU_CTL.ABORT then s.cvuAbort i
  else s

/-- What a write of a value to one field starts. -/
def State.trigger (s : State) (who : Requester) (v : Nat) (p : Fld × Nat × Nat) : State :=
  let f := p.1
  let x := bits v f.lo f.width
  if !mayTrigger who f p.2.1 then s
  else match f.blk with
    | .core => s.coreTrigger f p.2.1 p.2.2 x v
    | .boot => s.bootTrigger f x
    | .port | .floor | .cvu => s.unitTrigger f p.2.1 p.2.2 x
    | _ => s.steadingTrigger f p.2.2 x v

/-- A write of a register whole (R12-R15, R35): its fields take their values, then what the write starts happens. -/
def State.regWrite (s : State) (who : Requester) (a v : Nat) : State :=
  match locate a with
  | none => s
  | some (b, i) =>
    if !s.unitPresent b i || (decide (b = .core) && s.fallow i && decide (who ≠ .steading)) || (decide (b = .floor) && s.floorOff i) then s
    else (fieldsAt a).foldl (fun t p => t.trigger who v p) (s.writeReg who a v)

/-- REGISTER_WRITE (R12). -/
def execRegisterWrite (who : Requester) (mpa : BitVec 48) (value : Word) (s : State) : Host.Outcome State Fault Refusal :=
  .next (s.regWrite who mpa.toNat value.toNat)

/-! ### The window (R397) -/

/-- Addresses of the CSR ranges of R33. -/
def csrMapped (a : Nat) : Bool :=
  (decide (0x200000000000 ≤ a) && decide (a < 0x200002000000)) || (decide (0x200010000000 ≤ a) && decide (a < 0x200024000000)) ||
  (decide (0x200040000000 ≤ a) && decide (a < 0x200043000000)) || (decide (0x200050000000 ≤ a) && decide (a < 0x200051000000)) ||
  (decide (0x200060000000 ≤ a) && decide (a < 0x200061000000)) || (decide (0x200070000000 ≤ a) && decide (a < 0x200071000000))

/-- What an address reaches through the window. -/
inductive Reached where
  | csr
  | scratchpad (core off : Nat)
  | slow (tabko off : Nat)
  | nothing
  deriving DecidableEq, Repr

/-- R33, R34: the target of an address. -/
def State.reach (s : State) (a : Nat) : Reached :=
  if csrMapped a then .csr
  else if 0x100000000000 ≤ a ∧ a < 0x100800000000 then
    let col := a / 2 ^ 18 % 512
    let core := coreAt (bits a 27 8) col
    if 320 ≤ col ∨ !s.corePresent core then .nothing else .scratchpad core (a % 2 ^ 18)
  else match s.tabkoOf a with
    | some t => .slow t (a - s.spanBase t)
    | none => .nothing

/-- Answer to a window request: WIN_DATA 0x23 or WIN_DONE 0x24. -/
def State.winAnswer (s : State) (opc tag a status : Nat) (data : List Byte) : State := s.ySend ⟨opc, tag, a, status, 0, 0, 0, data⟩
/-- Bytes at their places in a line of zeros. -/
def inLine (a : Nat) (bs : List Byte) : List Byte := List.replicate (a % 64) 0 ++ bs ++ List.replicate (64 - a % 64 - bs.length) 0
/-- A refused request that R34 answers: STATUS 0x02, zero data, ADDR_UNMAPPED. -/
def State.winUnmapped (s : State) (opc tag a : Nat) : State := (s.raiseSt 0x02 a).winAnswer opc tag a 0x02 (if opc = 0x23 then List.replicate 64 0 else [])
/-- A refusal by STATUS. -/
def State.winRefused (s : State) (opc tag a status : Nat) : State := s.winAnswer opc tag a status (if opc = 0x23 then List.replicate 64 0 else [])
/-- The window serves nothing at the address as things stand: YEP_WIN.EN = 0 outside HOLD (no event), or an MPA that HOLD does not serve. -/
def State.winShut (s : State) (opc tag a : Nat) : Option State :=
  if s.pins.stHold then (if 0x200000E00000 ≤ a ∧ a < 0x200000E01000 then none else some (s.winUnmapped opc tag a))
  else if s.rd Reg.YEP_WIN.EN = 0 then some (s.winRefused opc tag a 0x02) else none

/-- STATUS that refuses an access to a core's CSRs or scratchpad (R35, R135, R136), 0 for none. -/
def State.coreStatus (s : State) (core : Nat) (pad : Bool) : Nat :=
  if s.fallow core then 0x21 else if pad && !s.padPermits .companion core then 0x43 else 0
/-- STATUS that refuses an access to a core's CSR. -/
def State.csrStatus (s : State) (a : Nat) : Nat :=
  match locate a with
  | some (.core, i) => if s.corePresent i then s.coreStatus i false else 0
  | _ => 0
/-- STATUS that refuses an access to the slow tier (R397, R297), 0 for none. -/
def State.slowStatus (s : State) (t off : Nat) (write : Bool) : Nat :=
  if s.mpState ≠ 0 ∨ s.rd Reg.TBK_STAT.INIT_BUSY t = 1 ∨ s.rd Reg.TBK_STAT.DOWN t = 1 then 0x66
  else match s.regionOf t (off / 65536) with
    | some r =>
      let inspect := decide (s.rd Reg.ENCL_STATE.STATE (j := s.rd Reg.TBK_REGION.ENCL t r) = 5)
      if s.rd Reg.TBK_REGION.CLOSED t r = 1 ∧ (write ∨ !inspect) then 0x67 else 0
    | none => 0
/-- A refusal of the slow tier, with SLOW_DENIED where a CLOSED region refuses. -/
def State.slowRefused (s : State) (opc tag a t status : Nat) : State :=
  (if status = 0x67 then s.raiseUnit 0x67 skTabko t a else s).winRefused opc tag a status

/-- The code words of a scratchpad that some bytes touch and that cannot be corrected; with `part`, only those not covered whole. -/
def State.lostWords (s : State) (core : Nat) (offs : List Nat) (part : Bool) : List Nat :=
  ((offs.map (s.codeWord core)).eraseDups).filter (fun cw => decide (s.wordErr core cw = 2) &&
    !(part && (List.range (s.codeLen core cw)).all (fun k => offs.contains (cw + k))))

/-- A window read of `n` bytes (R397). -/
def State.windowRead (s : State) (tag a n : Nat) : State :=
  let opc := 0x23
  match s.winShut opc tag a with
  | some t => t
  | none =>
    if n = 0 then s.winAnswer opc tag a 0 []
    else if 64 < a % 64 + n then s.winUnmapped opc tag a
    else match s.reach a with
      | .nothing => s.winUnmapped opc tag a
      | .csr =>
        if n ≠ 8 ∨ a % 8 ≠ 0 then s.winUnmapped opc tag a
        else if s.csrStatus a ≠ 0 then s.winRefused opc tag a (s.csrStatus a)
        else (s.afterRead a).winAnswer opc tag a 0 (inLine a (leBytes 8 (s.readReg a)))
      | .scratchpad core off =>
        let st := s.coreStatus core true
        if st = 0x43 then (s.padDenied .companion core off).winRefused opc tag a st
        else if st ≠ 0 then s.winRefused opc tag a st
        else
          let lost := s.lostWords core ((List.range n).map (fun k => off + k)) false
          let r := s.spRead core off n 7
          if lost.isEmpty then r.2.winAnswer opc tag a 0 (inLine a r.1) else r.2.winRefused opc tag a 0x42
      | .slow t off =>
        let st := s.slowStatus t off false
        if st ≠ 0 then s.slowRefused opc tag a t st
        else
          let r := s.dramRead t off n
          let u := (s.touchGranule t (off / 65536)).report t 2 r.2
          if r.2.bad.isEmpty then u.winAnswer opc tag a 0 (inLine a r.1) else u.winRefused opc tag a 0x62

/-- The bytes of a masked line: place and value. -/
def maskedBytes (mask : Nat) (line : List Byte) : List (Nat × Byte) :=
  ((List.range 64).filter (fun k => decide (bits mask k 1 = 1))).map (fun k => (k, line.getD k 0))

/-- A write of some bytes of one slow-tier block (R289): a part of a block that cannot be corrected is discarded. -/
def State.windowSlow (s : State) (opc tag a t off : Nat) (bs : List (Nat × Byte)) : State :=
  let u := s.touchGranule t (off / 65536)
  let old := s.dramRead t off 64
  let whole := decide (bs.length = 64)
  if !whole && !old.2.bad.isEmpty then (u.report t 2 old.2).winRefused opc tag a 0x62
  else
    let new := (List.range 64).map (fun k => match bs.find? (fun p => decide (p.1 = k)) with
      | some p => p.2
      | none => (old.1[k]?).getD 0)
    let v := (u.dramWrite t off new).1
    (if whole then v else v.symbols t old.2.corr).winAnswer opc tag a 0 []

/-- A window write (R397); a CSR write is answered and then acts. -/
def State.windowWrite (s : State) (tag a mask : Nat) (line : List Byte) : State :=
  let opc := 0x24
  let bs := maskedBytes mask line
  let base := a / 64 * 64
  match s.winShut opc tag a with
  | some t => t
  | none =>
    match bs with
    | [] => s.winAnswer opc tag a 0 []
    | (k, _) :: _ =>
      match s.reach (base + k) with
      | .nothing => s.winUnmapped opc tag a
      | .csr =>
        if k % 8 ≠ 0 ∨ bs.map Prod.fst ≠ (List.range 8).map (fun b => k + b) then s.winUnmapped opc tag a
        else if s.csrStatus (base + k) ≠ 0 then s.winRefused opc tag a (s.csrStatus (base + k))
        else (s.winAnswer opc tag a 0 []).regWrite .companion (base + k) (leNat (bs.map Prod.snd))
      | .scratchpad core off =>
        let st := s.coreStatus core true
        let wr := bs.map (fun p => (off - k + p.1, p.2))
        let lost := s.lostWords core (wr.map Prod.fst) true
        if st = 0x43 then (s.padDenied .companion core off).winRefused opc tag a st
        else if st ≠ 0 then s.winRefused opc tag a st
        else if lost.isEmpty then (s.spWriteAt core 7 wr).winAnswer opc tag a 0 []
        else (lost.foldl (fun t cw => t.uncorrectable core cw 7) s).winRefused opc tag a 0x42
      | .slow t off =>
        let st := s.slowStatus t off true
        if st ≠ 0 then s.slowRefused opc tag a t st else s.windowSlow opc tag a t (off - k) bs

/-- The first byte that a window request moves, if it moves any. -/
def WinReq.first : WinReq → Option Nat
  | .rd _ a n => if n = 0 then none else some a
  | .wr _ a m _ => ((List.range 64).find? (fun k => decide (bits m k 1 = 1))).map (fun k => a / 64 * 64 + k)
/-- The request needs a harrow slot of a Tabko whose wheel stands (R303, R397). -/
def State.winWaits (s : State) (r : WinReq) : Bool :=
  match (if s.pins.stHold ∨ s.rd Reg.YEP_WIN.EN = 0 then none else r.first).map s.reach with
  | some (.slow t _) => decide (s.rd Reg.TBK_STAT.RECAL_BUSY t = 1) && decide (s.mpState = 0) && decide (s.rd Reg.TBK_STAT.DOWN t = 0)
  | _ => false
/-- A window request is performed (R397). -/
def State.winServe (s : State) : WinReq → State
  | .rd tag a n => s.windowRead tag a n
  | .wr tag a m line => s.windowWrite tag a m line
/-- Waiting window requests are performed in order, up to one that has to wait (R397). -/
def State.winDrain (s : State) : State :=
  if s.yosal.winq.isEmpty then s
  else
    let go := s.yosal.winq.foldl (fun (a : State × List WinReq) r => if !a.2.isEmpty || a.1.winWaits r then (a.1, a.2 ++ [r]) else (a.1.winServe r, []))
      (s.modYosal (fun y => { y with winq := [] }), [])
    go.1.modYosal (fun y => { y with winq := go.2 })
/-- A window request comes (R397): requests are performed one at a time, in arrival order. -/
def State.winTake (s : State) (r : WinReq) : State :=
  if !s.yUp then s
  else if s.yosal.winq.isEmpty && !s.winWaits r then s.winServe r
  else (s.modYosal (fun y => { y with winq := y.winq ++ [r] })).winDrain

/-- WIN_RD (R397). -/
def execWinRd (tag : BitVec 12) (mpa : BitVec 48) (bytes : BitVec 7) (s : State) : Host.Outcome State Fault Refusal :=
  .next (s.winTake (.rd tag.toNat mpa.toNat bytes.toNat))
/-- WIN_WR (R397). -/
def execWinWr (tag : BitVec 12) (mpa : BitVec 48) (mask : BitVec 64) (line : List (BitVec 8)) (s : State) : Host.Outcome State Fault Refusal :=
  .next (s.winTake (.wr tag.toNat mpa.toNat mask.toNat line))

/-- TABKO_RETRAIN_END (R303): the retraining ends, and window requests that waited for the wheel are performed. -/
def execTabkoRetrainEnd (tabko : TabkoId) (failed : Bool) (s : State) : Host.Outcome State Fault Refusal :=
  .next (s.retrainEnd tabko.val failed).winDrain

end Sys2Proof.Machine
end

