-- ==== Sys2Proof/Machine/Dispatch.lean ====
section
/-! DEFINITION. Which meaning each command has. -/

namespace Sys2Proof.Machine

def exec (i : Instr) (s : State) : Host.Outcome State Fault Refusal :=
  match i with
  | .registerWrite who mpa value => Sys2Proof.Machine.execRegisterWrite who mpa value s
  | .gateStatRead core gate => Sys2Proof.Machine.execGateStatRead core gate s
  | .gcrLostRead core => Sys2Proof.Machine.execGcrLostRead core s
  | .lagCountRead croft => Sys2Proof.Machine.execLagCountRead croft s
  | .add core w => Sys2Proof.Machine.execAdd core w s
  | .sub core w => Sys2Proof.Machine.execSub core w s
  | .and core w => Sys2Proof.Machine.execAnd core w s
  | .or core w => Sys2Proof.Machine.execOr core w s
  | .xor core w => Sys2Proof.Machine.execXor core w s
  | .shl core w => Sys2Proof.Machine.execShl core w s
  | .shr core w => Sys2Proof.Machine.execShr core w s
  | .sra core w => Sys2Proof.Machine.execSra core w s
  | .slt core w => Sys2Proof.Machine.execSlt core w s
  | .sltu core w => Sys2Proof.Machine.execSltu core w s
  | .mul core w => Sys2Proof.Machine.execMul core w s
  | .addi core w => Sys2Proof.Machine.execAddi core w s
  | .andi core w => Sys2Proof.Machine.execAndi core w s
  | .ori core w => Sys2Proof.Machine.execOri core w s
  | .shli core w => Sys2Proof.Machine.execShli core w s
  | .shri core w => Sys2Proof.Machine.execShri core w s
  | .srai core w => Sys2Proof.Machine.execSrai core w s
  | .lih core w => Sys2Proof.Machine.execLih core w s
  | .ld core w => Sys2Proof.Machine.execLd core w s
  | .st core w => Sys2Proof.Machine.execSt core w s
  | .ldw core w => Sys2Proof.Machine.execLdw core w s
  | .stw core w => Sys2Proof.Machine.execStw core w s
  | .csrr core w => Sys2Proof.Machine.execCsrr core w s
  | .csrw core w => Sys2Proof.Machine.execCsrw core w s
  | .beq core w => Sys2Proof.Machine.execBeq core w s
  | .bne core w => Sys2Proof.Machine.execBne core w s
  | .blt core w => Sys2Proof.Machine.execBlt core w s
  | .bge core w => Sys2Proof.Machine.execBge core w s
  | .bltu core w => Sys2Proof.Machine.execBltu core w s
  | .jal core w => Sys2Proof.Machine.execJal core w s
  | .jr core w => Sys2Proof.Machine.execJr core w s
  | .vsetvl core w => Sys2Proof.Machine.execVsetvl core w s
  | .halt core w => Sys2Proof.Machine.execHalt core w s
  | .vadd core w => Sys2Proof.Machine.execVadd core w s
  | .vsub core w => Sys2Proof.Machine.execVsub core w s
  | .vadds core w => Sys2Proof.Machine.execVadds core w s
  | .vsubs core w => Sys2Proof.Machine.execVsubs core w s
  | .vmuls core w => Sys2Proof.Machine.execVmuls core w s
  | .vmul core w => Sys2Proof.Machine.execVmul core w s
  | .vmin core w => Sys2Proof.Machine.execVmin core w s
  | .vmax core w => Sys2Proof.Machine.execVmax core w s
  | .vand core w => Sys2Proof.Machine.execVand core w s
  | .vor core w => Sys2Proof.Machine.execVor core w s
  | .vxor core w => Sys2Proof.Machine.execVxor core w s
  | .vandn core w => Sys2Proof.Machine.execVandn core w s
  | .vshl core w => Sys2Proof.Machine.execVshl core w s
  | .vshr core w => Sys2Proof.Machine.execVshr core w s
  | .vsra core w => Sys2Proof.Machine.execVsra core w s
  | .vshls core w => Sys2Proof.Machine.execVshls core w s
  | .vsrar core w => Sys2Proof.Machine.execVsrar core w s
  | .vceq core w => Sys2Proof.Machine.execVceq core w s
  | .vclt core w => Sys2Proof.Machine.execVclt core w s
  | .vcle core w => Sys2Proof.Machine.execVcle core w s
  | .vsel core w => Sys2Proof.Machine.execVsel core w s
  | .vfadd core w => Sys2Proof.Machine.execVfadd core w s
  | .vfsub core w => Sys2Proof.Machine.execVfsub core w s
  | .vfmul core w => Sys2Proof.Machine.execVfmul core w s
  | .vfma core w => Sys2Proof.Machine.execVfma core w s
  | .vfnma core w => Sys2Proof.Machine.execVfnma core w s
  | .vfmin core w => Sys2Proof.Machine.execVfmin core w s
  | .vfmax core w => Sys2Proof.Machine.execVfmax core w s
  | .vfsgn core w => Sys2Proof.Machine.execVfsgn core w s
  | .vfabs core w => Sys2Proof.Machine.execVfabs core w s
  | .vfneg core w => Sys2Proof.Machine.execVfneg core w s
  | .vexp2 core w => Sys2Proof.Machine.execVexp2 core w s
  | .vlog2 core w => Sys2Proof.Machine.execVlog2 core w s
  | .vrcp core w => Sys2Proof.Machine.execVrcp core w s
  | .vrsq core w => Sys2Proof.Machine.execVrsq core w s
  | .vcvt core w => Sys2Proof.Machine.execVcvt core w s
  | .vmxq core w => Sys2Proof.Machine.execVmxq core w s
  | .vmxe core w => Sys2Proof.Machine.execVmxe core w s
  | .vperm core w => Sys2Proof.Machine.execVperm core w s
  | .vrsum core w => Sys2Proof.Machine.execVrsum core w s
  | .vrmax core w => Sys2Proof.Machine.execVrmax core w s
  | .vins core w => Sys2Proof.Machine.execVins core w s
  | .vext core w => Sys2Proof.Machine.execVext core w s
  | .vld core w => Sys2Proof.Machine.execVld core w s
  | .vst core w => Sys2Proof.Machine.execVst core w s
  | .amma core w => Sys2Proof.Machine.execAmma core w s
  | .adrain core w => Sys2Proof.Machine.execAdrain core w s
  | .aemit core w => Sys2Proof.Machine.execAemit core w s
  | .afence core rsv => Sys2Proof.Machine.execAfence core rsv s
  | .afenceRelease core => Sys2Proof.Machine.execAfenceRelease core s
  | .arrayDispatch core => Sys2Proof.Machine.execArrayDispatch core s
  | .arrayEngineStart core readOut sub => Sys2Proof.Machine.execArrayEngineStart core readOut sub s
  | .tileVerdict core cells sub => Sys2Proof.Machine.execTileVerdict core cells sub s
  | .tileRerunVerdict core cells => Sys2Proof.Machine.execTileRerunVerdict core cells s
  | .arrayCool core => Sys2Proof.Machine.execArrayCool core s
  | .arrRepairCommit core => Sys2Proof.Machine.execArrRepairCommit core s
  | .tlyBind core n value => Sys2Proof.Machine.execTlyBind core n value s
  | .tlyBindApply core => Sys2Proof.Machine.execTlyBindApply core s
  | .finj core w sub => Sys2Proof.Machine.execFinj core w sub s
  | .fcap core w sub => Sys2Proof.Machine.execFcap core w sub s
  | .fwait core w sub => Sys2Proof.Machine.execFwait core w sub s
  | .fwaitRelease core sub => Sys2Proof.Machine.execFwaitRelease core sub s
  | .furrowEntryRun core laneB bad sub => Sys2Proof.Machine.execFurrowEntryRun core laneB bad sub s
  | .furrowCaptureRun core sub => Sys2Proof.Machine.execFurrowCaptureRun core sub s
  | .furSegCommit seg => Sys2Proof.Machine.execFurSegCommit seg s
  | .furRunStart seg => Sys2Proof.Machine.execFurRunStart seg s
  | .furRunStop seg => Sys2Proof.Machine.execFurRunStop seg s
  | .segmentRun seg => Sys2Proof.Machine.execSegmentRun seg s
  | .segmentStop seg => Sys2Proof.Machine.execSegmentStop seg s
  | .segmentHoldStart seg => Sys2Proof.Machine.execSegmentHoldStart seg s
  | .segmentHoldEnd seg => Sys2Proof.Machine.execSegmentHoldEnd seg s
  | .darm core w => Sys2Proof.Machine.execDarm core w s
  | .dwait core w => Sys2Proof.Machine.execDwait core w s
  | .dwaitPendingFree core w => Sys2Proof.Machine.execDwaitPendingFree core w s
  | .dwaitRelease core => Sys2Proof.Machine.execDwaitRelease core s
  | .descriptorCheck core d => Sys2Proof.Machine.execDescriptorCheck core d s
  | .transferForm core d => Sys2Proof.Machine.execTransferForm core d s
  | .transferComplete core d tag => Sys2Proof.Machine.execTransferComplete core d tag s
  | .drlCfgCommit core => Sys2Proof.Machine.execDrlCfgCommit core s
  | .resume core d => Sys2Proof.Machine.execResume core d s
  | .fail core d => Sys2Proof.Machine.execFail core d s
  | .abort core d => Sys2Proof.Machine.execAbort core d s
  | .tread core w => Sys2Proof.Machine.execTread core w s
  | .twait core w => Sys2Proof.Machine.execTwait core w s
  | .twaitRelease core => Sys2Proof.Machine.execTwaitRelease core s
  | .ssend core w => Sys2Proof.Machine.execSsend core w s
  | .swait core w => Sys2Proof.Machine.execSwait core w s
  | .swaitRelease core => Sys2Proof.Machine.execSwaitRelease core s
  | .sbar core w => Sys2Proof.Machine.execSbar core w s
  | .stepRelease encl => Sys2Proof.Machine.execStepRelease encl s
  | .start core => Sys2Proof.Machine.execStart core s
  | .stop core => Sys2Proof.Machine.execStop core s
  | .scrubRead core found => Sys2Proof.Machine.execScrubRead core found s
  | .scrubWriteback core => Sys2Proof.Machine.execScrubWriteback core s
  | .spClassCommit core => Sys2Proof.Machine.execSpClassCommit core s
  | .reEncodingDone core => Sys2Proof.Machine.execReEncodingDone core s
  | .wipeStart core => Sys2Proof.Machine.execWipeStart core s
  | .wipeDone core => Sys2Proof.Machine.execWipeDone core s
  | .inspectionCopyDone core => Sys2Proof.Machine.execInspectionCopyDone core s
  | .gateCommit core gate => Sys2Proof.Machine.execGateCommit core gate s
  | .gateOpen core gate => Sys2Proof.Machine.execGateOpen core gate s
  | .gateClose core gate => Sys2Proof.Machine.execGateClose core gate s
  | .gateGrant core gate dest units => Sys2Proof.Machine.execGateGrant core gate dest units s
  | .grant core => Sys2Proof.Machine.execGrant core s
  | .packetDeparture core port sub bad => Sys2Proof.Machine.execPacketDeparture core port sub bad s
  | .meshCreditReturn core side vc => Sys2Proof.Machine.execMeshCreditReturn core side vc s
  | .headlandRelease croft missing => Sys2Proof.Machine.execHeadlandRelease croft missing s
  | .gateWr core beats => Sys2Proof.Machine.execGateWr core beats s
  | .gateAck dest => Sys2Proof.Machine.execGateAck dest s
  | .mcWr core place beats => Sys2Proof.Machine.execMcWr core place beats s
  | .mcSlotEject core slot => Sys2Proof.Machine.execMcSlotEject core slot s
  | .mcBranchDrop core slot => Sys2Proof.Machine.execMcBranchDrop core slot s
  | .mcAck core => Sys2Proof.Machine.execMcAck core s
  | .mcMiss core => Sys2Proof.Machine.execMcMiss core s
  | .sync core => Sys2Proof.Machine.execSync core s
  | .rdRsp core => Sys2Proof.Machine.execRdRsp core s
  | .rdReq tabko => Sys2Proof.Machine.execRdReq tabko s
  | .wrReq tabko => Sys2Proof.Machine.execWrReq tabko s
  | .portAdmission tabko => Sys2Proof.Machine.execPortAdmission tabko s
  | .readAnswer tabko linkFail => Sys2Proof.Machine.execReadAnswer tabko linkFail s
  | .writeAck tabko linkFail => Sys2Proof.Machine.execWriteAck tabko linkFail s
  | .wrAck dest => Sys2Proof.Machine.execWrAck dest s
  | .patrolRead tabko upsets => Sys2Proof.Machine.execPatrolRead tabko upsets s
  | .granuleWipe tabko => Sys2Proof.Machine.execGranuleWipe tabko s
  | .tabkoRetrainStart tabko => Sys2Proof.Machine.execTabkoRetrainStart tabko s
  | .tabkoRetrainEnd tabko failed => Sys2Proof.Machine.execTabkoRetrainEnd tabko failed s
  | .tabkoDown tabko => Sys2Proof.Machine.execTabkoDown tabko s
  | .dramHot tabko temp0 temp1 => Sys2Proof.Machine.execDramHot tabko temp0 temp1 s
  | .landingNotice tabko => Sys2Proof.Machine.execLandingNotice tabko s
  | .updateDone tabko encl => Sys2Proof.Machine.execUpdateDone tabko encl s
  | .sheaf floor row => Sys2Proof.Machine.execSheaf floor row s
  | .sheafMark floor row => Sys2Proof.Machine.execSheafMark floor row s
  | .reEmit core => Sys2Proof.Machine.execReEmit core s
  | .stepClose encl => Sys2Proof.Machine.execStepClose encl s
  | .boundaryFold encl => Sys2Proof.Machine.execBoundaryFold encl s
  | .boundaryChecks encl => Sys2Proof.Machine.execBoundaryChecks encl s
  | .releaseNaming encl ahead => Sys2Proof.Machine.execReleaseNaming encl ahead s
  | .sheafFrameReduce port f => Sys2Proof.Machine.execSheafFrameReduce port f s
  | .sheafFrameDistribute port f => Sys2Proof.Machine.execSheafFrameDistribute port f s
  | .gleanFirstLap port f => Sys2Proof.Machine.execGleanFirstLap port f s
  | .gleanSecondLap port f => Sys2Proof.Machine.execGleanSecondLap port f s
  | .flrRingCommit floor encl => Sys2Proof.Machine.execFlrRingCommit floor encl s
  | .blnEn port en => Sys2Proof.Machine.execBlnEn port en s
  | .retrain port => Sys2Proof.Machine.execRetrain port s
  | .signalDetect port => Sys2Proof.Machine.execSignalDetect port s
  | .codewordLock port => Sys2Proof.Machine.execCodewordLock port s
  | .laneAlign port lanes => Sys2Proof.Machine.execLaneAlign port lanes s
  | .trainingTimeout port => Sys2Proof.Machine.execTrainingTimeout port s
  | .hello port f id install peer version => Sys2Proof.Machine.execHello port f id install peer version s
  | .helloResend port => Sys2Proof.Machine.execHelloResend port s
  | .portDown port noSignal => Sys2Proof.Machine.execPortDown port noSignal s
  | .frameSend port => Sys2Proof.Machine.execFrameSend port s
  | .frameForward port f gleaner badCrc => Sys2Proof.Machine.execFrameForward port f gleaner badCrc s
  | .credit port f => Sys2Proof.Machine.execCredit port f s
  | .creditSend port => Sys2Proof.Machine.execCreditSend port s
  | .nak port f => Sys2Proof.Machine.execNak port f s
  | .replayTimeout port => Sys2Proof.Machine.execReplayTimeout port s
  | .beacon port f => Sys2Proof.Machine.execBeacon port f s
  | .beaconSend port => Sys2Proof.Machine.execBeaconSend port s
  | .fwdIdCommit floor => Sys2Proof.Machine.execFwdIdCommit floor s
  | .fwdCtlCommit floor => Sys2Proof.Machine.execFwdCtlCommit floor s
  | .yrefDetect => Sys2Proof.Machine.execYrefDetect s
  | .yosalTrained width8 => Sys2Proof.Machine.execYosalTrained width8 s
  | .yosalRetrain => Sys2Proof.Machine.execYosalRetrain s
  | .yosalDown => Sys2Proof.Machine.execYosalDown s
  | .flit f corrected crcFail bad => Sys2Proof.Machine.execFlit f corrected crcFail bad s
  | .yosalTimeout tag => Sys2Proof.Machine.execYosalTimeout tag s
  | .data tag status line => Sys2Proof.Machine.execData tag status line s
  | .wrDone tag status => Sys2Proof.Machine.execWrDone tag status s
  | .transRsp tag status pfn size w => Sys2Proof.Machine.execTransRsp tag status pfn size w s
  | .snpInv tag addr => Sys2Proof.Machine.execSnpInv tag addr s
  | .transInv tag scope space page => Sys2Proof.Machine.execTransInv tag scope space page s
  | .winRd tag mpa bytes => Sys2Proof.Machine.execWinRd tag mpa bytes s
  | .winWr tag mpa mask line => Sys2Proof.Machine.execWinWr tag mpa mask line s
  | .signalGapEnd vec => Sys2Proof.Machine.execSignalGapEnd vec s
  | .watchEnable line => Sys2Proof.Machine.execWatchEnable line s
  | .watchDisable line => Sys2Proof.Machine.execWatchDisable line s
  | .spaceCommit => Sys2Proof.Machine.execSpaceCommit s
  | .load encl lot spaceFault => Sys2Proof.Machine.execLoad encl lot spaceFault s
  | .sowingStart encl => Sys2Proof.Machine.execSowingStart encl s
  | .kill encl => Sys2Proof.Machine.execKill encl s
  | .release encl => Sys2Proof.Machine.execRelease encl s
  | .enclosureHalt encl => Sys2Proof.Machine.execEnclosureHalt encl s
  | .enclosureWipesDone encl => Sys2Proof.Machine.execEnclosureWipesDone encl s
  | .resowingDone encl => Sys2Proof.Machine.execResowingDone encl s
  | .heartbeatSend => Sys2Proof.Machine.execHeartbeatSend s
  | .yokeLost => Sys2Proof.Machine.execYokeLost s
  | .heartbeat port f => Sys2Proof.Machine.execHeartbeat port f s
  | .fallow port f => Sys2Proof.Machine.execFallow port f s
  | .fallowWaitTimeout encl => Sys2Proof.Machine.execFallowWaitTimeout encl s
  | .compareScanDone tabko => Sys2Proof.Machine.execCompareScanDone tabko s
  | .compare port f => Sys2Proof.Machine.execCompare port f s
  | .seedData port f => Sys2Proof.Machine.execSeedData port f s
  | .seedState port f => Sys2Proof.Machine.execSeedState port f s
  | .seedDone port f => Sys2Proof.Machine.execSeedDone port f s
  | .abandon => Sys2Proof.Machine.execAbandon s
  | .accept => Sys2Proof.Machine.execAccept s
  | .redistribute => Sys2Proof.Machine.execRedistribute s
  | .takeover => Sys2Proof.Machine.execTakeover s
  | .detach => Sys2Proof.Machine.execDetach s
  | .attach => Sys2Proof.Machine.execAttach s
  | .stateCard => Sys2Proof.Machine.execStateCard s
  | .powerPhaseStart => Sys2Proof.Machine.execPowerPhaseStart s
  | .holdingChangeEnd hold => Sys2Proof.Machine.execHoldingChangeEnd hold s
  | .domainChangeEnd dom => Sys2Proof.Machine.execDomainChangeEnd dom s
  | .opStopBegin hold => Sys2Proof.Machine.execOpStopBegin hold s
  | .opChanged hold => Sys2Proof.Machine.execOpChanged hold s
  | .protectiveTrip cause unit value => Sys2Proof.Machine.execProtectiveTrip cause unit value s
  | .tripDomainOff dom => Sys2Proof.Machine.execTripDomainOff dom s
  | .thermWarn hold temp => Sys2Proof.Machine.execThermWarn hold temp s
  | .stSupplyRemove => Sys2Proof.Machine.execStSupplyRemove s
  | .studLost pair volts => Sys2Proof.Machine.execStudLost pair volts s
  | .powerLost => Sys2Proof.Machine.execPowerLost s
  | .enInHigh volts => Sys2Proof.Machine.execEnInHigh volts s
  | .pgOut volts => Sys2Proof.Machine.execPgOut volts s
  | .rstN => Sys2Proof.Machine.execRstN s
  | .rstNRise selfTest => Sys2Proof.Machine.execRstNRise selfTest s
  | .bootPowerPhase => Sys2Proof.Machine.execBootPowerPhase s
  | .steadingReset => Sys2Proof.Machine.execSteadingReset s
  | .writeThroughGo content => Sys2Proof.Machine.execWriteThroughGo content s
  | .writeThroughDone faults => Sys2Proof.Machine.execWriteThroughDone faults s
  | .restart => Sys2Proof.Machine.execRestart s
  | .quoteGo => Sys2Proof.Machine.execQuoteGo s
  | .ledgerHourly => Sys2Proof.Machine.execLedgerHourly s
  | .seal => Sys2Proof.Machine.execSeal s
  | .retire => Sys2Proof.Machine.execRetire s
  | .password => Sys2Proof.Machine.execPassword s
  | .challenge => Sys2Proof.Machine.execChallenge s
  | .respond => Sys2Proof.Machine.execRespond s
  | .close => Sys2Proof.Machine.execClose s
  | .setCred => Sys2Proof.Machine.execSetCred s
  | .sessionTimeout => Sys2Proof.Machine.execSessionTimeout s
  | .bistGo => Sys2Proof.Machine.execBistGo s
  | .bistEnd failC failT failP cells => Sys2Proof.Machine.execBistEnd failC failT failP cells s
  | .sliceStart => Sys2Proof.Machine.execSliceStart s
  | .sliceEnd pass cells => Sys2Proof.Machine.execSliceEnd pass cells s
  | .fallowSet core => Sys2Proof.Machine.execFallowSet core s
  | .fallowClear core => Sys2Proof.Machine.execFallowClear core s
  | .ledSel seq => Sys2Proof.Machine.execLedSel seq s
  | .fenceIsolate core => Sys2Proof.Machine.execFenceIsolate core s
  | .spareGo croft row => Sys2Proof.Machine.execSpareGo croft row s
  | .spareRowStart => Sys2Proof.Machine.execSpareRowStart s
  | .spareIn => Sys2Proof.Machine.execSpareIn s
  | .ctlTree croft offset => Sys2Proof.Machine.execCtlTree croft offset s
  | .eventRingWrite ring => Sys2Proof.Machine.execEventRingWrite ring s
  | .evrCiWrite ring value => Sys2Proof.Machine.execEvrCiWrite ring value s
  | .evrEnable ring base size => Sys2Proof.Machine.execEvrEnable ring base size s
  | .cvuGo tabko unit => Sys2Proof.Machine.execCvuGo tabko unit s
  | .cvuAbort tabko unit => Sys2Proof.Machine.execCvuAbort tabko unit s
  | .scanDone tabko unit => Sys2Proof.Machine.execScanDone tabko unit s
  | .bell a b crofts ports sens => Sys2Proof.Machine.execBell a b crofts ports sens s
  | .refEdgeLoss ref => Sys2Proof.Machine.execRefEdgeLoss ref s
  | .select => Sys2Proof.Machine.execSelect s
  | .refSwitchSelect drift => Sys2Proof.Machine.execRefSwitchSelect drift s
  | .refSwitch => Sys2Proof.Machine.execRefSwitch s
  | .lossHalt => Sys2Proof.Machine.execLossHalt s
  | .refRelock ref => Sys2Proof.Machine.execRefRelock ref s
  | .ident pec => Sys2Proof.Machine.execIdent pec s
  | .boot pec => Sys2Proof.Machine.execBoot pec s
  | .power pec => Sys2Proof.Machine.execPower pec s
  | .studs pec => Sys2Proof.Machine.execStuds pec s
  | .trip pec => Sys2Proof.Machine.execTrip pec s
  | .domains pec => Sys2Proof.Machine.execDomains pec s
  | .holdtemp pec => Sys2Proof.Machine.execHoldtemp pec s
  | .dramtemp pec => Sys2Proof.Machine.execDramtemp pec s
  | .opttemp pec => Sys2Proof.Machine.execOpttemp pec s
  | .ledger pec => Sys2Proof.Machine.execLedger pec s
  | .smbOtherCommand code pec => Sys2Proof.Machine.execSmbOtherCommand code pec s
  | .smbWrite code => Sys2Proof.Machine.execSmbWrite code s
  | .alertResponse pec => Sys2Proof.Machine.execAlertResponse pec s
  | .idcode => Sys2Proof.Machine.execIdcode s
  | .bypass => Sys2Proof.Machine.execBypass s
  | .tapReset => Sys2Proof.Machine.execTapReset s
  | .runOut croft => Sys2Proof.Machine.execRunOut croft s
  | .badFrame port stomped => Sys2Proof.Machine.execBadFrame port stomped s
  | .nonceExpiry => Sys2Proof.Machine.execNonceExpiry s
  | .bistLimit dom => Sys2Proof.Machine.execBistLimit dom s
  | .scanRead tabko unit => Sys2Proof.Machine.execScanRead tabko unit s
  | .localCopyDone core d => Sys2Proof.Machine.execLocalCopyDone core d s

end Sys2Proof.Machine
end

