-- ==== Sys2Proof/Safety.lean ====
section
/-! DEFINITION. What a run is, what a safe run is (every step of it answers a next state), and the terms in which the
statements speak: what an operation leaves as it was, and when the hand of a core issues its next instruction. -/

namespace Sys2Proof.Machine

/-- `t` is reached from `s` by `n` steps, each answering a next state. -/
def Steps : Nat → State → State → Prop
  | 0, s, t => s = t
  | n + 1, s, t => ∃ u, step s = .next u ∧ Steps n u t

/-- A state from which the next step answers a next state. -/
def SafeNow (s : State) : Prop := ∃ t, step s = .next t

/-- Every register field of `t` is that of `s`, but for the fields whose keys `P` names. -/
def Kept (s t : State) (P : Nat → Prop) : Prop := ∀ k, ¬P k → Store.get t.fields k = Store.get s.fields k

/-- Every byte of memory of `t` is that of `s`, but for the addresses `P` names. -/
def BytesKept (s t : State) (P : Nat → Prop) : Prop := ∀ a, ¬P a → t.byte a = s.byte a

/-- `t` differs from `s` in the listed register fields only: no other register, no byte of memory, no other component. -/
def OnlyFields (s t : State) (ks : List Nat) : Prop :=
  { t with fields := s.fields } = s ∧ Kept s t (fun k => k ∈ ks) ∧ BytesKept s t (fun _ => False)

/-- The hand of a core can issue (R94, R95), and the word after the one at PC exists (R115). -/
def Ready (s : State) (core : CoreId) : Prop :=
  s.canIssue core.val = true ∧ s.rd Reg.HND_STAT.PC core.val < 2047

/-- Where the program counter of a core is kept. -/
def pcKey (core : CoreId) : Nat := Reg.HND_STAT.PC.key core.val 0

/-- Where a hand register is kept; h0 is kept nowhere (R97). -/
def hKeys (core : CoreId) (r : BitVec 5) : List Nat := if r = 0 then [] else [Reg.HND_H.VALUE.key core.val r.toNat]

/-- The hand registers of `t` are those of `s`, but for `hd`, which holds `v`; a write of h0 is discarded (R97). -/
def HandResult (s t : State) (core : CoreId) (hd : BitVec 5) (v : Word) : Prop :=
  ∀ r : BitVec 5, t.h core.val r.toNat = if r = hd ∧ r ≠ 0 then v else s.h core.val r.toNat

/-- The hand has moved on to the next word. -/
def NextWord (s t : State) (core : CoreId) : Prop :=
  t.rd Reg.HND_STAT.PC core.val = s.rd Reg.HND_STAT.PC core.val + 1

/-- The key is that of a field of a register in the core's own block (R33). -/
def inCoreBlock (core : CoreId) (k : Nat) : Prop :=
  0x200010000000 + core.val * 0x1000 ≤ k / 64 ∧ k / 64 < 0x200010000000 + core.val * 0x1000 + 0x1000

/-! ### Vector operations -/

/-- Beside its program counter and the listed register fields, only vector register `vd` of the core has changed. -/
def OnlyVector (s t : State) (core : CoreId) (vd : BitVec 5) (ks : List Nat) : Prop :=
  { t with fields := s.fields, vregs := s.vregs } = s ∧ Kept s t (fun k => k ∈ pcKey core :: ks) ∧
  (∀ k, k ≠ core.val * 32 + vd.toNat → Store.get t.vregs k = Store.get s.vregs k) ∧ BytesKept s t (fun _ => False)

/-- The lanes of width `wd` of vector register `vd`: those `P` names hold the low bits of what `f` gives, the others keep
their contents (R100). -/
def LanesAre (s t : State) (core : CoreId) (vd : BitVec 5) (wd : Nat) (P : Nat → Prop) (f : Nat → Nat) : Prop :=
  ∀ k < 1024 / wd, (P k → lane wd (t.v core.val vd.toNat) k = f k % 2 ^ wd) ∧
    (¬P k → lane wd (t.v core.val vd.toNat) k = lane wd (s.v core.val vd.toNat) k)

/-- A sticky flag of the core: set where `b` holds, else as it was (R117). -/
def StickyIf (s t : State) (core : CoreId) (f : Fld) (b : Prop) : Prop :=
  (b → t.rd f core.val = 1) ∧ (¬b → t.rd f core.val = s.rd f core.val)

/-- n of R100: the elements an instruction of element width `wd` works on. -/
def activeLanes (s : State) (core : CoreId) (wd : Nat) : Nat := min (s.rd Reg.VEC_VL.VL core.val) (1024 / wd)

/-- A lane-wise operation as R102 tabulates it: the TYPEs it takes, whether it reads VS2 and VS3, its result from the TYPE
and the three lanes, and when the lane saturates. -/
structure LaneOp where
  con : CoreId → VecWord → Instr
  types : List Nat
  use2 : Bool
  use3 : Bool
  val : Nat → Nat → Nat → Nat → Nat
  sat : Nat → Nat → Nat → Nat → Prop := fun _ _ _ _ => False

/-- A legal word of the operation completes: every lane below n of vd takes the result, with lane 0 of VS2 for every lane
under BC = 1, the others keep their contents; VSTAT.ISAT is set where a lane saturates; the hand moves on; nothing else
changes. -/
def LaneOp.Completes (p : LaneOp) : Prop :=
  ∀ (core : CoreId) (w : VecWord) (s : State), Ready s core → w.ty.toNat ∈ p.types → w.rsv = 0 →
    (p.use2 = false → w.vs2 = 0 ∧ w.bc = 0) → (p.use3 = false → w.vs3 = 0) →
    let wd := typeWidth w.ty.toNat
    let a := fun k => lane wd (s.v core.val w.vs1.toNat) k
    let b := fun k => lane wd (s.v core.val w.vs2.toNat) (if w.bc = 1 then 0 else k)
    let c := fun k => lane wd (s.v core.val w.vs3.toNat) k
    ∃ t, exec (p.con core w) s = .next t ∧
      LanesAre s t core w.vd wd (fun k => k < activeLanes s core wd) (fun k => p.val w.ty.toNat (a k) (b k) (c k)) ∧
      StickyIf s t core Reg.VSTAT.ISAT (∃ k < activeLanes s core wd, p.sat w.ty.toNat (a k) (b k) (c k)) ∧
      NextWord s t core ∧ OnlyVector s t core w.vd [Reg.VSTAT.ISAT.key core.val 0]

/-- Least and greatest value of an integer TYPE (R103). -/
def elemMin (ty : Nat) : Int := if tySigned ty then -(2 ^ (typeWidth ty - 1) : Int) else 0
def elemMax (ty : Nat) : Int := if tySigned ty then 2 ^ (typeWidth ty - 1) - 1 else 2 ^ typeWidth ty - 1

/-- A saturating operation: the exact result of the lanes read by TYPE, clamped to the range of the TYPE (R103). -/
def satOp (con : CoreId → VecWord → Instr) (f : Nat → Int → Int → Int) : LaneOp where
  con := con
  types := [0, 1, 2, 3, 4, 5]
  use2 := true
  use3 := false
  val := fun ty a b _ => wrapInt (typeWidth ty) (max (elemMin ty) (min (elemMax ty) (f ty (elemInt ty a) (elemInt ty b))))
  sat := fun ty a b _ => f ty (elemInt ty a) (elemInt ty b) < elemMin ty ∨ elemMax ty < f ty (elemInt ty a) (elemInt ty b)

/-- The pairwise tree over 32 lanes (R109): lanes 2j and 2j + 1 of each level combine, over five levels. -/
def tree32 {α : Type} (f : α → α → α) (y : Nat → α) : α :=
  let up := fun (z : Nat → α) (j : Nat) => f (z (2 * j)) (z (2 * j + 1))
  up (up (up (up (up y)))) 0

/-- A saturating INT32 addition of two codes, which remembers whether any addition has saturated (R103, R109). -/
def addSat32 (p q : Nat × Prop) : Nat × Prop :=
  (wrapInt 32 (max (elemMin 2) (min (elemMax 2) (sint 32 p.1 + sint 32 q.1))),
   p.2 ∨ q.2 ∨ sint 32 p.1 + sint 32 q.1 < elemMin 2 ∨ elemMax 2 < sint 32 p.1 + sint 32 q.1)

/-! ### Events (R487-R489) -/

/-- The ring an event meant for a ring goes to: the steading's while the ring is not in use. -/
def eventDest (s : State) (ring : Nat) : Nat := if ring < 16 ∧ s.rd Reg.EVR_CTL.EN (j := ring) = 0 then 16 else ring

/-- The ring takes the event: it is in use and fewer than 1,024 entries wait for it. -/
def EventFits (s : State) (ring : Nat) : Prop :=
  s.rd Reg.EVR_CTL.EN (j := eventDest s ring) ≠ 0 ∧
    (s.events.filter (fun e => decide (e.dest = eventDest s ring))).length < 1024

/-- The event waits to be written in `t`, if the ring takes it; every entry that waited still waits. -/
def Raised (s t : State) (ring code skind unit detail : Nat) : Prop :=
  (∀ e ∈ s.events, e ∈ t.events) ∧
  (EventFits s ring → ∃ e ∈ t.events, e.dest = eventDest s ring ∧ e.code = code ∧ e.ring = ring ∧ e.skind = skind ∧
    e.unit = unit ∧ e.detail = detail)

/-- Everything but register fields and the queue of events is as before. -/
def OnlyFieldsAndEvents (s t : State) (P : Nat → Prop) : Prop :=
  { t with fields := s.fields, events := s.events } = s ∧ Kept s t P ∧ BytesKept s t (fun _ => False)

/-- Where the LOST counters of the event rings are kept. -/
def lostKey (k : Nat) : Prop := ∃ r ≤ 16, k = Reg.EVR_PI.LOST.key 0 r

/-- An instruction word discarded at issue (R115): HND_ILL records it, the core halts with the CAUSE, the event is raised
with the word as DETAIL; PC, the hand and vector registers and memory stay as they were. -/
def Discarded (s t : State) (core : CoreId) (word : Word) (cause code : Nat) : Prop :=
  t.rd Reg.HND_ILL.WORD core.val = word.toNat ∧ t.rd Reg.HND_STAT.HALTED core.val = 1 ∧
  t.rd Reg.HND_STAT.CAUSE core.val = cause ∧ t.rd Reg.HND_STAT.PC core.val = s.rd Reg.HND_STAT.PC core.val ∧
  Raised s t ((s.enclOfCore core.val).getD 16) code 0 core.val word.toNat ∧
  (∀ (c : CoreId) (r : BitVec 5), t.h c.val r.toNat = s.h c.val r.toNat) ∧ t.vregs = s.vregs ∧ BytesKept s t (fun _ => False)

/-! ### Drills -/

/-- Where the bits of DRL_STAT that follow what a drill holds are kept (R215). -/
def drlKeys (core : CoreId) (d : DrillId) : List Nat :=
  [Reg.DRL_STAT.STATE.key core.val d.val, Reg.DRL_STAT.PEND.key core.val d.val, Reg.DRL_STAT.INFL.key core.val d.val]

/-- Of the core records, only that drill of the core has changed, and it is `x`. -/
def DrillIs (s t : State) (core : CoreId) (d : DrillId) (x : DrillX) : Prop :=
  t.core core.val = { s.core core.val with drills := (s.core core.val).drills.set d.val x } ∧
    ∀ c, c ≠ core.val → t.core c = s.core c

/-- The core holds its four drills. -/
def FourDrills (s : State) (core : CoreId) : Prop := (s.core core.val).drills.length = 4

/-! ### Packets -/

/-- The ejection buffer of a channel of a core holds `l`; the others are as before. -/
def EjectIs (s t : State) (core vc : Nat) (l : List Packet) : Prop :=
  t.ejectOf core vc = l ∧ ∀ k, k ≠ core * 4 + vc → Store.getD t.ejq k [] = Store.getD s.ejq k []

/-- What the router of a core sends for a branch it drops (R186): a miss notice to the sender and its acknowledgement. -/
def branchMissed (s : State) (core : Nat) (p : Packet) : List Packet :=
  [{ respTo p 9 0 (core + s.estTick (croftOf core) % 2 ^ 16 * 2 ^ 17) 0 [] with src := core },
   mcAckPacket core p.via p.src p.encl p.tag ⟨0, 0, 1, 0, 0⟩]

/-- The Tabko is `x`; the others are as before. -/
def TabkoIs (s t : State) (tb : TabkoId) (x : TabkoX) : Prop := t.tabko tb.val = x ∧ ∀ k, k ≠ tb.val → t.tabko k = s.tabko k

/-- The floor is `x`; the other is as before. -/
def FloorIs (s t : State) (fl : Nat) (x : FloorX) : Prop := t.floor fl = x ∧ ∀ k, k ≠ fl → t.floor k = s.floor k

/-- The packet at the head of a floor entry's queue has been taken; the other queues are as before. -/
def FloorTakes (s t : State) (fl row vc : Nat) (rest : List HlEntry) : Prop :=
  let e := edgeCore fl row
  t.headland e 5 vc = rest ∧ ∀ k, k ≠ qKey e 5 vc → Store.getD t.hlq k [] = Store.getD s.hlq k []
/-- The packet at the head of a floor entry's queue has been taken, its credit is on its way back (R25, R174). -/
def FloorTook (s t : State) (fl row vc : Nat) (h : HlEntry) (rest : List HlEntry) : Prop :=
  let e := edgeCore fl row
  FloorTakes s t fl row vc rest ∧
    t.credits = s.credits ++ [⟨qKey e 5 vc, h.pkt.flits, s.estTick (croftOf e) + 2⟩]

/-- The port is `x`; the others are as before. -/
def PortIs (s t : State) (p : Nat) (x : PortX) : Prop := t.port p = x ∧ ∀ k, k ≠ p → t.port k = s.port k

/-- Where what BLN_CREDIT and BLN_REPLAY show of a port's queues is kept (R375). -/
def syncKey (p k : Nat) : Prop :=
  k ∈ [Reg.BLN_CREDIT.REDUCE0, Reg.BLN_CREDIT.REDUCE1, Reg.BLN_CREDIT.GLEAN0, Reg.BLN_CREDIT.YOKE0, Reg.BLN_REPLAY.INFLIGHT].map
    (fun f => f.key p 0)

/-- A replay buffer after an ACK: with progress, what is left counts its sends anew (R360, R371). -/
def ackedFrames (l : List (Nat × Nat × Frame)) (ack : Nat) : List (Nat × Nat × Frame) :=
  let left := l.filter (fun r => !seqBefore r.1 ack)
  if left.length = l.length then l else left.map (fun r => (r.1, 0, r.2.2))
/-- A port that has nothing unacknowledged, after a frame of a class with the expected SEQ (R360, R361). -/
def frameTaken (s : State) (x : PortX) (cls : Nat) (f : LinkFrame) : PortX :=
  { x with
    rxAt := s.now, seqRx := (x.seqRx + 1) % 2 ^ 16, discard := false, ackOwe := if x.ackOwe.isSome then x.ackOwe else some s.now
    owe := if cls = 0 ∨ x.owe.isSome then x.owe else some s.now
    freed := if cls = 0 then x.freed else addAt x.freed (clIndex cls f.lane.val) (frameOf f 0 cls).units }

/-- Beside what `y` says, a request has been posted at the endpoint (R385): it waits while the link is not UP; with the link UP,
nothing waiting and a tag free it takes the next free tag and leaves. -/
def Posted (s : State) (y : YosalX) (t : State) (m : YMsg) (r : YReq) : Prop :=
  (s.yUp = false → t.yosal = { y with wait := y.wait ++ [(m, r)] }) ∧
  (s.yUp = true → y.wait = [] → y.tags.length < 4096 →
    let tag := freeYTag y.tags 4096 y.nextTag
    t.yosal = { y with
      tags := y.tags ++ [⟨tag, { m with tag := tag }, r, s.now, false⟩], nextTag := (tag + 1) % 4096
      tx := y.tx ++ [{ m with tag := tag }] })

/-! ### The yoke -/

/-- A YOKE frame as port B0 sends it to the mate (R400, R402). -/
def yokeFrame (s : State) (state : Nat) (h : YokeHdr) (payload : List Byte) : Frame :=
  { ty := 3, cls := 3, lane := 0, floor := 0, dst := s.rd Reg.YK_CFG.MATE_ID, src := s.moduleId
    hops := s.rd Reg.FWD_ID.HOPS_INIT 0, body := h.bytes state payload.length ++ payload }
/-- The frames wait at port B0, after those that waited; the other ports are as before. -/
def YokeSends (s t : State) (fs : List Frame) : Prop := PortIs s t 0 { s.port 0 with txq := (s.port 0).txq ++ fs }
/-- A frame of the mate reaches port B0 in order: for this module, from the mate it is cabled to, with a KIND (R400, R402). -/
def MateFrame (s : State) (f : LinkFrame) (kind : Nat) : Prop :=
  s.portPresent 0 = true ∧ s.portState 0 = 6 ∧ f.seq.toNat = (s.port 0).seqRx ∧ (s.port 0).replay = [] ∧ f.dst.toNat = s.moduleId ∧
    s.rd Reg.YK_CFG.EN ≠ 0 ∧ f.src.toNat = s.rd Reg.YK_CFG.MATE_ID ∧ (yokeHdr f.body).kind = kind
/-- What every YOKE frame that is taken leaves, before its KIND is acted on (R404). -/
def yokeFrameTaken (s : State) (f : LinkFrame) : State := ((s.takeFrame 0 3 f true).getD s).yokeTaken (yokeStateOf f.body)

/-! ### Power -/

/-- Every furrow segment in use lies on the wafer. -/
def SegsOnWafer (s : State) : Prop := ∀ g < 256, s.rd Reg.FUR_SEG.EN (j := g) = 1 →
  rectFits (s.rd Reg.FUR_SEG.ORIGIN (j := g)) (s.rd Reg.FUR_SEG.CROWS (j := g)) (s.rd Reg.FUR_SEG.CCOLS (j := g)) = true
/-- Domain ST has lost its state: OTP, flash, stud pairs and waiting commands stay, FAILS becomes `fails`, all else is as at reset
(R419, R431, R463). -/
def SteadingLost (s t : State) (pins : PinsX) (fails : Nat) : Prop :=
  t.otp = s.otp ∧ (s.trust.load = none → t.flash = s.flash) ∧ t.pins = pins ∧ t.pending = s.pending ∧ t.rd Reg.GNT_STAT.FAILS = fails ∧
  t.power = { PowerX.init with studs := s.power.studs, lostPairs := s.power.lostPairs } ∧
  Kept State.reset t (fun k => k = Reg.GNT_STAT.FAILS.key 0 0) ∧ BytesKept State.reset t (fun _ => False) ∧
  { t with fields := State.reset.fields, otp := State.reset.otp, flash := State.reset.flash, pins := State.reset.pins
           freeIx := State.reset.freeIx, pending := State.reset.pending, power := State.reset.power } = State.reset
/-- The module is in HOLD with a cause and a REASON (R432). -/
def InHold (t : State) (cause reason : Nat) : Prop :=
  t.rd Reg.BOOT_STAT.PHASE = 15 ∧ t.rd Reg.BOOT_STAT.HOLD_CAUSE = cause ∧ t.rd Reg.BOOT_STAT.REASON = reason ∧ t.pins.stHold = true ∧
    t.pins.stReady = false

/-! ### Clocks -/

/-- Where CLK_STAT.HOLDOVER of the crofts, and REF_CTL.HOLDOVER, are kept. -/
def holdoverKey (k : Nat) : Prop := k = Reg.REF_CTL.HOLDOVER.key 0 0 ∨ ∃ c < 256, k = Reg.CLK_STAT.HOLDOVER.key c 0

end Sys2Proof.Machine
end

