-- ==== Sys2Proof/Certificates/Slice0/Obligations.lean ====
section
/-! DEFINITION. The statements about the module for the provers: what each command does, on which states, and what it
leaves as it was. A clause `∃ t, exec c s = .next t ∧ …` says that the command completes and what its next state holds. -/

open Sys2Proof Sys2Proof.Machine

/-! ### The queue (the block's step) and the hand (chapter 04) -/

/-- Every command, at the front of the queue, is carried out on the state with the rest of the queue; with no command
waiting a step is one tick of the steading's clock (the model's choice, log entry 1). -/
def Obligations.StepCarriesOutFrontCommand : Prop :=
  (∀ (i : Instr) (rest : List Instr) (s : State), step { s with pending := i :: rest } = exec i { s with pending := rest }) ∧
  ∀ s : State, s.pending = [] → step s = .next s.tick

/-- R98: the arithmetic, logic, shift and comparison operations of the hand, each over two registers or a register and IMM.
hd takes the value of the table, h0 discards it, PC moves on, nothing else changes. -/
def Obligations.HandArithmetic : Prop :=
  (∀ p ∈ ([(Instr.add, fun a b => BitVec.ofNat 64 (a.toNat + b.toNat)),
      (Instr.sub, fun a b => BitVec.ofInt 64 ((a.toNat : Int) - b.toNat)),
      (Instr.and, fun a b => a &&& b), (Instr.or, fun a b => a ||| b), (Instr.xor, fun a b => a ^^^ b),
      (Instr.shl, fun a b => BitVec.ofNat 64 (a.toNat * 2 ^ (b.toNat % 64))),
      (Instr.shr, fun a b => BitVec.ofNat 64 (a.toNat / 2 ^ (b.toNat % 64))),
      (Instr.sra, fun a b => BitVec.ofInt 64 (a.toInt / 2 ^ (b.toNat % 64))),
      (Instr.slt, fun a b => if a.toInt < b.toInt then 1 else 0),
      (Instr.sltu, fun a b => if a.toNat < b.toNat then 1 else 0),
      (Instr.mul, fun a b => BitVec.ofNat 64 (a.toNat * b.toNat))] :
        List ((CoreId → HandWord → Instr) × (Word → Word → Word))),
    ∀ (core : CoreId) (w : HandWord) (s : State), Ready s core → w.rsv = 0 →
      ∃ t, exec (p.1 core w) s = .next t ∧
        HandResult s t core w.hd (p.2 (s.h core.val w.hs1.toNat) (s.h core.val w.hs2.toNat)) ∧ NextWord s t core ∧
        OnlyFields s t (pcKey core :: hKeys core w.hd)) ∧
  (∀ p ∈ ([(Instr.addi, fun a i => BitVec.ofInt 64 (a.toNat + i.toInt)),
      (Instr.andi, fun a i => a &&& BitVec.ofInt 64 i.toInt), (Instr.ori, fun a i => a ||| BitVec.ofInt 64 i.toInt),
      (Instr.shli, fun a i => BitVec.ofNat 64 (a.toNat * 2 ^ (i.toNat % 64))),
      (Instr.shri, fun a i => BitVec.ofNat 64 (a.toNat / 2 ^ (i.toNat % 64))),
      (Instr.srai, fun a i => BitVec.ofInt 64 (a.toInt / 2 ^ (i.toNat % 64))),
      (Instr.lih, fun a i => BitVec.ofNat 64 (i.toNat * 2 ^ 32 + a.toNat % 2 ^ 32))] :
        List ((CoreId → HandWord → Instr) × (Word → BitVec 32 → Word))),
    ∀ (core : CoreId) (w : HandWord) (s : State), Ready s core → w.rsv = 0 → w.hs2 = 0 →
      ∃ t, exec (p.1 core w) s = .next t ∧
        HandResult s t core w.hd (p.2 (s.h core.val w.hs1.toNat) w.imm) ∧ NextWord s t core ∧
        OnlyFields s t (pcKey core :: hKeys core w.hd))

/-- R115: an operation of R98 at word 2,047 issues and gives the registers what it gives them at any other word; then the
core halts with CAUSE 2, HND_ILL reads zero, ILLEGAL_INSN (0x03) is raised, and PC still reads 2,047. -/
def Obligations.HandPastTheLastWord : Prop :=
  ∀ p ∈ ([(Instr.add, false), (Instr.sub, false), (Instr.and, false), (Instr.or, false), (Instr.xor, false),
      (Instr.shl, false), (Instr.shr, false), (Instr.sra, false), (Instr.slt, false), (Instr.sltu, false),
      (Instr.mul, false), (Instr.addi, true), (Instr.andi, true), (Instr.ori, true), (Instr.shli, true),
      (Instr.shri, true), (Instr.srai, true), (Instr.lih, true)] : List ((CoreId → HandWord → Instr) × Bool)),
  ∀ (core : CoreId) (w : HandWord) (s : State), s.canIssue core.val = true → s.rd Reg.HND_STAT.PC core.val = 2047 →
    w.rsv = 0 → (p.2 = true → w.hs2 = 0) →
    ∃ t, exec (p.1 core w) s = .next t ∧
      (∃ u, exec (p.1 core w) (s.wr Reg.HND_STAT.PC 2046 core.val) = .next u ∧
        ∀ (c : CoreId) (r : BitVec 5), t.h c.val r.toNat = u.h c.val r.toNat) ∧
      t.rd Reg.HND_ILL.WORD core.val = 0 ∧ t.rd Reg.HND_STAT.HALTED core.val = 1 ∧ t.rd Reg.HND_STAT.CAUSE core.val = 2 ∧
      t.rd Reg.HND_STAT.PC core.val = 2047 ∧ Raised s t ((s.enclOfCore core.val).getD 16) 0x03 0 core.val 0 ∧
      t.vregs = s.vregs ∧ BytesKept s t (fun _ => False)

/-- R98, R111: loads and stores of the hand, of aligned bytes of the own scratchpad at hs1 + IMM modulo 2^18, where the
code word holds no latent error. A load is zero-extended; a store writes the low bytes of hs2 and no other byte of memory. -/
def Obligations.HandLoadsAndStores : Prop :=
  ∀ p ∈ ([(Instr.ld, Instr.st, 8), (Instr.ldw, Instr.stw, 4)] :
      List ((CoreId → HandWord → Instr) × (CoreId → HandWord → Instr) × Nat)),
  ∀ (core : CoreId) (w : HandWord) (s : State), Ready s core → w.rsv = 0 →
    let a : Nat := (s.h core.val w.hs1.toNat + BitVec.ofInt 64 w.imm.toInt).toNat % 2 ^ 18
    a % p.2.2 = 0 → s.wordErr core.val (s.codeWord core.val a) = 0 →
    (w.hs2 = 0 → ∃ t, exec (p.1 core w) s = .next t ∧
      HandResult s t core w.hd
        (BitVec.ofNat 64 (((List.range p.2.2).map (fun k => (s.byte (spAddr core.val (a + k))).toNat * 256 ^ k)).sum)) ∧
      NextWord s t core ∧ OnlyFields s t (pcKey core :: hKeys core w.hd)) ∧
    (w.hd = 0 → ∃ t, exec (p.2.1 core w) s = .next t ∧
      (∀ k < p.2.2, t.byte (spAddr core.val (a + k)) =
        BitVec.ofNat 8 ((s.h core.val w.hs2.toNat).toNat / 256 ^ k)) ∧
      BytesKept s t (fun x => ∃ k < p.2.2, x = spAddr core.val (a + k)) ∧
      NextWord s t core ∧ { t with fields := s.fields, mem := s.mem, errs := s.errs } = s ∧
      Kept s t (fun k => k = pcKey core) ∧ ∀ k, Store.getD t.errs k 0 = Store.getD s.errs k 0)

/-- R98, R115: the branches test hs1 against hs2 and go to PC + IMM or to the next word; JAL and JR save PC + 1 in hd. The
target lies in 0-2,047. R98, R100: VSETVL sets VL and hd to the smaller of hs1 and VLMAX of the width its code names; R98, R116: HALT stops the
core with CAUSE 1, its PC where it was, what held the hand gone, every other register and the drills as they were. -/
def Obligations.HandControl : Prop :=
  ((∀ p ∈ ([(Instr.beq, fun a b => a = b), (Instr.bne, fun a b => a ≠ b), (Instr.blt, fun a b => a.toInt < b.toInt),
      (Instr.bge, fun a b => b.toInt ≤ a.toInt), (Instr.bltu, fun a b => a.toNat < b.toNat)] :
        List ((CoreId → HandWord → Instr) × (Word → Word → Prop))),
    ∀ (core : CoreId) (w : HandWord) (s : State), s.canIssue core.val = true → w.rsv = 0 → w.hd = 0 →
      0 ≤ (s.rd Reg.HND_STAT.PC core.val : Int) + w.imm.toInt →
      (s.rd Reg.HND_STAT.PC core.val : Int) + w.imm.toInt ≤ 2047 →
      (p.2 (s.h core.val w.hs1.toNat) (s.h core.val w.hs2.toNat) → ∃ t, exec (p.1 core w) s = .next t ∧
        (t.rd Reg.HND_STAT.PC core.val : Int) = s.rd Reg.HND_STAT.PC core.val + w.imm.toInt ∧ OnlyFields s t [pcKey core]) ∧
      (¬p.2 (s.h core.val w.hs1.toNat) (s.h core.val w.hs2.toNat) → s.rd Reg.HND_STAT.PC core.val < 2047 →
        ∃ t, exec (p.1 core w) s = .next t ∧ NextWord s t core ∧ OnlyFields s t [pcKey core])) ∧
  (∀ (core : CoreId) (w : HandWord) (s : State), s.canIssue core.val = true → w.rsv = 0 → w.hs1 = 0 → w.hs2 = 0 →
      0 ≤ (s.rd Reg.HND_STAT.PC core.val : Int) + w.imm.toInt →
      (s.rd Reg.HND_STAT.PC core.val : Int) + w.imm.toInt ≤ 2047 →
      ∃ t, exec (.jal core w) s = .next t ∧
        (t.rd Reg.HND_STAT.PC core.val : Int) = s.rd Reg.HND_STAT.PC core.val + w.imm.toInt ∧
        HandResult s t core w.hd (BitVec.ofNat 64 (s.rd Reg.HND_STAT.PC core.val + 1)) ∧
        OnlyFields s t (pcKey core :: hKeys core w.hd)) ∧
  (∀ (core : CoreId) (w : HandWord) (s : State), s.canIssue core.val = true → w.rsv = 0 → w.hs2 = 0 →
      (s.h core.val w.hs1.toNat).toNat ≤ 2047 →
      ∃ t, exec (.jr core w) s = .next t ∧ t.rd Reg.HND_STAT.PC core.val = (s.h core.val w.hs1.toNat).toNat ∧
        HandResult s t core w.hd (BitVec.ofNat 64 (s.rd Reg.HND_STAT.PC core.val + 1)) ∧
        OnlyFields s t (pcKey core :: hKeys core w.hd))) ∧
  ((∀ (core : CoreId) (w : HandWord) (s : State) (c : Nat), Ready s core → w.rsv = 0 → w.hs2 = 0 →
    c = w.imm.toNat % 4 → c ≠ 3 →
    ∃ t, exec (.vsetvl core w) s = .next t ∧
      t.rd Reg.VEC_VL.VL core.val = min (s.h core.val w.hs1.toNat).toNat (128 / 2 ^ c) ∧
      HandResult s t core w.hd (BitVec.ofNat 64 (min (s.h core.val w.hs1.toNat).toNat (128 / 2 ^ c))) ∧ NextWord s t core ∧
      OnlyFields s t (pcKey core :: Reg.VEC_VL.VL.key core.val 0 :: hKeys core w.hd)) ∧
  (∀ (core : CoreId) (w : HandWord) (s : State), s.canIssue core.val = true → w.rsv = 0 → w.hd = 0 → w.hs1 = 0 → w.hs2 = 0 →
    ∃ t, exec (.halt core (w.word 0x7F#8)) s = .next t ∧ t.rd Reg.HND_STAT.HALTED core.val = 1 ∧
      t.rd Reg.HND_STAT.CAUSE core.val = 1 ∧ t.core core.val = { s.core core.val with hold := .none, runOff := false } ∧ (∀ c, c ≠ core.val → t.core c = s.core c) ∧
      { t with fields := s.fields, cores := s.cores } = s ∧ BytesKept s t (fun _ => False) ∧
      Kept s t (fun k => k = Reg.HND_STAT.HALTED.key core.val 0 ∨ k = Reg.HND_STAT.CAUSE.key core.val 0)))

/-! ### The vector engine (chapter 04) -/

/-- R102, R103: the integer operations, wrapping and saturating, and the shifts by vs2 mod w. R102: the bitwise operations and the selection, on every TYPE (VSEL's selector compared as bits is the model's reading,
log entry 7), and the comparisons: all ones or zero, by TYPE, any NaN giving zero. -/
def Obligations.VectorIntegerAndBitLanes : Prop :=
  (∀ p ∈ ([⟨.vadd, tysInt, true, false, fun _ a b _ => a + b, fun _ _ _ _ => False⟩,
      ⟨.vsub, tysInt, true, false, fun ty a b _ => a + 2 ^ typeWidth ty - b, fun _ _ _ _ => False⟩,
      satOp .vadds (fun _ a b => a + b), satOp .vsubs (fun _ a b => a - b), satOp .vmuls (fun _ a b => a * b),
      ⟨.vmul, tysInt, true, false, fun _ a b _ => a * b, fun _ _ _ _ => False⟩,
      ⟨.vmin, tysInt, true, false, fun ty a b _ => if elemInt ty a ≤ elemInt ty b then a else b, fun _ _ _ _ => False⟩,
      ⟨.vmax, tysInt, true, false, fun ty a b _ => if elemInt ty a ≤ elemInt ty b then b else a, fun _ _ _ _ => False⟩,
      ⟨.vshl, tysInt, true, false, fun ty a b _ => a * 2 ^ (b % typeWidth ty), fun _ _ _ _ => False⟩,
      ⟨.vshr, tysInt, true, false, fun ty a b _ => a / 2 ^ (b % typeWidth ty), fun _ _ _ _ => False⟩,
      ⟨.vsra, tysInt, true, false, fun ty a b _ => wrapInt (typeWidth ty) (elemInt ty a / 2 ^ (b % typeWidth ty)),
        fun _ _ _ _ => False⟩,
      ⟨.vshls, tysInt, true, false,
        fun ty a b _ => wrapInt (typeWidth ty) (max (elemMin ty) (min (elemMax ty) (elemInt ty a * 2 ^ (b % typeWidth ty)))),
        fun ty a b _ => elemInt ty a * 2 ^ (b % typeWidth ty) < elemMin ty ∨
          elemMax ty < elemInt ty a * 2 ^ (b % typeWidth ty)⟩,
      ⟨.vsrar, tysInt, true, false,
        fun ty a b _ => wrapInt (typeWidth ty)
          (if b % typeWidth ty = 0 then elemInt ty a
            else (elemInt ty a + 2 ^ (b % typeWidth ty - 1)) / 2 ^ (b % typeWidth ty)), fun _ _ _ _ => False⟩] : List LaneOp),
    p.Completes) ∧
  (∀ p ∈ ([⟨.vand, tysAny, true, false, fun _ a b _ => a &&& b, fun _ _ _ _ => False⟩,
      ⟨.vor, tysAny, true, false, fun _ a b _ => a ||| b, fun _ _ _ _ => False⟩,
      ⟨.vxor, tysAny, true, false, fun _ a b _ => a ^^^ b, fun _ _ _ _ => False⟩,
      ⟨.vandn, tysAny, true, false, fun ty a b _ => a &&& (2 ^ typeWidth ty - 1 - b), fun _ _ _ _ => False⟩,
      ⟨.vceq, tysAny, true, false, fun ty a b _ =>
        if (tyInt ty = true ∧ a = b) ∨ (tyInt ty = false ∧ FVal.eqv ((tyFmt ty).decode a) ((tyFmt ty).decode b) = true)
        then 2 ^ typeWidth ty - 1 else 0, fun _ _ _ _ => False⟩,
      ⟨.vclt, tysAny, true, false, fun ty a b _ =>
        if (tyInt ty = true ∧ elemInt ty a < elemInt ty b) ∨
          (tyInt ty = false ∧ FVal.lt ((tyFmt ty).decode a) ((tyFmt ty).decode b) = true)
        then 2 ^ typeWidth ty - 1 else 0, fun _ _ _ _ => False⟩,
      ⟨.vcle, tysAny, true, false, fun ty a b _ =>
        if (tyInt ty = true ∧ elemInt ty a ≤ elemInt ty b) ∨
          (tyInt ty = false ∧ ((tyFmt ty).decode a).isNan = false ∧ ((tyFmt ty).decode b).isNan = false ∧
            FVal.lt ((tyFmt ty).decode b) ((tyFmt ty).decode a) = false)
        then 2 ^ typeWidth ty - 1 else 0, fun _ _ _ _ => False⟩,
      ⟨.vsel, tysAny, true, true, fun _ a b c => if c ≠ 0 then a else b, fun _ _ _ _ => False⟩] : List LaneOp),
    p.Completes)

/-- R102, R104: the float operations on BF16 and FP32 lanes: each result is rounded once to nearest even from the exact
value; minimum, maximum, sign, absolute value and negation act on the codes, a NaN giving the canonical NaN. -/
def Obligations.VectorFloatLanes : Prop :=
  let D := fun ty x => (tyFmt ty).decode x
  let signBit := fun ty => 2 ^ (typeWidth ty - 1)
  ∀ p ∈ ([⟨.vfadd, tysFloat, true, false, fun ty a b _ => (tyFmt ty).round (FVal.add (D ty a) (D ty b)), fun _ _ _ _ => False⟩,
      ⟨.vfsub, tysFloat, true, false, fun ty a b _ => (tyFmt ty).round (FVal.add (D ty a) (D ty b).neg),
        fun _ _ _ _ => False⟩,
      ⟨.vfmul, tysFloat, true, false, fun ty a b _ => (tyFmt ty).round (FVal.mul (D ty a) (D ty b)), fun _ _ _ _ => False⟩,
      ⟨.vfma, tysFloat, true, true, fun ty a b c => (tyFmt ty).round (FVal.add (FVal.mul (D ty a) (D ty b)) (D ty c)),
        fun _ _ _ _ => False⟩,
      ⟨.vfnma, tysFloat, true, true,
        fun ty a b c => (tyFmt ty).round (FVal.add (FVal.mul (D ty a) (D ty b)).neg (D ty c)), fun _ _ _ _ => False⟩,
      ⟨.vfmin, tysFloat, true, false, fun ty a b _ =>
        if (D ty a).isNan || (D ty b).isNan then (tyFmt ty).nanCode
        else if FVal.lt (D ty a) (D ty b) then a else if FVal.lt (D ty b) (D ty a) then b
        else if (D ty a).isNeg then a else b, fun _ _ _ _ => False⟩,
      ⟨.vfmax, tysFloat, true, false, fun ty a b _ =>
        if (D ty a).isNan || (D ty b).isNan then (tyFmt ty).nanCode
        else if FVal.lt (D ty a) (D ty b) then b else if FVal.lt (D ty b) (D ty a) then a
        else if (D ty a).isNeg then b else a, fun _ _ _ _ => False⟩,
      ⟨.vfsgn, tysFloat, false, false, fun ty a _ _ =>
        if (D ty a).isNan then (tyFmt ty).nanCode else if (D ty a).isZero then 0
        else (if (D ty a).isNeg then signBit ty else 0) + (if ty = 6 then 0x3F80 else 0x3F800000), fun _ _ _ _ => False⟩,
      ⟨.vfabs, tysFloat, false, false, fun ty a _ _ =>
        if (D ty a).isNan then (tyFmt ty).nanCode else a % signBit ty, fun _ _ _ _ => False⟩,
      ⟨.vfneg, tysFloat, false, false, fun ty a _ _ =>
        if (D ty a).isNan then (tyFmt ty).nanCode else (a + signBit ty) % (2 * signBit ty), fun _ _ _ _ => False⟩] :
        List LaneOp),
    p.Completes

/-- R105: the approximations are fixed functions of the operand, computed in FP32 and, for BF16, of the operand widened and
rounded once; their special inputs give the results of the table; a result of VRCP times its operand is within 2^-22 of 1
wherever the model's own value is not the one used (log entry 6 on the bound). -/
def Obligations.VectorApproximations : Prop :=
  (∀ p ∈ ([(Instr.vexp2, vexp2Code), (Instr.vlog2, vlog2Code), (Instr.vrcp, vrcpCode), (Instr.vrsq, vrsqCode)] :
      List ((CoreId → VecWord → Instr) × (Nat → Nat))),
    LaneOp.Completes ⟨p.1, tysFloat, false, false,
      fun ty a _ _ => if ty = 7 then p.2 a else bf16.round (fp32.decode (p.2 (a * 2 ^ 16))), fun _ _ _ _ => False⟩) ∧
  (∀ x, (fp32.decode x).isNan = true →
    vexp2Code x = 0x7FC00000 ∧ vlog2Code x = 0x7FC00000 ∧ vrcpCode x = 0x7FC00000 ∧ vrsqCode x = 0x7FC00000) ∧
  (vexp2Code 0xFF800000 = 0 ∧ vexp2Code 0x7F800000 = 0x7F800000) ∧
  (vlog2Code 0 = 0xFF800000 ∧ vlog2Code 0x80000000 = 0xFF800000 ∧ vlog2Code 0x7F800000 = 0x7F800000) ∧
  (vrcpCode 0 = 0x7F800000 ∧ vrcpCode 0x80000000 = 0xFF800000 ∧ vrcpCode 0x7F800000 = 0 ∧
    vrcpCode 0xFF800000 = 0x80000000) ∧
  (vrsqCode 0 = 0x7F800000 ∧ vrsqCode 0x80000000 = 0xFF800000 ∧ vrsqCode 0x7F800000 = 0) ∧
  (∀ x, FVal.lt (fp32.decode x) (.fin false 0 0) = true → vlog2Code x = 0x7FC00000 ∧ vrsqCode x = 0x7FC00000) ∧
  ∀ x m e n, fp32.decode x = .fin n m e → m ≠ 0 →
    (vrcpCode x = (Config.vrcp (BitVec.ofNat 32 x)).toNat ∧
      nearRel (FVal.mul (fp32.decode (vrcpCode x)) (fp32.decode x)) (.fin false 1 0) (.fin false 1 0) = true) ∨
    vrcpCode x = fp32.round (recipRef (fp32.decode x))

/-- R108, R109, R102: VPERM takes vs1[vs2[i]], or zero with VSTAT.OOR set where the index is not below n; VRSUM and VRMAX
reduce 32 lanes by the pairwise tree into lane 0, lanes at or above n counting as the neutral value; VINS and VEXT move one
lane from and to the hand whatever VL is. -/
def Obligations.VectorPermuteReduceMove : Prop :=
  (∀ (core : CoreId) (w : VecWord) (s : State) (n : Nat), Ready s core → w.rsv = 0 → w.vs3 = 0 →
    n = activeLanes s core (typeWidth w.ty.toNat) →
    let wd := typeWidth w.ty.toNat
    let ix := fun k => lane wd (s.v core.val w.vs2.toNat) (if w.bc = 1 then 0 else k)
    ∃ t, exec (.vperm core w) s = .next t ∧
      LanesAre s t core w.vd wd (fun k => k < n) (fun k => if ix k < n then lane wd (s.v core.val w.vs1.toNat) (ix k) else 0) ∧
      StickyIf s t core Reg.VSTAT.OOR (∃ k < n, n ≤ ix k) ∧ NextWord s t core ∧
      OnlyVector s t core w.vd [Reg.VSTAT.OOR.key core.val 0]) ∧
  (∀ (core : CoreId) (w : VecWord) (s : State) (n : Nat), Ready s core → w.rsv = 0 → w.vs2 = 0 → w.vs3 = 0 →
    w.bc = 0 → n = activeLanes s core 32 → 0 < n →
    let x := fun k => lane 32 (s.v core.val w.vs1.toNat) k
    let one := fun k => k = 0
    (w.ty = 7 → ∃ t, exec (.vrsum core w) s = .next t ∧
      LanesAre s t core w.vd 32 one (fun _ => tree32 (fun a b => fp32.round (FVal.add (fp32.decode a) (fp32.decode b)))
        (fun k => if k < n then x k else 0)) ∧ NextWord s t core ∧ OnlyVector s t core w.vd []) ∧
    (w.ty = 2 → ∃ t, exec (.vrsum core w) s = .next t ∧
      LanesAre s t core w.vd 32 one (fun _ => (tree32 addSat32 (fun k => (if k < n then x k else 0, False))).1) ∧
      StickyIf s t core Reg.VSTAT.ISAT (tree32 addSat32 (fun k => (if k < n then x k else 0, False))).2 ∧
      NextWord s t core ∧ OnlyVector s t core w.vd [Reg.VSTAT.ISAT.key core.val 0]) ∧
    (w.ty = 7 → ∃ t, exec (.vrmax core w) s = .next t ∧
      LanesAre s t core w.vd 32 one (fun _ => tree32 (floatPick fp32 true) (fun k => if k < n then x k else 0xFF800000)) ∧
      NextWord s t core ∧ OnlyVector s t core w.vd []) ∧
    (w.ty = 2 → ∃ t, exec (.vrmax core w) s = .next t ∧
      LanesAre s t core w.vd 32 one (fun _ => tree32 (fun a b => if sint 32 a < sint 32 b then b else a)
        (fun k => if k < n then x k else 0x80000000)) ∧
      NextWord s t core ∧ OnlyVector s t core w.vd [])) ∧
  (∀ (core : CoreId) (w : VecWord) (s : State), Ready s core → w.rsv = 0 → w.vs2 = 0 → w.vs3 = 0 → w.bc = 0 →
    w.imm.toNat % 128 < 1024 / typeWidth w.ty.toNat →
    (∃ t, exec (.vins core w) s = .next t ∧
      LanesAre s t core w.vd (typeWidth w.ty.toNat) (fun k => k = w.imm.toNat % 128)
        (fun _ => (s.h core.val w.vs1.toNat).toNat) ∧ NextWord s t core ∧ OnlyVector s t core w.vd []) ∧
    (∃ t, exec (.vext core w) s = .next t ∧
      HandResult s t core w.vd
        (let x := lane (typeWidth w.ty.toNat) (s.v core.val w.vs1.toNat) (w.imm.toNat % 128)
         if w.ty.toNat < 3 then BitVec.ofInt 64 (sint (typeWidth w.ty.toNat) x) else BitVec.ofNat 64 x) ∧
      NextWord s t core ∧ OnlyFields s t (pcKey core :: hKeys core w.vd)))

/-- R110, R111: VLD and VST move the lanes below n between vd and the own scratchpad, contiguous or, under BC = 1, with a
signed stride, addresses modulo 2^18. The statement takes words without latent errors, and stores whose elements do not
overlap; a lane at or above n keeps its contents, a byte outside the elements stored keeps its. -/
def Obligations.VectorLoadsAndStores : Prop :=
  ∀ (core : CoreId) (w : VecWord) (s : State) (es n : Nat), Ready s core → w.rsv = 0 → w.vs3 = 0 → (w.bc = 0 → w.vs2 = 0) →
    es = typeWidth w.ty.toNat / 8 → n = activeLanes s core (8 * es) →
    let base : Nat := (s.h core.val w.vs1.toNat + BitVec.ofInt 64 w.imm.toInt).toNat % 2 ^ 18
    let stride : Int := if w.bc = 1 then sint 18 (s.h core.val w.vs2.toNat).toNat else es
    let at_ := fun k j => spAddr core.val (wrapInt 18 ((base : Int) + k * stride) + j)
    base % es = 0 → stride % (es : Int) = 0 →
    (∀ k < n, ∀ j < es, s.wordErr core.val (s.codeWord core.val (wrapInt 18 ((base : Int) + k * stride) + j)) = 0) →
    (∃ t, exec (.vld core w) s = .next t ∧
      LanesAre s t core w.vd (8 * es) (fun k => k < n)
        (fun k => ((List.range es).map (fun j => (s.byte (at_ k j)).toNat * 256 ^ j)).sum) ∧ NextWord s t core ∧
      OnlyVector s t core w.vd []) ∧
    ((∀ k < n, ∀ j < es, ∀ k' < n, ∀ j' < es, at_ k j = at_ k' j' → k = k' ∧ j = j') →
      ∃ t, exec (.vst core w) s = .next t ∧
        (∀ k < n, ∀ j < es, t.byte (at_ k j) = BitVec.ofNat 8 (lane (8 * es) (s.v core.val w.vd.toNat) k / 256 ^ j)) ∧
        BytesKept s t (fun x => ∃ k < n, ∃ j < es, x = at_ k j) ∧ NextWord s t core ∧
        { t with fields := s.fields, mem := s.mem, errs := s.errs } = s ∧ Kept s t (fun k => k = pcKey core) ∧
        ∀ k, Store.getD t.errs k 0 = Store.getD s.errs k 0)

/-- R106: VCVT converts each lane below n by R77-R80, nearest even or with the 16 random bits of R81, maps the lanes of a
widening or a narrowing through PART, sets VSTAT.ISAT or FSAT where a lane clamps or saturates, and counts SRSEQ after a
stochastic conversion of at least one lane. R107, R75, R85: VMXQ quantises the groups of 32 lanes that have a lane below n: their elements below n and their scale
byte in 8-bit lane 64 + group, lanes at or above n counting as +0; VMXE expands elements below n to BF16. -/
def Obligations.VectorConversions : Prop :=
  (∀ (core : CoreId) (w : VecWord) (s : State) (src dst : CvtFmt) (part n : Nat) (stoch : Bool), Ready s core → w.ty = 0 →
    w.rsv = 0 → w.vs2 = 0 → w.vs3 = 0 → w.bc = 0 → cvtFmt (w.imm.toNat / 16 % 16) = some src →
    cvtFmt (w.imm.toNat % 16) = some dst → part = w.imm.toNat / 256 % 4 →
    part < max src.width dst.width / min src.width dst.width → stoch = decide (w.imm.toNat / 1024 % 2 = 1) →
    n = activeLanes s core (max src.width dst.width) →
    let first := if dst.width < src.width then part * (1024 / src.width) else 0
    let from_ := fun k => k - first + (if src.width < dst.width then part * (1024 / dst.width) else 0)
    let rnd := fun k => if stoch then Rnd.sr (srBits (s.rd Reg.NUM_SR.SEED core.val) (s.rd Reg.NUM_SR.STEP core.val) core.val
      (0x800000 ||| s.rd Reg.VEC_SRSEQ.SEQ core.val) k) else Rnd.rne
    let out := fun k => cvtElem src dst (rnd k) (decide (w.imm.toNat / 2048 % 2 = 1))
      (lane src.width (s.v core.val w.vs1.toNat) (from_ k))
    ∃ t, exec (.vcvt core w) s = .next t ∧
      LanesAre s t core w.vd dst.width (fun k => first ≤ k ∧ k < first + n) (fun k => (out k).val) ∧
      StickyIf s t core Reg.VSTAT.ISAT (∃ k, first ≤ k ∧ k < first + n ∧ (out k).isat = true) ∧
      StickyIf s t core Reg.VSTAT.FSAT (∃ k, first ≤ k ∧ k < first + n ∧ (out k).fsat = true) ∧
      (stoch = true → 0 < n → t.rd Reg.VEC_SRSEQ.SEQ core.val = (s.rd Reg.VEC_SRSEQ.SEQ core.val + 1) % 2 ^ 23) ∧
      (stoch = false ∨ n = 0 → t.rd Reg.VEC_SRSEQ.SEQ core.val = s.rd Reg.VEC_SRSEQ.SEQ core.val) ∧ NextWord s t core ∧
      OnlyVector s t core w.vd
        [Reg.VSTAT.ISAT.key core.val 0, Reg.VSTAT.FSAT.key core.val 0, Reg.VEC_SRSEQ.SEQ.key core.val 0]) ∧
  (∀ (core : CoreId) (w : VecWord) (s : State) (code n : Nat), Ready s core → w.rsv = 0 → w.vs2 = 0 → w.vs3 = 0 → w.bc = 0 →
    code = w.imm.toNat % 16 → (code = 5 ∨ code = 6 ∨ code = 9) →
    let wd := typeWidth w.ty.toNat
    let ew := codeWidth code
    let x := s.v core.val w.vs1.toNat
    n = activeLanes s core wd →
    ((w.ty = 6 ∨ w.ty = 7) → w.imm.toNat / 16 % 4 = 0 → w.imm.toNat / 128 = 0 →
      let stoch := decide (w.imm.toNat / 64 % 2 = 1)
      let rnd := fun i => if stoch then Rnd.sr (srBits (s.rd Reg.NUM_SR.SEED core.val) (s.rd Reg.NUM_SR.STEP core.val)
        core.val (0x800000 ||| s.rd Reg.VEC_SRSEQ.SEQ core.val) i) else Rnd.rne
      let group := fun g => mxGroup (codeFmt code) (fun j => rnd (32 * g + j)) ((List.range 32).map (fun j =>
        if 32 * g + j < n then (tyFmt w.ty.toNat).decode (lane wd x (32 * g + j)) else .fin false 0 0))
      ∃ t, exec (.vmxq core w) s = .next t ∧
        (∀ k < n, lane ew (t.v core.val w.vd.toNat) k = ((group (k / 32)).elems[k % 32]?.getD 0) % 2 ^ ew) ∧
        (∀ g, 32 * g < n → lane 8 (t.v core.val w.vd.toNat) (64 + g) = (group g).scale % 256) ∧
        (∀ b < 1024, ew * n ≤ b → (∀ g, 32 * g < n → b / 8 ≠ 64 + g) →
          (t.v core.val w.vd.toNat).getLsbD b = (s.v core.val w.vd.toNat).getLsbD b) ∧
        StickyIf s t core Reg.VSTAT.FSAT (∃ g, 32 * g < n ∧ (group g).sat = true) ∧
        (stoch = true → 0 < n → t.rd Reg.VEC_SRSEQ.SEQ core.val = (s.rd Reg.VEC_SRSEQ.SEQ core.val + 1) % 2 ^ 23) ∧
        (stoch = false ∨ n = 0 → t.rd Reg.VEC_SRSEQ.SEQ core.val = s.rd Reg.VEC_SRSEQ.SEQ core.val) ∧ NextWord s t core ∧
        OnlyVector s t core w.vd [Reg.VSTAT.FSAT.key core.val 0, Reg.VEC_SRSEQ.SEQ.key core.val 0]) ∧
    (w.ty = 6 → w.imm.toNat / 16 = 0 →
      let scale := fun k => lane 8 x (64 + k / 32)
      ∃ t, exec (.vmxe core w) s = .next t ∧
        LanesAre s t core w.vd 16 (fun k => k < n) (fun k => mxExpand (codeFmt code) (scale k) (lane ew x k)) ∧
        StickyIf s t core Reg.VSTAT.FSAT (∃ k < n, ∃ a m e, scale k ≠ 0xFF ∧
          (codeFmt code).decode (lane ew x k) = .fin a m e ∧
          (bf16.convert .rne true (.fin a m (e + ((scale k : Int) - 127)))).sat = true) ∧ NextWord s t core ∧
        OnlyVector s t core w.vd [Reg.VSTAT.FSAT.key core.val 0]))

/-- R115: an instruction word with a nonzero reserved field is discarded: HND_ILL records it, the core halts with CAUSE 2 and
ILLEGAL_INSN (0x03) is raised. So are a misaligned load or store, a branch or jump out of 0-2,047, a VSETVL width of 3 and a word of
reserved UNIT or OP (a reserved operation of the array's unit as R55 has it). R55: an array instruction with a reserved format, operand formats of different depth or kind, a bin of the other type or
a nonzero reserved field is discarded, sets ARR_STAT.ILL, halts the core with CAUSE 3 and raises ARRAY_ILLEGAL (0x33). -/
def Obligations.DiscardedWords : Prop :=
  ((∀ p ∈ ([(Instr.add, 0x01), (Instr.sub, 0x02), (Instr.and, 0x03), (Instr.or, 0x04), (Instr.xor, 0x05), (Instr.shl, 0x06),
      (Instr.shr, 0x07), (Instr.sra, 0x08), (Instr.slt, 0x09), (Instr.sltu, 0x0A), (Instr.mul, 0x0B), (Instr.addi, 0x10),
      (Instr.andi, 0x11), (Instr.ori, 0x12), (Instr.shli, 0x13), (Instr.shri, 0x14), (Instr.srai, 0x15), (Instr.lih, 0x16),
      (Instr.ld, 0x20), (Instr.st, 0x21), (Instr.ldw, 0x22), (Instr.stw, 0x23), (Instr.csrr, 0x28), (Instr.csrw, 0x29),
      (Instr.beq, 0x30), (Instr.bne, 0x31), (Instr.blt, 0x32), (Instr.bge, 0x33), (Instr.bltu, 0x34), (Instr.jal, 0x38),
      (Instr.jr, 0x39), (Instr.vsetvl, 0x40)] : List ((CoreId → HandWord → Instr) × BitVec 8)),
    ∀ (core : CoreId) (w : HandWord) (s : State), s.canIssue core.val = true →
      (w.rsv ≠ 0 ∨
       (p.2 ∈ [0x20#8, 0x21#8] ∧ ((s.h core.val w.hs1.toNat + BitVec.ofInt 64 w.imm.toInt).toNat % 2 ^ 18) % 8 ≠ 0) ∨
       (p.2 ∈ [0x22#8, 0x23#8] ∧ ((s.h core.val w.hs1.toNat + BitVec.ofInt 64 w.imm.toInt).toNat % 2 ^ 18) % 4 ≠ 0) ∨
       (p.2 ∈ [0x30#8, 0x31#8, 0x32#8, 0x33#8, 0x34#8, 0x38#8] ∧
         ((s.rd Reg.HND_STAT.PC core.val : Int) + w.imm.toInt < 0 ∨
           2047 < (s.rd Reg.HND_STAT.PC core.val : Int) + w.imm.toInt)) ∨
       (p.2 = 0x39#8 ∧ 2047 < (s.h core.val w.hs1.toNat).toNat) ∨ (p.2 = 0x40#8 ∧ w.imm.toNat % 4 = 3)) →
      ∃ t, exec (p.1 core w) s = .next t ∧ Discarded s t core (w.word p.2) 2 0x03) ∧
  ∀ p ∈ ([(Instr.vadd, 0x01), (Instr.vfma, 0x33), (Instr.vrcp, 0x42), (Instr.vcvt, 0x48), (Instr.vmxq, 0x49),
      (Instr.vperm, 0x50), (Instr.vrsum, 0x58), (Instr.vins, 0x5C), (Instr.vld, 0x60), (Instr.vst, 0x61)] :
        List ((CoreId → VecWord → Instr) × BitVec 8)),
    ∀ (core : CoreId) (w : VecWord) (s : State), s.canIssue core.val = true → w.rsv ≠ 0 →
      ∃ t, exec (p.1 core w) s = .next t ∧ Discarded s t core (w.word p.2) 2 0x03) ∧
  (∀ (core : CoreId) (w : Word) (s : State), s.canIssue core.val = true → (wfield w 60 4 : BitVec 4) ≠ 2 →
    let f := HandWord.read w
    ((wfield w 52 12 : BitVec 12) ≠ 0x07F ∨ f.rsv ≠ 0 ∨ f.hd ≠ 0 ∨ f.hs1 ≠ 0 ∨ f.hs2 ≠ 0) →
    ∃ t, exec (.halt core w) s = .next t ∧ Discarded s t core w 2 0x03) ∧
  (∀ (core : CoreId) (s : State), s.canIssue core.val = true → (s.core core.val).arrQ.length < 4 →
    (∀ w : Word, (wfield w 60 4 : BitVec 4) = 2 →
      ∃ t, exec (.halt core w) s = .next t ∧ Discarded s t core w 3 0x33 ∧ t.rd Reg.ARR_STAT.ILL core.val = 1) ∧
    (∀ w : AmmaWord,
      (w.rsv ≠ 0 ∨ w.fmta = 0 ∨ 0xB < w.fmta.toNat ∨ w.fmtb = 0 ∨ 0xB < w.fmtb.toNat ∨
        codeDepth w.fmta.toNat ≠ codeDepth w.fmtb.toNat ∨ codeInt w.fmta.toNat ≠ codeInt w.fmtb.toNat ∨
        (w.zero = 0 ∧ s.issuedInt core.val w.bin.toNat ≠ codeInt w.fmta.toNat) ∨
        (w.ta = 1 ∧ (w.srca = 1 ∨ codeMx w.fmta.toNat = true)) ∨ (w.tb = 1 ∧ (w.srcb = 1 ∨ codeMx w.fmtb.toNat = true))) →
      ∃ t, exec (.amma core w) s = .next t ∧ Discarded s t core w.word 3 0x33 ∧ t.rd Reg.ARR_STAT.ILL core.val = 1) ∧
    (∀ w : AdrainWord,
      (w.rsv ≠ 0 ∨ 5 < w.fmto.toNat ∨ 1 < w.rnd.toNat ∨
        (s.issuedInt core.val w.bin.toNat = true ↔ w.fmto ≠ 5)) →
      ∃ t, exec (.adrain core w) s = .next t ∧ Discarded s t core w.word 3 0x33 ∧ t.rd Reg.ARR_STAT.ILL core.val = 1) ∧
    (∀ w : AemitWord, w.rsv ≠ 0 →
      ∃ t, exec (.aemit core w) s = .next t ∧ Discarded s t core w.word 3 0x33 ∧ t.rd Reg.ARR_STAT.ILL core.val = 1) ∧
    ∀ rsv : BitVec 56, rsv ≠ 0 →
      ∃ t, exec (.afence core rsv) s = .next t ∧ Discarded s t core (afenceWord rsv) 3 0x33 ∧
        t.rd Reg.ARR_STAT.ILL core.val = 1)

/-- R98, R12: CSRR gives hd the value the own core's register at offset IMM[11:0] shows, and clears its RC fields. R98, R99, R12: CSRW writes hs2 to the own core's register at offset IMM[11:0]: an RW field takes its bits, a 1 clears a
W1C bit; the RW field of HND_CTL ignores the hand (R99); a write of TLY_BIND holds the hand (R88). -/
def Obligations.CsrAccessByTheHand : Prop :=
  (∀ (core : CoreId) (w : HandWord) (s : State), Ready s core → w.rsv = 0 → w.hs1 = 0 → w.hs2 = 0 → w.imm.toNat % 8 = 0 →
    let a := 0x200010000000 + core.val * 0x1000 + w.imm.toNat % 0x1000
    ∃ t, exec (.csrr core w) s = .next t ∧ HandResult s t core w.hd (BitVec.ofNat 64 (s.readReg a)) ∧ NextWord s t core ∧
      (∀ p ∈ fieldsAt a, p.1.acc = .rc → t.rd p.1 p.2.1 p.2.2 = 0) ∧
      { t with fields := s.fields } = s ∧ BytesKept s t (fun _ => False) ∧
      Kept s t (fun k => k ∈ pcKey core :: hKeys core w.hd ∨
        ∃ p ∈ fieldsAt a, p.1.acc = .rc ∧ k = p.1.key p.2.1 p.2.2)) ∧
  ((∀ f ∈ [Reg.ARR_CHK.CHK_LIMIT, Reg.NUM_SR.SEED, Reg.TLY_CTL.SLOT, Reg.SP_SCRUB.EN],
    ∀ (core : CoreId) (w : HandWord) (s : State), Ready s core → s.corePresent core.val = true → w.rsv = 0 → w.hd = 0 →
      w.hs1 = 0 → w.imm.toNat % 0x1000 = f.off →
      ∃ t, exec (.csrw core w) s = .next t ∧
        t.rd f core.val = (s.h core.val w.hs2.toNat).toNat / 2 ^ f.lo % 2 ^ f.width ∧ NextWord s t core ∧
        OnlyFields s t [pcKey core, f.key core.val 0]) ∧
  (∀ (core : CoreId) (w : HandWord) (s : State), Ready s core → s.corePresent core.val = true → w.rsv = 0 → w.hd = 0 →
      w.hs1 = 0 → w.imm.toNat % 0x1000 = 0x20 →
      let v := s.h core.val w.hs2.toNat
      ∃ t, exec (.csrw core w) s = .next t ∧
        t.rd Reg.VSTAT.OOR core.val = (if v.getLsbD 0 then 0 else s.rd Reg.VSTAT.OOR core.val) ∧
        t.rd Reg.VSTAT.ISAT core.val = (if v.getLsbD 1 then 0 else s.rd Reg.VSTAT.ISAT core.val) ∧
        t.rd Reg.VSTAT.FSAT core.val = (if v.getLsbD 2 then 0 else s.rd Reg.VSTAT.FSAT core.val) ∧ NextWord s t core ∧
        OnlyFields s t [pcKey core, Reg.VSTAT.OOR.key core.val 0, Reg.VSTAT.ISAT.key core.val 0,
          Reg.VSTAT.FSAT.key core.val 0]) ∧
  (∀ (core : CoreId) (w : HandWord) (s : State), Ready s core → w.rsv = 0 → w.hd = 0 → w.hs1 = 0 →
      w.imm.toNat % 0x1000 = 0 → ∃ t, exec (.csrw core w) s = .next t ∧ NextWord s t core ∧ OnlyFields s t [pcKey core]) ∧
  ∀ (core : CoreId) (w : HandWord) (s : State) (n : Fin 4), Ready s core → w.rsv = 0 → w.hd = 0 → w.hs1 = 0 →
      w.imm.toNat % 0x1000 = 0x188 + 8 * n.val →
      ∃ t, exec (.csrw core w) s = .next t ∧
        t.core core.val = { s.core core.val with hold := .tlyBind n.val (s.h core.val w.hs2.toNat) } ∧
        (∀ c, c ≠ core.val → t.core c = s.core c) ∧ NextWord s t core ∧
        { t with fields := s.fields, cores := s.cores } = s ∧ Kept s t (fun k => k = pcKey core) ∧
        BytesKept s t (fun _ => False))

/-! ### The matrix array (chapters 02, 03, 14) -/

/-- R49-R53: a legal AMMA, ADRAIN or AEMIT of a hand that can issue enters the array's queue of four behind the others, with
its fields and descriptors as they stand; AFENCE enters it too and holds the hand; an AMMA of no tiles changes nothing but PC. -/
def Obligations.ArrayIssue : Prop :=
  (∀ (core : CoreId) (s : State) (i : Instr) (insn : ArrInsn), Ready s core → (s.core core.val).arrQ.length < 4 →
    ((∃ w : AmmaWord, i = .amma core w ∧ s.ammaOk core.val w = true ∧ w.tiles ≠ 0 ∧ insn = .mma
        { fmta := w.fmta.toNat, fmtb := w.fmtb.toNat, bin := w.bin.toNat, zero := decide (w.zero = 1)
          ta := decide (w.ta = 1), tb := decide (w.tb = 1), srca := decide (w.srca = 1), srcb := decide (w.srcb = 1)
          tiles := w.tiles.toNat, da := s.h core.val w.ha.toNat, sa := s.h core.val (w.ha.toNat + 1)
          db := s.h core.val w.hb.toNat, sb := s.h core.val (w.hb.toNat + 1) }) ∨
     (∃ w : AdrainWord, i = .adrain core w ∧ s.adrainOk core.val w = true ∧
        insn = .drain w.fmto.toNat (s.h core.val w.hd.toNat) w.bin.toNat w.rnd.toNat (decide (w.sat = 1))
          (decide (w.tally = 1))) ∨
     (∃ w : AemitWord, i = .aemit core w ∧ w.rsv = 0 ∧
        insn = .emit w.bin.toNat w.floor.toNat w.sheaf.toNat w.tile.toNat)) →
    ∃ t, exec i s = .next t ∧
      (t.core core.val).arrQ = (s.core core.val).arrQ ++ [((s.core core.val).arrSeq, insn)] ∧
      { t.core core.val with
          arrQ := (s.core core.val).arrQ, arrSeq := (s.core core.val).arrSeq
          issInt0 := (s.core core.val).issInt0, issInt1 := (s.core core.val).issInt1 } = s.core core.val ∧
      (∀ c, c ≠ core.val → t.core c = s.core c) ∧
      t.rd Reg.ARR_STAT.QDEPTH core.val = (s.core core.val).arrQ.length + 1 ∧ t.rd Reg.ARR_STAT.BUSY core.val = 1 ∧
      NextWord s t core ∧ { t with fields := s.fields, cores := s.cores } = s ∧ BytesKept s t (fun _ => False) ∧
      Kept s t (fun k => k ∈ [pcKey core, Reg.ARR_STAT.QDEPTH.key core.val 0, Reg.ARR_STAT.BUSY.key core.val 0])) ∧
  (∀ (core : CoreId) (s : State) (w : AmmaWord), Ready s core → (s.core core.val).arrQ.length < 4 →
    s.ammaOk core.val w = true → w.tiles = 0 →
    ∃ t, exec (.amma core w) s = .next t ∧ NextWord s t core ∧ OnlyFields s t [pcKey core]) ∧
  (∀ (core : CoreId) (s : State), Ready s core → (s.core core.val).arrQ.length < 4 →
    ∃ t, exec (.afence core 0) s = .next t ∧
      t.core core.val = { s.core core.val with
        arrQ := (s.core core.val).arrQ ++ [((s.core core.val).arrSeq, .fence)], arrSeq := (s.core core.val).arrSeq + 1
        hold := .afence } ∧
      (∀ c, c ≠ core.val → t.core c = s.core c) ∧
      t.rd Reg.ARR_STAT.QDEPTH core.val = (s.core core.val).arrQ.length + 1 ∧ t.rd Reg.ARR_STAT.BUSY core.val = 1 ∧
      NextWord s t core ∧ { t with fields := s.fields, cores := s.cores } = s ∧ BytesKept s t (fun _ => False) ∧
      Kept s t (fun k => k ∈ [pcKey core, Reg.ARR_STAT.QDEPTH.key core.val 0, Reg.ARR_STAT.BUSY.key core.val 0]))

/-- R52, R53, R54: an AFENCE at the queue's head leaves once the array is idle and lets the hand go on, which halts the core behind
word 2,047 (R115); another head goes to its engine's free pending place; an AMMA starts behind the last step of the one before, and so late
that its first merge comes behind the last bin read of every earlier read-out of its bin, cold, in a running ramp or warm (R57), by
reading its first tiles, at most three (log entry 55), and leaves the pending place. Scratchpad free of latent
errors. R50, R58, R77-R81: a drain that no slot of the tally observes writes its 16 rows of 16 elements, each the cell's code or its
conversion, at the destination and its row distance; nothing else in memory changes. R330-R332: an emission puts the tile's
four packets behind the emission path and counts the tile; an exact tile is retained. Either keeps its engine for its bin reads. -/
def Obligations.ArrayQueueAndReadOut : Prop :=
  ((∀ (core : CoreId) (s : State) (q : Nat) (rest : List (Nat × ArrInsn)),
    (s.core core.val).arrQ = (q, .fence) :: rest → s.arrIdle core.val = true → s.stopped core.val = false →
    ((s.core core.val).runOff = false → ∃ t, exec (.afenceRelease core) s = .next t ∧
      t.core core.val = { s.core core.val with
        arrQ := rest, hold := if (s.core core.val).hold = .afence then .none else (s.core core.val).hold } ∧
      (∀ c, c ≠ core.val → t.core c = s.core c) ∧ { t with fields := s.fields, cores := s.cores } = s ∧
      BytesKept s t (fun _ => False) ∧
      Kept s t (fun k => k ∈ [Reg.ARR_STAT.QDEPTH.key core.val 0, Reg.ARR_STAT.BUSY.key core.val 0])) ∧
    ((s.core core.val).runOff = true → (s.core core.val).hold = .afence → s.rd Reg.HND_STAT.HALTED core.val = 0 →
      ∃ t, exec (.afenceRelease core) s = .next t ∧ (t.core core.val).arrQ = rest ∧
        Discarded s t core 0 2 0x03)) ∧
  (∀ (core : CoreId) (s : State) (q : Nat) (i : ArrInsn) (rest : List (Nat × ArrInsn)),
    (s.core core.val).arrQ = (q, i) :: rest → i ≠ .fence → s.croftIssues (croftOf core.val) = true →
    (if i.isMma then (s.core core.val).mmaPend = none else (s.core core.val).rdPend = none) →
    ∃ t, exec (.arrayDispatch core) s = .next t ∧
      t.core core.val = (if i.isMma then { s.core core.val with arrQ := rest, mmaPend := some (q, i) }
        else { s.core core.val with arrQ := rest, rdPend := some (q, i) }) ∧
      (∀ c, c ≠ core.val → t.core c = s.core c) ∧ t.rd Reg.ARR_STAT.BUSY core.val = 1 ∧
      { t with fields := s.fields, cores := s.cores } = s ∧ BytesKept s t (fun _ => False) ∧
      Kept s t (fun k => k ∈ [Reg.ARR_STAT.QDEPTH.key core.val 0, Reg.ARR_STAT.BUSY.key core.val 0])) ∧
  ∀ (core : CoreId) (s : State) (sub : Fin 8) (q : Nat) (i : MmaInsn),
    let now := s.cycle (croftOf core.val) sub.val
    let n := max 1 (min 3 i.tiles)
    let cold := s.cold core.val sub.val
    let begins := cold && (s.core core.val).ramp.isNone
    let beat := (s.consBeat core.val sub.val).toNat
    s.stopped core.val = false → s.rd Reg.SP_STAT.LOCKED core.val = 0 → (s.core core.val).mmaPend = some (q, .mma i) →
    (s.core core.val).feed = none → (s.core core.val).flight = [] → (s.core core.val).stepEnd ≤ now →
    (s.core core.val).readBefore i.bin q (now + (if begins then 57 else 45)) = false → i.srca = false → i.srcb = false → s.rd Reg.FUR_STAT.INJ_A core.val ≠ 1 → s.rd Reg.FUR_STAT.INJ_B core.val ≠ 1 →
    (∀ cw, s.wordErr core.val cw = 0) →
    ∃ t, exec (.arrayEngineStart core false sub) s = .next t ∧
      t.core core.val = { s.core core.val with
        mmaPend := none, feed := if 3 < i.tiles then some ⟨q, i, 3, begins, beat⟩ else none
        flight := (List.range n).map (fun k =>
          { seq := q, insn := i, tile := k
            a := (s.readTile core.val 0 i.fmta i.da i.sa i.ta k).1, b := (s.readTile core.val 1 i.fmtb i.db i.sb i.tb k).1
            cold := begins, beat := beat })
        stepEnd := now + 16 * i.tiles + (if begins then 12 else 0)
        ramp := if begins then some (now + 32) else if cold then (s.core core.val).ramp else none } ∧
      (∀ c, c ≠ core.val → t.core c = s.core c) ∧ t.rd Reg.ARR_STAT.COLD core.val = (if cold then 1 else 0) ∧
      t.rd Reg.ARR_COUNT.STEPS core.val = (s.rd Reg.ARR_COUNT.STEPS core.val + 16 * n) % 2 ^ Reg.ARR_COUNT.STEPS.width ∧
      { t with fields := s.fields, cores := s.cores } = s ∧ BytesKept s t (fun _ => False) ∧
      Kept s t (fun k => k ∈ [Reg.ARR_COUNT.STEPS.key core.val 0, Reg.ARR_STAT.COLD.key core.val 0,
        Reg.ARR_STAT.QDEPTH.key core.val 0, Reg.ARR_STAT.BUSY.key core.val 0])) ∧
  ((∀ (core : CoreId) (s : State) (sub : Fin 8) (q fmto : Nat) (desc : Word) (bin rnd : Nat) (sat : Bool),
    let now := s.cycle (croftOf core.val) sub.val
    s.stopped core.val = false → s.rd Reg.SP_STAT.LOCKED core.val = 0 →
    (s.core core.val).rdPend = some (q, .drain fmto desc bin rnd sat false) →
    (s.core core.val).mmaBefore bin q = false → (∀ r, (s.core core.val).rdRun = some r → r.readEnd ≤ now) → fmto ≤ 5 →
    let at_ := fun i n j => spAddr core.val (dAddr desc + i * dBstride desc + (n * fmtoBytes fmto + j))
    let stoch := decide (rnd = 1 ∧ 1 ≤ fmto ∧ fmto ≤ 4)
    let code := fun k => if fmto = 5 then (s.binCell core.val bin k).toNat
      else ((fmtoFmt fmto).convert
        (if stoch then .sr (srBits (s.rd Reg.NUM_SR.SEED core.val) (s.rd Reg.NUM_SR.STEP core.val) core.val
          (s.rd Reg.NUM_SR_SEQ.SEQ core.val) k) else .rne)
        (sat && decide (fmto ≠ 0)) ((fp32.decode (s.binCell core.val bin k).toNat).scale 0)).code
    let reads := if fmto = 0 ∨ fmto = 5 then 32 else 16
    (∀ cw, s.wordErr core.val cw = 0) →
    (∀ i < 16, ∀ n < 16, ∀ j < fmtoBytes fmto, ∀ i' < 16, ∀ n' < 16, ∀ j' < fmtoBytes fmto,
      at_ i n j = at_ i' n' j' → i = i' ∧ n = n' ∧ j = j') →
    ∃ t, exec (.arrayEngineStart core true sub) s = .next t ∧
      (∀ i < 16, ∀ n < 16, ∀ j < fmtoBytes fmto, t.byte (at_ i n j) = BitVec.ofNat 8 (code (16 * i + n) / 256 ^ j)) ∧
      BytesKept s t (fun a => ∃ i < 16, ∃ n < 16, ∃ j < fmtoBytes fmto, a = at_ i n j) ∧
      t.core core.val = { s.core core.val with
        rdPend := none, rdRun := some ⟨q, bin, none, now + reads, now + reads + 4⟩ } ∧
      (∀ c, c ≠ core.val → t.core c = s.core c) ∧
      t.rd Reg.NUM_SR_SEQ.SEQ core.val =
        (if stoch then (s.rd Reg.NUM_SR_SEQ.SEQ core.val + 1) % 2 ^ Reg.NUM_SR_SEQ.SEQ.width else s.rd Reg.NUM_SR_SEQ.SEQ core.val) ∧
      { t with fields := s.fields, cores := s.cores, mem := s.mem, errs := s.errs } = s ∧
      (∀ k, Store.getD t.errs k 0 = Store.getD s.errs k 0) ∧
      Kept s t (fun k => k ∈ [Reg.NUM_SR_SEQ.SEQ.key core.val 0, Reg.ARR_STAT.QDEPTH.key core.val 0,
        Reg.ARR_STAT.BUSY.key core.val 0])) ∧
  ∀ (core : CoreId) (s : State) (sub : Fin 8) (q bin floor sheaf tile : Nat),
    let now := s.cycle (croftOf core.val) sub.val
    s.stopped core.val = false → s.rd Reg.SP_STAT.LOCKED core.val = 0 →
    (s.core core.val).rdPend = some (q, .emit bin floor sheaf tile) →
    (s.core core.val).mmaBefore bin q = false → (∀ r, (s.core core.val).rdRun = some r → r.readEnd ≤ now) →
    (s.core core.val).emit.length ≤ 4 →
    (s.exactEntry core.val sheaf ≠ none → (s.core core.val).retention.length < 8) →
    let vals := (List.range 256).map (fun k =>
      if s.binInt core.val bin then FVal.ofInt (s.binCell core.val bin k).toInt
      else fp32.decode (s.binCell core.val bin k).toNat)
    let ent := s.exactEntry core.val sheaf
    let round := (ent.map (fun j => s.rd Reg.EMIT_SCALE.ROUND core.val j)).getD 0
    ∃ t, exec (.arrayEngineStart core true sub) s = .next t ∧
      t.core core.val = { s.core core.val with
        rdPend := none, rdRun := some ⟨q, bin, none, now + 32, now + 32⟩
        emit := (s.core core.val).emit ++ s.tilePackets core.val floor sheaf tile round
          (ent.map (fun j => sint 9 (s.rd Reg.EMIT_SCALE.S core.val j))) vals
        retention := (s.core core.val).retention ++
          (match ent with
           | some _ => [⟨sheaf, tile, floor, vals.map fp32.round, round, false⟩]
           | none => []) } ∧
      (∀ c, c ≠ core.val → t.core c = s.core c) ∧
      t.rd Reg.EMIT_STAT.TILES core.val =
        min (s.rd Reg.EMIT_STAT.TILES core.val + 1) (2 ^ Reg.EMIT_STAT.TILES.width - 1) ∧
      { t with fields := s.fields, cores := s.cores } = s ∧ BytesKept s t (fun _ => False) ∧
      Kept s t (fun k => k ∈ [Reg.EMIT_STAT.TILES.key core.val 0, Reg.EMIT_STAT.RET_USED.key core.val 0,
        Reg.EMIT_STAT.BUSY.key core.val 0, Reg.EMIT_STAT.REEMIT.key core.val 0, Reg.ARR_STAT.QDEPTH.key core.val 0,
        Reg.ARR_STAT.BUSY.key core.val 0]))

/-- R40, R41, R43, R57, R60-R64: a verdict on the oldest tile waiting (`re`: on its re-run). A plane that passes merges cell by cell
into its bin, set by the first tile of an AMMA with ZERO, else added, integers saturating and floats rounded once; the array is warm.
A plane that fails merges nothing: its place is recorded, the counts go up, CHECKSUM (0x31) is raised, the tile is run again, and a
core of a running segment asks for a hold (R159); a second failure raises ARRAY_FAULT (0x32) and halts the core with CAUSE 3. The cells are those of
R37, R60, R67 with what a fault puts in their place. -/
def Obligations.TileVerdicts : Prop :=
  ∀ (core : CoreId) (s : State) (cells : CheckCells) (sub : Fin 8) (r0 r : MmaRun) (rest : List MmaRun) (re : Bool),
    (s.core core.val).flight = r0 :: rest →
    (if re then (s.core core.val).retry = true ∧ s.croftIssues (croftOf core.val) = true ∧ r = r0
     else s.stopped core.val = false ∧
        (s.core core.val).readBefore r0.insn.bin r0.seq (s.cycle (croftOf core.val) sub.val) = false ∧
        s.tileOperands core.val r0 = some r) →
    let i := if re then Instr.tileRerunVerdict core cells else .tileVerdict core cells sub
    let isInt := codeInt r.insn.fmta
    let x := s.cellsOf core.val r cells
    let plane := x.plane
    let v := verdict isInt x
    let bad := r.a.poison || r.b.poison
    let set := r.insn.zero && decide (r.tile = 0)
    let cell := fun k => s.binCell core.val r.insn.bin k
    let sum := fun k => if set then plane.getD k 0 else (cell k).toInt + plane.getD k 0
    let y := s.core core.val
    (v.pass = true → bad = false → y.feed = none → r.insn.bin < 2 →
      (re = true → ∀ p, y.catchUp = some p → s.rd Reg.FUR_STAT.CATCH core.val + p.2 ≤ 128) →
      ∃ t, exec i s = .next t ∧
        (∀ k < 256, t.binCell core.val r.insn.bin k =
          if isInt then BitVec.ofInt 32 (max (-2147483648) (min 2147483647 (sum k)))
          else if set then BitVec.ofInt 32 (plane.getD k 0)
          else BitVec.ofNat 32 (fp32.round (FVal.add (fp32.decode (cell k).toNat) (fp32.decode (plane.getD k 0).toNat)))) ∧
        (∀ c b k, b < 2 → k < 256 → c ≠ core.val ∨ b ≠ r.insn.bin → t.binCell c b k = s.binCell c b k) ∧
        StickyIf s t core Reg.ARR_STAT.ISAT (isInt = true ∧ ∃ k < 256, sum k < -2147483648 ∨ 2147483647 < sum k) ∧
        StickyIf s t core Reg.ARR_STAT.NONFINITE (v.nonfinite = true) ∧ t.rd Reg.ARR_STAT.COLD core.val = 0 ∧
        (set = true → t.binInt core.val r.insn.bin = isInt) ∧
        t.core core.val =
          (if re then
            { y with
              flight := rest, ramp := none, retry := false, catchUp := none
              stepEnd := if y.stepEnd = 0 ∧ y.ramp = none then 0 else y.stepEnd + r.count }
          else { y with flight := rest, ramp := none }) ∧
        (re = true → ∀ p, y.catchUp = some p → t.rd Reg.FUR_STAT.CATCH core.val = s.rd Reg.FUR_STAT.CATCH core.val + p.2) ∧
        (∀ c, c ≠ core.val → t.core c = s.core c) ∧
        { t with fields := s.fields, cores := s.cores, bins := s.bins } = s ∧ BytesKept s t (fun _ => False) ∧
        Kept s t (fun k => k ∈ [Reg.ARR_STAT.ISAT.key core.val 0, Reg.ARR_STAT.NONFINITE.key core.val 0,
          Reg.ARR_STAT.COLD.key core.val 0, Reg.ARR_STAT.BIN0_INT.key core.val 0, Reg.ARR_STAT.BIN1_INT.key core.val 0,
          Reg.ARR_STAT.QDEPTH.key core.val 0, Reg.ARR_STAT.BUSY.key core.val 0] ∨
          (re = true ∧ y.catchUp ≠ none ∧ k = Reg.FUR_STAT.CATCH.key core.val 0))) ∧
    ((v.pass = false ∨ bad = true) → re = false →
      ∃ t, exec i s = .next t ∧ t.bins = s.bins ∧ t.rd Reg.ARR_CHK.LOC_ROW core.val = (if bad then 31 else v.row) ∧
        t.rd Reg.ARR_CHK.LOC_COL core.val = (if bad then 31 else v.col) ∧ t.rd Reg.ARR_CHK.LOC_VALID core.val = 1 ∧
        (∀ f ∈ [Reg.ARR_CHK.CHK_TOTAL, Reg.ARR_CHK.CHK_STEP, Reg.ARR_COUNT.RETRIES],
          t.rd f core.val = min (s.rd f core.val + 1) (2 ^ f.width - 1)) ∧ t.rd Reg.ARR_STAT.COLD core.val = 0 ∧
        (∃ d, Raised s t ((s.enclOfCore core.val).getD 16) 0x31 0 core.val d) ∧
        t.core core.val = { y with
          flight := r :: rest, retry := true, ramp := none
          catchUp := if s.furRuns core.val then some (s.cycle (croftOf core.val) sub.val + 1, r.count) else y.catchUp } ∧
        (∀ c, c ≠ core.val → t.core c = s.core c) ∧
        (∀ g, t.seg g = if s.furRuns core.val = true ∧ s.segOf core.val = some g then
          { s.seg g with
            holds := addHold ⟨s.estTick (croftOf core.val), croftOf core.val, sub.val, r.count⟩ (s.seg g).holds }
          else s.seg g) ∧
        { t with fields := s.fields, cores := s.cores, events := s.events, segs := s.segs } = s ∧ BytesKept s t (fun _ => False) ∧
        Kept s t (fun k => k ∈ [Reg.ARR_STAT.NONFINITE.key core.val 0, Reg.ARR_STAT.COLD.key core.val 0,
          Reg.ARR_CHK.LOC_ROW.key core.val 0, Reg.ARR_CHK.LOC_COL.key core.val 0, Reg.ARR_CHK.LOC_VALID.key core.val 0,
          Reg.ARR_CHK.CHK_TOTAL.key core.val 0, Reg.ARR_CHK.CHK_STEP.key core.val 0, Reg.ARR_COUNT.RETRIES.key core.val 0] ∨
          lostKey k)) ∧
    ((v.pass = false ∨ bad = true) → re = true →
      ∃ t, exec i s = .next t ∧ t.bins = s.bins ∧ t.rd Reg.ARR_STAT.FAULT core.val = 1 ∧
        t.rd Reg.HND_STAT.HALTED core.val = 1 ∧ (s.rd Reg.HND_STAT.HALTED core.val ≠ 1 → t.rd Reg.HND_STAT.CAUSE core.val = 3) ∧
        (t.core core.val).flight = [] ∧ (t.core core.val).arrQ = [] ∧
        (∃ d, Raised s t ((s.enclOfCore core.val).getD 16) 0x32 0 core.val d) ∧ BytesKept s t (fun _ => False))

/-- R57: an array that has taken no step for 64 cycles is cold; R69, R13: a repair map that agrees takes effect on a halted core,
one that does not is discarded and CFG_MISMATCH (0x01) raised; R88: a write of TLY_BIND holds the hand, and its apply gives the
slot its new binding and releases the hand, or takes up the first write from outside that waits; behind word 2,047 the core then
halts (R115). -/
def Obligations.ArrayUpkeepAndTallyBinding : Prop :=
  (∀ (core : CoreId) (s : State), (s.core core.val).feed = none →
    (s.core core.val).stepEnd + 64 ≤ s.cycleEnd (croftOf core.val) → s.stopped core.val = false →
    ∃ t, exec (.arrayCool core) s = .next t ∧ t.rd Reg.ARR_STAT.COLD core.val = 1 ∧
      t.core core.val = { s.core core.val with ramp := none } ∧ (∀ c, c ≠ core.val → t.core c = s.core c) ∧
      { t with fields := s.fields, cores := s.cores } = s ∧ BytesKept s t (fun _ => False) ∧
      Kept s t (fun k => k = Reg.ARR_STAT.COLD.key core.val 0)) ∧
  (∀ (core : CoreId) (s : State), s.anyStaged [Reg.ARR_REPAIR.SPARE_EN, Reg.ARR_REPAIR.BAD_ROW] core.val = true →
    let en := s.stg Reg.ARR_REPAIR.SPARE_EN core.val
    let row := s.stg Reg.ARR_REPAIR.BAD_ROW core.val
    let ok := s.rd Reg.HND_STAT.HALTED core.val = 1 ∧ row ≤ 16 ∧ (en = 0 → row = 0) ∧
      (en = 1 → s.rd Reg.ARR_REPAIR.SPARE_GOOD core.val = 1)
    ∃ t, exec (.arrRepairCommit core) s = .next t ∧
      t.isStaged Reg.ARR_REPAIR.SPARE_EN core.val = false ∧ t.isStaged Reg.ARR_REPAIR.BAD_ROW core.val = false ∧
      (ok → t.rd Reg.ARR_REPAIR.SPARE_EN core.val % 2 = en % 2 ∧ t.rd Reg.ARR_REPAIR.BAD_ROW core.val % 32 = row % 32 ∧
        { t with fields := s.fields, stagedF := s.stagedF } = s ∧
        Kept s t (fun k => k ∈ [Reg.ARR_REPAIR.SPARE_EN.key core.val 0, Reg.ARR_REPAIR.BAD_ROW.key core.val 0])) ∧
      (¬ok → Raised s t ((s.enclOfCore core.val).getD 16) 0x01 0 core.val (Reg.ARR_REPAIR.COMMIT.addr core.val 0) ∧
        { t with fields := s.fields, stagedF := s.stagedF, events := s.events } = s ∧ Kept s t lostKey) ∧
      BytesKept s t (fun _ => False)) ∧
  (∀ (core : CoreId) (s : State) (n : Fin 4) (v : Word), s.canIssue core.val = true →
    ∃ t, exec (.tlyBind core n v) s = .next t ∧ t.core core.val = { s.core core.val with hold := .tlyBind n.val v } ∧
      (∀ c, c ≠ core.val → t.core c = s.core c) ∧ { t with cores := s.cores } = s ∧ BytesKept s t (fun _ => False)) ∧
  ∀ (core : CoreId) (s : State) (n : Fin 4) (v : Word),
    s.tallyWaits core.val n.val = false →
    (s.rd Reg.TLY_BIND.BOUND core.val n.val ≠ 1 ∨ (s.core core.val).flush = none) →
    let held := (s.core core.val).hold = .tlyBind n.val v ∧ s.stopped core.val = false
    let slotSet := fun t : State => t.rd Reg.TLY_BIND.TALLY_ID core.val n.val = v.toNat % 2 ^ 10 ∧
      t.rd Reg.TLY_BIND.BOUND core.val n.val = v.toNat / 2 ^ 10 % 2 ∧ t.rd Reg.TLY_BIND.SIGMA core.val n.val = v.toNat / 2 ^ 16 % 2 ^ 8
    (∀ x : CoreX,
      ((held ∧ (s.core core.val).runOff = false ∧ x = { s.core core.val with hold := .none }) ∨
       ((∀ m w, (s.core core.val).hold ≠ .tlyBind m w) ∧ ∃ rest, (s.core core.val).binds = (n.val, v) :: rest ∧
          x = { s.core core.val with binds := rest })) →
      ∃ t, exec (.tlyBindApply core) s = .next t ∧ slotSet t ∧
        (s.rd Reg.TLY_BIND.BOUND core.val n.val ≠ 1 → t.core core.val = x ∧
          Kept s t (fun k => k ∈ [Reg.TLY_BIND.TALLY_ID.key core.val n.val, Reg.TLY_BIND.BOUND.key core.val n.val,
            Reg.TLY_BIND.SIGMA.key core.val n.val])) ∧
        (s.rd Reg.TLY_BIND.BOUND core.val n.val = 1 →
          { t.core core.val with flush := x.flush, emit := x.emit } = x ∧
          (∀ f ∈ [Reg.TLY_CNT.ZERO, Reg.TLY_CNT.NONFIN, Reg.TLY_CNT.OVF, Reg.TLY_CNT.UNF, Reg.TLY_BIND.CSAT],
            t.rd f core.val n.val = 0) ∧
          (∀ j < 32, t.rd Reg.TLY_HIST.HIST_LO core.val (n.val * 32 + j) = 0 ∧
            t.rd Reg.TLY_HIST.HIST_HI core.val (n.val * 32 + j) = 0)) ∧
        (∀ c, c ≠ core.val → t.core c = s.core c) ∧ { t with fields := s.fields, cores := s.cores } = s ∧
        BytesKept s t (fun _ => False)) ∧
    (held → (s.core core.val).runOff = true → s.rd Reg.HND_STAT.HALTED core.val = 0 →
      ∃ t, exec (.tlyBindApply core) s = .next t ∧ slotSet t ∧ Discarded s t core 0 2 0x03)

/-! ### The furrow (chapter 06) -/

/-- R156, R157: a legal FINJ or FCAP of a core in a segment goes into its engine: running where the engine is empty, its start
beat not yet passed, else pending behind the running one; the hand moves on. No tiles change nothing but PC. R153: an entry armed
while the array still reads the same operand from the scratchpad is a fault with cause SLOT. -/
def Obligations.FurrowInstructionsArm : Prop :=
  ∀ (core : CoreId) (w : FurWord) (s : State) (sub : Fin 8) (cap : Bool), Ready s core → codeOk w.fmt.toNat = true →
    (w.trans = 0 ∨ (cap = false ∧ codeTrans w.fmt.toNat = true)) → w.rsv = 0 → s.rd Reg.FUR_POS.IN_SEG core.val = 1 →
    s.furDescOk core.val w cap = true →
    let i := if cap then Instr.fcap core w sub else .finj core w sub
    let e := if cap then 2 else w.lane.toNat
    let o : FurOp := { fmt := w.fmt.toNat, lane := w.lane.toNat, trans := decide (w.trans = 1), desc := s.h core.val w.hs.toNat,
                       sdesc := s.h core.val (w.hs.toNat + 1), beat := (s.h core.val w.hb.toNat).toNat % 2 ^ 48,
                       tiles := w.tiles.toNat, done := 0 }
    let frame := fun t : State => (∀ c, c ≠ core.val → t.core c = s.core c) ∧ NextWord s t core ∧
      { t with fields := s.fields, cores := s.cores } = s ∧ BytesKept s t (fun _ => False) ∧
      Kept s t (fun k => k ∈ [pcKey core, Reg.FUR_STAT.INJ_A.key core.val 0, Reg.FUR_STAT.INJ_B.key core.val 0,
        Reg.FUR_STAT.CAP.key core.val 0])
    (w.tiles = 0 → ∃ t, exec i s = .next t ∧ NextWord s t core ∧ OnlyFields s t [pcKey core]) ∧
    (w.tiles ≠ 0 → (s.core core.val).engine e = (none, none) →
      (s.furRuns core.val = true → s.ringBeat core.val sub.val < o.beat) →
      ((e = 2 ∨ s.stepsRead core.val e sub.val = false) →
        ∃ t, exec i s = .next t ∧ t.core core.val = (s.core core.val).setEngine e (some o, none) ∧
          t.rd (if e = 0 then Reg.FUR_STAT.INJ_A else if e = 1 then Reg.FUR_STAT.INJ_B else Reg.FUR_STAT.CAP) core.val = 1 ∧
          frame t) ∧
      (e ≠ 2 → s.stepsRead core.val e sub.val = true →
        ∃ t, exec i s = .next t ∧ t.rd Reg.FUR_STAT.CAUSE core.val = 4 ∧ t.rd Reg.HND_STAT.HALTED core.val = 1 ∧
          t.rd Reg.HND_STAT.CAUSE core.val = 6 ∧ (∃ x, Raised s t ((s.enclOfCore core.val).getD 16) 0x34 0 core.val x) ∧
          BytesKept s t (fun _ => False))) ∧
    (∀ r, w.tiles ≠ 0 → (s.core core.val).engine e = (some r, none) →
      ∃ t, exec i s = .next t ∧ t.core core.val = (s.core core.val).setEngine e (some r, some o) ∧ frame t)

/-- R158: FWAIT passes at its consumption beat, holds the hand before it or while the segment does not run, and is released
when the beat has come. R152, R155: every beat of an entry that the ring has come to and that meets no live payload puts a payload on the
ring, with the step's bytes and sideband as the slot delivers them, and behind the last one the entry ends; a capture of one tile writes
the data of the beats that have come at its destination. One command moves every such beat (log entry 12); the scratchpad is not locked
and free of latent errors. -/
def Obligations.FurrowWaitEntryAndCapture : Prop :=
  ((∀ (core : CoreId) (s : State) (hb : BitVec 5) (w : FurWord) (sub : Fin 8), Ready s core →
    w = { fmt := 0, lane := 0, trans := 0, hs := 0, hb := hb, tiles := 0, rsv := 0 } →
    s.rd Reg.FUR_POS.IN_SEG core.val = 1 →
    let b := (s.h core.val hb.toNat).toNat
    (s.furRuns core.val = true → s.consBeat core.val sub.val = b →
      ∃ t, exec (.fwait core w sub) s = .next t ∧ NextWord s t core ∧ OnlyFields s t [pcKey core]) ∧
    ((s.furRuns core.val = false ∨ s.consBeat core.val sub.val < b) →
      ∃ t, exec (.fwait core w sub) s = .next t ∧ t.core core.val = { s.core core.val with hold := .fwait b } ∧
        (∀ c, c ≠ core.val → t.core c = s.core c) ∧ NextWord s t core ∧
        { t with fields := s.fields, cores := s.cores } = s ∧ BytesKept s t (fun _ => False) ∧
        Kept s t (fun k => k = pcKey core))) ∧
  ∀ (core : CoreId) (s : State) (sub : Fin 8) (b : Nat), (s.core core.val).hold = .fwait b → s.furRuns core.val = true →
    b ≤ s.consBeat core.val sub.val → s.stopped core.val = false →
    ((s.core core.val).runOff = false → ∃ t, exec (.fwaitRelease core sub) s = .next t ∧
      t.core core.val = { s.core core.val with hold := .none } ∧
      (∀ c, c ≠ core.val → t.core c = s.core c) ∧ { t with cores := s.cores } = s ∧ BytesKept s t (fun _ => False)) ∧
    ((s.core core.val).runOff = true → s.rd Reg.HND_STAT.HALTED core.val = 0 →
      ∃ t, exec (.fwaitRelease core sub) s = .next t ∧ Discarded s t core 0 2 0x03)) ∧
  ((∀ (core : CoreId) (s : State) (laneB : Bool) (sub : Fin 8) (g : Nat) (o : FurOp),
    let e := if laneB then 1 else 0
    let p := s.rd Reg.FUR_POS.POS core.val
    let n := min (16 * o.tiles) (s.ringBeat core.val sub.val + 1 - o.beat).toNat
    (s.core core.val).engine e = (some o, none) → s.segOf core.val = some g → s.rd Reg.FUR_RUN.RUN (j := g) = 1 →
    s.rd Reg.SP_STAT.LOCKED core.val = 0 → o.done < n →
    (∀ k, o.done ≤ k → k < n → arrivesLive (s.lap g) (s.seg g).ring o.lane p (o.beat + k) = false ∧
      meetsEntry (s.lap g) (s.seg g).ring o.lane p (o.beat + k) = none) →
    (∀ cw, s.wordErr core.val cw = 0) →
    ∃ t, exec (.furrowEntryRun core laneB [] sub) s = .next t ∧
      (∀ k, o.done ≤ k → k < n →
        Payload.mk o.lane p (o.beat + k) (s.readStep core.val o.lane o.fmt o.desc o.sdesc o.trans (k / 16) (k % 16)).1 none ∈
          (t.seg g).ring) ∧
      (∀ x ∈ (t.seg g).ring, x ∈ (s.seg g).ring ∨ ∃ k < n, o.done ≤ k ∧ x.pos = p ∧ x.lane = o.lane ∧ x.beat = o.beat + k) ∧
      (∀ x ∈ (s.seg g).ring, s.furBehind g ≤ x.beat + 2 * s.lap g + 128 → x ∈ (t.seg g).ring) ∧
      { t.seg g with ring := (s.seg g).ring } = s.seg g ∧ (∀ k, k ≠ g → t.seg k = s.seg k) ∧
      t.core core.val = (s.core core.val).setEngine e (if n = 16 * o.tiles then none else some { o with done := n }, none) ∧
      (∀ c, c ≠ core.val → t.core c = s.core c) ∧
      { t with fields := s.fields, cores := s.cores, segs := s.segs } = s ∧ BytesKept s t (fun _ => False) ∧
      Kept s t (fun k => k ∈ [Reg.FUR_STAT.INJ_A.key core.val 0, Reg.FUR_STAT.INJ_B.key core.val 0,
        Reg.FUR_STAT.CAP.key core.val 0])) ∧
  ∀ (core : CoreId) (s : State) (sub : Fin 8) (g : Nat) (o : FurOp) (pay : Nat → Payload),
    let p := s.rd Reg.FUR_POS.POS core.val
    let n := min 16 (s.ringBeat core.val sub.val + 1 - o.beat).toNat
    let at_ := fun j k => spAddr core.val (dAddr o.desc + 32 * j + k)
    (s.core core.val).engine 2 = (some o, none) → s.segOf core.val = some g → s.rd Reg.FUR_RUN.RUN (j := g) = 1 →
    s.rd Reg.SP_STAT.LOCKED core.val = 0 → o.tiles = 1 → o.done < n → codeMx o.fmt = false →
    (∀ j, o.done ≤ j → j < n → findPayload (s.lap g) (s.seg g).ring o.lane p (o.beat + j) = some (pay j) ∧ (pay j).poison = none ∧
      32 ≤ (pay j).data.length) → dAddr o.desc % 32 = 0 →
    (∀ cw, s.wordErr core.val cw = 0) →
    ∃ t, exec (.furrowCaptureRun core sub) s = .next t ∧
      (∀ j, o.done ≤ j → j < n → ∀ k < 32, some (t.byte (at_ j k)) = (pay j).data[k]?) ∧
      BytesKept s t (fun a => ∃ j < n, o.done ≤ j ∧ ∃ k < 32, a = at_ j k) ∧
      t.core core.val = (s.core core.val).setEngine 2 (if n = 16 then none else some { o with done := n }, none) ∧
      (∀ c, c ≠ core.val → t.core c = s.core c) ∧
      { t with fields := s.fields, cores := s.cores, mem := s.mem, errs := s.errs } = s ∧
      (∀ k, Store.getD t.errs k 0 = Store.getD s.errs k 0) ∧
      Kept s t (fun k => k ∈ [Reg.FUR_STAT.INJ_A.key core.val 0, Reg.FUR_STAT.INJ_B.key core.val 0,
        Reg.FUR_STAT.CAP.key core.val 0]))

/-- R146, R13: with RUN 0, staged fields of a segment that agree take effect together, its LAP_MIN is known, and the cores of a segment
in use learn their positions; fields that disagree are discarded and CFG_MISMATCH (0x01) is raised. R147: START of a segment in use
that does not run and STOP of one that does are remembered; each acts at the next bell: the segment runs from beat 0 with an empty ring and no holds, or it
stops, its beats and catch buffers emptied, the cycles of a hold in force counted and its ring beats standing. -/
def Obligations.FurrowSegments : Prop :=
  (∀ (seg : SegId) (s : State),
    let g := seg.val
    let fs := [Reg.FUR_SEG.ORIGIN, Reg.FUR_SEG.CROWS, Reg.FUR_SEG.CCOLS, Reg.FUR_SEG.ENCL, Reg.FUR_SEG.EN, Reg.FUR_SEG.LAP]
    s.anyStaged fs (j := g) = true →
    (s.segAgrees g = true → ∃ t, exec (.furSegCommit seg) s = .next t ∧
      (∀ f ∈ fs, t.isStaged f (j := g) = false ∧
        t.rd f (j := g) = if s.isStaged f (j := g) then s.stg f (j := g) % 2 ^ f.width else s.rd f (j := g)) ∧
      t.rd Reg.FUR_LAPMIN.VALID (j := g) = 1 ∧
      t.rd Reg.FUR_LAPMIN.LAP_MIN (j := g) = t.lapMin (t.rd Reg.FUR_SEG.ORIGIN (j := g)) (t.rd Reg.FUR_SEG.CROWS (j := g))
        (t.rd Reg.FUR_SEG.CCOLS (j := g)) % 2 ^ Reg.FUR_LAPMIN.LAP_MIN.width ∧
      (t.rd Reg.FUR_SEG.EN (j := g) = 1 → ∀ c ∈ t.segCores g, t.segOf c = some g) ∧
      { t with fields := s.fields, stagedF := s.stagedF } = s ∧ BytesKept s t (fun _ => False) ∧
      Kept s t (fun k => (∃ f ∈ Reg.FUR_LAPMIN.VALID :: Reg.FUR_LAPMIN.LAP_MIN :: fs, k = f.key 0 g) ∨
        ∃ c, ∃ f ∈ [Reg.FUR_POS.POS, Reg.FUR_POS.IN_SEG, Reg.FUR_POS.SEG], k = f.key c 0)) ∧
    (s.segAgrees g = false → ∃ t, exec (.furSegCommit seg) s = .next t ∧ (∀ f ∈ fs, t.isStaged f (j := g) = false) ∧
      Raised s t 16 0x01 5 0 (Reg.FUR_SEG.COMMIT.addr 0 g) ∧
      { t with fields := s.fields, stagedF := s.stagedF, events := s.events } = s ∧ BytesKept s t (fun _ => False) ∧
      Kept s t lostKey)) ∧
  (∀ (seg : SegId) (s : State), s.rd Reg.FUR_SEG.EN (j := seg.val) = 1 → s.rd Reg.FUR_RUN.RUN (j := seg.val) = 0 →
    ∃ t, exec (.furRunStart seg) s = .next t ∧ t.seg seg.val = { s.seg seg.val with startReq := some (s.now + 1) } ∧
      (∀ k, k ≠ seg.val → t.seg k = s.seg k) ∧ { t with segs := s.segs } = s ∧ BytesKept s t (fun _ => False)) ∧
  (∀ (seg : SegId) (s : State), s.rd Reg.FUR_RUN.RUN (j := seg.val) = 1 →
    ∃ t, exec (.furRunStop seg) s = .next t ∧ t.seg seg.val = { s.seg seg.val with stopReq := some (s.now + 1) } ∧
      (∀ k, k ≠ seg.val → t.seg k = s.seg k) ∧ { t with segs := s.segs } = s ∧ BytesKept s t (fun _ => False)) ∧
  (∀ (seg : SegId) (s : State) (m : Nat), (s.seg seg.val).startReq = some m → m ≤ s.now → s.now % 1024 = 0 →
    ∃ t, exec (.segmentRun seg) s = .next t ∧ t.rd Reg.FUR_RUN.RUN (j := seg.val) = 1 ∧
      t.rd Reg.FUR_RUN.TICK0 (j := seg.val) = s.now % 2 ^ Reg.FUR_RUN.TICK0.width ∧
      t.rd Reg.FUR_HOLD.HOLDS (j := seg.val) = 0 ∧ t.rd Reg.FUR_HOLD.LAGS (j := seg.val) = 0 ∧
      t.seg seg.val =
        { startReq := none, stopReq := none, ring := []
          base := (s.segCrofts seg.val).map (fun c => (c, s.cycle c 0, (s.croft c).lag20))
          frozen := 0, holds := [], held := none, heldBase := [], heldDone := [], wave := [], ended := none } ∧
      (∀ k, k ≠ seg.val → t.seg k = s.seg k) ∧ { t with fields := s.fields, segs := s.segs } = s ∧
      BytesKept s t (fun _ => False) ∧
      Kept s t (fun k => k ∈ [Reg.FUR_RUN.RUN.key 0 seg.val, Reg.FUR_RUN.TICK0.key 0 seg.val, Reg.FUR_HOLD.HOLDS.key 0 seg.val,
        Reg.FUR_HOLD.LAGS.key 0 seg.val])) ∧
  ∀ (seg : SegId) (s : State) (m : Nat), (s.seg seg.val).stopReq = some m → m ≤ s.now → s.now % 1024 = 0 →
    ∃ t, exec (.segmentStop seg) s = .next t ∧ t.rd Reg.FUR_RUN.RUN (j := seg.val) = 0 ∧
      t.seg seg.val = { s.seg seg.val with
        startReq := none, stopReq := none, ring := [], holds := [], held := none, heldDone := [], wave := []
        ended := some ((s.segCrofts seg.val).map (fun c => (c, s.furCycles seg.val c 0))) } ∧
      (∀ c ∈ s.segCores seg.val, t.rd Reg.FUR_STAT.CATCH c = 0 ∧
        ((s.seg seg.val).held = none → t.core c = { s.core c with catchUp := none })) ∧
      ((s.seg seg.val).held ≠ none → (s.segCores seg.val).Nodup → ∀ c ∈ s.segCores seg.val,
        let k := s.heldCycles c 0
        t.rd Reg.FUR_STAT.HOLDCYC c = (if k = 0 then s.rd Reg.FUR_STAT.HOLDCYC c
          else (s.rd Reg.FUR_STAT.HOLDCYC c + k) % 2 ^ Reg.FUR_STAT.HOLDCYC.width) ∧
        t.core c = { s.core c with
          catchUp := none, ramp := (s.core c).ramp.map (· + k)
          stepEnd := if (s.core c).stepEnd = 0 ∧ (s.core c).ramp = none then 0 else (s.core c).stepEnd + k }) ∧
      (∀ c, c ∉ s.segCores seg.val → t.core c = s.core c) ∧
      (∀ k, k ≠ seg.val → t.seg k = s.seg k) ∧ { t with fields := s.fields, segs := s.segs, cores := s.cores } = s ∧
      BytesKept s t (fun _ => False) ∧
      Kept s t (fun k => k = Reg.FUR_RUN.RUN.key 0 seg.val ∨ ∃ c ∈ s.segCores seg.val, k = Reg.FUR_STAT.CATCH.key c 0 ∨
        ((s.seg seg.val).held ≠ none ∧ k = Reg.FUR_STAT.HOLDCYC.key c 0))

/-- R159, R160: the first hold waiting begins at the start of tick m + 8 at the earliest, and holds the cores of the segment
whose catch buffers are empty; in each croft it ends once its tile count in cycles has passed, the cores having consumed from their
catch buffers what they could and stood for the rest, and with the last croft it is over. -/
def Obligations.FurrowHolds : Prop :=
  (∀ (seg : SegId) (s : State) (h : SegHold) (rest : List SegHold), (s.seg seg.val).holds = h :: rest →
    (s.seg seg.val).held = none → h.tick + 8 ≤ s.now → s.rd Reg.FUR_RUN.RUN (j := seg.val) = 1 →
    ∃ t, exec (.segmentHoldStart seg) s = .next t ∧
      t.seg seg.val = { s.seg seg.val with
        holds := rest, held := some h, heldDone := []
        heldBase := (s.segCrofts seg.val).map (fun c => (c, s.holdFrom seg.val c (h.tick + 8))) } ∧
      (∀ k, k ≠ seg.val → t.seg k = s.seg k) ∧
      t.rd Reg.FUR_HOLD.HOLDS (j := seg.val) = (s.rd Reg.FUR_HOLD.HOLDS (j := seg.val) + 1) % 2 ^ Reg.FUR_HOLD.HOLDS.width ∧
      (∀ c, croftOf c ∈ s.segCrofts seg.val → s.segOf c = some seg.val → s.rd Reg.FUR_STAT.CATCH c = 0 →
        (s.core c).catchUp = none → (s.core c).retry = false →
        s.cycle (croftOf c) 0 < s.holdFrom seg.val (croftOf c) (h.tick + 8) + h.len → t.heldNow c = true) ∧
      { t with fields := s.fields, segs := s.segs } = s ∧ BytesKept s t (fun _ => False) ∧
      Kept s t (fun k => k = Reg.FUR_HOLD.HOLDS.key 0 seg.val)) ∧
  ∀ (seg : SegId) (s : State) (h : SegHold), (s.seg seg.val).held = some h →
    (s.segCrofts seg.val).Nodup → (∀ c ∈ s.segCrofts seg.val, c < 256) →
    let x := s.seg seg.val
    let now := (s.segCrofts seg.val).filter (fun c => !x.heldDone.contains c && decide (h.len ≤ s.heldFor seg.val c 0))
    ∃ t, exec (.segmentHoldEnd seg) s = .next t ∧
      t.seg seg.val =
        (if ∀ c ∈ s.segCrofts seg.val, c ∈ x.heldDone ++ now then
          { x with
            held := none, heldDone := [], frozen := x.frozen + h.len
            heldBase := x.heldBase.map (fun p => (p.1, p.2 + h.len)) }
        else { x with heldDone := x.heldDone ++ now }) ∧
      (∀ k, k ≠ seg.val → t.seg k = s.seg k) ∧
      (∀ c ∈ now, ∀ i ∈ coresOfCroft c, (s.core i).catchUp = none → s.rd Reg.FUR_STAT.CATCH i ≤ 128 →
        t.rd Reg.FUR_STAT.CATCH i = s.rd Reg.FUR_STAT.CATCH i - h.len ∧
        (h.len ≤ s.rd Reg.FUR_STAT.CATCH i → t.rd Reg.FUR_STAT.HOLDCYC i = s.rd Reg.FUR_STAT.HOLDCYC i) ∧
        (s.rd Reg.FUR_STAT.CATCH i < h.len → t.rd Reg.FUR_STAT.HOLDCYC i =
          (s.rd Reg.FUR_STAT.HOLDCYC i + (h.len - s.rd Reg.FUR_STAT.CATCH i)) % 2 ^ Reg.FUR_STAT.HOLDCYC.width)) ∧
      { t with fields := s.fields, segs := s.segs, cores := s.cores } = s ∧ BytesKept s t (fun _ => False) ∧
      Kept s t (fun k => ∃ c ∈ now, ∃ i ∈ coresOfCroft c, k = Reg.FUR_STAT.CATCH.key i 0 ∨ k = Reg.FUR_STAT.HOLDCYC.key i 0)

/-! ### Drills (chapter 08) -/

/-- R204, R205: a DARM claims the drill's active or pending place, or is refused with BUSY_REF and DRILL_BUSY (0x12), the hand
going on; DWAIT passes while its condition holds, and otherwise holds the hand until it does. -/
def Obligations.DrillArmingAndWaiting : Prop :=
  (∀ (core : CoreId) (w : DrillWord) (s : State) (d : DrillId), Ready s core → FourDrills s core → w.mode = 0 → w.rsv = 0 →
    d.val = w.d.toNat →
    let x := s.drill core.val d.val
    let held := x.claims.length + (if x.active.isSome then 1 else 0) + (if x.pending.isSome then 1 else 0)
    let cap := if x.active = none ∧ x.orphans ≠ [] then 1 else 2
    (held < cap → ∃ t, exec (.darm core w) s = .next t ∧
      DrillIs s t core d { x with
        claims := x.claims ++ [((s.h core.val w.hs.toNat).toNat % 2 ^ 18, (w.word 1#4).toNat)] } ∧
      NextWord s t core ∧ { t with fields := s.fields, cores := s.cores } = s ∧ BytesKept s t (fun _ => False) ∧
      Kept s t (fun k => k ∈ pcKey core :: drlKeys core d)) ∧
    (cap ≤ held → ∃ t, exec (.darm core w) s = .next t ∧ t.rd Reg.DRL_STAT.BUSY_REF core.val d.val = 1 ∧
      Raised s t ((s.enclOfCore core.val).getD 16) 0x12 0 core.val d.val ∧ NextWord s t core ∧
      OnlyFieldsAndEvents s t (fun k => k ∈ [pcKey core, Reg.DRL_STAT.BUSY_REF.key core.val d.val] ∨ lostKey k))) ∧
  (∀ (core : CoreId) (w : DrillWord) (s : State) (one : Bool), Ready s core → w.rsv = 0 →
    let i := if one then Instr.dwaitPendingFree core w else .dwait core w
    let n := (s.h core.val w.hs.toNat).toNat % 2 ^ 32
    let m1 := one = true ∨ w.mode = 1
    let ok := if m1 then s.pendingFree core.val w.d.toNat = true
      else (s.rd Reg.DRL_DONE.DONE core.val w.d.toNat + 2 ^ 32 - n) % 2 ^ 32 < 2 ^ 31
    (ok → ∃ t, exec i s = .next t ∧ NextWord s t core ∧ OnlyFields s t [pcKey core]) ∧
    (¬ok → ∃ t, exec i s = .next t ∧
      t.core core.val = { s.core core.val with hold := if m1 then .dwaitPending w.d.toNat else .dwait w.d.toNat n } ∧
      (∀ c, c ≠ core.val → t.core c = s.core c) ∧ NextWord s t core ∧
      { t with fields := s.fields, cores := s.cores } = s ∧ BytesKept s t (fun _ => False) ∧
      Kept s t (fun k => k = pcKey core))) ∧
  ∀ (core : CoreId) (s : State) (d n : Nat), s.stopped core.val = false →
    (((s.core core.val).hold = .dwait d n ∧ (s.rd Reg.DRL_DONE.DONE core.val d + 2 ^ 32 - n % 2 ^ 32) % 2 ^ 32 < 2 ^ 31) ∨
      ((s.core core.val).hold = .dwaitPending d ∧ s.pendingFree core.val d = true)) →
    ((s.core core.val).runOff = false → ∃ t, exec (.dwaitRelease core) s = .next t ∧
      t.core core.val = { s.core core.val with hold := .none } ∧
      (∀ c, c ≠ core.val → t.core c = s.core c) ∧ { t with cores := s.cores } = s ∧ BytesKept s t (fun _ => False)) ∧
    ((s.core core.val).runOff = true → s.rd Reg.HND_STAT.HALTED core.val = 0 →
      ∃ t, exec (.dwaitRelease core) s = .next t ∧ Discarded s t core 0 2 0x03)

/-- R199, R205, R210: a claimed descriptor, read from words without latent errors, that fails an item of R199 halts the core with CAUSE 2, MALFORM
naming the item; a legal one becomes active, or pending where one is active or being drained; one without units completes. -/
def Obligations.DescriptorCheck : Prop :=
  ∀ (core : CoreId) (d : DrillId) (s : State) (addr : Nat) (word : Word) (rest : List (Nat × Nat)), FourDrills s core →
    (∀ cw, s.wordErr core.val cw = 0) → (s.drill core.val d.val).claims = (addr, word.toNat) :: rest →
    s.croftIssues (croftOf core.val) = true →
    let x := s.drill core.val d.val
    let n := descWords (leNat (s.spBytes core.val addr 8))
    let ws := (List.range n).map (fun k => BitVec.ofNat 64 (leNat (s.spBytes core.val (addr + 8 * k) 8)))
    let r : DescRun :=
      { words := ws, next := 0, nextScale := 0, scales := [], status := 0, errs := 0, failed := false
        parts := [] }
    let srseq := s.rd Reg.DRL_RUN.SRSEQ core.val d.val
    let free := x.active = none ∧ x.orphans = []
    (s.malform core.val d.val addr ws ≠ 0 → s.rd Reg.HND_STAT.HALTED core.val ≠ 1 →
      ∃ t, exec (.descriptorCheck core d) s = .next t ∧
        t.rd Reg.DRL_STAT.MALFORM core.val d.val = s.malform core.val d.val addr ws ∧ Discarded s t core word 2 0x03) ∧
    (s.malform core.val d.val addr ws = 0 → ¬free →
      ∃ t, exec (.descriptorCheck core d) s = .next t ∧ DrillIs s t core d { x with claims := rest, pending := some ws } ∧
        { t with fields := s.fields, cores := s.cores } = s ∧ BytesKept s t (fun _ => False) ∧
        Kept s t (fun k => k ∈ drlKeys core d)) ∧
    (s.malform core.val d.val addr ws = 0 → free → dUnits ws ≠ 0 →
      ∃ t, exec (.descriptorCheck core d) s = .next t ∧ DrillIs s t core d { x with claims := rest, active := some r } ∧
        t.rd Reg.DRL_RUN.SRSEQ core.val d.val = (if dRnd ws then (srseq + 1) % 2 ^ 20 else srseq) ∧
        { t with fields := s.fields, cores := s.cores } = s ∧ BytesKept s t (fun _ => False) ∧
        Kept s t (fun k => k ∈ Reg.DRL_RUN.SRSEQ.key core.val d.val :: drlKeys core d)) ∧
    (s.malform core.val d.val addr ws = 0 → free → dUnits ws = 0 →
      ∃ t, exec (.descriptorCheck core d) s = .next t ∧ DrillIs s t core d { x with claims := rest, active := none } ∧
        t.rd Reg.DRL_DONE.DONE core.val d.val = (s.rd Reg.DRL_DONE.DONE core.val d.val + 1) % 2 ^ 32 ∧
        t.rd Reg.DRL_DONE.ERRXFER core.val d.val = 0 ∧ t.rd Reg.DRL_STAT.STATUS core.val d.val = 0 ∧
        { t with fields := s.fields, cores := s.cores } = s ∧ BytesKept s t (fun _ => False) ∧
        Kept s t (fun k => k ∈ [Reg.DRL_DONE.DONE.key core.val d.val, Reg.DRL_DONE.ERRXFER.key core.val d.val,
          Reg.DRL_STAT.STATUS.key core.val d.val, Reg.DRL_STAT.CREDIT_WAIT.key core.val d.val] ∨ k ∈ drlKeys core d))

/-- R200-R202, R207: an active drill under its limit, with room in its staging buffer, forms its next transfer: a slow-tier
read becomes a READ_REQ packet to the Tabko that owns its address; a gate or multicast write without a unit of credit waits with CREDIT_WAIT. R203, R213: an answered transfer frees its place, its nonzero STATUS is kept and counted, and after the last one the
descriptor completes: DONE goes up by one, STATUS and ERRXFER describe it. RESUME lets a paused drill go on; FAIL ends the
descriptor with STATUS 0x91 and raises TRANSLATION_FAULT (0x91); in a croft that stands it waits (R209). -/
def Obligations.DrillFormingAndCompletion : Prop :=
  (∀ (core : CoreId) (d : DrillId) (s : State) (r : DescRun), FourDrills s core → (s.drill core.val d.val).active = some r →
    (s.drill core.val d.val).paused = false → r.failed = false → (s.drill core.val d.val).out.length < s.outLimit core.val d.val →
    s.croftIssues (croftOf core.val) = true → (s.stagedBy core.val d.val).length < 2 → s.compQ = [] →
    r.next < dUnits r.words → dMx r.words = false →
    let x := s.drill core.val d.val
    (dSkind r.words = 1 → dDkind r.words = 0 → ∀ t0, s.tabkoOf (nextXfer r.words r.next).1 = some t0 →
      let nx := nextXfer r.words r.next
      let o : Xfer := { tag := s.freeTag core.val, kind := .read, scale := false, unit := r.next, count := nx.2.1
                        addr := nx.1, bytes := nx.2.2, done := none }
      ∃ t, exec (.transferForm core d) s = .next t ∧
        t.core core.val = { s.core core.val with
          drills := (s.core core.val).drills.set d.val
            { x with active := some { r with next := r.next + nx.2.1 }, out := x.out ++ [o] }
          staged := (s.core core.val).staged ++
            [s.corePacket core.val 0x1 0 1 t0 o.tag (nx.1 % 2 ^ 48 + nx.2.2 % 2 ^ 9 * 2 ^ 48) [] []] } ∧
        (∀ c, c ≠ core.val → t.core c = s.core c) ∧ { t with fields := s.fields, cores := s.cores } = s ∧
        BytesKept s t (fun _ => False) ∧
        Kept s t (fun k => k = Reg.DRL_STAT.CREDIT_WAIT.key core.val d.val ∨ k ∈ drlKeys core d)) ∧
    (3 ≤ dDkind r.words → s.rd Reg.GCR.UNITS core.val (dGcr r.words) = 0 →
      ∃ t, exec (.transferForm core d) s = .next t ∧ t.rd Reg.DRL_STAT.CREDIT_WAIT core.val d.val = 1 ∧
        OnlyFields s t [Reg.DRL_STAT.CREDIT_WAIT.key core.val d.val])) ∧
  ((∀ (core : CoreId) (d : DrillId) (tag : Fin 256) (s : State) (r : DescRun) (o : Xfer) (st : Nat), FourDrills s core →
    let x := s.drill core.val d.val
    x.active = some r → x.out.find? (fun p => decide (p.tag = tag.val) && p.done.isSome) = some o → o.done = some st →
    x.paused = false → s.croftLive (croftOf core.val) = true → (s.core core.val).compIn = [] →
    let out := x.out.filter (fun p => decide (p.tag ≠ tag.val))
    let r1 : DescRun := if st = 0 ∨ st = 0x13 then r
      else { r with status := if r.status = 0 then st else r.status, errs := r.errs + 1 }
    (r1.finished out = false → ∃ t, exec (.transferComplete core d tag) s = .next t ∧
      DrillIs s t core d { x with out := out, active := some r1, resume := false } ∧
      { t with fields := s.fields, cores := s.cores } = s ∧ BytesKept s t (fun _ => False) ∧
      Kept s t (fun k => k ∈ drlKeys core d)) ∧
    (r1.finished out = true → x.pending = none → ∃ t, exec (.transferComplete core d tag) s = .next t ∧
      DrillIs s t core d { x with out := out, active := none, resume := false } ∧
      t.rd Reg.DRL_DONE.DONE core.val d.val = (s.rd Reg.DRL_DONE.DONE core.val d.val + 1) % 2 ^ 32 ∧
      t.rd Reg.DRL_DONE.ERRXFER core.val d.val = min r1.errs 0xFFFF ∧
      t.rd Reg.DRL_STAT.STATUS core.val d.val = (if r1.failed then 0x91 else r1.status % 256) ∧
      { t with fields := s.fields, cores := s.cores } = s ∧ BytesKept s t (fun _ => False) ∧
      Kept s t (fun k => k ∈ [Reg.DRL_DONE.DONE.key core.val d.val, Reg.DRL_DONE.ERRXFER.key core.val d.val,
        Reg.DRL_STAT.STATUS.key core.val d.val, Reg.DRL_STAT.CREDIT_WAIT.key core.val d.val] ∨ k ∈ drlKeys core d))) ∧
  (∀ (core : CoreId) (d : DrillId) (s : State), FourDrills s core → (s.drill core.val d.val).paused = true →
    let x := s.drill core.val d.val
    ∃ t, exec (.resume core d) s = .next t ∧
      DrillIs s t core d { x with paused := !x.out.isEmpty, resume := !x.out.isEmpty } ∧
      { t with fields := s.fields, cores := s.cores } = s ∧ BytesKept s t (fun _ => False) ∧
      Kept s t (fun k => k ∈ drlKeys core d)) ∧
  ∀ (core : CoreId) (d : DrillId) (s : State) (r : DescRun), FourDrills s core →
    let x := s.drill core.val d.val
    (s.croftLive (croftOf core.val) = false → ∃ t, exec (.fail core d) s = .next t ∧
      t.core core.val = { s.core core.val with compIn := (s.core core.val).compIn ++ [.fail d.val] } ∧
      (∀ c, c ≠ core.val → t.core c = s.core c) ∧ { t with cores := s.cores } = s) ∧
    (s.croftLive (croftOf core.val) = true → x.paused = true → x.active = some r → x.pending = none →
    ∃ t, exec (.fail core d) s = .next t ∧
      Raised s t ((s.enclOfCore core.val).getD 16) 0x91 0 core.val
        ((d.val + s.rd Reg.DRL_FAULT.VA core.val d.val / 4096 * 4096) % 2 ^ 64) ∧
      (x.out ≠ [] → DrillIs s t core d { x with active := some { r with failed := true }, paused := false, resume := false }) ∧
      (x.out = [] → DrillIs s t core d { x with active := none, paused := false, resume := false } ∧
        t.rd Reg.DRL_STAT.STATUS core.val d.val = 0x91 ∧
        t.rd Reg.DRL_DONE.DONE core.val d.val = (s.rd Reg.DRL_DONE.DONE core.val d.val + 1) % 2 ^ 32) ∧
      { t with fields := s.fields, cores := s.cores, events := s.events } = s ∧ BytesKept s t (fun _ => False)))

/-- R206, R208: a local copy of consecutive bytes within one chunk of 32 puts the source bytes at the destination and posts
its completion; R214: an aborted drill forms nothing further, discards its descriptors and posts no completion, and ABORTED is
set. -/
def Obligations.DrillLocalCopyAndAbort : Prop :=
  (∀ (core : CoreId) (d : DrillId) (s : State) (r : DescRun) (n src dst : Nat), FourDrills s core →
    let x := s.drill core.val d.val
    x.active = some r → x.pending = none → s.croftIssues (croftOf core.val) = true → (∀ cw, s.wordErr core.val cw = 0) →
    n ≤ 32 → 1 ≤ n → src < 2 ^ 18 → dst < 2 ^ 18 →
    -- bytes, own scratchpad to own scratchpad, one dimension of n with stride 1
    r.words = [0, BitVec.ofNat 64 src, BitVec.ofNat 64 dst, BitVec.ofNat 64 (n + 0x1000100010000), 0x100000001, 0, 0, 0] →
    r.failed = false → r.status = 0 → r.errs = 0 →
    ∃ t, exec (.localCopyDone core d) s = .next t ∧
      (∀ k < n, t.byte (spAddr core.val (dst + k)) = s.byte (spAddr core.val (src + k))) ∧
      BytesKept s t (fun a => ∃ k < n, a = spAddr core.val (dst + k)) ∧ DrillIs s t core d { x with active := none } ∧
      t.rd Reg.DRL_DONE.DONE core.val d.val = (s.rd Reg.DRL_DONE.DONE core.val d.val + 1) % 2 ^ 32 ∧
      t.rd Reg.DRL_STAT.STATUS core.val d.val = 0 ∧
      { t with fields := s.fields, cores := s.cores, mem := s.mem, errs := s.errs } = s ∧
      (∀ k, Store.getD t.errs k 0 = Store.getD s.errs k 0) ∧
      Kept s t (fun k => k ∈ [Reg.DRL_DONE.DONE.key core.val d.val, Reg.DRL_DONE.ERRXFER.key core.val d.val,
        Reg.DRL_STAT.STATUS.key core.val d.val, Reg.DRL_STAT.CREDIT_WAIT.key core.val d.val] ∨ k ∈ drlKeys core d)) ∧
  ∀ (core : CoreId) (d : DrillId) (s : State), FourDrills s core → s.corePresent core.val = true →
    ∃ t, exec (.abort core d) s = .next t ∧ (t.drill core.val d.val).active = none ∧
      (t.drill core.val d.val).pending = none ∧ (t.drill core.val d.val).claims = [] ∧ (t.drill core.val d.val).out = [] ∧
      t.rd Reg.DRL_STAT.ABORTED core.val d.val = 1 ∧
      t.rd Reg.DRL_DONE.DONE core.val d.val = s.rd Reg.DRL_DONE.DONE core.val d.val ∧
      (∀ e : DrillId, e ≠ d → t.drill core.val e.val = s.drill core.val e.val) ∧ (∀ c, c ≠ core.val → t.core c = s.core c) ∧
      { t with fields := s.fields, cores := s.cores } = s ∧ BytesKept s t (fun _ => False) ∧
      Kept s t (fun k => k ∈ [Reg.DRL_STAT.ABORTED.key core.val d.val, Reg.DRL_STAT.CREDIT_WAIT.key core.val d.val] ∨
        k ∈ drlKeys core d)

/-! ### The scratchpad: gates, start and stop, classes, scrub, wipe (chapter 05) -/

/-- R129, R130, R13: a gate's staged window that agrees takes effect, one that does not is discarded with CFG_MISMATCH (0x01);
OPEN opens a closed gate of nonzero SIZE, on a core that is not locked (R135), and LANDED counts from there; CLOSE closes an open one and its epoch goes up by one;
a grant of units by an open gate leaves as a CTL packet stamped with its epoch. R141, R241: a read returns STALE, LOST or LAGS
and clears it. R117: START starts a halted core at ENTRY; it is ignored while the core is fallow, locked, being wiped or re-encoded; STOP
halts a running core with CAUSE 4 and aborts its drills. R201, R13: the drills' limits take effect together if they agree. -/
def Obligations.GatesStartAndDrillLimits : Prop :=
  ((∀ (core : CoreId) (gate : GateId) (s : State),
    s.anyStaged [Reg.GATE_WIN.BASE, Reg.GATE_WIN.SIZE] core.val gate.val = true →
    let b := s.stg Reg.GATE_WIN.BASE core.val gate.val
    let n := s.stg Reg.GATE_WIN.SIZE core.val gate.val
    let apart := ∀ k < 8, k ≠ gate.val →
      n = 0 ∨ s.rd Reg.GATE_WIN.SIZE core.val k = 0 ∨
      b + n ≤ s.rd Reg.GATE_WIN.BASE core.val k ∨
      s.rd Reg.GATE_WIN.BASE core.val k + s.rd Reg.GATE_WIN.SIZE core.val k ≤ b
    let ok := s.rd Reg.GATE_EPOCH.OPEN core.val gate.val ≠ 1 ∧ b % 256 = 0 ∧ n % 256 = 0 ∧ b + n ≤ 0x40000 ∧ apart
    ∃ t, exec (.gateCommit core gate) s = .next t ∧ t.isStaged Reg.GATE_WIN.BASE core.val gate.val = false ∧
      t.isStaged Reg.GATE_WIN.SIZE core.val gate.val = false ∧
      (ok → t.rd Reg.GATE_WIN.BASE core.val gate.val % 2 ^ 18 = b % 2 ^ 18 ∧
        t.rd Reg.GATE_WIN.SIZE core.val gate.val % 2 ^ 19 = n % 2 ^ 19 ∧
        { t with fields := s.fields, stagedF := s.stagedF } = s ∧
        Kept s t (fun k => k ∈ [Reg.GATE_WIN.BASE.key core.val gate.val, Reg.GATE_WIN.SIZE.key core.val gate.val])) ∧
      (¬ok → Raised s t ((s.enclOfCore core.val).getD 16) 0x01 0 core.val (Reg.GATE_OP.COMMIT.addr core.val gate.val) ∧
        { t with fields := s.fields, stagedF := s.stagedF, events := s.events } = s ∧ Kept s t lostKey) ∧
      BytesKept s t (fun _ => False)) ∧
  (∀ (core : CoreId) (gate : GateId) (s : State), s.rd Reg.GATE_EPOCH.OPEN core.val gate.val ≠ 1 →
    s.rd Reg.GATE_WIN.SIZE core.val gate.val ≠ 0 → s.rd Reg.SP_STAT.LOCKED core.val = 0 →
    ∃ t, exec (.gateOpen core gate) s = .next t ∧ t.rd Reg.GATE_EPOCH.OPEN core.val gate.val = 1 ∧
      t.rd Reg.GATE_STAT.LANDED core.val gate.val = 0 ∧
      OnlyFields s t [Reg.GATE_EPOCH.OPEN.key core.val gate.val, Reg.GATE_STAT.LANDED.key core.val gate.val]) ∧
  (∀ (core : CoreId) (gate : GateId) (s : State), s.rd Reg.GATE_EPOCH.OPEN core.val gate.val = 1 →
    ∃ t, exec (.gateClose core gate) s = .next t ∧ t.rd Reg.GATE_EPOCH.OPEN core.val gate.val = 0 ∧
      t.rd Reg.GATE_EPOCH.EPOCH core.val gate.val =
        (s.rd Reg.GATE_EPOCH.EPOCH core.val gate.val + 1) % 2 ^ Reg.GATE_EPOCH.EPOCH.width ∧
      { t with fields := s.fields, epochs := s.epochs } = s ∧ BytesKept s t (fun _ => False) ∧
      Kept s t (fun k => k ∈ [Reg.GATE_EPOCH.OPEN.key core.val gate.val, Reg.GATE_EPOCH.EPOCH.key core.val gate.val])) ∧
  (∀ (core : CoreId) (gate : GateId) (dest : BitVec 17) (units : BitVec 8) (s : State),
    s.rd Reg.GATE_EPOCH.OPEN core.val gate.val = 1 → units ≠ 0 →
    ∃ t p, exec (.gateGrant core gate dest units) s = .next t ∧
      t.core core.val = { s.core core.val with ctl := (s.core core.val).ctl ++ [p] } ∧ p.ty = 0xA ∧ p.dst = dest.toNat ∧
      p.src = core.val ∧
      p.body = units.toNat + gate.val * 2 ^ 8 + s.rd Reg.GATE_EPOCH.EPOCH core.val gate.val * 2 ^ 24 ∧
      (∀ c, c ≠ core.val → t.core c = s.core c) ∧ { t with cores := s.cores } = s ∧ BytesKept s t (fun _ => False)) ∧
  (∀ (i : Instr) (f : Fld) (u j : Nat),
    ((∃ (core : CoreId) (gate : GateId), i = .gateStatRead core gate ∧ f = Reg.GATE_STAT.STALE ∧ u = core.val ∧ j = gate.val) ∨
     (∃ core : CoreId, i = .gcrLostRead core ∧ f = Reg.GCR_LOST.LOST ∧ u = core.val ∧ j = 0) ∨
     (∃ croft : CroftId, i = .lagCountRead croft ∧ f = Reg.LAG_COUNT.LAGS ∧ u = croft.val ∧ j = 0)) →
    ∀ s : State, ∃ t, exec i s = .next t ∧ t.readData = leBytes 8 (s.readReg (f.addr u j)) ∧ t.rd f u j = 0 ∧
      { t with fields := s.fields, readData := s.readData } = s ∧ BytesKept s t (fun _ => False) ∧
      Kept s t (fun k => k = f.key u j))) ∧
  ((∀ (core : CoreId) (s : State), s.rd Reg.HND_STAT.HALTED core.val = 1 → s.corePresent core.val = true →
    let clear := s.rd Reg.RTR_STAT.FENCED core.val ≠ 1 ∧ s.rd Reg.SP_STAT.LOCKED core.val = 0 ∧
      s.rd Reg.SP_STAT.WIPE_BUSY core.val = 0 ∧ s.rd Reg.SP_STAT.RECLASS_BUSY core.val = 0
    (clear → ∃ t, exec (.start core) s = .next t ∧ t.rd Reg.HND_STAT.HALTED core.val = 0 ∧
      t.rd Reg.HND_STAT.PC core.val = s.rd Reg.HND_CTL.ENTRY core.val % 2048 ∧ t.rd Reg.HND_CYC.CYCLES core.val = 0 ∧
      t.core core.val = { s.core core.val with hold := .none, arrived := false } ∧
      (∀ c, c ≠ core.val → t.core c = s.core c) ∧ { t with fields := s.fields, cores := s.cores } = s ∧
      BytesKept s t (fun _ => False) ∧
      Kept s t (fun k => k ∈ [Reg.HND_STAT.HALTED.key core.val 0, pcKey core, Reg.HND_CYC.CYCLES.key core.val 0])) ∧
    (¬clear → exec (.start core) s = .next s)) ∧
  (∀ (core : CoreId) (s : State), s.corePresent core.val = true → s.rd Reg.HND_STAT.HALTED core.val ≠ 1 →
    FourDrills s core →
    ∃ t, exec (.stop core) s = .next t ∧ t.rd Reg.HND_STAT.HALTED core.val = 1 ∧ t.rd Reg.HND_STAT.CAUSE core.val = 4 ∧
      t.rd Reg.HND_STAT.PC core.val = s.rd Reg.HND_STAT.PC core.val ∧ (t.core core.val).hold = .none ∧
      (∀ d : DrillId, (t.drill core.val d.val).active = none ∧ (t.drill core.val d.val).pending = none ∧
        t.rd Reg.DRL_STAT.ABORTED core.val d.val = 1) ∧
      (∀ c, c ≠ core.val → t.core c = s.core c) ∧ { t with fields := s.fields, cores := s.cores } = s ∧
      BytesKept s t (fun _ => False) ∧ Kept s t (inCoreBlock core)) ∧
  ∀ (core : CoreId) (s : State),
    let fs := [Reg.DRL_CFG.OUT0, Reg.DRL_CFG.OUT1, Reg.DRL_CFG.OUT2, Reg.DRL_CFG.OUT3]
    let v := fs.map (fun f => s.stg f core.val)
    s.anyStaged fs core.val = true →
    let ok := (∀ x ∈ v, x ≤ 8) ∧ v.sum ≤ 16 ∧ ∀ d < 4, ∀ f, fs[d]? = some f → s.stg f core.val ≠ s.rd f core.val →
      s.rd Reg.DRL_STAT.STATE core.val d = 0 ∧ s.rd Reg.DRL_STAT.PEND core.val d = 0
    ∃ t, exec (.drlCfgCommit core) s = .next t ∧ (∀ f ∈ fs, t.isStaged f core.val = false) ∧
      (ok → (∀ f ∈ fs, t.rd f core.val % 16 = s.stg f core.val % 16) ∧
        { t with fields := s.fields, stagedF := s.stagedF } = s ∧ Kept s t (fun k => ∃ f ∈ fs, k = f.key core.val 0)) ∧
      (¬ok → Raised s t ((s.enclOfCore core.val).getD 16) 0x01 0 core.val (Reg.DRL_CFG.COMMIT.addr core.val 0) ∧
        { t with fields := s.fields, stagedF := s.stagedF, events := s.events } = s ∧ Kept s t lostKey) ∧
      BytesKept s t (fun _ => False))

/-- R126, R127, R13: a class map committed for a halted core takes effect and its changed segments are re-encoded; the end of
the re-encoding clears RECLASS_BUSY, in a scratchpad without latent errors changing nothing else; the scrub reads the next 32 B of the W-class
segments; a correctable word it found is written back. R136, R137, R139: a wipe of a halted core closes its eight gates, advances every epoch, aborts the drills, locks the
scratchpad, and the ledger records it; when it is done every byte of the scratchpad, the vector registers and the hand registers read zero, the lock ends
and SP_WIPE.COUNT goes up by one. No other core's scratchpad changes. -/
def Obligations.ClassesScrubAndWipe : Prop :=
  ((∀ (core : CoreId) (s : State), s.isStaged Reg.SP_CLASS.CLASS core.val = true → s.corePresent core.val = true →
    let old := s.rd Reg.SP_CLASS.CLASS core.val
    let new := s.stg Reg.SP_CLASS.CLASS core.val
    -- the class a segment's contents have: with a re-encoding under way, the one they had before it
    let had := fun k => match (s.core core.val).reclass.find? (fun p => decide (p.1 = k)) with
      | some p => p.2
      | none => old.testBit k
    let ok := s.rd Reg.HND_STAT.HALTED core.val = 1 ∧ s.rd Reg.SP_STAT.WIPE_BUSY core.val = 0
    ∃ t, exec (.spClassCommit core) s = .next t ∧ t.isStaged Reg.SP_CLASS.CLASS core.val = false ∧
      (ok → t.rd Reg.SP_CLASS.CLASS core.val = new % 2 ^ 16 ∧
        ((∃ k < 16, had k ≠ new.testBit k) → t.rd Reg.SP_STAT.RECLASS_BUSY core.val = 1) ∧
        ((∀ k < 16, had k = new.testBit k) → t.rd Reg.SP_STAT.RECLASS_BUSY core.val = 0) ∧
        (∀ k < 16, (k, had k) ∈ (t.core core.val).reclass ↔ had k ≠ new.testBit k) ∧
        { t.core core.val with reclass := (s.core core.val).reclass } = s.core core.val ∧
        { t with fields := s.fields, stagedF := s.stagedF, cores := s.cores } = s ∧
        Kept s t (fun k => k ∈ [Reg.SP_CLASS.CLASS.key core.val 0, Reg.SP_STAT.RECLASS_BUSY.key core.val 0])) ∧
      (¬ok → Raised s t ((s.enclOfCore core.val).getD 16) 0x01 0 core.val (Reg.SP_CLASS.COMMIT.addr core.val 0) ∧
        { t with fields := s.fields, stagedF := s.stagedF, events := s.events } = s ∧ Kept s t lostKey) ∧
      BytesKept s t (fun _ => False)) ∧
  (∀ (core : CoreId) (s : State), s.rd Reg.SP_STAT.RECLASS_BUSY core.val = 1 → (∀ cw, s.wordErr core.val cw = 0) →
    s.croftLive (croftOf core.val) = true →
    ∃ t, exec (.reEncodingDone core) s = .next t ∧ t.rd Reg.SP_STAT.RECLASS_BUSY core.val = 0 ∧
      t.core core.val = { s.core core.val with reclass := [] } ∧ (∀ c, c ≠ core.val → t.core c = s.core c) ∧
      { t with fields := s.fields, cores := s.cores } = s ∧ BytesKept s t (fun _ => False) ∧
      Kept s t (fun k => k = Reg.SP_STAT.RECLASS_BUSY.key core.val 0)) ∧
  (∀ (core : CoreId) (s : State) (off : Nat), s.rd Reg.SP_SCRUB.EN core.val = 1 → s.rd Reg.SP_STAT.WIPE_BUSY core.val = 0 →
    s.rd Reg.SP_STAT.RECLASS_BUSY core.val = 0 → s.corePresent core.val = true → s.croftLive (croftOf core.val) = true →
    (s.core core.val).scrubBack = none →
    (s.scrubNext core.val (s.core core.val).scrub).orElse (fun _ => s.scrubNext core.val 0) = some off → s.wordErr core.val off = 0 →
    s.wordErr core.val (off + 16) = 0 →
    ∃ t, exec (.scrubRead core []) s = .next t ∧
      t.core core.val = { s.core core.val with
        scrub := if s.scrubNext core.val (off + 32) = none then 0 else off + 32
        scrubBack := none } ∧
      t.rd Reg.SP_SCRUB.PASSES core.val = (if s.scrubNext core.val (off + 32) = none
        then (s.rd Reg.SP_SCRUB.PASSES core.val + 1) % 2 ^ Reg.SP_SCRUB.PASSES.width else s.rd Reg.SP_SCRUB.PASSES core.val) ∧
      (∀ c, c ≠ core.val → t.core c = s.core c) ∧ { t with fields := s.fields, cores := s.cores } = s ∧
      BytesKept s t (fun _ => False) ∧ Kept s t (fun k => k = Reg.SP_SCRUB.PASSES.key core.val 0)) ∧
  ∀ (core : CoreId) (s : State) (off : Nat), (s.core core.val).scrubBack = some off → s.croftLive (croftOf core.val) = true →
    ∃ t, exec (.scrubWriteback core) s = .next t ∧
      (∀ cw, cw = off ∨ cw = off + 16 → t.wordErr core.val cw = (if s.wordErr core.val cw = 1 then 0 else s.wordErr core.val cw)) ∧
      t.core core.val = { s.core core.val with scrubBack := none } ∧ (∀ c, c ≠ core.val → t.core c = s.core c) ∧
      (∀ k, k ≠ spAddr core.val off → k ≠ spAddr core.val (off + 16) → Store.get t.errs k = Store.get s.errs k) ∧
      { t with cores := s.cores, errs := s.errs } = s ∧ BytesKept s t (fun _ => False)) ∧
  ((∀ (core : CoreId) (s : State), s.rd Reg.HND_STAT.HALTED core.val = 1 → s.corePresent core.val = true →
    s.rd Reg.SP_STAT.WIPE_BUSY core.val = 0 → FourDrills s core →
    ∃ t, exec (.wipeStart core) s = .next t ∧
      (∀ g : GateId, t.rd Reg.GATE_EPOCH.OPEN core.val g.val = 0 ∧
        t.rd Reg.GATE_EPOCH.EPOCH core.val g.val =
          (s.rd Reg.GATE_EPOCH.EPOCH core.val g.val + 1) % 2 ^ Reg.GATE_EPOCH.EPOCH.width) ∧
      t.rd Reg.SP_STAT.LOCKED core.val = 1 ∧ t.rd Reg.SP_STAT.WIPE_BUSY core.val = 1 ∧
      (∀ d : DrillId, (t.drill core.val d.val).active = none ∧ t.rd Reg.DRL_STAT.ABORTED core.val d.val = 1) ∧
      (t.core core.val).copy = none ∧ (∀ c, c ≠ core.val → t.core c = s.core c) ∧
      t.rd Reg.TRUST_STAT.SEQ = (s.rd Reg.TRUST_STAT.SEQ + 1) % 2 ^ Reg.TRUST_STAT.SEQ.width ∧
      { t with fields := s.fields, cores := s.cores, epochs := s.epochs, flash := s.flash, freeIx := s.freeIx } = s ∧
      BytesKept s t (fun _ => False) ∧ Kept s t (fun k => inCoreBlock core k ∨ k = Reg.TRUST_STAT.SEQ.key 0 0)) ∧
  ∀ (core : CoreId) (s : State), s.rd Reg.SP_STAT.WIPE_BUSY core.val = 1 → (s.core core.val).copy = none →
    s.croftLive (croftOf core.val) = true → (∀ n, s.enclOfCore core.val = some n → (s.encl n).haltDue = none) →
    ∃ t, exec (.wipeDone core) s = .next t ∧
      (∀ off, t.byte (spAddr core.val off) = 0) ∧ (∀ r : BitVec 5, t.v core.val r.toNat = 0 ∧ t.h core.val r.toNat = 0) ∧
      (∀ cw, t.wordErr core.val cw = 0) ∧
      t.rd Reg.SP_STAT.LOCKED core.val = 0 ∧ t.rd Reg.SP_STAT.WIPE_BUSY core.val = 0 ∧
      t.rd Reg.SP_WIPE.COUNT core.val = (s.rd Reg.SP_WIPE.COUNT core.val + 1) % 2 ^ Reg.SP_WIPE.COUNT.width ∧
      (∀ f ∈ [Reg.VEC_VL.VL, Reg.VSTAT.OOR, Reg.VSTAT.ISAT, Reg.VSTAT.FSAT, Reg.VEC_SRSEQ.SEQ], t.rd f core.val = 0) ∧
      BytesKept s t (fun a => spAddr core.val 0 ≤ a ∧ a < spAddr core.val 0 + 2 ^ 18) ∧
      (∀ c, c ≠ core.val → t.core c = s.core c) ∧ Kept s t (inCoreBlock core) ∧
      { t with
        fields := s.fields, stagedF := s.stagedF, mem := s.mem, errs := s.errs, vregs := s.vregs, bins := s.bins
        code := s.code, cores := s.cores } = s)

/-! ### Clocks and the almanac (chapter 09) -/

/-- R237-R239: TREAD gives the croft's estimated tick in [47:0] and the remainder in [55:48]; TWAIT holds the hand until its
tick, SWAIT until its counter reaches a value, SSEND sends a SYNC packet that names a counter; each release lets the hand go on, or
behind word 2,047 halts the core (R115). -/
def Obligations.SyncInstructions : Prop :=
  (∀ (core : CoreId) (w : SyncWord) (s : State), Ready s core → w.rsv = 0 → w.hs = 0 → w.cnt = 0 →
    let c := croftOf core.val
    ∃ t, exec (.tread core w) s = .next t ∧
      HandResult s t core w.hd (BitVec.ofNat 64 (s.estUnits c / unitsPerTick (s.opOf c) % 2 ^ 48 +
        s.estUnits c % unitsPerTick (s.opOf c) * 2 ^ 48)) ∧ NextWord s t core ∧
      OnlyFields s t (pcKey core :: hKeys core w.hd)) ∧
  (∀ (core : CoreId) (w : SyncWord) (s : State), Ready s core → w.rsv = 0 → w.hd = 0 →
    let v := (s.h core.val w.hs.toNat).toNat
    let holds := fun (i : Instr) (x : Hold) => ∃ t, exec i s = .next t ∧
      t.core core.val = { s.core core.val with hold := x } ∧ (∀ c, c ≠ core.val → t.core c = s.core c) ∧ NextWord s t core ∧
      { t with fields := s.fields, cores := s.cores } = s ∧ BytesKept s t (fun _ => False) ∧
      Kept s t (fun k => k = pcKey core)
    let goesOn := fun (i : Instr) => ∃ t, exec i s = .next t ∧ NextWord s t core ∧ OnlyFields s t [pcKey core]
    (w.cnt = 0 → v % 2 ^ 48 ≤ s.estTick (croftOf core.val) → goesOn (.twait core w)) ∧
    (w.cnt = 0 → s.estTick (croftOf core.val) < v % 2 ^ 48 → holds (.twait core w) (.twait (v % 2 ^ 48))) ∧
    ((s.rd Reg.SYN_CNT.COUNT core.val w.cnt.toNat + 2 ^ 32 - v % 2 ^ 32) % 2 ^ 32 < 2 ^ 31 → goesOn (.swait core w)) ∧
    (¬(s.rd Reg.SYN_CNT.COUNT core.val w.cnt.toNat + 2 ^ 32 - v % 2 ^ 32) % 2 ^ 32 < 2 ^ 31 →
      holds (.swait core w) (.swait w.cnt.toNat (v % 2 ^ 32))) ∧
    ∃ t p, exec (.ssend core w) s = .next t ∧
      t.core core.val = { s.core core.val with ctl := (s.core core.val).ctl ++ [p] } ∧ p.ty = 0xB ∧ p.vc = 3 ∧ p.dkind = 0 ∧
      p.dst = v % 2 ^ 17 ∧ p.src = core.val ∧ p.body = w.cnt.toNat ∧ (∀ c, c ≠ core.val → t.core c = s.core c) ∧
      NextWord s t core ∧ { t with fields := s.fields, cores := s.cores } = s ∧ BytesKept s t (fun _ => False) ∧
      Kept s t (fun k => k = pcKey core)) ∧
  ∀ (core : CoreId) (s : State) (i : Instr), s.stopped core.val = false →
    ((i = .twaitRelease core ∧ ∃ tk, (s.core core.val).hold = .twait tk ∧ tk ≤ s.estTick (croftOf core.val)) ∨
     (i = .swaitRelease core ∧ ∃ cnt v, (s.core core.val).hold = .swait cnt v ∧
        (s.rd Reg.SYN_CNT.COUNT core.val cnt + 2 ^ 32 - v % 2 ^ 32) % 2 ^ 32 < 2 ^ 31)) →
    ((s.core core.val).runOff = false → ∃ t, exec i s = .next t ∧ t.core core.val = { s.core core.val with hold := .none } ∧
      (∀ c, c ≠ core.val → t.core c = s.core c) ∧ { t with cores := s.cores } = s ∧ BytesKept s t (fun _ => False)) ∧
    ((s.core core.val).runOff = true → s.rd Reg.HND_STAT.HALTED core.val = 0 →
      ∃ t, exec i s = .next t ∧ Discarded s t core 0 2 0x03)

/-- R220-R222: the active reference lost after the start, or a SELECT, with the other good, begins a switch in holdover: selected after
8 tk, from when the crofts' counts may drift by at most 2 tk, ended after 64 with REF_SWITCHED (0x52) raised; with neither good the module runs on its oscillator, after 1,024 tk every holding's
clocks stop, and a reference good again takes the almanac back. R224, R227, R229, R234: RUN_OUT is recorded and CLOCK_MARGIN (0x54) raised; a bell with both references good, without a
croft's report and with slack values in force makes no estimate step, and gives each running croft the slew of its error when it
exceeds 20 units, at most one tick's; an operating-point stop begins at a bell once every enclosure that uses the holding
rests. -/
def Obligations.ReferencesBellsAndStops : Prop :=
  ((∀ (s : State) (i : Instr) (r : Fin 2), s.refPhase = .idle → s.rd Reg.REF_CTL.ACTIVE = r.val →
    s.refGood (1 - r.val) = true →
    ((i = .refEdgeLoss r ∧ s.stRuns = true ∧ s.refStarted = true ∧ s.refGood r.val = true) ∨ i = .select) →
    ∃ t, exec i s = .next t ∧ t.refPhase = .switching s.now false ∧ t.rd Reg.REF_CTL.HOLDOVER = 1 ∧
      (∀ c < 256, s.croftPresent c = true → s.rd Reg.CLK_STAT.LOCKED c = 1 → t.rd Reg.CLK_STAT.HOLDOVER c = 1) ∧
      (i = .refEdgeLoss r → t.refGood r.val = false ∧ Store.get t.refLoss r.val = some s.now) ∧
      { t with fields := s.fields, refPhase := s.refPhase, refLoss := s.refLoss } = s ∧
      BytesKept s t (fun _ => False) ∧
      Kept s t (fun k => holdoverKey k ∨ k = Reg.REF_CTL.A_GOOD.key 0 0 ∨ k = Reg.REF_CTL.B_GOOD.key 0 0)) ∧
  (∀ (s : State) (r : Fin 2), s.refPhase = .idle → s.rd Reg.REF_CTL.ACTIVE = r.val → s.refGood (1 - r.val) = false →
    s.stRuns = true → s.refStarted = true → s.refGood r.val = true →
    ∃ t, exec (.refEdgeLoss r) s = .next t ∧ t.refPhase = .lost s.now ∧ t.rd Reg.REF_CTL.LOST = 1 ∧
      t.rd Reg.REF_CTL.ON_OSC = 1 ∧ t.rd Reg.REF_CTL.HOLDOVER = 1 ∧ (∃ d, Raised s t 16 0x53 5 0 d) ∧
      { t with fields := s.fields, refPhase := s.refPhase, events := s.events, refLoss := s.refLoss } = s ∧ BytesKept s t (fun _ => False)) ∧
  (∀ (s : State) (d : Nat) (drift : List (CroftId × Int)), s.refPhase = .switching d false → d + 8 ≤ s.now →
    s.rd Reg.REF_CTL.ACTIVE ≤ 1 → (drift.map Prod.fst).Nodup →
    s.refGood (1 - s.rd Reg.REF_CTL.ACTIVE) = true →
    ∃ t, exec (.refSwitchSelect drift) s = .next t ∧ t.rd Reg.REF_CTL.ACTIVE = 1 - s.rd Reg.REF_CTL.ACTIVE ∧
      t.refPhase = .switching d true ∧
      (∀ p ∈ drift, (s.croft p.1.val).clock = true → t.croft p.1.val =
        let lim : Int := (2 * unitsPerTick (s.opOf p.1.val) : Nat)
        { s.croft p.1.val with drift := max (-lim) (min lim p.2) }) ∧
      (∀ c, (∀ p ∈ drift, p.1.val ≠ c) → t.croft c = s.croft c) ∧
      { t with fields := s.fields, refPhase := s.refPhase, crofts := s.crofts } = s ∧
      BytesKept s t (fun _ => False) ∧ Kept s t (fun k => k = Reg.REF_CTL.ACTIVE.key 0 0)) ∧
  (∀ (s : State) (d : Nat), s.refPhase = .switching d true → d + 64 ≤ s.now →
    ∃ t, exec .refSwitch s = .next t ∧ t.refPhase = .idle ∧ t.rd Reg.REF_CTL.HOLDOVER = 0 ∧
      t.rd Reg.REF_CTL.SWITCHES = min (s.rd Reg.REF_CTL.SWITCHES + 1) (2 ^ Reg.REF_CTL.SWITCHES.width - 1) ∧
      (∃ x, Raised s t 16 0x52 5 0 x) ∧ { t with fields := s.fields, refPhase := s.refPhase, events := s.events } = s ∧
      BytesKept s t (fun _ => False) ∧
      Kept s t (fun k => holdoverKey k ∨ k = Reg.REF_CTL.SWITCHES.key 0 0 ∨ lostKey k)) ∧
  (∀ (s : State) (d : Nat), s.refPhase = .lost d → d + 1024 ≤ s.now → s.rd Reg.REF_CTL.HOLDOVER = 1 →
    ∃ t, exec .lossHalt s = .next t ∧ t.rd Reg.REF_CTL.HOLDOVER = 0 ∧ t.refPhase = .lost d ∧
      (∀ h < 16, s.holdPresent h = true → t.rd Reg.HOLD_OP.CUR (j := h) = 4) ∧
      (∀ h < 16, s.holdPresent h = true → ∀ c ∈ croftsOfHolding h, (t.croft c).clock = false) ∧
      (∀ n < 16, s.rd Reg.ENCL_STATE.STATE (j := n) = 2 → t.rd Reg.ENCL_STATE.STATE (j := n) = 4 ∧
        t.rd Reg.ENCL_STATE.CAUSE (j := n) = 0x53) ∧ BytesKept s t (fun _ => False)) ∧
  ∀ (s : State) (d : Nat) (r : Fin 2), s.refPhase = .lost d → d + 1024 ≤ s.now → s.rd Reg.REF_CTL.HOLDOVER = 0 →
    s.refGood r.val = true →
    ∃ t, exec (.refRelock r) s = .next t ∧ t.refPhase = .idle ∧ t.rd Reg.REF_CTL.LOST = 0 ∧ t.rd Reg.REF_CTL.ON_OSC = 0 ∧
      t.rd Reg.REF_CTL.ACTIVE = r.val ∧ { t with fields := s.fields, refPhase := s.refPhase } = s ∧
      BytesKept s t (fun _ => False) ∧
      Kept s t (fun k => k ∈ [Reg.REF_CTL.LOST.key 0 0, Reg.REF_CTL.ON_OSC.key 0 0, Reg.REF_CTL.ACTIVE.key 0 0])) ∧
  ((∀ (croft : CroftId) (s : State), (s.croft croft.val).clock = true →
    ∃ t, exec (.runOut croft) s = .next t ∧ t.rd Reg.CLK_MON.RUNOUT croft.val = 1 ∧
      (∃ d, Raised s t 16 0x54 1 croft.val d) ∧
      OnlyFieldsAndEvents s t (fun k => k = Reg.CLK_MON.RUNOUT.key croft.val 0 ∨ lostKey k)) ∧
  (∀ (a b : BitVec 16) (sens : Sensors) (s : State), s.now % 1024 = 0 → s.bellAt ≠ some s.now → s.stRuns = true →
    950 ≤ a.toNat → a.toNat ≤ 975 → 950 ≤ b.toNat → b.toNat ≤ 975 →
    (∀ c < 256, (s.croft c).slack = s.rd Reg.HL_SLACK.S_N c + s.rd Reg.HL_SLACK.S_E c * 4 + s.rd Reg.HL_SLACK.S_S c * 16 +
      s.rd Reg.HL_SLACK.S_W c * 64) → (∀ r < 2, ∀ m, Store.get s.refLoss r = some m → m + 1024 < s.now) →
    let e := fun c => (s.now : Int) * unitsPerTick (s.opOf c) - (s.croft c).est
    ∃ t, exec (.bell a b [] [] sens) s = .next t ∧ t.bellAt = some s.now ∧ t.rd Reg.REF_COUNT.A_EDGES = a.toNat ∧
      t.rd Reg.REF_COUNT.B_EDGES = b.toNat ∧ t.refGood 0 = true ∧ t.refGood 1 = true ∧
      (∀ c < 256, (t.croft c).est = (s.croft c).est) ∧
      (∀ c < 256, s.croftPresent c = true → (s.croft c).clock = true →
        t.rd Reg.CLK_STAT.ERR c = wrapInt 16 (e c) ∧
        (t.croft c).slew = (if (e c).natAbs ≤ 20 then 0
          else max (-(unitsPerTick (s.opOf c) : Int)) (min (unitsPerTick (s.opOf c)) (e c)))) ∧
      t.rd Reg.PWR_METER.WATTS = sens.watts.toNat % 2 ^ Reg.PWR_METER.WATTS.width ∧ t.refPhase = s.refPhase ∧
      BytesKept s t (fun _ => False)) ∧
  ∀ (hold : HoldId) (s : State), s.rd Reg.HOLD_OP.WAITING (j := hold.val) = 1 → s.now % 1024 = 0 →
    (∀ n < 16, s.uses n hold.val = true → s.restsFor n hold.val = true) →
    ∃ t, exec (.opStopBegin hold) s = .next t ∧ t.rd Reg.HOLD_OP.WAITING (j := hold.val) = 0 ∧
      t.rd Reg.HOLD_OP.BUSY (j := hold.val) = 1 ∧ t.power = { s.power with opAt := s.power.opAt ++ [(hold.val, s.now)] } ∧
      { t with fields := s.fields, power := s.power } = s ∧ BytesKept s t (fun _ => False) ∧
      Kept s t (fun k => k ∈ [Reg.HOLD_OP.WAITING.key 0 hold.val, Reg.HOLD_OP.BUSY.key 0 hold.val]))

/-! ### The mesh (chapter 07) -/

/-- R173-R176, R183, R230: with nothing waiting to be injected and no fork to open, the chosen packet leaves its input for the
next router's input, the headland queue of a crossing with the stamp of R230, or the ejection buffer of its core. An entry that comes to a
crossing behind its release tick stalls the croft beyond (R231); at a holding that is OFF after a trip it is discarded (R426). -/
def Obligations.PacketDepartures : Prop :=
  ∀ (core : CoreId) (port : Fin 6) (sub : Fin 8) (s : State) (inp : Nat) (p : Packet) (m : MPkt) (rest : List MPkt),
    s.croftLive (croftOf core.val) = true → s.corePresent core.val = true →
    ((s.core core.val).emit = [] ∧ (s.core core.val).staged = [] ∧ (s.core core.val).copyQ = [] ∧ (s.core core.val).ctl = [] ∧
      (s.core core.val).rspOut = []) → (∀ x, portAt core.val = some x → (s.tabko x).out = []) →
    (∀ k < 6, ∀ h, (s.inputOf core.val k 2).head? = some h → h.fresh = false) →
    choose (s.candidates core.val port.val) = some (inp, p) → inp < 6 → s.inputOf core.val inp p.vc = m :: rest → m.pkt = p →
    m.outs = [port.val] → p.ty ≠ 7 →
    let f := croftOf core.val
    let c := max m.cyc (s.cycles f - m.segCyc + sub.val)
    let nb := neighbour core.val port.val
    let leaves := fun (t : State) => t.inputOf core.val inp p.vc = rest ∧
      t.rd Reg.RTR_FLITS.FLITS core.val = (s.rd Reg.RTR_FLITS.FLITS core.val + p.flits) % 2 ^ 48 ∧
      Kept s t (fun k => k = Reg.RTR_FLITS.FLITS.key core.val 0) ∧ BytesKept s t (fun _ => False)
    ((1 ≤ port.val ∧ port.val ≤ 4 ∧ hasNeighbour core.val port.val = true ∧ croftOf nb = f ∧ s.stiled nb = false) →
      ∃ t, exec (.packetDeparture core port sub .none) s = .next t ∧ leaves t ∧
        t.inputOf nb (facing port.val) p.vc = s.inputOf nb (facing port.val) p.vc ++
          [⟨p, [nextOut nb p], false, c + 1, m.segTick, m.segCyc⟩] ∧
        (∀ k, k ≠ qKey core.val inp p.vc → k ≠ qKey nb (facing port.val) p.vc →
          Store.getD t.inq k [] = Store.getD s.inq k []) ∧ { t with fields := s.fields, inq := s.inq } = s) ∧
    ((1 ≤ port.val ∧ port.val ≤ 4 ∧ hasNeighbour core.val port.val = true ∧ croftOf nb ≠ f ∧ s.stiled nb = false) →
      let x := m.segTick + ceilDiv (20 * (c + 1)) (unitsPerTick (s.opOf f)) + 2 + s.slack f port.val
      let late := ∃ k, (s.croft (croftOf nb)).relAt = some k ∧ x ≤ k ∧ (s.croft (croftOf nb)).stall = none
      ∃ t, exec (.packetDeparture core port sub .none) s = .next t ∧ leaves t ∧
        (∀ k, k ≠ qKey core.val inp p.vc → Store.getD t.inq k [] = Store.getD s.inq k []) ∧
        (s.tripOff (croftOf nb) = false →
          t.headland core.val port.val p.vc = s.headland core.val port.val p.vc ++ [⟨p, x⟩] ∧
          (∀ k, k ≠ qKey core.val port.val p.vc → Store.getD t.hlq k [] = Store.getD s.hlq k []) ∧
          (late → t.croft (croftOf nb) = { s.croft (croftOf nb) with stall := some ⟨x, facing port.val, false⟩ }) ∧
          (¬late → t.crofts = s.crofts) ∧ (∀ c, c ≠ croftOf nb → t.croft c = s.croft c) ∧
          { t with fields := s.fields, inq := s.inq, hlq := s.hlq, crofts := s.crofts } = s) ∧
        (s.tripOff (croftOf nb) = true →
          t.credits = s.credits ++ [⟨qKey core.val port.val p.vc, p.flits, s.estTick f + 2⟩] ∧
          { t with fields := s.fields, inq := s.inq, credits := s.credits } = s)) ∧
    (port.val = 0 → s.fallow core.val = false →
      ∃ t, exec (.packetDeparture core port sub .none) s = .next t ∧ leaves t ∧
        EjectIs s t core.val p.vc (s.ejectOf core.val p.vc ++ [p]) ∧
        (∀ k, k ≠ qKey core.val inp p.vc → Store.getD t.inq k [] = Store.getD s.inq k []) ∧
        { t with fields := s.fields, inq := s.inq, ejq := s.ejq } = s)

/-- R174, R231, R233: a crossing's credits arrive at their tick; a croft without an entry it needs stalls, tick by tick, until it holds
it (R163: faulting the core behind a furrow crossing whose queue then exceeds 128 beats, or one whose catch buffer does), and LAG (0x51) is raised when it goes on, with the stall recorded; an entry at its
stamp's tick goes into the router input behind the crossing, not before, its flits' credits on their way back as they leave. A croft
checks once in a tick. -/
def Obligations.CreditReturnAndHeadlandRelease : Prop :=
  (∀ (core : CoreId) (side : Fin 7) (vc : Fin 4) (s : State), ∃ t, exec (.meshCreditReturn core side vc) s = .next t ∧
    (∀ c, c ∈ t.credits ↔ c ∈ s.credits ∧
      ¬(c.queue = qKey core.val side.val vc.val ∧ c.due ≤ s.estTick (croftOf core.val))) ∧
    { t with credits := s.credits } = s ∧ BytesKept s t (fun _ => False)) ∧
  (∀ (croft : CroftId) (side : Fin 4) (fur : Bool) (s : State), (s.croft croft.val).clock = true →
    let x := s.croft croft.val
    let tk := s.estTick croft.val
    let beyond := fun g => if s.rd Reg.FUR_RUN.RUN (j := g) = 1 ∧ croft.val ∈ s.segCrofts g then s.crossOverflow g croft.val else none
    let i := Instr.headlandRelease croft (some (side, fur))
    let becomes := fun (y : CroftX) => ∃ t, exec i s = .next t ∧ t.croft croft.val = y ∧
      (∀ c, c ≠ croft.val → t.croft c = s.croft c) ∧ { t with crofts := s.crofts } = s ∧ BytesKept s t (fun _ => False)
    (x.relAt = some tk → exec i s = .next s) ∧
    (∀ c, s.catchOver croft.val = some c → x.relAt ≠ some tk → x.stall = none →
      ∃ t, exec i s = .next t ∧ t.rd Reg.FUR_STAT.CAUSE c = 5 ∧ t.rd Reg.HND_STAT.HALTED c = 1 ∧
        (∃ d, Raised s t ((s.enclOfCore c).getD 16) 0x34 0 c d) ∧ BytesKept s t (fun _ => False)) ∧
    (s.catchOver croft.val = none →
    (x.relAt ≠ some tk → x.stall = none → becomes { x with stall := some ⟨tk, side.val + 1, fur⟩, relAt := some tk }) ∧
    (∀ y, x.relAt ≠ some tk → x.stall = some y → (∀ g < 256, beyond g = none) → becomes { x with relAt := some tk }) ∧
    (∀ y g c, x.relAt ≠ some tk → x.stall = some y → g < 256 → beyond g = some c → (∀ k < g, beyond k = none) →
      ∃ t, exec i s = .next t ∧ t.rd Reg.FUR_STAT.CAUSE c = 5 ∧ t.rd Reg.HND_STAT.HALTED c = 1 ∧
        (∃ d, Raised s t ((s.enclOfCore c).getD 16) 0x34 0 c d) ∧ BytesKept s t (fun _ => False)))) ∧
  (∀ (croft : CroftId) (s : State) (y : Stall), (s.croft croft.val).clock = true → (s.croft croft.val).stall = some y →
    (s.croft croft.val).relAt ≠ some (s.estTick croft.val) →
    (∀ g k, s.waveOf croft.val = some (g, k) → k ≤ s.stallTicks croft.val) → s.catchOver croft.val = none →
    (∀ g < 256, s.rd Reg.FUR_RUN.RUN (j := g) = 1 → croft.val ∈ s.segCrofts g → s.crossOverflow g croft.val = none) →
    let k := s.stallTicks croft.val
    ∃ t, exec (.headlandRelease croft none) s = .next t ∧
      t.croft croft.val = { s.croft croft.val with stall := none, relAt := some (s.estTick croft.val) } ∧
      t.rd Reg.LAG_REC.STAMP croft.val = y.stamp % 2 ^ 48 ∧ t.rd Reg.LAG_REC.SIDE croft.val = y.side % 8 ∧
      t.rd Reg.LAG_REC.FURROW croft.val = (if y.furrow then 1 else 0) ∧ t.rd Reg.LAG_REC.K croft.val = min k 255 ∧
      t.rd Reg.LAG_COUNT.LAGS croft.val = min (s.rd Reg.LAG_COUNT.LAGS croft.val + 1) 0xFFFF ∧
      t.rd Reg.LAG_COUNT.TICKS croft.val = (s.rd Reg.LAG_COUNT.TICKS croft.val + k) % 2 ^ Reg.LAG_COUNT.TICKS.width ∧
      (∃ d, Raised s t ((s.enclOf croft.val).getD 16) 0x51 1 croft.val d) ∧ BytesKept s t (fun _ => False) ∧
      { t with fields := s.fields, crofts := s.crofts, segs := s.segs, inq := s.inq, hlq := s.hlq, credits := s.credits
               floors := s.floors, events := s.events } = s ∧
      Kept s t (fun k => k ∈ [Reg.LAG_REC.STAMP.key croft.val 0, Reg.LAG_REC.SIDE.key croft.val 0,
        Reg.LAG_REC.FURROW.key croft.val 0, Reg.LAG_REC.K.key croft.val 0, Reg.LAG_COUNT.LAGS.key croft.val 0,
        Reg.LAG_COUNT.TICKS.key croft.val 0] ∨ lostKey k ∨ ∃ g < 256, k = Reg.FUR_HOLD.LAGS.key 0 g)) ∧
  ∀ (croft : CroftId) (s : State) (c d : Nat) (vc : Fin 4) (e : HlEntry), (s.croft croft.val).clock = true →
    (s.croft croft.val).stall = none → croft.val % 16 ≠ 0 → croft.val % 16 ≠ 15 → 1 ≤ d → d ≤ 4 →
    c ∈ edgeCores croft.val d → hasNeighbour c d = true → e.pkt.vc = vc.val → e.pkt.ty ≠ 7 →
    let q := qKey (neighbour c d) (facing d) vc.val
    s.headland (neighbour c d) (facing d) vc.val = [e] → (∀ k, k ≠ q → Store.getD s.hlq k [] = []) →
    let tk := s.estTick croft.val
    (s.croft croft.val).relAt ≠ some tk → s.waveOf croft.val = none → s.catchOver croft.val = none → (∀ r ∈ s.credits, r.queue = q → r.due < tk + 2) →
    let at_ := fun (t : State) => t.croft croft.val = { s.croft croft.val with relAt := some tk } ∧
      (∀ f, f ≠ croft.val → t.croft f = s.croft f)
    (e.stamp ≤ tk → s.inputRoom c d e.pkt = true → ∃ t, exec (.headlandRelease croft none) s = .next t ∧
      t.headland (neighbour c d) (facing d) vc.val = [] ∧
      t.inputOf c d vc.val = s.inputOf c d vc.val ++ [⟨e.pkt, [nextOut c e.pkt], false, 0, tk, s.cycles croft.val⟩] ∧
      t.credits = s.credits ++ (List.range e.pkt.flits).map (fun k =>
        { queue := q, flits := 1, due := tk + 20 * k / unitsPerTick (s.opOf croft.val) + 2 }) ∧
      (∀ k, k ≠ qKey c d vc.val → Store.getD t.inq k [] = Store.getD s.inq k []) ∧ at_ t ∧
      { t with inq := s.inq, hlq := s.hlq, credits := s.credits, crofts := s.crofts } = s ∧ BytesKept s t (fun _ => False)) ∧
    (tk < e.stamp → ∃ t, exec (.headlandRelease croft none) s = .next t ∧ t.inq = s.inq ∧
      t.headland (neighbour c d) (facing d) vc.val = [e] ∧ at_ t ∧ { t with hlq := s.hlq, crofts := s.crofts } = s ∧
      BytesKept s t (fun _ => False))

/-- R131, R238, R203, R133: a grant adds its units, or begins a new epoch and raises SEND_STALE (0x24) where units were left, and ends the wait of the drills that need it (R202); a SYNC
packet counts its counter up; an acknowledgement completes its transfer, a refused one raised at the sender; a landing port
counts its write-backs answered. -/
def Obligations.GrantsSyncsAndAcknowledgements : Prop :=
  (∀ (core : CoreId) (s : State) (p : Packet) (rest : List Packet), s.ejectOf core.val 3 = p :: rest → p.ty = 0xA →
    s.croftLive (croftOf core.val) = true →
    let i := core.val
    let g := bits p.body 0 8
    let u := bits p.body 8 3
    let e := bits p.body 24 32
    let entry := fun (j : Nat) => s.rd Reg.GCR.VALID i j = 1 ∧ s.rd Reg.GCR.TARGET i j = p.src ∧ s.rd Reg.GCR.GATE i j = u
    ((∀ j < 16, ¬entry j) → ∃ t, exec (.grant core) s = .next t ∧ EjectIs s t i 3 rest ∧
      t.rd Reg.GCR_LOST.LOST i = min (s.rd Reg.GCR_LOST.LOST i + 1) 0xFFFF ∧
      { t with fields := s.fields, ejq := s.ejq } = s ∧ BytesKept s t (fun _ => False) ∧
      Kept s t (fun k => k = Reg.GCR_LOST.LOST.key i 0)) ∧
    ∀ j < 16, entry j → (∀ k < j, ¬entry k) → ∃ t, exec (.grant core) s = .next t ∧ EjectIs s t i 3 rest ∧
      t.rd Reg.GCR.EPOCH i j = e ∧ t.rd Reg.GCR.UNITS i j =
        min (if s.rd Reg.GCR.EPOCH i j = e then s.rd Reg.GCR.UNITS i j + g else g) 1024 ∧
      (s.rd Reg.GCR.EPOCH i j ≠ e → s.rd Reg.GCR.UNITS i j ≠ 0 →
        Raised s t ((s.enclOfCore i).getD 16) 0x24 0 i (j + e * 2 ^ 32)) ∧
      ((s.rd Reg.GCR.EPOCH i j = e ∨ s.rd Reg.GCR.UNITS i j = 0) → t.events = s.events) ∧
      (∀ d : DrillId, ∀ r, (s.drill i d.val).active = some r → dGcr r.words = j → s.rd Reg.DRL_STAT.CREDIT_WAIT i d.val = 1 →
        t.rd Reg.DRL_STAT.CREDIT_WAIT i d.val = 0) ∧
      { t with fields := s.fields, ejq := s.ejq, events := s.events } = s ∧ BytesKept s t (fun _ => False) ∧
      Kept s t (fun k => k ∈ [Reg.GCR.EPOCH.key i j, Reg.GCR.UNITS.key i j] ∨ lostKey k ∨
        ∃ d : DrillId, k = Reg.DRL_STAT.CREDIT_WAIT.key i d.val)) ∧
  (∀ (core : CoreId) (s : State) (p : Packet) (rest : List Packet), s.ejectOf core.val 3 = p :: rest → p.ty = 0xB →
    s.croftLive (croftOf core.val) = true →
    let n := bits p.body 0 3
    ∃ t, exec (.sync core) s = .next t ∧ EjectIs s t core.val 3 rest ∧
      t.rd Reg.SYN_CNT.COUNT core.val n = (s.rd Reg.SYN_CNT.COUNT core.val n + 1) % 2 ^ 32 ∧
      { t with fields := s.fields, ejq := s.ejq } = s ∧ BytesKept s t (fun _ => False) ∧
      Kept s t (fun k => k = Reg.SYN_CNT.COUNT.key core.val n)) ∧
  (∀ (core : CoreId) (s : State) (p : Packet) (rest : List Packet) (d : DrillId) (i : Instr), FourDrills s core →
    s.ejectOf core.val 1 = p :: rest → s.drillOfTag core.val p.tag = some d.val → s.croftLive (croftOf core.val) = true →
    ((i = .gateAck (.core core) ∧ p.ty = 6) ∨ (i = .wrAck (.core core) ∧ p.ty = 4 ∧ p.kcopy = false)) →
    let x := s.drill core.val d.val
    ∃ t, exec i s = .next t ∧ EjectIs s t core.val 1 rest ∧
      DrillIs s t core d { x with out := x.out.map (fun o => if o.tag = p.tag then { o with done := some p.status } else o) } ∧
      (p.ty = 6 → p.status = 0x23 ∨ p.status = 0x25 → Raised s t ((s.enclOfCore core.val).getD 16) p.status 0 core.val
        ((p.src + p.via * 2 ^ 17 + bits p.body 0 4 * 2 ^ 20) % 2 ^ 64)) ∧
      { t with fields := s.fields, ejq := s.ejq, cores := s.cores, events := s.events } = s ∧ BytesKept s t (fun _ => False) ∧
      Kept s t (fun k => k ∈ drlKeys core d ∨ lostKey k)) ∧
  (∀ (core : CoreId) (s : State) (p : Packet) (rest : List Packet), s.ejectOf core.val 1 = p :: rest → p.ty = 4 →
    p.kcopy = true → s.croftLive (croftOf core.val) = true → ∃ t, exec (.wrAck (.core core)) s = .next t ∧ EjectIs s t core.val 1 rest ∧
      t.core core.val = { s.core core.val with copyOut := (s.core core.val).copyOut - 1 } ∧
      (∀ c, c ≠ core.val → t.core c = s.core c) ∧ { t with ejq := s.ejq, cores := s.cores } = s ∧
      BytesKept s t (fun _ => False)) ∧
  (∀ (tb : TabkoId) (s : State) (p : Packet) (rest : List Packet), (s.tabko tb.val).rspBuf = p :: rest → p.ty = 6 →
    p.status ≠ 0x23 → p.status ≠ 0x25 →
    ∃ t, exec (.gateAck (.port tb)) s = .next t ∧ (t.tabko tb.val).rspBuf = rest ∧
      Store.getD (t.tabko tb.val).wbOut p.encl 0 = Store.getD (s.tabko tb.val).wbOut p.encl 0 - 1 ∧
      { t.tabko tb.val with rspBuf := (s.tabko tb.val).rspBuf, wbOut := (s.tabko tb.val).wbOut } = s.tabko tb.val ∧
      (∀ x, x ≠ tb.val → t.tabko x = s.tabko x) ∧ { t with tabkos := s.tabkos } = s ∧ BytesKept s t (fun _ => False)) ∧
  (∀ (core : CoreId) (s : State) (p : Packet) (rest : List Packet) (x : CombEntry), s.ejectOf core.val 1 = p :: rest →
    p.ty = 8 → s.croftLive (croftOf core.val) = true → (s.core core.val).comb = [x] → x.src = p.dst → x.tag = p.tag → x.up ≠ core.val →
    s.stiled core.val = false →
    let a := McSum.ofBody p.body
    let n := a.landed + a.refused + a.missed + a.fenced
    let y : CombEntry :=
      { x with
        left := x.left - n, landed := x.landed + a.landed, refused := x.refused + a.refused, missed := x.missed + a.missed
        fenced := x.fenced + a.fenced, rcode := if x.rcode = 0 then a.rcode else x.rcode }
    ∃ t, exec (.mcAck core) s = .next t ∧ EjectIs s t core.val 1 rest ∧
      (n < x.left → t.core core.val = { s.core core.val with comb := [y] } ∧ t.fields = s.fields) ∧
      (x.left ≤ n → t.core core.val = { s.core core.val with
          comb := [], rspOut := (s.core core.val).rspOut ++
            [mcAckPacket core.val x.up p.dst p.encl p.tag ⟨y.landed, y.refused, y.missed, y.fenced, y.rcode⟩] } ∧
        t.rd Reg.RTR_STAT.COMB core.val = 0) ∧
      (∀ c, c ≠ core.val → t.core c = s.core c) ∧ { t with fields := s.fields, ejq := s.ejq, cores := s.cores } = s ∧
      BytesKept s t (fun _ => False) ∧ Kept s t (fun k => k = Reg.RTR_STAT.COMB.key core.val 0)) ∧
  ∀ (core : CoreId) (s : State) (p : Packet) (rest : List Packet), s.ejectOf core.val 1 = p :: rest → p.ty = 9 →
    let i := core.val
    let k := s.rd Reg.MC_STAT.WR i
    k < 16 → s.croftLive (croftOf i) = true → ∃ t, exec (.mcMiss core) s = .next t ∧ EjectIs s t i 1 rest ∧ t.rd Reg.MC_MISS.TARGET i k = bits p.body 0 17 ∧
      t.rd Reg.MC_MISS.TAG i k = p.tag % 256 ∧ t.rd Reg.MC_MISS.VALID i k = 1 ∧
      t.rd Reg.MC_MISS.DROP_TICK i k = bits p.body 17 16 ∧ t.rd Reg.MC_STAT.WR i = (k + 1) % 16 ∧
      t.rd Reg.MC_STAT.MISSES i = min (s.rd Reg.MC_STAT.MISSES i + 1) 0xFFFF ∧
      t.rd Reg.MC_STAT.OVF i = (if s.rd Reg.MC_MISS.VALID i k = 1 then 1 else s.rd Reg.MC_STAT.OVF i) ∧
      { t with fields := s.fields, ejq := s.ejq } = s ∧ BytesKept s t (fun _ => False) ∧
      Kept s t (fun x => x ∈ [Reg.MC_MISS.TARGET.key i k, Reg.MC_MISS.TAG.key i k, Reg.MC_MISS.VALID.key i k,
        Reg.MC_MISS.DROP_TICK.key i k, Reg.MC_STAT.WR.key i 0, Reg.MC_STAT.MISSES.key i 0, Reg.MC_STAT.OVF.key i 0])

/-- R133, R184-R186, R203, R138: a gate write, or a multicast branch, of one beat lands in an open gate's window at the gate's epoch and is
acknowledged; at a closed gate or another epoch its bytes stay out and STATUS 0x23 goes back. A branch without room takes a slot, leaves it when it wins the Local port, and is dropped
with a miss notice after MCAST_HOLD ticks. A read answer's bytes land at the unit's destination. The inspection copy leaves as writes of 256 bytes. -/
def Obligations.WritesLandAtTheirTarget : Prop :=
  (∀ (mc : Bool) (core : CoreId) (s : State) (p : Packet) (rest : List Packet), s.croftLive (croftOf core.val) = true →
    let i := core.val
    let vc := if mc then 2 else 0
    let c := if mc then Instr.mcWr core none 1 else Instr.gateWr core 1
    let x := s.core i
    let g := bits p.body 18 3
    let off := bits p.body 0 18
    let answer := fun (st landed : Nat) => if mc then mcAckPacket i p.via p.src p.encl p.tag
        (if st = 0 then ⟨1, 0, 0, 0, 0⟩ else ⟨0, 1, 0, 0, st⟩) else respTo p 6 st landed g []
    s.ejectOf i vc = p :: rest → p.data.length = 32 → p.ty = (if mc then 7 else 5) → (mc = true → p.via ≠ i) → p.poison = [] → p.keep = [] →
    (if mc then x.mcLand else x.gwLand) = ⟨0, 0, 0, false⟩ →
    let took := fun (t : State) (st landed : Nat) => EjectIs s t i vc rest ∧
      t.core i = { x with rspOut := x.rspOut ++ [answer st landed] } ∧ (∀ k, k ≠ i → t.core k = s.core k)
    (s.gateOpen i g = true → s.rd Reg.GATE_EPOCH.EPOCH i g = bits p.body 24 32 → s.rd Reg.GATE_WIN.BASE i g ≤ off →
      off + 32 ≤ s.rd Reg.GATE_WIN.BASE i g + s.rd Reg.GATE_WIN.SIZE i g → s.enclOfCore i = some p.encl →
      (∀ cw, s.wordErr i cw = 0) →
      ∃ t, exec c s = .next t ∧ took t 0 1 ∧ (∀ k (h : k < p.data.length), t.byte (spAddr i (off + k)) = p.data[k]) ∧
        t.rd Reg.GATE_STAT.LANDED i g = (s.rd Reg.GATE_STAT.LANDED i g + 1) % 2 ^ 32 ∧
        BytesKept s t (fun a => ∃ k < 32, a = spAddr i (off + k)) ∧ Kept s t (fun k => k = Reg.GATE_STAT.LANDED.key i g) ∧
        (∀ k, Store.getD t.errs k 0 = Store.getD s.errs k 0) ∧
        { t with fields := s.fields, ejq := s.ejq, cores := s.cores, mem := s.mem, errs := s.errs } = s) ∧
    ((s.gateOpen i g = false ∨ s.rd Reg.GATE_EPOCH.EPOCH i g ≠ bits p.body 24 32) →
      ∃ t, exec c s = .next t ∧ took t 0x23 0 ∧ BytesKept s t (fun _ => False) ∧
        t.rd Reg.GATE_STAT.STALE i g = min (s.rd Reg.GATE_STAT.STALE i g + 1) 0xFFFF ∧
        Kept s t (fun k => k = Reg.GATE_STAT.STALE.key i g) ∧
        { t with fields := s.fields, ejq := s.ejq, cores := s.cores } = s)) ∧
  (∀ (core : CoreId) (s : State) (inp : Fin 6) (m : MPkt) (rest : List MPkt) (r : Nat), s.croftLive (croftOf core.val) = true →
    let i := core.val
    let x := s.core i
    let p := withGate m.pkt (8 + r)
    s.inputOf i inp.val 2 = m :: rest → m.fresh = false → m.outs = [8 + r] → s.fallow i = false → s.ejectRoom i p = false →
    x.mcSlots.length < 2 → p.via ≠ i →
    let goes := fun (y : CoreX) => ∃ t, exec (.mcWr core (some inp) 0) s = .next t ∧ t.inputOf i inp.val 2 = rest ∧
      (∀ k, k ≠ qKey i inp.val 2 → Store.getD t.inq k [] = Store.getD s.inq k []) ∧ t.core i = y ∧
      (∀ k, k ≠ i → t.core k = s.core k) ∧ t.rd Reg.RTR_STAT.MCSLOT i = (if y.mcSlots = x.mcSlots
        then s.rd Reg.RTR_STAT.MCSLOT i else y.mcSlots.length) ∧ BytesKept s t (fun _ => False) ∧
      Kept s t (fun k => k = Reg.RTR_STAT.MCSLOT.key i 0) ∧ { t with fields := s.fields, inq := s.inq, cores := s.cores } = s
    (s.rd Reg.MESH_CTL.MCAST_HOLD (croftOf i) ≠ 0 →
      goes { x with mcSlots := x.mcSlots ++ [⟨p, s.estTick (croftOf i)⟩] }) ∧
    (s.rd Reg.MESH_CTL.MCAST_HOLD (croftOf i) = 0 →
      goes { x with rspOut := x.rspOut ++ branchMissed s i p })) ∧
  (∀ (core : CoreId) (slot : Fin 2) (s : State) (b : McSlot), s.croftLive (croftOf core.val) = true →
    let i := core.val
    let x := s.core i
    let left := x.mcSlots.eraseIdx slot.val
    x.mcSlots[slot.val]? = some b →
    (choose (s.candidates i 0) = some (6 + slot.val, b.pkt) →
      ∃ t, exec (.mcSlotEject core slot) s = .next t ∧ t.core i = { x with mcSlots := left } ∧
      (∀ k, k ≠ i → t.core k = s.core k) ∧ EjectIs s t i 2 (s.ejectOf i 2 ++ [b.pkt]) ∧
      t.rd Reg.RTR_STAT.MCSLOT i = left.length % 4 ∧
      t.rd Reg.RTR_FLITS.FLITS i = (s.rd Reg.RTR_FLITS.FLITS i + b.pkt.flits) % 2 ^ 48 ∧
      { t with fields := s.fields, ejq := s.ejq, cores := s.cores } = s ∧
      BytesKept s t (fun _ => False) ∧
      Kept s t (fun k => k = Reg.RTR_STAT.MCSLOT.key i 0 ∨ k = Reg.RTR_FLITS.FLITS.key i 0)) ∧
    -- alone at the Local port, with room and before its hold has run out, it wins
    ((∀ c ∈ s.candidates i 0, c = (6 + slot.val, b.pkt)) → s.ejectRoom i b.pkt = true →
      s.estTick (croftOf i) < b.tick + s.rd Reg.MESH_CTL.MCAST_HOLD (croftOf i) →
      choose (s.candidates i 0) = some (6 + slot.val, b.pkt)) ∧
    (b.tick + s.rd Reg.MESH_CTL.MCAST_HOLD (croftOf i) ≤ s.estTick (croftOf i) → b.pkt.via ≠ i →
      ∃ t, exec (.mcBranchDrop core slot) s = .next t ∧
        t.core i = { x with mcSlots := left, rspOut := x.rspOut ++ branchMissed s i b.pkt } ∧
        (∀ k, k ≠ i → t.core k = s.core k) ∧ t.rd Reg.RTR_STAT.MCSLOT i = left.length % 4 ∧
        { t with fields := s.fields, cores := s.cores } = s ∧ BytesKept s t (fun _ => False) ∧
        Kept s t (fun k => k = Reg.RTR_STAT.MCSLOT.key i 0))) ∧
  (∀ (core : CoreId) (s : State) (p : Packet) (rest : List Packet) (d : DrillId) (r : DescRun) (o : Xfer), FourDrills s core →
    let i := core.val
    let x := s.drill i d.val
    let data := slice p.data (bits p.body 0 48 % 32) (bits p.body 48 9)
    let out := fun (st : Nat) => { x with out := x.out.map (fun q => if q.tag = p.tag then { q with done := some st } else q) }
    s.croftLive (croftOf i) = true → s.ejectOf i 1 = p :: rest → p.ty = 2 → p.poison = [] → s.drillOfTag i p.tag = some d.val →
    x.active = some r → x.out.find? (fun q => decide (q.tag = p.tag)) = some o → dXform r.words = 0 →
    (p.status = 0 → o.scale = false → o.count = 1 → data.length = dRemBytes r.words → (∀ cw, s.wordErr i cw = 0) →
      ∃ t, exec (.rdRsp core) s = .next t ∧ EjectIs s t i 1 rest ∧ DrillIs s t core d (out 0) ∧
        (∀ k (h : k < data.length), t.byte (spAddr i (dDstAddr r.words o.unit 0 + k)) = data[k]) ∧
        BytesKept s t (fun a => ∃ k < data.length, a = spAddr i (dDstAddr r.words o.unit 0 + k)) ∧
        (∀ k, Store.getD t.errs k 0 = Store.getD s.errs k 0) ∧ Kept s t (fun k => k ∈ drlKeys core d) ∧
        { t with fields := s.fields, ejq := s.ejq, cores := s.cores, mem := s.mem, errs := s.errs } = s) ∧
    (p.status ≠ 0 → ∃ t, exec (.rdRsp core) s = .next t ∧ EjectIs s t i 1 rest ∧ DrillIs s t core d (out p.status) ∧
      BytesKept s t (fun _ => False) ∧ Kept s t (fun k => k ∈ drlKeys core d) ∧
      { t with fields := s.fields, ejq := s.ejq, cores := s.cores } = s)) ∧
  ∀ (core : CoreId) (s : State) (n : Nat), (s.core core.val).copy ≠ none → s.enclOfCore core.val = some n →
    s.croftLive (croftOf core.val) = true →
    (∀ cw, s.wordErr core.val cw = 0) →
    let ps := s.copyPackets core.val n (s.spBytes core.val 0 0x40000)
    ∃ t, exec (.inspectionCopyDone core) s = .next t ∧
      t.core core.val = { s.core core.val with
        copy := none, copyOut := (s.core core.val).copyOut + ps.length, copyQ := (s.core core.val).copyQ ++ ps } ∧
      (∀ c, c ≠ core.val → t.core c = s.core c) ∧ { t with cores := s.cores } = s ∧ BytesKept s t (fun _ => False)

/-! ### The slow tier and the parameter update (chapters 12, 13) -/

/-- R293-R297, R304: a landing port queues a request; admission answers it without a DRAM access where R296 says so, every request to a CLOSED region
with 0x67, and otherwise reads or writes its bytes within the enclosure's share, and an access of the tillers does so there too, a read's bytes going to the entry it
is for; the answer of a read leaves at acceptance + 112, that of a write at acceptance + 96, not before; a frame that fails twice answers 0x63 and asks for a retraining. -/
def Obligations.SlowTierRequests : Prop :=
  (∀ (tb : TabkoId) (wr : Bool) (s : State) (r : SlowReq) (rest : List SlowReq),
    let x := s.tabko tb.val
    let c := if wr then Instr.wrReq tb else .rdReq tb
    x.reqBuf = r :: rest → r.pkt.ty = (if wr then 3 else 1) → x.admq.length < 64 →
    ∃ t, exec c s = .next t ∧ TabkoIs s t tb (if s.muted r.pkt.encl = true ∧ r.pkt.kcopy = false then { x with reqBuf := rest }
      else { x with reqBuf := rest, admq := x.admq ++ [r] }) ∧ { t with tabkos := s.tabkos } = s ∧
      BytesKept s t (fun _ => False)) ∧
  (∀ (tb : TabkoId) (s : State) (r : SlowReq),
    let x := s.tabko tb.val
    let p := r.pkt
    let a := bits p.body 0 48
    let n := bits p.body 48 9
    let tk := s.portTick tb.val
    let done := fun (t : State) (st : Nat) (data : List Byte) (costs : List (Nat × Nat)) =>
      TabkoIs s t tb { x with admq := [], tracks := x.tracks ++ [⟨p, tk, st, data, costs, 0, []⟩] }
    s.admitting tb.val = true → x.admq = [r] → x.tills = [] → (∀ w ∈ x.work, w.left ≠ 0) → r.arr ≤ tk → p.ty = 1 ∨ p.ty = 3 →
    (s.rd Reg.TBK_STAT.DOWN tb.val = 1 → ∃ t, exec (.portAdmission tb) s = .next t ∧ done t 0x66 [] [] ∧
      { t with tabkos := s.tabkos } = s ∧ BytesKept s t (fun _ => False)) ∧
    (s.rd Reg.TBK_STAT.DOWN tb.val ≠ 1 → p.data = [] → p.ty = 1 → 0 < n → a / 256 ≠ (a + n - 1) / 256 →
      ∃ t, exec (.portAdmission tb) s = .next t ∧ done t 0x64 [] [] ∧ Raised s t p.encl 0x64 2 tb.val a ∧
        { t with fields := s.fields, tabkos := s.tabkos, events := s.events } = s ∧ BytesKept s t (fun _ => False) ∧
        Kept s t lostKey) ∧
    ∀ g, s.rd Reg.TBK_STAT.DOWN tb.val ≠ 1 → 0 < n → a / 256 = (a + n - 1) / 256 →
      p.data.length = (if p.ty = 3 then 32 * ceilDiv (a % 32 + n) 32 else 0) → s.inSpan tb.val a = true →
      s.regionOf tb.val ((a - s.spanBase tb.val) / 65536) = some g →
      p.poison = [] → x.pendings = [] → (∀ b, s.blockErr b = 0) →
      let costs := slotCosts (decide (p.ty = 3)) (a - s.spanBase tb.val) n
      (s.rd Reg.TBK_REGION.CLOSED tb.val g = 1 → p.kcopy = false →
        ∃ t, exec (.portAdmission tb) s = .next t ∧ done t 0x67 [] [] ∧ Raised s t p.encl 0x67 2 tb.val a ∧
          { t with fields := s.fields, tabkos := s.tabkos, events := s.events } = s ∧ BytesKept s t (fun _ => False) ∧
          Kept s t lostKey) ∧
      (s.rd Reg.TBK_REGION.CLOSED tb.val g ≠ 1 → s.rd Reg.TBK_REGION.ENCL tb.val g = p.encl →
        (∀ c ∈ costs, s.windowCost tb.val p.encl c.1 tk + c.2 ≤ s.rd Reg.TBK_SHARE.SHARE tb.val p.encl) →
        s.rd Reg.TBK_SHARE.INUSE tb.val p.encl < s.rd Reg.TBK_SHARE.TRACK tb.val p.encl →
        ∃ t, exec (.portAdmission tb) s = .next t ∧
          done t 0 (if p.ty = 3 then [] else Memory.readList s.mem a n) costs ∧
          t.rd Reg.TBK_SHARE.INUSE tb.val p.encl = (s.rd Reg.TBK_SHARE.INUSE tb.val p.encl + 1) % 512 ∧
          Kept s t (fun k => k = Reg.TBK_SHARE.INUSE.key tb.val p.encl) ∧
          (p.ty = 3 → ∀ k < n, t.byte (a + k) = p.data[a % 32 + k]?.getD 0) ∧
          BytesKept s t (fun b => p.ty = 3 ∧ a ≤ b ∧ b < a + n) ∧
          (∀ k, Store.getD t.slowErrs k 0 = Store.getD s.slowErrs k 0) ∧
          { t with fields := s.fields, tabkos := s.tabkos, mem := s.mem, slowErrs := s.slowErrs } = s)) ∧
  (∀ (tb : TabkoId) (s : State) (k : TillAcc),
    let x := s.tabko tb.val
    let tk := s.portTick tb.val
    let n := k.encl
    let a := s.spanBase tb.val + k.at_
    let took := fun (w : TillWork) => if k.write = false ∧ w.id = k.job
      then { w with left := w.left - 1, got := w.got ++ [(k.at_, Memory.readList s.mem a k.len)] } else w
    s.admitting tb.val = true → x.admq = [] → x.tills = [k] → k.acc = none → x.pendings = [] → (∀ b, s.blockErr b = 0) →
    (∀ w ∈ x.work, (took w).left ≠ 0) →
    (∀ c ∈ k.costs, s.windowCost tb.val n c.1 tk + c.2 ≤ s.rd Reg.TBK_SHARE.SHARE tb.val n) →
    s.rd Reg.TBK_SHARE.INUSE tb.val n < s.rd Reg.TBK_SHARE.TRACK tb.val n →
    ∃ t, exec (.portAdmission tb) s = .next t ∧
      TabkoIs s t tb { x with tills := [{ k with acc := some tk }], work := x.work.map took } ∧
      t.rd Reg.TBK_SHARE.INUSE tb.val n = (s.rd Reg.TBK_SHARE.INUSE tb.val n + 1) % 512 ∧
      (k.write = true → ∀ j (h : j < k.data.length), t.byte (a + j) = k.data[j]) ∧
      BytesKept s t (fun b => k.write = true ∧ a ≤ b ∧ b < a + k.data.length) ∧
      Kept s t (fun q => q = Reg.TBK_SHARE.INUSE.key tb.val n) ∧
      (∀ b, Store.getD t.slowErrs b 0 = Store.getD s.slowErrs b 0) ∧
      { t with fields := s.fields, tabkos := s.tabkos, mem := s.mem, slowErrs := s.slowErrs } = s) ∧
  ∀ (tb : TabkoId) (wr fail : Bool) (s : State) (k : Track),
    let x := s.tabko tb.val
    let p := k.pkt
    let c := if wr then Instr.writeAck tb fail else .readAnswer tb fail
    let due := k.acc + (if wr then 96 else 112)
    x.tracks = [k] → p.ty = (if wr then 3 else 1) → k.corr = 0 → k.bad = [] → k.costs ≠ [] →
    (s.portTick tb.val < due → exec c s = .next s) ∧
    (due ≤ s.portTick tb.val → s.muted p.encl = false ∨ p.kcopy = true → s.rd Reg.TBK_STAT.DOWN tb.val = 0 →
      (fail = false → ∃ t, exec c s = .next t ∧
        TabkoIs s t tb { x with tracks := [], out := x.out ++ [respTo p (if wr then 4 else 2) k.status p.body 0
          (if wr = false ∧ k.status = 0 then padBeats (bits p.body 0 48) k.data else [])] } ∧
        t.rd Reg.TBK_SHARE.INUSE tb.val p.encl = (s.rd Reg.TBK_SHARE.INUSE tb.val p.encl - 1) % 512 ∧
        Kept s t (fun q => q = Reg.TBK_SHARE.INUSE.key tb.val p.encl) ∧
        { t with fields := s.fields, tabkos := s.tabkos } = s ∧ BytesKept s t (fun _ => False)) ∧
      (fail = true → wr = false → ∃ t, exec c s = .next t ∧
        TabkoIs s t tb { x with tracks := [], retrainDue := true, out := x.out ++ [respTo p 2 0x63 p.body 0 []] } ∧
        t.rd Reg.TBK_SHARE.INUSE tb.val p.encl = (s.rd Reg.TBK_SHARE.INUSE tb.val p.encl - 1) % 512 ∧
        t.rd Reg.TBK_LINK.FAILS tb.val = min (s.rd Reg.TBK_LINK.FAILS tb.val + 1) 255 ∧ (∃ d, Raised s t p.encl 0x63 2 tb.val d) ∧
        Kept s t (fun q => q ∈ [Reg.TBK_SHARE.INUSE.key tb.val p.encl, Reg.TBK_LINK.FAILS.key tb.val 0] ∨ lostKey q) ∧
        { t with fields := s.fields, tabkos := s.tabkos, events := s.events } = s ∧ BytesKept s t (fun _ => False)))

/-- R288, R289, R300, R302-R304: the patrol moves on, a symbol it corrects is counted, a block beyond correction recorded and
raised; a wipe leaves zeros in the stale blocks of its granule; retraining stops the wheel at a bell, at a step boundary, for 4,096 ticks; a
Tabko goes DOWN with every enclosure on it faulted; a hot package sets HOT. -/
def Obligations.SlowTierUpkeep : Prop :=
  (∀ (tb : TabkoId) (s : State), s.admitting tb.val = true → s.rd Reg.TBK_SCRUB.EN tb.val = 1 →
    let x := s.tabko tb.val
    let b := x.patrol
    let a := s.spanBase tb.val + b * 64
    let on := fun (t : State) => (t.tabko tb.val).patrol = (if 983040 * 1024 ≤ b + 1 then 0 else b + 1) ∧
      t.rd Reg.TBK_SCRUB.PASSES tb.val = (if 983040 * 1024 ≤ b + 1 then (s.rd Reg.TBK_SCRUB.PASSES tb.val + 1) % 2 ^ 32
        else s.rd Reg.TBK_SCRUB.PASSES tb.val) ∧ (∀ k, k ≠ tb.val → t.tabko k = s.tabko k) ∧ BytesKept s t (fun _ => False)
    let bad := fun (one : Bool) => [(BitVec.ofNat 30 b, one)]
    x.pendings = [] → s.claimed [2, 6, 8] 2 tb.val = false → s.blockErr a = 0 → s.tabkoPresent tb.val = true → b < 983040 * 1024 →
    (∃ t, exec (.patrolRead tb []) s = .next t ∧ on t ∧ { t with fields := s.fields, tabkos := s.tabkos } = s ∧
      Kept s t (fun k => k = Reg.TBK_SCRUB.PASSES.key tb.val 0)) ∧
    (∃ t, exec (.patrolRead tb (bad true)) s = .next t ∧ on t ∧ t.blockErr a = 0 ∧
      t.rd Reg.TBK_ECC.CORR tb.val = (s.rd Reg.TBK_ECC.CORR tb.val + 1) % 2 ^ 32) ∧
    (∃ t, exec (.patrolRead tb (bad false)) s = .next t ∧ on t ∧ t.blockErr a = 2 ∧
      t.rd Reg.TBK_ECC.UNCORR tb.val = min (s.rd Reg.TBK_ECC.UNCORR tb.val + 1) 0xFFFF ∧
      t.rd Reg.TBK_ECC_LOC.ADDR tb.val = a % 2 ^ 48 ∧ t.rd Reg.TBK_ECC_LOC.SOURCE tb.val = 2 ∧
      t.rd Reg.TBK_ECC_LOC.VALID tb.val = 1 ∧ (s.regionOf tb.val (b / 1024) = none → ∃ d, Raised s t 16 0x62 2 tb.val d))) ∧
  (∀ (tb : TabkoId) (s : State) (g : Nat), s.admitting tb.val = true →
    let x := s.tabko tb.val
    let base := s.spanBase tb.val + g * 65536
    (x.wipeOrder.head? = some g ∨ (x.wipeOrder = [] ∧ g ∈ x.pendings ∧ ∀ h ∈ x.pendings, g ≤ h)) →
    ∃ t, exec (.granuleWipe tb) s = .next t ∧
      (∀ k < 65536, t.byte (base + k) = if x.stale (g * 1024 + k / 64) then 0 else s.byte (base + k)) ∧
      BytesKept s t (fun a => base ≤ a ∧ a < base + 65536) ∧
      TabkoIs s t tb { x with
        pendings := x.pendings.filter (fun h => decide (h ≠ g)), wipeOrder := x.wipeOrder.filter (fun h => decide (h ≠ g))
        fresh := x.fresh.filter (fun b => decide (b / 1024 ≠ g)), grans := Store.put x.grans g ((x.gran g).1, 0) } ∧
      t.rd Reg.TBK_STAT.PENDING tb.val = (x.pendings.filter (fun h => decide (h ≠ g))).length % 2 ^ 20 ∧
      { t with fields := s.fields, tabkos := s.tabkos, mem := s.mem, slowErrs := s.slowErrs } = s ∧
      Kept s t (fun k => k = Reg.TBK_STAT.PENDING.key tb.val 0 ∨ k = Reg.GNT_STAT.REFURB_BUSY.key 0 0)) ∧
  (∀ (tb : TabkoId) (s : State), s.tabkoPresent tb.val = true → s.admitting tb.val = true → s.rd Reg.TBK_STAT.DOWN tb.val = 0 →
    let x := s.tabko tb.val
    s.now % 1024 = 0 → x.retrain = none → s.claimed [6, 8] 2 tb.val = true → (∀ n < 16, s.regionsOf tb.val n ≠ [] → s.atBoundary n = true) →
    x.tracks = [] → x.tills = [] → x.work = [] → x.admq = [] → x.reqBuf = [] →
    ∃ t, exec (.tabkoRetrainStart tb) s = .next t ∧ TabkoIs s t tb { x with retrain := some s.now } ∧
      t.rd Reg.TBK_STAT.RECAL_BUSY tb.val = 1 ∧ t.rd Reg.TBK_STAT.READY tb.val = 0 ∧ { t with fields := s.fields, tabkos := s.tabkos } = s ∧
      BytesKept s t (fun _ => False) ∧ Kept s t (fun k => k ∈ [Reg.TBK_STAT.RECAL_BUSY.key tb.val 0, Reg.TBK_STAT.READY.key tb.val 0])) ∧
  (∀ (tb : TabkoId) (s : State) (b : Nat), (s.tabko tb.val).retrain = some b → b + 4096 ≤ s.now → s.yosal.winq = [] →
    ∃ t, exec (.tabkoRetrainEnd tb false) s = .next t ∧
      TabkoIs s t tb { s.tabko tb.val with retrain := none, retrainDue := false } ∧ t.rd Reg.TBK_STAT.RECAL_BUSY tb.val = 0 ∧
      t.rd Reg.TBK_LINK.RETRAINS tb.val = min (s.rd Reg.TBK_LINK.RETRAINS tb.val + 1) 0xFFFF ∧
      (s.mpState = 0 → s.rd Reg.TBK_STAT.INIT_BUSY tb.val = 0 → s.rd Reg.TBK_STAT.DOWN tb.val = 0 → t.rd Reg.TBK_STAT.READY tb.val = 1) ∧
      { t with fields := s.fields, tabkos := s.tabkos } = s ∧ BytesKept s t (fun _ => False) ∧
      Kept s t (fun k => k ∈ [Reg.TBK_STAT.RECAL_BUSY.key tb.val 0, Reg.TBK_LINK.RETRAINS.key tb.val 0, Reg.TBK_STAT.READY.key tb.val 0] ∨
        ∃ j < 32, k = Reg.MAINT_CLAIM.VALID.key 0 j)) ∧
  (∀ (tb : TabkoId) (s : State), s.tabkoPresent tb.val = true → s.rd Reg.TBK_STAT.DOWN tb.val ≠ 1 →
    ∃ t, exec (.tabkoDown tb) s = .next t ∧ t.rd Reg.TBK_STAT.DOWN tb.val = 1 ∧ t.rd Reg.TBK_STAT.READY tb.val = 0 ∧
      t.rd Reg.TBK_STAT.LINK_UP tb.val = 0 ∧ (∃ d, Raised s t 16 0x66 2 tb.val d) ∧
      (∀ n < 16, s.regionsOf tb.val n ≠ [] → s.rd Reg.ENCL_STATE.STATE (j := n) ∈ [1, 2, 3] →
        t.rd Reg.ENCL_STATE.STATE (j := n) = 4 ∧ t.rd Reg.ENCL_STATE.CAUSE (j := n) = 0x66) ∧
      t.tabkos = s.tabkos ∧ BytesKept s t (fun _ => False)) ∧
  ∀ (tb : TabkoId) (p0 p1 : BitVec 8) (s : State), s.tabkoPresent tb.val = true →
    let lim := s.rd Reg.TBK_TEMP.LIMIT tb.val
    let hot := lim < p0.toNat ∨ lim < p1.toNat
    ∃ t, exec (.dramHot tb p0 p1) s = .next t ∧ t.rd Reg.TBK_TEMP.PKG0 tb.val = p0.toNat ∧ t.rd Reg.TBK_TEMP.PKG1 tb.val = p1.toNat ∧
      (hot → s.rd Reg.TBK_TEMP.HOT tb.val = 0 → t.rd Reg.TBK_TEMP.HOT tb.val = 1 ∧ ∃ d, Raised s t 16 0x65 2 tb.val d) ∧
      (¬hot → t.rd Reg.TBK_TEMP.HOT tb.val = s.rd Reg.TBK_TEMP.HOT tb.val ∧ t.events = s.events) ∧
      OnlyFieldsAndEvents s t (fun k => k ∈ [Reg.TBK_TEMP.PKG0.key tb.val 0, Reg.TBK_TEMP.PKG1.key tb.val 0,
        Reg.TBK_TEMP.HOT.key tb.val 0] ∨ lostKey k)

/-- R312-R314, R318: the entries of a landed sheaf of a closed step are taken up: reads of their G, w and m, none across a unit of 256 B, wait
for admission. With the last of them the entry is applied element by element by the sign rule: writes of the w and m that R314 gives wait for admission, and
nothing else in memory changes. UPDATE_DONE comes once every entry is applied, its accesses are answered and every write-back answered. -/
def Obligations.UpdateBySignRule : Prop :=
  (∀ (tb : TabkoId) (s : State) (n sheaf : Nat) (scale : Int) (e : UpdEntry),
    let x := s.tabko tb.val
    let base := s.spanBase tb.val
    let rs := s.tillReads tb.val x.workId e
    s.admitting tb.val = true → s.rd Reg.TBK_STAT.DOWN tb.val = 0 → x.landed = [(n, sheaf, scale)] → (s.encl n).closed = true →
    s.rd Reg.UPD_STAT.BUSY tb.val n = 1 → x.entries = [e] → e.encl = n → e.sheaf = sheaf → e.done = false →
    base ≤ e.w → base ≤ e.m → base ≤ e.g →
    (∃ t, exec (.landingNotice tb) s = .next t ∧
      TabkoIs s t tb { x with
        landed := [], entries := [{ e with done := true }], tills := x.tills ++ rs
        work := x.work ++ [⟨x.workId, e, scale, rs.length, []⟩], workId := x.workId + 1 } ∧
      { t with tabkos := s.tabkos } = s) ∧
    (∀ k ∈ rs, k.encl = n ∧ k.write = false ∧ k.job = x.workId ∧ k.acc = none ∧ 0 < k.len ∧ k.at_ / 256 = (k.at_ + k.len - 1) / 256 ∧
      k.costs = slotCosts false k.at_ k.len) ∧
    ∀ a, (∃ k ∈ rs, base + k.at_ ≤ a ∧ a < base + k.at_ + k.len) ↔
      (e.g ≤ a ∧ a < e.g + 4 * e.count) ∨ (e.w ≤ a ∧ a < e.w + 4 * e.count) ∨ (e.m ≤ a ∧ a < e.m + 2 * e.count)) ∧
  (∀ (tb : TabkoId) (s : State) (k : TillAcc) (w : TillWork) (h : UpdSet),
    let x := s.tabko tb.val
    let tk := s.portTick tb.val
    let base := s.spanBase tb.val
    let e := w.entry
    let n := e.encl
    let full : TillWork := { w with left := 0, got := w.got ++ [(k.at_, Memory.readList s.mem (base + k.at_) k.len)] }
    let gOf := fun (j : Nat) => gradOf e.exact w.scale h.gscale.toNat (elemAt (s.tillGot tb.val full e.g (4 * e.count)) 4 j)
    let wOf := fun (j : Nat) => elemAt (s.tillGot tb.val full e.w (4 * e.count)) 4 j
    let mOf := fun (j : Nat) => elemAt (s.tillGot tb.val full e.m (2 * e.count)) 2 j
    let new := fun (j : Nat) => signRule h (s.rd Reg.UPD_ETA.ETA tb.val (n * 8 + e.set)) (gOf j) (wOf j) (mOf j)
    s.admitting tb.val = true → x.admq = [] → x.tills = [k] → k.acc = none → k.write = false → k.encl = n → k.job = w.id →
    x.work = [w] → w.left = 1 → e.runs = [] → Store.get x.sets (n * 8 + e.set) = some h → x.pendings = [] → (∀ b, s.blockErr b = 0) →
    (∀ c ∈ k.costs, s.windowCost tb.val n c.1 tk + c.2 ≤ s.rd Reg.TBK_SHARE.SHARE tb.val n) →
    s.rd Reg.TBK_SHARE.INUSE tb.val n < s.rd Reg.TBK_SHARE.TRACK tb.val n →
    (∀ j < e.count, (fp32.decode (gOf j)).nonFinite = false) → base ≤ e.w → base ≤ e.m →
    ∃ t ws, exec (.portAdmission tb) s = .next t ∧ (t.tabko tb.val).tills = { k with acc := some tk } :: ws ∧
      (∀ q ∈ ws, q.encl = n ∧ q.write = true ∧ q.job = w.id ∧ q.acc = none ∧ q.data.length = q.len ∧
        q.costs = slotCosts true q.at_ q.len ∧ ∀ i (hi : i < q.data.length), let a := base + q.at_ + i
        (∃ j < e.count, ∃ b < 4, a = e.w + 4 * j + b ∧ q.data[i] = BitVec.ofNat 8 ((new j).1 / 256 ^ b)) ∨
        (∃ j < e.count, ∃ b < 2, a = e.m + 2 * j + b ∧ q.data[i] = BitVec.ofNat 8 ((new j).2 / 256 ^ b))) ∧
      (∀ a, (e.w ≤ a ∧ a < e.w + 4 * e.count) ∨ (e.m ≤ a ∧ a < e.m + 2 * e.count) →
        ∃ q ∈ ws, base + q.at_ ≤ a ∧ a < base + q.at_ + q.len) ∧
      (t.tabko tb.val).work = [] ∧ (t.tabko tb.val).out = x.out ∧ (t.tabko tb.val).entries = x.entries ∧
      (∀ b, b ≠ tb.val → t.tabko b = s.tabko b) ∧ Kept s t (fun q => q = Reg.TBK_SHARE.INUSE.key tb.val n) ∧
      { t with fields := s.fields, tabkos := s.tabkos } = s) ∧
  (∀ (h : UpdSet) (eta g w m : Nat),
    let mf := fp32.round (bf16.decode m)
    let c := fmaF h.b1.toNat mf (mulF h.omb1.toNat g)
    signRule h eta g w m = (fnmaF eta (fmaF h.lambda.toNat w (floatSign fp32 c)) w,
      (bf16.convert .rne false (fp32.decode (fmaF h.b2.toNat mf (mulF h.omb2.toNat g)))).code)) ∧
  ∀ (tb : TabkoId) (encl : EnclId) (s : State),
    let x := s.tabko tb.val
    let mine := x.entries.filter (fun e => decide (e.encl = encl.val))
    s.rd Reg.UPD_STAT.BUSY tb.val encl.val = 1 → (∀ e ∈ mine, e.done = true) → (∀ k ∈ x.work, k.entry.encl ≠ encl.val) →
    (∀ k ∈ x.tills, k.encl = encl.val → k.over (s.portTick tb.val) = true) → Store.getD x.wbOut encl.val 0 = 0 →
    ∃ t, exec (.updateDone tb encl) s = .next t ∧ t.rd Reg.UPD_STAT.BUSY tb.val encl.val = 0 ∧
      t.rd Reg.UPD_STAT.DONE tb.val encl.val = 1 ∧
      t.rd Reg.UPD_ELEMS.ELEMS tb.val encl.val = (mine.map UpdEntry.count).sum % 2 ^ 48 ∧
      OnlyFields s t [Reg.UPD_STAT.BUSY.key tb.val encl.val, Reg.UPD_STAT.DONE.key tb.val encl.val,
        Reg.UPD_ELEMS.ELEMS.key tb.val encl.val]

/-! ### Threshing (chapter 14) -/

/-- R238, R349, R350, R325: SBAR holds the hand and, in an enclosure, sends a mark to each floor that has a ring, once the emission path has room (R331); a mark of the
open step is kept, its credit held back while every fold entry is taken (R335); at the
release tick every core that held goes on, in a croft whose own tick is behind or ahead at that tick of its own, behind word 2,047 it halts (R115); a ring is committed with every staged field in force while the enclosure is FREE, and refused with CFG_MISMATCH (0x01) otherwise. -/
def Obligations.StepBarrierMarksAndRings : Prop :=
  (∀ (core : CoreId) (w : SyncWord) (s : State), Ready s core → w.rsv = 0 → w.hd = 0 → w.hs = 0 → w.cnt = 0 →
    let x := s.core core.val
    let after := fun (y : CoreX) (ks : List Nat) => ∃ t, exec (.sbar core w) s = .next t ∧ t.core core.val = y ∧
      (∀ c, c ≠ core.val → t.core c = s.core c) ∧ NextWord s t core ∧ { t with fields := s.fields, cores := s.cores } = s ∧
      BytesKept s t (fun _ => False) ∧ Kept s t (fun k => k ∈ pcKey core :: ks)
    (s.enclOfCore core.val = none → after { x with hold := .sbar } []) ∧
    (∀ n, s.enclOfCore core.val = some n → 8 < x.emit.length + (s.ringFloors n).length → after { x with hold := .sbar } []) ∧
    (∀ n, s.enclOfCore core.val = some n → x.rdPend = none → x.arrQ = [] → x.flush = none → x.arrived = false →
      x.emit.length + (s.ringFloors n).length ≤ 8 → (∀ r, x.rdRun = some r → r.readEnd ≤ s.cycle (croftOf core.val) 0) →
      let step := s.rd Reg.NUM_SR.STEP core.val
      after { x with
        hold := .sbar, arrived := true, emit := x.emit ++ (s.ringFloors n).map (fun fl =>
          s.sheafPacket core.val fl (3 * 2 ^ 34 + step % 2 ^ 32 * 2 ^ 59) []) }
        [Reg.EMIT_STAT.RET_USED.key core.val 0, Reg.EMIT_STAT.BUSY.key core.val 0, Reg.EMIT_STAT.REEMIT.key core.val 0])) ∧
  (∀ (floor : FloorId) (row : Fin 256) (s : State) (h : HlEntry) (rest : List HlEntry),
    let fl := floor.val
    let p := h.pkt
    let n := p.encl
    s.headland (edgeCore fl row.val) 5 0 = h :: rest → h.stamp ≤ s.now → s.floorState fl ≠ 3 → p.ty = 0xC →
    bits p.body 34 2 = 3 → s.muted n = false → (s.encl n).checked = false →
    bits p.body 59 32 = s.rd Reg.ENCL_STATE.STEP (j := n) → (n, p.src) ∉ (s.floor fl).marks →
    let e := edgeCore fl row.val
    let x := { s.floor fl with marks := (s.floor fl).marks ++ [(n, p.src)] }
    ∃ t, exec (.sheafMark floor row) s = .next t ∧ FloorTakes s t fl row.val 0 rest ∧
      ((s.floor fl).full = none → FloorIs s t fl x ∧ t.credits = s.credits ++ [⟨qKey e 5 0, p.flits, s.estTick (croftOf e) + 2⟩]) ∧
      ((s.floor fl).full ≠ none → FloorIs s t fl { x with owed := x.owed ++ [(e, p.flits)] } ∧ t.credits = s.credits) ∧
      { t with hlq := s.hlq, credits := s.credits, floors := s.floors } = s ∧ BytesKept s t (fun _ => False)) ∧
  (∀ (encl : EnclId) (s : State) (r : Nat),
    let n := encl.val
    let x := s.encl n
    x.release = some r → r ≤ s.now → s.yoke.seeding ≠ some n → x.restart = false → s.power.fromKeep = [] →
    (s.floor 0).held = [] → (s.floor 1).held = [] → s.rd Reg.ENCL_SHAPE.YOKE (j := n) = 0 →
    ((∀ c ∈ s.runCores n, (s.core c).runOff = false) → ∃ t, exec (.stepRelease encl) s = .next t ∧
      t.encl n = { x with
        closed := false, folded := false, checked := false, release := none, restart := false, soloWait := false
        glean := decide (s.rd Reg.GLN_CTL.EN 0 n = 1) } ∧ (∀ m, m ≠ n → t.encl m = s.encl m) ∧
      (∀ c ∈ s.runCores n, t.core c = { s.core c with
        arrived := false
        hold := if (s.core c).hold ≠ .sbar ∨ (s.core c).arrived = false then (s.core c).hold else if s.estTick (croftOf c) < r then .twait r else .none }) ∧
      (∀ c, c ∉ s.runCores n → t.core c = s.core c) ∧ { t with cores := s.cores, encls := s.encls } = s ∧
      BytesKept s t (fun _ => False)) ∧
    (∀ core : CoreId, s.runCores n = [core.val] → (s.core core.val).hold = .sbar → (s.core core.val).arrived = true →
      (s.core core.val).runOff = true → s.rd Reg.HND_STAT.HALTED core.val = 0 → r ≤ s.estTick (croftOf core.val) →
      ∃ t, exec (.stepRelease encl) s = .next t ∧ t.rd Reg.HND_STAT.HALTED core.val = 1 ∧ t.rd Reg.HND_STAT.CAUSE core.val = 2 ∧
        BytesKept s t (fun _ => False))) ∧
  (∀ (encl : EnclId) (s : State) (r : Nat), (s.encl encl.val).release = some r → s.now < r →
    let n := encl.val
    let due := fun c => r ≤ s.estTick (croftOf c) ∧ (s.core c).hold = .sbar ∧ (s.core c).arrived = true ∧ croftOf c ∉ s.power.fromKeep
    ((s.encl n).restart = true ∨ (∀ c ∈ s.runCores n, ¬due c) → exec (.stepRelease encl) s = .next s) ∧
    ((s.encl n).restart = false → (∀ c ∈ s.runCores n, (s.core c).runOff = false) → ∃ t, exec (.stepRelease encl) s = .next t ∧
      (∀ c, (c ∈ s.runCores n ∧ due c → t.core c = { s.core c with arrived := false, hold := .none }) ∧
        (¬(c ∈ s.runCores n ∧ due c) → t.core c = s.core c)) ∧
      { t with cores := s.cores } = s ∧ BytesKept s t (fun _ => False))) ∧
  (∀ (core : CoreId) (s : State) (r : Retained) (j : Nat), s.croftLive (croftOf core.val) = true →
    let x := s.core core.val
    let round := s.rd Reg.EMIT_SCALE.ROUND core.val j
    x.retention.find? (fun q => q.again) = some r → s.exactEntry core.val r.sheaf = some j → x.emit.length ≤ 4 →
    ∃ t, exec (.reEmit core) s = .next t ∧
      t.core core.val = { x with
        emit := x.emit ++ s.tilePackets core.val r.floor r.sheaf r.tile round (some (sint 9 (s.rd Reg.EMIT_SCALE.S core.val j)))
          (r.vals.map (fun v => fp32.decode v))
        retention := x.retention.map (fun q => if q = r then { q with again := false, round := round } else q) } ∧
      (∀ c, c ≠ core.val → t.core c = s.core c) ∧ { t with fields := s.fields, cores := s.cores } = s ∧
      BytesKept s t (fun _ => False) ∧ Kept s t (fun k => k ∈ [Reg.EMIT_STAT.RET_USED.key core.val 0,
        Reg.EMIT_STAT.BUSY.key core.val 0, Reg.EMIT_STAT.REEMIT.key core.val 0])) ∧
  ∀ (floor : FloorId) (encl : EnclId) (s : State),
    let fl := floor.val
    let n := encl.val
    let fs := [Reg.FLR_RING.LEN, Reg.FLR_RING.POS, Reg.FLR_RING.NEXT, Reg.FLR_RING.PREV, Reg.FLR_PEER.NEXT_ID, Reg.FLR_PEER.PREV_ID]
    let len := s.stg Reg.FLR_RING.LEN fl n
    let st := s.rd Reg.ENCL_STATE.STATE (j := n)
    s.anyStaged fs fl n = true →
    (st = 0 → len ≤ 1 → (len = 1 → s.stg Reg.FLR_RING.POS fl n = 0) →
      ∃ t, exec (.flrRingCommit floor encl) s = .next t ∧ t.rd Reg.FLR_RING.VALID fl n = 1 ∧
        (∀ g ∈ fs, t.rd g fl n = (if s.isStaged g fl n then s.stg g fl n % 2 ^ g.width else s.rd g fl n) ∧
          t.isStaged g fl n = false) ∧
        t.encl n = { s.encl n with ringWait := (s.encl n).ringWait.filter (fun q => decide (q ≠ fl)) } ∧
        (∀ m, m ≠ n → t.encl m = s.encl m) ∧
        { t with fields := s.fields, stagedF := s.stagedF, encls := s.encls } = s ∧ BytesKept s t (fun _ => False) ∧
        Kept s t (fun k => k ∈ (Reg.FLR_RING.VALID :: fs).map (fun g => g.key fl n))) ∧
    (st = 4 ∨ 16384 < len → ∃ t, exec (.flrRingCommit floor encl) s = .next t ∧ (∀ g ∈ fs, t.isStaged g fl n = false) ∧
      Raised s t 16 0x01 4 fl (Reg.FLR_RING.COMMIT.addr fl n) ∧
      { t with fields := s.fields, stagedF := s.stagedF, events := s.events } = s ∧ BytesKept s t (fun _ => False) ∧
      Kept s t lostKey)

/-- R334, R336-R338, R346, R367: a partial of an exact sheaf adds its 64 values to the fold of its tile; a ring frame for this module is taken in order: kept when it is of the next
step or of a later round, counted as a duplicate when it was taken before or is kept already, dropped when it is of an earlier round; a reduce or first gleaner frame waits for the tile's own fold, a distribute
frame gives the tile its final copy and its writes into G, a second gleaner frame its finished sum. -/
def Obligations.PartialsAndRingFrames : Prop :=
  (∀ (floor : FloorId) (row : Fin 256) (s : State) (h : HlEntry) (rest : List HlEntry) (sh : Sheaf),
    let fl := floor.val
    let p := h.pkt
    let n := p.encl
    let part := bits p.body 32 2
    let y := s.tileOf fl n (bits p.body 0 16) (bits p.body 16 16) 1
    let z : TileX :=
      { y with
        got := y.got.set part (y.got[part]?.getD 0 + 1), ovf := max y.ovf (bits p.body 51 8)
        ints := (List.range 256).map (fun k => y.ints[k]?.getD 0 + if k / 64 = part then sint 32 (leNat (slice p.data (4 * (k % 64)) 4)) else 0)
        nf := y.nf || decide (bits p.body 49 1 = 1), csat := y.csat || decide (bits p.body 50 1 = 1) }
    s.headland (edgeCore fl row.val) 5 0 = h :: rest → h.stamp ≤ s.now → s.floorState fl ≠ 3 → p.ty = 0xC →
    bits p.body 34 2 = 1 → p.poison = [] → s.muted n = false → (s.encl n).checked = false →
    bits p.body 59 32 = s.rd Reg.ENCL_STATE.STEP (j := n) → s.sheafOf n (bits p.body 0 16) = some sh → sh.exact = true →
    sh.floor = fl → bits p.body 16 16 < sh.tiles → bits p.body 36 4 = s.roundOf fl n (bits p.body 0 16) → y.kind = 1 →
    y.got.length = 4 → y.got[part]?.getD 0 < sh.contrib → (s.rd Reg.FLR_STAT.FOLD_USED fl < 8192 ∨ y.folding = true) →
    (∃ g ∈ z.got, g ≠ sh.contrib) → (s.floor fl).full = none → s.heldRound fl = none →
    let tiles := (s.floor fl).tiles.filter (fun u => !u.is n y.sheaf y.tile) ++ [z]
    ∃ t, exec (.sheaf floor row) s = .next t ∧ FloorTook s t fl row.val 0 h rest ∧
      FloorIs s t fl { s.floor fl with
        tiles := tiles, full := if 8192 ≤ (tiles.filter TileX.folding).length then some s.now else none } ∧
      t.rd Reg.FLR_STAT.FOLD_USED fl = ((t.floor fl).tiles.filter TileX.folding).length % 2 ^ 14 ∧
      { t with fields := s.fields, hlq := s.hlq, credits := s.credits, floors := s.floors } = s ∧ BytesKept s t (fun _ => False) ∧
      Kept s t (fun k => k ∈ [Reg.FLR_STAT.FOLD_USED.key fl 0, Reg.FLR_STAT.FOLD_PEAK.key fl 0])) ∧
  ∀ (k : Fin 4) (port : PortId) (f : LinkFrame) (s : State) (n : Nat),
    let p := port.val
    let c := if k = 0 then Instr.sheafFrameReduce port f else if k = 1 then .sheafFrameDistribute port f
      else if k = 2 then .gleanFirstLap port f else .gleanSecondLap port f
    let fl := f.floor.val
    let g := SheafFrame.ofBytes f.body
    let x := s.floor fl
    let step := s.rd Reg.ENCL_STATE.STEP (j := n)
    let y := s.tileOf fl n g.sheaf g.tile g.kind
    let others := fun (z : TileX) => x.tiles.filter (fun u => !u.is n g.sheaf g.tile) ++ [z]
    let len := s.rd Reg.FLR_RING.LEN fl n
    let pos := s.rd Reg.FLR_RING.POS fl n
    let taken := fun (t : State) (l : List Nat) => PortIs s t p (frameTaken s (s.port p) (if k.val < 2 then 1 else 2) f) ∧
      t.rd Reg.BLN_FRAMES.RX p = (s.rd Reg.BLN_FRAMES.RX p + 1) % 2 ^ 32 ∧ BytesKept s t (fun _ => False) ∧
      { t with fields := s.fields, ports := s.ports, floors := s.floors } = s ∧
      Kept s t (fun q => q ∈ Reg.BLN_FRAMES.RX.key p 0 :: l)
    let seen := x.seen ++ [g.key]
    g.pass = k.val → s.portPresent p = true → s.portState p = 6 → f.seq.toNat = (s.port p).seqRx → (s.port p).replay = [] →
    f.dst.toNat = s.moduleId → s.floorState fl = 0 → s.enclOfJob g.job = some n → s.heldRound fl = none →
    let keep := fun (_ : Unit) => ((∀ h ∈ x.held, h.key ≠ g.key) → ∃ t, exec c s = .next t ∧ taken t [] ∧
        FloorIs s t fl { x with held := x.held ++ [g] }) ∧
      ((∃ h ∈ x.held, h.key = g.key) → ∃ t, exec c s = .next t ∧ taken t [Reg.FWD_STAT.DUPS.key fl 0] ∧ FloorIs s t fl x ∧
        t.rd Reg.FWD_STAT.DUPS fl = min (s.rd Reg.FWD_STAT.DUPS fl + 1) 0xFFFF)
    (g.step = (step + 1) % 2 ^ 32 → keep ()) ∧
    (g.step = step → (s.encl n).checked = false → s.rd Reg.ENCL_STATE.STATE (j := n) ≠ 1 → s.frameKnown fl n g = true → g.key ∉ x.seen →
      (s.roundOf fl n g.sheaf < g.round → keep ()) ∧
      (g.round < s.roundOf fl n g.sheaf → ∃ t, exec c s = .next t ∧ taken t [] ∧ FloorIs s t fl x)) ∧
    (g.step = step → (s.encl n).checked = false → s.rd Reg.ENCL_STATE.STATE (j := n) ≠ 1 → s.frameKnown fl n g = true → g.key ∈ x.seen →
      ∃ t, exec c s = .next t ∧ taken t [Reg.FWD_STAT.DUPS.key fl 0] ∧ FloorIs s t fl x ∧
        t.rd Reg.FWD_STAT.DUPS fl = min (s.rd Reg.FWD_STAT.DUPS fl + 1) 0xFFFF) ∧
    (g.step = step → (s.encl n).checked = false → s.rd Reg.ENCL_STATE.STATE (j := n) ≠ 1 → s.frameKnown fl n g = true → s.roundOf fl n g.sheaf = g.round →
      (g.key ∉ x.seen → k.val = 0 → y.loc = none → y.gIn = none → ∃ t, exec c s = .next t ∧ taken t [] ∧
        FloorIs s t fl { x with seen := seen, tiles := others { y with inc := some g } }) ∧
      (g.key ∉ x.seen → k.val = 2 → y.loc = none → ∃ t, exec c s = .next t ∧ taken t [] ∧
        FloorIs s t fl { x with seen := seen, tiles := others { y with gIn := some g, glean := g.glean, gk := g.gk } }) ∧
      (g.key ∉ x.seen → k.val = 3 → 0 < len → pos = (g.sheaf % len + 2) % len → y.fin = none → ∃ t, exec c s = .next t ∧
        taken t [] ∧ FloorIs s t fl { x with seen := seen, tiles := others { y with gSum := some g.vals, glean := g.glean, gk := g.gk } }) ∧
      (∀ sh, g.key ∉ x.seen → k.val = 1 → 0 < len → (pos + 1) % len = (g.sheaf % len + len - 1) % len →
        (s.encl n).accept = none → g.miss = false → y.fin = none → y.gSum = none → g.sheaf ≠ (s.encl n).statSheaf →
        s.sheafOf n g.sheaf = some sh → sh.tiles ≠ 0 → s.finalWrites fl sh y g.vals ≠ [] →
        let ws := s.finalWrites fl sh y g.vals
        (∀ w ∈ ws, s.tripOff (croftOf (edgeCore fl w.1)) = false) →
        ∃ t, exec c s = .next t ∧
          taken t ((List.range 64).map (fun j => Reg.FLR_SCALE.S.key fl (n * 64 + j))) ∧
          (∀ j, s.scaleEntry fl n g.sheaf = some j → t.rd Reg.FLR_SCALE.S fl (n * 64 + j) = wrapInt 9 g.scale % 512) ∧
          FloorIs s t fl { x with
            seen := seen, out := x.out ++ ws
            tiles := others { y with
              glean := g.glean, gk := g.gk, csat := g.csat, nf := g.nf, fin := some g.vals, acks := ws.length } }))

/-- R349, R350, R90, R344, R238: with every core arrived and every mark in, the step closes, and a tile short of partials faults the enclosure with SHEAF_COUNT (0x73); the fold of the boundary sets the
next scale of an exact sheaf; the checks move the step on by one; the release is named at least 16 ticks ahead, after a
re-sowing with furrow segments at a bell at which they start (R148). -/
def Obligations.StepCloseAndBoundary : Prop :=
  (∀ (encl : EnclId) (s : State),
    let n := encl.val
    let x := s.encl n
    s.rd Reg.ENCL_STATE.STATE (j := n) = 2 → x.closed = false → s.runCores n ≠ [] →
    (∀ c ∈ s.runCores n, (s.core c).arrived = true ∧ (s.core c).emit = [] ∧
      ∀ fl ∈ s.ringFloors n, (n, c) ∈ (s.floor fl).marks) →
    (∀ t < 48, (s.tabko t).cmp = none ∧ (s.tabko t).entries = []) → x.statSheaf = 0xFFFF →
    (x.sheaves = [] → ∃ t, exec (.stepClose encl) s = .next t ∧ t.encl n = { x with closed := true } ∧
      (∀ m, m ≠ n → t.encl m = s.encl m) ∧ { t with encls := s.encls } = s ∧ BytesKept s t (fun _ => False)) ∧
    (∀ h, x.sheaves = [h] → 0 < h.tiles → s.roundOf h.floor n h.num = 0 →
      ((∀ k < h.tiles, (s.tileOf h.floor n h.num k (if h.exact then 1 else 0)).loc ≠ none) →
        ∃ t, exec (.stepClose encl) s = .next t ∧ t.encl n = { x with closed := true } ∧
          (∀ m, m ≠ n → t.encl m = s.encl m) ∧ { t with encls := s.encls } = s ∧ BytesKept s t (fun _ => False)) ∧
      ((s.tileOf h.floor n h.num 0 (if h.exact then 1 else 0)).loc = none →
        ∃ t, exec (.stepClose encl) s = .next t ∧ t.rd Reg.ENCL_STATE.STATE (j := n) = 4 ∧
          t.rd Reg.ENCL_STATE.CAUSE (j := n) = 0x73 ∧ Raised s t n 0x73 4 h.floor (h.num % 2 ^ 64) ∧
          BytesKept s t (fun _ => False)))) ∧
  (∀ (encl : EnclId) (s : State) (h : Sheaf) (j : Nat),
    let n := encl.val
    let x := s.encl n
    let fl := h.floor
    let q := ((s.floor fl).tiles.filter (fun t => decide (t.encl = n) && decide (t.sheaf = h.num))).flatMap (fun t => t.fin.getD [])
    let m := (q.map Int.natAbs).foldl max 0
    let sc := s.scaleOf fl n h.num
    let e : Int := (bitlen m : Int) - 1 + sc
    x.closed = true → x.folded = false → s.stepComplete n = true → s.gleanedAll n = true → x.notices = [] → x.tally = [] →
    x.sheaves = [h] → h.exact = true → s.scaleEntry fl n h.num = some j →
    ∃ t, exec (.boundaryFold encl) s = .next t ∧ t.encl n = { x with folded := true } ∧ (∀ k, k ≠ n → t.encl k = s.encl k) ∧
      t.rd Reg.FLR_SCALE.S fl (n * 64 + j) =
        wrapInt 9 (if m = 0 then sc else max (-160) (min 127 (e + 1 + x.head - 31))) % 512 ∧
      t.rd Reg.FLR_SCALE.ROUND fl (n * 64 + j) = 0 ∧
      t.rd Reg.FLR_SCALE.EVALID fl (n * 64 + j) = (if m = 0 then 0 else 1) ∧
      (m ≠ 0 → t.rd Reg.FLR_SCALE.EMAX fl (n * 64 + j) = wrapInt 9 e % 512) ∧
      (∀ c ∈ s.enclCores n, (t.core c).retention = []) ∧ (∀ c, c ∉ s.enclCores n → t.core c = s.core c) ∧
      { t with fields := s.fields, cores := s.cores, encls := s.encls } = s ∧ BytesKept s t (fun _ => False)) ∧
  (∀ (d : TallyDef) (v : List Int) (csat : Bool), (d.pin = true → chooseFormat d v csat = (d.fmt, d.sigma)) ∧
    (d.pin = false → ((0 : Int) < (v[65]?).getD 0 ∨ csat = true ∨ (0 : Int) < (v[63]?).getD 0) → chooseFormat d v csat = (2, 0))) ∧
  (∀ (encl : EnclId) (s : State),
    let n := encl.val
    let x := s.encl n
    let step := (s.rd Reg.ENCL_STATE.STEP (j := n) + 1) % 2 ^ 32
    x.closed = true → x.folded = true → x.checked = false → s.rd Reg.ENCL_STATE.STATE (j := n) = 2 → s.updateDone n = true →
    s.rd Reg.ENCL_SHAPE.YOKE (j := n) = 0 → s.yoke.copyDue = false → (∀ fl < 2, (s.floor fl).full = none) →
    (∀ c ∈ s.enclCores n, (s.core c).fenceReq = none ∧ s.rd Reg.ARR_CHK.CHK_LIMIT c = 0) →
    ∃ t, exec (.boundaryChecks encl) s = .next t ∧ t.encl n = { x with checked := true } ∧ (∀ m, m ≠ n → t.encl m = s.encl m) ∧
      t.rd Reg.ENCL_STATE.STEP (j := n) = step ∧
      (∀ c ∈ s.enclCores n, t.rd Reg.NUM_SR.STEP c = step ∧ t.rd Reg.NUM_SR_SEQ.SEQ c = 0 ∧ t.rd Reg.VEC_SRSEQ.SEQ c = 0 ∧
        t.rd Reg.ARR_CHK.CHK_STEP c = 0 ∧ (∀ d < 4, t.rd Reg.DRL_RUN.SRSEQ c d = 0) ∧
        t.core c = { s.core c with wCorr := false }) ∧
      (∀ fl < 2, (t.floor fl).tiles = (s.floor fl).tiles.filter (fun q => decide (q.encl ≠ n)) ∧
        t.rd Reg.FLR_ENCL.STEP fl n = step) ∧
      { t with fields := s.fields, cores := s.cores, encls := s.encls, floors := s.floors } = s ∧ BytesKept s t (fun _ => False)) ∧
  ∀ (encl : EnclId) (ahead : Nat) (s : State),
    let n := encl.val
    let x := s.encl n
    x.closed = true → x.checked = true → x.release = none → s.rd Reg.ENCL_STATE.STATE (j := n) = 2 → x.ringWait = [] →
    x.soloWait = false → s.yoke.seeding ≠ some n → s.rd Reg.ENCL_SHAPE.YOKE (j := n) = 0 →
    (∀ h < 16, s.rd Reg.HOLD_OP.BUSY (j := h) = 0 ∧ s.rd Reg.HOLD_OP.WAITING (j := h) = 0) →
    (∀ d < 17, s.rd Reg.PWR_DOM.CUR (j := d) = 0 ∧ s.rd Reg.PWR_DOM.BUSY (j := d) = 0 ∧ s.rd Reg.PWR_DOM.WAITING (j := d) = 0) → s.power.card = none →
    (∀ c ∈ s.enclCrofts n ++ x.transit, c < 256) →
    (∀ t < 48, (s.tabko t).retrain = none ∧ s.rd Reg.TBK_STAT.RECAL_BUSY t = 0) →
    let named := fun (r : Nat) => ∃ t, exec (.releaseNaming encl ahead) s = .next t ∧ t.encl n = { x with release := some r } ∧
      (∀ m, m ≠ n → t.encl m = s.encl m) ∧ (∀ g, t.seg g = if x.restart = true ∧ g ∈ s.segsOf n then { s.seg g with startReq := some r } else s.seg g) ∧
      { t with encls := s.encls, segs := s.segs } = s ∧ BytesKept s t (fun _ => False)
    (x.restart = false ∨ s.segsOf n = [] → named (s.now + max 16 ahead)) ∧
    (x.restart = true → s.segsOf n ≠ [] → ∃ r, r % 1024 = 0 ∧ s.now + max 16 ahead ≤ r ∧ r < s.now + max 16 ahead + 1024 ∧ named r)

/-! ### Bellon ports (chapter 15) -/

/-- R356, R357, R370, R371: a port trains from LIGHT through LOCK, ALIGN and HELLO to UP; a matching HELLO brings it UP and raises PORT_UP (0x82), one of another
installation or version is raised as 0x86, one with the own identity as 0x84, and both where both hold; an UP port that is retrained or lost raises PORT_DOWN (0x81), sets FAILED and trains anew; beacons are kept. -/
def Obligations.PortTraining : Prop :=
  (∀ (port : PortId) (s : State), s.portPresent port.val = true →
    let p := port.val
    let light : PortX := { PortX.init with lightAt := s.now, txq := (s.port p).txq }
    (s.portState p = 0 → s.floorState (floorOf p) = 0 → ∃ t, exec (.blnEn port true) s = .next t ∧ t.rd Reg.BLN_CTL.EN p = 1 ∧
      t.portState p = 2 ∧ PortIs s t p light ∧ { t with fields := s.fields, ports := s.ports } = s ∧
      BytesKept s t (fun _ => False) ∧ Kept s t (fun k => k ∈ [Reg.BLN_CTL.EN.key p 0, Reg.BLN_STAT.STATE.key p 0] ∨ syncKey p k)) ∧
    (s.portState p = 0 → s.floorState (floorOf p) = 1 → ∃ t, exec (.blnEn port true) s = .next t ∧ t.portState p = 1 ∧
      t.rd Reg.BLN_CTL.EN p = 1 ∧ OnlyFields s t [Reg.BLN_CTL.EN.key p 0, Reg.BLN_STAT.STATE.key p 0]) ∧
    (s.portState p ≠ 6 → ∃ t, exec (.blnEn port false) s = .next t ∧ t.portState p = 0 ∧ t.rd Reg.BLN_CTL.EN p = 0 ∧
      OnlyFields s t [Reg.BLN_CTL.EN.key p 0, Reg.BLN_STAT.STATE.key p 0])) ∧
  (∀ (port : PortId) (s : State) (c : Instr) (noSignal : Bool),
    let p := port.val
    let x := s.port p
    s.portState p = 6 → s.yoke.seeding = none → x.txq = [] → (∀ r ∈ x.replay, 3 < r.2.2.ty) →
    (c = .retrain port ∨ (c = .portDown port noSignal ∧
      (noSignal = true ∨ 64 < x.badBell ∨ (∃ r ∈ x.replay, 8 ≤ r.2.1) ∨ x.rxAt + 4096 ≤ s.now))) →
    ∃ t, exec c s = .next t ∧ t.portState p = 2 ∧ t.rd Reg.BLN_STAT.FAILED p = 1 ∧
      PortIs s t p { PortX.init with lightAt := s.now } ∧ (∃ d, Raised s t 16 0x81 3 p d) ∧
      { t with fields := s.fields, ports := s.ports, events := s.events } = s ∧ BytesKept s t (fun _ => False) ∧
      Kept s t (fun k => k ∈ [Reg.BLN_STAT.FAILED.key p 0, Reg.BLN_STAT.STATE.key p 0] ∨ syncKey p k ∨ lostKey k)) ∧
  (∀ (port : PortId) (s : State), let p := port.val; let x := s.port p
    let hello := fun (t : State) => t.portState p = 5 ∧ PortIs s t p { x with hello := true, helloAt := s.now } ∧
      { t with fields := s.fields, ports := s.ports } = s ∧ BytesKept s t (fun _ => False)
    (s.portState p = 2 → ∃ t, exec (.signalDetect port) s = .next t ∧ t.portState p = 3 ∧ PortIs s t p { x with lockAt := s.now } ∧
      { t with fields := s.fields, ports := s.ports } = s ∧ BytesKept s t (fun _ => False) ∧
      Kept s t (fun k => k = Reg.BLN_STAT.STATE.key p 0)) ∧
    (s.portState p = 3 → x.lockAt + 1024 ≤ s.now → ∃ t, exec (.codewordLock port) s = .next t ∧ t.portState p = 4 ∧
      OnlyFields s t [Reg.BLN_STAT.STATE.key p 0]) ∧
    (∀ lanes : List (Fin 16), lanes.length = 16 → s.portState p = 4 → ∃ t, exec (.laneAlign port lanes) s = .next t ∧ hello t ∧
      (∀ k (h : k < lanes.length), ∀ g, laneMap[k]? = some g → t.rd g p = lanes[k].val) ∧
      Kept s t (fun k => k = Reg.BLN_STAT.STATE.key p 0 ∨ ∃ g ∈ laneMap, k = g.key p 0)) ∧
    (2 ≤ s.portState p → s.portState p ≤ 5 → x.wasUp = false → x.lightAt + 2 ^ 21 ≤ s.now → ∃ t, exec (.trainingTimeout port) s = .next t ∧
      t.portState p = 2 ∧ t.rd Reg.BLN_STAT.TRAINS p = min (s.rd Reg.BLN_STAT.TRAINS p + 1) (2 ^ Reg.BLN_STAT.TRAINS.width - 1) ∧
      PortIs s t p { PortX.init with lightAt := s.now, txq := x.txq } ∧ { t with fields := s.fields, ports := s.ports } = s ∧
      BytesKept s t (fun _ => False) ∧ Kept s t (fun k => k ∈ [Reg.BLN_STAT.TRAINS.key p 0, Reg.BLN_STAT.STATE.key p 0] ∨ syncKey p k)) ∧
    (s.portState p = 5 → x.helloAt + 2 ^ 16 ≤ s.now → ∃ t, exec (.helloResend port) s = .next t ∧ hello t ∧ t.fields = s.fields) ∧
    (s.portState p = 6 → x.beaconAt + 2 ^ 20 ≤ s.now → ∃ t, exec (.beaconSend port) s = .next t ∧
      PortIs s t p { x with beacon := true, beaconAt := s.now } ∧ { t with ports := s.ports } = s ∧
      BytesKept s t (fun _ => False))) ∧
  (∀ (port : PortId) (f : LinkFrame) (id : BitVec 14) (install : BitVec 32) (peer : Fin 16) (version : BitVec 8) (s : State),
    let p := port.val
    let y := frameTaken s (s.port p) 0 f
    s.portPresent p = true → s.portState p = 5 → f.seq.toNat = (s.port p).seqRx → (s.port p).replay = [] →
    let peerIs := fun (t : State) => t.rd Reg.BLN_STAT.PEER_ID p = id.toNat ∧ t.rd Reg.BLN_STAT.PEER_PORT p = peer.val ∧
      t.rd Reg.BLN_STAT.PEER_VALID p = 1 ∧ { t with fields := s.fields, ports := s.ports, events := s.events } = s ∧
      BytesKept s t (fun _ => False) ∧ Kept s t (fun k => k ∈ [Reg.BLN_STAT.PEER_ID.key p 0, Reg.BLN_STAT.PEER_PORT.key p 0,
        Reg.BLN_STAT.PEER_VALID.key p 0, Reg.BLN_STAT.STATE.key p 0, Reg.BLN_FRAMES.RX.key p 0] ∨ lostKey k)
    let ok := install.toNat = s.rd Reg.FWD_ID.INSTALL 0 ∧ version.toNat = 1
    (¬ok ∨ id.toNat = s.moduleId → ∃ t, exec (.hello port f id install peer version) s = .next t ∧ peerIs t ∧ t.portState p = 5 ∧
      PortIs s t p y ∧ (¬ok → ∃ d, Raised s t 16 0x86 3 p d) ∧
      (id.toNat = s.moduleId → ok ∨ (s.events.filter (fun e => decide (e.dest = eventDest s 16))).length < 1023 → ∃ d, Raised s t 16 0x84 3 p d)) ∧
    (ok → id.toNat ≠ s.moduleId → ∃ t, exec (.hello port f id install peer version) s = .next t ∧ peerIs t ∧
      t.portState p = 6 ∧ PortIs s t p { y with wasUp := true, rxAt := s.now, ackAt := s.now, creditAt := s.now, beaconAt := s.now } ∧
      ∃ d, Raised s t 16 0x82 3 p d)) ∧
  ∀ (port : PortId) (f : LinkFrame) (s : State),
    let p := port.val
    let w := fun (k : Nat) => leNat ((f.body.drop (8 * k)).take 8)
    s.portPresent p = true → 5 ≤ s.portState p → f.seq.toNat = (s.port p).seqRx → (s.port p).replay = [] →
    ∃ t, exec (.beacon port f) s = .next t ∧ PortIs s t p (frameTaken s (s.port p) 0 f) ∧
      t.rd Reg.BLN_PEER.WORD0 p = w 0 ∧ t.rd Reg.BLN_PEER.WORD1 p = w 1 ∧ t.rd Reg.BLN_PEER.WORD2 p = w 2 ∧
      t.rd Reg.BLN_PEER.WORD3 p = w 3 ∧ { t with fields := s.fields, ports := s.ports } = s ∧ BytesKept s t (fun _ => False) ∧
      Kept s t (fun k => k ∈ [Reg.BLN_FRAMES.RX.key p 0, Reg.BLN_PEER.WORD0.key p 0, Reg.BLN_PEER.WORD1.key p 0,
        Reg.BLN_PEER.WORD2.key p 0, Reg.BLN_PEER.WORD3.key p 0])

/-- R358, R360-R364, R368, R369, R371: a port sends a NAK first, then credits, and a class frame with the next SEQ, kept until it is acknowledged, all of them as bytes on the fibre; a NAK or 256 ticks without
progress bring a replay from the oldest unacknowledged frame, whose sends ACK progress has counted anew; credits take the peer's totals; a frame for another module goes to the port its entry names, and one
that fails its CRC on the way goes on with its own CRC inverted; identity and forwarding table take
effect at their COMMIT. -/
def Obligations.PortFramesAndForwarding : Prop :=
  (∀ (port : PortId) (s : State), let p := port.val; let x := s.port p
    let tx := fun (t : State) => t.rd Reg.BLN_FRAMES.TX p = (s.rd Reg.BLN_FRAMES.TX p + 1) % 2 ^ 32 ∧
      { t with fields := s.fields, ports := s.ports } = s ∧ BytesKept s t (fun _ => False)
    let creditOut := fun (t : State) => tx t ∧ Kept s t (fun k => k = Reg.BLN_FRAMES.TX.key p 0) ∧ PortIs s t p { x with
      sent := some (s.linkFrame 0x08 (x.freed.flatMap (leBytes 4)), 0, x.seqRx)
      wire := (s.linkFrame 0x08 (x.freed.flatMap (leBytes 4))).wire 0 x.seqRx false
      ackOwe := none, told := x.freed, owe := none, creditAt := s.now }
    s.portState p = 6 →
    (s.portPresent p = true → x.nak = true → ∃ t, exec (.frameSend port) s = .next t ∧ tx t ∧
      t.rd Reg.BLN_REPLAY.NAKS p = min (s.rd Reg.BLN_REPLAY.NAKS p + 1) (2 ^ Reg.BLN_REPLAY.NAKS.width - 1) ∧
      Kept s t (fun k => k ∈ [Reg.BLN_FRAMES.TX.key p 0, Reg.BLN_REPLAY.NAKS.key p 0]) ∧ PortIs s t p { x with
        nak := false, sent := some (s.linkFrame 0x09 (leBytes 2 x.seqRx), 0, x.seqRx), ackOwe := none
        wire := (s.linkFrame 0x09 (leBytes 2 x.seqRx)).wire 0 x.seqRx false }) ∧
    (s.creditDue p = true → ∃ t, exec (.creditSend port) s = .next t ∧ creditOut t) ∧
    (s.creditDue p = true → s.portPresent p = true → x.nak = false → ∃ t, exec (.frameSend port) s = .next t ∧ creditOut t) ∧
    (∀ k fr, s.portPresent p = true → x.nak = false → s.creditDue p = false → x.hello = false → x.beacon = false → x.again = [] →
      s.rd Reg.BLN_STAT.FAILED p = 0 → x.pick = some (k, fr) → fr.buf = none → ∃ t, exec (.frameSend port) s = .next t ∧ tx t ∧
        Kept s t (fun q => q = Reg.BLN_FRAMES.TX.key p 0 ∨ syncKey p q) ∧ PortIs s t p { x with
          txq := x.txq.eraseIdx k, rot := fr.cls % 3 + 1, sent := some (fr, x.seqTx, x.seqRx)
          wire := fr.wire x.seqTx x.seqRx false, ackOwe := none, replay := x.replay ++ [(x.seqTx, 1, fr)], seqTx := (x.seqTx + 1) % 2 ^ 16
          ackAt := if x.replay = [] then s.now else x.ackAt
          used := if fr.cls = 0 then x.used else addAt x.used (fr.cls * 2 + fr.lane) fr.units }) ∧
    (∀ k fr b, s.portPresent p = true → x.nak = false → s.creditDue p = false → x.hello = false → x.beacon = false → x.again = [] →
      s.rd Reg.BLN_STAT.FAILED p = 0 → x.pick = some (k, fr) → fr.buf = some b → b.port ≠ p →
      (s.port b.port).lightAt = b.lightAt → ∃ t, exec (.frameSend port) s = .next t ∧ tx t ∧
        (t.port p).sent = some ({ fr with buf := none }, x.seqTx, x.seqRx) ∧
        (t.port b.port).freed = addAt (s.port b.port).freed b.k b.units) ∧
    (x.replay ≠ [] → x.ackAt + 256 ≤ s.now → ∃ t, exec (.replayTimeout port) s = .next t ∧
      PortIs s t p { x with again := x.replay.map Prod.fst, ackAt := s.now } ∧
      t.rd Reg.BLN_REPLAY.REPLAYS p = min (s.rd Reg.BLN_REPLAY.REPLAYS p + 1) (2 ^ Reg.BLN_REPLAY.REPLAYS.width - 1) ∧
      { t with fields := s.fields, ports := s.ports } = s ∧ BytesKept s t (fun _ => False) ∧
      Kept s t (fun k => k = Reg.BLN_REPLAY.REPLAYS.key p 0))) ∧
  (∀ (port : PortId) (f : LinkFrame) (s : State), let p := port.val; let x := s.port p
    s.portPresent p = true → 5 ≤ s.portState p →
    (x.replay = [] → ∃ t, exec (.credit port f) s = .next t ∧
      PortIs s t p { x with rxAt := s.now, back := (List.range 8).map (fun k => leNat ((f.body.drop (4 * k)).take 4)) } ∧
      t.rd Reg.BLN_FRAMES.RX p = (s.rd Reg.BLN_FRAMES.RX p + 1) % 2 ^ 32 ∧ { t with fields := s.fields, ports := s.ports } = s ∧
      BytesKept s t (fun _ => False) ∧ Kept s t (fun k => k = Reg.BLN_FRAMES.RX.key p 0 ∨ syncKey p k)) ∧
    (let left := ackedFrames (ackedFrames x.replay f.ack.toNat) (leNat (f.body.take 2))
     ∃ t, exec (.nak port f) s = .next t ∧
      PortIs s t p { x with rxAt := s.now, replay := left, again := left.map Prod.fst, ackAt := s.now } ∧
      t.rd Reg.BLN_REPLAY.REPLAYS p = min (s.rd Reg.BLN_REPLAY.REPLAYS p + 1) (2 ^ Reg.BLN_REPLAY.REPLAYS.width - 1) ∧
      { t with fields := s.fields, ports := s.ports } = s ∧ BytesKept s t (fun _ => False) ∧
      Kept s t (fun k => k ∈ [Reg.BLN_FRAMES.RX.key p 0, Reg.BLN_REPLAY.REPLAYS.key p 0] ∨ syncKey p k)) ∧
    (∃ t, exec (.badFrame port true) s = .next t ∧
      t.rd Reg.FWD_STAT.STOMPED (floorOf p) = min (s.rd Reg.FWD_STAT.STOMPED (floorOf p) + 1) 0xFFFF ∧
      OnlyFields s t [Reg.FWD_STAT.STOMPED.key (floorOf p) 0]) ∧
    (∃ t, exec (.badFrame port false) s = .next t ∧
      PortIs s t p (if x.discard then x else { x with nak := true, discard := true }) ∧ { t with ports := s.ports } = s ∧
      BytesKept s t (fun _ => False))) ∧
  (∀ (port : PortId) (f : LinkFrame) (gleaner : Bool) (s : State) (e op : Nat), let p := port.val
    let ty := if gleaner then 2 else 1
    s.portPresent p = true → s.portState p = 6 → f.seq.toNat = (s.port p).seqRx → (s.port p).replay = [] →
    f.dst.toNat ≠ s.moduleId → f.hops.toNat ≠ 0 → s.egress (floorOf p) f.dst.toNat = some (e, op) → e ≠ p →
    ∃ t, exec (.frameForward port f gleaner false) s = .next t ∧
      t.port p = { frameTaken s (s.port p) ty f with freed := (s.port p).freed, owe := (s.port p).owe } ∧
      t.port e = { s.port e with txq := (s.port e).txq ++ [
        { ty := ty, cls := ty, lane := if op = 1 then 1 else if op = 2 then 0 else f.lane.val, floor := f.floor.val
          dst := f.dst.toNat, src := f.src.toNat, hops := f.hops.toNat - 1, body := f.body, table := floorOf p, inLane := f.lane.val
          buf := some ⟨p, ty * 2 + f.lane.val, ceilDiv (16 + f.body.length + 4) 256, (s.port p).lightAt⟩ }] } ∧
      (∀ q, q ≠ p → q ≠ e → t.port q = s.port q) ∧ t.rd Reg.BLN_FRAMES.RX p = (s.rd Reg.BLN_FRAMES.RX p + 1) % 2 ^ 32 ∧
      { t with fields := s.fields, ports := s.ports } = s ∧ BytesKept s t (fun _ => False) ∧
      Kept s t (fun k => k = Reg.BLN_FRAMES.RX.key p 0)) ∧
  (∀ (port : PortId) (f : LinkFrame) (gleaner : Bool) (s : State) (e op : Nat), let p := port.val
    let x := s.port p
    let y := s.port e
    let ty := if gleaner then 2 else 1
    let g : Frame :=
      { ty := ty, cls := ty, lane := if op = 1 then 1 else if op = 2 then 0 else f.lane.val, floor := f.floor.val, dst := f.dst.toNat
        src := f.src.toNat, hops := f.hops.toNat - 1, body := f.body, inLane := f.lane.val }
    s.portState p = 6 → f.dst.toNat ≠ s.moduleId → f.hops.toNat ≠ 0 → s.egress (floorOf p) f.dst.toNat = some (e, op) → e ≠ p →
    ∃ t, exec (.frameForward port f gleaner true) s = .next t ∧
      t.port p = (if x.discard then x else { x with nak := true, discard := true }) ∧
      t.port e = { y with sent := some (g, y.seqTx, y.seqRx), wire := g.wire y.seqTx y.seqRx true, ackOwe := none } ∧
      (∀ q, q ≠ p → q ≠ e → t.port q = s.port q) ∧ t.rd Reg.BLN_FRAMES.TX e = (s.rd Reg.BLN_FRAMES.TX e + 1) % 2 ^ 32 ∧
      { t with fields := s.fields, ports := s.ports } = s ∧ BytesKept s t (fun _ => False) ∧
      Kept s t (fun k => k = Reg.BLN_FRAMES.TX.key e 0)) ∧
  (∀ (f : Frame) (seq ack : Nat) (stomped : Bool), let n := f.body.length
    let w := f.wire seq ack stomped
    let b := w.take (16 + ceilDiv n 4 * 4)
    w.length = f.bytes ∧ leNat (slice w 0 1) = f.ty % 256 ∧ leNat (slice w 1 1) = f.cls % 4 + f.lane % 2 * 4 + f.floor % 2 * 8 ∧
      leNat (slice w 2 2) = n % 2 ^ 16 ∧ leNat (slice w 4 2) = f.dst % 2 ^ 14 ∧ leNat (slice w 6 2) = f.src % 2 ^ 14 ∧
      leNat (slice w 8 2) = seq % 2 ^ 16 ∧ leNat (slice w 10 2) = ack % 2 ^ 16 ∧ leNat (slice w 12 1) = f.hops % 256 ∧ slice w 16 n = f.body ∧
      (crc32c b < 2 ^ 32 → leNat (w.drop (16 + ceilDiv n 4 * 4)) = if stomped then 2 ^ 32 - 1 - crc32c b else crc32c b)) ∧
  (∀ (s : State), let fs := [Reg.FWD_ID.MODULE_ID, Reg.FWD_ID.INSTALL, Reg.FWD_ID.HOPS_INIT]
    (∃ t, exec (.fwdIdCommit 1) s = .next t ∧ t = s) ∧
    (s.anyStaged fs 0 = true → s.stg Reg.FWD_ID.HOPS_INIT 0 = 0 → ∃ t, exec (.fwdIdCommit 0) s = .next t ∧
      (∀ g ∈ fs, t.isStaged g 0 = false ∧ t.rd g 0 = s.rd g 0) ∧ Raised s t 16 0x01 4 0 (Reg.FWD_ID.COMMIT.addr 0 0) ∧
      { t with fields := s.fields, stagedF := s.stagedF, events := s.events } = s ∧ BytesKept s t (fun _ => False)) ∧
    (s.anyStaged fs 0 = true → s.stg Reg.FWD_ID.HOPS_INIT 0 ≠ 0 →
      (∀ n < 16, s.rd Reg.ENCL_STATE.STATE (j := n) = 2 → s.rd Reg.FLR_RING.LEN 0 n = 0 ∧ s.rd Reg.FLR_RING.LEN 1 n = 0) →
      ∃ t, exec (.fwdIdCommit 0) s = .next t ∧
        (∀ g ∈ fs, t.isStaged g 0 = false ∧ t.rd g 0 = (if s.isStaged g 0 then s.stg g 0 % 2 ^ g.width else s.rd g 0)) ∧
        (∀ p < 16, s.portState p = 6 → t.portState p = 5 ∧ t.port p = { s.port p with hello := true, helloAt := s.now }) ∧
        (∀ p < 16, s.portState p ≠ 6 → t.portState p = s.portState p ∧ t.port p = s.port p) ∧
        { t with fields := s.fields, stagedF := s.stagedF, ports := s.ports } = s ∧ BytesKept s t (fun _ => False))) ∧
  ∀ (floor : FloorId) (s : State), let fl := floor.val
    (∃ d < 16384, s.anyStaged fwdFields fl d = true) →
    ((∀ d < 16384, s.fwdOk fl d = true) → ∃ t, exec (.fwdCtlCommit floor) s = .next t ∧
      (∀ d < 16384, ∀ g ∈ fwdFields, t.isStaged g fl d = false ∧
        t.rd g fl d = (if s.isStaged g fl d then s.stg g fl d % 2 ^ g.width else s.rd g fl d)) ∧
      t.rd Reg.FWD_CTL.GEN fl = (s.rd Reg.FWD_CTL.GEN fl + 1) % 2 ^ Reg.FWD_CTL.GEN.width ∧
      (∀ p < 16, s.portState p = 6 → t.rd Reg.BLN_STAT.FAILED p = 0) ∧
      { t with fields := s.fields, stagedF := s.stagedF } = s ∧ BytesKept s t (fun _ => False)) ∧
    ((∃ d < 16384, s.fwdOk fl d = false) → ∃ t, exec (.fwdCtlCommit floor) s = .next t ∧
      (∀ d < 16384, ∀ g ∈ fwdFields, t.isStaged g fl d = false ∧ t.rd g fl d = s.rd g fl d) ∧
      Raised s t 16 0x01 4 fl (Reg.FWD_CTL.COMMIT.addr fl 0) ∧
      { t with fields := s.fields, stagedF := s.stagedF, events := s.events } = s ∧ BytesKept s t (fun _ => False))

/-! ### The Yosal link (chapter 16) -/

/-- R378-R383, R385, R396, R391: the states of the link; a flit is taken in order, a bad one asked for again, and the module's next flit goes with it (the model's choice, log entry 79), of
a replay while one goes on, else with a SEQ of its own and kept until acknowledged, at most 512; eight replays of one flit lead to RETRAIN; messages lie in slots as tabulated; a request unanswered for TIMEOUT times 1,024
ticks raises YOSAL_TIMEOUT (0x92); a signal kept back goes out when its gap has passed; the space table takes effect at its COMMIT unless two entries name one space. -/
def Obligations.YosalLinkAndSpaces : Prop :=
  (∀ (s : State), let y := s.yosal; let st := s.rd Reg.YEP_STAT.STATE
    let since := fun (t : State) (v : Nat) => t.rd Reg.YEP_STAT.STATE = v ∧ t.yosal.since = s.now ∧ t.yosal.tags = y.tags ∧
      { t with fields := s.fields, yosal := y, events := s.events } = s ∧ BytesKept s t (fun _ => False)
    (st = 0 → s.stRuns = true → ∃ t, exec .yrefDetect s = .next t ∧ since t 1 ∧ Kept s t (fun k => k = Reg.YEP_STAT.STATE.key 0 0)) ∧
    (∀ w8, st = 1 ∨ st = 3 → y.wait = [] → (∀ w < 64, s.rd Reg.YEP_WATCH_B.EN 0 w = 0) →
      ∃ t, exec (.yosalTrained w8) s = .next t ∧ since t 2 ∧ t.rd Reg.YEP_STAT.WIDTH8 = (if w8 then 1 else 0) ∧
        (st = 1 → t.yosal = { y.newLink with since := s.now }) ∧
        (st = 3 → t.yosal = { y with since := s.now, replayAt := 0, tries := 0 }) ∧
        Kept s t (fun k => k ∈ [Reg.YEP_STAT.STATE.key 0 0, Reg.YEP_STAT.WIDTH8.key 0 0])) ∧
    (st = 2 → ∃ t, exec .yosalRetrain s = .next t ∧ since t 3 ∧
      t.rd Reg.YEP_STAT.RETRAINS = min (s.rd Reg.YEP_STAT.RETRAINS + 1) 0xFFFF ∧ (∃ d, Raised s t 16 0x93 5 0 d) ∧
      Kept s t (fun k => k ∈ [Reg.YEP_STAT.STATE.key 0 0, Reg.YEP_STAT.RETRAINS.key 0 0] ∨ lostKey k)) ∧
    (st = 3 → y.since + 2 ^ 20 ≤ s.now → ∃ t, exec .yosalDown s = .next t ∧ since t 0 ∧ t.yosal.again = [] ∧
      (∀ w < 64, s.rd Reg.YEP_WATCH_B.HELD 0 w ≤ 1 → t.rd Reg.YEP_WATCH_B.HELD 0 w = 0) ∧ (∃ d, Raised s t 16 0x94 5 0 d) ∧
      Kept s t (fun k => k = Reg.YEP_STAT.STATE.key 0 0 ∨ lostKey k ∨ ∃ w < 64, k = Reg.YEP_WATCH_B.HELD.key 0 w)) ∧
    (∀ (f : FlitHeader) (c : Bool) (slots : List (BitVec 128)), st = 2 →
      let frame := fun (t : State) (l : List Nat) => { t with fields := s.fields, yosal := y } = s ∧ BytesKept s t (fun _ => False) ∧
        Kept s t (fun k => k ∈ Reg.YEP_LINK.FEC_CORR.key 0 0 :: l) ∧
        t.rd Reg.YEP_LINK.FEC_CORR = if c then min (s.rd Reg.YEP_LINK.FEC_CORR + 1) 0xFFFF else s.rd Reg.YEP_LINK.FEC_CORR
      let z := (y.takeHeader f).takeSlots slots
      let counts := fun (t : State) =>
        t.rd Reg.YEP_LINK.REPLAYS = (if f.nak then min (s.rd Reg.YEP_LINK.REPLAYS + 1) 0xFFFF else s.rd Reg.YEP_LINK.REPLAYS) ∧
        (0 < y.badSlots slots → t.rd Reg.YEP_LINK.BADMSG = min (s.rd Reg.YEP_LINK.BADMSG + y.badSlots slots) 0xFFFF)
      (∃ t, exec (.flit f c true slots) s = .next t ∧ t.yosal = (y.refuse true).sendFlit ∧
        t.rd Reg.YEP_LINK.CRC_FAIL = min (s.rd Reg.YEP_LINK.CRC_FAIL + 1) 0xFFFF ∧ frame t [Reg.YEP_LINK.CRC_FAIL.key 0 0]) ∧
      (f.seq.toNat ≠ y.seqRx → ∃ t, exec (.flit f c false slots) s = .next t ∧ t.yosal = (y.refuse !y.discard).sendFlit ∧ frame t []) ∧
      (f.seq.toNat = y.seqRx → z.tries < 8 → ∃ t, exec (.flit f c false slots) s = .next t ∧ t.yosal = z.sendFlit ∧ counts t ∧
        frame t [Reg.YEP_LINK.REPLAYS.key 0 0, Reg.YEP_LINK.BADMSG.key 0 0]) ∧
      (f.seq.toNat = y.seqRx → 8 ≤ z.tries → ∃ t, exec (.flit f c false slots) s = .next t ∧ t.yosal = { z with since := s.now } ∧ counts t ∧
        t.rd Reg.YEP_STAT.STATE = 3 ∧ t.rd Reg.YEP_STAT.RETRAINS = min (s.rd Reg.YEP_STAT.RETRAINS + 1) 0xFFFF ∧ (∃ d, Raised s t 16 0x93 5 0 d) ∧
        { t with fields := s.fields, yosal := y, events := s.events } = s ∧ BytesKept s t (fun _ => False)))) ∧
  (∀ (y : YosalX) (f : FlitHeader), let z := y.takeHeader f
    z.seqRx = (y.seqRx + 1) % 4096 ∧ z.discard = false ∧ z.ackRx = f.ack.toNat ∧
      z.credit = y.credit.modify f.cvc.toNat (fun n => n + f.ccount.toNat) ∧ (f.nak → z.replayAt = 0) ∧
      (∀ k ≤ y.replay.length, y.replay ≠ [] → (y.replay.head?.map YFlit.seq).getD 0 < 4096 → ((y.replay.head?.map YFlit.seq).getD 0 + k) % 4096 = f.ack.toNat → k < 4096 → z.replay = y.replay.drop k)) ∧
  (∀ (y : YosalX), let h := y.flitHeader
    (∀ q, y.replay[y.replayAt]? = some q → y.sendFlit.replay = y.replay ∧ y.sendFlit.seqTx = y.seqTx ∧ y.sendFlit.replayAt = y.replayAt + 1 ∧
      y.sendFlit.tx = y.tx ∧ y.sendFlit.wire = flitBytes (h q.seq).1 q.slots) ∧
    (y.replay[y.replayAt]? = none → 512 ≤ y.replay.length → y.sendFlit = y) ∧
    (y.replay[y.replayAt]? = none → y.replay.length < 512 → ∃ sl, sl.length = 14 ∧ y.sendFlit.replay = y.replay ++ [⟨y.seqTx, sl⟩] ∧
      y.sendFlit.seqTx = (y.seqTx + 1) % 4096 ∧ y.sendFlit.replayAt = y.replay.length + 1 ∧ y.sendFlit.wire = flitBytes (h y.seqTx).1 sl ∧
      (y.txRest = [] → (∀ m ∈ y.tx, y.credit.getD m.vc 0 < m.slots.length) → sl = List.replicate 14 0 ∧ y.sendFlit.tx = y.tx) ∧
      (∀ m rest, y.txRest = [] → y.tx = m :: rest → m.slots.length ≤ y.credit.getD m.vc 0 → sl.take m.slots.length = m.slots)) ∧
    (∀ q, q < 4096 → y.seqRx < 4096 → bits (h q).1 0 12 = q ∧ bits (h q).1 12 12 = y.seqRx ∧ bits (h q).1 24 1 = (if y.nak then 1 else 0) ∧
      ((∀ v < 5, y.owed.getD v 0 = 0) → bits (h q).1 25 3 = 5 ∧ bits (h q).1 28 12 = 0) ∧
      (∀ v < 5, 0 < y.owed.getD v 0 → (∀ u < v, y.owed.getD u 0 = 0) → bits (h q).1 25 3 = v ∧ bits (h q).1 28 12 = min 4095 (y.owed.getD v 0)))) ∧
  (∀ (m : YMsg), let h := m.header.toNat
    bits h 0 8 = m.opc % 2 ^ 8 ∧ bits h 8 12 = m.tag % 2 ^ 12 ∧ bits h 20 4 = 0 ∧ bits h 24 52 = m.addr % 2 ^ 52 ∧ bits h 76 8 = m.status % 2 ^ 8 ∧
      bits h 84 16 = m.space % 2 ^ 16 ∧ bits h 100 28 = m.aux % 2 ^ 28 ∧
      m.slots.length = (if m.opc = 0x04 then 6 else if m.opc = 0x03 ∨ m.opc = 0x23 then 5 else 1)) ∧
  (∀ (tag : BitVec 12) (s : State) (u : YTag) (w : Nat) (base : Bool), let y := s.yosal
    y.tags.find? (fun q => decide (q.tag = tag.toNat)) = some u → u.dead = false → 0 < s.rd Reg.YEP_CTL.TIMEOUT →
    u.sent + s.rd Reg.YEP_CTL.TIMEOUT * 1024 ≤ s.now → u.req = .watch w base → w ∉ y.again →
    ∃ t, exec (.yosalTimeout tag) s = .next t ∧
      t.yosal = { y with tags := y.tags.map (fun q => if q.tag = tag.toNat then { q with dead := true } else q) } ∧
      Raised s t 16 0x92 5 0 ((u.msg.opc + tag.toNat * 256) % 2 ^ 64) ∧
      { t with fields := s.fields, yosal := y, events := s.events } = s ∧ BytesKept s t (fun _ => False) ∧ Kept s t lostKey) ∧
  (∀ (vec : BitVec 8) (s : State) (t0 : Nat), let y := s.yosal
    vec.toNat ∈ y.sigDue → Store.get y.sigAt vec.toNat = some t0 → t0 + s.rd Reg.YEP_SIG.GAP ≤ s.now →
    ∃ t, exec (.signalGapEnd vec) s = .next t ∧ t.yosal = { y with
      sigDue := y.sigDue.filter (fun d => decide (d ≠ vec.toNat)), tx := y.tx ++ [⟨0x06, 0, 0, 0, 0, vec.toNat, 0, []⟩]
      sigAt := Store.put y.sigAt vec.toNat s.now } ∧ { t with yosal := y } = s ∧ BytesKept s t (fun _ => False)) ∧
  ∀ (s : State), let y := s.yosal
    let fs := [Reg.YEP_SPACE.SPACE, Reg.YEP_SPACE.ENCL, Reg.YEP_SPACE.VALID]
    let valid := fun (k : Nat) => s.stg Reg.YEP_SPACE.VALID 0 k = 1
    let twice := ∃ a < 64, ∃ b < 64, a < b ∧ valid a ∧ valid b ∧ s.stg Reg.YEP_SPACE.SPACE 0 a = s.stg Reg.YEP_SPACE.SPACE 0 b
    (∃ k < 64, s.anyStaged fs 0 k = true) →
    (twice → ∃ t, exec .spaceCommit s = .next t ∧
      (∀ k < 64, ∀ g ∈ fs, t.isStaged g 0 k = false ∧ t.rd g 0 k = s.rd g 0 k) ∧
      Raised s t 16 0x01 5 0 (Reg.YEP_CTL.SPACE_COMMIT.addr 0 0) ∧
      { t with fields := s.fields, stagedF := s.stagedF, events := s.events } = s ∧ BytesKept s t (fun _ => False)) ∧
    (¬twice → (∀ n < 16, s.rd Reg.ENCL_STATE.STATE (j := n) = 0) → ∃ t, exec .spaceCommit s = .next t ∧
      (∀ k < 64, ∀ g ∈ fs, t.isStaged g 0 k = false ∧
        t.rd g 0 k = (if s.isStaged g 0 k then s.stg g 0 k % 2 ^ g.width else s.rd g 0 k)) ∧
      (∀ e, e ∈ t.yosal.cache ↔ e ∈ y.cache ∧ ∃ k < 64, valid k ∧ s.stg Reg.YEP_SPACE.SPACE 0 k = e.space) ∧
      { t with fields := s.fields, stagedF := s.stagedF, yosal := y } = s ∧ BytesKept s t (fun _ => False))

/-- R386-R391, R384, R488, R392: a watched line is read when it is enabled and again when it is invalidated, released when it is disabled, an answer still to come being discarded; a data-ready value counts the target core's SYNC counter up by its
difference; an event's entry written moves PI on and signals; a translation enters the cache and its line goes out; an invalidation removes what it names and is answered. -/
def Obligations.WatchedLinesAndTranslation : Prop :=
  (∀ (line : Fin 64) (s : State), let w := line.val; let y := s.yosal
    let addr := s.rd Reg.YEP_WATCH_A.LINE 0 w * 64
    (s.rd Reg.YEP_WATCH_B.EN 0 w = 0 → ∃ t, exec (.watchEnable line) s = .next t ∧ t.rd Reg.YEP_WATCH_B.EN 0 w = 1 ∧
      Posted s y t ⟨0x02, 0, addr, 0, 0, 0, 0, []⟩ (.watch w true) ∧ { t with fields := s.fields, yosal := y } = s ∧
      BytesKept s t (fun _ => False) ∧ Kept s t (fun k => k ∈ [Reg.YEP_WATCH_B.EN.key 0 w, Reg.YEP_STAT.OUTSTANDING.key 0 0])) ∧
    (s.rd Reg.YEP_WATCH_B.EN 0 w = 1 → ∃ t, exec (.watchDisable line) s = .next t ∧ t.rd Reg.YEP_WATCH_B.EN 0 w = 0 ∧
      t.rd Reg.YEP_WATCH_B.HELD 0 w = 0 ∧ t.yosal = { y with
        again := y.again.filter (fun x => decide (x ≠ w)), wait := y.wait.filter (fun p => !p.2.watches w)
        tags := y.tags.map (fun q => if q.req.watches w then { q with dead := true } else q), tx := y.tx ++ [⟨0x07, 0, addr, 0, 0, 0, 0, []⟩] } ∧
      { t with fields := s.fields, yosal := y } = s ∧ BytesKept s t (fun _ => False) ∧
      Kept s t (fun k => k ∈ [Reg.YEP_WATCH_B.EN.key 0 w, Reg.YEP_WATCH_B.HELD.key 0 w]))) ∧
  (∀ (tag : BitVec 12) (addr : BitVec 52) (s : State), let y := s.yosal
    let a := addr.toNat / 64 * 64
    let ack : YosalX := { y with tx := y.tx ++ [⟨0x21, tag.toNat, a, 0, 0, 0, 0, []⟩] }
    let hit := fun (w : Nat) => s.rd Reg.YEP_WATCH_B.EN 0 w = 1 ∧ s.rd Reg.YEP_WATCH_A.LINE 0 w * 64 = a
    ((∀ w < 64, ¬hit w) → ∃ t, exec (.snpInv tag addr) s = .next t ∧ t.yosal = ack ∧ { t with yosal := y } = s ∧
      BytesKept s t (fun _ => False)) ∧
    ∀ w < 64, hit w → (∀ v < 64, v ≠ w → ¬hit v) →
      (s.rd Reg.YEP_WATCH_B.HELD 0 w = 1 → ∃ t, exec (.snpInv tag addr) s = .next t ∧ t.rd Reg.YEP_WATCH_B.HELD 0 w = 0 ∧
        Posted s ack t ⟨0x02, 0, a, 0, 0, 0, 0, []⟩ (.watch w false) ∧ { t with fields := s.fields, yosal := y } = s ∧
        BytesKept s t (fun _ => False) ∧ Kept s t (fun k => k ∈ [Reg.YEP_WATCH_B.HELD.key 0 w, Reg.YEP_STAT.OUTSTANDING.key 0 0])) ∧
      (s.rd Reg.YEP_WATCH_B.HELD 0 w = 0 → s.lineReading w = true → w ∉ y.again → ∃ t, exec (.snpInv tag addr) s = .next t ∧
        t.yosal = { ack with again := y.again ++ [w] } ∧ { t with yosal := y } = s ∧ BytesKept s t (fun _ => False))) ∧
  (∀ (tag : BitVec 12) (bs : List (BitVec 8)) (s : State) (u : YTag) (w : Nat) (base : Bool), let y := s.yosal
    let left := y.tags.filter (fun q => decide (q.tag ≠ tag.toNat))
    let v := leNat (bs.take 4)
    let seq := leNat (slice bs 4 4)
    y.tags.find? (fun q => decide (q.tag = tag.toNat)) = some u → u.dead = false → u.req = .watch w base → y.wait = [] →
    s.rd Reg.YEP_WATCH_B.EN 0 w = 1 → w ∉ y.again →
    let taken := fun (t : State) => t.rd Reg.YEP_WATCH_B.HELD 0 w = 1 ∧ t.yosal = { y with tags := left } ∧
      t.rd Reg.YEP_STAT.OUTSTANDING = left.length % 2 ^ 13 ∧ BytesKept s t (fun _ => False)
    (w < 16 → ∃ t, exec (.data tag 0 bs) s = .next t ∧ taken t ∧
      t.encl w = { s.encl w with card := lineWords bs, seqDone := if base then some seq else (s.encl w).seqDone } ∧
      (∀ n, n ≠ w → t.encl n = s.encl n) ∧ { t with fields := s.fields, yosal := y, encls := s.encls } = s ∧
      Kept s t (fun k => k ∈ [Reg.YEP_WATCH_B.HELD.key 0 w, Reg.YEP_STAT.OUTSTANDING.key 0 0])) ∧
    (18 ≤ w → w < 64 → base = true → ∃ t, exec (.data tag 0 bs) s = .next t ∧ taken t ∧ t.rd Reg.YEP_WATCH_B.LAST 0 w = v ∧
      { t with fields := s.fields, yosal := y } = s ∧
      Kept s t (fun k => k ∈ [Reg.YEP_WATCH_B.HELD.key 0 w, Reg.YEP_WATCH_B.LAST.key 0 w, Reg.YEP_STAT.OUTSTANDING.key 0 0])) ∧
    (18 ≤ w → w < 64 → base = false → ∀ n c cnt, s.rd Reg.YEP_WATCH_B.ENCL 0 w = n → s.rd Reg.YEP_WATCH_B.CORE 0 w = c →
      s.rd Reg.YEP_WATCH_B.CNT 0 w = cnt → cnt < 8 → s.rd Reg.ENCL_STATE.STATE (j := n) = 2 → c < 81920 →
      s.inRect n (croftOf c) = true → s.fallow c = false → s.rd Reg.SYN_CNT.COUNT c cnt < 2 ^ 32 →
      ∃ t, exec (.data tag 0 bs) s = .next t ∧ taken t ∧ t.rd Reg.YEP_WATCH_B.LAST 0 w = v ∧
        t.rd Reg.SYN_CNT.COUNT c cnt = (s.rd Reg.SYN_CNT.COUNT c cnt +
          (v + 2 ^ 32 - s.rd Reg.YEP_WATCH_B.LAST 0 w) % 2 ^ 32) % 2 ^ 32 ∧ { t with fields := s.fields, yosal := y } = s ∧
        Kept s t (fun k => k ∈ [Reg.YEP_WATCH_B.HELD.key 0 w, Reg.YEP_WATCH_B.LAST.key 0 w, Reg.YEP_STAT.OUTSTANDING.key 0 0,
          Reg.SYN_CNT.COUNT.key c cnt]))) ∧
  (∀ (tag : BitVec 12) (status : BitVec 8) (s : State) (u : YTag) (ring : Nat), let y := s.yosal
    let vec := if ring = 16 then s.rd Reg.YEP_SIG.VEC_ST else (s.rd Reg.YEP_SIG.VEC_ENCL + ring) % 256
    y.tags.find? (fun q => decide (q.tag = tag.toNat)) = some u → u.dead = false → u.req = .event ring → ring ≤ 16 → y.wait = [] →
    s.rd Reg.YEP_SIG.GAP = 0 →
    ∃ t, exec (.wrDone tag status) s = .next t ∧ t.rd Reg.EVR_PI.PI (j := ring) = (s.rd Reg.EVR_PI.PI (j := ring) + 1) % 2 ^ 32 ∧
      t.yosal = { y with
        tags := y.tags.filter (fun q => decide (q.tag ≠ tag.toNat)), tx := y.tx ++ [⟨0x06, 0, 0, 0, 0, vec, 0, []⟩]
        sigAt := Store.put y.sigAt vec s.now } ∧ { t with fields := s.fields, yosal := y } = s ∧ BytesKept s t (fun _ => False) ∧
      Kept s t (fun k => k ∈ [Reg.EVR_PI.PI.key 0 ring, Reg.YEP_STAT.OUTSTANDING.key 0 0])) ∧
  (∀ (tag : BitVec 12) (pfn : BitVec 40) (size : Fin 3) (wr : Bool) (s : State) (u : YTag) (o : YOp) (page : Nat),
    let y := s.yosal
    let r := o.req
    let span := 2 ^ (9 * size.val)
    let pages := Store.put o.pages page (pfn.toNat + page % span)
    y.tags.find? (fun q => decide (q.tag = tag.toNat)) = some u → u.dead = false → u.req = .trans r.core r.tag page → y.wait = [] →
    y.ops = [o] → o.sent = false → pfn.toNat % span = 0 → r.wr = false → s.spaceGranted r.space r.encl = true →
    pagesOf r.va r.bytes = [page] → linesOf r.va r.bytes = [r.va / 64] → r.va / 64 / 64 = page →
    ∃ t, exec (.transRsp tag 0 pfn size wr) s = .next t ∧
      Posted s { y with
          tags := y.tags.filter (fun q => decide (q.tag ≠ tag.toNat))
          cache := cachePut y.cache ⟨r.space, page / span * span, size.val, pfn.toNat, wr⟩
          ops := [{ o with asked := none, pages := pages, sent := true, left := 1 }] } t
        (rdOnce ((pfn.toNat + page % span) * 4096 + r.va / 64 % 64 * 64)) (.line r.core r.tag (r.va / 64)) ∧
      { t with fields := s.fields, yosal := y } = s ∧ BytesKept s t (fun _ => False) ∧
      Kept s t (fun k => k = Reg.YEP_STAT.OUTSTANDING.key 0 0)) ∧
  ∀ (tag : BitVec 12) (scope : Fin 3) (space : BitVec 16) (page : BitVec 52) (s : State), let y := s.yosal
    let hit := fun (e : Transl) => scope.val = 2 ∨ (scope.val = 1 ∧ e.space = space.toNat) ∨
      (e.space = space.toNat ∧ e.vpn ≤ page.toNat ∧ page.toNat < e.vpn + 2 ^ (9 * e.size))
    y.ops = [] → ∃ t, exec (.transInv tag scope space page) s = .next t ∧ (∀ e, e ∈ t.yosal.cache ↔ e ∈ y.cache ∧ ¬hit e) ∧
      t.yosal.tx = y.tx ++ [⟨0x22, tag.toNat, 0, 0, 0, 0, 0, []⟩] ∧ { t.yosal with cache := y.cache, tx := y.tx } = y ∧
      { t with yosal := y } = s ∧ BytesKept s t (fun _ => False)

/-! ### The reeve (chapter 11) -/

/-- R266-R268, R274: a LOAD card whose space is not granted, or whose enclosure is not FREE, is refused with its subcode and answered; with every phase
passing, the plan is written and the start falls on the next bell; one that fails leaves the enclosure FREE, its registers as they were; at that bell the cores start at their ENTRY and the card is answered with 0xD2. R278, R484, R279: with the fencing of the boundary over, the placement is repeated with the new fallow map: RESOWN is raised, RESOWS counts, and the job
restarts at the release; a placement that fails faults the enclosure, cause 0xD1, with the refusal's subcode. -/
def Obligations.SowingAndResowing : Prop :=
  (∀ (n : EnclId) (lot : List Byte) (s : State) (c : JobCard), let x := s.encl n.val
    let st := fun (t : State) => t.rd Reg.ENCL_STATE.STATE (j := n.val)
    let tell := fun (t : State) (code w6 w7 : Nat) (evs : List (Nat × Nat × Nat × Nat)) => t.rd Reg.REEVE_STAT.LAST_CODE = code ∧
      (t.encl n.val).seqDone = some c.seq ∧
      Posted s s.yosal t (wrPart (s.lineAddr n.val) 48 (wordBytes [w6, w7])) (.words n.val (some c.seq) evs)
    let shape := cardFormat x.card c = none
    let refused := fun (t : State) (sub : Nat) => t.rd Reg.REEVE_STAT.LAST_SUB = sub ∧
      (let w6 := 0xD1 + sub * 2 ^ 8 + 0xFFFFFFFF * 2 ^ 32
       tell t 0xD1 w6 0 [(16, 0xD1, n.val, w6)]) ∧ t.encl n.val = { x with seqDone := some c.seq } ∧
      (∀ m, m ≠ n.val → t.encl m = s.encl m) ∧ { t with fields := s.fields, encls := s.encls, yosal := s.yosal } = s ∧
      BytesKept s t (fun _ => False) ∧
      Kept s t (fun k => k ∈ [Reg.REEVE_STAT.LAST_CODE.key 0 0, Reg.REEVE_STAT.LAST_SUB.key 0 0, Reg.YEP_STAT.OUTSTANDING.key 0 0])
    (x.loading = false → jobCard x.card n.val = some c → c.op = 1 → x.seqDone ≠ some c.seq → s.takesCards = true → s.rd Reg.REEVE_STAT.BUSY ≠ 1 → shape →
      (∀ sf, sf = true ∨ s.spaceGranted c.space n.val = false → ∃ t, exec (.load n lot sf) s = .next t ∧ refused t 0x14) ∧
      ∀ l, s.spaceGranted c.space n.val = true → parseLot lot c.bytes = .ok l →
        (st s ≠ 0 → ∃ t, exec (.load n lot false) s = .next t ∧ refused t 0x03) ∧
        (st s = 0 → s.lc ≠ 4 → s.pins.stHold = false → s.rd Reg.GNT_STAT.REFURB_BUSY ≠ 1 → l.profile.crows ≤ c.crows →
          l.profile.ccols ≤ c.ccols → c.auto = false → s.rectFails n.val c.origin c.crows c.ccols = none → s.claims = [] →
          (s.rd Reg.YK_CFG.EN = 0 ∨ c.yoke = 0) → s.yoke.seeding ≠ some n.val → c.origin < 256 →
          let s1 := (s.addClaim ⟨9, 0, c.origin, c.crows, c.ccols⟩).openSowing n.val c c.origin lot
          let plan := s1.planSowing ⟨n.val, c, c.origin, l, s1.unionFallow n.val, [], none, false⟩
          (∀ p, plan = .ok p → exec (.load n lot false) s =
            .next ((s1.writePlan p c.step0 true).modEncl n.val (fun y => { y with startDue := some ((s.now / 1024 + 1) * 1024) }))) ∧
          (∀ r, plan = .error r → ∃ t, exec (.load n lot false) s = .next t ∧ st t = 0 ∧ t.rd Reg.REEVE_STAT.LAST_CODE = 0xD1 ∧
            t.rd Reg.REEVE_STAT.LAST_SUB = r.sub % 256 ∧ (∀ g ∈ sowFields, t.rd g (j := n.val) = s.rd g (j := n.val) % 2 ^ g.width) ∧ t.claims = [] ∧
            t.encl n.val = { EnclX.init with card := x.card, seqDone := some c.seq } ∧ t.mem = s.mem))) ∧
    (∀ d, x.startDue = some d → d ≤ s.now → s.now % 1024 = 0 → st s = 1 → s.yoke.seeding ≠ some n.val →
      s.rd Reg.ENCL_SHAPE.YOKE (j := n.val) = 0 → (s.floor 0).held = [] → (s.floor 1).held = [] → jobCard x.load n.val = some c →
      let w6 := 0xD2 + 0xFFFFFFFF * 2 ^ 32
      ∃ t, exec (.sowingStart n) s = .next t ∧ st t = 2 ∧ t.rd Reg.REEVE_STAT.LOADS = min (s.rd Reg.REEVE_STAT.LOADS + 1) 0xFFFF ∧
        tell t 0xD2 w6 0 [(16, 0xD2, n.val, w6), (n.val, 0xD2, n.val, w6)] ∧ (t.encl n.val).startDue = none ∧
        (t.encl n.val).loading = false ∧
        (∀ k ∈ s.runCores n.val, s.rd Reg.HND_STAT.HALTED k = 1 → s.corePresent k = true → s.rd Reg.SP_STAT.LOCKED k = 0 →
          s.rd Reg.SP_STAT.WIPE_BUSY k = 0 → s.rd Reg.SP_STAT.RECLASS_BUSY k = 0 →
          t.rd Reg.HND_STAT.HALTED k = 0 ∧ t.rd Reg.HND_STAT.PC k = s.rd Reg.HND_CTL.ENTRY k % 2 ^ Reg.HND_STAT.PC.width) ∧
        (∀ g < 256, s.rd Reg.FUR_SEG.EN (j := g) = 1 → s.rd Reg.FUR_SEG.ENCL (j := g) = n.val → (t.seg g).startReq = some s.now) ∧
        t.mem = s.mem ∧ t.vregs = s.vregs ∧ t.code = s.code)) ∧
  (∀ (n : EnclId) (s : State) (c : JobCard) (l : Lot), let x := s.encl n.val
    let st := fun (t : State) => t.rd Reg.ENCL_STATE.STATE (j := n.val)
    st s = 3 → x.checked = true → s.fencingIn n.val = false → s.awaitsMate n.val = false →
    (∀ k ∈ s.enclCores n.val, s.rd Reg.SP_STAT.WIPE_BUSY k = 0) → jobCard x.load n.val = some c → parseLot x.lot c.bytes = .ok l →
    let un := s.unionFallow n.val
    let new := un.filter (fun k => !x.fallow0.contains k)
    let i : SowIn := ⟨n.val, c, s.rd Reg.ENCL_SHAPE.ORIGIN (j := n.val), l, un, new, some (x.placed.filter (fun q => !q.parts.isEmpty), x.inspect),
      decide (s.newFallowMax n.val new ≤ c.reserve)⟩
    let s0 := s.wr Reg.ENCL_RES.FALLOW_MAX (s.newFallowMax n.val new) (j := n.val)
    (∀ p, s0.replanSowing i = .ok p →
      let u := s0.writePlan p (s.rd Reg.ENCL_STATE.STEP (j := n.val)) false
      ∃ t, exec (.resowingDone n) s = .next t ∧
      (st u = 3 → st t = 2 ∧
        t.rd Reg.ENCL_RES.RESOWS (j := n.val) = min (u.rd Reg.ENCL_RES.RESOWS (j := n.val) + 1) 0xFFFF ∧
        t.encl n.val = { u.encl n.val with restart := true } ∧ (∀ m, m ≠ n.val → t.encl m = u.encl m) ∧
        (∃ d, Raised u t 16 0xD5 7 n.val d) ∧ { t with fields := u.fields, encls := u.encls, events := u.events } = u ∧
        Kept u t (fun k => k ∈ [Reg.ENCL_STATE.STATE.key 0 n.val, Reg.ENCL_RES.RESOWS.key 0 n.val] ∨ lostKey k)) ∧
      (st u ≠ 3 → t = u.modEncl n.val (fun y => { y with restart := true }))) ∧
    (∀ r, s0.replanSowing i = .error r → ∃ t, exec (.resowingDone n) s = .next t ∧ st t = 4 ∧
      t.rd Reg.ENCL_STATE.CAUSE (j := n.val) = 0xD1 ∧ t.rd Reg.ENCL_STATE.SUBCODE (j := n.val) = r.sub % 256 ∧
      (t.encl n.val).haltDue = some (s.now + 4) ∧ (∃ d, Raised s t 16 0xD3 7 n.val d) ∧ BytesKept s t (fun _ => False)))

/-- R266, R267, R275-R277: a KILL ends an enclosure from tick d + 4 with cause 0; at that tick every core halts, locked, its wipe begun, and its regions close;
when every wipe is over the enclosure is FREE, its regions released, or, kept, in INSPECT, and ENCL_ENDED is raised; a RELEASE frees what was kept. -/
def Obligations.EndingAnEnclosure : Prop :=
  ∀ (n : EnclId) (s : State) (c : JobCard), let x := s.encl n.val
    let st := fun (t : State) => t.rd Reg.ENCL_STATE.STATE (j := n.val)
    let region := fun (u : State) (tb r : Nat) => u.rd Reg.TBK_REGION.VALID tb r = 1 ∧ u.rd Reg.TBK_REGION.ENCL tb r = n.val
    let freed := fun (t : State) => st t = 0 ∧ t.rd Reg.ENCL_SHAPE.CROWS (j := n.val) = 0 ∧ t.rd Reg.ENCL_SHAPE.CCOLS (j := n.val) = 0 ∧
      (t.encl n.val).transit = [] ∧ ∀ tb < 48, t.rd Reg.TBK_SHARE.SHARE tb n.val = 0 ∧ ∀ r < 64, region s tb r → t.rd Reg.TBK_REGION.VALID tb r = 0
    let onWafer := ∀ g < 256, s.rd Reg.FUR_SEG.EN (j := g) = 1 → s.rd Reg.FUR_SEG.ENCL (j := g) = n.val →
      rectFits (s.rd Reg.FUR_SEG.ORIGIN (j := g)) (s.rd Reg.FUR_SEG.CROWS (j := g)) (s.rd Reg.FUR_SEG.CCOLS (j := g)) = true
    let done := fun (t : State) => t.rd Reg.REEVE_STAT.LAST_CODE = 0xD4 ∧ (t.encl n.val).seqDone = some c.seq
    let told := fun (t : State) => let w6 := 0xD4 + 0xFFFFFFFF * 2 ^ 32
      done t ∧ Posted s s.yosal t (wrPart (s.lineAddr n.val) 48 (wordBytes [w6, 0])) (.words n.val (some c.seq) [(16, 0xD4, n.val, w6)])
    (jobCard x.card n.val = some c → c.op = 2 → x.seqDone ≠ some c.seq → x.kill ≠ some c.seq → s.takesCards = true →
      (st s = 1 ∨ st s = 2 ∨ st s = 3 → x.loading = false → ∃ t, exec (.kill n) s = .next t ∧ st t = 4 ∧
        t.rd Reg.ENCL_STATE.CAUSE (j := n.val) = 0 ∧ t.encl n.val = { x with kill := some c.seq, haltDue := some (s.now + 4) } ∧
        (∀ m, m ≠ n.val → t.encl m = s.encl m) ∧
        (∀ g < 256, s.rd Reg.FUR_SEG.EN (j := g) = 1 → s.rd Reg.FUR_SEG.ENCL (j := g) = n.val → s.rd Reg.FUR_RUN.RUN (j := g) = 1 →
          t.rd Reg.FUR_RUN.RUN (j := g) = 0) ∧
        ((∀ g < 256, (s.seg g).held = none) → ∀ k, t.core k = s.core k ∨ t.core k = { s.core k with catchUp := none }) ∧
        { t with fields := s.fields, encls := s.encls, segs := s.segs, cores := s.cores } = s ∧ BytesKept s t (fun _ => False) ∧
        Kept s t (fun k => k ∈ [Reg.ENCL_STATE.STATE.key 0 n.val, Reg.ENCL_STATE.CAUSE.key 0 n.val] ∨
          (∃ g < 256, k = Reg.FUR_RUN.RUN.key 0 g) ∨ ∃ i, k ∈ [Reg.FUR_STAT.CATCH.key i 0, Reg.FUR_STAT.HOLDCYC.key i 0])) ∧
      (st s = 1 → x.loading = true → s.yoke.seeding ≠ some n.val → ∀ l, jobCard x.load n.val = some l →
        ∃ t, exec (.kill n) s = .next t ∧ st t = 4 ∧ t.rd Reg.ENCL_STATE.CAUSE (j := n.val) = 0 ∧ t.rd Reg.REEVE_STAT.LAST_CODE = 0xD4 ∧
          t.encl n.val = { x with
            loading := false, startDue := none, mateWait := none, seqDone := some l.seq, kill := some c.seq, haltDue := some (s.now + 4) } ∧
          Posted s s.yosal t (wrPart (s.lineAddr n.val) 48 (wordBytes [0xD4 + 0xFFFFFFFF * 2 ^ 32, 0]))
            (.words n.val (some l.seq) [(16, 0xD4, n.val, 0xD4 + 0xFFFFFFFF * 2 ^ 32)])) ∧
      (st s = 4 → ∃ t, exec (.kill n) s = .next t ∧ t.encl n.val = { x with kill := some c.seq } ∧ { t with encls := s.encls } = s ∧
        BytesKept s t (fun _ => False)) ∧
      (st s = 0 ∨ st s = 5 → ∃ t, exec (.kill n) s = .next t ∧ told t ∧ st t = st s ∧
        { t with fields := s.fields, encls := s.encls, yosal := s.yosal } = s ∧ BytesKept s t (fun _ => False))) ∧
    (jobCard x.card n.val = some c → c.op = 3 → x.seqDone ≠ some c.seq → s.takesCards = true →
      (st s = 5 → onWafer → ∃ t, exec (.release n) s = .next t ∧ freed t ∧ told t) ∧
      (st s ≠ 5 → ∃ t, exec (.release n) s = .next t ∧ told t ∧ st t = st s ∧
        { t with fields := s.fields, encls := s.encls, yosal := s.yosal } = s ∧ BytesKept s t (fun _ => False))) ∧
    (∀ d, x.haltDue = some d → d ≤ s.now → x.loading = false → (∀ tb < 48, (s.tabko tb).cmp.map Prod.fst ≠ some n.val) →
      (∀ g < 256, s.rd Reg.FUR_SEG.EN (j := g) = 1 → s.rd Reg.FUR_SEG.ENCL (j := g) = n.val →
        s.rd Reg.FUR_RUN.RUN (j := g) = 0 ∧ (s.seg g).startReq = none) →
      ∃ t, exec (.enclosureHalt n) s = .next t ∧ (t.encl n.val).haltDue = none ∧
        (∀ k ∈ s.enclCores n.val, s.fallow k = false → s.corePresent k = true →
          t.rd Reg.HND_STAT.HALTED k = 1 ∧ (s.rd Reg.HND_STAT.HALTED k ≠ 1 → t.rd Reg.HND_STAT.CAUSE k = 4) ∧
          (s.rd Reg.HND_STAT.HALTED k = 1 → t.rd Reg.HND_STAT.CAUSE k = s.rd Reg.HND_STAT.CAUSE k) ∧
          t.rd Reg.SP_STAT.WIPE_BUSY k = 1 ∧ (s.rd Reg.SP_STAT.WIPE_BUSY k ≠ 1 → t.rd Reg.SP_STAT.LOCKED k = 1 ∧
            ∀ g < 8, t.rd Reg.GATE_EPOCH.OPEN k g = 0)) ∧
        (∀ tb < 48, ∀ r < 64, region s tb r → t.rd Reg.TBK_REGION.CLOSED tb r = 1) ∧ st t = st s ∧ t.mem = s.mem) ∧
    (st s = 4 → x.haltDue = none → s.wipesOver n.val = true →
      (∀ k ∈ s.enclCores n.val, s.fallow k = false → s.corePresent k = true → s.rd Reg.ARR_STAT.FAULT k = 0 ∧ (s.core k).fenceReq = none) →
      ∃ t, exec (.enclosureWipesDone n) s = .next t ∧
        (s.rd Reg.ENCL_SHAPE.KEEP (j := n.val) ≠ 1 → freed t) ∧
        (s.rd Reg.ENCL_SHAPE.KEEP (j := n.val) = 1 → st t = 5 ∧ t.rd Reg.ENCL_SHAPE.CROWS (j := n.val) = 0 ∧ (t.encl n.val).transit = [] ∧
          (onWafer → ∀ tb < 48, ∀ r < 64, region s tb r → region t tb r)) ∧
        (x.kill = none → ∃ d, Raised s t 16 0xD4 7 n.val d) ∧ (∀ q, x.kill = some q → t.rd Reg.REEVE_STAT.LAST_CODE = 0xD4 ∧
          (t.encl n.val).seqDone = some q))

/-! ### The yoke (chapter 17) -/

/-- R400-R404, R407, R411, R412: heartbeats go out every HB_PERIOD; a frame of the mate brings MATE_UP and ends LOST, any other, of whatever destination, is counted as stray; without
one for HB_MISS times HB_PERIOD ticks YOKE_LOST (0x87) is raised; the mate's map is taken by the load that waits for it and kept for one to come; the values of a compared step are compared, a
difference recorded and raised as YOKE_DIVERGED (0x88); the seed image is written into the regions, and checked by its CRC. -/
def Obligations.YokeFramesAndLoss : Prop :=
  (∀ (s : State), s.rd Reg.YK_CFG.EN ≠ 0 →
    (s.portState 0 = 6 → s.yoke.hbAt + s.rd Reg.YK_CTL.HB_PERIOD ≤ s.now → ∃ t, exec .heartbeatSend s = .next t ∧
      YokeSends s t [yokeFrame s (s.rd Reg.YK_STAT.STATE) ⟨1, 0, 0, 0, 0, 0, 0⟩ []] ∧ t.yoke = { s.yoke with hbAt := s.now } ∧
      { t with ports := s.ports, yoke := s.yoke } = s ∧ BytesKept s t (fun _ => False)) ∧
    (s.yoke.rxAt + s.rd Reg.YK_CTL.HB_MISS * s.rd Reg.YK_CTL.HB_PERIOD ≤ s.now →
      (s.ykState ≠ 1 → ∃ t, exec .yokeLost s = .next t ∧ t.rd Reg.YK_STAT.STATE = s.ykState ∧ OnlyFields s t [Reg.YK_STAT.STATE.key 0 0]) ∧
      (s.ykState = 1 → ∃ t, exec .yokeLost s = .next t ∧ t.rd Reg.YK_STAT.STATE = 2 ∧ (∃ d, Raised s t 16 0x87 5 0 d) ∧
        (∀ n < 16, s.rd Reg.ENCL_STATE.STATE (j := n) ≠ 0 → s.rd Reg.ENCL_SHAPE.YOKE (j := n) ≠ 0 → s.rd Reg.EVR_CTL.EN (j := n) ≠ 0 →
          ∃ d, Raised s t n 0x87 5 0 d) ∧ OnlyFieldsAndEvents s t (fun k => k = Reg.YK_STAT.STATE.key 0 0 ∨ lostKey k)))) ∧
  (∀ (f : LinkFrame) (s : State), s.yoke.seeding = none →
    (MateFrame s f 1 → ∃ t, exec (.heartbeat 0 f) s = .next t ∧ t = yokeFrameTaken s f ∧ PortIs s t 0 (frameTaken s (s.port 0) 3 f) ∧
      t.yoke = { s.yoke with rxAt := s.now } ∧ t.rd Reg.YK_STAT.LAST_RX = s.now % 2 ^ 32 ∧
      t.rd Reg.YK_STAT.STATE = (if s.ykState = 2 then 1 else s.ykState) + 8 ∧
      { t with fields := s.fields, ports := s.ports, yoke := s.yoke } = s ∧ BytesKept s t (fun _ => False) ∧
      Kept s t (fun k => k ∈ [Reg.BLN_FRAMES.RX.key 0 0, Reg.YK_STAT.LAST_RX.key 0 0, Reg.YK_STAT.STATE.key 0 0])) ∧
    (s.portPresent 0 = true → s.portState 0 = 6 → f.seq.toNat = (s.port 0).seqRx → (s.port 0).replay = [] →
      (yokeHdr f.body).kind = 1 → s.rd Reg.YK_CFG.EN = 0 ∨ f.src.toNat ≠ s.rd Reg.YK_CFG.MATE_ID →
      ∃ t, exec (.heartbeat 0 f) s = .next t ∧ t.rd Reg.YK_STAT.STRAY = min (s.rd Reg.YK_STAT.STRAY + 1) 0xFFFF ∧ t.yoke = s.yoke ∧
        Kept s t (fun k => k ∈ [Reg.BLN_FRAMES.RX.key 0 0, Reg.YK_STAT.STRAY.key 0 0])) ∧
    (MateFrame s f 3 → let u := yokeFrameTaken s f; let h := yokeHdr f.body; let map := yokePayload f.body
      let m : FallowMsg := ⟨h.job, h.fprint, h.yoke, yokeStateOf f.body, h.step, map, s.now⟩
      let kept : State := { u with yoke := { u.yoke with
        fallows := u.yoke.fallows.filter (fun k => !(decide (k.job = h.job) && decide (k.fprint = h.fprint) && decide (k.yoke = h.yoke))) ++ [m] } }
      (s.yokeEncl h.job = none → ∃ t, exec (.fallow 0 f) s = .next t ∧ t = kept) ∧
      ∀ n, s.yokeEncl h.job = some n →
        ((s.encl n).fprint ≠ h.fprint ∨ s.rd Reg.ENCL_SHAPE.YOKE (j := n) ≠ h.yoke → ∃ t, exec (.fallow 0 f) s = .next t ∧ t = kept) ∧
        ((s.encl n).fprint = h.fprint → s.rd Reg.ENCL_SHAPE.YOKE (j := n) = h.yoke → (s.encl n).loading = true →
          (s.encl n).mateMap = none → yokeStateOf f.body % 8 ≠ 3 → ∃ t, exec (.fallow 0 f) s = .next t ∧
            t = ({ u with yoke := { u.yoke with fallows := u.yoke.fallows.erase m } } : State).setEncl n
              { s.encl n with mateMap := some map, mateStep := some h.step })) ∧
    (MateFrame s f 2 → let u := yokeFrameTaken s f; let h := yokeHdr f.body
      let b := (List.range 48).map (fun k => leNat (slice (yokePayload f.body) (4 * k) 4))
      let mate := s.yoke.mate.filter (fun q => decide (q.1 ≠ (s.yokeEncl h.job).getD 0)) ++ [((s.yokeEncl h.job).getD 0, h.step, h.offset, b)]
      ∀ n, s.yokeEncl h.job = some n → (∀ tb < 48, (s.tabko tb).cmp.map Prod.fst ≠ some n) →
        (s.yoke.mine.find? (fun m => decide (m.1 = n)) = none → ∃ t, exec (.compare 0 f) s = .next t ∧ t.yoke = { u.yoke with mate := mate } ∧
          { t with yoke := u.yoke } = u ∧ BytesKept s t (fun _ => False)) ∧
        ∀ a, s.yoke.mine.find? (fun m => decide (m.1 = n)) = some (n, h.step, a) →
          let same := fun (tb : Nat) => ∀ g v, a[tb]?.join = some (g, v) → b[tb]?.getD 0 = 0 ∨ b[tb]?.getD 0 = v
          let counted := fun (t : State) => t.rd Reg.YK_CMPCNT.DONE = (s.rd Reg.YK_CMPCNT.DONE + 1) % 2 ^ 32 ∧
            t.yoke.mine = s.yoke.mine.filter (fun k => decide (k.1 ≠ n)) ∧ t.mem = s.mem
          ((∀ tb < 48, same tb) → ∃ t, exec (.compare 0 f) s = .next t ∧ counted t ∧ t.events = s.events ∧
            Kept u t (fun k => k = Reg.YK_CMPCNT.DONE.key 0 0)) ∧
          ∀ tb g v, tb < 48 → a[tb]?.join = some (g, v) → ¬same tb → (∀ q < 48, q ≠ tb → same q) → ∃ t, exec (.compare 0 f) s = .next t ∧ counted t ∧
            t.rd Reg.YK_CMP.STEP = h.step % 2 ^ 32 ∧ t.rd Reg.YK_CMP.TABKO = tb ∧ t.rd Reg.YK_CMP.GRANULE = g % 2 ^ 20 ∧ t.rd Reg.YK_CMP.VALID = 1 ∧
            ∃ d, Raised s t 16 0x88 5 0 d)) ∧
  (∀ (n : EnclId) (s : State) (t0 : Nat) (c : JobCard), let x := s.encl n.val
    x.mateWait = some t0 → jobCard x.load n.val = some c → x.loading = true → x.mateMap = none → x.groups = [] →
    t0 + s.rd Reg.YK_CTL.HB_MISS * s.rd Reg.YK_CTL.HB_PERIOD ≤ s.now →
    ∃ t, exec (.fallowWaitTimeout n) s = .next t ∧ t.rd Reg.ENCL_STATE.STATE (j := n.val) = 0 ∧ t.rd Reg.REEVE_STAT.LAST_CODE = 0xD1 ∧
      t.rd Reg.REEVE_STAT.LAST_SUB = 0x13 ∧ t.encl n.val = { EnclX.init with card := x.card, seqDone := some c.seq } ∧ t.mem = s.mem) ∧
  (∀ (tabko : TabkoId) (s : State) (n step : Nat), let tb := tabko.val
    let gs := s.persistGranules tb n
    let pos := Store.getD (s.tabko tb).cmpPos n 0
    let count := s.rd Reg.YK_CTL.CMP_GRAN
    let scan := (List.range count).filterMap (fun i => gs[(pos + i) % gs.length]?)
    let rd := scan.map (fun g => s.dramRead tb (g * 65536) 65536)
    let old := ((s.yoke.mine.find? (fun m => decide (m.1 = n) && decide (m.2.1 = step))).map (fun m => m.2.2)).getD (List.replicate 48 none)
    let vals := old.set tb (some (gs[pos % gs.length]?.getD 0, crc32c (rd.flatMap Prod.fst)))
    (s.tabko tb).cmp = some (n, step) → (∀ r ∈ rd, r.2.bad = []) →
    ∃ t, exec (.compareScanDone tabko) s = .next t ∧ (t.tabko tb).cmp = none ∧
      Store.get (t.tabko tb).cmpPos n = some ((pos + count) % max gs.length 1) ∧
      (((∃ q < 48, q ≠ tb ∧ (s.tabko q).cmp.map Prod.fst = some n) ∨ s.yoke.mate.find? (fun q => decide (q.1 = n) && decide (q.2.1 = step)) = none) →
        t.yoke.mine = s.yoke.mine.filter (fun m => decide (m.1 ≠ n)) ++ [(n, step, vals)]) ∧
      ((∃ q < 48, q ≠ tb ∧ (s.tabko q).cmp.map Prod.fst = some n) → t.ports = s.ports) ∧
      ((∀ q < 48, q ≠ tb → (s.tabko q).cmp.map Prod.fst ≠ some n) → ∃ h first, h.kind = 2 ∧ h.encl = n ∧ h.step = step ∧ h.offset = first ∧
        YokeSends s t [yokeFrame s (s.rd Reg.YK_STAT.STATE) h (vals.flatMap (fun v => leBytes 4 ((v.map Prod.snd).getD 0)))])) ∧
  ∀ (f : LinkFrame) (s : State) (n : Nat), let u := yokeFrameTaken s f; let h := yokeHdr f.body; let d := yokePayload f.body
    u.joining h = some n →
    (MateFrame s f 4 → h.offset = u.yoke.image.length → u.yoke.ready = false →
      let w : State := { u with yoke := { u.yoke with image := u.yoke.image ++ d } }
      ∃ t, exec (.seedData 0 f) s = .next t ∧ t.yoke = w.yoke ∧ t.rd Reg.YK_SEED.BYTES = (u.yoke.image ++ d).length % 2 ^ 48 ∧
        t.rd Reg.YK_SEED.BUSY = 1 ∧ t.mem = (w.putImage n h.offset d).mem) ∧
    (MateFrame s f 5 → ∃ t, exec (.seedState 0 f) s = .next t ∧ t.yoke = { u.yoke with stateIn := some d } ∧ t.rd Reg.YK_SEED.BUSY = 1 ∧
      { t with fields := u.fields, yoke := u.yoke } = u ∧ BytesKept s t (fun _ => False)) ∧
    (MateFrame s f 6 → ∀ st, u.yoke.stateIn = some st →
      (crc32c u.yoke.image = leNat (slice d 0 4) → n < 16 → ∃ t, exec (.seedDone 0 f) s = .next t ∧ t.yoke.ready = true ∧
        t.rd Reg.YK_SEED.BUSY = 0 ∧ t.rd Reg.ENCL_STATE.STEP (j := n) = leNat (slice st 0 4)) ∧
      (∀ c, crc32c u.yoke.image ≠ leNat (slice d 0 4) → jobCard (u.encl n).load n = some c → n < 16 → ∃ t, exec (.seedDone 0 f) s = .next t ∧
        t.yoke.seeding = none ∧ t.ykState = 1 ∧ t.rd Reg.REEVE_STAT.LAST_CODE = 0xD1 ∧ t.rd Reg.REEVE_STAT.LAST_SUB = 0x13 ∧
        t.rd Reg.ENCL_STATE.STATE (j := n) = 0 ∧ ∃ e, Raised u t 16 0x8B 5 0 e))

/-- R408-R412: a command of YK_CMD whose fields disagree is discarded with CFG_MISMATCH; ABANDON ends the open step and runs row 6 of R350, with a re-sowing where it asks for fencing, ACCEPT takes finals of a module, REDISTRIBUTE sends
them, TAKEOVER makes the yoke SOLO and writes the yoke word of every core of the enclosure, fallow cores aside, DETACH leaves the yoke, ATTACH sends the seed image, before row 6 of its boundary once that is done. -/
def Obligations.YokeCommands : Prop :=
  ∀ (s : State), s.anyStaged ykFields = true → let n := s.stg Reg.YK_CMD.ENCL; let x := s.encl n
    let s1 := s.applyAll ykFields
    let dst := s1.rd Reg.YK_CMD.DST
    let applied := fun (t : State) => ∀ g ∈ ykFields, t.isStaged g = false ∧ t.rd g = s1.rd g
    let only := fun (t : State) => applied t ∧ { t with fields := s.fields, stagedF := s.stagedF, encls := s.encls } = s ∧ BytesKept s t (fun _ => False)
    (∀ q ∈ ([(1, .abandon), (2, .accept), (3, .redistribute), (4, .takeover), (5, .detach), (6, .attach)] : List (Nat × Instr)),
      (s.stg Reg.YK_CMD.OP ≠ q.1 → exec q.2 s = .next s) ∧
      (s.stg Reg.YK_CMD.OP = q.1 → s.ykAgrees q.1 n = false → ∃ t, exec q.2 s = .next t ∧
        (∀ g ∈ ykFields, t.isStaged g = false ∧ t.rd g = s.rd g) ∧ Raised s t 16 0x01 5 0 (Reg.YK_GO.COMMIT.addr 0 0) ∧
        { t with fields := s.fields, stagedF := s.stagedF, events := s.events } = s ∧ BytesKept s t (fun _ => False) ∧ Kept s t lostKey)) ∧
    (n < 16 → s.ykAgrees (s.stg Reg.YK_CMD.OP) n = true →
      (s.stg Reg.YK_CMD.OP = 1 → (∃ k ∈ s.enclCores n, (s.core k).fenceReq ≠ none) → ∃ t, exec .abandon s = .next t ∧ applied t ∧
        t.rd Reg.ENCL_STATE.STATE (j := n) = 3 ∧ t.rd Reg.ENCL_STATE.STEP (j := n) = (s.rd Reg.ENCL_STATE.STEP (j := n) + 1) % 2 ^ 32 ∧
        (∀ k ∈ s.enclCores n, k < 81920 → t.rd Reg.HND_STAT.HALTED k = 1)) ∧
      (s.stg Reg.YK_CMD.OP = 1 → (∀ k ∈ s.enclCores n, (s.core k).fenceReq = none ∧ s.rd Reg.ARR_CHK.CHK_LIMIT k = 0) → s.mateChanged n = false →
        ∃ t, exec .abandon s = .next t ∧ applied t ∧ t.encl n = { x with
          closed := true, folded := true, checked := true, release := none, restart := true, notices := [], accept := none
          ringWait := s.usedFloors n, soloWait := true } ∧
        t.rd Reg.ENCL_STATE.STEP (j := n) = (s.rd Reg.ENCL_STATE.STEP (j := n) + 1) % 2 ^ 32 ∧ t.rd Reg.YK_ENCL.ACCEPTING 0 n = 0 ∧
        t.rd Reg.YK_ENCL.LANDED 0 n = s.rd Reg.YK_ENCL.LANDED 0 n ∧
        (∀ k ∈ s.enclCores n, k < 81920 → t.rd Reg.HND_STAT.HALTED k = 1 ∧ (t.core k).emit = [] ∧ (t.core k).retention = [] ∧
          t.rd Reg.SP_STAT.LOCKED k = s.rd Reg.SP_STAT.LOCKED k) ∧
        (∀ fl < 2, ∀ q ∈ (t.floor fl).tiles, q.encl ≠ n) ∧ t.mem = s.mem ∧ t.events = s.events) ∧
      (s.stg Reg.YK_CMD.OP = 2 → ∃ t, exec .accept s = .next t ∧ only t ∧ t.rd Reg.YK_ENCL.ACCEPTING 0 n = 1 ∧
        t.encl n = { x with accept := some dst } ∧ ∀ m, m ≠ n → t.encl m = s.encl m) ∧
      (s.stg Reg.YK_CMD.OP = 3 → ∀ h e op, x.sheaves = [h] → h.tiles ≤ 1 → x.statSheaf = 0xFFFF → s.egress h.floor dst = some (e, op) →
        let r := ((x.finals.find? (fun f => decide (f.1 = h.num))).map Prod.snd).getD (0, 0)
        let byte := fun (k : Nat) => match partAddr h.g (4 * h.gFirst + k) with
          | some a => s.slowByteAt a
          | none => 0
        let word := fun (k : Nat) => leNat [byte (4 * k), byte (4 * k + 1), byte (4 * k + 2), byte (4 * k + 3)]
        let len := s.rd Reg.FLR_RING.LEN h.floor n
        let f : SheafFrame :=
          { job := s.rd Reg.ENCL_SHAPE.JOB_ID (j := n), step := s1.rd Reg.YK_CMD.STEP, sheaf := h.num, tile := 0, kind := if h.exact then 1 else 0
            pass := 1, miss := false, nf := false, csat := false, glean := false, round := r.1, scale := r.2, gk := 0, missBits := 0
            origin := if len = 0 then 0 else h.num % len, sender := s.rd Reg.FLR_RING.POS h.floor n
            vals := if h.tiles = 0 then [] else (List.range 256).map (fun k => if h.exact then sint 32 (word k) else (word k : Int)) }
        ∃ t, exec .redistribute s = .next t ∧ applied t ∧ PortIs s t e { s.port e with txq := (s.port e).txq ++ [
            { ty := 1, cls := 1, lane := if op = 1 then 1 else 0, floor := h.floor, dst := dst, src := s.moduleId
              hops := s.rd Reg.FWD_ID.HOPS_INIT 0, body := f.bytes, table := h.floor }] } ∧
          { t with fields := s.fields, stagedF := s.stagedF, ports := s.ports } = s ∧ BytesKept s t (fun _ => False)) ∧
      (s.stg Reg.YK_CMD.OP = 4 → let shares := if s1.rd Reg.YK_CMD.POLICY = 1 then 2 else 1
        let cores := (s.enclCores n).filter (fun k => !s.fallow k)
        ∃ t, exec .takeover s = .next t ∧ t.ykState = 3 ∧ t.rd Reg.YK_ENCL.SHARES 0 n = shares ∧ t.rd Reg.YK_ENCL.SOLO 0 n = 1 ∧
          (∃ d, Raised s t 16 0x89 5 0 d) ∧
          ((∀ o, x.yokeOff = some o → ∀ k ∈ cores, ∀ i < 4, s.wordErr k (s.codeWord k (o + i)) = 0) → applied t ∧
            { t with fields := s.fields, stagedF := s.stagedF, events := s.events, mem := s.mem } = s ∧
            (∀ o, x.yokeOff = some o → ∀ k ∈ cores, t.spBytes k o 4 = leBytes 4 (shares + 4)) ∧
            BytesKept s t (fun a => ∃ o k i, x.yokeOff = some o ∧ k ∈ cores ∧ i < 4 ∧ a = spAddr k (o + i)))) ∧
      (s.stg Reg.YK_CMD.OP = 5 → ∃ t, exec .detach s = .next t ∧ only t ∧ t.encl n = { x with detached := true } ∧
        (∀ m, m ≠ n → t.encl m = s.encl m) ∧ Kept s t (fun k => ∃ g ∈ ykFields, k = g.key 0 0)) ∧
      (s.stg Reg.YK_CMD.OP = 6 → x.checked = false → ∃ t, exec .attach s = .next t ∧ applied t ∧ t.ykState = 4 ∧
        t.yoke = { s.yoke with seeding := some n, copyDue := true } ∧ t.rd Reg.YK_SEED.BUSY = 1 ∧
        t.encl n = { x with release := none, ringWait := s.usedFloors n } ∧ (∀ m, m ≠ n → t.encl m = s.encl m) ∧
        { t with fields := s.fields, stagedF := s.stagedF, yoke := s.yoke, encls := s.encls } = s ∧ BytesKept s t (fun _ => False)) ∧
      (s.stg Reg.YK_CMD.OP = 6 → x.checked = true → s.mateChanged n = false →
        let img := s.seedImage n
        let st := (s.rd Reg.YK_STAT.STATE / 8 * 8 + 4) % 2 ^ 16
        let h := fun (kind off : Nat) => (⟨kind, n, s.rd Reg.ENCL_SHAPE.JOB_ID (j := n), s.rd Reg.ENCL_STATE.STEP (j := n), x.fprint, off,
          s.rd Reg.ENCL_SHAPE.YOKE (j := n)⟩ : YokeHdr)
        ∃ t, exec .attach s = .next t ∧ applied t ∧ t.ykState = 4 ∧ t.yoke = { s.yoke with seeding := some n, copyDue := false } ∧
          t.rd Reg.YK_SEED.BYTES = img.length % 2 ^ 48 ∧ t.rd Reg.YK_SEED.BUSY = 1 ∧
          t.encl n = { x with release := none, ringWait := s.usedFloors n } ∧
          YokeSends s t ((List.range (ceilDiv img.length 16384)).map (fun k =>
              yokeFrame s st (h 4 (16384 * k)) ((img.drop (16384 * k)).take 16384)) ++
            [yokeFrame s st (h 5 0) (s.seedState n), yokeFrame s st (h 6 0) (leBytes 4 (crc32c img))]) ∧ t.mem = s.mem))

/-! ### Power (chapter 18) -/

/-- R415-R426, R513: a state card is checked whole, answered, and carried out phase by phase; a change starts at a bell and ends in its new state; a holding that goes OFF loses what it
held, its epochs excepted; a sensor beyond its limit trips its domain, which is OFF 64 ticks later; with its supply lost domain ST keeps OTP and flash only. -/
def Obligations.StateCardsAndDomains : Prop :=
  (∀ (s : State), let c := stateCard s.power.words
    let y : YosalX := { s.yosal with stateSeq := some c.seq }
    let says' := fun (t : State) (code : Nat) => Posted s y t (wrPart (s.lineAddr 16) 48 (wordBytes [code])) (.words 16 (some c.seq) [])
    s.power.words ≠ [] → s.yosal.stateSeq ≠ some c.seq → s.rd Reg.PWR_CTL.BUSY ≠ 1 →
    (s.pins.stHold = true → ∃ t, exec .stateCard s = .next t ∧ t.rd Reg.PWR_CTL.REASON = 6 ∧ says' t 0xA2 ∧ (∃ d, Raised s t 16 0xA2 5 0 d) ∧
      { t with fields := s.fields, yosal := s.yosal, events := s.events } = s ∧ BytesKept s t (fun _ => False) ∧
      Kept s t (fun k => k ∈ [Reg.PWR_CTL.REASON.key 0 0, Reg.YEP_STAT.OUTSTANDING.key 0 0] ∨ lostKey k)) ∧
    (s.pins.stHold = false → s.pins.stReady = true → cardReserved s.power.words = true → ∃ t, exec .stateCard s = .next t ∧ says' t 0x01 ∧
      { t with fields := s.fields, yosal := s.yosal } = s ∧ BytesKept s t (fun _ => False) ∧
      Kept s t (fun k => k = Reg.YEP_STAT.OUTSTANDING.key 0 0)) ∧
    (s.pins.stHold = false → s.pins.stReady = true → s.cardRefusal s.power.words = none → c.stOff = false → s.power.boot = false →
      ((∀ k < 6, s.phaseWork c k = []) → ∃ t, exec .stateCard s = .next t ∧ says' t 0 ∧ t.rd Reg.PWR_CTL.BUSY = 0 ∧ t.rd Reg.PWR_CTL.PHASE = 0 ∧
        t.rd Reg.PWR_CTL.DONE_SEQ = c.seq ∧ t.power.card = none ∧ ∃ d, Raised s t 16 0xA3 5 0 d) ∧
      ∀ k, 1 ≤ k → k ≤ 5 → s.phaseWork c k ≠ [] → (∀ q < k, s.phaseWork c q = []) → ∃ t, exec .stateCard s = .next t ∧ says' t 0 ∧
        t.rd Reg.PWR_CTL.BUSY = 1 ∧ t.rd Reg.PWR_CTL.PHASE = k ∧ t.power.card = some c ∧ (∀ d < 19, ∀ v, c.dom d = some v → t.rd Reg.PWR_DOM.TARGET (j := d) = v) ∧
        (∀ h < 16, ∀ p, c.op h = some p → p < 8 → t.rd Reg.HOLD_OP.TARGET (j := h) = p) ∧
        (k ≤ 2 → ∀ d ∈ s.phaseWork c k, s.domCur d = 0 → s.mayLeave d = false → t.rd Reg.PWR_DOM.WAITING (j := d) = 1))) ∧
  (∀ (s : State) (c : StateCard) (d : Nat), s.power.card = some c → s.now % 1024 = 0 → s.power.phaseFrom ≤ s.now → d < 19 → s.settled d = true →
    let to' := (c.dom d).getD 0
    let p := s.rd Reg.PWR_CTL.PHASE
    let starts := fun (t : State) (len : Nat) => t.rd Reg.PWR_DOM.BUSY (j := d) = 1 ∧ t.rd Reg.PWR_DOM.WAITING (j := d) = 0 ∧
      t.power.chg = s.power.chg ++ [⟨d, s.domCur d, to', s.now, s.now + len⟩]
    let len := holdTime (s.domCur d) to' (decide (s.rd Reg.HOLD_OP.TARGET (j := d) ≠ s.rd Reg.HOLD_OP.CUR (j := d)))
    (p = 1 ∨ p = 4 → s.phaseWork c p = [d] → d < 16 → s.domCur d ≠ 0 ∨ (p = 1 ∧ s.mayLeave d = true) → ∃ t, exec .powerPhaseStart s = .next t ∧ starts t len ∧
      { t with fields := s.fields, power := s.power } = s ∧ BytesKept s t (fun _ => False) ∧
      Kept s t (fun k => k ∈ [Reg.PWR_DOM.BUSY.key 0 d, Reg.PWR_DOM.WAITING.key 0 d])) ∧
    (p = 1 → s.phaseWork c 1 = [d] → d < 16 → s.domCur d = 0 → s.mayLeave d = false → ∃ t, exec .powerPhaseStart s = .next t ∧
      t.rd Reg.PWR_DOM.WAITING (j := d) = 1 ∧ OnlyFields s t [Reg.PWR_DOM.WAITING.key 0 d]) ∧
    (p = 2 ∨ p = 3 → s.phaseWork c p = [d] → 16 < d → ∃ t, exec .powerPhaseStart s = .next t ∧
      starts t (domTime d (s.domCur d) to') ∧ t.power.phaseFrom = s.now + 1) ∧
    (p = 5 → s.phaseWork c 5 = [d] → d < 16 → s.rd Reg.HOLD_OP.WAITING (j := d) = 0 → s.rd Reg.HOLD_OP.BUSY (j := d) = 0 →
      s.claimClear ⟨5, 1, d, 0, 0⟩ = true → ∃ t, exec .powerPhaseStart s = .next t ∧ t.rd Reg.HOLD_OP.WAITING (j := d) = 1 ∧ t.power = s.power)) ∧
  (∀ (hold : HoldId) (s : State) (c : DomChg), let h := hold.val
    s.power.chg.find? (fun x => decide (x.dom = h)) = some c → c.due ≤ s.now → s.power.card = none → c.to_ < 4 →
    ∃ t, exec (.holdingChangeEnd hold) s = .next t ∧ t.rd Reg.PWR_DOM.CUR (j := h) = c.to_ ∧
      t.rd Reg.PWR_DOM.BUSY (j := h) = 0 ∧ t.rd Reg.PWR_DOM.CHANGES (j := h) = min (s.rd Reg.PWR_DOM.CHANGES (j := h) + 1) 0xFFFF ∧
      t.rd Reg.PWR_DOM.LAST_END (j := h) = s.now % 2 ^ 32 ∧ t.power.chg = s.power.chg.filter (fun x => decide (x.dom ≠ h)) ∧
      (c.to_ = 0 → let op := if s.clocksLost then 4 else s.rd Reg.HOLD_OP.TARGET (j := h)
        t.rd Reg.HOLD_OP.CUR (j := h) = op % 8 ∧ ∀ k ∈ croftsOfHolding h, t.rd Reg.CLK_STAT.LOCKED k = (if op = 4 then 0 else 1) ∧
          ((t.croft k).clock = true ↔ op ≠ 4) ∧ (op ≠ 4 → (t.croft k).est = s.now * unitsPerTick op ∧ (t.croft k).slew = 0 ∧ (t.croft k).stall = none) ∧ ∀ i ∈ coresOfCroft k, t.rd Reg.ARR_STAT.COLD i = 1) ∧
      (c.to_ = 3 → ∀ k ∈ croftsOfHolding h, (t.croft k).clock = CroftX.init.clock ∧ ∀ i ∈ coresOfCroft k, (∀ o < 2 ^ 18, t.byte (spAddr i o) = 0) ∧
        (∀ r < 32, t.h i r = 0) ∧ ∀ g < 8, t.rd Reg.GATE_EPOCH.EPOCH i g = s.rd Reg.GATE_EPOCH.EPOCH i g)) ∧
  (∀ (dom : Fin 3) (s : State) (c : DomChg), let d := 16 + dom.val
    s.power.chg.find? (fun x => decide (x.dom = d)) = some c → c.due ≤ s.now → s.power.card = none → c.to_ < 4 →
    ∃ t, exec (.domainChangeEnd dom) s = .next t ∧ t.rd Reg.PWR_DOM.CUR (j := d) = c.to_ ∧ t.rd Reg.PWR_DOM.BUSY (j := d) = 0 ∧
      t.rd Reg.PWR_DOM.LAST_END (j := d) = s.now % 2 ^ 32 ∧
      (d = 16 → c.to_ = 3 → t.tabkos = [] ∧ t.cvus = [] ∧ ∀ a < 48 * spanBytes, t.byte a = 0) ∧
      (d = 16 → c.to_ = 1 → ∀ k < 48, s.tabkoPresent k = true → t.rd Reg.TBK_STAT.READY k = 0 ∧ t.rd Reg.TBK_STAT.SELF_REFRESH k = 1) ∧
      (d = 16 → c.to_ = 0 → t.mem = s.mem ∧ ∀ k < 48, s.tabkoPresent k = true → t.rd Reg.TBK_STAT.SELF_REFRESH k = 0 ∧ t.rd Reg.TBK_STAT.READY k =
        (if s.rd Reg.TBK_STAT.DOWN k = 0 ∧ s.rd Reg.TBK_STAT.RECAL_BUSY k = 0 then 1 else s.rd Reg.TBK_STAT.READY k)) ∧
      (16 < d → ∀ p ∈ portsOf (d - 17), s.portPresent p = true →
        t.portState p = (if c.to_ = 3 ∨ s.rd Reg.BLN_CTL.EN p = 0 then 0 else if c.to_ = 1 then 1 else 2))) ∧
  (∀ (hold : HoldId) (s : State) (b : Nat), let h := hold.val
    s.power.opAt.find? (fun p => decide (p.1 = h)) = some (h, b) → b + 2048 ≤ s.now → s.power.card = none → (∀ n < 16, s.uses n h = false) →
    ∃ t, exec (.opChanged hold) s = .next t ∧ t.rd Reg.HOLD_OP.CUR (j := h) = s.rd Reg.HOLD_OP.TARGET (j := h) % 8 ∧ t.rd Reg.HOLD_OP.BUSY (j := h) = 0 ∧
      t.rd Reg.HOLD_OP.CHANGES (j := h) = min (s.rd Reg.HOLD_OP.CHANGES (j := h) + 1) 0xFFFF ∧ t.rd Reg.HOLD_OP.LAST_END (j := h) = s.now % 2 ^ 32 ∧
      t.power.opAt = s.power.opAt.filter (fun p => decide (p.1 ≠ h)) ∧ (∃ d, Raised s t 16 0x56 6 h d) ∧ t.mem = s.mem) ∧
  (∀ (cause : Fin 8) (unit : Fin 16) (value : BitVec 16) (s : State), let k := cause.val; let d := tripDomain k unit.val
    k ≠ 0 → k ≤ 5 → s.tripLimit k < value.toNat → s.domCur d ≠ 3 ∨ s.settled d = false → (∀ q ∈ s.power.trips, q.1 ≠ d) → s.power.card = none → SegsOnWafer s →
    ∃ t, exec (.protectiveTrip cause unit value) s = .next t ∧ t.rd Reg.PWR_TRIP.CAUSE = k ∧ t.rd Reg.PWR_TRIP.DOMAIN = d ∧ t.rd Reg.PWR_TRIP.VALID = 1 ∧
      t.rd Reg.PWR_TRIP.VALUE = value.toNat ∧ t.rd Reg.PWR_TRIP.TICK = s.now % 2 ^ 32 ∧ (d, s.now + 64) ∈ t.power.trips ∧
      (∃ e, Raised s t 16 0xA1 6 d e) ∧ ∀ n < 16, s.usesDom n d = true →
        (s.rd Reg.ENCL_STATE.STATE (j := n) = 1 ∨ s.rd Reg.ENCL_STATE.STATE (j := n) = 2 ∨ s.rd Reg.ENCL_STATE.STATE (j := n) = 3) →
        t.rd Reg.ENCL_STATE.STATE (j := n) = 4 ∧ t.rd Reg.ENCL_STATE.CAUSE (j := n) = 0xA1 ∧ (t.encl n).haltDue = some (s.now + 4)) ∧
  (∀ (dom : DomId) (s : State), let d := dom.val
    (∃ at', (d, at') ∈ s.power.trips ∧ at' ≤ s.now) → s.power.card = none → ∃ t, exec (.tripDomainOff dom) s = .next t ∧
      t.rd Reg.PWR_DOM.CUR (j := d) = 3 ∧ t.rd Reg.PWR_DOM.TRIPPED (j := d) = 1 ∧ (∀ q ∈ t.power.trips, q.1 ≠ d) ∧
      (d < 16 → ∀ k ∈ croftsOfHolding d, ∀ i ∈ coresOfCroft k, ∀ o < 2 ^ 18, t.byte (spAddr i o) = 0)) ∧
  (∀ (hold : HoldId) (temp : BitVec 8) (s : State), let h := hold.val
    s.rd Reg.PWR_LIMIT.TJ_WARN ≠ 0 → s.rd Reg.PWR_LIMIT.TJ_WARN < temp.toNat → (h, s.now / 1024) ∉ s.power.warned → s.stRuns = true →
    ∃ t, exec (.thermWarn hold temp) s = .next t ∧ t.rd Reg.PWR_HOLD.TJ_MAX (j := h) = max temp.toNat (s.rd Reg.PWR_HOLD.TJ_MAX (j := h)) % 256 ∧
      (h, s.now / 1024) ∈ t.power.warned ∧ (∃ d, Raised s t 16 0xA4 6 h d) ∧
      { t with fields := s.fields, events := s.events, power := s.power } = s ∧ BytesKept s t (fun _ => False) ∧
      Kept s t (fun k => k = Reg.PWR_HOLD.TJ_MAX.key 0 h ∨ lostKey k)) ∧
  (∀ (pair : Fin 4) (volts : BitVec 16) (s : State), s.now % 1024 = 0 → s.stRuns = true → volts.toNat < 380 → pair.val ∉ s.power.lostPairs →
    let v := (List.range 4).map (fun k => if k = pair.val then volts.toNat else (s.power.studs[k]?).getD 0)
    let det := (List.range 4).foldl (fun a k => a + (v[k]?).getD 0 % 2 ^ 16 * 2 ^ (16 * k)) 0
    ∃ t, exec (.studLost pair volts) s = .next t ∧ t.power = { s.power with studs := v, lostPairs := s.power.lostPairs ++ [pair.val] } ∧
      Raised s t 16 0xA5 5 0 det ∧ { t with fields := s.fields, events := s.events, power := s.power } = s ∧ BytesKept s t (fun _ => False) ∧
      Kept s t lostKey) ∧
  ∀ (s : State),
    (∀ b, s.power.offAt = some b → b + 16384 ≤ s.now → s.trust.waiting ≠ [] → exec .stSupplyRemove s = .next s) ∧
    (∀ b, s.power.offAt = some b → b + 16384 ≤ s.now → s.trust.waiting = [] → ∃ t, exec .stSupplyRemove s = .next t ∧
      SteadingLost s t { s.pins with pgOut := false, stReady := false, stHold := false, stOff := true } 8) ∧
    ∃ t, exec .powerLost s = .next t ∧ SteadingLost s t { s.pins with enIn := false, pgOut := false, stReady := false, stHold := false } 8

/-! ### Start-up, images, quotes and the ledger (chapter 19) -/

/-- R430-R444, R447, R451, R480, R513: the module starts once its supplies are in range and RST_N rises, through self-test, OTP, firmware image and configuration, and enters HOLD at the
first that fails; a HOLD before phase 6 still has its ledger (log entry 80); a reset leaves OTP and flash only; a write-through reads its content from companion memory line by line, checks it before
it programs it, and reads it back, the ledger's records waiting; a quote is signed and written. -/
def Obligations.StartUpAndWriteThrough : Prop :=
  (∀ (volts : List (BitVec 16)) (s : State),
    (s.pins.enIn = false → ∃ t, exec (.enInHigh volts) s = .next t ∧ t.pins = { s.pins with enIn := true } ∧
      t.power = { s.power with studs := volts.map BitVec.toNat } ∧ { t with pins := s.pins, power := s.power } = s ∧ BytesKept s t (fun _ => False)) ∧
    (s.pins.enIn = true → s.pins.pgOut = false → s.pins.stOff = false → (∀ v ∈ volts, 400 ≤ v.toNat ∧ v.toNat ≤ 595) →
      ∃ t, exec (.pgOut volts) s = .next t ∧ t.pins = { s.pins with pgOut := true } ∧
        t.power = { s.power with studs := volts.map BitVec.toNat, lostPairs := [] } ∧ { t with pins := s.pins, power := s.power } = s ∧
        BytesKept s t (fun _ => False))) ∧
  (∀ (s : State), let low := { s.pins with rstN := false, stReady := false, stHold := false, stOff := false }
    let fails := s.rd Reg.GNT_STAT.FAILS % 64
    (∃ t, exec .rstN s = .next t ∧ SteadingLost s t low fails) ∧ (∃ t, exec .steadingReset s = .next t ∧ SteadingLost s t low fails) ∧
    (s.rd Reg.BOOT_LOAD_STAT.BUSY ≠ 1 → ∃ t, exec .restart s = .next t ∧ SteadingLost s t low fails) ∧
    (s.rd Reg.BOOT_LOAD_STAT.BUSY = 1 → exec .restart s = .next s)) ∧
  (∀ (s : State), s.pins.pgOut = true → s.pins.rstN = false →
    (∃ t, exec (.rstNRise false) s = .next t ∧ InHold t 3 0 ∧ t.pins.rstN = true ∧ t.trust = { s.trust with hourAt := s.now, hours := 0 } ∧
      { t with fields := s.fields, pins := s.pins, trust := s.trust } = s ∧ BytesKept s t (fun _ => False) ∧
      (∀ r, s.newestRecord = some r → r.length = 320 → t.rd Reg.TRUST_STAT.SEQ = leNat (slice r 4 4) ∧
        ∀ j < 24, t.rd Reg.LED_CNT.BLOCK 0 j = leNat (slice r (16 + 8 * j) 8)) ∧
      Kept s t (fun k => k ∈ [Reg.BOOT_STAT.PHASE.key 0 0, Reg.BOOT_STAT.HOLD_CAUSE.key 0 0, Reg.BOOT_STAT.REASON.key 0 0, Reg.TRUST_STAT.SEQ.key 0 0] ∨
        (∃ j < 24, k = Reg.LED_CNT.BLOCK.key 0 j) ∨ ∃ i, k = Reg.SP_WIPE.COUNT.key i 0)) ∧
    (s.otp.retired = true → ∃ t, exec (.rstNRise true) s = .next t ∧ InHold t 4 0) ∧
    (s.otp.retired = false → s.flash.tornImage = false → let r := s.imageReason s.flash.image 0x1000000
      (r ≠ 0 → ∃ t, exec (.rstNRise true) s = .next t ∧ InHold t 1 r ∧ t.trust = { s.trust with hourAt := s.now, hours := 0 }) ∧
      (r = 0 → s.flash.tornConfig = false → let q := s.configReason s.flash.config 0x400000
        (q ≠ 0 → ∃ t, exec (.rstNRise true) s = .next t ∧ InHold t 2 q ∧
          t.trust = { s.trust with image := some s.flash.image, hourAt := s.now, hours := 0 }) ∧
        (q = 0 → ∃ t, exec (.rstNRise true) s = .next t ∧ t.rd Reg.BOOT_STAT.PHASE = 7 ∧ t.pins = { s.pins with rstN := true } ∧
          t.trust.image = some s.flash.image ∧ t.trust.cfg = some s.flash.config ∧ t.rd Reg.GEO_CTL.READY = 1 ∧
          t.rd Reg.BOOT_STAT.SVN = leNat (slice s.flash.image 12 4) % 64 ∧ t.rd Reg.BOOT_STAT.CFG_GEN = leNat (slice s.flash.config 16 4) ∧
          t.rd Reg.YK_CFG.EN = leNat (slice ((cfgBody s.flash.config 0x06).getD []) 0 1) % 2)))) ∧
  (∀ (s : State), let ws := cfgCard (s.trust.cfg.getD []); let c := stateCard ws
    let u := (if s.rd Reg.BOOT_STAT.PHASE = 8 then s else s.wr Reg.BOOT_STAT.PHASE 8).wr Reg.REF_CTL.ACTIVE (1 - s.rd Reg.REF_CTL.A_GOOD)
    let good := s.rd Reg.REF_CTL.A_GOOD ≠ 0 ∨ s.rd Reg.REF_CTL.B_GOOD ≠ 0
    (s.rd Reg.BOOT_STAT.PHASE = 7 ∧ s.yUp = true) ∨ s.rd Reg.BOOT_STAT.PHASE = 8 → s.power.card = none →
    (¬good → ∃ t, exec .bootPowerPhase s = .next t ∧ t.rd Reg.BOOT_STAT.PHASE = 8 ∧ OnlyFields s t [Reg.BOOT_STAT.PHASE.key 0 0]) ∧
    (∀ r, good → u.cardRefusal ws = some r → ∃ t, exec .bootPowerPhase s = .next t ∧ InHold t 2 7 ∧ { t with fields := s.fields, pins := s.pins } = s ∧
      BytesKept s t (fun _ => False)) ∧
    (good → u.cardRefusal ws = none → c.stOff = false →
      ((∀ k < 6, s.phaseWork c k = []) → ∃ t, exec .bootPowerPhase s = .next t ∧ t.rd Reg.BOOT_STAT.PHASE = 9 ∧ t.pins = { s.pins with stReady := true } ∧
        t.rd Reg.REF_CTL.ACTIVE = (if s.rd Reg.REF_CTL.A_GOOD = 0 then 1 else 0) ∧
        t.rd Reg.PWR_CTL.BUSY = 0 ∧ t.rd Reg.PWR_CTL.DONE_SEQ = c.seq ∧ ∃ d, Raised s t 16 0xA3 5 0 d) ∧
      ∀ k, 1 ≤ k → k ≤ 5 → s.phaseWork c k ≠ [] → (∀ q < k, s.phaseWork c q = []) → ∃ t, exec .bootPowerPhase s = .next t ∧
        t.rd Reg.BOOT_STAT.PHASE = 8 ∧ t.rd Reg.PWR_CTL.BUSY = 1 ∧ t.rd Reg.PWR_CTL.PHASE = k ∧ t.power.card = some c ∧ t.power.boot = true ∧
        t.pins = s.pins)) ∧
  (∀ (lost : List Byte) (s : State), let len := s.rd Reg.BOOT_LOAD_CTL.LEN; let n := ceilDiv len 64; let target := s.rd Reg.BOOT_LOAD_CTL.TARGET
    (s.rd Reg.BOOT_LOAD_STAT.BUSY ≠ 1 → target < 2 → 0 < n → s.yUp = false → ∃ t, exec (.writeThroughGo lost) s = .next t ∧
      t.rd Reg.BOOT_LOAD_STAT.BUSY = 1 ∧ t.rd Reg.BOOT_LOAD_STAT.STAGE = 0 ∧ t.trust = { s.trust with reading := some ⟨decide (target = 1), len, [], n⟩ } ∧
      t.yosal = { s.yosal with wait := s.yosal.wait ++ (List.range n).map (fun l => (rdOnce (s.rd Reg.BOOT_LOAD_ADDR.CPA * 4096 + 64 * l), .boot l)) } ∧
      { t with fields := s.fields, trust := s.trust, yosal := s.yosal } = s ∧ BytesKept s t (fun _ => False) ∧
      Kept s t (fun k => k ∈ [Reg.BOOT_LOAD_STAT.BUSY.key 0 0, Reg.BOOT_LOAD_STAT.STAGE.key 0 0])) ∧
    ∀ r, s.trust.reading = some r →
      (∀ (tag : BitVec 12) (line : List Byte) (q : YTag) (l : Nat), s.yosal.tags.find? (fun x => decide (x.tag = tag.toNat)) = some q → q.req = .boot l →
        q.dead = false → line.length = 64 → ∃ t, exec (.data tag 0 line) s = .next t ∧
          t.trust = { s.trust with reading := some { r with got := Store.put r.got l line, left := r.left - 1 } } ∧ t.mem = s.mem) ∧
      (s.rd Reg.BOOT_LOAD_STAT.BUSY = 1 → r.left ≠ 0 → exec (.writeThroughGo lost) s = .next s) ∧
      (s.rd Reg.BOOT_LOAD_STAT.BUSY = 1 → r.left = 0 → s.trust.waiting = [] → s.pins.stHold = false →
        let data := r.content lost (fun k => Config.freeByte (s.freeIx + k))
        let ended := fun (t : State) (result reason : Nat) => t.rd Reg.BOOT_LOAD_STAT.BUSY = 0 ∧ t.rd Reg.BOOT_LOAD_STAT.RESULT = result ∧
          t.rd Reg.BOOT_LOAD_STAT.REASON = (if reason = 0 then s.rd Reg.BOOT_LOAD_STAT.REASON else reason % 16) ∧
          t.rd Reg.BOOT_LOAD_STAT.COUNT = min (s.rd Reg.BOOT_LOAD_STAT.COUNT + 1) 0xFFFF ∧ (∃ d, Raised s t 16 result 5 0 d) ∧
          t.trust = { s.trust with reading := none, load := none } ∧
          { t with fields := s.fields, events := s.events, trust := s.trust, freeIx := s.freeIx } = s ∧ BytesKept s t (fun _ => False)
        let goes := fun (t : State) (d : List Byte) => t.rd Reg.BOOT_LOAD_STAT.BUSY = 1 ∧ t.rd Reg.BOOT_LOAD_STAT.STAGE = 2 ∧
          t.trust = { s.trust with reading := none, load := some ⟨r.config, d⟩ } ∧
          { t with fields := s.fields, trust := s.trust, freeIx := s.freeIx } = s ∧ BytesKept s t (fun _ => False)
        (r.config = false →
          (s.lc = 4 → ∃ t, exec (.writeThroughGo lost) s = .next t ∧ ended t 0xB6 0) ∧
          (s.lc ≠ 4 → s.imageReason data r.len ≠ 0 → ∃ t, exec (.writeThroughGo lost) s = .next t ∧ ended t 0xB1 (s.imageReason data r.len)) ∧
          (s.lc ≠ 4 → s.imageReason data r.len = 0 → ∃ t, exec (.writeThroughGo lost) s = .next t ∧ goes t data)) ∧
        (r.config = true →
          (s.configReason data r.len ≠ 0 → ∃ t, exec (.writeThroughGo lost) s = .next t ∧ ended t 0xB2 (s.configReason data r.len)) ∧
          (s.configReason data r.len = 0 → s.serviceOk = false → ∃ t, exec (.writeThroughGo lost) s = .next t ∧ ended t 0xB6 0) ∧
          (s.configReason data r.len = 0 → s.serviceOk = true → ∃ t, exec (.writeThroughGo lost) s = .next t ∧ goes t (s.stampGen data))))) ∧
  (∀ (faults : List (Fin 16777216 × Byte)) (s : State) (r : LoadRun), s.trust.load = some r → s.pins.stHold = false →
    let back := faults.foldl (fun (d : List Byte) f => d.set f.1.val f.2) r.data
    let over' := fun (t : State) (bad result : Nat) => t.rd Reg.BOOT_LOAD_STAT.FLASH_BAD = bad ∧ t.rd Reg.BOOT_LOAD_STAT.RESULT = result ∧
      t.rd Reg.BOOT_LOAD_STAT.BUSY = 0 ∧ t.rd Reg.BOOT_LOAD_STAT.REASON = s.rd Reg.BOOT_LOAD_STAT.REASON ∧
      t.trust = { s.trust with reading := none, load := none } ∧
      t.flash = (if r.config then { s.flash with config := back, tornConfig := false } else { s.flash with image := back, tornImage := false }) ∧
      { t with fields := s.fields, flash := s.flash, trust := s.trust, events := s.events } = s ∧ BytesKept s t (fun _ => False)
    (s.trust.waiting = [] →
      (sha384 back = sha384 r.data → ∃ t, exec (.writeThroughDone faults) s = .next t ∧ over' t 0 0 ∧ ∃ d, Raised s t 16 0xB3 5 0 d) ∧
      (sha384 back ≠ sha384 r.data → ∃ t, exec (.writeThroughDone faults) s = .next t ∧ over' t 1 0xB3 ∧ t.events = s.events)) ∧
    ∀ w, s.trust.waiting = [w] → w.kind ≠ 2 → ∃ t, exec (.writeThroughDone faults) s = .next t ∧ t.trust.waiting = [] ∧
      t.rd Reg.TRUST_STAT.SEQ = (s.rd Reg.TRUST_STAT.SEQ + 1) % 2 ^ 32 ∧ ∃ b, t.flash.journal = trimJournal (s.flash.journal ++ [b])) ∧
  (∀ (s : State) (seed : List Byte), s.rd Reg.ATT_CTL.BUSY ≠ 1 → s.otp.idSeed = some seed → s.yUp = false →
    let q := s.quoteBody ++ s.sign s.quoteBody ++ List.replicate 32 0
    ∃ t, exec .quoteGo s = .next t ∧ t.rd Reg.ATT_CTL.BUSY = 1 ∧ t.trust = { s.trust with quoteOut := 10 } ∧
      t.yosal = { s.yosal with wait := s.yosal.wait ++ (List.range 10).map (fun k =>
        (wrFull (s.rd Reg.ATT_DEST.CPA * 64 + 64 * k) (slice q (64 * k) 64), .quote)) } ∧ s.quoteBody.take 8 = ascii [75, 90, 74, 81, 85, 79, 84, 69] ∧
      { t with fields := s.fields, trust := s.trust, yosal := s.yosal, freeIx := s.freeIx } = s ∧ BytesKept s t (fun _ => False) ∧
      Kept s t (fun k => k = Reg.ATT_CTL.BUSY.key 0 0)) ∧
  ∀ (s : State), s.stRuns = true → s.trust.hourAt + 60 * 6375000000 ≤ s.now →
    let passed := { s.trust with hourAt := s.trust.hourAt + 60 * 6375000000, hourMax := 0, hours := (s.trust.hours + 1) % 64 }
    (s.rd Reg.BOOT_LOAD_STAT.BUSY = 1 → s.trust.hours ≠ 63 → ∃ t w, exec .ledgerHourly s = .next t ∧ w.kind = 1 ∧
      t.trust = { passed with waiting := s.trust.waiting ++ [w] } ∧ t.flash = s.flash ∧ t.rd Reg.TRUST_STAT.SEQ = s.rd Reg.TRUST_STAT.SEQ) ∧
    (s.rd Reg.BOOT_LOAD_STAT.BUSY ≠ 1 → ∃ t, exec .ledgerHourly s = .next t ∧ t.trust = passed ∧
    (s.trust.hours ≠ 63 → t.rd Reg.TRUST_STAT.SEQ = (s.rd Reg.TRUST_STAT.SEQ + 1) % 2 ^ 32 ∧ t.otp = s.otp ∧
      ∃ r, t.flash.journal = trimJournal (s.flash.journal ++ [r])) ∧
    (s.trust.hours = 63 → t.rd Reg.TRUST_STAT.SEQ = (s.rd Reg.TRUST_STAT.SEQ + 2) % 2 ^ 32 ∧
      t.otp = { s.otp with ckpt := min (s.otp.ckpt + 1) 4095 } ∧ t.rd Reg.TRUST_STAT.CKPT = min (s.otp.ckpt + 1) 4095) ∧ t.mem = s.mem)

/-! ### The gauntlet, self-test, faults and check values (chapters 19 to 22) -/

/-- R458-R465: a password or a signed response opens a session, a wrong one counts and is raised as 0xC6; a session ends at CLOSE or at its time; a nonce serves once and for 2^33
ticks; SEAL, REFURBISH and RETIRE blow their fuse, leave their records, and wipe what they must. -/
def Obligations.GauntletAndLifeCycle : Prop :=
  ∀ (s : State), s.pins.stHold = false →
    let fails := s.rd Reg.GNT_STAT.FAILS
    let len := s.rd Reg.GNT_CTL.PW_LEN
    let timeout := s.rd Reg.GNT_CTL.TIMEOUT
    let result := fun (t : State) (code : Nat) => t.rd Reg.GNT_STAT.RESULT = code
    let failed := fun (t : State) (code : Nat) => result t code ∧ ∃ d, Raised s t 16 code 5 0 d
    let loading := s.rd Reg.BOOT_LOAD_STAT.BUSY = 1
    let recorded := fun (t : State) => (¬loading → t.rd Reg.TRUST_STAT.SEQ = (s.rd Reg.TRUST_STAT.SEQ + 1) % 2 ^ 32) ∧
      (loading → ∃ w : LedgerWrite, w.kind = 3 ∧ t.trust.waiting = s.trust.waiting ++ [w])
    let opened := fun (t : State) (scope : Nat) => t.rd Reg.GNT_STAT.SESSION = scope ∧ result t 0 ∧
      t.rd Reg.GNT_END.TICK = (s.now + timeout * 6375000000) % 2 ^ 64 ∧ (∃ d, Raised s t 16 0xC5 5 0 d) ∧ recorded t
    let closed := fun (t : State) => t.rd Reg.GNT_STAT.SESSION = 0 ∧ (∃ d, Raised s t 16 0xC7 5 0 d) ∧ recorded t ∧ t.mem = s.mem
    let inTime := 1 ≤ timeout ∧ timeout ≤ 1440
    let moved := fun (t : State) => result t 0 ∧ t.rd Reg.GNT_STAT.SESSION = 0 ∧ (¬loading → t.otp.ckpt = min (s.otp.ckpt + 1) 4095)
    let wiped := fun (t : State) => ∀ c < 256, s.croftPresent c = true → s.rd Reg.PWR_DOM.CUR (j := holdingOf c) = 0 →
      ∀ i ∈ coresOfCroft c, t.rd Reg.SP_STAT.WIPE_BUSY i = 1
    let blown := fun (t : State) => t.otp.lcFuses = s.otp.lcFuses + 1 ∧ t.otp.retired = s.otp.retired
    let gone := fun (t : State) => moved t ∧ wiped t ∧ t.otp.retired = true ∧ t.otp.lcFuses = s.otp.lcFuses ∧ t.otp.idSeed = none ∧ t.flash.creds = [] ∧ t.flash.chain = []
    let wait := s.trust.last + 2 ^ (27 + min fails 24 - 8)
    let free := ∀ n < 16, s.rd Reg.ENCL_STATE.STATE (j := n) = 0
    (8 ≤ fails → s.now < wait → ∃ t, exec .password s = .next t ∧ result t 0xCA ∧ t.rd Reg.GNT_RETRY.TICK = wait % 2 ^ 64 ∧
      OnlyFields s t [Reg.GNT_STAT.RESULT.key 0 0, Reg.GNT_RETRY.TICK.key 0 0]) ∧
    ((fails < 8 ∨ wait ≤ s.now) →
      (len < 16 ∨ 64 < len ∨ s.credFlag 0 = false ∨ ¬inTime → ∃ t, exec .password s = .next t ∧ failed t 0xC6 ∧ t.rd Reg.GNT_STAT.FAILS = fails ∧
        t.rd Reg.GNT_STAT.SESSION = s.rd Reg.GNT_STAT.SESSION ∧ t.trust = s.trust) ∧
      (16 ≤ len → len ≤ 64 → s.credFlag 0 = true → inTime → let given := sha384 (slice s.flash.creds 16 32 ++ s.regBytes Reg.GNT_PW.DATA len)
        (given = slice s.flash.creds 48 48 → ∃ t, exec .password s = .next t ∧ opened t 1 ∧ t.rd Reg.GNT_STAT.FAILS = 0) ∧
        (given ≠ slice s.flash.creds 48 48 → ∃ t, exec .password s = .next t ∧ failed t 0xC6 ∧ t.rd Reg.GNT_STAT.FAILS = min (fails + 1) 63 ∧
          t.trust = { s.trust with last := s.now } ∧ t.rd Reg.GNT_STAT.SESSION = s.rd Reg.GNT_STAT.SESSION))) ∧
    (s.rd Reg.GNT_STAT.SESSION ≠ 0 → (∃ t, exec .close s = .next t ∧ closed t ∧ result t 0) ∧
      (s.rd Reg.GNT_END.TICK ≤ s.now → ∃ t, exec .sessionTimeout s = .next t ∧ closed t)) ∧
    (s.rd Reg.GNT_STAT.SESSION = 0 → ∃ t, exec .close s = .next t ∧ result t 0 ∧ OnlyFields s t [Reg.GNT_STAT.RESULT.key 0 0]) ∧
    (∃ t, exec .challenge s = .next t ∧ result t 0 ∧ t.rd Reg.GNT_STAT.NONCE_VALID = 1 ∧
      t.trust = { s.trust with nonce := some (s.now, s.rd Reg.GNT_CTL.SCOPE, decide (s.rd Reg.GNT_CTL.SIGNER = 1)) } ∧
      t.regBytes Reg.GNT_NONCE.DATA 48 = (s.freeBytes 48).1 ∧ { t with fields := s.fields, trust := s.trust, freeIx := s.freeIx } = s ∧
      BytesKept s t (fun _ => False)) ∧
    (∀ t0 scope lessor, s.trust.nonce = some (t0, scope, lessor) → t0 + 2 ^ 33 ≤ s.now → ∃ t, exec .nonceExpiry s = .next t ∧
      t.rd Reg.GNT_STAT.NONCE_VALID = 0 ∧ t.trust = { s.trust with nonce := none } ∧ { t with fields := s.fields, trust := s.trust } = s ∧
      BytesKept s t (fun _ => False) ∧ Kept s t (fun k => k = Reg.GNT_STAT.NONCE_VALID.key 0 0)) ∧
    (s.trust.nonce = none → ∃ t, exec .respond s = .next t ∧ failed t 0xC6 ∧ t.rd Reg.GNT_STAT.NONCE_VALID = 0) ∧
    (∀ t0 scope lessor, s.trust.nonce = some (t0, scope, lessor) →
      let resp := s.regBytes Reg.GNT_RESP.DATA 192
      let signed := s.now < t0 + 2 ^ 33 ∧ s.signerOk lessor (resp.take 96) = true ∧
        ecdsaVerify (resp.take 96) (s.gntMessage scope lessor) (resp.drop 96) = true
      let used := fun (t : State) => t.rd Reg.GNT_STAT.NONCE_VALID = 0 ∧ t.trust.nonce = none
      (¬signed → ∃ t, exec .respond s = .next t ∧ failed t 0xC6 ∧ used t) ∧
      (signed → scope = 1 ∨ (scope = 2 ∧ (s.lc = 1 ∨ s.lc = 2)) → inTime → ∃ t, exec .respond s = .next t ∧ opened t scope ∧ used t) ∧
      (signed → s.lc = 1 ∨ s.lc = 2 → free → scope = 3 → lessor = false → s.mpState = 0 → s.otp.lcFuses < 62 →
        (∀ h < 16, s.holdPresent h = true → s.rd Reg.PWR_DOM.CUR (j := h) = 0 ∨ s.rd Reg.PWR_DOM.CUR (j := h) = 3) →
        ∃ t, exec .respond s = .next t ∧ used t ∧ moved t ∧ blown t ∧ wiped t ∧ t.flash.creds = [] ∧
          ∀ k < 48, ∀ r < 64, t.rd Reg.TBK_REGION.VALID k r ≠ 1) ∧
      (signed → s.lc = 1 ∨ s.lc = 2 → free → scope = 4 → ∃ t, exec .respond s = .next t ∧ used t ∧ gone t)) ∧
    (s.lc = 0 ∨ s.lc = 3 →
      (s.rd Reg.TRUST_STAT.ID_OK = 1 → s.bist.sealOk = true → s.rd Reg.GNT_STAT.REFURB_BUSY = 0 →
        ∃ t, exec .seal s = .next t ∧ moved t ∧ blown t ∧ t.flash.creds = s.flash.creds ∧ t.mem = s.mem) ∧
      (s.bist.sealOk = false → ∃ t, exec .seal s = .next t ∧ failed t 0xCB ∧ t.otp = s.otp) ∧
      (free → ∃ t, exec .retire s = .next t ∧ gone t) ∧
      (len = 0 ∨ (16 ≤ len ∧ len ≤ 64) → ∃ t, exec .setCred s = .next t ∧ result t 0 ∧ slice t.flash.creds 0 8 = credMagic ∧
        slice t.flash.creds 16 32 = (s.freeBytes 32).1 ∧ { t with fields := s.fields, flash := s.flash, freeIx := s.freeIx } = s ∧
        BytesKept s t (fun _ => False) ∧ (len ≠ 0 → (t.flash.creds.drop 48).take 48 =
          (sha384 ((s.freeBytes 32).1 ++ s.regBytes Reg.GNT_PW.DATA len)).take 48))) ∧
    (s.lc ≠ 0 → s.lc ≠ 3 → (∃ t, exec .seal s = .next t ∧ failed t 0xCB ∧ t.otp = s.otp) ∧ (∃ t, exec .retire s = .next t ∧ failed t 0xCB ∧ t.otp = s.otp) ∧
      ∃ t, exec .setCred s = .next t ∧ failed t 0xC6 ∧ t.flash = s.flash)

/-- R466-R472, R481: a test on command is refused outside the states that permit it, starts, and ends with its verdict, its crofts wiped and cold; slices test one croft
after the other; a croft that fails is quarantined; a supply beyond its window ends a test with no verdict; marks are set and cleared, records selected. -/
def Obligations.SelfTestAndFallowEdits : Prop :=
  (∀ (s : State), s.pins.stHold = false → let r := s.bistUnits
    let res := fun (t : State) (code : Nat) => t.rd Reg.BIST_STAT.RESULT = code ∧ (∃ d, Raised s t 16 code 5 0 d) ∧
      OnlyFieldsAndEvents s t (fun k => k = Reg.BIST_STAT.RESULT.key 0 0 ∨ lostKey k)
    (s.rd Reg.BIST_STAT.BUSY = 1 → exec .bistGo s = .next s) ∧
    (s.rd Reg.BIST_STAT.BUSY ≠ 1 → (s.serviceOk = false → ∃ t, exec .bistGo s = .next t ∧ res t 0xC9) ∧
      (s.serviceOk = true → ((∃ c ∈ r.crofts, s.railOk (holdingOf c) = false) → ∃ t, exec .bistGo s = .next t ∧ res t 0xC3) ∧
        ((∀ c ∈ r.crofts, s.railOk (holdingOf c) = true) →
          (∀ c, (s.bistClaims r).find? (fun c => !s.claimClear c) = some c → ∃ t, exec .bistGo s = .next t ∧ t.rd Reg.BIST_STAT.RESULT = 0xC1 ∧
            Raised s t 16 0xC1 5 0 (c.word % 2 ^ 64) ∧ OnlyFieldsAndEvents s t (fun k => k = Reg.BIST_STAT.RESULT.key 0 0 ∨ lostKey k)) ∧
          ((∀ c ∈ s.bistClaims r, s.claimClear c = true) →
            (r.crofts = [] → r.tabkos = [] → r.ports = [] → ∃ t, exec .bistGo s = .next t ∧ t.rd Reg.BIST_STAT.PASS = 1 ∧ t.rd Reg.BIST_STAT.RESULT = 0 ∧
              t.rd Reg.BIST_STAT.RUNS = min (s.rd Reg.BIST_STAT.RUNS + 1) 0xFFFF ∧ ∃ d, Raised s t 16 0xC8 5 0 d) ∧
            (r.crofts ≠ [] ∨ r.tabkos ≠ [] ∨ r.ports ≠ [] → ∃ t, exec .bistGo s = .next t ∧ t.rd Reg.BIST_STAT.BUSY = 1 ∧
              t.rd Reg.BIST_STAT.RESULT = 0 ∧ t.bist = { s.bist with sealOk := false, run := some r } ∧
              { t with fields := s.fields, bist := s.bist } = s ∧ BytesKept s t (fun _ => False))))))) ∧
  (∀ (failC : List CroftId) (failT : List TabkoId) (failP : List PortId) (cells : List CoreId) (s : State) (r : BistRun), s.pins.stHold = false →
    s.bist.run = some r → (∀ c ∈ r.crofts, c < 256) →
    let bad := (∃ c ∈ failC, c.val ∈ r.crofts) ∨ (∃ c ∈ failT, c.val ∈ r.tabkos) ∨ ∃ c ∈ failP, c.val ∈ r.ports
    ∃ t, exec (.bistEnd failC failT failP cells) s = .next t ∧ t.rd Reg.BIST_STAT.BUSY = 0 ∧
      t.rd Reg.BIST_STAT.RUNS = min (s.rd Reg.BIST_STAT.RUNS + 1) 0xFFFF ∧ t.bist.run = none ∧
      (bad → t.rd Reg.BIST_STAT.PASS = 0 ∧ t.bist.sealOk = false ∧ ∃ d, Raised s t 16 0xC2 5 0 d) ∧
      (¬bad → t.rd Reg.BIST_STAT.PASS = 1 ∧ t.bist.sealOk = s.coversAll r ∧ ∃ d, Raised s t 16 0xC8 5 0 d) ∧
      (∀ c ∈ failC, c.val ∈ r.crofts → t.quarantined c.val = true) ∧
      (∀ c ∈ r.crofts, ∀ i ∈ coresOfCroft c, t.rd Reg.SP_STAT.WIPE_BUSY i = 1 ∧ t.rd Reg.ARR_STAT.COLD i = 1) ∧
      (∀ i ∈ cells, croftOf i.val ∈ r.crofts → s.fallow i.val = false → (s.core i.val).fencing = none → s.enclOfCore i.val = none →
        (t.core i.val).fencing = some 6)) ∧
  (∀ (s : State) (c : Nat), s.rd Reg.BIST_SLICE.EN ≠ 0 → s.lc ≠ 4 → s.bist.slice = none → s.now % 1024 = 0 → s.stRuns = true →
    (∀ at', s.bist.sliceAt = some at' → at' + 1024 * s.rd Reg.BIST_SLICE.PERIOD ≤ s.now) →
    let last := s.rd Reg.BIST_SLICE.LAST
    let fit := fun (k : Nat) => s.bistCroft k = true ∧ s.railOk (holdingOf k) = true ∧ s.quarantined k = false ∧ s.croftClaimed [2, 9] k = false
    (∃ k < 256, c = (last + 1 + k) % 256 ∧ fit c ∧ ∀ q < k, ¬fit ((last + 1 + q) % 256)) →
    (s.claimClear ⟨1, 0, c, 1, 1⟩ = true → ∃ t, exec .sliceStart s = .next t ∧ t.rd Reg.BIST_SLICE.LAST = c ∧
      t.bist = { s.bist with slice := some (c, s.now), sliceAt := some s.now } ∧ { t with fields := s.fields, bist := s.bist } = s ∧
      BytesKept s t (fun _ => False)) ∧
    (s.claimClear ⟨1, 0, c, 1, 1⟩ = false → ∃ t, exec .sliceStart s = .next t ∧ (∃ d, Raised s t 16 0xC1 5 0 d) ∧ OnlyFieldsAndEvents s t lostKey)) ∧
  (∀ (pass : Bool) (cells : List CoreId) (s : State) (c b : Nat), s.bist.slice = some (c, b) → b + 2048 ≤ s.now → c < 256 → s.pins.stHold = false →
    ∃ t, exec (.sliceEnd pass cells) s = .next t ∧ t.bist.slice = none ∧ t.rd Reg.BIST_SLICE.RUNS = (s.rd Reg.BIST_SLICE.RUNS + 1) % 2 ^ 16 ∧
      (∀ i ∈ coresOfCroft c, ∀ o < 2 ^ 18, t.byte (spAddr i o) = 0) ∧
      (pass = false → t.quarantined c = true ∧ (t.croft c).clock = false ∧ ∃ d, Raised s t 16 0xC2 5 0 d) ∧
      (pass = true → t.quarantined c = s.quarantined c)) ∧
  (∀ (dom : DomId) (s : State) (r : BistRun), s.bist.run = some r → r.inDomain dom.val = true → s.bist.slice = none → s.pins.stHold = false →
    ∃ t, exec (.bistLimit dom) s = .next t ∧ t.bist.run = none ∧ t.rd Reg.BIST_STAT.PASS = 0 ∧ t.rd Reg.BIST_STAT.RESULT = 0xC3 ∧
      t.rd Reg.BIST_STAT.BUSY = 0 ∧ ∃ d, Raised s t 16 0xC3 5 0 d) ∧
  (∀ (core : Fin 87040) (s : State), s.serviceOk = true → let p := core.val; let c := croftOfPhys p
    let seq := fun (t : State) => (s.rd Reg.BOOT_LOAD_STAT.BUSY ≠ 1 → t.rd Reg.TRUST_STAT.SEQ = (s.rd Reg.TRUST_STAT.SEQ + 1) % 2 ^ 32) ∧
      (s.rd Reg.BOOT_LOAD_STAT.BUSY = 1 → ∃ w : LedgerWrite, w.kind = 5 ∧ t.trust.waiting = s.trust.waiting ++ [w])
    (∀ i, s.croftPresent c = true → s.logicalOf p = some i → s.fallow i = false → (s.core i).fencing = none →
      (s.enclOfCore i = none → ∃ t, exec (.fallowSet core) s = .next t ∧ (t.core i).fencing = some 3 ∧ t.rd Reg.HND_STAT.HALTED i = 1 ∧
        t.rd Reg.HND_STAT.CAUSE i = 5 ∧ t.rd Reg.SP_STAT.WIPE_BUSY i = 1) ∧
      (∀ n, s.enclOfCore i = some n → ∃ t, exec (.fallowSet core) s = .next t ∧ t = s.setCore i { s.core i with fenceReq := some 3 })) ∧
    (s.croftPresent c = true → s.logicalOf p = none → p ∉ s.bist.marks → ∃ t, exec (.fallowSet core) s = .next t ∧ seq t ∧
      t.bist = { s.bist with passed := s.bist.passed.filter (fun k => decide (k ≠ c)), marks := s.bist.marks ++ [p] }) ∧
    (s.enclOf c = none → c ∈ s.bist.passed →
      (∀ i, s.logicalOf p = some i → s.fallow i = true → (s.stiled i = true → exec (.fallowClear core) s = .next s) ∧
        (s.stiled i = false → ∃ t, exec (.fallowClear core) s = .next t ∧ seq t ∧ t.fallow i = false ∧ t.rd Reg.ARR_STAT.FAULT i = 0 ∧ t.mem = s.mem)) ∧
      (s.logicalOf p = none → p ∈ s.bist.marks → ∃ t, exec (.fallowClear core) s = .next t ∧ seq t ∧
        t.bist = { s.bist with marks := s.bist.marks.filter (fun k => decide (k ≠ p)) }))) ∧
  ∀ (seq : BitVec 32) (s : State),
    (s.serviceOk = false → exec (.ledSel seq) s = .next s) ∧
    (s.serviceOk = true → let r := (s.flash.journal.find? (fun r => decide (leNat (slice r 4 4) = seq.toNat) && decide (r.take 4 = ledMagic) && s.recordOk r)).getD []
      ∃ t, exec (.ledSel seq) s = .next t ∧ t.rd Reg.LED_SEL.SEQ = seq.toNat ∧ (∀ k < 40, t.rd Reg.LED_REC.WORD 0 k = leNat (slice r (8 * k) 8)) ∧
        { t with fields := s.fields } = s ∧ BytesKept s t (fun _ => False) ∧
        Kept s t (fun k => k = Reg.LED_SEL.SEQ.key 0 0 ∨ ∃ q < 40, k = Reg.LED_REC.WORD.key 0 q))

/-- R190, R479, R482, R483, R486, R488, R489, R495: a fenced core is isolated and reported, what was left for it answered with 0x21; a croft takes its spare row; a control tree that fails quarantines its croft and faults its enclosure;
event rings take the oldest event, report losses with RING_OVERFLOW, and follow CI. -/
def Obligations.FencingSpareRowsAndEventRings : Prop :=
  (∀ (core : CoreId) (s : State) (r : Nat), let i := core.val
    (s.core i).fencing = some r → s.rd Reg.SP_STAT.WIPE_BUSY i ≠ 1 → (∀ n, s.enclOfCore i = some n → s.rd Reg.ENCL_STATE.STATE (j := n) ≠ 3) →
    let mine := fun (p : Packet) => p.ty ≠ 8
    ∃ t, exec (.fenceIsolate core) s = .next t ∧ t.fallow i = true ∧ (t.core i).fencing = none ∧ (t.core i).mcSlots = [] ∧
      (∀ vc < 4, ∀ p ∈ t.ejectOf i vc, ¬mine p) ∧
      (r ≠ 5 → (s.core i).mcSlots = [] → (∀ vc < 4, ∀ p ∈ s.ejectOf i vc, ¬mine p) →
        t.core i = { s.core i with fencing := none, gwLand := ⟨0, 0, 0, false⟩, mcLand := ⟨0, 0, 0, false⟩ }) ∧
      (∀ p, r ≠ 5 → s.stiled i = false → (s.core i).mcSlots = [] → s.ejectOf i 0 = [p] → p.ty = 5 →
        (∀ vc, 1 ≤ vc → vc < 4 → ∀ p ∈ s.ejectOf i vc, ¬mine p) →
        (t.core i).rspOut = (s.core i).rspOut ++ [respTo p 6 0x21 (s.core i).gwLand.landed (bits p.body 18 3) []] ∧
        t.rd Reg.RTR_STAT.ANSWERED i = min (s.rd Reg.RTR_STAT.ANSWERED i + 1) (2 ^ Reg.RTR_STAT.ANSWERED.width - 1)) ∧
      (r = 5 → t.stiled i = true ∧ t.rd Reg.FLT_STILES.LAST = i ∧ t.rd Reg.FLT_STILES.COUNT = min (s.rd Reg.FLT_STILES.COUNT + 1) 0xFFFF) ∧
      (r ≠ 5 → t.stiled i = s.stiled i) ∧
      (s.rd Reg.BOOT_LOAD_STAT.BUSY ≠ 1 → t.rd Reg.TRUST_STAT.SEQ = (s.rd Reg.TRUST_STAT.SEQ + 2) % 2 ^ 32) ∧
      Raised s t ((s.enclOfCore i).getD 16) 0x28 0 i ((s.physOf i + r * 2 ^ 17) % 2 ^ 64) ∧ t.mem = s.mem) ∧
  (∀ (croft : CroftId) (row : BitVec 4) (s : State), let c := croft.val; let cl : Claim := ⟨4, 0, c, 1, 1⟩
    (s.rd Reg.FLT_SPARE.BUSY = 1 → exec (.spareGo croft row) s = .next s) ∧
    (s.rd Reg.FLT_SPARE.BUSY ≠ 1 → (s.rowFits c = false → ∃ t, exec (.spareGo croft row) s = .next t ∧ t.rd Reg.FLT_SPARE.RESULT = 1 ∧
        OnlyFields s t [Reg.FLT_SPARE.RESULT.key 0 0]) ∧
      (s.rowFits c = true → (s.claimClear cl = false → ∃ t, exec (.spareGo croft row) s = .next t ∧ t.rd Reg.FLT_SPARE.RESULT = 0xC1 ∧
          Raised s t 16 0xC1 5 0 cl.word ∧ OnlyFieldsAndEvents s t (fun k => k = Reg.FLT_SPARE.RESULT.key 0 0 ∨ lostKey k)) ∧
        (s.claimClear cl = true → ∃ t, exec (.spareGo croft row) s = .next t ∧ t.rd Reg.FLT_SPARE.RESULT = 0 ∧ t.rd Reg.FLT_SPARE.BUSY = 1 ∧
          t.bist = { s.bist with spare := some (c, row.toNat, none) } ∧ { t with fields := s.fields, bist := s.bist } = s ∧
          BytesKept s t (fun _ => False))))) ∧
  (∀ (s : State) (c row : Nat), c < 256 →
    (s.bist.spare = some (c, row, none) → s.now % 1024 = 0 → ∃ t, exec .spareRowStart s = .next t ∧
      t.bist = { s.bist with spare := some (c, row, some s.now) } ∧ (t.croft c).clock = false ∧ t.mem = s.mem ∧
      ∀ i ∈ coresOfCroft c, t.rd Reg.HND_STAT.HALTED i = 1) ∧
    (∀ b, s.bist.spare = some (c, row, some b) → b + 2048 ≤ s.now → row < 16 → ∃ t, exec .spareIn s = .next t ∧ t.bist.spare = none ∧
      t.rd Reg.FLT_SPARE.BUSY = 0 ∧ t.rd Reg.CROFT_TABLE.SPARE_USED 0 c = 1 ∧ t.rd Reg.CROFT_TABLE.SPARE_GOOD 0 c = 0 ∧ t.rd Reg.CROFT_TABLE.BAD_ROW 0 c = row ∧
      (t.croft c).clock = decide (s.opOf c ≠ 4) ∧
      (∀ i ∈ coresOfCroft c, t.rd Reg.ARR_STAT.COLD i = 1 ∧ (∀ o < 2 ^ 18, t.byte (spAddr i o) = 0) ∧
        (i / 320 % 16 < row → t.rd Reg.RTR_STAT.FENCED i = s.rd Reg.RTR_STAT.FENCED i) ∧
        (row ≤ i / 320 % 16 → i / 320 % 16 < 15 → t.rd Reg.RTR_STAT.FENCED i = s.rd Reg.RTR_STAT.FENCED (i + 320) % 2)) ∧
      Raised s t 16 0x29 1 c row)) ∧
  (∀ (croft : CroftId) (offset : Word) (s : State), let c := croft.val
    s.croftPresent c = true → ∃ t, exec (.ctlTree croft offset) s = .next t ∧ t.quarantined c = true ∧ Raised s t 16 0x05 1 c offset.toNat ∧
      (∀ n < 16, s.inRect n c = true → (s.rd Reg.ENCL_STATE.STATE (j := n) = 1 ∨ s.rd Reg.ENCL_STATE.STATE (j := n) = 2 ∨
          s.rd Reg.ENCL_STATE.STATE (j := n) = 3) → t.rd Reg.ENCL_STATE.STATE (j := n) = 4 ∧ t.rd Reg.ENCL_STATE.CAUSE (j := n) = 5) ∧
      BytesKept s t (fun _ => False)) ∧
  ∀ (ring : RingId) (s : State), let r := ring.val; let pi := s.rd Reg.EVR_PI.PI 0 r; let size := 2 ^ (min (s.rd Reg.EVR_CTL.SIZE 0 r) 10 + 6)
    let used := (pi + 2 ^ 32 - s.rd Reg.EVR_CI.CI 0 r) % 2 ^ 32
    let entry := fun (e : Event) (t : State) (k : Nat → Prop) => let a := s.rd Reg.EVR_CTL.BASE 0 r * 4096 + pi % size * 32
      Posted s s.yosal t (wrPart (a / 64 * 64) (a % 64) (wordBytes [e.code + e.ring * 2 ^ 8 + e.skind * 2 ^ 13 + pi * 2 ^ 32, e.tick,
        e.unit % 2 ^ 17 + e.step * 2 ^ 32, e.detail])) (.event r) ∧ { t with fields := s.fields, events := s.events, yosal := s.yosal } = s ∧
      BytesKept s t (fun _ => False) ∧ Kept s t (fun q => k q ∨ q = Reg.YEP_STAT.OUTSTANDING.key 0 0)
    (s.rd Reg.EVR_CTL.EN 0 r ≠ 0 → s.pins.stHold = false → s.ringBusy r = false →
      (∀ e l, takeEvent r s.events = some (e, l) →
        (size - 1 ≤ used → ∃ t, exec (.eventRingWrite ring) s = .next t ∧ t.events = l ∧
          t.rd Reg.EVR_PI.LOST 0 r = min (s.rd Reg.EVR_PI.LOST 0 r + 1) (2 ^ 32 - 1) ∧ OnlyFieldsAndEvents s t (fun k => k = Reg.EVR_PI.LOST.key 0 r)) ∧
        (used < size - 1 → s.rd Reg.EVR_PI.LOST 0 r = 0 → ∃ t, exec (.eventRingWrite ring) s = .next t ∧ t.events = l ∧ entry e t (fun _ => False))) ∧
      (used < size - 1 → 0 < s.rd Reg.EVR_PI.LOST 0 r → ∃ t, exec (.eventRingWrite ring) s = .next t ∧ t.events = s.events ∧
        t.rd Reg.EVR_PI.LOST 0 r = 0 ∧ entry ⟨r, 0x04, r, 5, 0, s.now, 0, s.rd Reg.EVR_PI.LOST 0 r⟩ t (fun k => k = Reg.EVR_PI.LOST.key 0 r))) ∧
    (∀ v : BitVec 32, let behind := (pi + 2 ^ 32 - v.toNat) % 2 ^ 32
      ∃ t, exec (.evrCiWrite ring v) s = .next t ∧ OnlyFields s t [Reg.EVR_CI.CI.key 0 r] ∧
        (2 ^ 31 ≤ behind → t.rd Reg.EVR_CI.CI 0 r = pi % 2 ^ 32) ∧ (behind < 2 ^ 31 → size < behind → t = s) ∧
        (behind < 2 ^ 31 → behind ≤ size → t.rd Reg.EVR_CI.CI 0 r = v.toNat)) ∧
    ∀ (base : BitVec 40) (sz : BitVec 4),
      (s.rd Reg.EVR_CTL.EN 0 r = 1 → exec (.evrEnable ring base sz) s = .next s) ∧
      (s.rd Reg.EVR_CTL.EN 0 r ≠ 1 → ∃ t, exec (.evrEnable ring base sz) s = .next t ∧ t.rd Reg.EVR_CTL.EN 0 r = 1 ∧
        t.rd Reg.EVR_CTL.BASE 0 r = base.toNat ∧ t.rd Reg.EVR_CTL.SIZE 0 r = sz.toNat ∧ t.rd Reg.EVR_PI.PI 0 r = 0 ∧ t.rd Reg.EVR_CI.CI 0 r = 0 ∧
        t.rd Reg.EVR_PI.LOST 0 r = s.rd Reg.EVR_PI.LOST 0 r ∧ OnlyFields s t [Reg.EVR_CTL.EN.key 0 r, Reg.EVR_CTL.BASE.key 0 r,
          Reg.EVR_CTL.SIZE.key 0 r, Reg.EVR_PI.PI.key 0 r, Reg.EVR_CI.CI.key 0 r])

/-- R13, R498-R502: a GO starts a scan with the parameters that its staged fields name, or is refused with STATUS 1 and CFG_MISMATCH, and with nothing staged has no effect; the scan reads block after block, ends with
its value, with STATUS 0x67 at a CLOSED region, with 0x62 at a block beyond correction, or as aborted. -/
def Obligations.CheckValueScans : Prop :=
  ∀ (tabko : TabkoId) (unit : Fin 2) (s : State), let tb := tabko.val; let i := tb * 4 + unit.val
    let first := s.stg Reg.CVU_START.MPA i; let len := s.stg Reg.CVU_LEN.BYTES i
    let free := Store.get s.cvus i = none ∧ ¬(unit.val = 1 ∧ s.claimed [7] 2 tb = true)
    let range := s.inSpan tb first = true ∧ (len = 0 ∨ s.inSpan tb (first + len - 1) = true)
    let ready := s.mpState = 0 ∧ s.rd Reg.TBK_STAT.READY tb = 1
    let ended := fun (t : State) => Store.get t.cvus i = none ∧ (∀ k, k ≠ i → Store.get t.cvus k = Store.get s.cvus k) ∧
      t.rd Reg.CVU_CTL.BUSY i = 0 ∧ t.rd Reg.CVU_CTL.SCANS i = (s.rd Reg.CVU_CTL.SCANS i + 1) % 2 ^ 32
    let begun := fun (t : State) => (∀ g ∈ cvuFields, t.isStaged g i = false ∧ t.rd g i = (if s.isStaged g i then s.stg g i % 2 ^ g.width else s.rd g i)) ∧
      t.rd Reg.CVU_CTL.ABORTED i = 0 ∧ t.rd Reg.CVU_CTL.STATUS i = 0 ∧ { t with fields := s.fields, stagedF := s.stagedF, cvus := s.cvus } = s ∧
      BytesKept s t (fun _ => False)
    (s.anyStaged cvuFields i = false → exec (.cvuGo tabko unit) s = .next s) ∧
    (s.tabkoPresent tb = true → s.anyStaged cvuFields i = true →
      (∀ c, s.cvuConfig tb i = some c → free → range → ready →
        (len ≠ 0 → ∃ t, exec (.cvuGo tabko unit) s = .next t ∧ begun t ∧ t.rd Reg.CVU_CTL.BUSY i = 1 ∧ t.rd Reg.CVU_CTL.DONE i = 0 ∧
          Store.get t.cvus i = some ⟨first, first + len, c.width, c.poly, c.refin, c.refout, c.xorout, c.init⟩ ∧
          ∀ k, k ≠ i → Store.get t.cvus k = Store.get s.cvus k) ∧
        (len = 0 → ∃ t, exec (.cvuGo tabko unit) s = .next t ∧ begun t ∧ ended t ∧ t.rd Reg.CVU_CTL.DONE i = 1 ∧
          t.rd Reg.CVU_RESULT.VALUE i = checkEnd c.width c.refout c.xorout c.init % 2 ^ 64)) ∧
      (s.cvuConfig tb i = none ∨ ¬free ∨ ¬range ∨ ¬ready → ∃ t, exec (.cvuGo tabko unit) s = .next t ∧ t.rd Reg.CVU_CTL.STATUS i = 1 ∧
        (∀ g ∈ cvuFields, t.isStaged g i = false ∧ t.rd g i = s.rd g i) ∧ Raised s t 16 0x01 2 tb (Reg.CVU_CTL.GO.addr i 0) ∧
        { t with fields := s.fields, stagedF := s.stagedF, events := s.events } = s ∧ BytesKept s t (fun _ => False) ∧
        Kept s t (fun k => k = Reg.CVU_CTL.STATUS.key i 0 ∨ lostKey k))) ∧
    ∀ x, Store.get s.cvus i = some x →
      (∃ t, exec (.cvuAbort tabko unit) s = .next t ∧ ended t ∧ t.rd Reg.CVU_CTL.ABORTED i = 1 ∧ t.rd Reg.CVU_CTL.STATUS i = 0 ∧
        { t with fields := s.fields, cvus := s.cvus } = s ∧ BytesKept s t (fun _ => False)) ∧
      (s.admitting tb = false → exec (.scanRead tabko unit) s = .next s ∧ exec (.scanDone tabko unit) s = .next s) ∧
      (s.admitting tb = true → x.stop ≤ x.next → x.stop ≤ (x.next / 64 + 1) * 64 → ∃ t, exec (.scanDone tabko unit) s = .next t ∧ ended t ∧ t.rd Reg.CVU_CTL.DONE i = 1 ∧
        t.rd Reg.CVU_RESULT.VALUE i = checkEnd x.width x.refout x.xorout x.r % 2 ^ 64 ∧ { t with fields := s.fields, cvus := s.cvus } = s ∧
        BytesKept s t (fun _ => False)) ∧
      (s.admitting tb = true → x.next < x.stop → let off := x.next - s.spanBase tb; let n := min x.stop ((x.next / 64 + 1) * 64) - x.next; let d := s.dramRead tb off n
        (s.closedAt tb off = true → ∃ t, exec (.scanRead tabko unit) s = .next t ∧ ended t ∧ t.rd Reg.CVU_CTL.STATUS i = 0x67 ∧
          Raised s t 16 0x67 2 tb (x.next % 2 ^ 64) ∧ { t with fields := s.fields, cvus := s.cvus, events := s.events } = s ∧
          BytesKept s t (fun _ => False)) ∧
        (s.closedAt tb off = false → d.2.bad ≠ [] → ∃ t, exec (.scanRead tabko unit) s = .next t ∧ ended t ∧
          t.rd Reg.CVU_CTL.STATUS i = 0x62 ∧ t.mem = s.mem) ∧
        (s.closedAt tb off = false → d.2.bad = [] → ∃ t, exec (.scanRead tabko unit) s = .next t ∧ t.mem = s.mem ∧
          Store.get t.cvus i = some { x with next := x.next + n, r := checkRun x.width x.poly x.refin x.r d.1 } ∧
          ∀ k, k ≠ i → Store.get t.cvus k = Store.get s.cvus k))

/-! ### The window, SMBus and test access (chapters 16 and 23) -/

/-- R12, R397, R508-R511: a register write takes effect by the access code of each field; through the window the companion reads and writes registers, halted scratchpads and the slow tier, each
request answered with its STATUS, one that needs the wheel of a Tabko being retrained, and those after it, waiting; SMBus reads return their block, any write is not acknowledged; the TAP holds IDCODE and BYPASS. -/
def Obligations.WindowAndSideBand : Prop :=
  (∀ (who : Requester) (value : Word) (s : State),
    (∀ a : BitVec 48, locate a.toNat = none → exec (.registerWrite who a value) s = .next s) ∧
    (∀ k : Fin 6, let a := BitVec.ofNat 48 (Reg.ATT_NONCE.NONCE.addr 0 k.val)
      ((∀ c, who ≠ .hand c) → ∃ t, exec (.registerWrite who a value) s = .next t ∧ t.rd Reg.ATT_NONCE.NONCE 0 k.val = value.toNat ∧
        OnlyFields s t [Reg.ATT_NONCE.NONCE.key 0 k.val]) ∧
      (∀ c, who = .hand c → exec (.registerWrite who a value) s = .next s)) ∧
    exec (.registerWrite who (BitVec.ofNat 48 (Reg.BOOT_ID.SERIAL.addr 0 0)) value) s = .next s ∧
    (who = .companion → ∃ t, exec (.registerWrite who (BitVec.ofNat 48 (Reg.PWR_TRIP.VALID.addr 0 0)) value) s = .next t ∧
      t.rd Reg.PWR_TRIP.VALID = (if value.getLsbD 9 then 0 else s.rd Reg.PWR_TRIP.VALID) ∧ OnlyFields s t [Reg.PWR_TRIP.VALID.key 0 0])) ∧
  (∀ (tag : BitVec 12) (mpa : BitVec 48) (bytes : BitVec 7) (mask : Word) (line : List Byte) (s : State), s.yUp = true →
    let behind := fun (i : Instr) (r : WinReq) => ∀ q l, s.yosal.winq ++ [r] = q :: l → s.winWaits q = true →
      exec i s = .next { s with yosal := { s.yosal with winq := s.yosal.winq ++ [r] } }
    behind (.winRd tag mpa bytes) (.rd tag.toNat mpa.toNat bytes.toNat) ∧ behind (.winWr tag mpa mask line) (.wr tag.toNat mpa.toNat mask.toNat line)) ∧
  (∀ (tag : BitVec 12) (mpa : BitVec 48) (bytes : BitVec 7) (s : State), s.yUp = true → s.yosal.winq = [] →
    s.winWaits (.rd tag.toNat mpa.toNat bytes.toNat) = false → let a := mpa.toNat; let n := bytes.toNat
    let zero := List.replicate 64 (0 : Byte)
    let says' := fun (u t : State) (status : Nat) (data : List Byte) =>
      t.yosal = { u.yosal with tx := u.yosal.tx ++ [⟨0x23, tag.toNat, a, status, 0, 0, 0, data⟩] }
    let only := fun (u t : State) => { t with yosal := u.yosal } = u ∧ BytesKept u t (fun _ => False)
    let unmapped := fun (t : State) => says' s t 0x02 zero ∧ Raised s t 16 0x02 5 0 a ∧
      { t with fields := s.fields, events := s.events, yosal := s.yosal } = s ∧ BytesKept s t (fun _ => False) ∧ Kept s t lostKey
    let opened := s.pins.stHold = false ∧ s.rd Reg.YEP_WIN.EN ≠ 0
    (s.pins.stHold = false → s.rd Reg.YEP_WIN.EN = 0 → ∃ t, exec (.winRd tag mpa bytes) s = .next t ∧ says' s t 0x02 zero ∧ only s t) ∧
    (s.pins.stHold = true → (a < 0x200000E00000 ∨ 0x200000E01000 ≤ a) → ∃ t, exec (.winRd tag mpa bytes) s = .next t ∧ unmapped t) ∧
    (opened → n ≠ 0 → 64 < a % 64 + n ∨ s.reach a = .nothing ∨ (s.reach a = .csr ∧ (n ≠ 8 ∨ a % 8 ≠ 0)) →
      ∃ t, exec (.winRd tag mpa bytes) s = .next t ∧ unmapped t) ∧
    (opened → n = 8 → a % 8 = 0 → s.reach a = .csr →
      (s.csrStatus a = 0 → ∃ t, exec (.winRd tag mpa bytes) s = .next t ∧ says' (s.afterRead a) t 0 (inLine a (leBytes 8 (s.readReg a))) ∧ only (s.afterRead a) t) ∧
      (s.csrStatus a ≠ 0 → ∃ t, exec (.winRd tag mpa bytes) s = .next t ∧ says' s t (s.csrStatus a) zero ∧ only s t)) ∧
    (∀ core off, opened → n ≠ 0 → a % 64 + n ≤ 64 → s.reach a = .scratchpad core off →
      (s.fallow core = true → ∃ t, exec (.winRd tag mpa bytes) s = .next t ∧ says' s t 0x21 zero ∧ only s t) ∧
      (s.fallow core = false → s.rd Reg.HND_STAT.HALTED core = 0 ∨ s.rd Reg.SP_STAT.LOCKED core = 1 ∨ s.rd Reg.SP_STAT.WIPE_BUSY core = 1 →
        ∃ t, exec (.winRd tag mpa bytes) s = .next t ∧ says' s t 0x43 zero ∧ Raised s t ((s.enclOfCore core).getD 16) 0x43 0 core (off + 2 * 2 ^ 18) ∧
          { t with fields := s.fields, events := s.events, yosal := s.yosal } = s) ∧
      (s.fallow core = false → s.rd Reg.HND_STAT.HALTED core = 1 → s.rd Reg.SP_STAT.LOCKED core = 0 → s.rd Reg.SP_STAT.WIPE_BUSY core = 0 →
        (∀ k < n, s.wordErr core (s.codeWord core (off + k)) = 0) → ∃ t, exec (.winRd tag mpa bytes) s = .next t ∧
          says' s t 0 (inLine a (s.spBytes core off n)) ∧ only s t)) ∧
    ∀ tb off, opened → n ≠ 0 → a % 64 + n ≤ 64 → s.reach a = .slow tb off →
      (s.slowStatus tb off false = 0 → (s.dramRead tb off n).2 = ⟨0, []⟩ → ∃ t, exec (.winRd tag mpa bytes) s = .next t ∧
        says' s t 0 (inLine a (s.dramRead tb off n).1) ∧ { t with yosal := s.yosal, tabkos := s.tabkos } = s ∧ BytesKept s t (fun _ => False)) ∧
      (s.slowStatus tb off false = 0x66 → ∃ t, exec (.winRd tag mpa bytes) s = .next t ∧ says' s t 0x66 zero ∧ only s t) ∧
      (s.slowStatus tb off false = 0x67 → ∃ t, exec (.winRd tag mpa bytes) s = .next t ∧ says' s t 0x67 zero ∧ Raised s t 16 0x67 2 tb a)) ∧
  (∀ (tag : BitVec 12) (mpa : BitVec 48) (mask : Word) (line : List Byte) (s : State), s.yUp = true → s.yosal.winq = [] →
    s.winWaits (.wr tag.toNat mpa.toNat mask.toNat line) = false → let a := mpa.toNat; let base := a / 64 * 64
    let says' := fun (t : State) (status : Nat) => t.yosal = { s.yosal with tx := s.yosal.tx ++ [⟨0x24, tag.toNat, a, status, 0, 0, 0, []⟩] }
    let opened := s.pins.stHold = false ∧ s.rd Reg.YEP_WIN.EN ≠ 0
    let lowest := fun (k : Nat) => k < 64 ∧ mask.getLsbD k = true ∧ ∀ q < k, mask.getLsbD q = false
    (s.pins.stHold = false → s.rd Reg.YEP_WIN.EN = 0 → ∃ t, exec (.winWr tag mpa mask line) s = .next t ∧ says' t 0x02 ∧
      { t with yosal := s.yosal } = s ∧ BytesKept s t (fun _ => False)) ∧
    (opened → ∀ k, lowest k → s.reach (base + k) = .csr → k % 8 = 0 → (∀ q < 64, mask.getLsbD q = true ↔ k ≤ q ∧ q < k + 8) → s.csrStatus (base + k) = 0 →
      ∃ t, exec (.winWr tag mpa mask line) s = .next t ∧
        t = ({ s with yosal := { s.yosal with tx := s.yosal.tx ++ [⟨0x24, tag.toNat, a, 0, 0, 0, 0, []⟩] } } : State).regWrite .companion (base + k)
          (leNat ((List.range 8).map (fun q => line.getD (k + q) 0)))) ∧
    (opened → ∀ k core off, lowest k → s.reach (base + k) = .scratchpad core off → s.fallow core = false →
      (s.rd Reg.HND_STAT.HALTED core = 0 → ∃ t, exec (.winWr tag mpa mask line) s = .next t ∧ says' t 0x43 ∧ t.mem = s.mem ∧
        Raised s t ((s.enclOfCore core).getD 16) 0x43 0 core (off + 2 * 2 ^ 18)) ∧
      (s.rd Reg.HND_STAT.HALTED core = 1 → s.rd Reg.SP_STAT.LOCKED core = 0 → s.rd Reg.SP_STAT.WIPE_BUSY core = 0 →
        (∀ q < 64, s.wordErr core (s.codeWord core (off - k + q)) = 0) → ∃ t, exec (.winWr tag mpa mask line) s = .next t ∧ says' t 0 ∧
          (∀ q < 64, mask.getLsbD q = true → t.byte (spAddr core (off - k + q)) = line.getD q 0) ∧
          BytesKept s t (fun x => ∃ q < 64, mask.getLsbD q = true ∧ x = spAddr core (off - k + q)) ∧
          { t with mem := s.mem, errs := s.errs, yosal := s.yosal } = s) ∧
      (s.rd Reg.HND_STAT.HALTED core = 1 → s.rd Reg.SP_STAT.LOCKED core = 0 → s.rd Reg.SP_STAT.WIPE_BUSY core = 0 →
        s.lostWords core ((maskedBytes mask.toNat line).map (fun p => off - k + p.1)) true ≠ [] → ∃ t, exec (.winWr tag mpa mask line) s = .next t ∧
          says' t 0x42 ∧ t.mem = s.mem)) ∧
    (opened → ∀ k tb off, lowest k → s.reach (base + k) = .slow tb off →
      (s.slowStatus tb off true = 0x66 → ∃ t, exec (.winWr tag mpa mask line) s = .next t ∧ says' t 0x66 ∧ t.mem = s.mem) ∧
      (s.slowStatus tb off true = 0 → (s.dramRead tb (off - k) 64).2.bad = [] → ∃ t, exec (.winWr tag mpa mask line) s = .next t ∧ says' t 0 ∧
        (∀ q < 64, t.byte (base + q) = if mask.getLsbD q then line.getD q 0 else ((s.dramRead tb (off - k) 64).1[q]?).getD 0) ∧
        BytesKept s t (fun x => base ≤ x ∧ x < base + 64)))) ∧
  (∀ (pec : Bool) (code : Byte) (s : State),
    let on := s.stRuns = true ∧ s.rd Reg.BOOT_STAT.PHASE ≠ 0 ∧ s.lc ≠ 4
    let a := leBytes 1 (s.trust.smbAddr % 128 * 2)
    let only := fun (t : State) => { t with readData := s.readData, trust := s.trust } = s ∧ BytesKept s t (fun _ => False)
    let nack := fun (t : State) => t.readData = [] ∧ t.trust = { s.trust with smbAck := false } ∧ only t
    let copy := fun (f : Fld) (j : Nat) => leBytes 8 (s.readReg (f.addr 0 j))
    let served := fun (i : Instr) (code : Nat) (bs : List Byte) => let body := leBytes 1 bs.length ++ bs
      (on → ∃ t, exec i s = .next t ∧ only t ∧ t.trust = { s.trust with smbAck := true } ∧ t.readData = body ++
        (if pec then [pecOf (a ++ leBytes 1 code ++ leBytes 1 (s.trust.smbAddr % 128 * 2 + 1) ++ body)] else [])) ∧
      (¬on → ∃ t, exec i s = .next t ∧ nack t)
    served (.ident pec) 1 (copy Reg.BOOT_ID.SERIAL 0 ++ copy Reg.BOOT_VER.VERSION 0) ∧ served (.boot pec) 2 (copy Reg.BOOT_STAT.PHASE 0) ∧
    served (.power pec) 3 (copy Reg.PWR_METER.WATTS 0) ∧ served (.studs pec) 4 ((List.range 4).flatMap (fun k => leBytes 2 ((s.power.studs[k]?).getD 0))) ∧
    served (.trip pec) 5 (copy Reg.PWR_TRIP.CAUSE 0) ∧
    served (.domains pec) 6 ((List.range 19).flatMap (fun d => leBytes 2 (s.readReg (Reg.PWR_DOM.CUR.addr 0 d)))) ∧
    served (.holdtemp pec) 7 ((List.range 16).flatMap (fun h => leBytes 1 (if s.holdPresent h then s.rd Reg.PWR_HOLD.TJ_MAX 0 h else 0))) ∧
    served (.dramtemp pec) 8 ((List.range 48).flatMap (fun k => leBytes 1 (if s.tabkoPresent k then max (s.rd Reg.TBK_TEMP.PKG0 k) (s.rd Reg.TBK_TEMP.PKG1 k) else 0))) ∧
    served (.opttemp pec) 9 ((List.range 16).flatMap (fun p => leBytes 1 (if s.portPresent p then s.rd Reg.BLN_OPTICS.TEMP p else 0))) ∧
    served (.ledger pec) 10 ((List.range 24).flatMap (fun j => leBytes 8 (s.rd Reg.LED_CNT.BLOCK 0 j))) ∧
    ((code.toNat = 0 ∨ 10 < code.toNat) → served (.smbOtherCommand code pec) code.toNat []) ∧
    (1 ≤ code.toNat → code.toNat ≤ 10 → exec (.smbOtherCommand code pec) s = .next s) ∧ (∃ t, exec (.smbWrite code) s = .next t ∧ nack t) ∧
    (let alert := s.rd Reg.PWR_TRIP.VALID = 1 ∨ s.pins.stHold = true
     (on → alert → ∃ t, exec (.alertResponse pec) s = .next t ∧ only t ∧ t.trust = { s.trust with smbAck := true } ∧
       t.readData = a ++ (if pec then [pecOf (leBytes 1 0x19 ++ a)] else [])) ∧
     (¬(on ∧ alert) → ∃ t, exec (.alertResponse pec) s = .next t ∧ nack t)) ∧
    (∃ t, exec .idcode s = .next t ∧ t.readData = leBytes 4 0x1A9ED56B ∧ t.trust = { s.trust with tapBypass := false } ∧ only t) ∧
    (∃ t, exec .bypass s = .next t ∧ t.readData = [] ∧ t.trust = { s.trust with tapBypass := true } ∧ only t) ∧
    ∃ t, exec .tapReset s = .next t ∧ t.readData = s.readData ∧ t.trust = { s.trust with tapBypass := false } ∧ only t)

/-! ### The whole block: words, memory, completion, reset -/

/-- Every command ends in a next state, whatever the state and the operands: no fault and no refusal (what the module does
with a command whose condition fails is said by the command's own statement; log entry 37). -/
def Obligations.EveryCommandEndsInANextState : Prop :=
  ∀ (i : Instr) (s : State), ∃ t, exec i s = .next t

/-- R97, R101, R49-R52, R157, R204, R237: every word that a core issues reads back as the command that issues it, with every
field at every value; and a word reads back as a command only if it is that command's word. -/
def Obligations.CoreWordsReadBack : Prop :=
  (∀ (i : Instr) (core : CoreId) (sub : Fin 8) (word : Word), i.wellFormed = true → wordOf i = some (core, sub, word) →
    coreWord core sub word = some i) ∧
  (∀ (core : CoreId) (sub : Fin 8) (word : Word) (i : Instr), coreWord core sub word = some i →
    i.wellFormed = true ∧ ∃ sub' : Fin 8, (sub' = sub ∨ sub' = 0) ∧ wordOf i = some (core, sub', word))

/-- Instruction words that the spec writes out: the first AMMA of chapter 02 (FMTA and FMTB 0x2, HA 4, HB 5, ZERO, 16 tiles),
VPERM v4, v1, v2 of chapter 04, the FINJ of chapter 06 (FMT 0x2, LANE 1, HS 8, HB 9, 16 tiles), the DARM of chapter 08 (D 1,
HS 12) and the HALT word of R257's code store. -/
def Obligations.WordsOfTheSpec : Prop :=
  ∀ core : CoreId,
  coreWord core 0 0x2122215002000000#64 = some (.amma core
    { fmta := 2, fmtb := 2, ha := 4, hb := 5, bin := 0, zero := 1, ta := 0, tb := 0, srca := 0, srcb := 0, tiles := 16, rsv := 0 }) ∧
  coreWord core 0 0x1504408800000000#64 = some (.vperm core
    { ty := 2, vd := 4, vs1 := 1, vs2 := 2, vs3 := 0, bc := 0, imm := 0, rsv := 0 }) ∧
  coreWord core 3 0x4129090200000000#64 = some (.finj core
    { fmt := 2, lane := 1, trans := 0, hs := 8, hb := 9, tiles := 16, rsv := 0 } 3) ∧
  coreWord core 0 0x3158000000000000#64 = some (.darm core { d := 1, hs := 12, mode := 0, rsv := 0 }) ∧
  coreWord core 0 0x07F0000000000000#64 = some (.halt core 0x07F0000000000000#64) ∧
  coreWord core 0 0xF000000000000000#64 = some (.halt core 0xF000000000000000#64)

/-- Every step keeps the one form in which the scratchpads and the slow tier are held: addresses strictly rising, no byte
listed that an unlisted address would read as. So equal memories are equal data after any run. -/
def Obligations.EveryStepKeepsTheMemoryForm : Prop :=
  ∀ s t : State, Memory.wf s.mem → step s = .next t → Memory.wf t.mem

/-- Memory right after reset lists nothing and has that form; every byte reads as 0 (the model's choice, log entry 4). -/
def Obligations.MemoryAtReset : Prop :=
  Memory.wf State.reset.mem ∧ ∀ a, State.reset.byte a = 0

/-- A reset of domain ST: ALM_TICK counts from zero (R226); every gate is CLOSED with epoch 0 and SIZE 0 (R129); both bins of
every core hold +0 and have the float type (R43); the hands are halted; and the registers whose tables give a value other
than zero hold it (R70, R117, R193, R241, R281, R306, R399, R429, R476). -/
def Obligations.ValuesAtReset : Prop :=
  State.reset.pending = [] ∧ State.reset.now = 0 ∧
  (∀ core g : Nat, State.reset.gateOpen core g = false ∧ State.reset.rd Reg.GATE_EPOCH.EPOCH core g = 0 ∧
    State.reset.rd Reg.GATE_WIN.SIZE core g = 0) ∧
  (∀ core b k : Nat, State.reset.binCell core b k = 0 ∧ State.reset.binInt core b = false) ∧
  (∀ core : Nat, State.reset.rd Reg.HND_STAT.HALTED core = 1 ∧ State.reset.rd Reg.ARR_STAT.COLD core = 1 ∧
    State.reset.rd Reg.ARR_CHK.LOC_ROW core = 31 ∧ State.reset.rd Reg.ARR_CHK.LOC_COL core = 31) ∧
  (∀ c : Nat, State.reset.rd Reg.MESH_CTL.MCAST_HOLD c = 64 ∧
    (∀ f ∈ [Reg.HL_SLACK.S_N, Reg.HL_SLACK.S_E, Reg.HL_SLACK.S_S, Reg.HL_SLACK.S_W], State.reset.rd f c = 1) ∧
    State.reset.rd Reg.TBK_WHEEL.SHARE_FREE c = 60 ∧ State.reset.rd Reg.TBK_TEMP.LIMIT c = 95) ∧
  State.reset.rd Reg.REEVE_ID.MAJOR = 1 ∧ State.reset.rd Reg.REEVE_ID.TARGET = 1 ∧ State.reset.rd Reg.YEP_ID.VERSION = 1 ∧
  State.reset.rd Reg.PWR_LIMIT.TJ_TRIP = 110 ∧ State.reset.rd Reg.PWR_LIMIT.DRAM_TRIP = 105 ∧
  State.reset.rd Reg.PWR_LIMIT.OPT_TRIP = 80 ∧ State.reset.rd Reg.PWR_LIMIT.HOLD_ITRIP = 2400 ∧
  State.reset.rd Reg.PWR_LIMIT.IN_ITRIP = 650 ∧ State.reset.rd Reg.PWR_LIMIT.PAIR_ITRIP = 170 ∧
  State.reset.rd Reg.GNT_STAT.FAILS = 8 ∧ State.reset.rd Reg.BIST_SLICE.EN = 1 ∧ State.reset.rd Reg.BIST_SLICE.PERIOD = 64
end

