-- ==== Sys2Proof/Laws/Store.lean ====
section
/-! SUPPORT. Laws of sparse stores and of memory: what a read after a write gives, and that every operation keeps rising keys and the
canonical form of memory. -/

namespace Sys2Proof.Machine

variable {α : Type}

/-! ### Reads after writes -/

/-- A key put holds the value put. -/
@[simp] theorem Store.get_put_same (l : List (Nat × α)) (k : Nat) (v : α) : Store.get (Store.put l k v) k = some v := by
  induction l with
  | nil => simp [Store.put, Store.get]
  | cons p t ih =>
    obtain ⟨a, x⟩ := p
    simp only [Store.put]
    split
    · simp [Store.get]
    · split
      · simp [Store.get]
      · simp [Store.get, *]

/-- The other keys hold what they held. -/
theorem Store.get_put_other (l : List (Nat × α)) (k : Nat) (v : α) {j : Nat} (h : j ≠ k) : Store.get (Store.put l k v) j = Store.get l j := by
  induction l with
  | nil => simp [Store.put, Store.get, h]
  | cons p t ih =>
    obtain ⟨a, x⟩ := p
    simp only [Store.put]
    split
    · simp [Store.get, h]
    · split
      · next e => subst e; simp [Store.get, h]
      · simp [Store.get, ih]

/-- A key erased holds nothing. -/
@[simp] theorem Store.get_erase_same (l : List (Nat × α)) (k : Nat) : Store.get (Store.erase l k) k = none := by
  induction l with
  | nil => rfl
  | cons p t ih =>
    obtain ⟨a, x⟩ := p
    simp only [Store.erase, List.filter_cons] at *
    split
    · next e => simp only [Store.get, ih]; simp at e; rw [if_neg (fun h => e h.symm)]
    · exact ih

/-- Erasing one key leaves the others. -/
theorem Store.get_erase_other (l : List (Nat × α)) (k : Nat) {j : Nat} (h : j ≠ k) : Store.get (Store.erase l k) j = Store.get l j := by
  induction l with
  | nil => rfl
  | cons p t ih =>
    obtain ⟨a, x⟩ := p
    simp only [Store.erase, List.filter_cons] at *
    split
    · simp only [Store.get, ih]
    · next e => simp at e; subst e; simp only [Store.get, ih, if_neg h]

/-- Inside the range erased nothing is left; outside it everything is. -/
theorem Store.get_eraseRange (l : List (Nat × α)) (lo hi j : Nat) :
    Store.get (Store.eraseRange l lo hi) j = if lo ≤ j ∧ j < hi then none else Store.get l j := by
  induction l with
  | nil => simp [Store.eraseRange, Store.get]
  | cons p t ih =>
    obtain ⟨a, x⟩ := p
    simp only [Store.eraseRange, List.filter_cons] at *
    split
    · next e =>
      simp at e
      simp only [Store.get, ih]
      by_cases h : j = a
      · subst h; rw [if_pos rfl, if_pos rfl, if_neg (by omega)]
      · simp [h]
    · next e =>
      simp at e
      simp only [Store.get, ih]
      by_cases h : j = a
      · subst h; rw [if_pos (by omega), if_pos (by omega)]
      · simp [h]

@[simp] theorem Store.getD_put_same (l : List (Nat × α)) (k : Nat) (v d : α) : Store.getD (Store.put l k v) k d = v := by
  simp [Store.getD]
theorem Store.getD_put_other (l : List (Nat × α)) (k : Nat) (v d : α) {j : Nat} (h : j ≠ k) :
    Store.getD (Store.put l k v) j d = Store.getD l j d := by
  simp [Store.getD, Store.get_put_other l k v h]

/-! ### Rising keys -/

/-- A bound below every key of a list bounds every key after a put. -/
theorem Store.put_lower (l : List (Nat × α)) (k : Nat) (v : α) {b : Nat} (hk : b < k) (h : ∀ p ∈ l, b < p.1) :
    ∀ p ∈ Store.put l k v, b < p.1 := by
  induction l with
  | nil => intro p hp; simp [Store.put] at hp; subst hp; exact hk
  | cons q t ih =>
    obtain ⟨a, x⟩ := q
    intro p hp
    simp only [Store.put] at hp
    split at hp
    · rcases List.mem_cons.mp hp with rfl | hp
      · exact hk
      · exact h p hp
    · split at hp
      · rcases List.mem_cons.mp hp with rfl | hp
        · exact hk
        · exact h p (List.mem_cons_of_mem _ hp)
      · rcases List.mem_cons.mp hp with rfl | hp
        · exact h _ List.mem_cons_self
        · exact ih (fun q hq => h q (List.mem_cons_of_mem _ hq)) p hp

/-- A put keeps the keys rising. -/
theorem Store.put_sorted (l : List (Nat × α)) (k : Nat) (v : α) (h : Store.sorted l) : Store.sorted (Store.put l k v) := by
  induction l with
  | nil => simp [Store.put, Store.sorted]
  | cons q t ih =>
    obtain ⟨a, x⟩ := q
    have h' := List.pairwise_cons.mp h
    simp only [Store.put]
    split
    · next e =>
      refine List.pairwise_cons.mpr ⟨fun p hp => ?_, h⟩
      rcases List.mem_cons.mp hp with rfl | hp
      · exact e
      · exact Nat.lt_trans e (h'.1 p hp)
    · split
      · next e => subst e; exact List.pairwise_cons.mpr ⟨h'.1, h'.2⟩
      · exact List.pairwise_cons.mpr ⟨Store.put_lower t k v (by omega) h'.1, ih h'.2⟩
/-- Erasing keeps the keys rising. -/
theorem Store.erase_sorted (l : List (Nat × α)) (k : Nat) (h : Store.sorted l) : Store.sorted (Store.erase l k) := List.Pairwise.filter _ h
theorem Store.eraseRange_sorted (l : List (Nat × α)) (lo hi : Nat) (h : Store.sorted l) : Store.sorted (Store.eraseRange l lo hi) :=
  List.Pairwise.filter _ h
/-- What a put leaves is the entry put or an entry that was there. -/
theorem Store.mem_put (l : List (Nat × α)) (k : Nat) (v : α) : ∀ p ∈ Store.put l k v, p = (k, v) ∨ p ∈ l := by
  induction l with
  | nil => intro p hp; simp [Store.put] at hp; exact .inl hp
  | cons q t ih =>
    obtain ⟨a, x⟩ := q
    intro p hp
    simp only [Store.put] at hp
    split at hp
    · exact (List.mem_cons.mp hp).imp id id
    · split at hp
      · exact (List.mem_cons.mp hp).imp id (List.mem_cons_of_mem _)
      · rcases List.mem_cons.mp hp with rfl | hp
        · exact .inr List.mem_cons_self
        · exact (ih p hp).imp id (List.mem_cons_of_mem _)

/-! ### Memory -/

/-- The byte written is the byte read. -/
@[simp] theorem Memory.read_write_same (m : List Host.Cell) (a : Nat) (b : Byte) : Memory.read (Memory.write m a b) a = b := by
  unfold Memory.read Memory.write Store.getD
  split
  · next e => simp [e]
  · simp
/-- The other bytes read as before. -/
theorem Memory.read_write_other (m : List Host.Cell) (a : Nat) (b : Byte) {c : Nat} (h : c ≠ a) :
    Memory.read (Memory.write m a b) c = Memory.read m c := by
  unfold Memory.read Memory.write Store.getD
  split
  · rw [Store.get_erase_other m a h]
  · rw [Store.get_put_other m a b h]
/-- A write keeps the canonical form. -/
theorem Memory.write_wf (m : List Host.Cell) (a : Nat) (b : Byte) (h : Memory.wf m) : Memory.wf (Memory.write m a b) := by
  unfold Memory.write
  split
  · exact ⟨Store.erase_sorted m a h.1, fun p hp => h.2 p (List.mem_filter.mp hp).1⟩
  · next e =>
    refine ⟨Store.put_sorted m a b h.1, fun p hp => ?_⟩
    rcases Store.mem_put m a b p hp with rfl | hp
    · exact e
    · exact h.2 p hp
/-- A write of a run of bytes keeps the canonical form. -/
theorem Memory.writeList_wf (bs : List Byte) : ∀ (m : List Host.Cell) (a : Nat), Memory.wf m → Memory.wf (Memory.writeList m a bs) := by
  induction bs with
  | nil => exact fun m _ h => h
  | cons b t ih => exact fun m a h => ih _ _ (Memory.write_wf m a b h)
/-- A wipe keeps the canonical form. -/
theorem Memory.eraseRange_wf (m : List Host.Cell) (lo hi : Nat) (h : Memory.wf m) : Memory.wf (Store.eraseRange m lo hi) :=
  ⟨Store.eraseRange_sorted m lo hi h.1, fun p hp => h.2 p (List.mem_filter.mp hp).1⟩
/-- Outside a run written the bytes read as before. -/
theorem Memory.read_writeList_outside (bs : List Byte) : ∀ (m : List Host.Cell) (a c : Nat), c < a ∨ a + bs.length ≤ c →
    Memory.read (Memory.writeList m a bs) c = Memory.read m c := by
  induction bs with
  | nil => exact fun m a c _ => rfl
  | cons b t ih =>
    intro m a c h
    simp only [List.length_cons] at h
    exact (ih _ _ _ (by omega)).trans (Memory.read_write_other m a b (by omega))
/-- Inside a run written each byte reads as written. -/
theorem Memory.read_writeList_inside (bs : List Byte) : ∀ (m : List Host.Cell) (a k : Nat) (h : k < bs.length),
    Memory.read (Memory.writeList m a bs) (a + k) = bs[k] := by
  induction bs with
  | nil => exact fun m a k h => absurd h (Nat.not_lt_zero k)
  | cons b t ih =>
    intro m a k h
    cases k with
    | zero => exact (Memory.read_writeList_outside t _ _ _ (by omega)).trans (Memory.read_write_same m a b)
    | succ n =>
      have := ih (Memory.write m a b) (a + 1) n (by simpa using h)
      rw [show a + (n + 1) = a + 1 + n by omega]
      simpa [Memory.writeList] using this

end Sys2Proof.Machine
end

