-- ==== Sys2Proof/Laws/State.lean ====
section
/-! SUPPORT. What each update of a component of the state leaves unchanged, field by field, and what it puts there. -/

namespace Sys2Proof.Machine

/-! ### wr -/

@[simp] theorem State.wr_stagedF (s : State) (f : Fld) (v i j : Nat) : (s.wr f v i j).stagedF = s.stagedF := rfl
@[simp] theorem State.wr_mem (s : State) (f : Fld) (v i j : Nat) : (s.wr f v i j).mem = s.mem := rfl
@[simp] theorem State.wr_errs (s : State) (f : Fld) (v i j : Nat) : (s.wr f v i j).errs = s.errs := rfl
@[simp] theorem State.wr_slowErrs (s : State) (f : Fld) (v i j : Nat) : (s.wr f v i j).slowErrs = s.slowErrs := rfl
@[simp] theorem State.wr_vregs (s : State) (f : Fld) (v i j : Nat) : (s.wr f v i j).vregs = s.vregs := rfl
@[simp] theorem State.wr_bins (s : State) (f : Fld) (v i j : Nat) : (s.wr f v i j).bins = s.bins := rfl
@[simp] theorem State.wr_code (s : State) (f : Fld) (v i j : Nat) : (s.wr f v i j).code = s.code := rfl
@[simp] theorem State.wr_cores (s : State) (f : Fld) (v i j : Nat) : (s.wr f v i j).cores = s.cores := rfl
@[simp] theorem State.wr_crofts (s : State) (f : Fld) (v i j : Nat) : (s.wr f v i j).crofts = s.crofts := rfl
@[simp] theorem State.wr_segs (s : State) (f : Fld) (v i j : Nat) : (s.wr f v i j).segs = s.segs := rfl
@[simp] theorem State.wr_inq (s : State) (f : Fld) (v i j : Nat) : (s.wr f v i j).inq = s.inq := rfl
@[simp] theorem State.wr_ejq (s : State) (f : Fld) (v i j : Nat) : (s.wr f v i j).ejq = s.ejq := rfl
@[simp] theorem State.wr_hlq (s : State) (f : Fld) (v i j : Nat) : (s.wr f v i j).hlq = s.hlq := rfl
@[simp] theorem State.wr_credits (s : State) (f : Fld) (v i j : Nat) : (s.wr f v i j).credits = s.credits := rfl
@[simp] theorem State.wr_compQ (s : State) (f : Fld) (v i j : Nat) : (s.wr f v i j).compQ = s.compQ := rfl
@[simp] theorem State.wr_refPhase (s : State) (f : Fld) (v i j : Nat) : (s.wr f v i j).refPhase = s.refPhase := rfl
@[simp] theorem State.wr_refLoss (s : State) (f : Fld) (v i j : Nat) : (s.wr f v i j).refLoss = s.refLoss := rfl
@[simp] theorem State.wr_tabkos (s : State) (f : Fld) (v i j : Nat) : (s.wr f v i j).tabkos = s.tabkos := rfl
@[simp] theorem State.wr_encls (s : State) (f : Fld) (v i j : Nat) : (s.wr f v i j).encls = s.encls := rfl
@[simp] theorem State.wr_floors (s : State) (f : Fld) (v i j : Nat) : (s.wr f v i j).floors = s.floors := rfl
@[simp] theorem State.wr_ports (s : State) (f : Fld) (v i j : Nat) : (s.wr f v i j).ports = s.ports := rfl
@[simp] theorem State.wr_yosal (s : State) (f : Fld) (v i j : Nat) : (s.wr f v i j).yosal = s.yosal := rfl
@[simp] theorem State.wr_yoke (s : State) (f : Fld) (v i j : Nat) : (s.wr f v i j).yoke = s.yoke := rfl
@[simp] theorem State.wr_power (s : State) (f : Fld) (v i j : Nat) : (s.wr f v i j).power = s.power := rfl
@[simp] theorem State.wr_bellAt (s : State) (f : Fld) (v i j : Nat) : (s.wr f v i j).bellAt = s.bellAt := rfl
@[simp] theorem State.wr_otp (s : State) (f : Fld) (v i j : Nat) : (s.wr f v i j).otp = s.otp := rfl
@[simp] theorem State.wr_flash (s : State) (f : Fld) (v i j : Nat) : (s.wr f v i j).flash = s.flash := rfl
@[simp] theorem State.wr_trust (s : State) (f : Fld) (v i j : Nat) : (s.wr f v i j).trust = s.trust := rfl
@[simp] theorem State.wr_pins (s : State) (f : Fld) (v i j : Nat) : (s.wr f v i j).pins = s.pins := rfl
@[simp] theorem State.wr_bist (s : State) (f : Fld) (v i j : Nat) : (s.wr f v i j).bist = s.bist := rfl
@[simp] theorem State.wr_cvus (s : State) (f : Fld) (v i j : Nat) : (s.wr f v i j).cvus = s.cvus := rfl
@[simp] theorem State.wr_epochs (s : State) (f : Fld) (v i j : Nat) : (s.wr f v i j).epochs = s.epochs := rfl
@[simp] theorem State.wr_events (s : State) (f : Fld) (v i j : Nat) : (s.wr f v i j).events = s.events := rfl
@[simp] theorem State.wr_readData (s : State) (f : Fld) (v i j : Nat) : (s.wr f v i j).readData = s.readData := rfl
@[simp] theorem State.wr_freeIx (s : State) (f : Fld) (v i j : Nat) : (s.wr f v i j).freeIx = s.freeIx := rfl
@[simp] theorem State.wr_pending (s : State) (f : Fld) (v i j : Nat) : (s.wr f v i j).pending = s.pending := rfl

/-! ### setCore -/

@[simp] theorem State.setCore_fields (s : State) (c : Nat) (x : CoreX) : (s.setCore c x).fields = s.fields := rfl
@[simp] theorem State.setCore_stagedF (s : State) (c : Nat) (x : CoreX) : (s.setCore c x).stagedF = s.stagedF := rfl
@[simp] theorem State.setCore_mem (s : State) (c : Nat) (x : CoreX) : (s.setCore c x).mem = s.mem := rfl
@[simp] theorem State.setCore_errs (s : State) (c : Nat) (x : CoreX) : (s.setCore c x).errs = s.errs := rfl
@[simp] theorem State.setCore_slowErrs (s : State) (c : Nat) (x : CoreX) : (s.setCore c x).slowErrs = s.slowErrs := rfl
@[simp] theorem State.setCore_vregs (s : State) (c : Nat) (x : CoreX) : (s.setCore c x).vregs = s.vregs := rfl
@[simp] theorem State.setCore_bins (s : State) (c : Nat) (x : CoreX) : (s.setCore c x).bins = s.bins := rfl
@[simp] theorem State.setCore_code (s : State) (c : Nat) (x : CoreX) : (s.setCore c x).code = s.code := rfl
@[simp] theorem State.setCore_crofts (s : State) (c : Nat) (x : CoreX) : (s.setCore c x).crofts = s.crofts := rfl
@[simp] theorem State.setCore_segs (s : State) (c : Nat) (x : CoreX) : (s.setCore c x).segs = s.segs := rfl
@[simp] theorem State.setCore_inq (s : State) (c : Nat) (x : CoreX) : (s.setCore c x).inq = s.inq := rfl
@[simp] theorem State.setCore_ejq (s : State) (c : Nat) (x : CoreX) : (s.setCore c x).ejq = s.ejq := rfl
@[simp] theorem State.setCore_hlq (s : State) (c : Nat) (x : CoreX) : (s.setCore c x).hlq = s.hlq := rfl
@[simp] theorem State.setCore_credits (s : State) (c : Nat) (x : CoreX) : (s.setCore c x).credits = s.credits := rfl
@[simp] theorem State.setCore_compQ (s : State) (c : Nat) (x : CoreX) : (s.setCore c x).compQ = s.compQ := rfl
@[simp] theorem State.setCore_refPhase (s : State) (c : Nat) (x : CoreX) : (s.setCore c x).refPhase = s.refPhase := rfl
@[simp] theorem State.setCore_refLoss (s : State) (c : Nat) (x : CoreX) : (s.setCore c x).refLoss = s.refLoss := rfl
@[simp] theorem State.setCore_tabkos (s : State) (c : Nat) (x : CoreX) : (s.setCore c x).tabkos = s.tabkos := rfl
@[simp] theorem State.setCore_encls (s : State) (c : Nat) (x : CoreX) : (s.setCore c x).encls = s.encls := rfl
@[simp] theorem State.setCore_floors (s : State) (c : Nat) (x : CoreX) : (s.setCore c x).floors = s.floors := rfl
@[simp] theorem State.setCore_ports (s : State) (c : Nat) (x : CoreX) : (s.setCore c x).ports = s.ports := rfl
@[simp] theorem State.setCore_yosal (s : State) (c : Nat) (x : CoreX) : (s.setCore c x).yosal = s.yosal := rfl
@[simp] theorem State.setCore_yoke (s : State) (c : Nat) (x : CoreX) : (s.setCore c x).yoke = s.yoke := rfl
@[simp] theorem State.setCore_power (s : State) (c : Nat) (x : CoreX) : (s.setCore c x).power = s.power := rfl
@[simp] theorem State.setCore_bellAt (s : State) (c : Nat) (x : CoreX) : (s.setCore c x).bellAt = s.bellAt := rfl
@[simp] theorem State.setCore_otp (s : State) (c : Nat) (x : CoreX) : (s.setCore c x).otp = s.otp := rfl
@[simp] theorem State.setCore_flash (s : State) (c : Nat) (x : CoreX) : (s.setCore c x).flash = s.flash := rfl
@[simp] theorem State.setCore_trust (s : State) (c : Nat) (x : CoreX) : (s.setCore c x).trust = s.trust := rfl
@[simp] theorem State.setCore_pins (s : State) (c : Nat) (x : CoreX) : (s.setCore c x).pins = s.pins := rfl
@[simp] theorem State.setCore_bist (s : State) (c : Nat) (x : CoreX) : (s.setCore c x).bist = s.bist := rfl
@[simp] theorem State.setCore_cvus (s : State) (c : Nat) (x : CoreX) : (s.setCore c x).cvus = s.cvus := rfl
@[simp] theorem State.setCore_epochs (s : State) (c : Nat) (x : CoreX) : (s.setCore c x).epochs = s.epochs := rfl
@[simp] theorem State.setCore_events (s : State) (c : Nat) (x : CoreX) : (s.setCore c x).events = s.events := rfl
@[simp] theorem State.setCore_readData (s : State) (c : Nat) (x : CoreX) : (s.setCore c x).readData = s.readData := rfl
@[simp] theorem State.setCore_freeIx (s : State) (c : Nat) (x : CoreX) : (s.setCore c x).freeIx = s.freeIx := rfl
@[simp] theorem State.setCore_pending (s : State) (c : Nat) (x : CoreX) : (s.setCore c x).pending = s.pending := rfl

/-! ### setCroft -/

@[simp] theorem State.setCroft_fields (s : State) (c : Nat) (x : CroftX) : (s.setCroft c x).fields = s.fields := rfl
@[simp] theorem State.setCroft_stagedF (s : State) (c : Nat) (x : CroftX) : (s.setCroft c x).stagedF = s.stagedF := rfl
@[simp] theorem State.setCroft_mem (s : State) (c : Nat) (x : CroftX) : (s.setCroft c x).mem = s.mem := rfl
@[simp] theorem State.setCroft_errs (s : State) (c : Nat) (x : CroftX) : (s.setCroft c x).errs = s.errs := rfl
@[simp] theorem State.setCroft_slowErrs (s : State) (c : Nat) (x : CroftX) : (s.setCroft c x).slowErrs = s.slowErrs := rfl
@[simp] theorem State.setCroft_vregs (s : State) (c : Nat) (x : CroftX) : (s.setCroft c x).vregs = s.vregs := rfl
@[simp] theorem State.setCroft_bins (s : State) (c : Nat) (x : CroftX) : (s.setCroft c x).bins = s.bins := rfl
@[simp] theorem State.setCroft_code (s : State) (c : Nat) (x : CroftX) : (s.setCroft c x).code = s.code := rfl
@[simp] theorem State.setCroft_cores (s : State) (c : Nat) (x : CroftX) : (s.setCroft c x).cores = s.cores := rfl
@[simp] theorem State.setCroft_segs (s : State) (c : Nat) (x : CroftX) : (s.setCroft c x).segs = s.segs := rfl
@[simp] theorem State.setCroft_inq (s : State) (c : Nat) (x : CroftX) : (s.setCroft c x).inq = s.inq := rfl
@[simp] theorem State.setCroft_ejq (s : State) (c : Nat) (x : CroftX) : (s.setCroft c x).ejq = s.ejq := rfl
@[simp] theorem State.setCroft_hlq (s : State) (c : Nat) (x : CroftX) : (s.setCroft c x).hlq = s.hlq := rfl
@[simp] theorem State.setCroft_credits (s : State) (c : Nat) (x : CroftX) : (s.setCroft c x).credits = s.credits := rfl
@[simp] theorem State.setCroft_compQ (s : State) (c : Nat) (x : CroftX) : (s.setCroft c x).compQ = s.compQ := rfl
@[simp] theorem State.setCroft_refPhase (s : State) (c : Nat) (x : CroftX) : (s.setCroft c x).refPhase = s.refPhase := rfl
@[simp] theorem State.setCroft_refLoss (s : State) (c : Nat) (x : CroftX) : (s.setCroft c x).refLoss = s.refLoss := rfl
@[simp] theorem State.setCroft_tabkos (s : State) (c : Nat) (x : CroftX) : (s.setCroft c x).tabkos = s.tabkos := rfl
@[simp] theorem State.setCroft_encls (s : State) (c : Nat) (x : CroftX) : (s.setCroft c x).encls = s.encls := rfl
@[simp] theorem State.setCroft_floors (s : State) (c : Nat) (x : CroftX) : (s.setCroft c x).floors = s.floors := rfl
@[simp] theorem State.setCroft_ports (s : State) (c : Nat) (x : CroftX) : (s.setCroft c x).ports = s.ports := rfl
@[simp] theorem State.setCroft_yosal (s : State) (c : Nat) (x : CroftX) : (s.setCroft c x).yosal = s.yosal := rfl
@[simp] theorem State.setCroft_yoke (s : State) (c : Nat) (x : CroftX) : (s.setCroft c x).yoke = s.yoke := rfl
@[simp] theorem State.setCroft_power (s : State) (c : Nat) (x : CroftX) : (s.setCroft c x).power = s.power := rfl
@[simp] theorem State.setCroft_bellAt (s : State) (c : Nat) (x : CroftX) : (s.setCroft c x).bellAt = s.bellAt := rfl
@[simp] theorem State.setCroft_otp (s : State) (c : Nat) (x : CroftX) : (s.setCroft c x).otp = s.otp := rfl
@[simp] theorem State.setCroft_flash (s : State) (c : Nat) (x : CroftX) : (s.setCroft c x).flash = s.flash := rfl
@[simp] theorem State.setCroft_trust (s : State) (c : Nat) (x : CroftX) : (s.setCroft c x).trust = s.trust := rfl
@[simp] theorem State.setCroft_pins (s : State) (c : Nat) (x : CroftX) : (s.setCroft c x).pins = s.pins := rfl
@[simp] theorem State.setCroft_bist (s : State) (c : Nat) (x : CroftX) : (s.setCroft c x).bist = s.bist := rfl
@[simp] theorem State.setCroft_cvus (s : State) (c : Nat) (x : CroftX) : (s.setCroft c x).cvus = s.cvus := rfl
@[simp] theorem State.setCroft_epochs (s : State) (c : Nat) (x : CroftX) : (s.setCroft c x).epochs = s.epochs := rfl
@[simp] theorem State.setCroft_events (s : State) (c : Nat) (x : CroftX) : (s.setCroft c x).events = s.events := rfl
@[simp] theorem State.setCroft_readData (s : State) (c : Nat) (x : CroftX) : (s.setCroft c x).readData = s.readData := rfl
@[simp] theorem State.setCroft_freeIx (s : State) (c : Nat) (x : CroftX) : (s.setCroft c x).freeIx = s.freeIx := rfl
@[simp] theorem State.setCroft_pending (s : State) (c : Nat) (x : CroftX) : (s.setCroft c x).pending = s.pending := rfl

/-! ### setSeg -/

@[simp] theorem State.setSeg_fields (s : State) (g : Nat) (x : SegX) : (s.setSeg g x).fields = s.fields := rfl
@[simp] theorem State.setSeg_stagedF (s : State) (g : Nat) (x : SegX) : (s.setSeg g x).stagedF = s.stagedF := rfl
@[simp] theorem State.setSeg_mem (s : State) (g : Nat) (x : SegX) : (s.setSeg g x).mem = s.mem := rfl
@[simp] theorem State.setSeg_errs (s : State) (g : Nat) (x : SegX) : (s.setSeg g x).errs = s.errs := rfl
@[simp] theorem State.setSeg_slowErrs (s : State) (g : Nat) (x : SegX) : (s.setSeg g x).slowErrs = s.slowErrs := rfl
@[simp] theorem State.setSeg_vregs (s : State) (g : Nat) (x : SegX) : (s.setSeg g x).vregs = s.vregs := rfl
@[simp] theorem State.setSeg_bins (s : State) (g : Nat) (x : SegX) : (s.setSeg g x).bins = s.bins := rfl
@[simp] theorem State.setSeg_code (s : State) (g : Nat) (x : SegX) : (s.setSeg g x).code = s.code := rfl
@[simp] theorem State.setSeg_cores (s : State) (g : Nat) (x : SegX) : (s.setSeg g x).cores = s.cores := rfl
@[simp] theorem State.setSeg_crofts (s : State) (g : Nat) (x : SegX) : (s.setSeg g x).crofts = s.crofts := rfl
@[simp] theorem State.setSeg_inq (s : State) (g : Nat) (x : SegX) : (s.setSeg g x).inq = s.inq := rfl
@[simp] theorem State.setSeg_ejq (s : State) (g : Nat) (x : SegX) : (s.setSeg g x).ejq = s.ejq := rfl
@[simp] theorem State.setSeg_hlq (s : State) (g : Nat) (x : SegX) : (s.setSeg g x).hlq = s.hlq := rfl
@[simp] theorem State.setSeg_credits (s : State) (g : Nat) (x : SegX) : (s.setSeg g x).credits = s.credits := rfl
@[simp] theorem State.setSeg_compQ (s : State) (g : Nat) (x : SegX) : (s.setSeg g x).compQ = s.compQ := rfl
@[simp] theorem State.setSeg_refPhase (s : State) (g : Nat) (x : SegX) : (s.setSeg g x).refPhase = s.refPhase := rfl
@[simp] theorem State.setSeg_refLoss (s : State) (g : Nat) (x : SegX) : (s.setSeg g x).refLoss = s.refLoss := rfl
@[simp] theorem State.setSeg_tabkos (s : State) (g : Nat) (x : SegX) : (s.setSeg g x).tabkos = s.tabkos := rfl
@[simp] theorem State.setSeg_encls (s : State) (g : Nat) (x : SegX) : (s.setSeg g x).encls = s.encls := rfl
@[simp] theorem State.setSeg_floors (s : State) (g : Nat) (x : SegX) : (s.setSeg g x).floors = s.floors := rfl
@[simp] theorem State.setSeg_ports (s : State) (g : Nat) (x : SegX) : (s.setSeg g x).ports = s.ports := rfl
@[simp] theorem State.setSeg_yosal (s : State) (g : Nat) (x : SegX) : (s.setSeg g x).yosal = s.yosal := rfl
@[simp] theorem State.setSeg_yoke (s : State) (g : Nat) (x : SegX) : (s.setSeg g x).yoke = s.yoke := rfl
@[simp] theorem State.setSeg_power (s : State) (g : Nat) (x : SegX) : (s.setSeg g x).power = s.power := rfl
@[simp] theorem State.setSeg_bellAt (s : State) (g : Nat) (x : SegX) : (s.setSeg g x).bellAt = s.bellAt := rfl
@[simp] theorem State.setSeg_otp (s : State) (g : Nat) (x : SegX) : (s.setSeg g x).otp = s.otp := rfl
@[simp] theorem State.setSeg_flash (s : State) (g : Nat) (x : SegX) : (s.setSeg g x).flash = s.flash := rfl
@[simp] theorem State.setSeg_trust (s : State) (g : Nat) (x : SegX) : (s.setSeg g x).trust = s.trust := rfl
@[simp] theorem State.setSeg_pins (s : State) (g : Nat) (x : SegX) : (s.setSeg g x).pins = s.pins := rfl
@[simp] theorem State.setSeg_bist (s : State) (g : Nat) (x : SegX) : (s.setSeg g x).bist = s.bist := rfl
@[simp] theorem State.setSeg_cvus (s : State) (g : Nat) (x : SegX) : (s.setSeg g x).cvus = s.cvus := rfl
@[simp] theorem State.setSeg_epochs (s : State) (g : Nat) (x : SegX) : (s.setSeg g x).epochs = s.epochs := rfl
@[simp] theorem State.setSeg_events (s : State) (g : Nat) (x : SegX) : (s.setSeg g x).events = s.events := rfl
@[simp] theorem State.setSeg_readData (s : State) (g : Nat) (x : SegX) : (s.setSeg g x).readData = s.readData := rfl
@[simp] theorem State.setSeg_freeIx (s : State) (g : Nat) (x : SegX) : (s.setSeg g x).freeIx = s.freeIx := rfl
@[simp] theorem State.setSeg_pending (s : State) (g : Nat) (x : SegX) : (s.setSeg g x).pending = s.pending := rfl

/-! ### setEncl -/

@[simp] theorem State.setEncl_fields (s : State) (n : Nat) (x : EnclX) : (s.setEncl n x).fields = s.fields := rfl
@[simp] theorem State.setEncl_stagedF (s : State) (n : Nat) (x : EnclX) : (s.setEncl n x).stagedF = s.stagedF := rfl
@[simp] theorem State.setEncl_mem (s : State) (n : Nat) (x : EnclX) : (s.setEncl n x).mem = s.mem := rfl
@[simp] theorem State.setEncl_errs (s : State) (n : Nat) (x : EnclX) : (s.setEncl n x).errs = s.errs := rfl
@[simp] theorem State.setEncl_slowErrs (s : State) (n : Nat) (x : EnclX) : (s.setEncl n x).slowErrs = s.slowErrs := rfl
@[simp] theorem State.setEncl_vregs (s : State) (n : Nat) (x : EnclX) : (s.setEncl n x).vregs = s.vregs := rfl
@[simp] theorem State.setEncl_bins (s : State) (n : Nat) (x : EnclX) : (s.setEncl n x).bins = s.bins := rfl
@[simp] theorem State.setEncl_code (s : State) (n : Nat) (x : EnclX) : (s.setEncl n x).code = s.code := rfl
@[simp] theorem State.setEncl_cores (s : State) (n : Nat) (x : EnclX) : (s.setEncl n x).cores = s.cores := rfl
@[simp] theorem State.setEncl_crofts (s : State) (n : Nat) (x : EnclX) : (s.setEncl n x).crofts = s.crofts := rfl
@[simp] theorem State.setEncl_segs (s : State) (n : Nat) (x : EnclX) : (s.setEncl n x).segs = s.segs := rfl
@[simp] theorem State.setEncl_inq (s : State) (n : Nat) (x : EnclX) : (s.setEncl n x).inq = s.inq := rfl
@[simp] theorem State.setEncl_ejq (s : State) (n : Nat) (x : EnclX) : (s.setEncl n x).ejq = s.ejq := rfl
@[simp] theorem State.setEncl_hlq (s : State) (n : Nat) (x : EnclX) : (s.setEncl n x).hlq = s.hlq := rfl
@[simp] theorem State.setEncl_credits (s : State) (n : Nat) (x : EnclX) : (s.setEncl n x).credits = s.credits := rfl
@[simp] theorem State.setEncl_compQ (s : State) (n : Nat) (x : EnclX) : (s.setEncl n x).compQ = s.compQ := rfl
@[simp] theorem State.setEncl_refPhase (s : State) (n : Nat) (x : EnclX) : (s.setEncl n x).refPhase = s.refPhase := rfl
@[simp] theorem State.setEncl_refLoss (s : State) (n : Nat) (x : EnclX) : (s.setEncl n x).refLoss = s.refLoss := rfl
@[simp] theorem State.setEncl_tabkos (s : State) (n : Nat) (x : EnclX) : (s.setEncl n x).tabkos = s.tabkos := rfl
@[simp] theorem State.setEncl_floors (s : State) (n : Nat) (x : EnclX) : (s.setEncl n x).floors = s.floors := rfl
@[simp] theorem State.setEncl_ports (s : State) (n : Nat) (x : EnclX) : (s.setEncl n x).ports = s.ports := rfl
@[simp] theorem State.setEncl_yosal (s : State) (n : Nat) (x : EnclX) : (s.setEncl n x).yosal = s.yosal := rfl
@[simp] theorem State.setEncl_yoke (s : State) (n : Nat) (x : EnclX) : (s.setEncl n x).yoke = s.yoke := rfl
@[simp] theorem State.setEncl_power (s : State) (n : Nat) (x : EnclX) : (s.setEncl n x).power = s.power := rfl
@[simp] theorem State.setEncl_bellAt (s : State) (n : Nat) (x : EnclX) : (s.setEncl n x).bellAt = s.bellAt := rfl
@[simp] theorem State.setEncl_otp (s : State) (n : Nat) (x : EnclX) : (s.setEncl n x).otp = s.otp := rfl
@[simp] theorem State.setEncl_flash (s : State) (n : Nat) (x : EnclX) : (s.setEncl n x).flash = s.flash := rfl
@[simp] theorem State.setEncl_trust (s : State) (n : Nat) (x : EnclX) : (s.setEncl n x).trust = s.trust := rfl
@[simp] theorem State.setEncl_pins (s : State) (n : Nat) (x : EnclX) : (s.setEncl n x).pins = s.pins := rfl
@[simp] theorem State.setEncl_bist (s : State) (n : Nat) (x : EnclX) : (s.setEncl n x).bist = s.bist := rfl
@[simp] theorem State.setEncl_cvus (s : State) (n : Nat) (x : EnclX) : (s.setEncl n x).cvus = s.cvus := rfl
@[simp] theorem State.setEncl_epochs (s : State) (n : Nat) (x : EnclX) : (s.setEncl n x).epochs = s.epochs := rfl
@[simp] theorem State.setEncl_events (s : State) (n : Nat) (x : EnclX) : (s.setEncl n x).events = s.events := rfl
@[simp] theorem State.setEncl_readData (s : State) (n : Nat) (x : EnclX) : (s.setEncl n x).readData = s.readData := rfl
@[simp] theorem State.setEncl_freeIx (s : State) (n : Nat) (x : EnclX) : (s.setEncl n x).freeIx = s.freeIx := rfl
@[simp] theorem State.setEncl_pending (s : State) (n : Nat) (x : EnclX) : (s.setEncl n x).pending = s.pending := rfl

/-! ### setV -/

@[simp] theorem State.setV_fields (s : State) (c r : Nat) (x : VWord) : (s.setV c r x).fields = s.fields := rfl
@[simp] theorem State.setV_stagedF (s : State) (c r : Nat) (x : VWord) : (s.setV c r x).stagedF = s.stagedF := rfl
@[simp] theorem State.setV_mem (s : State) (c r : Nat) (x : VWord) : (s.setV c r x).mem = s.mem := rfl
@[simp] theorem State.setV_errs (s : State) (c r : Nat) (x : VWord) : (s.setV c r x).errs = s.errs := rfl
@[simp] theorem State.setV_slowErrs (s : State) (c r : Nat) (x : VWord) : (s.setV c r x).slowErrs = s.slowErrs := rfl
@[simp] theorem State.setV_bins (s : State) (c r : Nat) (x : VWord) : (s.setV c r x).bins = s.bins := rfl
@[simp] theorem State.setV_code (s : State) (c r : Nat) (x : VWord) : (s.setV c r x).code = s.code := rfl
@[simp] theorem State.setV_cores (s : State) (c r : Nat) (x : VWord) : (s.setV c r x).cores = s.cores := rfl
@[simp] theorem State.setV_crofts (s : State) (c r : Nat) (x : VWord) : (s.setV c r x).crofts = s.crofts := rfl
@[simp] theorem State.setV_segs (s : State) (c r : Nat) (x : VWord) : (s.setV c r x).segs = s.segs := rfl
@[simp] theorem State.setV_inq (s : State) (c r : Nat) (x : VWord) : (s.setV c r x).inq = s.inq := rfl
@[simp] theorem State.setV_ejq (s : State) (c r : Nat) (x : VWord) : (s.setV c r x).ejq = s.ejq := rfl
@[simp] theorem State.setV_hlq (s : State) (c r : Nat) (x : VWord) : (s.setV c r x).hlq = s.hlq := rfl
@[simp] theorem State.setV_credits (s : State) (c r : Nat) (x : VWord) : (s.setV c r x).credits = s.credits := rfl
@[simp] theorem State.setV_compQ (s : State) (c r : Nat) (x : VWord) : (s.setV c r x).compQ = s.compQ := rfl
@[simp] theorem State.setV_refPhase (s : State) (c r : Nat) (x : VWord) : (s.setV c r x).refPhase = s.refPhase := rfl
@[simp] theorem State.setV_refLoss (s : State) (c r : Nat) (x : VWord) : (s.setV c r x).refLoss = s.refLoss := rfl
@[simp] theorem State.setV_tabkos (s : State) (c r : Nat) (x : VWord) : (s.setV c r x).tabkos = s.tabkos := rfl
@[simp] theorem State.setV_encls (s : State) (c r : Nat) (x : VWord) : (s.setV c r x).encls = s.encls := rfl
@[simp] theorem State.setV_floors (s : State) (c r : Nat) (x : VWord) : (s.setV c r x).floors = s.floors := rfl
@[simp] theorem State.setV_ports (s : State) (c r : Nat) (x : VWord) : (s.setV c r x).ports = s.ports := rfl
@[simp] theorem State.setV_yosal (s : State) (c r : Nat) (x : VWord) : (s.setV c r x).yosal = s.yosal := rfl
@[simp] theorem State.setV_yoke (s : State) (c r : Nat) (x : VWord) : (s.setV c r x).yoke = s.yoke := rfl
@[simp] theorem State.setV_power (s : State) (c r : Nat) (x : VWord) : (s.setV c r x).power = s.power := rfl
@[simp] theorem State.setV_bellAt (s : State) (c r : Nat) (x : VWord) : (s.setV c r x).bellAt = s.bellAt := rfl
@[simp] theorem State.setV_otp (s : State) (c r : Nat) (x : VWord) : (s.setV c r x).otp = s.otp := rfl
@[simp] theorem State.setV_flash (s : State) (c r : Nat) (x : VWord) : (s.setV c r x).flash = s.flash := rfl
@[simp] theorem State.setV_trust (s : State) (c r : Nat) (x : VWord) : (s.setV c r x).trust = s.trust := rfl
@[simp] theorem State.setV_pins (s : State) (c r : Nat) (x : VWord) : (s.setV c r x).pins = s.pins := rfl
@[simp] theorem State.setV_bist (s : State) (c r : Nat) (x : VWord) : (s.setV c r x).bist = s.bist := rfl
@[simp] theorem State.setV_cvus (s : State) (c r : Nat) (x : VWord) : (s.setV c r x).cvus = s.cvus := rfl
@[simp] theorem State.setV_epochs (s : State) (c r : Nat) (x : VWord) : (s.setV c r x).epochs = s.epochs := rfl
@[simp] theorem State.setV_events (s : State) (c r : Nat) (x : VWord) : (s.setV c r x).events = s.events := rfl
@[simp] theorem State.setV_readData (s : State) (c r : Nat) (x : VWord) : (s.setV c r x).readData = s.readData := rfl
@[simp] theorem State.setV_freeIx (s : State) (c r : Nat) (x : VWord) : (s.setV c r x).freeIx = s.freeIx := rfl
@[simp] theorem State.setV_pending (s : State) (c r : Nat) (x : VWord) : (s.setV c r x).pending = s.pending := rfl

/-! ### setTabko -/

@[simp] theorem State.setTabko_fields (s : State) (n : Nat) (x : TabkoX) : (s.setTabko n x).fields = s.fields := rfl
@[simp] theorem State.setTabko_stagedF (s : State) (n : Nat) (x : TabkoX) : (s.setTabko n x).stagedF = s.stagedF := rfl
@[simp] theorem State.setTabko_mem (s : State) (n : Nat) (x : TabkoX) : (s.setTabko n x).mem = s.mem := rfl
@[simp] theorem State.setTabko_errs (s : State) (n : Nat) (x : TabkoX) : (s.setTabko n x).errs = s.errs := rfl
@[simp] theorem State.setTabko_slowErrs (s : State) (n : Nat) (x : TabkoX) : (s.setTabko n x).slowErrs = s.slowErrs := rfl
@[simp] theorem State.setTabko_vregs (s : State) (n : Nat) (x : TabkoX) : (s.setTabko n x).vregs = s.vregs := rfl
@[simp] theorem State.setTabko_bins (s : State) (n : Nat) (x : TabkoX) : (s.setTabko n x).bins = s.bins := rfl
@[simp] theorem State.setTabko_code (s : State) (n : Nat) (x : TabkoX) : (s.setTabko n x).code = s.code := rfl
@[simp] theorem State.setTabko_cores (s : State) (n : Nat) (x : TabkoX) : (s.setTabko n x).cores = s.cores := rfl
@[simp] theorem State.setTabko_crofts (s : State) (n : Nat) (x : TabkoX) : (s.setTabko n x).crofts = s.crofts := rfl
@[simp] theorem State.setTabko_segs (s : State) (n : Nat) (x : TabkoX) : (s.setTabko n x).segs = s.segs := rfl
@[simp] theorem State.setTabko_inq (s : State) (n : Nat) (x : TabkoX) : (s.setTabko n x).inq = s.inq := rfl
@[simp] theorem State.setTabko_ejq (s : State) (n : Nat) (x : TabkoX) : (s.setTabko n x).ejq = s.ejq := rfl
@[simp] theorem State.setTabko_hlq (s : State) (n : Nat) (x : TabkoX) : (s.setTabko n x).hlq = s.hlq := rfl
@[simp] theorem State.setTabko_credits (s : State) (n : Nat) (x : TabkoX) : (s.setTabko n x).credits = s.credits := rfl
@[simp] theorem State.setTabko_compQ (s : State) (n : Nat) (x : TabkoX) : (s.setTabko n x).compQ = s.compQ := rfl
@[simp] theorem State.setTabko_refPhase (s : State) (n : Nat) (x : TabkoX) : (s.setTabko n x).refPhase = s.refPhase := rfl
@[simp] theorem State.setTabko_refLoss (s : State) (n : Nat) (x : TabkoX) : (s.setTabko n x).refLoss = s.refLoss := rfl
@[simp] theorem State.setTabko_encls (s : State) (n : Nat) (x : TabkoX) : (s.setTabko n x).encls = s.encls := rfl
@[simp] theorem State.setTabko_floors (s : State) (n : Nat) (x : TabkoX) : (s.setTabko n x).floors = s.floors := rfl
@[simp] theorem State.setTabko_ports (s : State) (n : Nat) (x : TabkoX) : (s.setTabko n x).ports = s.ports := rfl
@[simp] theorem State.setTabko_yosal (s : State) (n : Nat) (x : TabkoX) : (s.setTabko n x).yosal = s.yosal := rfl
@[simp] theorem State.setTabko_yoke (s : State) (n : Nat) (x : TabkoX) : (s.setTabko n x).yoke = s.yoke := rfl
@[simp] theorem State.setTabko_power (s : State) (n : Nat) (x : TabkoX) : (s.setTabko n x).power = s.power := rfl
@[simp] theorem State.setTabko_bellAt (s : State) (n : Nat) (x : TabkoX) : (s.setTabko n x).bellAt = s.bellAt := rfl
@[simp] theorem State.setTabko_otp (s : State) (n : Nat) (x : TabkoX) : (s.setTabko n x).otp = s.otp := rfl
@[simp] theorem State.setTabko_flash (s : State) (n : Nat) (x : TabkoX) : (s.setTabko n x).flash = s.flash := rfl
@[simp] theorem State.setTabko_trust (s : State) (n : Nat) (x : TabkoX) : (s.setTabko n x).trust = s.trust := rfl
@[simp] theorem State.setTabko_pins (s : State) (n : Nat) (x : TabkoX) : (s.setTabko n x).pins = s.pins := rfl
@[simp] theorem State.setTabko_bist (s : State) (n : Nat) (x : TabkoX) : (s.setTabko n x).bist = s.bist := rfl
@[simp] theorem State.setTabko_cvus (s : State) (n : Nat) (x : TabkoX) : (s.setTabko n x).cvus = s.cvus := rfl
@[simp] theorem State.setTabko_epochs (s : State) (n : Nat) (x : TabkoX) : (s.setTabko n x).epochs = s.epochs := rfl
@[simp] theorem State.setTabko_events (s : State) (n : Nat) (x : TabkoX) : (s.setTabko n x).events = s.events := rfl
@[simp] theorem State.setTabko_readData (s : State) (n : Nat) (x : TabkoX) : (s.setTabko n x).readData = s.readData := rfl
@[simp] theorem State.setTabko_freeIx (s : State) (n : Nat) (x : TabkoX) : (s.setTabko n x).freeIx = s.freeIx := rfl
@[simp] theorem State.setTabko_pending (s : State) (n : Nat) (x : TabkoX) : (s.setTabko n x).pending = s.pending := rfl

/-! ### setFloor -/

@[simp] theorem State.setFloor_fields (s : State) (n : Nat) (x : FloorX) : (s.setFloor n x).fields = s.fields := rfl
@[simp] theorem State.setFloor_stagedF (s : State) (n : Nat) (x : FloorX) : (s.setFloor n x).stagedF = s.stagedF := rfl
@[simp] theorem State.setFloor_mem (s : State) (n : Nat) (x : FloorX) : (s.setFloor n x).mem = s.mem := rfl
@[simp] theorem State.setFloor_errs (s : State) (n : Nat) (x : FloorX) : (s.setFloor n x).errs = s.errs := rfl
@[simp] theorem State.setFloor_slowErrs (s : State) (n : Nat) (x : FloorX) : (s.setFloor n x).slowErrs = s.slowErrs := rfl
@[simp] theorem State.setFloor_vregs (s : State) (n : Nat) (x : FloorX) : (s.setFloor n x).vregs = s.vregs := rfl
@[simp] theorem State.setFloor_bins (s : State) (n : Nat) (x : FloorX) : (s.setFloor n x).bins = s.bins := rfl
@[simp] theorem State.setFloor_code (s : State) (n : Nat) (x : FloorX) : (s.setFloor n x).code = s.code := rfl
@[simp] theorem State.setFloor_cores (s : State) (n : Nat) (x : FloorX) : (s.setFloor n x).cores = s.cores := rfl
@[simp] theorem State.setFloor_crofts (s : State) (n : Nat) (x : FloorX) : (s.setFloor n x).crofts = s.crofts := rfl
@[simp] theorem State.setFloor_segs (s : State) (n : Nat) (x : FloorX) : (s.setFloor n x).segs = s.segs := rfl
@[simp] theorem State.setFloor_inq (s : State) (n : Nat) (x : FloorX) : (s.setFloor n x).inq = s.inq := rfl
@[simp] theorem State.setFloor_ejq (s : State) (n : Nat) (x : FloorX) : (s.setFloor n x).ejq = s.ejq := rfl
@[simp] theorem State.setFloor_hlq (s : State) (n : Nat) (x : FloorX) : (s.setFloor n x).hlq = s.hlq := rfl
@[simp] theorem State.setFloor_credits (s : State) (n : Nat) (x : FloorX) : (s.setFloor n x).credits = s.credits := rfl
@[simp] theorem State.setFloor_compQ (s : State) (n : Nat) (x : FloorX) : (s.setFloor n x).compQ = s.compQ := rfl
@[simp] theorem State.setFloor_refPhase (s : State) (n : Nat) (x : FloorX) : (s.setFloor n x).refPhase = s.refPhase := rfl
@[simp] theorem State.setFloor_refLoss (s : State) (n : Nat) (x : FloorX) : (s.setFloor n x).refLoss = s.refLoss := rfl
@[simp] theorem State.setFloor_tabkos (s : State) (n : Nat) (x : FloorX) : (s.setFloor n x).tabkos = s.tabkos := rfl
@[simp] theorem State.setFloor_encls (s : State) (n : Nat) (x : FloorX) : (s.setFloor n x).encls = s.encls := rfl
@[simp] theorem State.setFloor_ports (s : State) (n : Nat) (x : FloorX) : (s.setFloor n x).ports = s.ports := rfl
@[simp] theorem State.setFloor_yosal (s : State) (n : Nat) (x : FloorX) : (s.setFloor n x).yosal = s.yosal := rfl
@[simp] theorem State.setFloor_yoke (s : State) (n : Nat) (x : FloorX) : (s.setFloor n x).yoke = s.yoke := rfl
@[simp] theorem State.setFloor_power (s : State) (n : Nat) (x : FloorX) : (s.setFloor n x).power = s.power := rfl
@[simp] theorem State.setFloor_bellAt (s : State) (n : Nat) (x : FloorX) : (s.setFloor n x).bellAt = s.bellAt := rfl
@[simp] theorem State.setFloor_otp (s : State) (n : Nat) (x : FloorX) : (s.setFloor n x).otp = s.otp := rfl
@[simp] theorem State.setFloor_flash (s : State) (n : Nat) (x : FloorX) : (s.setFloor n x).flash = s.flash := rfl
@[simp] theorem State.setFloor_trust (s : State) (n : Nat) (x : FloorX) : (s.setFloor n x).trust = s.trust := rfl
@[simp] theorem State.setFloor_pins (s : State) (n : Nat) (x : FloorX) : (s.setFloor n x).pins = s.pins := rfl
@[simp] theorem State.setFloor_bist (s : State) (n : Nat) (x : FloorX) : (s.setFloor n x).bist = s.bist := rfl
@[simp] theorem State.setFloor_cvus (s : State) (n : Nat) (x : FloorX) : (s.setFloor n x).cvus = s.cvus := rfl
@[simp] theorem State.setFloor_epochs (s : State) (n : Nat) (x : FloorX) : (s.setFloor n x).epochs = s.epochs := rfl
@[simp] theorem State.setFloor_events (s : State) (n : Nat) (x : FloorX) : (s.setFloor n x).events = s.events := rfl
@[simp] theorem State.setFloor_readData (s : State) (n : Nat) (x : FloorX) : (s.setFloor n x).readData = s.readData := rfl
@[simp] theorem State.setFloor_freeIx (s : State) (n : Nat) (x : FloorX) : (s.setFloor n x).freeIx = s.freeIx := rfl
@[simp] theorem State.setFloor_pending (s : State) (n : Nat) (x : FloorX) : (s.setFloor n x).pending = s.pending := rfl

/-! ### setPort -/

@[simp] theorem State.setPort_fields (s : State) (n : Nat) (x : PortX) : (s.setPort n x).fields = s.fields := rfl
@[simp] theorem State.setPort_stagedF (s : State) (n : Nat) (x : PortX) : (s.setPort n x).stagedF = s.stagedF := rfl
@[simp] theorem State.setPort_mem (s : State) (n : Nat) (x : PortX) : (s.setPort n x).mem = s.mem := rfl
@[simp] theorem State.setPort_errs (s : State) (n : Nat) (x : PortX) : (s.setPort n x).errs = s.errs := rfl
@[simp] theorem State.setPort_slowErrs (s : State) (n : Nat) (x : PortX) : (s.setPort n x).slowErrs = s.slowErrs := rfl
@[simp] theorem State.setPort_vregs (s : State) (n : Nat) (x : PortX) : (s.setPort n x).vregs = s.vregs := rfl
@[simp] theorem State.setPort_bins (s : State) (n : Nat) (x : PortX) : (s.setPort n x).bins = s.bins := rfl
@[simp] theorem State.setPort_code (s : State) (n : Nat) (x : PortX) : (s.setPort n x).code = s.code := rfl
@[simp] theorem State.setPort_cores (s : State) (n : Nat) (x : PortX) : (s.setPort n x).cores = s.cores := rfl
@[simp] theorem State.setPort_crofts (s : State) (n : Nat) (x : PortX) : (s.setPort n x).crofts = s.crofts := rfl
@[simp] theorem State.setPort_segs (s : State) (n : Nat) (x : PortX) : (s.setPort n x).segs = s.segs := rfl
@[simp] theorem State.setPort_inq (s : State) (n : Nat) (x : PortX) : (s.setPort n x).inq = s.inq := rfl
@[simp] theorem State.setPort_ejq (s : State) (n : Nat) (x : PortX) : (s.setPort n x).ejq = s.ejq := rfl
@[simp] theorem State.setPort_hlq (s : State) (n : Nat) (x : PortX) : (s.setPort n x).hlq = s.hlq := rfl
@[simp] theorem State.setPort_credits (s : State) (n : Nat) (x : PortX) : (s.setPort n x).credits = s.credits := rfl
@[simp] theorem State.setPort_compQ (s : State) (n : Nat) (x : PortX) : (s.setPort n x).compQ = s.compQ := rfl
@[simp] theorem State.setPort_refPhase (s : State) (n : Nat) (x : PortX) : (s.setPort n x).refPhase = s.refPhase := rfl
@[simp] theorem State.setPort_refLoss (s : State) (n : Nat) (x : PortX) : (s.setPort n x).refLoss = s.refLoss := rfl
@[simp] theorem State.setPort_tabkos (s : State) (n : Nat) (x : PortX) : (s.setPort n x).tabkos = s.tabkos := rfl
@[simp] theorem State.setPort_encls (s : State) (n : Nat) (x : PortX) : (s.setPort n x).encls = s.encls := rfl
@[simp] theorem State.setPort_floors (s : State) (n : Nat) (x : PortX) : (s.setPort n x).floors = s.floors := rfl
@[simp] theorem State.setPort_yosal (s : State) (n : Nat) (x : PortX) : (s.setPort n x).yosal = s.yosal := rfl
@[simp] theorem State.setPort_yoke (s : State) (n : Nat) (x : PortX) : (s.setPort n x).yoke = s.yoke := rfl
@[simp] theorem State.setPort_power (s : State) (n : Nat) (x : PortX) : (s.setPort n x).power = s.power := rfl
@[simp] theorem State.setPort_bellAt (s : State) (n : Nat) (x : PortX) : (s.setPort n x).bellAt = s.bellAt := rfl
@[simp] theorem State.setPort_otp (s : State) (n : Nat) (x : PortX) : (s.setPort n x).otp = s.otp := rfl
@[simp] theorem State.setPort_flash (s : State) (n : Nat) (x : PortX) : (s.setPort n x).flash = s.flash := rfl
@[simp] theorem State.setPort_trust (s : State) (n : Nat) (x : PortX) : (s.setPort n x).trust = s.trust := rfl
@[simp] theorem State.setPort_pins (s : State) (n : Nat) (x : PortX) : (s.setPort n x).pins = s.pins := rfl
@[simp] theorem State.setPort_bist (s : State) (n : Nat) (x : PortX) : (s.setPort n x).bist = s.bist := rfl
@[simp] theorem State.setPort_cvus (s : State) (n : Nat) (x : PortX) : (s.setPort n x).cvus = s.cvus := rfl
@[simp] theorem State.setPort_epochs (s : State) (n : Nat) (x : PortX) : (s.setPort n x).epochs = s.epochs := rfl
@[simp] theorem State.setPort_events (s : State) (n : Nat) (x : PortX) : (s.setPort n x).events = s.events := rfl
@[simp] theorem State.setPort_readData (s : State) (n : Nat) (x : PortX) : (s.setPort n x).readData = s.readData := rfl
@[simp] theorem State.setPort_freeIx (s : State) (n : Nat) (x : PortX) : (s.setPort n x).freeIx = s.freeIx := rfl
@[simp] theorem State.setPort_pending (s : State) (n : Nat) (x : PortX) : (s.setPort n x).pending = s.pending := rfl

/-! ### setYosal -/

@[simp] theorem State.setYosal_fields (s : State) (x : YosalX) : (s.setYosal x).fields = s.fields := rfl
@[simp] theorem State.setYosal_stagedF (s : State) (x : YosalX) : (s.setYosal x).stagedF = s.stagedF := rfl
@[simp] theorem State.setYosal_mem (s : State) (x : YosalX) : (s.setYosal x).mem = s.mem := rfl
@[simp] theorem State.setYosal_errs (s : State) (x : YosalX) : (s.setYosal x).errs = s.errs := rfl
@[simp] theorem State.setYosal_slowErrs (s : State) (x : YosalX) : (s.setYosal x).slowErrs = s.slowErrs := rfl
@[simp] theorem State.setYosal_vregs (s : State) (x : YosalX) : (s.setYosal x).vregs = s.vregs := rfl
@[simp] theorem State.setYosal_bins (s : State) (x : YosalX) : (s.setYosal x).bins = s.bins := rfl
@[simp] theorem State.setYosal_code (s : State) (x : YosalX) : (s.setYosal x).code = s.code := rfl
@[simp] theorem State.setYosal_cores (s : State) (x : YosalX) : (s.setYosal x).cores = s.cores := rfl
@[simp] theorem State.setYosal_crofts (s : State) (x : YosalX) : (s.setYosal x).crofts = s.crofts := rfl
@[simp] theorem State.setYosal_segs (s : State) (x : YosalX) : (s.setYosal x).segs = s.segs := rfl
@[simp] theorem State.setYosal_inq (s : State) (x : YosalX) : (s.setYosal x).inq = s.inq := rfl
@[simp] theorem State.setYosal_ejq (s : State) (x : YosalX) : (s.setYosal x).ejq = s.ejq := rfl
@[simp] theorem State.setYosal_hlq (s : State) (x : YosalX) : (s.setYosal x).hlq = s.hlq := rfl
@[simp] theorem State.setYosal_credits (s : State) (x : YosalX) : (s.setYosal x).credits = s.credits := rfl
@[simp] theorem State.setYosal_compQ (s : State) (x : YosalX) : (s.setYosal x).compQ = s.compQ := rfl
@[simp] theorem State.setYosal_refPhase (s : State) (x : YosalX) : (s.setYosal x).refPhase = s.refPhase := rfl
@[simp] theorem State.setYosal_refLoss (s : State) (x : YosalX) : (s.setYosal x).refLoss = s.refLoss := rfl
@[simp] theorem State.setYosal_tabkos (s : State) (x : YosalX) : (s.setYosal x).tabkos = s.tabkos := rfl
@[simp] theorem State.setYosal_encls (s : State) (x : YosalX) : (s.setYosal x).encls = s.encls := rfl
@[simp] theorem State.setYosal_floors (s : State) (x : YosalX) : (s.setYosal x).floors = s.floors := rfl
@[simp] theorem State.setYosal_ports (s : State) (x : YosalX) : (s.setYosal x).ports = s.ports := rfl
@[simp] theorem State.setYosal_yoke (s : State) (x : YosalX) : (s.setYosal x).yoke = s.yoke := rfl
@[simp] theorem State.setYosal_power (s : State) (x : YosalX) : (s.setYosal x).power = s.power := rfl
@[simp] theorem State.setYosal_bellAt (s : State) (x : YosalX) : (s.setYosal x).bellAt = s.bellAt := rfl
@[simp] theorem State.setYosal_otp (s : State) (x : YosalX) : (s.setYosal x).otp = s.otp := rfl
@[simp] theorem State.setYosal_flash (s : State) (x : YosalX) : (s.setYosal x).flash = s.flash := rfl
@[simp] theorem State.setYosal_trust (s : State) (x : YosalX) : (s.setYosal x).trust = s.trust := rfl
@[simp] theorem State.setYosal_pins (s : State) (x : YosalX) : (s.setYosal x).pins = s.pins := rfl
@[simp] theorem State.setYosal_bist (s : State) (x : YosalX) : (s.setYosal x).bist = s.bist := rfl
@[simp] theorem State.setYosal_cvus (s : State) (x : YosalX) : (s.setYosal x).cvus = s.cvus := rfl
@[simp] theorem State.setYosal_epochs (s : State) (x : YosalX) : (s.setYosal x).epochs = s.epochs := rfl
@[simp] theorem State.setYosal_events (s : State) (x : YosalX) : (s.setYosal x).events = s.events := rfl
@[simp] theorem State.setYosal_readData (s : State) (x : YosalX) : (s.setYosal x).readData = s.readData := rfl
@[simp] theorem State.setYosal_freeIx (s : State) (x : YosalX) : (s.setYosal x).freeIx = s.freeIx := rfl
@[simp] theorem State.setYosal_pending (s : State) (x : YosalX) : (s.setYosal x).pending = s.pending := rfl

/-! ### unstage -/

@[simp] theorem State.unstage_fields (s : State) (f : Fld) (i j : Nat) : (s.unstage f i j).fields = s.fields := rfl
@[simp] theorem State.unstage_mem (s : State) (f : Fld) (i j : Nat) : (s.unstage f i j).mem = s.mem := rfl
@[simp] theorem State.unstage_errs (s : State) (f : Fld) (i j : Nat) : (s.unstage f i j).errs = s.errs := rfl
@[simp] theorem State.unstage_slowErrs (s : State) (f : Fld) (i j : Nat) : (s.unstage f i j).slowErrs = s.slowErrs := rfl
@[simp] theorem State.unstage_vregs (s : State) (f : Fld) (i j : Nat) : (s.unstage f i j).vregs = s.vregs := rfl
@[simp] theorem State.unstage_bins (s : State) (f : Fld) (i j : Nat) : (s.unstage f i j).bins = s.bins := rfl
@[simp] theorem State.unstage_code (s : State) (f : Fld) (i j : Nat) : (s.unstage f i j).code = s.code := rfl
@[simp] theorem State.unstage_cores (s : State) (f : Fld) (i j : Nat) : (s.unstage f i j).cores = s.cores := rfl
@[simp] theorem State.unstage_crofts (s : State) (f : Fld) (i j : Nat) : (s.unstage f i j).crofts = s.crofts := rfl
@[simp] theorem State.unstage_segs (s : State) (f : Fld) (i j : Nat) : (s.unstage f i j).segs = s.segs := rfl
@[simp] theorem State.unstage_inq (s : State) (f : Fld) (i j : Nat) : (s.unstage f i j).inq = s.inq := rfl
@[simp] theorem State.unstage_ejq (s : State) (f : Fld) (i j : Nat) : (s.unstage f i j).ejq = s.ejq := rfl
@[simp] theorem State.unstage_hlq (s : State) (f : Fld) (i j : Nat) : (s.unstage f i j).hlq = s.hlq := rfl
@[simp] theorem State.unstage_credits (s : State) (f : Fld) (i j : Nat) : (s.unstage f i j).credits = s.credits := rfl
@[simp] theorem State.unstage_compQ (s : State) (f : Fld) (i j : Nat) : (s.unstage f i j).compQ = s.compQ := rfl
@[simp] theorem State.unstage_refPhase (s : State) (f : Fld) (i j : Nat) : (s.unstage f i j).refPhase = s.refPhase := rfl
@[simp] theorem State.unstage_refLoss (s : State) (f : Fld) (i j : Nat) : (s.unstage f i j).refLoss = s.refLoss := rfl
@[simp] theorem State.unstage_tabkos (s : State) (f : Fld) (i j : Nat) : (s.unstage f i j).tabkos = s.tabkos := rfl
@[simp] theorem State.unstage_encls (s : State) (f : Fld) (i j : Nat) : (s.unstage f i j).encls = s.encls := rfl
@[simp] theorem State.unstage_floors (s : State) (f : Fld) (i j : Nat) : (s.unstage f i j).floors = s.floors := rfl
@[simp] theorem State.unstage_ports (s : State) (f : Fld) (i j : Nat) : (s.unstage f i j).ports = s.ports := rfl
@[simp] theorem State.unstage_yosal (s : State) (f : Fld) (i j : Nat) : (s.unstage f i j).yosal = s.yosal := rfl
@[simp] theorem State.unstage_yoke (s : State) (f : Fld) (i j : Nat) : (s.unstage f i j).yoke = s.yoke := rfl
@[simp] theorem State.unstage_power (s : State) (f : Fld) (i j : Nat) : (s.unstage f i j).power = s.power := rfl
@[simp] theorem State.unstage_bellAt (s : State) (f : Fld) (i j : Nat) : (s.unstage f i j).bellAt = s.bellAt := rfl
@[simp] theorem State.unstage_otp (s : State) (f : Fld) (i j : Nat) : (s.unstage f i j).otp = s.otp := rfl
@[simp] theorem State.unstage_flash (s : State) (f : Fld) (i j : Nat) : (s.unstage f i j).flash = s.flash := rfl
@[simp] theorem State.unstage_trust (s : State) (f : Fld) (i j : Nat) : (s.unstage f i j).trust = s.trust := rfl
@[simp] theorem State.unstage_pins (s : State) (f : Fld) (i j : Nat) : (s.unstage f i j).pins = s.pins := rfl
@[simp] theorem State.unstage_bist (s : State) (f : Fld) (i j : Nat) : (s.unstage f i j).bist = s.bist := rfl
@[simp] theorem State.unstage_cvus (s : State) (f : Fld) (i j : Nat) : (s.unstage f i j).cvus = s.cvus := rfl
@[simp] theorem State.unstage_epochs (s : State) (f : Fld) (i j : Nat) : (s.unstage f i j).epochs = s.epochs := rfl
@[simp] theorem State.unstage_events (s : State) (f : Fld) (i j : Nat) : (s.unstage f i j).events = s.events := rfl
@[simp] theorem State.unstage_readData (s : State) (f : Fld) (i j : Nat) : (s.unstage f i j).readData = s.readData := rfl
@[simp] theorem State.unstage_freeIx (s : State) (f : Fld) (i j : Nat) : (s.unstage f i j).freeIx = s.freeIx := rfl
@[simp] theorem State.unstage_pending (s : State) (f : Fld) (i j : Nat) : (s.unstage f i j).pending = s.pending := rfl

/-! ### Changes to a record are puts of it -/

@[simp] theorem State.modCore_def (s : State) (c : Nat) (f : CoreX → CoreX) : s.modCore c f = s.setCore c (f (s.core c)) := rfl
@[simp] theorem State.modCroft_def (s : State) (c : Nat) (f : CroftX → CroftX) : s.modCroft c f = s.setCroft c (f (s.croft c)) := rfl
@[simp] theorem State.modSeg_def (s : State) (g : Nat) (f : SegX → SegX) : s.modSeg g f = s.setSeg g (f (s.seg g)) := rfl
@[simp] theorem State.modEncl_def (s : State) (n : Nat) (f : EnclX → EnclX) : s.modEncl n f = s.setEncl n (f (s.encl n)) := rfl
@[simp] theorem State.modTabko_def (s : State) (t : Nat) (f : TabkoX → TabkoX) : s.modTabko t f = s.setTabko t (f (s.tabko t)) := rfl
@[simp] theorem State.modFloor_def (s : State) (n : Nat) (f : FloorX → FloorX) : s.modFloor n f = s.setFloor n (f (s.floor n)) := rfl
@[simp] theorem State.modPort_def (s : State) (p : Nat) (f : PortX → PortX) : s.modPort p f = s.setPort p (f (s.port p)) := rfl
@[simp] theorem State.modYosal_def (s : State) (f : YosalX → YosalX) : s.modYosal f = s.setYosal (f s.yosal) := rfl

/-! ### What is put is there -/

@[simp] theorem State.core_setCore (s : State) (c : Nat) (x : CoreX) : (s.setCore c x).core c = x := by simp [State.core, State.setCore]
@[simp] theorem State.croft_setCroft (s : State) (c : Nat) (x : CroftX) : (s.setCroft c x).croft c = x := by simp [State.croft, State.setCroft]
@[simp] theorem State.seg_setSeg (s : State) (g : Nat) (x : SegX) : (s.setSeg g x).seg g = x := by simp [State.seg, State.setSeg]
@[simp] theorem State.encl_setEncl (s : State) (n : Nat) (x : EnclX) : (s.setEncl n x).encl n = x := by simp [State.encl, State.setEncl]
@[simp] theorem State.tabko_setTabko (s : State) (n : Nat) (x : TabkoX) : (s.setTabko n x).tabko n = x := by simp [State.tabko, State.setTabko]
@[simp] theorem State.floor_setFloor (s : State) (n : Nat) (x : FloorX) : (s.setFloor n x).floor n = x := by simp [State.floor, State.setFloor]
@[simp] theorem State.port_setPort (s : State) (n : Nat) (x : PortX) : (s.setPort n x).port n = x := by simp [State.port, State.setPort]
@[simp] theorem State.yosal_setYosal (s : State) (x : YosalX) : (s.setYosal x).yosal = x := rfl
theorem State.core_setCore_other (s : State) (c : Nat) (x : CoreX) {d : Nat} (h : d ≠ c) : (s.setCore c x).core d = s.core d := by
  simp [State.core, State.setCore, Store.getD_put_other _ _ _ _ h]

/-! ### Registers -/

/-- A field written holds the value's low bits. -/
@[simp] theorem State.rd_wr_same (s : State) (f : Fld) (v i j : Nat) : (s.wr f v i j).rd f i j = v % 2 ^ f.width := by
  simp [State.rd, State.wr]
/-- A write leaves the field of every other key. -/
theorem State.rd_wr_other (s : State) (f g : Fld) (v i j i' j' : Nat) (h : g.key i' j' ≠ f.key i j) :
    (s.wr f v i j).rd g i' j' = s.rd g i' j' := by
  simp [State.rd, State.wr, Store.getD_put_other _ _ _ _ h]
/-- Reading a register looks at the registers alone. -/
theorem State.rd_congr {s t : State} (h : t.fields = s.fields) (f : Fld) (i j : Nat) : t.rd f i j = s.rd f i j := by
  simp [State.rd, h]
@[simp] theorem State.unstage_rd (s : State) (g f : Fld) (i j i' j' : Nat) : (s.unstage g i' j').rd f i j = s.rd f i j := rfl
@[simp] theorem State.wr_core (s : State) (f : Fld) (v i j c : Nat) : (s.wr f v i j).core c = s.core c := rfl
@[simp] theorem State.wr_byte (s : State) (f : Fld) (v i j a : Nat) : (s.wr f v i j).byte a = s.byte a := rfl
@[simp] theorem State.setCore_rd (s : State) (c : Nat) (x : CoreX) (f : Fld) (i j : Nat) : (s.setCore c x).rd f i j = s.rd f i j := rfl
@[simp] theorem State.setCroft_rd (s : State) (c : Nat) (x : CroftX) (f : Fld) (i j : Nat) : (s.setCroft c x).rd f i j = s.rd f i j := rfl
@[simp] theorem State.setSeg_rd (s : State) (c : Nat) (x : SegX) (f : Fld) (i j : Nat) : (s.setSeg c x).rd f i j = s.rd f i j := rfl
@[simp] theorem State.setEncl_rd (s : State) (c : Nat) (x : EnclX) (f : Fld) (i j : Nat) : (s.setEncl c x).rd f i j = s.rd f i j := rfl
@[simp] theorem State.setV_rd (s : State) (c r : Nat) (x : VWord) (f : Fld) (i j : Nat) : (s.setV c r x).rd f i j = s.rd f i j := rfl
@[simp] theorem State.setTabko_rd (s : State) (c : Nat) (x : TabkoX) (f : Fld) (i j : Nat) : (s.setTabko c x).rd f i j = s.rd f i j := rfl
@[simp] theorem State.setFloor_rd (s : State) (c : Nat) (x : FloorX) (f : Fld) (i j : Nat) : (s.setFloor c x).rd f i j = s.rd f i j := rfl
@[simp] theorem State.setPort_rd (s : State) (c : Nat) (x : PortX) (f : Fld) (i j : Nat) : (s.setPort c x).rd f i j = s.rd f i j := rfl
@[simp] theorem State.setYosal_rd (s : State) (x : YosalX) (f : Fld) (i j : Nat) : (s.setYosal x).rd f i j = s.rd f i j := rfl

end Sys2Proof.Machine
end

