-- ==== Sys2Proof/Laws/Frames.lean ====
section
/-! SUPPORT. How frames compose (`Kept`, `BytesKept`, `OnlyFields` of Safety.lean), and what the hand's shared operations
do: writing hd, moving on to the next word, the two register forms. -/

namespace Sys2Proof.Machine

/-! ### Frames -/

theorem get_wr_other (s : State) (f : Fld) (v i j k : Nat) (h : k ≠ f.key i j) :
    Store.get (s.wr f v i j).fields k = Store.get s.fields k := Store.get_put_other _ _ _ h

theorem Kept.refl (s : State) (P : Nat → Prop) : Kept s s P := fun _ _ => rfl
theorem Kept.trans {s t u : State} {P Q : Nat → Prop} (h : Kept s t P) (g : Kept t u Q) : Kept s u (fun k => P k ∨ Q k) :=
  fun k hk => (g k (fun q => hk (.inr q))).trans (h k (fun p => hk (.inl p)))
theorem Kept.mono {s t : State} {P Q : Nat → Prop} (h : Kept s t P) (g : ∀ k, P k → Q k) : Kept s t Q :=
  fun k hk => h k (fun p => hk (g k p))
theorem Kept.of_fields {s t : State} (h : t.fields = s.fields) (P : Nat → Prop) : Kept s t P := fun k _ => by rw [h]
theorem Kept.wr (s : State) (f : Fld) (v i j : Nat) : Kept s (s.wr f v i j) (fun k => k = f.key i j) :=
  fun k h => get_wr_other s f v i j k h
/-- One more field written. -/
theorem Kept.wr_then {s t : State} {P : Nat → Prop} (h : Kept s t P) (f : Fld) (v i j : Nat) (hp : P (f.key i j)) :
    Kept s (t.wr f v i j) P :=
  fun k hk => (get_wr_other t f v i j k (fun e => hk (e ▸ hp))).trans (h k hk)
/-- A field whose key is not named reads as before. -/
theorem Kept.rd {s t : State} {P : Nat → Prop} (h : Kept s t P) (f : Fld) (i j : Nat) (hk : ¬P (f.key i j)) :
    t.rd f i j = s.rd f i j := by simp [State.rd, Store.getD, h _ hk]

theorem BytesKept.of_mem {s t : State} (h : t.mem = s.mem) (P : Nat → Prop) : BytesKept s t P :=
  fun a _ => by simp [State.byte, h]
theorem BytesKept.trans {s t u : State} {P : Nat → Prop} (h : BytesKept s t P) (g : BytesKept t u P) : BytesKept s u P :=
  fun a ha => (g a ha).trans (h a ha)

theorem OnlyFields.wr (s : State) (f : Fld) (v i j : Nat) : OnlyFields s (s.wr f v i j) [f.key i j] :=
  ⟨rfl, fun k h => get_wr_other _ _ _ _ _ _ (by simpa using h), fun _ _ => rfl⟩
theorem OnlyFields.refl (s : State) (ks : List Nat) : OnlyFields s s ks := ⟨rfl, fun _ _ => rfl, fun _ _ => rfl⟩
theorem OnlyFields.trans {s t u : State} {a b : List Nat} (h : OnlyFields s t a) (g : OnlyFields t u b) :
    OnlyFields s u (a ++ b) := by
  obtain ⟨h1, h2, h3⟩ := h
  obtain ⟨g1, g2, g3⟩ := g
  refine ⟨?_, fun k hk => ?_, fun x hx => ?_⟩
  · rw [← h1, ← g1]
  · simp only [List.mem_append, not_or] at hk; rw [g2 k hk.2, h2 k hk.1]
  · rw [g3 x hx, h3 x hx]
theorem OnlyFields.mono {s t : State} {a b : List Nat} (h : OnlyFields s t a) (g : ∀ k ∈ a, k ∈ b) : OnlyFields s t b :=
  ⟨h.1, fun k hk => h.2.1 k (fun hh => hk (g k hh)), h.2.2⟩
/-- One more field written. -/
theorem OnlyFields.wr_then {s t : State} {ks : List Nat} (h : OnlyFields s t ks) (f : Fld) (v i j : Nat)
    (hp : f.key i j ∈ ks) : OnlyFields s (t.wr f v i j) ks :=
  (h.trans (.wr t f v i j)).mono (by simp only [List.mem_append, List.mem_singleton]; rintro k (h | rfl) <;> assumption)
theorem OnlyFields.rd {s t : State} {ks : List Nat} (h : OnlyFields s t ks) (f : Fld) (i j : Nat) (hk : f.key i j ∉ ks) :
    t.rd f i j = s.rd f i j := Kept.rd h.2.1 f i j hk

/-! ### The hand -/

theorem hreg_ne_zero {r : BitVec 5} (h : r ≠ 0) : r.toNat ≠ 0 :=
  fun e => h (BitVec.eq_of_toNat_eq (by simpa using e))

theorem setH_only (s : State) (core : CoreId) (r : BitVec 5) (v : Word) :
    OnlyFields s (s.setH core.val r.toNat v) (hKeys core r) := by
  unfold State.setH hKeys
  by_cases h : r = 0
  · subst h; exact OnlyFields.refl s _
  · simp only [h, hreg_ne_zero h, if_false]; exact OnlyFields.wr _ _ _ _ _

theorem setH_result (s : State) (core : CoreId) (hd : BitVec 5) (v : Word) :
    HandResult s (s.setH core.val hd.toNat v) core hd v := by
  intro r
  by_cases hr : r = 0
  · subst hr; simp [State.h]
  by_cases hh : hd = 0
  · subst hh; simp [State.setH]
  · by_cases e : r = hd
    · subst e; simp [State.h, State.setH, hreg_ne_zero hr, State.rd_wr_same, Reg.HND_H.VALUE]
      rw [if_neg (by simpa using hr)]; exact BitVec.eq_of_toNat_eq (by simp; exact v.isLt)
    · have : r.toNat ≠ hd.toNat := fun q => e (BitVec.eq_of_toNat_eq q)
      simp only [State.h, State.setH, hreg_ne_zero hr, hreg_ne_zero hh, if_false, e, false_and]
      rw [State.rd_wr_other _ _ _ _ _ _ _ _ (by simp [Fld.key, Fld.addr, Reg.HND_H.VALUE]; omega)]

/-- The hand registers are those after a further change that leaves their fields. -/
theorem HandResult.of_rd {s t u : State} {core : CoreId} {hd : BitVec 5} {v : Word} (h : HandResult s t core hd v)
    (g : ∀ j, u.rd Reg.HND_H.VALUE core.val j = t.rd Reg.HND_H.VALUE core.val j) : HandResult s u core hd v := by
  intro r; rw [← h r]; simp [State.h, g]

theorem setH_pc (s : State) (core : CoreId) (r : BitVec 5) (v : Word) :
    (s.setH core.val r.toNat v).rd Reg.HND_STAT.PC core.val = s.rd Reg.HND_STAT.PC core.val := by
  unfold State.setH; split
  · rfl
  · rw [State.rd_wr_other _ _ _ _ _ _ _ _ (by simp [Fld.key, Fld.addr, Reg.HND_H.VALUE, Reg.HND_STAT.PC]; omega)]

/-- Before the last word the hand just moves on (R115). -/
theorem advance_next (s : State) (core : CoreId) (h : s.rd Reg.HND_STAT.PC core.val < 2047) :
    s.advance core.val = s.wr Reg.HND_STAT.PC (s.rd Reg.HND_STAT.PC core.val + 1) core.val := by
  unfold State.advance; simp; omega

theorem advance_pc (s : State) (core : CoreId) (h : s.rd Reg.HND_STAT.PC core.val < 2047) :
    NextWord s (s.advance core.val) core := by
  rw [advance_next s core h]; simp [NextWord, State.rd_wr_same, Reg.HND_STAT.PC] at *; omega

theorem advance_only (s : State) (core : CoreId) (h : s.rd Reg.HND_STAT.PC core.val < 2047) :
    OnlyFields s (s.advance core.val) [pcKey core] := by
  rw [advance_next s core h]; exact OnlyFields.wr _ _ _ _ _

theorem advance_h (s : State) (core : CoreId) (h : s.rd Reg.HND_STAT.PC core.val < 2047) (j : Nat) :
    (s.advance core.val).rd Reg.HND_H.VALUE core.val j = s.rd Reg.HND_H.VALUE core.val j := by
  rw [advance_next s core h]
  exact State.rd_wr_other _ _ _ _ _ _ _ _ (by simp [Fld.key, Fld.addr, Reg.HND_H.VALUE, Reg.HND_STAT.PC]; omega)

/-- hd written, then the next word. -/
theorem setH_advance {s : State} {core : CoreId} (hr : s.rd Reg.HND_STAT.PC core.val < 2047) (hd : BitVec 5) (v : Word) :
    HandResult s ((s.setH core.val hd.toNat v).advance core.val) core hd v ∧
      NextWord s ((s.setH core.val hd.toNat v).advance core.val) core ∧
      OnlyFields s ((s.setH core.val hd.toNat v).advance core.val) (pcKey core :: hKeys core hd) := by
  have e := setH_pc s core hd v
  have hr' : (s.setH core.val hd.toNat v).rd Reg.HND_STAT.PC core.val < 2047 := by rw [e]; exact hr
  refine ⟨(setH_result s core hd v).of_rd (fun j => advance_h _ core hr' j), ?_, ?_⟩
  · have := advance_pc _ core hr'; unfold NextWord at *; rw [this, e]
  · exact ((setH_only s core hd v).trans (advance_only _ core hr')).mono (by simp; tauto)

/-- A legal instruction of a hand that can issue has its effect. -/
theorem issue_of_ok {s : State} {core : Nat} (h : s.canIssue core = true) (word : Word) (eff : State → State) :
    s.issue core word true eff = eff s := by simp [State.issue, h]
/-- An illegal word of a hand that can issue is discarded (R115). -/
theorem issue_of_not_ok {s : State} {core : Nat} (h : s.canIssue core = true) (word : Word) (eff : State → State) :
    s.issue core word false eff = s.illegal core word.toNat := by simp [State.issue, h]

theorem handRR_spec {op : BitVec 8} {f : Word → Word → Word} {core : CoreId} {w : HandWord} {s : State} (hr : Ready s core)
    (h : w.rsv = 0) :
    ∃ t, handRR op f core w s = .next t ∧
      HandResult s t core w.hd (f (s.h core.val w.hs1.toNat) (s.h core.val w.hs2.toNat)) ∧ NextWord s t core ∧
      OnlyFields s t (pcKey core :: hKeys core w.hd) :=
  ⟨_, rfl, by
    simp only [State.issueNext, State.issue, hr.1, handFields, h]
    exact setH_advance hr.2 _ _⟩

theorem handRI_spec {op : BitVec 8} {f : Word → Word → Word} {core : CoreId} {w : HandWord} {s : State} (hr : Ready s core)
    (h : w.rsv = 0) (h2 : w.hs2 = 0) :
    ∃ t, handRI op f core w s = .next t ∧
      HandResult s t core w.hd (f (s.h core.val w.hs1.toNat) (w.imm.signExtend 64)) ∧ NextWord s t core ∧
      OnlyFields s t (pcKey core :: hKeys core w.hd) :=
  ⟨_, rfl, by
    simp only [State.issueNext, State.issue, hr.1, handFields, h, h2]
    exact setH_advance hr.2 _ _⟩

end Sys2Proof.Machine
end

