-- ==== Sys2Proof/Laws/Sow.lean ====
section
/-! SUPPORT. What phase 10 of sowing can change: register fields, memory and its latent errors, code stores, cores, segments, Tabkos,
enclosures, gate epochs, events, and the position in the sequence of free values; nothing else of the state. -/

namespace Sys2Proof.Machine

/-- Everything a placement does not write is as it was. -/
@[irreducible] def Sown (s t : State) : Prop :=
  { t with
    fields := s.fields, mem := s.mem, errs := s.errs, slowErrs := s.slowErrs, code := s.code, cores := s.cores, segs := s.segs
    tabkos := s.tabkos, encls := s.encls, epochs := s.epochs, events := s.events, freeIx := s.freeIx } = s

theorem Sown.refl (s : State) : Sown s s := by unfold Sown; rfl
theorem Sown.trans {s t u : State} (h : Sown s t) (g : Sown t u) : Sown s u := by
  unfold Sown at *
  rw [← h, ← g]
theorem Sown.ite {s t u : State} {c : Prop} [Decidable c] (h : Sown s t) (g : Sown s u) : Sown s (if c then t else u) := by
  split <;> assumption
theorem Sown.foldl {β : Type} {f : State → β → State} (h : ∀ s x, Sown s (f s x)) (l : List β) (s : State) : Sown s (l.foldl f s) := by
  induction l generalizing s with
  | nil => exact .refl s
  | cons x t ih => exact (h s x).trans (ih (f s x))
theorem Sown.yoke {s t : State} (h : Sown s t) : t.yoke = s.yoke := by
  unfold Sown at h; rw [← h]
theorem Sown.yosal {s t : State} (h : Sown s t) : t.yosal = s.yosal := by
  unfold Sown at h; rw [← h]
theorem Sown.wr (s : State) (f : Fld) (v i j : Nat) : Sown s (s.wr f v i j) := by unfold Sown; rfl
theorem Sown.then_wr {s t : State} (h : Sown s t) (f : Fld) (v i j : Nat) : Sown s (t.wr f v i j) := h.trans (.wr t f v i j)
theorem Sown.modEncl (s : State) (n : Nat) (g : EnclX → EnclX) : Sown s (s.modEncl n g) := by unfold Sown; rfl
theorem Sown.modCore (s : State) (n : Nat) (g : CoreX → CoreX) : Sown s (s.modCore n g) := by unfold Sown; rfl
theorem Sown.setCore (s : State) (n : Nat) (x : CoreX) : Sown s (s.setCore n x) := by unfold Sown; rfl
theorem Sown.spPut (s : State) (core off : Nat) (l : List Byte) : Sown s (s.spPut core off l) := by
  induction l generalizing s off with
  | nil => exact .refl s
  | cons b t ih => exact .trans (by unfold Sown; rfl) (ih _ (off + 1))

theorem Sown.modTabko (s : State) (n : Nat) (g : TabkoX → TabkoX) : Sown s (s.modTabko n g) := by unfold Sown; rfl
theorem Sown.modSeg (s : State) (n : Nat) (g : SegX → SegX) : Sown s (s.modSeg n g) := by unfold Sown; rfl

theorem Sown.setTabko (s : State) (n : Nat) (x : TabkoX) : Sown s (s.setTabko n x) := by unfold Sown; rfl
theorem Sown.setErr (s : State) (core cw e : Nat) : Sown s (s.setErr core cw e) := by unfold Sown; rfl
theorem Sown.incSat (s : State) (f : Fld) (n i j : Nat) : Sown s (s.incSat f n i j) := by unfold Sown; rfl
theorem Sown.incWrap (s : State) (f : Fld) (n i j : Nat) : Sown s (s.incWrap f n i j) := by unfold Sown; rfl
theorem Sown.raiseAt (s : State) (ring code skind unit tick step detail : Nat) :
    Sown s (s.raiseAt ring code skind unit tick step detail) := by
  unfold State.raiseAt
  exact .ite (.incSat s _ _ _ _) (by unfold Sown; rfl)
theorem Sown.raiseCore (s : State) (core code detail : Nat) : Sown s (s.raiseCore core code detail) := .raiseAt ..
theorem Sown.setEpoch (s : State) (core g e : Nat) : Sown s (s.setEpoch core g e) := by unfold Sown; rfl

/-! ### Halts, faults and wipes (R116, R137, R214, R275) -/

theorem drlSync_sown (s : State) (core d : Nat) : Sown s (s.drlSync core d) :=
  ((Sown.wr _ _ _ _ _).then_wr _ _ _ _).then_wr _ _ _ _
theorem setDrill_sown (s : State) (core d : Nat) (x : DrillX) : Sown s (s.setDrill core d x) :=
  (Sown.modCore s core _).trans (drlSync_sown _ core d)
theorem abortDrill_sown (s : State) (core d : Nat) : Sown s (s.abortDrill core d) := by
  unfold State.abortDrill
  exact .then_wr (.then_wr (.trans (.ite (.refl s) (.modCore s core _)) (setDrill_sown _ core d _)) _ _ _ _) _ _ _ _
theorem abortDrills_sown (s : State) (core : Nat) : Sown s (s.abortDrills core) := .foldl (fun t d => abortDrill_sown t core d) _ s
theorem haltCore_sown (s : State) (core cause : Nat) : Sown s (s.haltCore core cause) := by
  have h : Sown s (if s.rd Reg.HND_STAT.HALTED core = 1 then
      if cause = 5 then s.wr Reg.HND_STAT.CAUSE 5 core else s
    else ((s.wr Reg.HND_STAT.HALTED 1 core).wr Reg.HND_STAT.CAUSE cause core).modCore core (fun c =>
      { c with hold := .none, runOff := false })) :=
    .ite (.ite (.wr s _ _ _ _) (.refl s)) (((Sown.wr s _ _ _ _).then_wr _ _ _ _).trans (.modCore _ core _))
  exact .ite h (h.trans (abortDrills_sown _ core))
theorem shiftArr_sown (s : State) (core n : Nat) : Sown s (s.shiftArr core n) := .ite (.refl s) (.setCore s core _)
theorem countHeld_sown (s : State) (core : Nat) : Sown s (s.countHeld core) :=
  .ite (.refl s) ((Sown.incWrap ..).trans (shiftArr_sown ..))
theorem stopSeg_sown (s : State) (g : Nat) : Sown s (s.stopSeg g) := by
  unfold State.stopSeg
  dsimp only
  refine .trans ((Sown.then_wr (.ite (.foldl countHeld_sown _ s) (.refl s)) _ _ _ _).trans (.modSeg _ g _)) (.foldl (fun t c => ?_) _ _)
  have h : Sown t (if t.rd Reg.FUR_STAT.CATCH c = 0 then t else t.wr Reg.FUR_STAT.CATCH 0 c) := .ite (.refl t) (.wr t _ _ _ _)
  exact .ite (h.trans (.modCore _ c _)) h
theorem stopSegsOf_sown (s : State) (n : Nat) : Sown s (s.stopSegsOf n) :=
  .foldl (fun t g => .ite (stopSeg_sown t g) (.refl t)) _ s
theorem faultEncl_sown (s : State) (n code m : Nat) : Sown s (s.faultEncl n code m) := by
  unfold State.faultEncl
  exact .ite (.trans (.trans (.trans (((Sown.wr s _ _ _ _).then_wr _ _ _ _).trans (.modEncl _ n _)) (stopSegsOf_sown _ n)) (.raiseAt ..))
    (.raiseAt ..)) (.refl s)
theorem wipeStart_sown (s : State) (core : Nat) (copy : Bool) : Sown s (s.wipeStart core copy) := by
  unfold State.wipeStart
  refine .then_wr (.then_wr (.then_wr (.trans (.trans (.foldl (fun t g => ?_) _ s) (abortDrills_sown _ core)) (.modCore _ core _)) _ _ _ _) _ _ _ _) _ _ _ _
  exact (Sown.wr t _ _ _ _).trans (.setEpoch ..)
theorem wipeOf_sown (s : State) (n core : Nat) : Sown s (s.wipeOf n core) := .ite (.refl s) (wipeStart_sown s core _)
theorem coreFault_sown (s : State) (core cause code : Nat) : Sown s (s.coreFault core cause code) := by
  unfold State.coreFault
  dsimp only
  split
  · exact .ite (((haltCore_sown s core cause).trans (faultEncl_sown ..)).trans (wipeOf_sown ..))
      ((haltCore_sown s core cause).trans (faultEncl_sown ..))
  · exact haltCore_sown s core cause

/-! ### Scratchpad writes (R123-R126) -/

theorem correctedW_sown (s : State) (core : Nat) : Sown s (s.correctedW core) :=
  .ite (.incSat s _ _ _ _) (((Sown.incSat s _ _ _ _).trans (.modCore _ core _)).trans (.raiseCore ..))
theorem corrected_sown (s : State) (core cw : Nat) : Sown s (s.corrected core cw) :=
  .ite (correctedW_sown s core) (.incSat s _ _ _ _)
theorem uncorrectable_sown (s : State) (core cw slot : Nat) : Sown s (s.uncorrectable core cw slot) := by
  unfold State.uncorrectable
  dsimp only
  have h {v : State} (h : Sown s v) (x : Nat) (o : Option Nat) :
      Sown s (match o with
        | some _ => (v.raiseCore core 0x42 x).coreFault core 6 0x42
        | none => v.raiseCore core 0x42 x) := by
    split
    · exact (h.trans (.raiseCore ..)).trans (coreFault_sown ..)
    · exact h.trans (.raiseCore ..)
  exact h (((((Sown.wr s _ _ _ _).then_wr _ _ _ _).then_wr _ _ _ _)).trans (.incSat ..)) _ _
theorem spWriteAt_sown (s : State) (core slot : Nat) (l : List (Nat × Byte)) : Sown s (s.spWriteAt core slot l) := by
  unfold State.spWriteAt
  refine .foldl (fun t cw => ?_) _ s
  have put (g : List (Nat × Byte)) : Sown t (g.foldl (fun v p => v.spPut core p.1 [p.2]) t) := .foldl (fun v p => .spPut v core _ _) g t
  dsimp only
  exact .ite ((put _).trans (.setErr ..)) (.ite (put _) (.ite (((put _).trans (.setErr ..)).trans (corrected_sown ..)) (uncorrectable_sown ..)))
theorem spWrite_sown (s : State) (core off slot : Nat) (bs : List Byte) : Sown s (s.spWrite core off slot bs) := spWriteAt_sown ..
theorem spFill_sown (s : State) (core off slot : Nat) (bs : List Byte) : Sown s (s.spFill core off slot bs) := by
  unfold State.spFill
  exact .trans (.ite (.refl s) (spWrite_sown ..)) (.foldl (fun t k => spWrite_sown ..) _ _)
theorem reencodeWord_sown (s : State) (core off : Nat) (oldW : Bool) : Sown s (s.reencodeWord core off oldW) := by
  have clear : Sown s ((s.setErr core off 0).setErr core (off + 8) 0) := (Sown.setErr ..).trans (.setErr ..)
  unfold State.reencodeWord
  refine .ite (.refl s) ?_
  refine .ite (.ite (.trans ?_ (uncorrectable_sown ..)) (.trans ?_ (correctedW_sown ..))) (.ite (.trans (.ite (.trans ?_ (uncorrectable_sown ..)) ?_)
    (uncorrectable_sown ..)) (.ite (.trans ?_ (uncorrectable_sown ..)) ?_))
  all_goals first
    | exact .ite (.ite ((clear.trans (.setErr ..)).trans (.setErr ..)) clear) (.ite (clear.trans (.setErr ..)) clear)
    | exact .trans (.ite (.ite ((clear.trans (.setErr ..)).trans (.setErr ..)) clear) (.ite (clear.trans (.setErr ..)) clear)) (.incSat ..)
theorem setClass_sown (s : State) (core mask : Nat) : Sown s (s.setClass core mask) :=
  (Sown.wr s _ _ _ _).trans (.foldl (fun t (p : Nat × Bool) => .foldl (fun u off => reencodeWord_sown u core off p.2) _ t) _ _)

/-! ### Slow-tier reads (R288, R289) -/

theorem ledAdd_sown (s : State) (off w n : Nat) : Sown s (s.ledAdd off w n) :=
  .ite (.wr s _ _ _ _) ((Sown.wr s _ _ _ _).then_wr _ _ _ _)
theorem symbols_sown (s : State) (t n : Nat) : Sown s (s.symbols t n) := by
  have h : Sown s ((s.incWrap Reg.TBK_ECC.CORR n t).countSymbols n) := (Sown.incWrap ..).trans (ledAdd_sown ..)
  unfold State.symbols
  exact .ite (.refl s) (.ite h ((h.trans (.modTabko ..)).trans (.raiseAt ..)))
theorem badBlock_sown (s : State) (t a source : Nat) : Sown s (s.badBlock t a source) := by
  have h : Sown s (((((s.incSat Reg.TBK_ECC.UNCORR 1 t).wr Reg.TBK_ECC_LOC.ADDR a t).wr Reg.TBK_ECC_LOC.CHANNEL (channelOf (a - s.spanBase t)) t).wr
      Reg.TBK_ECC_LOC.SOURCE source t).wr Reg.TBK_ECC_LOC.VALID 1 t) :=
    ((((Sown.incSat ..).then_wr _ _ _ _).then_wr _ _ _ _).then_wr _ _ _ _).then_wr _ _ _ _
  unfold State.badBlock
  dsimp only
  refine .trans ?_ (.raiseAt ..)
  split
  · exact h.trans (.raiseAt ..)
  · exact h
theorem report_sown (s : State) (t source : Nat) (f : Found) : Sown s (s.report t source f) :=
  (symbols_sown s t f.corr).trans (.foldl (fun u a => badBlock_sown u t a source) _ _)
theorem noteReads_sown (s : State) (t : Placed) : Sown s (s.noteReads t) := by
  unfold State.noteReads
  refine .foldl (fun u q => ?_) _ s
  split
  · exact .ite (.refl u) (report_sown ..)
  · exact .refl u

/-! ### The parts of phase 10 -/

theorem setCode_sown (s : State) (core : Nat) (ws : List Nat) : Sown s (s.setCode core ws) := by unfold Sown; rfl
theorem closeGate_sown (s : State) (core g : Nat) : Sown s (s.closeGate core g) := by
  unfold State.closeGate
  exact .ite ((Sown.wr _ _ _ _ _).trans (.setEpoch _ _ _ _)) (.refl s)
theorem openGate_sown (s : State) (core g : Nat) : Sown s (s.openGate core g) := by
  unfold State.openGate
  exact .ite (.refl s) ((Sown.wr _ _ _ _ _).then_wr _ _ _ _)
theorem writeCore_sown (s : State) (p : Plan) (g : GroupE) (core : Nat) : Sown s (s.writeCore p g core) := by
  unfold State.writeCore
  dsimp only
  refine .trans ?_ (.foldl (fun t k => ?_) _ _)
  · refine .trans ?_ (.foldl (fun t (f : Fld × Nat) => .wr t f.1 f.2 core 0) _ _)
    exact ((((setCode_sown _ _ _).then_wr _ _ _ _).trans (setClass_sown _ _ _)).then_wr _ _ _ _).then_wr _ _ _ _
  · split
    · exact ((Sown.wr _ _ _ _ _).then_wr _ _ _ _).then_wr _ _ _ _
    · exact .wr _ _ _ _ _
theorem writeScales_sown (s : State) (p : Plan) (core : Nat) : Sown s (s.writeScales p core) := by
  unfold State.writeScales
  refine .foldl (fun t k => ?_) _ _
  split
  · exact (((Sown.wr _ _ _ _ _).then_wr _ _ _ _).then_wr _ _ _ _).then_wr _ _ _ _
  · exact .wr _ _ _ _ _
theorem writeTrees_sown (s : State) (p : Plan) : Sown s (s.writeTrees p) :=
  .foldl (fun u c => .foldl (fun t _ => spFill_sown t c _ _ _) _ u) _ s
theorem writeSeeds_sown (s : State) (p : Plan) (step : Nat) : Sown s (s.writeSeeds p step) := by
  unfold State.writeSeeds
  refine .foldl (fun t c => ?_) _ _
  dsimp only
  exact .trans ((((Sown.wr _ _ _ _ _).then_wr _ _ _ _).then_wr _ _ _ _).then_wr _ _ _ _) (.foldl (fun v d => .wr v _ 0 c d) _ _)
theorem writeThreads_sown (s : State) (p : Plan) : Sown s (s.writeThreads p) := by
  unfold State.writeThreads
  dsimp only
  exact .trans (.foldl (fun t c => .ite (.modCore t c _) (.refl t)) _ _) (.foldl (fun t (q : Nat × Nat) => .modCore t q.1 _) _ _)
theorem writeWins_sown (s : State) (p : Plan) : Sown s (s.writeWins p) := by
  unfold State.writeWins
  dsimp only
  exact .trans (.foldl (fun t c => .foldl (fun u g => .ite (.refl u) ((closeGate_sown u c g).then_wr _ _ _ _)) _ t) _ _)
    (.foldl (fun t w => (Sown.wr t _ _ _ _).then_wr _ _ _ _) _ _)
theorem advanceEpochs_sown (s : State) (p : Plan) : Sown s (s.advanceEpochs p) := by
  unfold State.advanceEpochs
  exact .foldl (fun t q => .foldl (fun u c => .setEpoch u c _ _) _ t) _ _
theorem openCopies_sown (s : State) (p : Plan) : Sown s (s.openCopies p) := by
  unfold State.openCopies
  exact .foldl (fun t c => openGate_sown t c 7) _ _
theorem writeCrofts_sown (s : State) (p : Plan) : Sown s (s.writeCrofts p) := by
  unfold State.writeCrofts
  dsimp only
  refine .trans (.foldl (fun t q => ?_) _ _) (.foldl (fun t c => ?_) _ _)
  · exact .wr t _ _ _ _
  · exact .wr t _ _ _ _
theorem clearPos_sown (s : State) (g : Nat) : Sown s (s.clearPos g) := by
  unfold State.clearPos
  exact .foldl (fun t c => ((Sown.wr t _ _ _ _).then_wr _ _ _ _).then_wr _ _ _ _) _ _
theorem writePos_sown (s : State) (g : Nat) : Sown s (s.writePos g) := by
  unfold State.writePos
  exact .foldl (fun t c => ((Sown.wr t _ _ _ _).then_wr _ _ _ _).then_wr _ _ _ _) _ _
theorem dropSegs_sown (s : State) (n : Nat) : Sown s (s.dropSegs n) := by
  unfold State.dropSegs
  exact .foldl (fun t g => .ite (((stopSeg_sown t g).trans (clearPos_sown _ g)).then_wr _ _ _ _) (.refl t)) _ _
theorem writeSegs_sown (s : State) (p : Plan) : Sown s (s.writeSegs p) := by
  unfold State.writeSegs
  refine (dropSegs_sown s p.inp.n).trans (.foldl (fun t q => ?_) _ _)
  dsimp only
  exact (((((((Sown.wr t _ _ _ _).then_wr _ _ _ _).then_wr _ _ _ _).then_wr _ _ _ _).then_wr _ _ _ _).then_wr _ _ _ _).then_wr _ _ _ _
    |>.then_wr _ _ _ _).trans (writePos_sown _ _)
theorem writeRegions_sown (s : State) (p : Plan) : Sown s (s.writeRegions p) := by
  unfold State.writeRegions
  exact .foldl (fun u t => .foldl (fun v q => ((((Sown.wr v _ _ _ _).then_wr _ _ _ _).then_wr _ _ _ _).then_wr _ _ _ _).then_wr _ _ _ _) _ u) _ _
theorem writeShares_sown (s : State) (p : Plan) : Sown s (s.writeShares p) := by
  unfold State.writeShares State.setShareUsed
  exact .foldl (fun u t => (((Sown.wr u _ _ _ _).then_wr _ _ _ _).then_wr _ _ _ _).then_wr _ _ _ _) _ _
theorem writeUpdate_sown (s : State) (p : Plan) (fresh : Bool) : Sown s (s.writeUpdate p fresh) := by
  unfold State.writeUpdate
  refine .foldl (fun u t => ?_) _ _
  have h (g : TabkoX → TabkoX) (a b : Nat) : Sown u (((u.modTabko t g).wr Reg.UPD_STAT.SETS a t p.inp.n).wr Reg.UPD_STAT.ENTRIES b t p.inp.n) :=
    ((Sown.modTabko u t g).then_wr _ _ _ _).then_wr _ _ _ _
  exact .ite (((((h _ _ _).then_wr _ _ _ _).then_wr _ _ _ _).then_wr _ _ _ _).then_wr _ _ _ _ |>.then_wr _ _ _ _) (h _ _ _)
theorem loadDerived_sown (s : State) (placed : List Placed) : Sown s (s.loadDerived placed) := by
  unfold State.loadDerived
  refine .foldl (fun u t => ?_) _ _
  split
  · refine .trans (.foldl (fun v (h : Home) => ?_) _ u) (noteReads_sown _ _)
    exact spFill_sown v h.core h.off _ _
  · exact .refl u
theorem writeYokeWord_sown (s : State) (n shares solo : Nat) : Sown s (s.writeYokeWord n shares solo) := by
  have h : Sown s ((s.wr Reg.YK_ENCL.SHARES shares (j := n)).wr Reg.YK_ENCL.SOLO solo (j := n)) := (Sown.wr _ _ _ _ _).then_wr _ _ _ _
  unfold State.writeYokeWord
  dsimp only
  split
  · exact h.trans (.foldl (fun t c => spWrite_sown t c _ _ _) _ _)
  · exact h
theorem writeFloors_sown (s : State) (p : Plan) (step : Nat) (fresh : Bool) : Sown s (s.writeFloors p step fresh) := by
  unfold State.writeFloors
  refine .foldl (fun u fl => ?_) _ _
  have h (a : Nat) : Sown u ((u.wr Reg.FLR_ENCL.STEP step fl p.inp.n).wr Reg.FLR_ENCL.OPEN a fl p.inp.n) := (Sown.wr _ _ _ _ _).then_wr _ _ _ _
  dsimp only
  refine .ite (.trans (((h _).then_wr _ _ _ _).then_wr _ _ _ _) (.foldl (fun a j => ?_) _ _)) (h _)
  split
  · exact (((((Sown.wr a _ _ _ _).then_wr _ _ _ _).then_wr _ _ _ _).then_wr _ _ _ _).then_wr _ _ _ _).then_wr _ _ _ _
  · exact .wr a _ _ _ _
theorem writeChoices_sown (s : State) (n : Nat) : Sown s (s.writeChoices n) := by
  unfold State.writeChoices
  exact .foldl (fun u c => .foldl (fun v _ => spWrite_sown v c _ _ _) _ u) _ _
theorem rebuild_sown (s : State) : Sown s s.rebuild := by
  unfold State.rebuild State.incWrap
  exact .ite (.wr s _ _ _ _) (.refl s)

theorem writeCores_sown (s : State) (p : Plan) :
    Sown s (p.groups.foldl (fun t g => g.2.foldl (fun u c => u.writeCore p g.1 c) t) s) := by
  refine .foldl (fun t g => ?_) _ _
  exact .foldl (fun u c => writeCore_sown u p g.1 c) _ _

/-- Phase 10 as a whole. -/
theorem writePlan_sown (s : State) (p : Plan) (step : Nat) (fresh : Bool) : Sown s (s.writePlan p step fresh) := by
  unfold State.writePlan
  dsimp only
  refine .trans (.then_wr ?_ _ _ _ _) (rebuild_sown _)
  refine .ite (.then_wr ?_ _ _ _ _) ?_
  all_goals
    refine .ite (((Sown.then_wr ?_ _ _ _ _).then_wr _ _ _ _).then_wr _ _ _ _) ?_
  all_goals
    refine .trans (.trans ?_ (writeChoices_sown _ _)) (writeYokeWord_sown _ _ _ _)
    refine .trans (.trans (.trans ?_ (writeSegs_sown _ _)) (writeUpdate_sown _ _ _)) (loadDerived_sown _ _)
    refine .trans (.trans (.trans (.trans (.trans ?_ (writeTrees_sown _ _)) (writeWins_sown _ _)) (advanceEpochs_sown _ _)) (openCopies_sown _ _)) (writeCrofts_sown _ _)
    refine .trans ?_ (.foldl (fun t c => writeScales_sown t p c) _ _)
    refine .trans ?_ (writeCores_sown _ p)
    refine .trans (.trans ?_ (writeFloors_sown _ _ _ _)) (writeSeeds_sown _ _ _)
    refine .trans (.trans ?_ (writeThreads_sown _ p)) (.modEncl _ p.inp.n (fun x => p.enclX x fresh))
    exact .ite ((writeRegions_sown s p).trans (writeShares_sown _ p)) (.refl s)

end Sys2Proof.Machine
end

