-- ==== Sys2Proof/Tests/Slice0.lean ====
section
/-! SUPPORT. Tests: worked examples and tables of the spec, ill-formed terms that the well-formedness check refuses, and, for
every statement with premises, a concrete state and operands that meet them (`witness_…`). -/

namespace Sys2Proof.Tests

open Sys2Proof Sys2Proof.Machine

-- one declaration after the other: the checks below are long
set_option Elab.async false

/-! ### Small states -/

/-- A state with some register fields set: field, value, unit, place in the group. -/
def put (s : State) (l : List (Fld × Nat × Nat × Nat)) : State := l.foldl (fun t p => t.wr p.1 p.2.1 p.2.2.1 p.2.2.2) s

/-- A state with some fields staged. -/
def staged (s : State) (l : List (Fld × Nat × Nat × Nat)) : State :=
  l.foldl (fun t p => { t with stagedF := Store.put t.stagedF (p.1.key p.2.2.1 p.2.2.2) p.2.1 }) s

/-- A state in which core 0 runs, its croft's clock on, at word pc. -/
def running (pc : Nat) : State :=
  (put State.reset [(Reg.HND_STAT.HALTED, 0, 0, 0), (Reg.HND_STAT.PC, pc, 0, 0)]).modCroft 0 (fun c => { c with clock := true })

/-- The state a command leads to. -/
def after (i : Instr) (s : State) : State :=
  match exec i s with
  | .next t => t
  | _ => s

/-- A hand word. -/
def hw (hd hs1 hs2 : BitVec 5) (imm : BitVec 32) : HandWord := { hd := hd, hs1 := hs1, hs2 := hs2, rsv := 0, imm := imm }

theorem witness_ready : (running 0).canIssue 0 = true ∧ (running 0).rd Reg.HND_STAT.PC 0 < 2047 := by decide
theorem test_add : (after (.add 0 (hw 3 1 2 0)) ((running 5).setH 0 1 7 |>.setH 0 2 9)).h 0 3 = 16 := by decide

/-! ### The hand and the queue -/

theorem witness_StepCarriesOutFrontCommand : (running 0).pending = [] := rfl

theorem witness_HandArithmetic : ∃ (core : CoreId) (w : HandWord) (s : State), Ready s core ∧ w.rsv = 0 ∧ w.hs2 = 0 :=
  ⟨0, hw 1 2 0 0x80000000, running 2046, by unfold Ready; decide⟩
theorem witness_HandPastTheLastWord : ∃ (core : CoreId) (w : HandWord) (s : State),
    s.canIssue core.val = true ∧ s.rd Reg.HND_STAT.PC core.val = 2047 ∧ w.rsv = 0 ∧ w.hs2 = 0 :=
  ⟨0, hw 1 2 0 5, running 2047, by decide⟩
/-- hs1 + IMM runs through 2^18. -/
theorem witness_HandLoadsAndStores : ∃ (core : CoreId) (w : HandWord) (s : State), Ready s core ∧ w.rsv = 0 ∧
    ((s.h core.val w.hs1.toNat + BitVec.ofInt 64 w.imm.toInt).toNat % 2 ^ 18) % 8 = 0 ∧
    s.wordErr core.val (s.codeWord core.val ((s.h core.val w.hs1.toNat + BitVec.ofInt 64 w.imm.toInt).toNat % 2 ^ 18)) = 0 ∧
    w.hs2 = 0 ∧ w.hd = 0 :=
  ⟨0, hw 0 1 0 0xFFFFFFF8, running 0, by unfold Ready; decide⟩
/-- A branch to word 2,047, taken and not; JAL to word 0; JR to word 2,047. -/
theorem witness_HandControl :
    (∃ (core : CoreId) (w : HandWord) (s : State), s.canIssue core.val = true ∧ w.rsv = 0 ∧ w.hd = 0 ∧
      (s.rd Reg.HND_STAT.PC core.val : Int) + w.imm.toInt = 2047 ∧ s.h core.val w.hs1.toNat = s.h core.val w.hs2.toNat ∧
      s.rd Reg.HND_STAT.PC core.val < 2047) ∧
    (∃ (core : CoreId) (w : HandWord) (s : State), s.canIssue core.val = true ∧ w.rsv = 0 ∧ w.hs1 = 0 ∧ w.hs2 = 0 ∧
      (s.rd Reg.HND_STAT.PC core.val : Int) + w.imm.toInt = 0) ∧
    (∃ (core : CoreId) (w : HandWord) (s : State), s.canIssue core.val = true ∧ w.rsv = 0 ∧ w.hs2 = 0 ∧
      (s.h core.val w.hs1.toNat).toNat = 2047) ∧
    (∃ (core : CoreId) (w : HandWord) (s : State) (c : Nat), Ready s core ∧ w.rsv = 0 ∧ w.hs2 = 0 ∧
      c = w.imm.toNat % 4 ∧ c ≠ 3) ∧
    (∃ s : State, s.canIssue 0 = true) ∧ (HandWord.read 0x07F0000000000005#64).imm = 5 :=
  ⟨⟨0, hw 0 1 2 2037, running 10, by decide⟩, ⟨0, hw 1 0 0 0xFFFFFFF6, running 10, by decide⟩,
    ⟨0, hw 1 2 0 0, (running 0).setH 0 2 2047, by decide⟩, ⟨0, hw 1 2 0 2, running 0, 2, by unfold Ready; decide⟩,
    ⟨running 2047, by decide⟩, by decide⟩
/-- A reserved bit set, a misaligned load, a target past 2,047, a VSETVL width of 3; and for the array. -/
theorem witness_DiscardedWords : ∃ s : State, s.canIssue 0 = true ∧ (s.core 0).arrQ.length < 4 ∧
    ({ hw 0 0 0 0 with rsv := 1 } : HandWord).rsv ≠ 0 ∧
    ((s.h 0 (hw 1 0 0 4).hs1.toNat + BitVec.ofInt 64 (hw 1 0 0 4).imm.toInt).toNat % 2 ^ 18) % 8 ≠ 0 ∧
    2047 < (s.rd Reg.HND_STAT.PC 0 : Int) + (hw 0 0 0 2048).imm.toInt ∧ (hw 1 0 0 7).imm.toNat % 4 = 3 ∧
    codeDepth 1 ≠ codeDepth 5 ∧ s.issuedInt 0 0 ≠ codeInt 10 ∧ (wfield 0x6000000000000000#64 52 12 : BitVec 12) ≠ 0x07F ∧
    (HandWord.read 0x07F1000000000000#64).hd ≠ 0 ∧ (wfield 0x2500000000000000#64 60 4 : BitVec 4) = 2 :=
  ⟨running 0, by decide⟩
theorem witness_CsrAccessByTheHand :
    (∃ (core : CoreId) (w : HandWord) (s : State), Ready s core ∧ s.corePresent core.val = true ∧ w.rsv = 0 ∧ w.hd = 0 ∧
      w.hs1 = 0 ∧ w.imm.toNat % 0x1000 = Reg.ARR_CHK.CHK_LIMIT.off) ∧
    (∃ (core : CoreId) (w : HandWord) (s : State), Ready s core ∧ w.rsv = 0 ∧ w.hs1 = 0 ∧ w.hs2 = 0 ∧ w.imm.toNat % 8 = 0) ∧
    ∃ (core : CoreId) (w : HandWord) (s : State) (n : Fin 4), Ready s core ∧ w.rsv = 0 ∧ w.hd = 0 ∧ w.hs1 = 0 ∧
      w.imm.toNat % 0x1000 = 0x188 + 8 * n.val :=
  ⟨⟨0, hw 0 0 3 0x108, running 0, by unfold Ready; decide⟩,
    ⟨0, hw 3 0 0 0x438, running 0, by unfold Ready; decide⟩, ⟨0, hw 0 0 3 0x1A0, running 0, 3, by unfold Ready; decide⟩⟩

/-- R98: SUB wraps; SRA shifts in the sign, by the count mod 64; SLT is signed, SLTU is not; LIH puts IMM above; h0 reads 0. -/
theorem test_sub_wraps : (after (.sub 0 (hw 3 0 2 0)) ((running 5).setH 0 2 1)).h 0 3 = 0xFFFFFFFFFFFFFFFF#64 := by decide
theorem test_sra_sign : (after (.sra 0 (hw 3 1 2 0)) (((running 5).setH 0 1 0x8000000000000000#64).setH 0 2 68)).h 0 3
    = 0xF800000000000000#64 := by decide
theorem test_slt_signed : (after (.slt 0 (hw 3 1 2 0)) ((running 5).setH 0 1 0xFFFFFFFFFFFFFFFF#64)).h 0 3 = 1 := by decide
theorem test_sltu_unsigned : (after (.sltu 0 (hw 3 1 2 0)) ((running 5).setH 0 1 0xFFFFFFFFFFFFFFFF#64)).h 0 3 = 0 := by decide
theorem test_lih_high_half : (after (.lih 0 (hw 3 3 0 0x80000001)) ((running 5).setH 0 3 0xAAAAAAAA55555555#64)).h 0 3
    = 0x8000000155555555#64 := by decide
theorem test_h0_discards : (after (.addi 0 (hw 0 0 0 5)) (running 5)).h 0 0 = 0 := by decide
/-- R98: a store and a load of a word are little-endian. -/
theorem test_st_little_endian : (after (.st 0 (hw 0 1 2 0)) (((running 5).setH 0 1 0x40).setH 0 2 0x0102030405060708#64)).byte
    (spAddr 0 0x47) = 1 := by decide
theorem test_ldw_zero_extends : (after (.ldw 0 (hw 3 1 0 0x40)) (after (.stw 0 (hw 0 1 2 0x40)) ((running 5).setH 0 2
    0xFFFFFFFF80000001#64))).h 0 3 = 0x80000001#64 := by decide
/-- Chapter 04's example: VSETVL h3, h2, IMM 2 with h2 = 20 gives VL 20 and h3 20. -/
theorem test_vsetvl_example : (after (.vsetvl 0 (hw 3 2 0 2)) ((running 0).setH 0 2 20)).rd Reg.VEC_VL.VL 0 = 20 := by decide
theorem test_vsetvl_vlmax : (after (.vsetvl 0 (hw 3 2 0 2)) ((running 0).setH 0 2 100)).h 0 3 = 32 := by decide
/-- R116: HALT leaves PC at its own word, CAUSE 1. -/
theorem test_halt : (after (.halt 0 0x07F0000000000000#64) (running 9)).rd Reg.HND_STAT.CAUSE 0 = 1 ∧
    (after (.halt 0 0x07F0000000000000#64) (running 9)).rd Reg.HND_STAT.PC 0 = 9 := by decide
/-- R115, R55: a word of the reserved unit 6 halts with CAUSE 2, an array word of operation 5 with CAUSE 3. -/
theorem test_reserved_words : (after (.halt 0 0x6000000000000000#64) (running 9)).rd Reg.HND_STAT.CAUSE 0 = 2 ∧
    (after (.halt 0 0x2500000000000000#64) (running 9)).rd Reg.HND_STAT.CAUSE 0 = 3 := by decide
theorem test_branch_backward : (after (.bltu 0 (hw 0 0 2 0xFFFFFFFE)) ((running 9).setH 0 2 1)).rd Reg.HND_STAT.PC 0 = 7 := by decide
theorem test_past_last_word : (after (.addi 0 (hw 1 0 0 5)) (running 2047)).rd Reg.HND_STAT.PC 0 = 2047 ∧
    (after (.addi 0 (hw 1 0 0 5)) (running 2047)).rd Reg.HND_STAT.CAUSE 0 = 2 := by decide

/-! ### Words of the spec -/

theorem test_word_vperm : (VecWord.word 0x50#8 { ty := 2, vd := 4, vs1 := 1, vs2 := 2, vs3 := 0, bc := 0, imm := 0, rsv := 0 })
    = 0x1504408800000000#64 := by decide
theorem test_word_darm : (DrillWord.word 1#4 { d := 1, hs := 12, mode := 0, rsv := 0 }) = 0x3158000000000000#64 := by decide
theorem test_word_amma : AmmaWord.word
    { fmta := 2, fmtb := 2, ha := 4, hb := 5, bin := 0, zero := 1, ta := 0, tb := 0, srca := 0, srcb := 0, tiles := 16, rsv := 0 }
    = 0x2122215002000000#64 := by decide
theorem test_word_finj : FurWord.word 1#4 { fmt := 2, lane := 1, trans := 0, hs := 8, hb := 9, tiles := 16, rsv := 0 }
    = 0x4129090200000000#64 := by decide
theorem test_word_halt : (hw 0 0 0 0).word 0x7F#8 = 0x07F0000000000000#64 := by decide
/-- R237, bit by bit: UNIT 5, OP 2 (TWAIT), HS 5 in [50:46]. -/
theorem test_word_twait : SyncWord.word 2#4 { hd := 0, hs := 5, cnt := 0, rsv := 0 } = 0x5201400000000000#64 := by decide
theorem test_read_vperm : coreWord 7 0 0x1504408800000000#64 = some (.vperm 7
    { ty := 2, vd := 4, vs1 := 1, vs2 := 2, vs3 := 0, bc := 0, imm := 0, rsv := 0 }) := by decide
theorem test_reserved_unit : coreWord 0 0 0x6000000000000000#64 = some (.halt 0 0x6000000000000000#64) := by decide
theorem witness_CoreWordsReadBack : (Instr.wellFormed (.dwaitPendingFree 3 { d := 2, hs := 31, mode := 1, rsv := 5 }) = true) ∧
    coreWord 3 0 (DrillWord.word 2#4 { d := 2, hs := 31, mode := 1, rsv := 5 }) =
      some (.dwaitPendingFree 3 { d := 2, hs := 31, mode := 1, rsv := 5 }) := by decide

/-! ### Vector engine and number formats -/

/-- A vector word. -/
def vw (ty : BitVec 3) (vd vs1 vs2 vs3 : BitVec 5) (bc : BitVec 1) (imm : BitVec 12) : VecWord :=
  { ty := ty, vd := vd, vs1 := vs1, vs2 := vs2, vs3 := vs3, bc := bc, imm := imm, rsv := 0 }
/-- `running` with VL n. -/
def lanesOn (n : Nat) : State := put (running 0) [(Reg.VEC_VL.VL, n, 0, 0)]
/-- A vector register from its lanes of 32 bits. -/
def vec32 (l : List Nat) : BitVec 1024 := BitVec.ofNat 1024 (l.foldr (fun x a => x + 2 ^ 32 * a) 0)
/-- `lanesOn n` with v1 and v2 set. -/
def two (n : Nat) (a b : List Nat) : State := ((lanesOn n).setV 0 1 (vec32 a)).setV 0 2 (vec32 b)

theorem witness_VectorIntegerAndBitLanes : ∃ (core : CoreId) (w : VecWord) (s : State), Ready s core ∧
    w.ty.toNat ∈ [0, 1, 2, 3, 4, 5] ∧ w.rsv = 0 ∧ w.vs3 = 0 ∧ activeLanes s core (typeWidth w.ty.toNat) = 32 :=
  ⟨0, vw 2 3 1 2 0 0 0, lanesOn 128, by unfold Ready; decide⟩
theorem witness_VectorFloatLanes : ∃ (core : CoreId) (w : VecWord) (s : State), Ready s core ∧ w.ty.toNat ∈ [6, 7] ∧
    w.rsv = 0 ∧ w.vs2 = 0 ∧ w.bc = 0 ∧ w.vs3 = 0 := ⟨0, vw 7 3 1 0 0 0 0, lanesOn 32, by unfold Ready; decide⟩
theorem witness_VectorApproximations : (∃ (core : CoreId) (w : VecWord) (s : State), Ready s core ∧ w.ty.toNat ∈ [6, 7] ∧
    w.rsv = 0 ∧ w.vs2 = 0 ∧ w.bc = 0 ∧ w.vs3 = 0) ∧ (fp32.decode 0x7FC00000).isNan = true ∧
    FVal.lt (fp32.decode 0xBF800000) (.fin false 0 0) = true ∧ fp32.decode 0x3F800000 = .fin false 8388608 (-23) :=
  ⟨⟨0, vw 6 3 1 0 0 0 0, lanesOn 64, by unfold Ready; decide⟩, by decide⟩
/-- VL 0 and VL beyond VLMAX; the last lane of a lane move. -/
theorem witness_VectorPermuteReduceMove : (∃ s : State, Ready s 0 ∧ activeLanes s 0 32 = 0) ∧
    (∃ s : State, Ready s 0 ∧ activeLanes s 0 32 = 32) ∧ (vw 2 3 1 0 0 0 31).imm.toNat % 128 < 1024 / typeWidth 2 :=
  ⟨⟨lanesOn 0, by unfold Ready; decide⟩, ⟨lanesOn 128, by unfold Ready; decide⟩, by decide⟩
theorem witness_VectorLoadsAndStores : ∃ (core : CoreId) (w : VecWord) (s : State) (es n : Nat), Ready s core ∧ w.rsv = 0 ∧
    w.vs3 = 0 ∧ (w.bc = 0 → w.vs2 = 0) ∧ es = typeWidth w.ty.toNat / 8 ∧ n = activeLanes s core (8 * es) ∧
    ((s.h core.val w.vs1.toNat + BitVec.ofInt 64 w.imm.toInt).toNat % 2 ^ 18) % es = 0 ∧
    sint 18 (s.h core.val w.vs2.toNat).toNat = -8 ∧ (∀ cw, s.wordErr core.val cw = 0) ∧
    ∀ k < n, ∀ j < es, ∀ k' < n, ∀ j' < es,
      spAddr core.val (wrapInt 18 ((0x3FFF8 : Int) + k * (-8)) + j) = spAddr core.val (wrapInt 18 ((0x3FFF8 : Int) + k' * (-8)) + j') →
      k = k' ∧ j = j' :=
  ⟨0, vw 2 3 1 2 0 1 0xFF8, (lanesOn 3).setH 0 2 0x3FFF8, 4, 3, by unfold Ready; decide, rfl, rfl, by decide, rfl, by decide,
    by decide, by decide, fun _ => rfl, fun k hk j hj k' hk' j' hj' h => by
      have g : ∀ (k k' : Fin 3) (j j' : Fin 4), spAddr 0 (wrapInt 18 ((0x3FFF8 : Int) + (k.val : Int) * (-8)) + j.val) =
          spAddr 0 (wrapInt 18 ((0x3FFF8 : Int) + (k'.val : Int) * (-8)) + j'.val) → k = k' ∧ j = j' := by decide +kernel
      simpa using g ⟨k, hk⟩ ⟨k', hk'⟩ ⟨j, hj⟩ ⟨j', hj'⟩ h⟩
/-- FP32 to BF16 with PART 1, and quantising one group of BF16 lanes. -/
theorem witness_VectorConversions : (∃ (s : State) (w : VecWord) (src dst : CvtFmt), Ready s 0 ∧ w.ty = 0 ∧
      cvtFmt (w.imm.toNat / 16 % 16) = some src ∧ cvtFmt (w.imm.toNat % 16) = some dst ∧
      w.imm.toNat / 256 % 4 = max src.width dst.width / min src.width dst.width - 1 ∧ src.width = 32 ∧ dst.width = 16) ∧
    (∃ (s : State) (w : VecWord), Ready s 0 ∧ w.imm.toNat % 16 = 5 ∧ w.ty = 6 ∧ w.imm.toNat / 16 = 0) :=
  ⟨⟨lanesOn 16, vw 0 3 1 0 0 0 0x102, _, _, by unfold Ready; decide, rfl, rfl, rfl, by decide, by decide, by decide⟩,
    ⟨lanesOn 32, vw 6 3 1 0 0 0 5, by unfold Ready; decide⟩⟩

/-- Chapter 04's example, at three lanes: indices at or beyond n give zero and set OOR; lanes at or above n keep theirs. -/
theorem test_vperm_example : let t := after (.vperm 0 (vw 2 4 1 2 0 0 0)) ((two 3 [10, 11, 12] [3, 2, 1]).setV 0 4 (vec32 [7, 7, 7, 7]))
    [lane 32 (t.v 0 4) 0, lane 32 (t.v 0 4) 1, lane 32 (t.v 0 4) 2, lane 32 (t.v 0 4) 3] = [0, 12, 11, 7] ∧
    t.rd Reg.VSTAT.OOR 0 = 1 := by decide +kernel
/-- R102, R103: VADD wraps, VADDS clamps and sets ISAT. -/
theorem test_vadd_wraps : lane 32 ((after (.vadd 0 (vw 2 4 1 2 0 0 0)) (two 1 [0x7FFFFFFF] [1])).v 0 4) 0 = 0x80000000 := by decide +kernel
theorem test_vadds_clamps : let t := after (.vadds 0 (vw 2 4 1 2 0 0 0)) (two 1 [0x7FFFFFFF] [1])
    lane 32 (t.v 0 4) 0 = 0x7FFFFFFF ∧ t.rd Reg.VSTAT.ISAT 0 = 1 := by decide +kernel
/-- R104, R73: 1 + 2^-24 ties to even; inf - inf is the canonical NaN. -/
theorem test_vfadd_ties_even : lane 32 ((after (.vfadd 0 (vw 7 4 1 2 0 0 0)) (two 1 [0x3F800000] [0x33800000])).v 0 4) 0
    = 0x3F800000 := by decide +kernel
theorem test_vfsub_nan : lane 32 ((after (.vfsub 0 (vw 7 4 1 2 0 0 0)) (two 1 [0x7F800000] [0x7F800000])).v 0 4) 0 = 0x7FC00000 := by decide +kernel
/-- R104: VFMA rounds once: 1 × (1 + 2^-23) - 1 is exact. -/
theorem test_vfma_single_rounding : lane 32 ((after (.vfma 0 (vw 7 4 1 2 3 0 0)) ((two 1 [0x3F800001] [0x3F800001]).setV 0 3
    (vec32 [0xBF800002]))).v 0 4) 0 = 0x28800000 := by decide +kernel
/-- R109: the tree adds neighbours first, lanes at or above n as +0. -/
theorem test_vrsum_int : lane 32 ((after (.vrsum 0 (vw 2 4 1 0 0 0 0)) (two 3 [1, 2, 3, 4] [])).v 0 4) 0 = 6 := by decide +kernel
/-- R110: a strided store writes every second word. -/
theorem test_vst_stride : let t := after (.vst 0 (vw 2 1 1 2 0 1 0)) ((((two 2 [0xAABBCCDD, 0x11223344] []).setH 0 1 0x100).setH 0 2 8))
    [t.byte (spAddr 0 0x100), t.byte (spAddr 0 0x104), t.byte (spAddr 0 0x108)] = [0xDD, 0, 0x44] := by decide +kernel

/-- Chapter 03's MXFP8 group: scale byte 122; 13.5 ties to 0x7E, or stays at 0x7D under a random value of 14,929. -/
theorem test_mx_group_scale : (mxGroup e4m3 (fun _ => .rne) [bf16.decode 0x4158]).scale = 122 := by decide +kernel
theorem test_mx_group_elements : (mxGroup e4m3 (fun _ => .rne)
    [bf16.decode 0x4158, bf16.decode 0xC000, bf16.decode 0x3DCD, bf16.decode 0x39A0]).elems = [0x7E, 0xE8, 0x45, 0x05] := by decide +kernel
theorem test_mx_group_stochastic : (mxGroup e4m3 (fun _ => .sr 14929) [bf16.decode 0x4158]).elems = [0x7D] ∧
    (mxGroup e4m3 (fun _ => .sr 32768) [bf16.decode 0x4158]).elems = [0x7E] := by decide +kernel
/-- Chapter 03's tally example: E5M2 with σ = 26, entry 0x1A04. -/
theorem test_choice_example :
    let d : TallyDef := { id := 57, fmt := 2, sigma := 0, pin := false, lossShift := 10, head := 1, headOvf := 2 }
    let hist := (List.range 64).map (fun b => if b = 18 then (20000 : Int) else if b = 22 then 22000 else if b = 36 then 9958000 else 0)
    let c := chooseFormat d (hist ++ [0, 0, 0, 0]) false
    c = (4, 26) ∧ ({ d with fmt := c.1, sigma := c.2 } : TallyDef).entry = 0x1A04 := by decide +kernel

/-! ### Geography, clocks -/

/-- Holdings 0-3 and MP ON, at OP0. -/
def wafer : State :=
  put State.reset (((List.range 4).map (fun h => (Reg.PWR_DOM.CUR, 0, 0, h))) ++ [(Reg.PWR_DOM.CUR, 0, 0, 16)])

/-- Chapter 01's example: core (100, 250) is 32,250, in croft 108, local row 4; holding 7; physical index 34,490. -/
theorem test_core_index : coreAt 100 250 = 32250 ∧ croftOf 32250 = 108 ∧ holdingOf 108 = 7 := by decide
theorem test_physical_index : physicalIndex 100 250 true 2 = 34490 := by decide
theorem test_scratchpad_address : spAddr 32250 0 = 0x100323E80000 ∧ Reg.HND_CTL.START.addr 32250 0 = 0x200017DFA000 := by decide
/-- R29's example: croft 0 to T1. -/
theorem test_distance_example : (wafer.dist 0 1).xing = 7 ∧ (wafer.dist 0 1).exit = 2 ∧ (wafer.dist 0 1).cycOut = 10 ∧
    (wafer.dist 0 1).tkOut = 41 ∧ (wafer.dist 0 1).tkBack = 41 ∧ (wafer.dist 0 1).cycBack = 9 := by decide +kernel
/-- R232: s_min of 11 cycles at OP0 is 0; of 35, 1 at OP0 and 3 at OP3; of 43, 2 and 4. -/
theorem test_slack : sMin 11 160 160 = 0 ∧ sMin 35 160 160 = 1 ∧ sMin 35 96 96 = 3 ∧ sMin 43 160 160 = 2 ∧ sMin 43 96 96 = 4 := by decide

/-! ### Update and check values -/

/-- Chapter 13's set 0. -/
def set0 : UpdSet :=
  { warm := 2, decay := 2, mult := 2, restart := true, warmLen := 2000, decayLen := 10000, stepLen := 1, invT0 := 1,
    etaStart := 0, etaPeak := 0x3A800000, etaMin := 0, gamma := 0, gain := 0x3F000000, b1 := 0x3F600000, omb1 := 0x3E000000,
    b2 := 0x3F7E0000, omb2 := 0x3C000000, lambda := 0x3D800000, gscale := 0x3F800000 }
theorem test_season_example : set0.eta 0 17000 = 0x39DA827A := by decide +kernel
theorem test_season_after_warm_up : set0.eta 0 2000 = 0x3A800000 := by decide +kernel
theorem test_sign_rule_example : signRule set0 0x3A800000 0x3D000000 0x3F000000 0xBC00 = (0x3F003E00, 0xBBF6) := by decide +kernel
theorem test_compute_copy : copyCode 2 0x3F003E00 = 0x3F00 := by decide
/-- Chapter 22's example, preset 0 and the custom parameters. -/
theorem test_crc32c : crc32c ((List.range 9).map (fun k => BitVec.ofNat 8 (0x31 + k))) = 0xE3069283 := by decide +kernel
theorem test_crc_custom : checkEnd 16 false 0 (checkRun 16 0x1021 false 0xFFFF ((List.range 9).map (fun k => BitVec.ofNat 8 (0x31 + k))))
    = 0x29B1 := by decide +kernel
/-- Chapter 14's exact sheaf: e = 11, the next scale is -15; the gleaner's bound. -/
theorem test_next_scale : nextScale [943718400] (-18) 4 = (-15, some 11) := by decide +kernel

/-! ### The array -/

/-- An AMMA word: BF16 operands, h4 and h5, BIN 0, ZERO, t tiles. -/
def aw (t : BitVec 11) : AmmaWord :=
  { fmta := 2, fmtb := 2, ha := 4, hb := 5, bin := 0, zero := 1, ta := 0, tb := 0, srca := 0, srcb := 0, tiles := t, rsv := 0 }
/-- An INT8 AMMA of one tile into BIN 0 with ZERO. -/
def ins8 : MmaInsn :=
  { fmta := 10, fmtb := 10, bin := 0, zero := true, ta := false, tb := false, srca := false, srcb := false, tiles := 1,
    da := 0, sa := 0, db := 0, sb := 0 }
/-- A tile whose first row of 16 bytes holds b and whose other bytes are 0. -/
def tileOf (b : Byte) : OpTile := { data := List.replicate 16 b, scales := [], poison := false }
/-- One tile of 1 and 2: row 0 of the plane holds 2 in every column. -/
def run8 : MmaRun :=
  { seq := 0, insn := ins8, tile := 0, a := { tileOf 1 with data := [1] }, b := tileOf 2, cold := false, beat := 0 }
/-- No adder rounds, these cells disturbed. -/
def cells8 (faults : List (Fin 18 × Fin 17 × Word)) : CheckCells := { north := [], west := [], faults := faults }
/-- Core 0 with that tile waiting for its verdict. -/
def onRun (rerun : Bool) : State := (running 3).modCore 0 (fun c => { c with flight := [run8], retry := rerun })
/-- Cycles counted by croft 0. -/
def cyclesOn (n : Nat) (s : State) : State := s.modCroft 0 (fun x => { x with cyc20 := 20 * n })

theorem witness_ArrayIssue : ∃ s : State, Ready s 0 ∧ (s.core 0).arrQ.length < 4 ∧ s.ammaOk 0 (aw 2047) = true ∧ (aw 2047).tiles ≠ 0 ∧
    s.ammaOk 0 (aw 0) = true ∧
    s.adrainOk 0 { fmto := 2, hd := 6, bin := 0, rnd := 0, sat := 0, tally := 1, rsv := 0 } = true :=
  ⟨running 0, by unfold Ready; decide⟩
theorem witness_ArrayQueueAndReadOut :
    (∃ s : State, (s.core 0).arrQ = [(4, .fence)] ∧ s.arrIdle 0 = true ∧ s.stopped 0 = false ∧ (s.core 0).runOff = false) ∧
    (∃ s : State, (s.core 0).arrQ = [(4, .fence)] ∧ s.arrIdle 0 = true ∧ s.stopped 0 = false ∧ (s.core 0).runOff = true ∧
      (s.core 0).hold = .afence ∧ s.rd Reg.HND_STAT.HALTED 0 = 0) ∧
    (∃ s : State, (s.core 0).arrQ = [(0, .mma ins8)] ∧ (s.core 0).mmaPend = none ∧ s.croftIssues 0 = true) ∧
    (∃ s : State, (s.core 0).arrQ = [(0, .emit 0 0 0 0)] ∧ (s.core 0).rdPend = none ∧ s.croftIssues 0 = true) ∧
    (∃ s : State, s.stopped 0 = false ∧ s.rd Reg.SP_STAT.LOCKED 0 = 0 ∧ (s.core 0).mmaPend = some (0, .mma { ins8 with tiles := 2047 }) ∧
      (s.core 0).feed = none ∧ (s.core 0).flight = [] ∧ (s.core 0).stepEnd ≤ s.cycle 0 7 ∧ s.cold 0 7 = true ∧ (s.core 0).ramp = none ∧
      (s.core 0).readBefore 0 0 (s.cycle 0 7 + 57) = false ∧
      s.rd Reg.FUR_STAT.INJ_A 0 ≠ 1 ∧ s.rd Reg.FUR_STAT.INJ_B 0 ≠ 1 ∧ ∀ cw, s.wordErr 0 cw = 0) ∧
    (∃ s : State, (s.core 0).mmaPend = some (3, .mma ins8) ∧ (s.core 0).stepEnd ≤ s.cycle 0 7 ∧ s.cold 0 7 = true ∧ (s.core 0).ramp = some 32 ∧
      (s.core 0).rdRun = some ⟨2, 0, none, 60, 80⟩ ∧ (s.core 0).readBefore 0 3 (s.cycle 0 7 + 45) = false) ∧
    (∃ s : State, s.stopped 0 = false ∧ s.rd Reg.SP_STAT.LOCKED 0 = 0 ∧ (s.core 0).rdPend = some (0, .drain 2 0 0 0 false false) ∧
      (s.core 0).mmaBefore 0 0 = false ∧ (s.core 0).rdRun = none) ∧
    ∃ s : State, s.stopped 0 = false ∧ s.rd Reg.SP_STAT.LOCKED 0 = 0 ∧ (s.core 0).rdPend = some (0, .emit 0 0 6 0) ∧
      (s.core 0).rdRun = some ⟨0, 0, none, 7, 7⟩ ∧ 7 ≤ s.cycle 0 7 ∧ (s.core 0).emit.length ≤ 4 ∧ s.exactEntry 0 6 = none :=
  ⟨⟨(running 0).modCore 0 (fun c => { c with arrQ := [(4, .fence)], hold := .afence }), by decide⟩,
    ⟨(running 2047).modCore 0 (fun c => { c with arrQ := [(4, .fence)], hold := .afence, runOff := true }), by decide⟩,
    ⟨(running 0).modCore 0 (fun c => { c with arrQ := [(0, .mma ins8)] }), by decide⟩,
    ⟨(running 0).modCore 0 (fun c => { c with arrQ := [(0, .emit 0 0 0 0)] }), by decide⟩,
    ⟨(running 0).modCore 0 (fun c => { c with mmaPend := some (0, .mma { ins8 with tiles := 2047 }), stepEnd := 7 }), by decide, by decide,
      by decide, by decide, by decide, by decide, by decide, by decide, by decide, by decide, by decide, fun _ => rfl⟩,
    ⟨(cyclesOn 24 (running 0)).modCore 0 (fun c => { c with mmaPend := some (3, .mma ins8), stepEnd := 28, ramp := some 32, rdRun := some ⟨2, 0, none, 60, 80⟩ }),
      by decide⟩,
    ⟨(running 0).modCore 0 (fun c => { c with rdPend := some (0, .drain 2 0 0 0 false false) }), by decide⟩,
    ⟨(running 0).modCore 0 (fun c => { c with rdPend := some (0, .emit 0 0 6 0), rdRun := some ⟨0, 0, none, 7, 7⟩ }), by decide⟩⟩
/-- A plain drain's 256 elements lie apart (element bytes by row and column). -/
theorem witness_drain_rows_apart : ∀ i i' n n' : Fin 16, spAddr 0 (i.val * 32 + n.val * 2) = spAddr 0 (i'.val * 32 + n'.val * 2) →
    i = i' ∧ n = n' := by decide +kernel
/-- A first verdict; a re-run; which pass and which fail the two tests on verdicts below show. -/
theorem witness_TileVerdicts :
    (((onRun false).core 0).flight = [run8] ∧ (onRun false).stopped 0 = false ∧
      ((onRun false).core 0).readBefore 0 0 ((onRun false).cycle 0 7) = false ∧ (onRun false).tileOperands 0 run8 = some run8 ∧
      (onRun false).furRuns 0 = false ∧ ((onRun false).core 0).feed = none) ∧
    ((onRun true).core 0).flight = [run8] ∧ ((onRun true).core 0).retry = true ∧ (onRun true).croftIssues 0 = true := by
  decide
theorem witness_ArrayUpkeepAndTallyBinding :
    (∃ s : State, (s.core 0).feed = none ∧ (s.core 0).stepEnd + 64 ≤ s.cycleEnd 0 ∧ s.stopped 0 = false) ∧
    (∃ s : State, s.anyStaged [Reg.ARR_REPAIR.SPARE_EN, Reg.ARR_REPAIR.BAD_ROW] 0 = true ∧ s.rd Reg.HND_STAT.HALTED 0 = 1 ∧
      s.stg Reg.ARR_REPAIR.BAD_ROW 0 = 16 ∧ s.stg Reg.ARR_REPAIR.SPARE_EN 0 = 1 ∧ s.rd Reg.ARR_REPAIR.SPARE_GOOD 0 = 1) ∧
    (∃ s : State, s.anyStaged [Reg.ARR_REPAIR.SPARE_EN, Reg.ARR_REPAIR.BAD_ROW] 0 = true ∧ s.stg Reg.ARR_REPAIR.BAD_ROW 0 = 17) ∧
    (∃ s : State, s.canIssue 0 = true) ∧
    (∃ s : State, (s.core 0).hold = .tlyBind 3 0x1A439 ∧ s.tallyWaits 0 3 = false ∧ s.stopped 0 = false ∧ (s.core 0).runOff = false ∧
      s.rd Reg.TLY_BIND.BOUND 0 3 = 1 ∧ (s.core 0).flush = none) ∧
    (∃ s : State, (s.core 0).hold = .tlyBind 3 0x1A439 ∧ s.tallyWaits 0 3 = false ∧ s.stopped 0 = false ∧ (s.core 0).runOff = true ∧
      s.rd Reg.TLY_BIND.BOUND 0 3 = 0 ∧ s.rd Reg.HND_STAT.HALTED 0 = 0) ∧
    (∃ s : State, (s.core 0).hold = .none ∧ (s.core 0).binds = [(3, 0x1A439)] ∧ s.tallyWaits 0 3 = false ∧ s.rd Reg.TLY_BIND.BOUND 0 3 = 0) :=
  ⟨⟨cyclesOn 64 (running 0), by decide⟩,
    ⟨staged (put State.reset [(Reg.ARR_REPAIR.SPARE_GOOD, 1, 0, 0)]) [(Reg.ARR_REPAIR.SPARE_EN, 1, 0, 0), (Reg.ARR_REPAIR.BAD_ROW, 16, 0, 0)],
      by decide⟩,
    ⟨staged State.reset [(Reg.ARR_REPAIR.BAD_ROW, 17, 0, 0)], by decide⟩,
    ⟨running 0, by decide⟩,
    ⟨(put (running 0) [(Reg.TLY_BIND.BOUND, 1, 0, 3)]).modCore 0 (fun c => { c with hold := .tlyBind 3 0x1A439 }), by decide⟩,
    ⟨(running 2047).modCore 0 (fun c => { c with hold := .tlyBind 3 0x1A439, runOff := true }), by decide⟩,
    ⟨State.reset.modCore 0 (fun c => { c with binds := [(3, 0x1A439)] }), by decide⟩⟩

/-- R60, R61: a plane that agrees with its checksums merges; a disturbed cell is found at row 1, column 1. -/
theorem test_verdict_merges : let t := after (.tileRerunVerdict 0 (cells8 [])) (onRun true)
    t.binCell 0 0 15 = 2 ∧ t.binCell 0 0 16 = 0 ∧ (t.core 0).flight = [] := by decide +kernel
theorem test_verdict_locates : let t := after (.tileVerdict 0 (cells8 [(1, 1, 65)]) 0) (onRun false)
    t.rd Reg.ARR_CHK.LOC_ROW 0 = 1 ∧ t.rd Reg.ARR_CHK.LOC_COL 0 = 1 ∧ t.rd Reg.ARR_CHK.CHK_TOTAL 0 = 1 := by decide +kernel
/-- R41: an integer merge stops at the limit and sets ISAT. -/
theorem test_merge_saturates : (satInt32 (2147483647 + 64)) = (0x7FFFFFFF, true) := by decide

/-! ### The furrow -/

/-- Segment 0: croft 0, in use and running with lap 400; core 0 at position 0. -/
def seg0 (run : Nat) : State :=
  put (running 0) [(Reg.FUR_SEG.EN, 1, 0, 0), (Reg.FUR_SEG.ORIGIN, 0, 0, 0), (Reg.FUR_SEG.CROWS, 1, 0, 0), (Reg.FUR_SEG.CCOLS, 1, 0, 0),
    (Reg.FUR_SEG.LAP, 400, 0, 0), (Reg.FUR_RUN.RUN, run, 0, 0), (Reg.FUR_POS.IN_SEG, 1, 0, 0)]
/-- An entry or capture of one BF16 tile on lane A at beat b. -/
def fop (b : Nat) : FurOp := { fmt := 2, lane := 0, trans := false, desc := 0, sdesc := 0, beat := b, tiles := 1, done := 0 }
/-- Sixteen beats entered at position 3, a lap earlier than they are seen at position 0. -/
def beats16 : List Payload := (List.range 16).map (fun j => ⟨0, 3, 100 + j, List.replicate 34 (BitVec.ofNat 8 j), none⟩)

/-- Segment 0 running, its croft n cycles behind its START. -/
def beatsOn (n : Nat) (s : State) : State := (cyclesOn n s).modSeg 0 (fun x => { x with base := [(0, 0, 0)], ended := none })

theorem witness_FurrowInstructionsArm : ∃ (w : FurWord) (s : State), Ready s 0 ∧ codeOk w.fmt.toNat = true ∧ w.trans = 0 ∧ w.rsv = 0 ∧
    s.rd Reg.FUR_POS.IN_SEG 0 = 1 ∧ s.furDescOk 0 w false = true ∧ s.furDescOk 0 w true = true ∧ w.tiles ≠ 0 ∧
    (s.core 0).engine 0 = (none, none) ∧ s.furRuns 0 = true ∧ s.ringBeat 0 0 < (s.h 0 w.hb.toNat).toNat % 2 ^ 48 ∧ s.stepsRead 0 0 0 = false :=
  ⟨{ fmt := 2, lane := 0, trans := 0, hs := 8, hb := 9, tiles := 16, rsv := 0 }, (seg0 1).setH 0 9 15872, by unfold Ready; decide⟩
/-- The array still reads operand A: an AMMA with tiles to come. -/
theorem witness_FurrowSlotFault : ∃ s : State, Ready s 0 ∧ (s.core 0).engine 0 = (none, none) ∧ s.furRuns 0 = true ∧
    s.ringBeat 0 0 < 15872 ∧ s.stepsRead 0 0 0 = true :=
  ⟨(seg0 1).modCore 0 (fun c => { c with feed := some ⟨0, { ins8 with tiles := 9 }, 3, false, 0⟩, stepEnd := 144 }), by unfold Ready; decide⟩
theorem witness_FurrowWaitEntryAndCapture :
    (∃ s : State, Ready s 0 ∧ s.rd Reg.FUR_POS.IN_SEG 0 = 1 ∧ s.furRuns 0 = true ∧ s.consBeat 0 0 = (s.h 0 10).toNat) ∧
    (∃ s : State, Ready s 0 ∧ s.rd Reg.FUR_POS.IN_SEG 0 = 1 ∧ s.furRuns 0 = false) ∧
    (∃ s : State, (s.core 0).hold = .fwait 0 ∧ s.furRuns 0 = true ∧ (0 : Int) ≤ s.consBeat 0 0 ∧ s.stopped 0 = false ∧
      (s.core 0).runOff = false) ∧
    (∃ s : State, (s.core 0).hold = .fwait 0 ∧ s.furRuns 0 = true ∧ (0 : Int) ≤ s.consBeat 0 0 ∧ s.stopped 0 = false ∧
      (s.core 0).runOff = true ∧ s.rd Reg.HND_STAT.HALTED 0 = 0) ∧
    (∃ s : State, (s.core 0).engine 0 = (some (fop 0), none) ∧ s.segOf 0 = some 0 ∧ s.rd Reg.FUR_RUN.RUN (j := 0) = 1 ∧ s.rd Reg.SP_STAT.LOCKED 0 = 0 ∧
      (fop 0).done < min (16 * (fop 0).tiles) (s.ringBeat 0 7 + 1 - (fop 0).beat).toNat ∧
      (∀ k < 16, arrivesLive (s.lap 0) (s.seg 0).ring 0 0 (0 + k) = false ∧
        meetsEntry (s.lap 0) (s.seg 0).ring 0 0 (0 + k) = none) ∧ ∀ cw, s.wordErr 0 cw = 0) ∧
    ∃ s : State, (s.core 0).engine 2 = (some (fop 500), none) ∧ s.segOf 0 = some 0 ∧ s.rd Reg.FUR_RUN.RUN (j := 0) = 1 ∧ s.rd Reg.SP_STAT.LOCKED 0 = 0 ∧
      (fop 500).done < min 16 (s.ringBeat 0 7 + 1 - (fop 500).beat).toNat ∧ codeMx (fop 500).fmt = false ∧
      (∀ j : Fin 16, (findPayload (s.lap 0) (s.seg 0).ring 0 0 (500 + j.val)).isSome = true) ∧ dAddr (fop 500).desc % 32 = 0 :=
  ⟨⟨beatsOn 0 (seg0 1), by unfold Ready; decide⟩, ⟨seg0 0, by unfold Ready; decide⟩,
    ⟨(beatsOn 5 (seg0 1)).modCore 0 (fun c => { c with hold := .fwait 0 }), by decide⟩,
    ⟨(beatsOn 5 (seg0 1)).modCore 0 (fun c => { c with hold := .fwait 0, runOff := true }), by decide⟩,
    ⟨(beatsOn 10 (seg0 1)).modCore 0 (fun c => c.setEngine 0 (some (fop 0), none)), by decide, by decide, by decide, by decide, by decide,
      by decide, fun _ => rfl⟩,
    ⟨((beatsOn 515 (seg0 1)).modCore 0 (fun c => c.setEngine 2 (some (fop 500), none))).modSeg 0 (fun x => { x with ring := beats16 }),
      by decide⟩⟩
/-- Croft 0 in enclosure 0 by its shape, its holding at OP0. -/
def oneCroft : State :=
  put State.reset [(Reg.ENCL_STATE.STATE, 2, 0, 0), (Reg.ENCL_SHAPE.CROWS, 1, 0, 0), (Reg.ENCL_SHAPE.CCOLS, 1, 0, 0), (Reg.HOLD_OP.CUR, 0, 0, 0)]
/-- Segment 0 committed (LAP_MIN of one croft is 335) and taken out of use; no rectangle; START, STOP, and their bells, the first at tick 0. -/
theorem witness_FurrowSegments :
    (∀ en < 2, ∃ s : State, s.anyStaged [Reg.FUR_SEG.ORIGIN, Reg.FUR_SEG.CROWS, Reg.FUR_SEG.CCOLS, Reg.FUR_SEG.ENCL, Reg.FUR_SEG.EN, Reg.FUR_SEG.LAP]
      (j := 0) = true ∧ s.stg Reg.FUR_SEG.EN (j := 0) = en ∧ s.segAgrees 0 = true) ∧
    (∃ s : State, s.anyStaged [Reg.FUR_SEG.ORIGIN, Reg.FUR_SEG.CROWS, Reg.FUR_SEG.CCOLS, Reg.FUR_SEG.ENCL, Reg.FUR_SEG.EN, Reg.FUR_SEG.LAP]
      (j := 0) = true ∧ s.segAgrees 0 = false) ∧
    (∃ s : State, s.rd Reg.FUR_SEG.EN (j := 0) = 1 ∧ s.rd Reg.FUR_RUN.RUN (j := 0) = 0) ∧
    (∃ s : State, s.rd Reg.FUR_RUN.RUN (j := 0) = 1) ∧
    (∃ s : State, (s.seg 0).startReq = some 0 ∧ 0 ≤ s.now ∧ s.now % 1024 = 0) ∧
    (∃ s : State, (s.seg 255).stopReq = some 1 ∧ 1 ≤ s.now ∧ s.now % 1024 = 0 ∧ (s.seg 255).held = none) ∧
    ∃ s : State, (s.seg 0).stopReq = some 1 ∧ 1 ≤ s.now ∧ s.now % 1024 = 0 ∧ (s.seg 0).held ≠ none ∧ (s.segCores 0).Nodup ∧ 0 ∈ s.segCores 0 ∧
      s.heldCycles 0 0 = 10 ∧ (s.core 0).stepEnd ≠ 0 :=
  ⟨fun en h => ⟨if en = 1 then staged oneCroft [(Reg.FUR_SEG.CROWS, 1, 0, 0), (Reg.FUR_SEG.CCOLS, 1, 0, 0), (Reg.FUR_SEG.EN, 1, 0, 0),
        (Reg.FUR_SEG.LAP, 336, 0, 0)] else staged oneCroft [(Reg.FUR_SEG.EN, 0, 0, 0)], by interval_cases en <;> decide +kernel⟩,
    ⟨staged State.reset [(Reg.FUR_SEG.EN, 1, 0, 0)], by decide +kernel⟩, ⟨seg0 0, by decide⟩,
    ⟨seg0 1, by decide⟩, ⟨State.reset.modSeg 0 (fun x => { x with startReq := some 0 }), by decide⟩,
    ⟨(put State.reset [(Reg.ALM_TICK.TICK, 1024, 0, 0)]).modSeg 255 (fun x => { x with stopReq := some 1 }), by decide⟩,
    ⟨((put (beatsOn 10 (seg0 1)) [(Reg.ALM_TICK.TICK, 1024, 0, 0)]).modCore 0 (fun c => { c with stepEnd := 40 })).modSeg 0
      (fun x => { x with stopReq := some 1, held := some ⟨0, 0, 0, 18⟩, heldBase := [(0, 0)] }), by decide +kernel⟩⟩
theorem witness_FurrowHolds :
    (∃ s : State, (s.seg 0).holds = [⟨0, 0, 0, 18⟩] ∧ (s.seg 0).held = none ∧ 0 + 8 ≤ s.now ∧ s.rd Reg.FUR_RUN.RUN (j := 0) = 1 ∧
      s.segOf 0 = some 0 ∧ s.rd Reg.FUR_STAT.CATCH 0 = 0 ∧ s.cycle 0 0 < s.holdFrom 0 0 8 + 18) ∧
    (∃ s : State, (s.seg 0).held = some ⟨0, 0, 0, 16⟩ ∧ s.segCrofts 0 = [0] ∧ 16 ≤ s.heldFor 0 0 0) :=
  ⟨⟨(put (beatsOn 70 (seg0 1)) [(Reg.ALM_TICK.TICK, 8, 0, 0)]).modSeg 0 (fun x => { x with holds := [⟨0, 0, 0, 18⟩] }), by decide⟩,
    ⟨(beatsOn 16 (seg0 1)).modSeg 0 (fun x => { x with held := some ⟨0, 0, 0, 16⟩, heldBase := [(0, 0)] }), by decide⟩⟩
/-- R147: START of segment 0 in use at a bell's tick acts at the next one. -/
theorem test_start_waits_for_next_bell : (after (.segmentRun 0) (after (.furRunStart 0) (seg0 0))).rd Reg.FUR_RUN.RUN (j := 0) = 0 := by decide

/-! ### Drills -/

/-- A drill's state in core 0. -/
def drill0 (f : DrillX → DrillX) : State :=
  (put (running 3) [(Reg.DRL_CFG.OUT1, 4, 0, 0)]).modCore 0
    (fun c => { c with drills := c.drills.set 1 (f ⟨[], none, none, [], [], false, false⟩) })
/-- A running descriptor of these words. -/
def desc (ws : List Word) : DescRun :=
  { words := ws, next := 0, nextScale := 0, scales := [], status := 0, errs := 0, failed := false, parts := [] }
/-- The descriptor of chapter 08's example. -/
def words4D : List Word :=
  [0x0000000700000042#64, 0x00007F3A00100C00#64, 0x0000000000008000#64, 0x0002000300040040#64, 0x0000000200000002#64,
   0x0000008000000400#64, 0x0000020000002000#64, 0x0000060000010000#64]
/-- A read of 64 bytes from slow-tier address 0 into the scratchpad; a gate write through GCR 0. -/
def wordsSlow : List Word := [0x0000000000000001#64, 0, 0x100#64, 0x0001000100010040#64, 0x0000000100000001#64, 0, 0, 0]
def wordsGate : List Word := [0x0000000000000018#64, 0, 0, 0x0001000100010040#64, 0x0000000100000001#64, 0, 0, 0]
def xfer (done : Option Nat) : Xfer := { tag := 5, kind := .read, scale := false, unit := 0, count := 64, addr := 0, bytes := 64, done := done }

theorem witness_DrillArmingAndWaiting :
    (∃ (w : DrillWord) (s : State), Ready s 0 ∧ FourDrills s 0 ∧ w.mode = 0 ∧ w.rsv = 0 ∧ (1 : DrillId).val = w.d.toNat ∧
      (s.drill 0 1).claims.length < 2 ∧ (s.drill 0 1).active = none) ∧
    (∃ s : State, Ready s 0 ∧ FourDrills s 0 ∧ (s.drill 0 1).claims.length = 2) ∧
    (∃ s : State, Ready s 0 ∧ s.pendingFree 0 1 = true) ∧ (∃ s : State, Ready s 0 ∧ s.pendingFree 0 1 = false) ∧
    (∃ s : State, s.stopped 0 = false ∧ (s.core 0).hold = .dwait 1 0 ∧ (s.rd Reg.DRL_DONE.DONE 0 1 + 2 ^ 32 - 0 % 2 ^ 32) % 2 ^ 32 < 2 ^ 31 ∧
      (s.core 0).runOff = false) ∧
    (∃ s : State, s.stopped 0 = false ∧ (s.core 0).hold = .dwaitPending 1 ∧ s.pendingFree 0 1 = true ∧ (s.core 0).runOff = true ∧
      s.rd Reg.HND_STAT.HALTED 0 = 0) :=
  ⟨⟨{ d := 1, hs := 12, mode := 0, rsv := 0 }, running 3, by unfold Ready FourDrills; decide⟩,
    ⟨drill0 (fun x => { x with claims := [(0, 0), (64, 0)] }), by unfold Ready FourDrills; decide⟩,
    ⟨running 3, by unfold Ready; decide⟩, ⟨drill0 (fun x => { x with active := some (desc words4D), pending := some words4D }), by unfold Ready; decide⟩,
    ⟨(running 3).modCore 0 (fun c => { c with hold := .dwait 1 0 }), by decide⟩,
    ⟨(running 2047).modCore 0 (fun c => { c with hold := .dwaitPending 1, runOff := true }), by decide⟩⟩
/-- A claimed descriptor of zero words but the first (N0 of 0 makes it one without units), and one that fails an item. -/
theorem witness_DescriptorCheck :
    (∃ s : State, FourDrills s 0 ∧ (∀ cw, s.wordErr 0 cw = 0) ∧ (s.drill 0 1).claims = [(0x3F000, 0)] ∧ s.croftIssues 0 = true ∧
      s.malform 0 1 0x3F000 words4D = 0 ∧ dUnits words4D ≠ 0) ∧
    (∃ s : State, s.rd Reg.HND_STAT.HALTED 0 ≠ 1 ∧ s.malform 0 1 0x3F000 [0x0000000700000042#64, 0, 0, 0, 0, 0, 0, 0x10#64] = 0) ∧
    (∃ s : State, s.rd Reg.HND_STAT.HALTED 0 ≠ 1 ∧ s.malform 0 1 0x3F001 words4D ≠ 0) :=
  ⟨⟨drill0 (fun x => { x with claims := [(0x3F000, 0)] }), by unfold FourDrills; decide, fun _ => rfl, by decide,
      by decide, by decide +kernel, by decide +kernel⟩,
    ⟨drill0 id, by decide +kernel⟩, ⟨drill0 id, by decide +kernel⟩⟩
theorem witness_DrillFormingAndCompletion :
    (∃ s : State, FourDrills s 0 ∧ (s.drill 0 1).active = some (desc wordsSlow) ∧ (s.drill 0 1).paused = false ∧
      (desc wordsSlow).failed = false ∧ (s.drill 0 1).out.length < s.outLimit 0 1 ∧ s.croftIssues 0 = true ∧ (s.stagedBy 0 1).length < 2 ∧ s.compQ = [] ∧
      0 < dUnits wordsSlow ∧ dMx wordsSlow = false ∧ dSkind wordsSlow = 1 ∧ dDkind wordsSlow = 0 ∧
      s.tabkoOf (nextXfer wordsSlow 0).1 = some 0) ∧
    (∃ s : State, FourDrills s 0 ∧ (s.drill 0 1).active = some (desc wordsGate) ∧ (s.drill 0 1).out.length < s.outLimit 0 1 ∧
      s.croftIssues 0 = true ∧ 3 ≤ dDkind wordsGate ∧ dMx wordsGate = false ∧ 0 < dUnits wordsGate ∧ s.rd Reg.GCR.UNITS 0 (dGcr wordsGate) = 0) ∧
    (∃ s : State, FourDrills s 0 ∧ (s.drill 0 1).active = some (desc wordsSlow) ∧
      (s.drill 0 1).out.find? (fun p => decide (p.tag = 5) && p.done.isSome) = some (xfer (some 0)) ∧ (s.drill 0 1).paused = false ∧
      s.croftLive 0 = true ∧ (s.core 0).compIn = []) ∧
    (∃ s : State, FourDrills s 0 ∧ s.croftLive 0 = false) ∧
    (∃ s : State, FourDrills s 0 ∧ s.croftLive 0 = true ∧ (s.drill 0 1).paused = true ∧ (s.drill 0 1).active = some (desc words4D) ∧ (s.drill 0 1).pending = none) :=
  ⟨⟨drill0 (fun x => { x with active := some (desc wordsSlow) }),
      by unfold FourDrills; decide +kernel⟩,
    ⟨drill0 (fun x => { x with active := some (desc wordsGate) }), by unfold FourDrills; decide +kernel⟩,
    ⟨drill0 (fun x => { x with active := some (desc wordsSlow), out := [xfer (some 0)] }), by unfold FourDrills; decide⟩,
    ⟨State.reset, by unfold FourDrills; decide⟩,
    ⟨drill0 (fun x => { x with active := some (desc words4D), paused := true }), by unfold FourDrills; decide⟩⟩
theorem witness_DrillLocalCopyAndAbort :
    (∃ (s : State) (r : DescRun) (n src dst : Nat), FourDrills s 0 ∧ (s.drill 0 1).active = some r ∧ (s.drill 0 1).pending = none ∧
      s.croftIssues 0 = true ∧ n ≤ 32 ∧ 1 ≤ n ∧ src < 2 ^ 18 ∧ dst < 2 ^ 18 ∧
      r.words = [0, BitVec.ofNat 64 src, BitVec.ofNat 64 dst, BitVec.ofNat 64 (n + 0x1000100010000), 0x100000001, 0, 0, 0] ∧
      r.failed = false ∧ r.status = 0 ∧ r.errs = 0) ∧
    (∃ s : State, FourDrills s 0 ∧ s.corePresent 0 = true) :=
  ⟨⟨drill0 (fun x => { x with active := some (desc [0, 0, 0x3FFE0, 0x1000100010020, 0x100000001, 0, 0, 0]) }),
      desc [0, 0, 0x3FFE0, 0x1000100010020, 0x100000001, 0, 0, 0], 32, 0, 0x3FFE0, by unfold FourDrills; decide⟩,
    ⟨running 0, by unfold FourDrills; decide⟩⟩

/-- Chapter 08's example: 24 transfers of 128 bytes; transfer 5 begins at row (0,1,1,0). -/
theorem test_descriptor_units : dUnits words4D = 1536 ∧ (nextXfer words4D 0).2.2 = 128 ∧ (nextXfer words4D 0).1 = 0x7F3A00100C00 ∧
    (nextXfer words4D (5 * 64)).1 = 0x7F3A00103000 := by decide +kernel

/-! ### Scratchpad, start, stop -/

theorem witness_GatesStartAndDrillLimits :
    (∃ s : State, s.anyStaged [Reg.GATE_WIN.BASE, Reg.GATE_WIN.SIZE] 0 2 = true ∧ s.stg Reg.GATE_WIN.BASE 0 2 = 0x3F000 ∧
      s.stg Reg.GATE_WIN.SIZE 0 2 = 0x1000 ∧ s.rd Reg.GATE_EPOCH.OPEN 0 2 ≠ 1) ∧
    (∃ s : State, s.anyStaged [Reg.GATE_WIN.BASE, Reg.GATE_WIN.SIZE] 0 2 = true ∧ 0x40000 < s.stg Reg.GATE_WIN.BASE 0 2 + s.stg Reg.GATE_WIN.SIZE 0 2) ∧
    (∃ s : State, s.rd Reg.GATE_EPOCH.OPEN 0 7 ≠ 1 ∧ s.rd Reg.GATE_WIN.SIZE 0 7 ≠ 0 ∧ s.rd Reg.SP_STAT.LOCKED 0 = 0) ∧ (∃ s : State, s.rd Reg.GATE_EPOCH.OPEN 0 7 = 1) ∧
    (∃ s : State, s.rd Reg.HND_STAT.HALTED 0 = 1 ∧ s.corePresent 0 = true ∧ s.rd Reg.SP_STAT.LOCKED 0 = 0) ∧
    (∃ s : State, s.rd Reg.HND_STAT.HALTED 0 = 1 ∧ s.corePresent 0 = true ∧ s.rd Reg.SP_STAT.LOCKED 0 = 1) ∧
    (∃ s : State, s.corePresent 0 = true ∧ s.rd Reg.HND_STAT.HALTED 0 ≠ 1 ∧ FourDrills s 0) ∧
    (∃ s : State, [Reg.DRL_CFG.OUT0, Reg.DRL_CFG.OUT1, Reg.DRL_CFG.OUT2, Reg.DRL_CFG.OUT3].map (fun f => s.stg f 0) = [8, 8, 0, 0] ∧
      s.isStaged Reg.DRL_CFG.OUT0 0 = true) ∧
    (∃ s : State, [Reg.DRL_CFG.OUT0, Reg.DRL_CFG.OUT1, Reg.DRL_CFG.OUT2, Reg.DRL_CFG.OUT3].map (fun f => s.stg f 0) = [8, 8, 1, 0] ∧
      s.isStaged Reg.DRL_CFG.OUT0 0 = true) :=
  ⟨⟨staged State.reset [(Reg.GATE_WIN.BASE, 0x3F000, 0, 2), (Reg.GATE_WIN.SIZE, 0x1000, 0, 2)], by decide⟩,
    ⟨staged State.reset [(Reg.GATE_WIN.BASE, 0x3FF00, 0, 2), (Reg.GATE_WIN.SIZE, 0x200, 0, 2)], by decide⟩,
    ⟨put State.reset [(Reg.GATE_WIN.SIZE, 0x100, 0, 7)], by decide⟩, ⟨put State.reset [(Reg.GATE_EPOCH.OPEN, 1, 0, 7)], by decide⟩,
    ⟨State.reset, by decide⟩, ⟨put State.reset [(Reg.SP_STAT.LOCKED, 1, 0, 0)], by decide⟩,
    ⟨running 0, by unfold FourDrills; decide⟩,
    ⟨staged State.reset [(Reg.DRL_CFG.OUT0, 8, 0, 0), (Reg.DRL_CFG.OUT1, 8, 0, 0), (Reg.DRL_CFG.OUT2, 0, 0, 0), (Reg.DRL_CFG.OUT3, 0, 0, 0)], by decide⟩,
    ⟨staged State.reset [(Reg.DRL_CFG.OUT0, 8, 0, 0), (Reg.DRL_CFG.OUT1, 8, 0, 0), (Reg.DRL_CFG.OUT2, 1, 0, 0), (Reg.DRL_CFG.OUT3, 0, 0, 0)], by decide⟩⟩
theorem witness_ClassesScrubAndWipe :
    (∃ s : State, s.isStaged Reg.SP_CLASS.CLASS 0 = true ∧ s.corePresent 0 = true ∧ s.rd Reg.HND_STAT.HALTED 0 = 1 ∧
      s.rd Reg.SP_STAT.WIPE_BUSY 0 = 0 ∧ (s.core 0).reclass = []) ∧
    (∃ s : State, s.isStaged Reg.SP_CLASS.CLASS 0 = true ∧ s.corePresent 0 = true ∧ s.rd Reg.HND_STAT.HALTED 0 = 1 ∧
      s.rd Reg.SP_STAT.WIPE_BUSY 0 = 0 ∧ (s.core 0).reclass = [(15, true)] ∧ s.rd Reg.SP_CLASS.CLASS 0 = 0 ∧ (s.stg Reg.SP_CLASS.CLASS 0).testBit 15 = true) ∧
    (∃ s : State, s.isStaged Reg.SP_CLASS.CLASS 0 = true ∧ s.corePresent 0 = true ∧ s.rd Reg.HND_STAT.HALTED 0 = 0) ∧
    (∃ s : State, s.rd Reg.SP_STAT.RECLASS_BUSY 0 = 1 ∧ (∀ cw, s.wordErr 0 cw = 0) ∧ s.croftLive 0 = true) ∧
    (∃ s : State, s.rd Reg.SP_SCRUB.EN 0 = 1 ∧ s.rd Reg.SP_STAT.WIPE_BUSY 0 = 0 ∧ s.rd Reg.SP_STAT.RECLASS_BUSY 0 = 0 ∧ s.corePresent 0 = true ∧
      s.croftLive 0 = true ∧ (s.core 0).scrubBack = none ∧ s.scrubNext 0 (s.core 0).scrub = some 0x3FFE0 ∧ s.wordErr 0 0x3FFE0 = 0 ∧ s.wordErr 0 0x3FFF0 = 0) ∧
    (∃ s : State, (s.core 0).scrubBack = some 0 ∧ s.croftLive 0 = true ∧ s.wordErr 0 16 = 1) ∧
    (∃ s : State, s.rd Reg.HND_STAT.HALTED 0 = 1 ∧ s.corePresent 0 = true ∧ s.rd Reg.SP_STAT.WIPE_BUSY 0 = 0 ∧ FourDrills s 0) ∧
    (∃ s : State, s.rd Reg.SP_STAT.WIPE_BUSY 0 = 1 ∧ (s.core 0).copy = none ∧ s.croftLive 0 = true ∧
      ∀ n < 16, s.enclOfCore 0 = some n → (s.encl n).haltDue = none) :=
  ⟨⟨staged State.reset [(Reg.SP_CLASS.CLASS, 0x8000, 0, 0)], by decide⟩,
    ⟨(staged State.reset [(Reg.SP_CLASS.CLASS, 0x8000, 0, 0)]).modCore 0 (fun c => { c with reclass := [(15, true)] }), by decide⟩,
    ⟨staged (running 0) [(Reg.SP_CLASS.CLASS, 1, 0, 0)], by decide⟩,
    ⟨put (running 0) [(Reg.SP_STAT.RECLASS_BUSY, 1, 0, 0)], by decide, fun _ => rfl, by decide⟩,
    ⟨(put (running 0) [(Reg.SP_SCRUB.EN, 1, 0, 0), (Reg.SP_CLASS.CLASS, 0x8000, 0, 0)]).modCore 0
      (fun c => { c with scrub := 0x3FFE0 }), by decide +kernel⟩,
    ⟨((running 0).setErr 0 16 1).modCore 0 (fun c => { c with scrubBack := some 0 }), by decide⟩,
    ⟨State.reset, by unfold FourDrills; decide⟩, ⟨put (running 0) [(Reg.SP_STAT.WIPE_BUSY, 1, 0, 0)], by decide +kernel⟩⟩

/-- R136: a wipe starts by locking the core and advancing its epochs. -/
theorem test_wipe_advances_epochs : let t := after (.wipeStart 0) (put State.reset [(Reg.GATE_EPOCH.EPOCH, 7, 0, 2)])
    t.rd Reg.GATE_EPOCH.EPOCH 0 2 = 8 ∧ t.rd Reg.GATE_EPOCH.EPOCH 0 0 = 1 ∧ t.rd Reg.SP_STAT.LOCKED 0 = 1 := by decide +kernel
/-- R117: STOP sets CAUSE 4; R130: opening a gate of SIZE 0 does nothing. -/
theorem test_stop_cause : (after (.stop 0) (running 9)).rd Reg.HND_STAT.CAUSE 0 = 4 := by decide
theorem test_open_empty_gate : (after (.gateOpen 0 3) State.reset).rd Reg.GATE_EPOCH.OPEN 0 3 = 0 := by decide

/-! ### Clocks -/

/-- A state whose steading runs, at tick n. -/
def ticking (n : Nat) : State := let s := put State.reset [(Reg.ALM_TICK.TICK, n, 0, 0)]; { s with pins := { s.pins with rstN := true } }

/-- The same with the references started. -/
def started (n : Nat) (l : List (Fld × Nat × Nat × Nat)) : State := put (ticking n) ((Reg.BOOT_STAT.PHASE, 14, 0, 0) :: l)

theorem witness_SyncInstructions :
    (∃ (w : SyncWord) (s : State), Ready s 0 ∧ w.rsv = 0 ∧ w.hs = 0 ∧ w.cnt = 0) ∧
    (∃ s : State, Ready s 0 ∧ (s.h 0 5).toNat % 2 ^ 48 ≤ s.estTick 0) ∧ (∃ s : State, Ready s 0 ∧ s.estTick 0 < (s.h 0 5).toNat % 2 ^ 48) ∧
    (∃ s : State, Ready s 0 ∧ ¬(s.rd Reg.SYN_CNT.COUNT 0 0 + 2 ^ 32 - (s.h 0 5).toNat % 2 ^ 32) % 2 ^ 32 < 2 ^ 31) ∧
    (∀ b : Bool, ∃ s : State, s.stopped 0 = false ∧ (s.core 0).hold = .twait 0 ∧ 0 ≤ s.estTick 0 ∧ (s.core 0).runOff = b ∧
      s.rd Reg.HND_STAT.HALTED 0 = 0) ∧
    (∃ s : State, s.stopped 0 = false ∧ (s.core 0).hold = .swait 7 0 ∧ (s.core 0).runOff = false ∧ (s.rd Reg.SYN_CNT.COUNT 0 7 + 2 ^ 32 - 0 % 2 ^ 32) % 2 ^ 32 < 2 ^ 31) :=
  ⟨⟨{ hd := 3, hs := 0, cnt := 0, rsv := 0 }, running 0, by unfold Ready; decide⟩, ⟨running 0, by unfold Ready; decide⟩,
    ⟨(running 0).setH 0 5 100, by unfold Ready; decide⟩, ⟨(running 0).setH 0 5 1, by unfold Ready; decide⟩,
    fun b => ⟨(running 2047).modCore 0 (fun c => { c with hold := .twait 0, runOff := b }), by cases b <;> decide⟩,
    ⟨(running 0).modCore 0 (fun c => { c with hold := .swait 7 0 }), by decide⟩⟩
theorem witness_ReferencesBellsAndStops :
    (∃ s : State, s.refPhase = .idle ∧ s.rd Reg.REF_CTL.ACTIVE = 0 ∧ s.refGood 1 = true ∧ s.stRuns = true ∧ s.refStarted = true ∧
      s.refGood 0 = true) ∧
    (∃ s : State, s.refPhase = .idle ∧ s.rd Reg.REF_CTL.ACTIVE = 0 ∧ s.refGood 1 = false ∧ s.stRuns = true ∧ s.refStarted = true ∧
      s.refGood 0 = true) ∧
    (∃ (s : State) (drift : List (CroftId × Int)), s.refPhase = .switching 0 false ∧ 0 + 8 ≤ s.now ∧ s.rd Reg.REF_CTL.ACTIVE = 0 ∧
      (drift.map Prod.fst).Nodup ∧ s.refGood 1 = true ∧ ∀ p ∈ drift, (s.croft p.1.val).clock = true ∧ p.2 < -(2 * unitsPerTick (s.opOf 0) : Nat)) ∧
    (∃ s : State, s.refPhase = .switching 9230 true ∧ 9230 + 64 ≤ s.now) ∧
    (∃ s : State, s.refPhase = .lost 0 ∧ 0 + 1024 ≤ s.now ∧ s.rd Reg.REF_CTL.HOLDOVER = 1) ∧
    (∃ s : State, s.refPhase = .lost 0 ∧ 0 + 1024 ≤ s.now ∧ s.rd Reg.REF_CTL.HOLDOVER = 0 ∧ s.refGood 1 = true) ∧
    (∃ s : State, (s.croft 0).clock = true) ∧
    (∃ s : State, s.now % 1024 = 0 ∧ s.bellAt ≠ some s.now ∧ s.stRuns = true ∧
      (∀ c < 256, (s.croft c).slack = s.rd Reg.HL_SLACK.S_N c + s.rd Reg.HL_SLACK.S_E c * 4 + s.rd Reg.HL_SLACK.S_S c * 16 +
        s.rd Reg.HL_SLACK.S_W c * 64) ∧ ∀ r < 2, ∀ m, Store.get s.refLoss r = some m → m + 1024 < s.now) ∧
    (∃ s : State, s.rd Reg.HOLD_OP.WAITING (j := 15) = 1 ∧ s.now % 1024 = 0 ∧ ∀ n < 16, s.uses n 15 = true → s.restsFor n 15 = true) :=
  ⟨⟨started 0 [(Reg.REF_CTL.A_GOOD, 1, 0, 0), (Reg.REF_CTL.B_GOOD, 1, 0, 0)], by decide⟩,
    ⟨started 0 [(Reg.REF_CTL.A_GOOD, 1, 0, 0)], by decide⟩,
    ⟨{ (put (ticking 8) [(Reg.REF_CTL.B_GOOD, 1, 0, 0)]).modCroft 0 (fun c => { c with clock := true }) with refPhase := .switching 0 false },
      [(0, -400)], by decide⟩,
    ⟨{ ticking 9294 with refPhase := .switching 9230 true }, by decide⟩,
    ⟨{ put (ticking 1024) [(Reg.REF_CTL.HOLDOVER, 1, 0, 0)] with refPhase := .lost 0 }, by decide⟩,
    ⟨{ put (ticking 1024) [(Reg.REF_CTL.B_GOOD, 1, 0, 0)] with refPhase := .lost 0 }, by decide⟩, ⟨running 0, by decide⟩,
    ⟨ticking 1024, by decide +kernel, by decide, by decide, by decide +kernel, fun _ _ _ h => nomatch h⟩, ⟨put (ticking 2048) [(Reg.HOLD_OP.WAITING, 1, 0, 15)], by decide +kernel⟩⟩
/-- R220, R221: REFA lost with REFB good begins a switch; R231: a lag is counted. -/
theorem test_reference_loss_switches :
    (after (.refEdgeLoss 0) (started 9230 [(Reg.REF_CTL.A_GOOD, 1, 0, 0), (Reg.REF_CTL.B_GOOD, 1, 0, 0)])).refPhase = .switching 9230 false := by
  decide +kernel

/-! ### Mesh -/

/-- A packet to core 5 from core 0 with four bytes of nothing: type, virtual channel, body, payload. -/
def pk (ty vc body : Nat) (data : List Byte) : Packet :=
  { ty := ty, vc := vc, dkind := 0, dst := 5, skind := 0, src := 9, encl := 0, tag := 5, tick := 0, status := 0, kcopy := false, body := body,
    via := 0, tree := [], data := data, poison := [] }
def mp (p : Packet) (out : Nat) : MPkt := { pkt := p, outs := [out], fresh := false, cyc := 0, segTick := 0, segCyc := 0 }
/-- A packet of a VC at the head of core 0's or 19's Local input, and in core 0's ejection buffer. -/
def arriving (core : Nat) (p : Packet) (out : Nat) : State := (running 0).setInput core 0 p.vc [mp p out]
def ejected (p : Packet) : State := (running 0).setEject 0 p.vc [p]
/-- Core 0's croft in enclosure 0 by its shape, the enclosure running. -/
def owned (s : State) : State :=
  put s [(Reg.ENCL_STATE.STATE, 2, 0, 0), (Reg.ENCL_SHAPE.CROWS, 1, 0, 0), (Reg.ENCL_SHAPE.CCOLS, 1, 0, 0)]
def noneFresh (s : State) (core : Nat) : Prop := ∀ k < 6, ∀ h, (s.inputOf core k 2).head? = some h → h.fresh = false
theorem noneFresh_of (s : State) (core : Nat) (h : ∀ k < 6, s.inputOf core k 2 = []) : noneFresh s core := by
  intro k hk m hm
  rw [h k hk] at hm
  exact absurd hm (by simp)
def noneOwn (s : State) (core : Nat) : Prop :=
  (s.core core).emit = [] ∧ (s.core core).staged = [] ∧ (s.core core).copyQ = [] ∧ (s.core core).ctl = [] ∧ (s.core core).rspOut = []

theorem witness_PacketDepartures :
    (∃ (s : State) (p : Packet) (m : MPkt), s.croftLive (croftOf 0) = true ∧ s.corePresent 0 = true ∧ noneOwn s 0 ∧
      (∀ x, portAt 0 = some x → (s.tabko x).out = []) ∧ noneFresh s 0 ∧ choose (s.candidates 0 2) = some (0, p) ∧ s.inputOf 0 0 p.vc = [m] ∧
      m.pkt = p ∧ m.outs = [2] ∧ p.ty ≠ 7 ∧ hasNeighbour 0 2 = true ∧ croftOf (neighbour 0 2) = croftOf 0 ∧ s.stiled (neighbour 0 2) = false) ∧
    (∃ (s : State) (p : Packet) (m : MPkt), s.croftLive (croftOf 19) = true ∧ s.corePresent 19 = true ∧ noneOwn s 19 ∧
      (∀ x, portAt 19 = some x → (s.tabko x).out = []) ∧ noneFresh s 19 ∧ choose (s.candidates 19 2) = some (0, p) ∧ s.inputOf 19 0 p.vc = [m] ∧
      m.pkt = p ∧ m.outs = [2] ∧ p.ty ≠ 7 ∧ hasNeighbour 19 2 = true ∧ croftOf (neighbour 19 2) ≠ croftOf 19 ∧ s.stiled (neighbour 19 2) = false ∧
      s.tripOff 1 = false ∧ (s.croft 1).relAt = none) ∧
    (∃ s : State, s.croftLive (croftOf 19) = true ∧ choose (s.candidates 19 2) = some (0, pk 2 1 0 []) ∧ s.tripOff 1 = false ∧ (s.croft 1).relAt = some 100 ∧
      (mp (pk 2 1 0 []) 2).segTick + ceilDiv (20 * (s.cycle 0 0 + 1)) (unitsPerTick (s.opOf 0)) + 2 + s.slack 0 2 ≤ 100 ∧ (s.croft 1).stall = none) ∧
    (∃ s : State, s.croftLive (croftOf 79) = true ∧ s.corePresent 79 = true ∧ noneOwn s 79 ∧ (∀ x, portAt 79 = some x → (s.tabko x).out = []) ∧ noneFresh s 79 ∧
      choose (s.candidates 79 2) = some (0, pk 2 1 0 []) ∧ s.inputOf 79 0 1 = [mp (pk 2 1 0 []) 2] ∧ hasNeighbour 79 2 = true ∧
      croftOf (neighbour 79 2) = 4 ∧ s.stiled (neighbour 79 2) = false ∧ s.tripOff 4 = true) ∧
    (∃ (s : State) (p : Packet) (m : MPkt), s.croftLive (croftOf 0) = true ∧ s.corePresent 0 = true ∧ noneOwn s 0 ∧
      (∀ x, portAt 0 = some x → (s.tabko x).out = []) ∧ noneFresh s 0 ∧ choose (s.candidates 0 0) = some (0, p) ∧ s.inputOf 0 0 p.vc = [m] ∧
      m.pkt = p ∧ m.outs = [0] ∧ p.ty ≠ 7 ∧ s.fallow 0 = false) :=
  ⟨⟨arriving 0 (pk 2 1 0 []) 2, pk 2 1 0 [], mp (pk 2 1 0 []) 2, by decide +kernel, by decide, by unfold noneOwn; decide, fun _ _ => rfl,
      noneFresh_of _ _ (by decide), by decide +kernel, by decide⟩,
    ⟨arriving 19 (pk 2 1 0 []) 2, pk 2 1 0 [], mp (pk 2 1 0 []) 2, by decide +kernel, by decide, by unfold noneOwn; decide, fun _ _ => rfl,
      noneFresh_of _ _ (by decide), by decide +kernel, by decide⟩,
    ⟨(arriving 19 (pk 2 1 0 []) 2).modCroft 1 (fun c => { c with relAt := some 100 }), by decide +kernel⟩,
    ⟨put ((arriving 79 (pk 2 1 0 []) 2).modCroft 3 (fun c => { c with clock := true })) [(Reg.PWR_DOM.CUR, 0, 0, 0), (Reg.PWR_DOM.CUR, 3, 0, 1),
        (Reg.PWR_DOM.TRIPPED, 1, 0, 1)], by decide +kernel, by decide, by unfold noneOwn; decide, fun _ _ => rfl,
      noneFresh_of _ _ (by decide), by decide +kernel⟩,
    ⟨arriving 0 (pk 2 1 0 []) 0, pk 2 1 0 [], mp (pk 2 1 0 []) 0, by decide +kernel, by decide, by unfold noneOwn; decide, fun _ _ => rfl,
      noneFresh_of _ _ (by decide), by decide +kernel, by decide⟩⟩

/-- Croft 1's clock on, a packet in the headland queue from core 19 into core 20. -/
def crossing (stamp : Nat) : State :=
  ((running 0).modCroft 1 (fun c => { c with clock := true })).setHeadland 19 2 1 [⟨pk 2 1 0 [], stamp⟩]
/-- Crofts 0 and 1 in segment 0, running; croft 1 n cycles behind the entries of croft 0. -/
def lagging (n : Nat) : State :=
  (put ((crossing 0).modCroft 1 (fun c => { c with stall := some ⟨0, 4, false⟩, lag20 := 20 * n }))
    [(Reg.FUR_SEG.EN, 1, 0, 0), (Reg.FUR_SEG.CROWS, 1, 0, 0), (Reg.FUR_SEG.CCOLS, 2, 0, 0), (Reg.FUR_SEG.LAP, 720, 0, 0), (Reg.FUR_RUN.RUN, 1, 0, 0)]).modSeg 0
      (fun x => { x with base := [(0, 0, 0), (1, 0, 0)], ended := none })
theorem witness_CreditReturnAndHeadlandRelease :
    (∃ s : State, (s.croft 1).clock = true ∧ (s.croft 1).stall = none ∧ (s.croft 1).relAt ≠ some (s.estTick 1) ∧ s.catchOver 1 = none) ∧
    (∃ s : State, (s.croft 1).clock = true ∧ (s.croft 1).stall = none ∧ (s.croft 1).relAt ≠ some (s.estTick 1) ∧ s.catchOver 1 = some 20) ∧
    (∃ s : State, (s.croft 1).clock = true ∧ (s.croft 1).relAt = some (s.estTick 1)) ∧
    (∃ s : State, (s.croft 1).clock = true ∧ (s.croft 1).relAt ≠ some (s.estTick 1) ∧ (s.croft 1).stall = some ⟨0, 4, false⟩ ∧
      s.rd Reg.FUR_RUN.RUN (j := 0) = 1 ∧ 1 ∈ s.segCrofts 0 ∧ s.catchOver 1 = none ∧ s.crossOverflow 0 1 = none ∧ ∀ g < 256, g ≠ 0 → s.rd Reg.FUR_RUN.RUN (j := g) = 0) ∧
    (∃ (s : State) (c : Nat), (s.croft 1).clock = true ∧ (s.croft 1).relAt ≠ some (s.estTick 1) ∧ (s.croft 1).stall = some ⟨0, 4, false⟩ ∧
      s.rd Reg.FUR_RUN.RUN (j := 0) = 1 ∧ 1 ∈ s.segCrofts 0 ∧ s.catchOver 1 = none ∧ s.crossOverflow 0 1 = some c ∧ croftOf c = 1) ∧
    (∃ (s : State) (y : Stall), (s.croft 1).clock = true ∧ (s.croft 1).stall = some y ∧ y.furrow = false ∧
      (s.croft 1).relAt ≠ some (s.estTick 1) ∧ s.waveOf 1 = none ∧ s.catchOver 1 = none ∧
      ∀ g < 256, s.rd Reg.FUR_RUN.RUN (j := g) = 1 → 1 ∈ s.segCrofts g → s.crossOverflow g 1 = none) ∧
    (∃ (s : State) (y : Stall), (s.croft 1).clock = true ∧ (s.croft 1).stall = some y ∧ (s.croft 1).relAt ≠ some (s.estTick 1) ∧
      s.waveOf 1 = some (0, 0) ∧ 0 ≤ s.stallTicks 1 ∧ s.catchOver 1 = none ∧
      ∀ g < 256, s.rd Reg.FUR_RUN.RUN (j := g) = 1 → 1 ∈ s.segCrofts g → s.crossOverflow g 1 = none) ∧
    (∃ (s : State) (e : HlEntry), (s.croft 1).clock = true ∧ (s.croft 1).stall = none ∧ 20 ∈ edgeCores 1 4 ∧ hasNeighbour 20 4 = true ∧
      e.pkt.vc = 1 ∧ e.pkt.ty ≠ 7 ∧ s.headland (neighbour 20 4) (facing 4) 1 = [e] ∧
      (∀ k, k ≠ qKey 19 2 1 → Store.getD s.hlq k [] = []) ∧ e.stamp ≤ s.estTick 1 ∧ s.inputRoom 20 4 e.pkt = true ∧
      (s.croft 1).relAt ≠ some (s.estTick 1) ∧ s.waveOf 1 = none ∧ s.catchOver 1 = none ∧ s.credits = []) ∧
    (∃ (s : State) (e : HlEntry), (s.croft 1).clock = true ∧ (s.croft 1).stall = none ∧
      s.headland (neighbour 20 4) (facing 4) 1 = [e] ∧ (∀ k, k ≠ qKey 19 2 1 → Store.getD s.hlq k [] = []) ∧ s.estTick 1 < e.stamp) :=
  ⟨⟨crossing 0, by decide +kernel⟩,
    ⟨put ((crossing 0).modCore 20 (fun c => { c with catchUp := some (0, 200) })) [(Reg.FUR_STAT.CATCH, 129, 20, 0)], by decide +kernel⟩,
    ⟨(crossing 0).modCroft 1 (fun c => { c with relAt := some 0 }), by decide⟩, ⟨lagging 0, by decide +kernel⟩,
    ⟨lagging 200, 20, by decide +kernel⟩,
    ⟨(crossing 0).modCroft 1 (fun c => { c with stall := some ⟨0, 4, false⟩ }), ⟨0, 4, false⟩, by decide +kernel⟩,
    ⟨(lagging 0).modSeg 0 (fun x => { x with wave := [⟨1, 0, 0⟩] }), ⟨0, 4, false⟩, by decide +kernel⟩,
    ⟨crossing 0, ⟨pk 2 1 0 [], 0⟩, by decide, by decide, by decide +kernel, by decide, by decide, by decide, by decide +kernel,
      fun k hk => by show Store.getD [(qKey 19 2 1, _)] k [] = []; simp [Store.getD, Store.get, hk], by decide, by decide, by decide,
      by decide +kernel, by decide +kernel, by decide⟩,
    ⟨crossing 1, ⟨pk 2 1 0 [], 1⟩, by decide, by decide, by decide +kernel,
      fun k hk => by show Store.getD [(qKey 19 2 1, _)] k [] = []; simp [Store.getD, Store.get, hk], by decide⟩⟩

/-- Core 0's drill 1 with a transfer of tag 5 out. -/
def desc1 : List Word := [0, 0, 0x100, 0x0001000100010040, 0x0000000100000001, 0, 0, 0]
def outX : DrillX := ⟨[], some (desc desc1), none, [{ xfer none with count := 1, bytes := 1 }], [], false, false⟩
def outDrill (s : State) : State := s.modCore 0 (fun c => { c with drills := c.drills.set 1 outX })
/-- A gate write through GCR 3. -/
def wordsGcr3 : List Word := wordsGate.set 0 0x0000000001800018#64
theorem witness_GrantsSyncsAndAcknowledgements :
    (∃ (s : State) (p : Packet), s.ejectOf 0 3 = [p] ∧ p.ty = 0xA ∧ s.croftLive (croftOf 0) = true ∧
      ∀ j < 16, ¬(s.rd Reg.GCR.VALID 0 j = 1)) ∧
    (∃ (s : State) (p : Packet), s.ejectOf 0 3 = [p] ∧ p.ty = 0xA ∧ s.croftLive (croftOf 0) = true ∧ s.rd Reg.GCR.VALID 0 3 = 1 ∧
      s.rd Reg.GCR.TARGET 0 3 = p.src ∧ s.rd Reg.GCR.GATE 0 3 = bits p.body 8 3 ∧ (∀ k < 3, s.rd Reg.GCR.VALID 0 k ≠ 1) ∧
      ∃ r, (s.drill 0 1).active = some r ∧ dGcr r.words = 3 ∧ s.rd Reg.DRL_STAT.CREDIT_WAIT 0 1 = 1) ∧
    (∃ (s : State) (p : Packet), s.ejectOf 0 3 = [p] ∧ p.ty = 0xB ∧ s.croftLive (croftOf 0) = true) ∧
    (∀ ty ∈ [4, 6], ∃ (s : State) (p : Packet), FourDrills s 0 ∧ s.ejectOf 0 1 = [p] ∧ s.drillOfTag 0 p.tag = some 1 ∧ p.ty = ty ∧
      p.kcopy = false ∧ s.croftLive (croftOf 0) = true) ∧
    (∃ (s : State) (p : Packet), s.ejectOf 0 1 = [p] ∧ p.ty = 4 ∧ p.kcopy = true ∧ s.croftLive (croftOf 0) = true) ∧
    (∃ (s : State) (p : Packet), (s.tabko 3).rspBuf = [p] ∧ p.ty = 6 ∧ p.status ≠ 0x23 ∧ p.status ≠ 0x25) ∧
    (∀ n ∈ [1, 2], ∃ (s : State) (p : Packet) (x : CombEntry), s.ejectOf 0 1 = [p] ∧ p.ty = 8 ∧ (s.core 0).comb = [x] ∧ x.src = p.dst ∧
      x.tag = p.tag ∧ x.up ≠ 0 ∧ (McSum.ofBody p.body).landed = 1 ∧ x.left = n ∧ s.croftLive (croftOf 0) = true ∧ s.stiled 0 = false) ∧
    (∃ (s : State) (p : Packet), s.ejectOf 0 1 = [p] ∧ p.ty = 9 ∧ s.rd Reg.MC_STAT.WR 0 < 16 ∧ s.croftLive (croftOf 0) = true) :=
  ⟨⟨ejected (pk 0xA 3 4 []), pk 0xA 3 4 [], by decide⟩,
    ⟨put ((ejected (pk 0xA 3 4 [])).modCore 0 (fun c => { c with drills := c.drills.set 1 ⟨[], some (desc wordsGcr3), none, [], [], false, false⟩ }))
        [(Reg.GCR.VALID, 1, 0, 3), (Reg.GCR.TARGET, 9, 0, 3), (Reg.GCR.UNITS, 1024, 0, 3), (Reg.DRL_STAT.CREDIT_WAIT, 1, 0, 1)],
      pk 0xA 3 4 [], by decide, by decide, by decide, by decide, by decide, by decide, by decide, desc wordsGcr3, by decide⟩,
    ⟨ejected (pk 0xB 3 7 []), pk 0xB 3 7 [], by decide⟩,
    fun ty h => ⟨outDrill (ejected (pk ty 1 0 [])), pk ty 1 0 [], by
      fin_cases h <;> exact ⟨by unfold FourDrills; decide, by decide⟩⟩,
    ⟨(running 0).setEject 0 1 [{ pk 4 1 0 [] with kcopy := true }], { pk 4 1 0 [] with kcopy := true }, by decide⟩,
    ⟨State.reset.modTabko 3 (fun x => { x with rspBuf := [pk 6 1 0 []] }), pk 6 1 0 [], by decide⟩,
    fun n h => ⟨(ejected (pk 8 1 1 [])).modCore 0 (fun c => { c with comb := [⟨5, 5, 7, n, 0, 0, 0, 0, 0⟩] }), pk 8 1 1 [],
      ⟨5, 5, 7, n, 0, 0, 0, 0, 0⟩, by fin_cases h <;> decide⟩,
    ⟨put (ejected (pk 9 1 0 [])) [(Reg.MC_STAT.WR, 15, 0, 0)], pk 9 1 0 [], by decide⟩⟩

/-- A gate write of one beat to byte 0x3FFE0 by gate 0 at epoch 0. -/
def gw (ty vc : Nat) : Packet := { pk ty vc 0x3FFE0 (List.replicate 32 0xA5) with via := 7 }
def gateOpened (s : State) (b : Nat) : State :=
  put (owned s) [(Reg.GATE_EPOCH.OPEN, 1, 0, 0), (Reg.GATE_WIN.BASE, b, 0, 0), (Reg.GATE_WIN.SIZE, 0x40000 - b, 0, 0)]
def slotted (hold : Nat) : State :=
  put ((running 0).modCore 0 (fun c => { c with mcSlots := [⟨gw 7 2, 0⟩] })) [(Reg.MESH_CTL.MCAST_HOLD, hold, 0, 0)]
theorem witness_WritesLandAtTheirTarget :
    (∀ mc : Bool, ∃ (s : State) (p : Packet), s.croftLive (croftOf 0) = true ∧ s.ejectOf 0 (if mc then 2 else 0) = [p] ∧ p.data.length = 32 ∧
      p.ty = (if mc then 7 else 5) ∧ (mc = true → p.via ≠ 0) ∧ p.poison = [] ∧ p.keep = [] ∧
      (if mc then (s.core 0).mcLand else (s.core 0).gwLand) = ⟨0, 0, 0, false⟩ ∧ s.gateOpen 0 0 = true ∧ s.rd Reg.GATE_EPOCH.EPOCH 0 0 = 0 ∧
      s.rd Reg.GATE_WIN.BASE 0 0 = 0x3FFE0 ∧ s.rd Reg.GATE_WIN.SIZE 0 0 = 32 ∧ s.enclOfCore 0 = some p.encl ∧ bits p.body 0 18 = 0x3FFE0 ∧
      (∀ cw, s.wordErr 0 cw = 0)) ∧
    (∃ (s : State) (p : Packet), s.ejectOf 0 0 = [p] ∧ p.ty = 5 ∧ (s.core 0).gwLand = ⟨0, 0, 0, false⟩ ∧ s.gateOpen 0 0 = false) ∧
    (∃ (s : State) (m : MPkt), s.croftLive (croftOf 0) = true ∧ s.inputOf 0 4 2 = [m] ∧ m.fresh = false ∧ m.outs = [8] ∧
      s.fallow 0 = false ∧ s.ejectRoom 0 (withGate m.pkt 8) = false ∧ (s.core 0).mcSlots.length < 2 ∧ (withGate m.pkt 8).via ≠ 0 ∧
      s.rd Reg.MESH_CTL.MCAST_HOLD 0 ≠ 0) ∧
    (∃ (s : State) (m : MPkt), s.inputOf 0 4 2 = [m] ∧ s.ejectRoom 0 (withGate m.pkt 8) = false ∧ s.rd Reg.MESH_CTL.MCAST_HOLD 0 = 0) ∧
    (∃ (s : State) (b : McSlot), s.croftLive (croftOf 0) = true ∧ (s.core 0).mcSlots[0]? = some b ∧ s.ejectRoom 0 b.pkt = true ∧
      s.estTick 0 < b.tick + s.rd Reg.MESH_CTL.MCAST_HOLD 0 ∧ s.candidates 0 0 = [(6, b.pkt)] ∧ choose (s.candidates 0 0) = some (6, b.pkt)) ∧
    (∃ (s : State) (b : McSlot), s.croftLive (croftOf 0) = true ∧ (s.core 0).mcSlots[0]? = some b ∧
      b.tick + s.rd Reg.MESH_CTL.MCAST_HOLD 0 ≤ s.estTick 0 ∧ b.pkt.via ≠ 0) ∧
    (∀ st ∈ [0, 0x62], ∃ (s : State) (p : Packet) (r : DescRun) (o : Xfer), FourDrills s 0 ∧ s.croftLive (croftOf 0) = true ∧ s.ejectOf 0 1 = [p] ∧
      p.ty = 2 ∧ p.poison = [] ∧ s.drillOfTag 0 p.tag = some 1 ∧ (s.drill 0 1).active = some r ∧
      (s.drill 0 1).out.find? (fun q => decide (q.tag = p.tag)) = some o ∧ dXform r.words = 0 ∧ p.status = st ∧ o.scale = false ∧ o.count = 1 ∧
      (slice p.data (bits p.body 0 48 % 32) (bits p.body 48 9)).length = dRemBytes r.words ∧ ∀ cw, s.wordErr 0 cw = 0) ∧
    (∃ s : State, (s.core 0).copy ≠ none ∧ s.enclOfCore 0 = some 0 ∧ s.croftLive (croftOf 0) = true ∧ ∀ cw, s.wordErr 0 cw = 0) :=
  ⟨fun mc => match mc with
      | true => ⟨gateOpened ((running 0).setEject 0 2 [gw 7 2]) 0x3FFE0, gw 7 2, by decide, by decide, by decide, by decide, by decide, by decide,
          by decide, by decide, by decide, by decide, by decide, by decide, by decide +kernel, by decide, fun _ => rfl⟩
      | false => ⟨gateOpened ((running 0).setEject 0 0 [gw 5 0]) 0x3FFE0, gw 5 0, by decide, by decide, by decide, by decide, by decide, by decide,
          by decide, by decide, by decide, by decide, by decide, by decide, by decide +kernel, by decide, fun _ => rfl⟩,
    ⟨(running 0).setEject 0 0 [gw 5 0], gw 5 0, by decide⟩,
    ⟨put (((running 0).setInput 0 4 2 [mp (gw 7 2) 8]).setEject 0 2 (List.replicate 32 (gw 7 2))) [(Reg.MESH_CTL.MCAST_HOLD, 1, 0, 0)],
      mp (gw 7 2) 8, by decide +kernel⟩,
    ⟨put (((running 0).setInput 0 4 2 [mp (gw 7 2) 8]).setEject 0 2 (List.replicate 32 (gw 7 2))) [(Reg.MESH_CTL.MCAST_HOLD, 0, 0, 0)],
      mp (gw 7 2) 8, by decide +kernel⟩,
    ⟨slotted 1, ⟨gw 7 2, 0⟩, by decide +kernel⟩, ⟨slotted 0, ⟨gw 7 2, 0⟩, by decide⟩,
    fun st h => ⟨outDrill ((running 0).setEject 0 1 [{ pk 2 1 (2 ^ 48) (List.replicate 32 1) with status := st }]),
      { pk 2 1 (2 ^ 48) (List.replicate 32 1) with status := st },
      desc desc1, { xfer none with count := 1, bytes := 1 }, by
        fin_cases h <;> exact ⟨by unfold FourDrills; decide, by decide, by decide, by decide, by decide, by decide, by decide, by decide,
          by decide, by decide, by decide, by decide, by decide +kernel, fun _ => rfl⟩⟩,
    ⟨(owned (running 0)).modCore 0 (fun c => { c with copy := some 0 }), by decide, by decide +kernel, by decide, fun _ => rfl⟩⟩

/-! ### Slow tier, update -/

/-- A read of 16 bytes, or a write of 32, at byte 0x20 of Tabko 0's span; region 0 of Tabko 0 belongs to enclosure 0. -/
def rq (wr : Bool) : Packet := if wr then pk 3 0 (0x20 + 32 * 2 ^ 48) (List.replicate 32 7) else pk 1 0 (0x20 + 16 * 2 ^ 48) []
def tier : State :=
  put (owned (running 0)) [(Reg.TBK_STAT.INIT_BUSY, 0, 0, 0), (Reg.TBK_REGION.VALID, 1, 0, 0), (Reg.TBK_REGION.COUNT, 2, 0, 0),
    (Reg.PWR_DOM.CUR, 0, 0, 16), (Reg.TBK_SHARE.SHARE, 30, 0, 0), (Reg.TBK_SHARE.TRACK, 8, 0, 0)]
/-- One element of a landed sheaf: w at 0, m at 4, G at 8 of Tabko 0. -/
def entry0 : UpdEntry :=
  { encl := 0, sheaf := 3, set := 0, exact := false, w := 0, m := 4, g := 8, cfmt := 2, count := 1, runs := [], done := false }
def queued (s : State) (p : Packet) : State := s.modTabko 0 (fun x => { x with admq := [⟨p, 0⟩] })
def tracked (p : Packet) : State :=
  (put tier [(Reg.ALM_TICK.TICK, 112, 0, 0)]).modTabko 0 (fun x => { x with tracks := [⟨p, 0, 0, [], [(0, 2)], 0, []⟩] })

theorem witness_SlowTierRequests :
    (∀ wr : Bool, ∃ (s : State) (r : SlowReq), (s.tabko 0).reqBuf = [r] ∧ r.pkt.ty = (if wr then 3 else 1) ∧ (s.tabko 0).admq.length < 64) ∧
    (∃ (s : State) (r : SlowReq), s.admitting 0 = true ∧ (s.tabko 0).admq = [r] ∧ (s.tabko 0).tills = [] ∧ (s.tabko 0).work = [] ∧ r.arr ≤ s.portTick 0 ∧ (r.pkt.ty = 1 ∨ r.pkt.ty = 3) ∧
      s.rd Reg.TBK_STAT.DOWN 0 = 1) ∧
    (∃ (s : State) (r : SlowReq), s.admitting 0 = true ∧ (s.tabko 0).admq = [r] ∧ (s.tabko 0).tills = [] ∧ (s.tabko 0).work = [] ∧ r.arr ≤ s.portTick 0 ∧ s.rd Reg.TBK_STAT.DOWN 0 ≠ 1 ∧
      r.pkt.ty = 1 ∧ r.pkt.data = [] ∧ bits r.pkt.body 0 48 / 256 ≠ (bits r.pkt.body 0 48 + bits r.pkt.body 48 9 - 1) / 256) ∧
    (∀ c ∈ [0, 1], ∀ wr : Bool, ∃ (s : State) (r : SlowReq), s.admitting 0 = true ∧ (s.tabko 0).admq = [r] ∧ (s.tabko 0).tills = [] ∧
      (s.tabko 0).work = [] ∧ r.arr ≤ s.portTick 0 ∧
      r.pkt.ty = (if wr then 3 else 1) ∧ s.rd Reg.TBK_STAT.DOWN 0 ≠ 1 ∧
      r.pkt.data.length = (if r.pkt.ty = 3 then 32 * ceilDiv (bits r.pkt.body 0 48 % 32 + bits r.pkt.body 48 9) 32 else 0) ∧
      s.inSpan 0 (bits r.pkt.body 0 48) = true ∧ s.regionOf 0 ((bits r.pkt.body 0 48 - s.spanBase 0) / 65536) = some 0 ∧
      (s.rd Reg.TBK_REGION.ENCL 0 0 = r.pkt.encl ↔ c = 0) ∧ r.pkt.poison = [] ∧ (s.tabko 0).pendings = [] ∧ s.rd Reg.TBK_REGION.CLOSED 0 0 = c ∧
      (∀ x ∈ slotCosts wr (bits r.pkt.body 0 48 - s.spanBase 0) (bits r.pkt.body 48 9),
        s.windowCost 0 r.pkt.encl x.1 (s.portTick 0) + x.2 ≤ s.rd Reg.TBK_SHARE.SHARE 0 r.pkt.encl) ∧
      s.rd Reg.TBK_SHARE.INUSE 0 r.pkt.encl < s.rd Reg.TBK_SHARE.TRACK 0 r.pkt.encl ∧ ∀ b, s.blockErr b = 0) ∧
    (∀ wr : Bool, ∃ (s : State) (k : TillAcc) (w : TillWork), s.admitting 0 = true ∧ (s.tabko 0).admq = [] ∧ (s.tabko 0).tills = [k] ∧
      k.acc = none ∧ k.write = wr ∧ (s.tabko 0).pendings = [] ∧ (s.tabko 0).work = [w] ∧ w.id = k.job ∧ w.left = 2 ∧ k.costs ≠ [] ∧
      (∀ b, s.blockErr b = 0) ∧ (∀ c ∈ k.costs, s.windowCost 0 k.encl c.1 (s.portTick 0) + c.2 ≤ s.rd Reg.TBK_SHARE.SHARE 0 k.encl) ∧
      s.rd Reg.TBK_SHARE.INUSE 0 k.encl < s.rd Reg.TBK_SHARE.TRACK 0 k.encl) ∧
    (∀ wr : Bool, ∃ (s : State) (k : Track), (s.tabko 0).tracks = [k] ∧ k.pkt.ty = (if wr then 3 else 1) ∧ k.corr = 0 ∧ k.bad = [] ∧
      k.costs ≠ [] ∧ k.acc + (if wr then 96 else 112) ≤ s.portTick 0 ∧ s.muted k.pkt.encl = false ∧ s.rd Reg.TBK_STAT.DOWN 0 = 0) ∧
    (∃ (s : State) (k : Track), (s.tabko 0).tracks = [k] ∧ k.pkt.ty = 1 ∧ s.portTick 0 < k.acc + 112) :=
  ⟨fun wr => ⟨tier.modTabko 0 (fun x => { x with reqBuf := [⟨rq wr, 0⟩] }), ⟨rq wr, 0⟩, by cases wr <;> decide⟩,
    ⟨queued (put tier [(Reg.TBK_STAT.DOWN, 1, 0, 0)]) (rq false), ⟨rq false, 0⟩, by decide⟩,
    ⟨queued tier (pk 1 0 (0xF8 + 16 * 2 ^ 48) []), ⟨pk 1 0 (0xF8 + 16 * 2 ^ 48) [], 0⟩, by decide⟩,
    fun c hc wr => ⟨queued (put tier [(Reg.TBK_REGION.CLOSED, c, 0, 0), (Reg.TBK_REGION.ENCL, c, 0, 0)]) (rq wr), ⟨rq wr, 0⟩, by
      fin_cases hc <;> cases wr <;> exact ⟨by decide, by decide, by decide, by decide, by decide, by decide, by decide, by decide, by decide,
        by decide +kernel, by decide, by decide, by decide, by decide, by decide +kernel, by decide, fun _ => rfl⟩⟩,
    fun wr => ⟨tier.modTabko 0 (fun x => { x with tills := [⟨0, wr, 0, 4, [1, 2, 3, 4], 5, [(0, 2)], none⟩], work := [⟨5, entry0, 0, 2, []⟩] }),
      ⟨0, wr, 0, 4, [1, 2, 3, 4], 5, [(0, 2)], none⟩, ⟨5, entry0, 0, 2, []⟩, by
        cases wr <;> exact ⟨by decide, by decide, by decide, by decide, by decide, by decide, by decide, by decide, by decide, by decide, fun _ => rfl,
          by decide +kernel, by decide⟩⟩,
    fun wr => ⟨tracked (rq wr), ⟨rq wr, 0, 0, [], [(0, 2)], 0, []⟩, by cases wr <;> decide⟩,
    ⟨put (tracked (rq false)) [(Reg.ALM_TICK.TICK, 111, 0, 0)], ⟨rq false, 0, 0, [], [(0, 2)], 0, []⟩, by decide⟩⟩

theorem witness_SlowTierUpkeep :
    (∀ b ∈ [0, 983040 * 1024 - 1], ∃ s : State, s.admitting 0 = true ∧ s.rd Reg.TBK_SCRUB.EN 0 = 1 ∧ (s.tabko 0).patrol = b ∧
      (s.tabko 0).pendings = [] ∧ s.claimed [2, 6, 8] 2 0 = false ∧ s.blockErr (s.spanBase 0 + b * 64) = 0 ∧
      s.tabkoPresent 0 = true ∧ b < 983040 * 1024) ∧
    (∃ s : State, s.regionOf 0 (0 / 1024) = none) ∧
    (∃ s : State, s.admitting 0 = true ∧ (s.tabko 0).wipeOrder = [] ∧ (s.tabko 0).pendings = [3, 7] ∧ ∀ h ∈ (s.tabko 0).pendings, 3 ≤ h) ∧
    (∃ s : State, s.admitting 0 = true ∧ (s.tabko 0).wipeOrder.head? = some 7) ∧
    (∃ s : State, s.tabkoPresent 0 = true ∧ s.admitting 0 = true ∧ s.rd Reg.TBK_STAT.DOWN 0 = 0 ∧ s.now % 1024 = 0 ∧ (s.tabko 0).retrain = none ∧
      s.claimed [6, 8] 2 0 = true ∧ (∀ n < 16, s.regionsOf 0 n ≠ [] → s.atBoundary n = true) ∧ (s.tabko 0).tracks = [] ∧
      (s.tabko 0).tills = [] ∧ (s.tabko 0).work = [] ∧ (s.tabko 0).admq = [] ∧ (s.tabko 0).reqBuf = []) ∧
    (∃ s : State, (s.tabko 0).retrain = some 0 ∧ 0 + 4096 ≤ s.now ∧ s.yosal.winq = [] ∧ s.mpState = 0 ∧ s.rd Reg.TBK_STAT.INIT_BUSY 0 = 0 ∧
      s.rd Reg.TBK_STAT.DOWN 0 = 0) ∧
    (∃ s : State, s.tabkoPresent 0 = true ∧ s.rd Reg.TBK_STAT.DOWN 0 ≠ 1 ∧ s.regionsOf 0 0 ≠ [] ∧ s.rd Reg.ENCL_STATE.STATE = 2) ∧
    (∃ s : State, s.tabkoPresent 0 = true ∧ s.rd Reg.TBK_TEMP.LIMIT 0 < 255 ∧ s.rd Reg.TBK_TEMP.HOT 0 = 0) :=
  ⟨fun b hb => ⟨(put tier [(Reg.TBK_SCRUB.EN, 1, 0, 0)]).modTabko 0 (fun x => { x with patrol := b }), by
      fin_cases hb <;> exact ⟨by decide, by decide, by decide, by decide, by decide +kernel, rfl, by decide +kernel, by decide⟩⟩,
    ⟨State.reset, by decide +kernel⟩,
    ⟨tier.modTabko 0 (fun x => { x with pendings := [3, 7] }), by decide⟩,
    ⟨tier.modTabko 0 (fun x => { x with pendings := [3, 7], wipeOrder := [7] }), by decide⟩,
    ⟨put tier [(Reg.TBK_REGION.VALID, 0, 0, 0), (Reg.MAINT_CLAIM.VALID, 1, 0, 0), (Reg.MAINT_CLAIM.KIND, 2, 0, 0),
      (Reg.MAINT_CLAIM.ACT, 6, 0, 0)], by decide, by decide, by decide, by decide, by decide, by decide +kernel, by decide +kernel, by decide⟩,
    ⟨(put tier [(Reg.ALM_TICK.TICK, 4096, 0, 0)]).modTabko 0 (fun x => { x with retrain := some 0 }), by decide⟩,
    ⟨tier, by decide, by decide, by decide +kernel, by decide⟩, ⟨State.reset, by decide⟩⟩

def landed0 : State :=
  ((put tier [(Reg.UPD_STAT.BUSY, 1, 0, 0)]).modTabko 0 (fun x => { x with landed := [(0, 3, 0)], entries := [entry0], sets := [(0, set0)] })).modEncl 0
    (fun x => { x with closed := true })
/-- The reads of that entry but the last, of m, and what they gave; the last waits. -/
def lastRead : TillAcc := ⟨0, false, 4, 2, [], 5, slotCosts false 4 2, none⟩
def work0 : TillWork := ⟨5, entry0, 0, 1, [(8, [0, 0, 0, 0]), (0, [0, 0, 0, 0])]⟩
theorem witness_UpdateBySignRule :
    (∃ s : State, s.admitting 0 = true ∧ s.rd Reg.TBK_STAT.DOWN 0 = 0 ∧ (s.tabko 0).landed = [(0, 3, 0)] ∧ (s.encl 0).closed = true ∧
      s.rd Reg.UPD_STAT.BUSY 0 0 = 1 ∧ (s.tabko 0).entries = [entry0] ∧ s.spanBase 0 = 0) ∧
    (∃ s : State, s.admitting 0 = true ∧ (s.tabko 0).admq = [] ∧ (s.tabko 0).tills = [lastRead] ∧ (s.tabko 0).work = [work0] ∧
      Store.get (s.tabko 0).sets 0 = some set0 ∧ (s.tabko 0).pendings = [] ∧ s.spanBase 0 = 0 ∧ lastRead.costs ≠ [] ∧
      (∀ c ∈ lastRead.costs, s.windowCost 0 0 c.1 (s.portTick 0) + c.2 ≤ s.rd Reg.TBK_SHARE.SHARE 0 0) ∧
      s.rd Reg.TBK_SHARE.INUSE 0 0 < s.rd Reg.TBK_SHARE.TRACK 0 0 ∧
      (let full : TillWork := { work0 with left := 0, got := work0.got ++ [(4, Memory.readList s.mem 4 2)] }
       ∀ j < 1, (fp32.decode (gradOf false 0 set0.gscale.toNat (elemAt (s.tillGot 0 full 8 4) 4 j))).nonFinite = false) ∧
      ∀ b, s.blockErr b = 0) ∧
    (∃ s : State, s.rd Reg.UPD_STAT.BUSY 0 0 = 1 ∧ (∀ e ∈ (s.tabko 0).entries, e.done = true) ∧ (s.tabko 0).entries ≠ [] ∧ (s.tabko 0).work = [] ∧
      (∃ k ∈ (s.tabko 0).tills, k.encl = 0) ∧ (∀ k ∈ (s.tabko 0).tills, k.over (s.portTick 0) = true) ∧ Store.getD (s.tabko 0).wbOut 0 0 = 0) :=
  ⟨⟨landed0, by decide +kernel⟩,
    ⟨landed0.modTabko 0 (fun x => { x with tills := [lastRead], work := [work0] }), by decide, by decide, by decide, by decide, by decide, by decide,
      by decide, by decide, by decide +kernel, by decide, by decide +kernel, fun _ => rfl⟩,
    ⟨(put landed0 [(Reg.ALM_TICK.TICK, 96, 0, 0)]).modTabko 0
      (fun x => { x with entries := [{ entry0 with done := true }], tills := [⟨0, true, 0, 4, [1, 2, 3, 4], 5, [(0, 2)], some 0⟩] }), by decide +kernel⟩⟩

/-! ### Threshing -/

/-- Enclosure 0 runs in core 0's croft with a ring of one at floor 0 and one exact sheaf, of one tile from one core. -/
def sheaf3 : Sheaf :=
  { num := 3, exact := true, floor := 0, tiles := 1, contrib := 1, g := [⟨0, 1024, 0⟩], gFirst := 0, sInit := -18 }
def thresh : State :=
  (put (owned (running 0)) [(Reg.PWR_DOM.CUR, 0, 0, 16), (Reg.PWR_DOM.CUR, 0, 0, 17), (Reg.FLR_RING.VALID, 1, 0, 0), (Reg.FLR_RING.LEN, 1, 0, 0),
    (Reg.FLR_SCALE.VALID, 1, 0, 0), (Reg.FLR_SCALE.SHEAF, 3, 0, 0)]).modEncl 0 (fun x => { x with sheaves := [sheaf3], groups := [(0, [0])], statSheaf := 0xFFFF })
def atFloor (p : Packet) : State := thresh.setHeadland 0 5 0 [⟨p, 0⟩]
def mark : Packet := { pk 0xC 0 (3 * 2 ^ 34) [] with dkind := 2, dst := 0 }
def part0 : Packet := { pk 0xC 0 (3 + 2 ^ 34) (List.replicate 256 1) with dkind := 2, dst := 0 }
def openRing (st len : Nat) : State := staged (put State.reset [(Reg.ENCL_STATE.STATE, st, 0, 0)]) [(Reg.FLR_RING.LEN, len, 0, 0)]

theorem witness_StepBarrierMarksAndRings :
    (∃ (w : SyncWord) (s : State), Ready s 0 ∧ w.rsv = 0 ∧ w.hd = 0 ∧ w.hs = 0 ∧ w.cnt = 0 ∧ s.enclOfCore 0 = none) ∧
    (∃ (w : SyncWord) (s : State), Ready s 0 ∧ w.rsv = 0 ∧ w.hd = 0 ∧ w.hs = 0 ∧ w.cnt = 0 ∧ s.enclOfCore 0 = some 0 ∧ (s.core 0).rdPend = none ∧
      (s.core 0).arrQ = [] ∧ (s.core 0).flush = none ∧ (s.core 0).arrived = false ∧ s.ringFloors 0 = [0] ∧ (s.core 0).emit.length = 7 ∧
      ∃ r, (s.core 0).rdRun = some r ∧ r.readEnd ≤ s.cycle 0 0) ∧
    (∃ (w : SyncWord) (s : State), Ready s 0 ∧ w.rsv = 0 ∧ w.hd = 0 ∧ w.hs = 0 ∧ w.cnt = 0 ∧ s.enclOfCore 0 = some 0 ∧
      8 < (s.core 0).emit.length + (s.ringFloors 0).length) ∧
    (∀ full ∈ [none, some 0], ∃ (s : State) (h : HlEntry), (s.floor 0).full = full ∧ s.headland (edgeCore 0 0) 5 0 = [h] ∧ h.stamp ≤ s.now ∧
      s.floorState 0 = 1 ∧ h.pkt.ty = 0xC ∧
      bits h.pkt.body 34 2 = 3 ∧ s.muted 0 = false ∧ (s.encl 0).checked = false ∧ bits h.pkt.body 59 32 = s.rd Reg.ENCL_STATE.STEP ∧
      (0, h.pkt.src) ∉ (s.floor 0).marks) ∧
    (∃ s : State, (s.encl 0).release = some 0 ∧ 0 ≤ s.now ∧ s.yoke.seeding ≠ some 0 ∧ (s.encl 0).restart = false ∧ s.power.fromKeep = [] ∧
      (s.floor 0).held = [] ∧ (s.floor 1).held = [] ∧ s.rd Reg.ENCL_SHAPE.YOKE = 0 ∧ s.runCores 0 = [0] ∧
      (s.core 0).runOff = false) ∧
    (∃ s : State, (s.encl 0).release = some 0 ∧ 0 ≤ s.now ∧ s.yoke.seeding ≠ some 0 ∧ (s.encl 0).restart = false ∧ s.power.fromKeep = [] ∧
      (s.floor 0).held = [] ∧ (s.floor 1).held = [] ∧ s.rd Reg.ENCL_SHAPE.YOKE = 0 ∧ s.runCores 0 = [0] ∧ (s.core 0).hold = .sbar ∧
      (s.core 0).arrived = true ∧ (s.core 0).runOff = true ∧ s.rd Reg.HND_STAT.HALTED 0 = 0 ∧ 0 ≤ s.estTick 0) ∧
    (∃ s : State, (s.encl 0).release = some 1 ∧ s.now < 1 ∧ (s.encl 0).restart = true) ∧
    (∃ s : State, (s.encl 0).release = some 1 ∧ s.now < 1 ∧ ∀ c ∈ s.runCores 0, ¬1 ≤ s.estTick (croftOf c)) ∧
    (∃ s : State, (s.encl 0).release = some 1 ∧ s.now < 1 ∧ (s.encl 0).restart = false ∧ s.runCores 0 = [0] ∧ (s.core 0).runOff = false ∧
      1 ≤ s.estTick 0 ∧ (s.core 0).hold = .sbar ∧ (s.core 0).arrived = true ∧ 0 ∉ s.power.fromKeep) ∧
    (∃ (s : State) (r : Retained), s.croftLive (croftOf 0) = true ∧ (s.core 0).retention.find? (fun q => q.again) = some r ∧
      s.exactEntry 0 r.sheaf = some 5 ∧ (s.core 0).emit.length ≤ 4) ∧
    (∃ s : State, s.anyStaged [Reg.FLR_RING.LEN] 0 0 = true ∧ s.rd Reg.ENCL_STATE.STATE = 0 ∧ s.stg Reg.FLR_RING.LEN 0 0 = 1 ∧
      s.stg Reg.FLR_RING.POS 0 0 = 0) ∧
    (∃ s : State, s.anyStaged [Reg.FLR_RING.LEN] 0 0 = true ∧ s.rd Reg.ENCL_STATE.STATE = 4) ∧
    (∃ s : State, s.anyStaged [Reg.FLR_RING.LEN] 0 0 = true ∧ s.stg Reg.FLR_RING.LEN 0 0 = 16385) :=
  ⟨⟨{ hd := 0, hs := 0, cnt := 0, rsv := 0 }, running 0, by unfold Ready; decide +kernel⟩,
    ⟨{ hd := 0, hs := 0, cnt := 0, rsv := 0 }, thresh.modCore 0 (fun c => { c with emit := List.replicate 7 mark, rdRun := some ⟨0, 0, none, 0, 9⟩ }),
      by unfold Ready; decide +kernel, by decide, by decide, by decide, by decide, by decide +kernel, by decide, by decide, by decide, by decide,
      by decide +kernel, by decide, ⟨0, 0, none, 0, 9⟩, by decide +kernel⟩,
    ⟨{ hd := 0, hs := 0, cnt := 0, rsv := 0 }, thresh.modCore 0 (fun c => { c with emit := List.replicate 8 mark }), by unfold Ready; decide +kernel⟩,
    fun full hf => ⟨(put (atFloor mark) [(Reg.PWR_DOM.CUR, 1, 0, 17)]).modFloor 0 (fun x => { x with full := full }), ⟨mark, 0⟩, by
      fin_cases hf <;> decide +kernel⟩,
    ⟨thresh.modEncl 0 (fun x => { x with release := some 0 }), by decide +kernel⟩,
    ⟨(thresh.modEncl 0 (fun x => { x with release := some 0 })).modCore 0 (fun c => { c with hold := .sbar, arrived := true, runOff := true }), by decide +kernel⟩,
    ⟨thresh.modEncl 0 (fun x => { x with release := some 1, restart := true }), by decide +kernel⟩,
    ⟨thresh.modEncl 0 (fun x => { x with release := some 1 }), by decide +kernel⟩,
    ⟨((thresh.modEncl 0 (fun x => { x with release := some 1 })).modCore 0 (fun c => { c with hold := .sbar, arrived := true })).modCroft 0
      (fun x => { x with est := 1000 }), by decide +kernel⟩,
    ⟨(put (running 0) [(Reg.EMIT_SCALE.VALID, 1, 0, 5), (Reg.EMIT_SCALE.SHEAF, 3, 0, 5)]).modCore 0
      (fun c => { c with retention := [⟨3, 0, 0, [], 0, true⟩] }), ⟨3, 0, 0, [], 0, true⟩, by decide +kernel⟩,
    ⟨openRing 0 1, by decide +kernel⟩, ⟨openRing 4 1, by decide +kernel⟩, ⟨openRing 0 16385, by decide +kernel⟩⟩

/-- A ring frame of the open step for tile 0 of sheaf 3, of a pass, with one value of its payload, and the link frame around it. -/
def frame3 (pass step : Nat) : SheafFrame :=
  { job := 0, step := step, sheaf := 3, tile := 0, kind := 1, pass := pass, miss := false, nf := false, csat := false, glean := false, round := 0
    scale := 0, gk := 0, missBits := 0, origin := 0, sender := 0, vals := [0] }
def link3 (pass step : Nat) : LinkFrame := ⟨0, 0, 0, 0, 0, 0, 0, (frame3 pass step).bytes⟩
def portUp (s : State) : State := put s [(Reg.BLN_STAT.STATE, 6, 0, 0)]
theorem witness_PartialsAndRingFrames :
    (∃ (s : State) (h : HlEntry), s.headland (edgeCore 0 0) 5 0 = [h] ∧ h.stamp ≤ s.now ∧ s.floorState 0 = 0 ∧ h.pkt.ty = 0xC ∧
      bits h.pkt.body 34 2 = 1 ∧ h.pkt.poison = [] ∧ s.muted 0 = false ∧ (s.encl 0).checked = false ∧ bits h.pkt.body 59 32 = s.rd Reg.ENCL_STATE.STEP ∧
      s.sheafOf 0 (bits h.pkt.body 0 16) = some sheaf3 ∧ bits h.pkt.body 16 16 < 1 ∧ bits h.pkt.body 36 4 = s.roundOf 0 0 3 ∧
      (s.tileOf 0 0 3 0 1).kind = 1 ∧ (s.tileOf 0 0 3 0 1).got = [0, 0, 0, 0] ∧ bits h.pkt.body 32 2 = 0 ∧ s.rd Reg.FLR_STAT.FOLD_USED 0 < 8192 ∧ (s.floor 0).full = none ∧
      s.heldRound 0 = none) ∧
    (∀ k : Fin 4, ∃ (s : State) (f : LinkFrame), SheafFrame.ofBytes f.body = frame3 k.val 0 ∧ s.portPresent 0 = true ∧ s.portState 0 = 6 ∧
      f.seq.toNat = (s.port 0).seqRx ∧ (s.port 0).replay = [] ∧ f.dst.toNat = s.moduleId ∧ s.floorState 0 = 0 ∧ s.enclOfJob 0 = some 0 ∧
      s.rd Reg.ENCL_STATE.STEP = 0 ∧ (s.encl 0).checked = false ∧ s.rd Reg.ENCL_STATE.STATE ≠ 1 ∧ s.frameKnown 0 0 (frame3 k.val 0) = true ∧ s.roundOf 0 0 3 = 0 ∧ s.heldRound 0 = none ∧
      (frame3 k.val 0).key ∉ (s.floor 0).seen ∧ (s.tileOf 0 0 3 0 1).loc = none ∧ (s.tileOf 0 0 3 0 1).gIn = none ∧ (s.tileOf 0 0 3 0 1).fin = none ∧
      (s.tileOf 0 0 3 0 1).gSum = none ∧ s.rd Reg.FLR_RING.LEN 0 0 = 1 ∧ s.rd Reg.FLR_RING.POS 0 0 = 0 ∧ (s.encl 0).accept = none ∧
      (s.encl 0).statSheaf ≠ 3 ∧ s.finalWrites 0 sheaf3 (s.tileOf 0 0 3 0 1) (frame3 k.val 0).vals ≠ [] ∧
      ∀ w ∈ s.finalWrites 0 sheaf3 (s.tileOf 0 0 3 0 1) (frame3 k.val 0).vals, s.tripOff (croftOf (edgeCore 0 w.1)) = false) ∧
    (∀ k : Fin 4, ∃ (s : State) (f : LinkFrame), SheafFrame.ofBytes f.body = frame3 k.val 1 ∧ s.enclOfJob 0 = some 0 ∧ s.rd Reg.ENCL_STATE.STEP = 0 ∧
      s.heldRound 0 = none ∧ ∀ h ∈ (s.floor 0).held, h.key ≠ (frame3 k.val 1).key) ∧
    (∀ k : Fin 4, ∃ s : State, s.enclOfJob 0 = some 0 ∧ s.rd Reg.ENCL_STATE.STEP = 0 ∧ s.heldRound 0 = none ∧
      ∃ h ∈ (s.floor 0).held, h.key = (frame3 k.val 1).key) ∧
    (∀ k : Fin 4, ∃ s : State, s.frameKnown 0 0 (frame3 k.val 0) = true ∧ (frame3 k.val 0).key ∈ (s.floor 0).seen ∧ s.heldRound 0 = none) ∧
    (∀ k : Fin 4, ∃ s : State, s.frameKnown 0 0 { frame3 k.val 0 with round := 1 } = true ∧ { frame3 k.val 0 with round := 1 }.key ∉ (s.floor 0).seen ∧
      s.heldRound 0 = none ∧ s.roundOf 0 0 3 = 0) ∧
    (∀ k : Fin 4, ∃ s : State, s.frameKnown 0 0 (frame3 k.val 0) = true ∧ (frame3 k.val 0).key ∉ (s.floor 0).seen ∧ s.heldRound 0 = none ∧
      0 < s.roundOf 0 0 3) :=
  ⟨⟨atFloor part0, ⟨part0, 0⟩, by decide +kernel⟩,
    fun k => ⟨portUp thresh, link3 k.val 0, by revert k; decide +kernel⟩,
    fun k => ⟨portUp thresh, link3 k.val 1, by revert k; decide +kernel⟩,
    fun k => ⟨(portUp thresh).modFloor 0 (fun x => { x with held := [frame3 k.val 1] }), by revert k; decide +kernel⟩,
    fun k => ⟨(portUp thresh).modFloor 0 (fun x => { x with seen := [(frame3 k.val 0).key] }), by revert k; decide +kernel⟩,
    fun k => ⟨portUp thresh, by revert k; decide +kernel⟩,
    fun k => ⟨put (portUp thresh) [(Reg.FLR_SCALE.ROUND, 1, 0, 0)], by revert k; decide +kernel⟩⟩

/-- Every core has arrived and its mark is in; then closed; then folded; then checked, on a module at full power. -/
def arrivedAll (tiles : List TileX) : State :=
  (thresh.modCore 0 (fun c => { c with arrived := true })).modFloor 0 (fun x => { x with marks := [(0, 0)], tiles := tiles })
def landedTile : TileX := { TileX.new 0 3 0 0 1 with loc := some [], fin := some [943718400] }
def closedStep : State := ((arrivedAll [landedTile]).modEncl 0 (fun x => { x with closed := true })).modFloor 0 (fun x => { x with done := [(0, 3)] })
def powered (s : State) : State := put s ((List.range 17).map (fun h => (Reg.PWR_DOM.CUR, 0, 0, h)))
theorem witness_StepCloseAndBoundary :
    (∀ l ∈ [[], [sheaf3]], ∀ tiles ∈ [[], [landedTile]], ∃ s : State, s.rd Reg.ENCL_STATE.STATE = 2 ∧ (s.encl 0).closed = false ∧
      s.runCores 0 ≠ [] ∧ (∀ c ∈ s.runCores 0, (s.core c).arrived = true ∧ (s.core c).emit = [] ∧ ∀ fl ∈ s.ringFloors 0, (0, c) ∈ (s.floor fl).marks) ∧
      (∀ t < 48, (s.tabko t).cmp = none ∧ (s.tabko t).entries = []) ∧ (s.encl 0).statSheaf = 0xFFFF ∧ (s.encl 0).sheaves = l ∧
      s.roundOf 0 0 3 = 0 ∧ (s.tileOf 0 0 3 0 1).loc = (if tiles = [] then none else some [])) ∧
    (∃ s : State, (s.encl 0).closed = true ∧ (s.encl 0).folded = false ∧ s.stepComplete 0 = true ∧ s.gleanedAll 0 = true ∧ (s.encl 0).notices = [] ∧
      (s.encl 0).tally = [] ∧ (s.encl 0).sheaves = [sheaf3] ∧ s.scaleEntry 0 0 3 = some 0) ∧
    (∃ s : State, (s.encl 0).closed = true ∧ (s.encl 0).folded = true ∧ (s.encl 0).checked = false ∧ s.rd Reg.ENCL_STATE.STATE = 2 ∧
      s.updateDone 0 = true ∧ s.rd Reg.ENCL_SHAPE.YOKE = 0 ∧ s.yoke.copyDue = false ∧ (∀ fl < 2, (s.floor fl).full = none) ∧
      ∀ c ∈ s.enclCores 0, (s.core c).fenceReq = none ∧ s.rd Reg.ARR_CHK.CHK_LIMIT c = 0) ∧
    (∀ b : Bool, ∃ s : State, (s.encl 0).restart = b ∧ s.segsOf 0 = (if b then [0] else []) ∧
      (s.encl 0).closed = true ∧ (s.encl 0).checked = true ∧ (s.encl 0).release = none ∧ s.rd Reg.ENCL_STATE.STATE = 2 ∧
      (s.encl 0).ringWait = [] ∧ (s.encl 0).soloWait = false ∧ s.yoke.seeding ≠ some 0 ∧ s.rd Reg.ENCL_SHAPE.YOKE = 0 ∧
      (∀ h < 16, s.rd Reg.HOLD_OP.BUSY (j := h) = 0 ∧ s.rd Reg.HOLD_OP.WAITING (j := h) = 0) ∧ s.power.card = none ∧
      (∀ d < 17, s.rd Reg.PWR_DOM.CUR (j := d) = 0 ∧ s.rd Reg.PWR_DOM.BUSY (j := d) = 0 ∧ s.rd Reg.PWR_DOM.WAITING (j := d) = 0) ∧
      (∀ c ∈ s.enclCrofts 0 ++ (s.encl 0).transit, c < 256) ∧ ∀ t < 48, (s.tabko t).retrain = none ∧ s.rd Reg.TBK_STAT.RECAL_BUSY t = 0) :=
  ⟨fun l hl tiles ht => ⟨(arrivedAll tiles).modEncl 0 (fun x => { x with sheaves := l }), by
      fin_cases hl <;> fin_cases ht <;> decide +kernel⟩,
    ⟨closedStep, by decide +kernel⟩,
    ⟨put (closedStep.modEncl 0 (fun x => { x with folded := true })) ((coresOfCroft 0).map (fun c => (Reg.ARR_CHK.CHK_LIMIT, 0, c, 0))), by decide +kernel⟩,
    fun b => ⟨put (powered (closedStep.modEncl 0 (fun x => { x with folded := true, checked := true, restart := b }))) [(Reg.FUR_SEG.EN, b2n b, 0, 0)],
      by cases b <;> decide +kernel⟩⟩

/-! ### Bellon ports -/

/-- Port 0 in a state, at tick n, its floor ON or DARK. -/
def portIn (st n fl : Nat) (f : PortX → PortX) : State :=
  (put (ticking n) [(Reg.PWR_DOM.CUR, fl, 0, 17), (Reg.BLN_STAT.STATE, st, 0, 0)]).modPort 0 f
def linkF : LinkFrame := ⟨0, 0, 5, 0, 0, 0, 3, []⟩
def frameX : Frame := { ty := 4, cls := 1, lane := 0, floor := 0, dst := 5, src := 0, hops := 3, body := [] }

theorem witness_PortTraining :
    (∀ fl ∈ [0, 1], ∃ s : State, s.portPresent 0 = true ∧ s.portState 0 = 0 ∧ s.floorState (floorOf 0) = fl) ∧
    (∃ s : State, s.portPresent 0 = true ∧ s.portState 0 ≠ 6) ∧
    (∃ s : State, s.portState 0 = 6 ∧ s.yoke.seeding = none ∧ (s.port 0).txq = [] ∧ (s.port 0).replay = []) ∧
    (∃ s : State, s.portState 0 = 6 ∧ 64 < (s.port 0).badBell) ∧ (∃ s : State, s.portState 0 = 6 ∧ (s.port 0).rxAt + 4096 ≤ s.now) ∧
    (∃ s : State, s.portState 0 = 6 ∧ s.yoke.seeding = none ∧ (s.port 0).txq = [] ∧ (∀ r ∈ (s.port 0).replay, 3 < r.2.2.ty) ∧
      ∃ r ∈ (s.port 0).replay, 8 ≤ r.2.1) ∧
    (∃ s : State, s.portState 0 = 2) ∧ (∃ s : State, s.portState 0 = 3 ∧ (s.port 0).lockAt + 1024 ≤ s.now) ∧ (∃ s : State, s.portState 0 = 4) ∧
    (∃ l : List (Fin 16), l.length = 16) ∧
    (∀ st ∈ [2, 5], ∃ s : State, s.portState 0 = st ∧ (s.port 0).wasUp = false ∧ (s.port 0).lightAt + 2 ^ 21 ≤ s.now) ∧
    (∃ s : State, s.portState 0 = 5 ∧ (s.port 0).helloAt + 2 ^ 16 ≤ s.now) ∧ (∃ s : State, s.portState 0 = 6 ∧ (s.port 0).beaconAt + 2 ^ 20 ≤ s.now) ∧
    (∃ (f : LinkFrame) (s : State), s.portPresent 0 = true ∧ s.portState 0 = 5 ∧ f.seq.toNat = (s.port 0).seqRx ∧ (s.port 0).replay = [] ∧
      ¬(7 = s.rd Reg.FWD_ID.INSTALL 0) ∧ s.rd Reg.FWD_ID.INSTALL 0 = 0 ∧ s.moduleId = 0 ∧
      (s.events.filter (fun e => decide (e.dest = eventDest s 16))).length < 1023) :=
  ⟨fun fl h => ⟨portIn 0 0 fl id, by fin_cases h <;> decide⟩, ⟨State.reset, by decide⟩, ⟨portIn 6 0 0 id, by decide⟩,
    ⟨portIn 6 0 0 (fun x => { x with badBell := 65 }), by decide⟩, ⟨portIn 6 4096 0 id, by decide⟩,
    ⟨portIn 6 0 0 (fun x => { x with replay := [(0, 8, frameX)] }), by decide⟩, ⟨portIn 2 0 0 id, by decide⟩, ⟨portIn 3 1024 0 id, by decide⟩,
    ⟨portIn 4 0 0 id, by decide⟩, ⟨List.replicate 16 0, by decide⟩, fun st h => ⟨portIn st (2 ^ 21) 0 id, by fin_cases h <;> decide⟩,
    ⟨portIn 5 (2 ^ 16) 0 id, by decide⟩, ⟨portIn 6 (2 ^ 20) 0 id, by decide⟩, ⟨linkF, portIn 5 0 0 id, by decide⟩⟩

/-- Entry 0 of floor 0's forwarding table staged as the module's own. -/
def fwdOwn : State := staged State.reset [(Reg.FWD.LOCAL, 1, 0, 0)]
theorem fwdOwn_stg (f : Fld) (d : Nat) (h : f.key 0 d ≠ Reg.FWD.LOCAL.key 0 0) : fwdOwn.stg f 0 d = f.reset := by
  show ((Store.get [(Reg.FWD.LOCAL.key 0 0, 1)] (f.key 0 d)).getD (Store.getD [] (f.key 0 d) f.reset)) = _
  simp [Store.get, Store.getD, h]
theorem fwdOwn_ok : ∀ d < 16384, fwdOwn.fwdOk 0 d = true := by
  intro d hd
  by_cases h : d = 0
  · subst h; decide
  · have k : ∀ f ∈ fwdFields, f.key 0 d ≠ Reg.FWD.LOCAL.key 0 0 := by
      intro f hf
      simp only [fwdFields, List.mem_cons, List.not_mem_nil, or_false] at hf
      intro e
      rcases hf with rfl | rfl | rfl | rfl | rfl | rfl | rfl <;> revert e <;> simp only [Fld.key, Fld.addr, Reg.FWD.EGRESS, Reg.FWD.VALID, Reg.FWD.LOCAL, Reg.FWD.LOP, Reg.FWD.ALT, Reg.FWD.ALT_VALID, Reg.FWD.ALT_LOP] <;> generalize Block.base .floor 0 = b <;> omega
    have e : fwdOwn.moduleId = 0 := by decide
    have z : ∀ f ∈ fwdFields, fwdOwn.stg f 0 d = f.reset := fun f hf => fwdOwn_stg f d (k f hf)
    simp [fwdFields] at z
    simp only [State.fwdOk, e, h, if_false, z]
    decide

/-- The module's identity staged, with a first hop count. -/
def idStaged (hops : Nat) : State := staged State.reset [(Reg.FWD_ID.MODULE_ID, 9, 0, 0), (Reg.FWD_ID.HOPS_INIT, hops, 0, 0)]
theorem witness_PortFramesAndForwarding :
    (∃ s : State, s.portState 0 = 6 ∧ s.portPresent 0 = true ∧ (s.port 0).nak = true) ∧
    (∃ s : State, s.portState 0 = 6 ∧ s.portPresent 0 = true ∧ (s.port 0).nak = false ∧ s.creditDue 0 = true) ∧
    (∃ s : State, s.portState 0 = 6 ∧ s.portPresent 0 = true ∧ (s.port 0).nak = false ∧ s.creditDue 0 = false ∧ (s.port 0).hello = false ∧
      (s.port 0).beacon = false ∧ (s.port 0).again = [] ∧ s.rd Reg.BLN_STAT.FAILED 0 = 0 ∧ (s.port 0).pick = some (0, frameX)) ∧
    (∃ s : State, s.portState 0 = 6 ∧ s.portPresent 0 = true ∧ (s.port 0).nak = false ∧ s.creditDue 0 = false ∧ (s.port 0).hello = false ∧
      (s.port 0).beacon = false ∧ (s.port 0).again = [] ∧ s.rd Reg.BLN_STAT.FAILED 0 = 0 ∧
      (s.port 0).pick = some (0, { frameX with buf := some ⟨3, 2, 1, 0⟩ }) ∧ (s.port 3).lightAt = 0) ∧
    (∃ s : State, s.portState 0 = 6 ∧ (s.port 0).replay ≠ [] ∧ (s.port 0).ackAt + 256 ≤ s.now) ∧
    (∃ s : State, s.portPresent 0 = true ∧ 5 ≤ s.portState 0 ∧ (s.port 0).replay = []) ∧
    (∃ (f : LinkFrame) (s : State), s.portPresent 0 = true ∧ s.portState 0 = 6 ∧ f.seq.toNat = (s.port 0).seqRx ∧ (s.port 0).replay = [] ∧
      f.dst.toNat ≠ s.moduleId ∧ f.hops.toNat ≠ 0 ∧ s.egress (floorOf 0) f.dst.toNat = some (3, 1)) ∧
    (∀ d : Bool, ∃ (f : LinkFrame) (s : State), s.portState 0 = 6 ∧ f.dst.toNat ≠ s.moduleId ∧ f.hops.toNat ≠ 0 ∧
      s.egress (floorOf 0) f.dst.toNat = some (3, 1) ∧ (s.port 0).discard = d) ∧
    (∃ b : List Byte, crc32c b < 2 ^ 32) ∧
    (∃ s : State, s.anyStaged [Reg.FWD_ID.MODULE_ID, Reg.FWD_ID.INSTALL, Reg.FWD_ID.HOPS_INIT] 0 = true ∧ s.stg Reg.FWD_ID.HOPS_INIT 0 = 0) ∧
    (∃ s : State, s.anyStaged [Reg.FWD_ID.MODULE_ID, Reg.FWD_ID.INSTALL, Reg.FWD_ID.HOPS_INIT] 0 = true ∧ s.stg Reg.FWD_ID.HOPS_INIT 0 ≠ 0 ∧
      ∀ n < 16, s.rd Reg.ENCL_STATE.STATE (j := n) = 2 → s.rd Reg.FLR_RING.LEN 0 n = 0 ∧ s.rd Reg.FLR_RING.LEN 1 n = 0) ∧
    (∃ s : State, (∃ d < 16384, s.anyStaged fwdFields 0 d = true) ∧ ∀ d < 16384, s.fwdOk 0 d = true) ∧
    (∃ s : State, (∃ d < 16384, s.anyStaged fwdFields 0 d = true) ∧ ∃ d < 16384, s.fwdOk 0 d = false) :=
  ⟨⟨portIn 6 0 0 (fun x => { x with nak := true }), by decide⟩, ⟨portIn 6 1024 0 id, by decide⟩,
    ⟨portIn 6 0 0 (fun x => { x with txq := [frameX], back := List.replicate 8 0 }), by decide +kernel⟩,
    ⟨portIn 6 0 0 (fun x => { x with txq := [{ frameX with buf := some ⟨3, 2, 1, 0⟩ }], back := List.replicate 8 0 }), by decide +kernel⟩,
    ⟨portIn 6 256 0 (fun x => { x with replay := [(0, 1, frameX)] }), by decide⟩, ⟨portIn 5 0 0 id, by decide⟩,
    ⟨linkF, put (portIn 6 0 0 id) [(Reg.FWD.VALID, 1, 0, 5), (Reg.FWD.EGRESS, 3, 0, 5), (Reg.FWD.LOP, 1, 0, 5)], by decide⟩,
    fun d => ⟨linkF, put (portIn 6 0 0 (fun x => { x with discard := d })) [(Reg.FWD.VALID, 1, 0, 5), (Reg.FWD.EGRESS, 3, 0, 5), (Reg.FWD.LOP, 1, 0, 5)], by
      cases d <;> decide⟩,
    ⟨[], by decide⟩,
    ⟨idStaged 0, by decide⟩, ⟨idStaged 8, by decide⟩, ⟨fwdOwn, ⟨0, by decide, by decide⟩, fwdOwn_ok⟩,
    ⟨staged State.reset [(Reg.FWD.LOCAL, 1, 0, 16383)], ⟨16383, by decide, by decide⟩, 16383, by decide, by decide⟩⟩

/-! ### The Yosal link -/

def link (st n : Nat) (f : YosalX → YosalX) : State :=
  let s := put (ticking n) [(Reg.YEP_STAT.STATE, st, 0, 0)]; { s with yosal := f s.yosal }
def flit0 : FlitHeader := { seq := 0, ack := 0, nak := false, cvc := 4, ccount := 9 }
def tag0 (r : YReq) : YTag := { tag := 0, msg := ⟨0x02, 0, 0, 0, 0, 0, 0, []⟩, req := r, sent := 0, dead := false }
def spaceFields : List Fld := [Reg.YEP_SPACE.SPACE, Reg.YEP_SPACE.ENCL, Reg.YEP_SPACE.VALID]

theorem witness_YosalLinkAndSpaces :
    (∃ s : State, s.rd Reg.YEP_STAT.STATE = 0 ∧ s.stRuns = true) ∧
    (∀ st ∈ [1, 3], ∃ s : State, s.rd Reg.YEP_STAT.STATE = st ∧ s.yosal.wait = [] ∧ ∀ w < 64, s.rd Reg.YEP_WATCH_B.EN 0 w = 0) ∧
    (∃ s : State, s.rd Reg.YEP_STAT.STATE = 2) ∧ (∃ s : State, s.rd Reg.YEP_STAT.STATE = 3 ∧ s.yosal.since + 2 ^ 20 ≤ s.now) ∧
    (∀ tries ∈ [0, 8], ∃ (f : FlitHeader) (s : State) (slots : List (BitVec 128)), s.rd Reg.YEP_STAT.STATE = 2 ∧ f.seq.toNat = s.yosal.seqRx ∧
      f.nak = true ∧ ((s.yosal.takeHeader f).takeSlots slots).tries = tries ∧ 0 < s.yosal.badSlots slots) ∧
    (∃ (f : FlitHeader) (s : State), s.rd Reg.YEP_STAT.STATE = 2 ∧ f.seq.toNat ≠ s.yosal.seqRx) ∧
    (∃ (s : State) (u : YTag), s.yosal.tags.find? (fun q => decide (q.tag = 0)) = some u ∧ u.dead = false ∧ 0 < s.rd Reg.YEP_CTL.TIMEOUT ∧
      u.sent + s.rd Reg.YEP_CTL.TIMEOUT * 1024 ≤ s.now ∧ u.req = .watch 20 true ∧ 20 ∉ s.yosal.again) ∧
    (∃ s : State, 7 ∈ s.yosal.sigDue ∧ Store.get s.yosal.sigAt 7 = some 0 ∧ 0 + s.rd Reg.YEP_SIG.GAP ≤ s.now) ∧
    (∃ s : State, s.anyStaged spaceFields 0 63 = true ∧ s.stg Reg.YEP_SPACE.VALID 0 0 = 1 ∧ s.stg Reg.YEP_SPACE.VALID 0 63 = 1 ∧
      s.stg Reg.YEP_SPACE.SPACE 0 0 = s.stg Reg.YEP_SPACE.SPACE 0 63) ∧
    (∃ s : State, s.anyStaged spaceFields 0 63 = true ∧ (∀ a < 64, s.stg Reg.YEP_SPACE.VALID 0 a = 1 → a = 63) ∧
      ∀ n < 16, s.rd Reg.ENCL_STATE.STATE (j := n) = 0) ∧
    (∃ (y : YosalX) (f : FlitHeader), y.replay.length = 2 ∧ (y.replay.head?.map YFlit.seq).getD 0 = 4095 ∧ (4095 + 1) % 4096 = f.ack.toNat ∧ f.nak = true) ∧
    (∃ (y : YosalX) (q : YFlit), y.replay[y.replayAt]? = some q ∧ q.seq < 4096 ∧ y.seqRx < 4096 ∧ 0 < y.owed.getD 4 0 ∧ ∀ u < 4, y.owed.getD u 0 = 0) ∧
    (∃ y : YosalX, y.replay[y.replayAt]? = none ∧ 512 ≤ y.replay.length ∧ ∀ v < 5, y.owed.getD v 0 = 0) ∧
    (∃ y : YosalX, y.replay[y.replayAt]? = none ∧ y.replay.length < 512 ∧ y.txRest = [] ∧ y.tx ≠ [] ∧ ∀ m ∈ y.tx, y.credit.getD m.vc 0 < m.slots.length) ∧
    (∃ (y : YosalX) (m : YMsg), y.replay[y.replayAt]? = none ∧ y.replay.length < 512 ∧ y.txRest = [] ∧ y.tx = [m] ∧
      m.slots.length ≤ y.credit.getD m.vc 0) :=
  ⟨⟨link 0 0 id, by decide⟩, fun st h => ⟨link st 0 id, by fin_cases h <;> decide +kernel⟩, ⟨link 2 0 id, by decide⟩, ⟨link 3 (2 ^ 20) id, by decide⟩,
    fun tries h => ⟨{ flit0 with nak := true }, link 2 0 (fun y => { y with replay := if tries = 0 then [] else [⟨0, []⟩], tries := tries - 1 }), [0x18], by
      fin_cases h <;> decide⟩,
    ⟨flit0, link 2 0 (fun y => { y with seqRx := 1 }), by decide⟩,
    ⟨put (link 2 1024 (fun y => { y with tags := [tag0 (.watch 20 true)] })) [(Reg.YEP_CTL.TIMEOUT, 1, 0, 0)], tag0 (.watch 20 true), by decide⟩,
    ⟨link 2 (2 ^ 40) (fun y => { y with sigDue := [7], sigAt := [(7, 0)] }), by decide⟩,
    ⟨staged State.reset [(Reg.YEP_SPACE.VALID, 1, 0, 0), (Reg.YEP_SPACE.VALID, 1, 0, 63)], by decide⟩,
    ⟨staged State.reset [(Reg.YEP_SPACE.VALID, 1, 0, 63)], by decide +kernel⟩,
    ⟨{ YosalX.init with replay := [⟨4095, []⟩, ⟨0, []⟩] }, { flit0 with nak := true }, by decide⟩,
    ⟨{ YosalX.init with replay := [⟨4095, []⟩], owed := [0, 0, 0, 0, 3] }, ⟨4095, []⟩, by decide⟩,
    ⟨{ YosalX.init with replay := List.replicate 512 ⟨0, []⟩, replayAt := 512 }, by decide +kernel⟩,
    ⟨{ YosalX.init with tx := [rdOnce 64] }, by decide⟩, ⟨{ YosalX.init with tx := [wrPart 64 0 [1]], credit := [6] }, wrPart 64 0 [1], by decide⟩⟩

def op5 : YOp :=
  { req := ⟨0, 1, 5, 0, false, 0, 0x5010, 16, []⟩, pages := [], asked := some 5, sent := false, left := 0, status := 0, got := [] }
/-- Line 20 watched, of core 0 and counter 7; a drill's read of 16 bytes of page 5 at the endpoint. -/
def watched (held : Nat) (f : YosalX → YosalX) : State :=
  let s := put (owned (running 0)) [(Reg.YEP_WATCH_A.LINE, 5, 0, 20), (Reg.YEP_WATCH_B.EN, 1, 0, 20), (Reg.YEP_WATCH_B.EN, 1, 0, 3),
    (Reg.YEP_WATCH_B.HELD, held, 0, 20), (Reg.YEP_WATCH_B.CNT, 7, 0, 20), (Reg.YEP_SPACE.VALID, 1, 0, 0), (Reg.YEP_SPACE.ENCL, 1, 0, 0)]
  { s with yosal := f s.yosal }
theorem witness_WatchedLinesAndTranslation :
    (∃ s : State, s.rd Reg.YEP_WATCH_B.EN 0 20 = 0) ∧ (∃ s : State, s.rd Reg.YEP_WATCH_B.EN 0 20 = 1) ∧
    (∃ s : State, ∀ w < 64, ¬(s.rd Reg.YEP_WATCH_B.EN 0 w = 1 ∧ s.rd Reg.YEP_WATCH_A.LINE 0 w * 64 = 0x140)) ∧
    (∀ held ∈ [0, 1], ∃ s : State, s.rd Reg.YEP_WATCH_B.EN 0 20 = 1 ∧ s.rd Reg.YEP_WATCH_A.LINE 0 20 * 64 = 0x140 ∧
      (∀ v < 64, v ≠ 20 → ¬(s.rd Reg.YEP_WATCH_B.EN 0 v = 1 ∧ s.rd Reg.YEP_WATCH_A.LINE 0 v * 64 = 0x140)) ∧
      s.rd Reg.YEP_WATCH_B.HELD 0 20 = held ∧ s.lineReading 20 = true ∧ 20 ∉ s.yosal.again) ∧
    (∀ w ∈ [3, 20], ∀ base : Bool, ∃ (s : State) (u : YTag), s.yosal.tags.find? (fun q => decide (q.tag = 0)) = some u ∧ u.dead = false ∧
      u.req = .watch w base ∧ s.yosal.wait = [] ∧ s.rd Reg.YEP_WATCH_B.EN 0 w = 1 ∧ w ∉ s.yosal.again) ∧
    (∃ s : State, s.rd Reg.YEP_WATCH_B.ENCL 0 20 = 0 ∧ s.rd Reg.YEP_WATCH_B.CORE 0 20 = 0 ∧ s.rd Reg.YEP_WATCH_B.CNT 0 20 = 7 ∧
      s.rd Reg.ENCL_STATE.STATE = 2 ∧ s.inRect 0 (croftOf 0) = true ∧ s.fallow 0 = false ∧ s.rd Reg.SYN_CNT.COUNT 0 7 < 2 ^ 32) ∧
    (∃ (s : State) (u : YTag), s.yosal.tags.find? (fun q => decide (q.tag = 0)) = some u ∧ u.dead = false ∧ u.req = .event 16 ∧
      s.yosal.wait = [] ∧ s.rd Reg.YEP_SIG.GAP = 0) ∧
    (∃ (s : State) (u : YTag) (o : YOp), s.yosal.tags.find? (fun q => decide (q.tag = 0)) = some u ∧ u.dead = false ∧
      u.req = .trans o.req.core o.req.tag 5 ∧ s.yosal.wait = [] ∧ s.yosal.ops = [o] ∧ o.sent = false ∧ o.req.wr = false ∧
      s.spaceGranted o.req.space o.req.encl = true ∧ pagesOf o.req.va o.req.bytes = [5] ∧ linesOf o.req.va o.req.bytes = [o.req.va / 64] ∧
      o.req.va / 64 / 64 = 5) ∧
    (∃ s : State, s.yosal.ops = [] ∧ ⟨0, 5, 0, 9, true⟩ ∈ s.yosal.cache) :=
  ⟨⟨State.reset, by decide⟩, ⟨watched 0 id, by decide⟩, ⟨State.reset, by decide +kernel⟩,
    fun held h => ⟨watched held (fun y => { y with tags := [tag0 (.watch 20 false)] }), by fin_cases h <;> decide +kernel⟩,
    fun w h b => ⟨watched 0 (fun y => { y with tags := [tag0 (.watch w b)] }), tag0 (.watch w b), by
      fin_cases h <;> cases b <;> decide⟩,
    ⟨watched 0 id, by decide +kernel⟩,
    ⟨put (watched 0 (fun y => { y with tags := [tag0 (.event 16)] })) [(Reg.YEP_SIG.GAP, 0, 0, 0)], tag0 (.event 16), by decide⟩,
    ⟨watched 0 (fun y => { y with tags := [tag0 (.trans 0 5 5)], ops := [op5] }), tag0 (.trans 0 5 5), op5, by decide +kernel⟩,
    ⟨watched 0 (fun y => { y with cache := [⟨0, 5, 0, 9, true⟩] }), by decide⟩⟩

/-! ### The reeve -/

/-- A seed lot of 352 bytes for one croft: one image of one word, one group of one thread. -/
def lotWords : List Nat :=
  [0x544c444545535a4b, 0x4000100000001, 0x160, 0, 0x622ede5d, 0, 0, 0, 0x100010001, 0xc0, 0x40, 0x64f46483, 0x10002, 0x100, 0, 0, 0x100010003,
    0x100, 0x40, 0x6bef1961, 0x100010004, 0x140, 0x20, 0x574e6a88, 0x101, 0, 0xffffffff00000000, 0, 0, 0, 0, 0, 1, 0, 1, 0, 0, 0, 0, 0, 0,
    0x1ff000000, 0, 0]
def lot0 : List Byte := wordBytes lotWords
def parsed : Lot :=
  { srSeed := 0, crc := 0x622ede5d
    profile := { crows := 1, ccols := 1, share := 0, desc := (0, 0), treeOff := 0, choiceOff := 0, yokeOff := none, user := (0, 0), slowBytes := 0 }
    tensors := [], images := [⟨[1], []⟩], groups := [⟨0, 0, 0, 0, 0, 255, 1, 0⟩], segs := [], plans := [], wins := [], credits := [], mgroups := []
    points := [], drills := [], stat := none, sheaves := [], tally := none, rule := 0, season := 0, sets := [], updates := [], checks := [] }
theorem test_lot_parses : parseLot lot0 352 = .ok parsed := by
  have h : (match parseLot lot0 352 with | .ok l => decide (l = parsed) | .error _ => false) = true := by decide +kernel
  split at h
  · next l e => rw [e, of_decide_eq_true h]
  · exact absurd h (by decide)
/-- A card of SEQ 7 for enclosure 0: OP, SHARE. -/
def card (op share : Nat) : List Word :=
  [BitVec.ofNat 64 (1 + op * 2 ^ 8 + 7 * 2 ^ 32), 0, 352, BitVec.ofNat 64 (2 ^ 8 + 2 ^ 13 + 2 * 2 ^ 19 + share * 2 ^ 27), 9, 0]
def cardX (op share : Nat) : JobCard :=
  { seq := 7, op := op, bytes := 352, space := 0, origin := 0, crows := 1, ccols := 1, auto := false, reserve := 2, keep := false, yoke := 0
    share := share, job := 9, step0 := 0 }
/-- Every holding ON, space 0 granted to enclosure 0, the card in line 0. -/
def ready (n op share : Nat) : State :=
  (let s := put (ticking n) (((List.range 16).map (fun h => (Reg.PWR_DOM.CUR, 0, 0, h))) ++ [(Reg.YEP_SPACE.VALID, 1, 0, 0), (Reg.YEP_SPACE.ENCL, 1, 0, 0)])
   ({ s with pins := { s.pins with stReady := true } } : State)).modEncl 0
    (fun x => { x with card := card op share })
def sowIn (share : Nat) (k : Option (List Placed × List Part)) : SowIn := ⟨0, cardX 1 share, 0, parsed, [], [], k, false⟩
def opened (share : Nat) : State := ((ready 5 1 share).addClaim ⟨9, 0, 0, 1, 1⟩).openSowing 0 (cardX 1 share) 0 lot0
/-- A placement succeeds. -/
def placed (r : Res Plan) : Bool := match r with
  | .ok _ => true
  | .error _ => false
theorem placed_ok {r : Res Plan} (h : placed r = true) : ∃ p, r = .ok p := by
  unfold placed at h
  split at h
  · next p => exact ⟨p, rfl⟩
  · exact absurd h (by decide)
theorem placed_error {r : Res Plan} (h : placed r = false) : ∃ e, r = .error e := by
  unfold placed at h
  split at h
  · exact absurd h (by decide)
  · next e => exact ⟨e, rfl⟩
theorem opened_fallow (share : Nat) (h : share ∈ [8, 3]) : (opened share).unionFallow 0 = [] := by fin_cases h <;> decide +kernel
theorem opened_placed (share : Nat) (h : share ∈ [8, 3]) : placed ((opened share).planSowing (sowIn share none)) = decide (share = 8) := by
  fin_cases h <;> decide +kernel

/-- A LOAD refused at its card, of an enclosure in use, of one that is FREE (placed with a SHARE of 8, not with one of 3), and the start. -/
theorem witness_SowingAnEnclosure :
    (∃ (s : State) (c : JobCard), (s.encl 0).loading = false ∧ jobCard (s.encl 0).card 0 = some c ∧ c.op = 1 ∧ (s.encl 0).seqDone ≠ some c.seq ∧ s.takesCards = true ∧
      s.rd Reg.REEVE_STAT.BUSY ≠ 1 ∧ cardFormat (s.encl 0).card c = none ∧ s.spaceGranted c.space 0 = false) ∧
    (∃ (lot : List Byte) (s : State) (c : JobCard) (l : Lot), (s.encl 0).loading = false ∧ jobCard (s.encl 0).card 0 = some c ∧ c.op = 1 ∧
      (s.encl 0).seqDone ≠ some c.seq ∧ s.takesCards = true ∧ s.rd Reg.REEVE_STAT.BUSY ≠ 1 ∧ cardFormat (s.encl 0).card c = none ∧ s.spaceGranted c.space 0 = true ∧
      parseLot lot c.bytes = .ok l ∧ s.rd Reg.ENCL_STATE.STATE ≠ 0) ∧
    (∀ share ∈ [8, 3], ∃ (lot : List Byte) (s : State) (c : JobCard) (l : Lot), (s.encl 0).loading = false ∧ jobCard (s.encl 0).card 0 = some c ∧
      c.op = 1 ∧ (s.encl 0).seqDone ≠ some c.seq ∧ s.takesCards = true ∧ s.rd Reg.REEVE_STAT.BUSY ≠ 1 ∧ cardFormat (s.encl 0).card c = none ∧
      s.spaceGranted c.space 0 = true ∧ parseLot lot c.bytes = .ok l ∧ s.rd Reg.ENCL_STATE.STATE = 0 ∧ s.lc ≠ 4 ∧ s.pins.stHold = false ∧ s.rd Reg.GNT_STAT.REFURB_BUSY ≠ 1 ∧
      l.profile.crows ≤ c.crows ∧ l.profile.ccols ≤ c.ccols ∧ c.auto = false ∧ s.rectFails 0 c.origin c.crows c.ccols = none ∧ s.claims = [] ∧
      (s.rd Reg.YK_CFG.EN = 0 ∨ c.yoke = 0) ∧ s.yoke.seeding ≠ some 0 ∧ c.origin < 256 ∧
      let u := (s.addClaim ⟨9, 0, c.origin, c.crows, c.ccols⟩).openSowing 0 c c.origin lot
      let r := u.planSowing ⟨0, c, c.origin, l, u.unionFallow 0, [], none, false⟩
      (share = 8 → ∃ p, r = .ok p) ∧ (share = 3 → ∃ e, r = .error e)) ∧
    (∃ (s : State) (c : JobCard), (s.encl 0).startDue = some 1024 ∧ 1024 ≤ s.now ∧ s.now % 1024 = 0 ∧ s.rd Reg.ENCL_STATE.STATE = 1 ∧
      s.yoke.seeding ≠ some 0 ∧ s.rd Reg.ENCL_SHAPE.YOKE = 0 ∧ (s.floor 0).held = [] ∧ (s.floor 1).held = [] ∧
      jobCard (s.encl 0).load 0 = some c) :=
  ⟨⟨(ready 5 1 8).wr Reg.YEP_SPACE.VALID 0, cardX 1 8, by decide +kernel⟩,
    ⟨lot0, put (ready 5 1 8) [(Reg.ENCL_STATE.STATE, 2, 0, 0)], cardX 1 8, parsed, by decide, by decide, by decide, by decide, by decide, by decide, by decide,
      by decide +kernel, test_lot_parses, by decide⟩,
    fun share h => ⟨lot0, ready 5 1 share, cardX 1 share, parsed, by fin_cases h <;> decide, by fin_cases h <;> decide, by fin_cases h <;> decide,
      by fin_cases h <;> decide, by fin_cases h <;> decide, by fin_cases h <;> decide, by fin_cases h <;> decide, by fin_cases h <;> decide +kernel, by
        fin_cases h <;> exact test_lot_parses,
      by fin_cases h <;> decide, by fin_cases h <;> decide, by fin_cases h <;> decide, by fin_cases h <;> decide, by fin_cases h <;> decide,
      by fin_cases h <;> decide, by fin_cases h <;> decide, by fin_cases h <;> decide +kernel, by fin_cases h <;> decide +kernel,
      by fin_cases h <;> decide, by fin_cases h <;> decide, by fin_cases h <;> decide, by
        show let r := (opened share).planSowing ⟨0, cardX 1 share, 0, parsed, (opened share).unionFallow 0, [], none, false⟩
          (share = 8 → ∃ p, r = .ok p) ∧ (share = 3 → ∃ e, r = .error e)
        have k := opened_placed share h
        rw [opened_fallow share h]
        exact ⟨fun e => placed_ok (k.trans (decide_eq_true e)), fun e => placed_error (k.trans (by simp [e]))⟩⟩,
    ⟨put ((ready 1024 1 8).modEncl 0 (fun x => { x with load := card 1 8, startDue := some 1024 })) [(Reg.ENCL_STATE.STATE, 1, 0, 0)], cardX 1 8,
      by decide⟩⟩

/-- The card of an OP in an enclosure of core 0's croft in a state. -/
def carded (op st : Nat) (f : EnclX → EnclX) : State :=
  (put (ready 5 op 8) [(Reg.ENCL_STATE.STATE, st, 0, 0), (Reg.ENCL_SHAPE.CROWS, 1, 0, 0), (Reg.ENCL_SHAPE.CCOLS, 1, 0, 0)]).modEncl 0 f
theorem witness_EndingAnEnclosure :
    (∀ st ∈ [0, 1, 2, 3, 4, 5], ∃ (s : State) (c : JobCard), jobCard (s.encl 0).card 0 = some c ∧ c.op = 2 ∧ (s.encl 0).seqDone ≠ some c.seq ∧ s.takesCards = true ∧
      (s.encl 0).kill ≠ some c.seq ∧ s.rd Reg.ENCL_STATE.STATE = st ∧ (s.encl 0).loading = false ∧ ∀ g < 256, (s.seg g).held = none) ∧
    (∃ (s : State) (c l : JobCard), jobCard (s.encl 0).card 0 = some c ∧ c.op = 2 ∧ (s.encl 0).seqDone ≠ some c.seq ∧ s.takesCards = true ∧
      (s.encl 0).kill ≠ some c.seq ∧ s.rd Reg.ENCL_STATE.STATE = 1 ∧ (s.encl 0).loading = true ∧ s.yoke.seeding ≠ some 0 ∧
      jobCard (s.encl 0).load 0 = some l) ∧
    (∀ st ∈ [0, 5], ∃ (s : State) (c : JobCard), jobCard (s.encl 0).card 0 = some c ∧ c.op = 3 ∧ (s.encl 0).seqDone ≠ some c.seq ∧ s.takesCards = true ∧
      s.rd Reg.ENCL_STATE.STATE = st ∧ ∀ g < 256, s.rd Reg.FUR_SEG.EN (j := g) = 1 → s.rd Reg.FUR_SEG.ENCL (j := g) = 0 →
        rectFits (s.rd Reg.FUR_SEG.ORIGIN (j := g)) (s.rd Reg.FUR_SEG.CROWS (j := g)) (s.rd Reg.FUR_SEG.CCOLS (j := g)) = true) ∧
    (∀ busy ∈ [0, 1], ∃ s : State, (s.encl 0).haltDue = some 5 ∧ 5 ≤ s.now ∧ (s.encl 0).loading = false ∧
      s.rd Reg.SP_STAT.WIPE_BUSY 0 = busy ∧ (∀ tb < 48, (s.tabko tb).cmp.map Prod.fst ≠ some 0) ∧
      ∀ g < 256, s.rd Reg.FUR_SEG.EN (j := g) = 1 → s.rd Reg.FUR_SEG.ENCL (j := g) = 0 →
        s.rd Reg.FUR_RUN.RUN (j := g) = 0 ∧ (s.seg g).startReq = none) ∧
    (∀ keep ∈ [0, 1], ∀ kill ∈ [none, some 7], ∃ s : State, s.rd Reg.ENCL_STATE.STATE = 4 ∧ (s.encl 0).haltDue = none ∧ s.wipesOver 0 = true ∧
      (∀ k ∈ s.enclCores 0, s.fallow k = false → s.corePresent k = true → s.rd Reg.ARR_STAT.FAULT k = 0 ∧ (s.core k).fenceReq = none) ∧
      s.rd Reg.ENCL_SHAPE.KEEP = keep ∧ (s.encl 0).kill = kill) :=
  ⟨fun st h => ⟨carded 2 st id, cardX 2 8, by fin_cases h <;> decide +kernel⟩,
    ⟨carded 2 1 (fun x => { x with load := card 1 8, loading := true }), cardX 2 8, cardX 1 8, by decide⟩,
    fun st h => ⟨carded 3 st id, cardX 3 8, by fin_cases h <;> decide +kernel⟩,
    fun b h => ⟨put (carded 2 4 (fun x => { x with haltDue := some 5 })) [(Reg.SP_STAT.WIPE_BUSY, b, 0, 0)], by fin_cases h <;> decide +kernel⟩,
    fun keep hk kill hq => ⟨put (carded 2 4 (fun x => { x with kill := kill })) [(Reg.ENCL_SHAPE.KEEP, keep, 0, 0)], by
      fin_cases hk <;> fin_cases hq <;> decide +kernel⟩⟩

/-- A boundary passed with the enclosure RESOWING: the placement anew succeeds with a SHARE of 8, not with one of 3. -/
def resow (share : Nat) : State := carded 1 3 (fun x => { x with load := card 1 share, lot := lot0, checked := true })
def resowIn (share : Nat) : SowIn := ⟨0, cardX 1 share, 0, parsed, [], [], some ([], []), true⟩
theorem resow_placed (share : Nat) (h : share ∈ [8, 3]) : placed
    (((resow share).wr Reg.ENCL_RES.FALLOW_MAX ((resow share).newFallowMax 0 [])).replanSowing (resowIn share)) = decide (share = 8) := by
  fin_cases h <;> decide +kernel
theorem witness_ResowingAnEnclosure :
    ∀ share ∈ [8, 3], ∃ (s : State) (c : JobCard) (l : Lot) (i : SowIn), s.rd Reg.ENCL_STATE.STATE = 3 ∧ (s.encl 0).checked = true ∧
      s.fencingIn 0 = false ∧ s.awaitsMate 0 = false ∧ (∀ k ∈ s.enclCores 0, s.rd Reg.SP_STAT.WIPE_BUSY k = 0) ∧
      jobCard (s.encl 0).load 0 = some c ∧ parseLot (s.encl 0).lot c.bytes = .ok l ∧ s.unionFallow 0 = [] ∧ s.newFallowMax 0 [] ≤ c.reserve ∧
      i = ⟨0, c, s.rd Reg.ENCL_SHAPE.ORIGIN, l, [], [], some ((s.encl 0).placed.filter (fun p => !p.parts.isEmpty), (s.encl 0).inspect), true⟩ ∧
      let r := (s.wr Reg.ENCL_RES.FALLOW_MAX (s.newFallowMax 0 [])).replanSowing i
      (share = 8 → ∃ p, r = .ok p) ∧ (share = 3 → ∃ e, r = .error e) := by
  intro share h
  refine ⟨resow share, cardX 1 share, parsed, resowIn share, by fin_cases h <;> decide, by fin_cases h <;> decide, by fin_cases h <;> decide +kernel,
    by fin_cases h <;> decide +kernel, by fin_cases h <;> decide +kernel, by fin_cases h <;> decide, by fin_cases h <;> exact test_lot_parses,
    by fin_cases h <;> decide +kernel, by fin_cases h <;> decide +kernel, by fin_cases h <;> decide +kernel, ?_⟩
  have k := resow_placed share h
  exact ⟨fun e => placed_ok (k.trans (decide_eq_true e)), fun e => placed_error (k.trans (by simp [e]))⟩

/-! ### The yoke -/

/-- A yoked module at tick n with port 0 UP: yoke state, enclosure 0 RUNNING with yoke policy 1 and job 9. -/
def yoked (n yk : Nat) (f : EnclX → EnclX) (g : YokeX → YokeX) : State :=
  let s := (put (ticking n) [(Reg.YK_CFG.EN, 1, 0, 0), (Reg.YK_CFG.MATE_ID, 5, 0, 0), (Reg.YK_STAT.STATE, yk, 0, 0), (Reg.BLN_STAT.STATE, 6, 0, 0),
    (Reg.ENCL_STATE.STATE, 2, 0, 0), (Reg.ENCL_SHAPE.YOKE, 1, 0, 0), (Reg.ENCL_SHAPE.JOB_ID, 9, 0, 0), (Reg.YK_ENCL.LANDED, 0xFFFFFFFF, 0, 0)]).modEncl 0 f
  { s with yoke := g s.yoke }
/-- A YOKE frame of the mate: its KIND, the mate's state, its payload; job 9, policy 1. -/
def yk (kind state off : Nat) (payload : List Byte) : LinkFrame :=
  ⟨0, 0, 0, 5, 0, 0, 3, (⟨kind, 0, 9, 0, 0, off, 1⟩ : YokeHdr).bytes state payload.length ++ payload⟩
def wellMate (s : State) (f : LinkFrame) (kind : Nat) : Bool :=
  s.portPresent 0 && decide (s.portState 0 = 6) && decide (f.seq.toNat = (s.port 0).seqRx) && (s.port 0).replay.isEmpty &&
    decide (f.dst.toNat = s.moduleId) && decide (s.rd Reg.YK_CFG.EN ≠ 0) && decide (f.src.toNat = s.rd Reg.YK_CFG.MATE_ID) &&
    decide ((yokeHdr f.body).kind = kind)
theorem mate_of {s : State} {f : LinkFrame} {kind : Nat} (h : wellMate s f kind = true) : MateFrame s f kind := by
  unfold wellMate at h
  unfold MateFrame
  simpa [and_assoc] using h

theorem witness_YokeFramesAndLoss :
    (∃ s : State, s.rd Reg.YK_CFG.EN ≠ 0 ∧ s.portState 0 = 6 ∧ s.yoke.hbAt + s.rd Reg.YK_CTL.HB_PERIOD ≤ s.now) ∧
    (∀ st ∈ [0, 1, 2, 3, 4, 5], ∃ s : State, s.rd Reg.YK_CFG.EN ≠ 0 ∧ s.ykState = st ∧
      s.yoke.rxAt + s.rd Reg.YK_CTL.HB_MISS * s.rd Reg.YK_CTL.HB_PERIOD ≤ s.now ∧ s.rd Reg.ENCL_STATE.STATE ≠ 0 ∧ s.rd Reg.ENCL_SHAPE.YOKE ≠ 0) ∧
    (∀ kind ∈ [1, 2, 3], ∃ (f : LinkFrame) (s : State), s.yoke.seeding = none ∧ MateFrame s f kind ∧ s.yokeEncl (yokeHdr f.body).job = some 0) ∧
    (∀ dst : Fin 2, ∃ (f : LinkFrame) (s : State), s.portPresent 0 = true ∧ s.portState 0 = 6 ∧ f.seq.toNat = (s.port 0).seqRx ∧ (s.port 0).replay = [] ∧
      f.dst.toNat = dst.val ∧ s.moduleId = 0 ∧ (yokeHdr f.body).kind = 1 ∧ f.src.toNat ≠ s.rd Reg.YK_CFG.MATE_ID ∧ s.yoke.seeding = none) ∧
    (∃ (f : LinkFrame) (s : State), MateFrame s f 3 ∧ s.yokeEncl (yokeHdr f.body).job = none) ∧
    (∃ (f : LinkFrame) (s : State), MateFrame s f 3 ∧ s.yokeEncl (yokeHdr f.body).job = some 0 ∧ (s.encl 0).fprint ≠ (yokeHdr f.body).fprint) ∧
    (∃ (f : LinkFrame) (s : State), MateFrame s f 3 ∧ s.yokeEncl (yokeHdr f.body).job = some 0 ∧ (s.encl 0).fprint = (yokeHdr f.body).fprint ∧
      s.rd Reg.ENCL_SHAPE.YOKE = (yokeHdr f.body).yoke ∧ (s.encl 0).loading = true ∧ (s.encl 0).mateMap = none ∧ yokeStateOf f.body % 8 ≠ 3) ∧
    (∀ v ∈ [3, 4], ∃ (f : LinkFrame) (s : State), MateFrame s f 2 ∧ s.yokeEncl (yokeHdr f.body).job = some 0 ∧
      (∀ tb < 48, (s.tabko tb).cmp.map Prod.fst ≠ some 0) ∧
      s.yoke.mine.find? (fun m => decide (m.1 = 0)) = some (0, (yokeHdr f.body).step, [some (7, 3)]) ∧ leNat (slice (yokePayload f.body) 0 4) = v) ∧
    (∃ (f : LinkFrame) (s : State), MateFrame s f 2 ∧ s.yoke.mine = []) ∧
    (∃ (s : State) (c : JobCard), (s.encl 0).mateWait = some 0 ∧ jobCard (s.encl 0).load 0 = some c ∧ (s.encl 0).loading = true ∧
      (s.encl 0).mateMap = none ∧ (s.encl 0).groups = [] ∧ 0 + s.rd Reg.YK_CTL.HB_MISS * s.rd Reg.YK_CTL.HB_PERIOD ≤ s.now) ∧
    (∀ other ∈ [none, some (0, 0)], ∃ s : State, (s.tabko 0).cmp = some (0, 0) ∧ (s.tabko 1).cmp = other ∧ s.persistGranules 0 0 = []) ∧
    (∃ s : State, (s.dramRead 0 0 65536).2.bad = []) ∧
    (∀ kind ∈ [4, 5], ∃ (f : LinkFrame) (s : State), MateFrame s f kind ∧ (yokeFrameTaken s f).joining (yokeHdr f.body) = some 0 ∧
      (yokeHdr f.body).offset = (yokeFrameTaken s f).yoke.image.length ∧ (yokeFrameTaken s f).yoke.ready = false) ∧
    (∀ crc ∈ [0, 1], ∃ (f : LinkFrame) (s : State) (st : List Byte) (c : JobCard), MateFrame s f 6 ∧
      (yokeFrameTaken s f).joining (yokeHdr f.body) = some 0 ∧ (yokeFrameTaken s f).yoke.stateIn = some st ∧
      crc32c (yokeFrameTaken s f).yoke.image = 0 ∧ leNat (slice (yokePayload f.body) 0 4) = crc ∧ jobCard ((yokeFrameTaken s f).encl 0).load 0 = some c) :=
  ⟨⟨yoked (2 ^ 32) 9 id id, by decide⟩, fun st h => ⟨yoked (2 ^ 45) st id id, by fin_cases h <;> decide⟩,
    fun kind h => ⟨yk kind 0 0 [], yoked 5 9 id id, by fin_cases h <;> exact ⟨by decide, mate_of (by decide +kernel), by decide +kernel⟩⟩,
    fun dst => ⟨{ yk 1 0 0 [] with dst := BitVec.ofNat _ dst.val }, (yoked 5 9 id id).wr Reg.YK_CFG.MATE_ID 6, by revert dst; decide +kernel⟩,
    ⟨yk 3 0 0 [], (yoked 5 9 id id).wr Reg.ENCL_SHAPE.JOB_ID 8, mate_of (by decide +kernel), by decide +kernel⟩,
    ⟨yk 3 0 0 [], yoked 5 9 (fun x => { x with lot := wordBytes [0, 0, 0, 0, 5] }) id, mate_of (by decide +kernel), by decide +kernel⟩,
    ⟨yk 3 0 0 [], yoked 5 9 (fun x => { x with loading := true }) id, mate_of (by decide +kernel), by decide +kernel⟩,
    fun v h => ⟨yk 2 0 0 (leBytes 4 v), yoked 5 9 id (fun y => { y with mine := [(0, 0, [some (7, 3)])] }), by
      fin_cases h <;> exact ⟨mate_of (by decide +kernel), by decide +kernel⟩⟩,
    ⟨yk 2 0 0 [], yoked 5 9 id id, mate_of (by decide +kernel), by decide⟩,
    ⟨yoked (2 ^ 45) 9 (fun x => { x with load := card 1 8, loading := true, mateWait := some 0 }) id, cardX 1 8, by decide⟩,
    fun o h => ⟨((yoked 5 9 id id).modTabko 0 (fun x => { x with cmp := some (0, 0) })).modTabko 1 (fun x => { x with cmp := o }), by
      fin_cases h <;> decide +kernel⟩,
    ⟨State.reset, by decide +kernel⟩,
    fun kind h => ⟨yk kind 0 0 [], yoked 5 13 (fun x => { x with groups := [(0, [0])] }) (fun y => { y with seeding := some 0 }), by
      fin_cases h <;> exact ⟨mate_of (by decide +kernel), by decide +kernel⟩⟩,
    fun crc h => ⟨yk 6 0 0 (leBytes 4 crc), yoked 5 13 (fun x => { x with groups := [(0, [0])], load := card 1 8 })
        (fun y => { y with seeding := some 0, stateIn := some [] }), [], cardX 1 8, by
      fin_cases h <;> exact ⟨mate_of (by decide +kernel), by decide +kernel⟩⟩⟩

/-- A command of YK_CMD staged for enclosure 0, policy 1, towards module 5. -/
def ykCmd (op step : Nat) (s : State) : State :=
  staged s [(Reg.YK_CMD.OP, op, 0, 0), (Reg.YK_CMD.ENCL, 0, 0, 0), (Reg.YK_CMD.STEP, step, 0, 0), (Reg.YK_CMD.POLICY, 1, 0, 0), (Reg.YK_CMD.DST, 5, 0, 0)]
/-- At a release not yet named. -/
def waits (x : EnclX) : EnclX := { x with closed := true, folded := true, checked := true }
/-- An enclosure of core 0's croft. -/
def atCroft (s : State) : State := put s [(Reg.ENCL_SHAPE.CROWS, 1, 0, 0), (Reg.ENCL_SHAPE.CCOLS, 1, 0, 0)]
theorem witness_YokeCommands :
    (∀ op ∈ [1, 2, 3, 4, 5, 6], ∃ s : State, s.anyStaged ykFields = true ∧ s.stg Reg.YK_CMD.OP = op ∧ s.ykAgrees op (s.stg Reg.YK_CMD.ENCL) = false) ∧
    (∃ s : State, s.anyStaged ykFields = true ∧ s.stg Reg.YK_CMD.OP ∉ ([1, 2, 3, 4, 5, 6] : List Nat)) ∧
    (∀ q ∈ [(1, 9), (2, 9), (3, 9), (4, 10), (5, 9), (6, 11)], ∃ s : State, s.anyStaged ykFields = true ∧ s.stg Reg.YK_CMD.OP = q.1 ∧
      s.stg Reg.YK_CMD.ENCL < 16 ∧ s.ykAgrees q.1 (s.stg Reg.YK_CMD.ENCL) = true ∧ s.ykState = q.2 % 8 ∧ s.mateChanged 0 = false ∧
      (q.1 = 6 → (s.encl 0).checked = true)) ∧
    (∃ s : State, s.anyStaged ykFields = true ∧ s.stg Reg.YK_CMD.OP = 6 ∧ s.stg Reg.YK_CMD.ENCL = 0 ∧ s.ykAgrees 6 0 = true ∧ (s.encl 0).checked = false) ∧
    (∃ s : State, s.anyStaged ykFields = true ∧ s.stg Reg.YK_CMD.OP = 1 ∧ s.stg Reg.YK_CMD.ENCL = 0 ∧ s.ykAgrees 1 0 = true ∧
      0 ∈ s.enclCores 0 ∧ (s.core 0).fenceReq = some 1) ∧
    (∃ s : State, s.anyStaged ykFields = true ∧ s.stg Reg.YK_CMD.OP = 1 ∧ s.stg Reg.YK_CMD.ENCL = 0 ∧ s.ykAgrees 1 0 = true ∧ 0 ∈ s.enclCores 0 ∧
      (∀ k ∈ s.enclCores 0, (s.core k).fenceReq = none ∧ s.rd Reg.ARR_CHK.CHK_LIMIT k = 0) ∧ s.mateChanged 0 = false) ∧
    (∃ s : State, s.anyStaged ykFields = true ∧ s.stg Reg.YK_CMD.OP = 4 ∧ s.ykAgrees 4 0 = true ∧ (s.encl 0).yokeOff = some 64 ∧ 0 ∈ s.enclCores 0 ∧
      s.fallow 0 = false ∧ ∀ k ∈ (s.enclCores 0).filter (fun k => !s.fallow k), ∀ i < 4, s.wordErr k (s.codeWord k (64 + i)) = 0) ∧
    (∃ (s : State) (h : Sheaf), s.anyStaged ykFields = true ∧ s.stg Reg.YK_CMD.OP = 3 ∧ s.ykAgrees 3 0 = true ∧ (s.encl 0).sheaves = [h] ∧ h.tiles ≤ 1 ∧
      (s.encl 0).statSheaf = 0xFFFF ∧ s.egress h.floor ((s.applyAll ykFields).rd Reg.YK_CMD.DST) = some (3, 1)) :=
  ⟨fun op h => ⟨ykCmd op 7 (yoked 5 9 id id), by fin_cases h <;> decide⟩, ⟨ykCmd 7 0 (yoked 5 9 id id), by decide⟩,
    fun q h => ⟨ykCmd q.1 (if q.1 = 3 then 0xFFFFFFFF else 0) (yoked 5 q.2 (if q.1 = 2 then fun x => { x with closed := true } else waits) id), by
      fin_cases h <;> decide +kernel⟩,
    ⟨ykCmd 6 0 (yoked 5 11 (fun x => { x with closed := true }) id), by decide +kernel⟩,
    ⟨ykCmd 1 0 ((atCroft (yoked 5 9 waits id)).modCore 0 (fun c => { c with fenceReq := some 1 })), by decide +kernel⟩,
    ⟨ykCmd 1 0 (put (atCroft (yoked 5 9 waits id)) ((coresOfCroft 0).map (fun c => (Reg.ARR_CHK.CHK_LIMIT, 0, c, 0)))), by decide +kernel⟩,
    ⟨ykCmd 4 0 ((atCroft (yoked 5 10 waits id)).modEncl 0 (fun x => { x with groups := [(0, [0])], yokeOff := some 64 })),
      by decide, by decide, by decide, by decide, by decide +kernel, by decide, fun _ _ _ _ => rfl⟩,
    ⟨ykCmd 3 0xFFFFFFFF (put (yoked 5 9 (fun x => { x with sheaves := [sheaf3], statSheaf := 0xFFFF }) id) [(Reg.FWD.VALID, 1, 0, 5), (Reg.FWD.EGRESS, 3, 0, 5),
      (Reg.FWD.LOP, 1, 0, 5)]), sheaf3, by decide +kernel⟩⟩

/-! ### Power -/

/-- The words of a card of SEQ 7 that commands one state for one domain, or one point for one holding; its fields. -/
def stateWords (d v : Nat) : List Word :=
  if d < 16 then [BitVec.ofNat 64 (2 + 7 * 2 ^ 32), BitVec.ofNat 64 (v * 4 ^ d + 2 ^ (32 + d)), 0, 0]
  else [BitVec.ofNat 64 (2 + 7 * 2 ^ 32), 0, 0, BitVec.ofNat 64 (v * 4 ^ (d - 16) * 2 ^ 16 + 2 ^ (23 + (d - 16)))]
def opWords : List Word := [BitVec.ofNat 64 (2 + 7 * 2 ^ 32), 0, 1, 1]
/-- A module that is READY at tick n with domain d in a state, these words in line 16. -/
def atPower (n d cur : Nat) (ws : List Word) (f : PowerX → PowerX) : State :=
  let s := put (ticking n) [(Reg.PWR_DOM.CUR, cur, 0, d)]
  { s with pins := { s.pins with stReady := true }, power := f { s.power with words := ws } }
def working (n d cur v phase : Nat) : State :=
  (atPower n d cur [] (fun p => { p with card := some (stateCard (stateWords d v)) })).wr Reg.PWR_CTL.PHASE phase
def changing (d to_ : Nat) : State := atPower 512 d 0 [] (fun p => { p with chg := [⟨d, 0, to_, 0, 512⟩] })

theorem witness_StateCardsAndDomains :
    (∃ s : State, s.power.words ≠ [] ∧ s.yosal.stateSeq ≠ some (stateCard s.power.words).seq ∧ s.rd Reg.PWR_CTL.BUSY ≠ 1 ∧ s.pins.stHold = true) ∧
    (∃ s : State, s.power.words ≠ [] ∧ s.yosal.stateSeq ≠ some (stateCard s.power.words).seq ∧ s.rd Reg.PWR_CTL.BUSY ≠ 1 ∧ s.pins.stHold = false ∧
      s.pins.stReady = true ∧ cardReserved s.power.words = true) ∧
    (∃ s : State, s.power.words ≠ [] ∧ s.yosal.stateSeq ≠ some (stateCard s.power.words).seq ∧ s.rd Reg.PWR_CTL.BUSY ≠ 1 ∧ s.pins.stHold = false ∧
      s.pins.stReady = true ∧ s.cardRefusal s.power.words = none ∧ (stateCard s.power.words).stOff = false ∧ s.power.boot = false ∧
      ∀ k < 6, s.phaseWork (stateCard s.power.words) k = []) ∧
    (∀ q ∈ [(1, 0, 0, 1), (2, 16, 0, 1), (3, 16, 3, 0), (4, 15, 3, 0), (5, 0, 0, 0)], ∃ s : State, s.power.words ≠ [] ∧
      s.yosal.stateSeq ≠ some (stateCard s.power.words).seq ∧ s.rd Reg.PWR_CTL.BUSY ≠ 1 ∧ s.pins.stHold = false ∧
      s.pins.stReady = true ∧ s.cardRefusal s.power.words = none ∧ (stateCard s.power.words).stOff = false ∧ s.power.boot = false ∧
      s.phaseWork (stateCard s.power.words) q.1 ≠ [] ∧ ∀ k < q.1, s.phaseWork (stateCard s.power.words) k = []) ∧
    (∃ s : State, s.phaseWork (stateCard (stateWords 0 1)) 1 = [0] ∧ s.domCur 0 = 0 ∧ s.mayLeave 0 = false ∧
      s.power.card = some (stateCard (stateWords 0 1)) ∧ s.rd Reg.PWR_CTL.PHASE = 1 ∧ s.now % 1024 = 0 ∧ s.power.phaseFrom ≤ s.now ∧ s.settled 0 = true) ∧
    (∀ q ∈ [(1, 0, 0, 1), (1, 0, 1, 2), (4, 15, 3, 0), (2, 17, 1, 3), (2, 17, 0, 1), (3, 18, 3, 0)], ∃ (s : State) (c : StateCard), s.power.card = some c ∧ s.now % 1024 = 0 ∧
      s.power.phaseFrom ≤ s.now ∧ s.settled q.2.1 = true ∧ s.rd Reg.PWR_CTL.PHASE = q.1 ∧ s.phaseWork c q.1 = [q.2.1] ∧
      (s.domCur q.2.1 ≠ 0 ∨ s.mayLeave q.2.1 = true)) ∧
    (∃ (s : State) (c : StateCard), s.power.card = some c ∧ s.now % 1024 = 0 ∧ s.power.phaseFrom ≤ s.now ∧ s.settled 0 = true ∧ s.rd Reg.PWR_CTL.PHASE = 5 ∧
      s.phaseWork c 5 = [0] ∧ s.rd Reg.HOLD_OP.WAITING = 0 ∧ s.rd Reg.HOLD_OP.BUSY = 0 ∧ s.claimClear ⟨5, 1, 0, 0, 0⟩ = true) ∧
    (∀ d ∈ [0, 15, 16, 17, 18], ∀ v ∈ [0, 1, 2, 3], ∃ (s : State) (c : DomChg), s.power.chg.find? (fun x => decide (x.dom = d)) = some c ∧ c.due ≤ s.now ∧
      s.power.card = none ∧ c.to_ = v) ∧
    (∃ s : State, s.power.opAt.find? (fun p => decide (p.1 = 3)) = some (3, 0) ∧ 0 + 2048 ≤ s.now ∧ s.power.card = none ∧
      ∀ n < 16, s.uses n 3 = false) ∧
    (∀ k ∈ [1, 2, 3, 4, 5], ∀ up : Bool, ∃ s : State, s.tripLimit k < 0xFFFF ∧ (if up then s.settled (tripDomain k 0) = false else s.domCur (tripDomain k 0) ≠ 3) ∧ (∀ q ∈ s.power.trips, q.1 ≠ tripDomain k 0) ∧
      s.power.card = none ∧ SegsOnWafer s) ∧
    (∃ s : State, s.usesDom 0 0 = true ∧ s.rd Reg.ENCL_STATE.STATE = 2) ∧
    (∀ d ∈ [0, 16, 17], ∃ s : State, (∃ at', (d, at') ∈ s.power.trips ∧ at' ≤ s.now) ∧ s.power.card = none) ∧
    (∃ s : State, s.rd Reg.PWR_LIMIT.TJ_WARN ≠ 0 ∧ s.rd Reg.PWR_LIMIT.TJ_WARN < 255 ∧ (2, s.now / 1024) ∉ s.power.warned ∧ s.stRuns = true) ∧
    (∃ s : State, s.now % 1024 = 0 ∧ s.stRuns = true ∧ 1 ∉ s.power.lostPairs) ∧
    (∀ b : Bool, ∃ s : State, s.power.offAt = some 0 ∧ 0 + 16384 ≤ s.now ∧ s.trust.waiting.isEmpty = b) :=
  ⟨⟨let s := atPower 0 0 0 opWords id; { s with pins := { s.pins with stHold := true } }, by decide⟩,
    ⟨atPower 0 0 0 [3] id, by decide⟩, ⟨atPower 0 0 0 (stateWords 0 0) id, by decide +kernel⟩,
    fun q h => ⟨atPower 0 q.2.1 q.2.2.1 (if q.1 = 5 then opWords else stateWords q.2.1 q.2.2.2) id, by fin_cases h <;> decide +kernel⟩,
    ⟨put (working 0 0 0 1 1) [(Reg.ENCL_STATE.STATE, 2, 0, 0), (Reg.ENCL_SHAPE.CROWS, 1, 0, 0), (Reg.ENCL_SHAPE.CCOLS, 1, 0, 0)], by decide +kernel⟩,
    fun q h => ⟨working 1024 q.2.1 q.2.2.1 q.2.2.2 q.1, stateCard (stateWords q.2.1 q.2.2.2), by fin_cases h <;> decide +kernel⟩,
    ⟨(atPower 1024 0 0 [] (fun p => { p with card := some (stateCard opWords) })).wr Reg.PWR_CTL.PHASE 5, stateCard opWords, by decide +kernel⟩,
    fun d hd v hv => ⟨changing d v, ⟨d, 0, v, 0, 512⟩, by fin_cases hd <;> fin_cases hv <;> decide⟩,
    ⟨atPower 2048 3 0 [] (fun p => { p with opAt := [(3, 0)] }), by decide +kernel⟩,
    fun k h up => ⟨let s := put (ticking 0) (if up then [] else (List.range 19).map (fun d => (Reg.PWR_DOM.CUR, 0, 0, d)))
        { s with power := { s.power with chg := if up then [⟨tripDomain k 0, 3, 0, 0, 512⟩] else [] } }, by
      fin_cases h <;> cases up <;> exact ⟨by decide +kernel, by decide +kernel, by decide +kernel, by decide, by unfold SegsOnWafer; decide +kernel⟩⟩,
    ⟨owned (running 0), by decide +kernel⟩,
    fun d h => ⟨atPower 64 d 0 [] (fun p => { p with trips := [(d, 64)] }), by fin_cases h <;> exact ⟨⟨64, by decide, by decide⟩, rfl⟩⟩,
    ⟨put (ticking 5) [(Reg.PWR_LIMIT.TJ_WARN, 95, 0, 0)], by decide⟩, ⟨ticking 1024, by decide⟩,
    fun b => ⟨let s := atPower 16384 0 0 [] (fun p => { p with offAt := some 0 })
      { s with trust := { s.trust with waiting := if b then [] else [⟨1, 0, [], []⟩] } }, by cases b <;> decide⟩⟩

/-! ### The gauntlet, self-test, faults, check values -/

/-- A P-384 public key (of private key 0x5EED), as GNT_RESP words; a signature's fixed half, and its other half by scope. -/
def keyWords : List Nat :=
  [0x261d79a30266ab88, 0x5678fc492931c8e4, 0x36923d8de2bafcb, 0xf3bbd93c63408b5a, 0x6ea3386f41717a94, 0x13c6df3f927d6200,
   0x56f6016d14b38139, 0x9ee7dbd97b3e2468, 0x35304bcb859626bb, 0x4d5e2786d3066a6f, 0xd1ed595847724451, 0x8ebf816a5ae839cb]
def sigWords (scope : Nat) : List Nat :=
  [0x991b088569af3f1e, 0xc2b58ef8ccf7d7b1, 0xdcea974e7ea67495, 0x8a8eede7bd04ea60, 0x60d29e56981b9084, 0xfd91f8bdd05cca26] ++
  (if scope = 1 then [0x5e57dd3f7a0b716b, 0x839943db1fce1dc8, 0x705714545ed96820, 0xf66860e936a2c9b9, 0x80e607fa8ea07332, 0xad21d62b302aae40]
   else if scope = 2 then [0x9570c87b83f8332f, 0x8e06e818261fbe3a, 0x2be20ad1954e5f38, 0xe451203c5d750df1, 0x141b661858994984, 0x6a1ee5fc007e0b56]
   else if scope = 3 then [0x8965f7b72a6a8fbd, 0x2c00d8c959537a25, 0xa0b3561077e1aebd, 0xcb18b53ed91dff63, 0x991d05ae74f5d845, 0x1c4ba362a6c59d41]
   else [0xcacccfe7672ae0dd, 0x53381d51ae2a65ff, 0x5f25b3b422f17a28, 0x7e5ff401a5a40dc6, 0x22589e46e7f5915, 0xf5ca451cb2911b9e])
def key0 : List Byte := wordBytes keyWords
/-- A credential block with the password of 16 zero bytes under a zero salt, and this key for the lessor. -/
def credBody : List Byte :=
  credMagic ++ leBytes 1 3 ++ List.replicate 7 0 ++ List.replicate 32 0 ++ sha384 (List.replicate 48 0) ++ sha384 key0
def creds : List Byte := credBody ++ hmac384 Config.sealKey credBody
theorem sha384_length (m : List Byte) : (sha384 m).length = 48 := by
  simp [sha384, beBytes, leBytes]
theorem credBody_length : credBody.length = 144 := by
  simp [credBody, sha384_length, credMagic, ascii, leBytes]
theorem creds_seal : slice creds 144 48 = hmac384 Config.sealKey (slice creds 0 144) := by
  simp [slice, creds, List.drop_append, credBody_length, hmac384, sha384_length]
/-- A deployed module at tick n with these credentials and fields. -/
def deployed (n : Nat) (l : List (Fld × Nat × Nat × Nat)) : State :=
  let s := put (ticking n) l
  { s with otp := { s.otp with lcFuses := 1 }, flash := { s.flash with creds := creds } }
theorem deployed_cred (n : Nat) (l : List (Fld × Nat × Nat × Nat)) (b : Nat) (h : b < 2) : (deployed n l).credFlag b = true := by
  have h1 : (deployed n l).flash.creds = creds := rfl
  have h2 : (deployed n l).credOk = true := by
    have e : slice creds 0 8 = credMagic := by decide +kernel
    simp only [State.credOk, h1, e, creds_seal, decide_true, Bool.and_self]
  have h3 : bits (leNat (slice creds 8 1)) b 1 = 1 := by
    revert h
    revert b
    decide +kernel
  simp [State.credFlag, h1, h2, h3]
def minutes (n : Nat) : Fld × Nat × Nat × Nat := (Reg.GNT_CTL.TIMEOUT, n, 0, 0)
def pwLen (n : Nat) : Fld × Nat × Nat × Nat := (Reg.GNT_CTL.PW_LEN, n, 0, 0)
/-- The registers of a response, the nonce asked for with this scope, by the lessor or not. -/
def answered (scope : Nat) (lessor : Bool) (l : List (Fld × Nat × Nat × Nat)) : State :=
  let s := deployed 5 ([minutes 1440] ++ l ++ ((keyWords ++ sigWords scope).mapIdx (fun k w => (Reg.GNT_RESP.DATA, w, 0, k))))
  { s with trust := { s.trust with nonce := some (0, scope, lessor), image := some [] } }
theorem lessor_key (scope : Nat) (l : List (Fld × Nat × Nat × Nat)) (h : ((answered scope true l).regBytes Reg.GNT_RESP.DATA 192).take 96 = key0) :
    (answered scope true l).signerOk true (((answered scope true l).regBytes Reg.GNT_RESP.DATA 192).take 96) = true := by
  have h1 : (answered scope true l).credFlag 1 = true := deployed_cred _ _ 1 (by decide)
  have h2 : slice creds 96 48 = sha384 key0 := by
    simp [slice, creds, credBody, sha384_length, credMagic, ascii, leBytes]
  rw [h]
  simp only [State.signerOk, h1, Bool.true_and, if_true]
  exact decide_eq_true h2.symm
/-- Every holding and domain MP ON. -/
def allOn : List (Fld × Nat × Nat × Nat) := (List.range 17).map (fun h => (Reg.PWR_DOM.CUR, 0, 0, h))
def isSigned (s : State) (lessor : Bool) (scope : Nat) : Prop :=
  s.trust.nonce = some (0, scope, lessor) ∧ s.now < 0 + 2 ^ 33 ∧
    s.signerOk lessor ((s.regBytes Reg.GNT_RESP.DATA 192).take 96) = true ∧
    ecdsaVerify ((s.regBytes Reg.GNT_RESP.DATA 192).take 96) (s.gntMessage scope lessor) ((s.regBytes Reg.GNT_RESP.DATA 192).drop 96) = true
def atRest (s : State) : Prop := (s.lc = 1 ∨ s.lc = 2) ∧ ∀ n < 16, s.rd Reg.ENCL_STATE.STATE (j := n) = 0

theorem witness_GauntletAndLifeCycle :
    (∃ s : State, s.pins.stHold = false ∧ s.rd Reg.GNT_STAT.FAILS = 8 ∧ s.now < s.trust.last + 2 ^ (27 + min 8 24 - 8)) ∧
    (∃ s : State, s.pins.stHold = false ∧ s.rd Reg.GNT_STAT.FAILS = 8 ∧ s.trust.last + 2 ^ (27 + min 8 24 - 8) = s.now ∧ s.rd Reg.GNT_CTL.PW_LEN = 15) ∧
    (∀ w ∈ [0, 1], ∃ s : State, s.pins.stHold = false ∧ s.rd Reg.GNT_STAT.FAILS = 7 ∧ s.rd Reg.GNT_CTL.PW_LEN = 16 ∧ s.credFlag 0 = true ∧
      s.rd Reg.GNT_CTL.TIMEOUT = 1 ∧
      ((sha384 (slice s.flash.creds 16 32 ++ s.regBytes Reg.GNT_PW.DATA 16) = slice s.flash.creds 48 48) ↔ w = 0)) ∧
    (∀ b ∈ [0, 1], ∃ s : State, s.pins.stHold = false ∧ s.rd Reg.GNT_STAT.SESSION = 1 ∧ s.rd Reg.GNT_END.TICK = s.now ∧ s.rd Reg.BOOT_LOAD_STAT.BUSY = b) ∧
    (∃ s : State, s.pins.stHold = false ∧ s.rd Reg.GNT_STAT.SESSION = 0) ∧
    (∃ s : State, s.pins.stHold = false ∧ s.trust.nonce = some (0, 1, false) ∧ 0 + 2 ^ 33 = s.now) ∧
    (∃ s : State, s.pins.stHold = false ∧ s.trust.nonce = none) ∧
    (∃ s : State, s.pins.stHold = false ∧ isSigned s true 1 ∧ s.rd Reg.GNT_CTL.TIMEOUT = 1440) ∧
    (∃ s : State, s.pins.stHold = false ∧ isSigned s true 2 ∧ s.lc = 1 ∧ s.rd Reg.GNT_CTL.TIMEOUT = 1440) ∧
    (∃ s : State, s.pins.stHold = false ∧ isSigned s true 4 ∧ atRest s) ∧
    (∃ s : State, s.pins.stHold = false ∧ s.lc = 0 ∧ s.rd Reg.TRUST_STAT.ID_OK = 1 ∧ s.bist.sealOk = true ∧ s.rd Reg.GNT_STAT.REFURB_BUSY = 0) ∧
    (∀ n ∈ [0, 16, 64], ∃ s : State, s.pins.stHold = false ∧ s.lc = 3 ∧ s.bist.sealOk = false ∧ (∀ n < 16, s.rd Reg.ENCL_STATE.STATE (j := n) = 0) ∧
      s.rd Reg.GNT_CTL.PW_LEN = n) ∧
    (∃ s : State, s.pins.stHold = false ∧ s.lc = 1) :=
  ⟨⟨put State.reset [(Reg.GNT_STAT.FAILS, 8, 0, 0)], by decide⟩,
    ⟨put (ticking (2 ^ 27)) [(Reg.GNT_STAT.FAILS, 8, 0, 0), pwLen 15], by decide⟩,
    fun w h => ⟨deployed 5 [(Reg.GNT_STAT.FAILS, 7, 0, 0), pwLen 16, minutes 1, (Reg.GNT_PW.DATA, w, 0, 1)], rfl, by
      fin_cases h <;> decide, by fin_cases h <;> decide, deployed_cred _ _ 0 (by decide), by fin_cases h <;> decide, by
      fin_cases h <;> decide +kernel⟩,
    fun b h => ⟨put (ticking 9) [(Reg.GNT_STAT.SESSION, 1, 0, 0), (Reg.GNT_END.TICK, 9, 0, 0), (Reg.BOOT_LOAD_STAT.BUSY, b, 0, 0)], by fin_cases h <;> decide⟩, ⟨State.reset, by decide⟩,
    ⟨let s := ticking (2 ^ 33); { s with trust := { s.trust with nonce := some (0, 1, false) } }, by decide⟩, ⟨State.reset, by decide⟩,
    ⟨answered 1 true [], by decide, ⟨rfl, by decide, lessor_key 1 [] (by decide +kernel), by decide +kernel⟩, by decide⟩,
    ⟨answered 2 true [], by decide, ⟨rfl, by decide, lessor_key 2 [] (by decide +kernel), by decide +kernel⟩, by decide, by decide⟩,
    ⟨answered 4 true [], by decide, ⟨rfl, by decide, lessor_key 4 [] (by decide +kernel), by decide +kernel⟩, by unfold atRest; decide +kernel⟩,
    ⟨let s := put State.reset [(Reg.TRUST_STAT.ID_OK, 1, 0, 0)]; { s with bist := { s.bist with sealOk := true } }, by decide⟩,
    fun n h => ⟨let s := put State.reset [pwLen n]; { s with otp := { s.otp with lcFuses := 2 } }, by fin_cases h <;> decide⟩,
    ⟨deployed 0 [], by decide⟩⟩
/-- The owner's key is a part of the image that the spec does not place (opaque): with a firmware image that holds the key above, a
response signed for REFURBISH meets the premises. -/
theorem witness_Refurbish (h : Config.accessKey [] = key0) :
    ∃ s : State, s.pins.stHold = false ∧ isSigned s false 3 ∧ atRest s ∧ s.mpState = 0 ∧ s.otp.lcFuses < 62 ∧
      ∀ h < 16, s.holdPresent h = true → s.rd Reg.PWR_DOM.CUR (j := h) = 0 ∨ s.rd Reg.PWR_DOM.CUR (j := h) = 3 :=
  ⟨answered 3 false allOn, by decide, ⟨rfl, by decide, by
    have e : ((answered 3 false allOn).regBytes Reg.GNT_RESP.DATA 192).take 96 = key0 := by decide +kernel
    have i : (answered 3 false allOn).trust.image = some [] := rfl
    rw [e]
    simp only [State.signerOk, i, Bool.false_eq_true, if_false, List.drop_nil, h, decide_true], by decide +kernel⟩,
    by unfold atRest; decide +kernel, by decide +kernel, by decide, by decide +kernel⟩

/-- A module in MANUFACTURE at tick n with every domain ON and every holding at OP0 and 780 mV. -/
def bench (n : Nat) (l : List (Fld × Nat × Nat × Nat)) : State :=
  put (ticking n) (((List.range 19).map (fun h => (Reg.PWR_DOM.CUR, 0, 0, h))) ++ ((List.range 16).map (fun h => (Reg.PWR_HOLD.MILLIVOLTS, 780, 0, h))) ++ l)
/-- BIST_CMD: these KIND bits for the croft at an origin; Tabkos and ports. -/
def asked (kind origin tabkos ports : Nat) : List (Fld × Nat × Nat × Nat) :=
  [(Reg.BIST_CMD.KIND, kind, 0, 0), (Reg.BIST_CMD.ORIGIN, origin, 0, 0), (Reg.BIST_CMD.CROWS, 1, 0, 0), (Reg.BIST_CMD.CCOLS, 1, 0, 0),
    (Reg.BIST_UNITS.TABKOS, tabkos, 0, 0), (Reg.BIST_UNITS.PORTS, ports, 0, 0)]
def withBist (s : State) (f : BistX → BistX) : State := { s with bist := f s.bist }
def run0 : BistRun := { kind := 15, crofts := [0, 255], tabkos := [47], ports := [15] }
/-- A claim listed in place 0. -/
def claimed (act kind index : Nat) : List (Fld × Nat × Nat × Nat) :=
  [(Reg.MAINT_CLAIM.VALID, 1, 0, 0), (Reg.MAINT_CLAIM.ACT, act, 0, 0), (Reg.MAINT_CLAIM.KIND, kind, 0, 0), (Reg.MAINT_CLAIM.INDEX, index, 0, 0),
    (Reg.MAINT_CLAIM.CROWS, 1, 0, 0), (Reg.MAINT_CLAIM.CCOLS, 1, 0, 0)]
def sliced (p : Nat) (l : List (Fld × Nat × Nat × Nat)) : State :=
  bench 2048 ([(Reg.BIST_SLICE.EN, 1, 0, 0), (Reg.BIST_SLICE.PERIOD, 1, 0, 0), (Reg.BIST_SLICE.LAST, p, 0, 0)] ++ l)

theorem witness_SelfTestAndFallowEdits :
    (∃ s : State, s.pins.stHold = false ∧ s.rd Reg.BIST_STAT.BUSY = 1) ∧
    (∃ s : State, s.pins.stHold = false ∧ s.rd Reg.BIST_STAT.BUSY ≠ 1 ∧ s.serviceOk = false) ∧
    (∃ s : State, s.pins.stHold = false ∧ s.rd Reg.BIST_STAT.BUSY ≠ 1 ∧ s.serviceOk = true ∧ ∃ c ∈ s.bistUnits.crofts, s.railOk (holdingOf c) = false) ∧
    (∃ s : State, s.pins.stHold = false ∧ s.rd Reg.BIST_STAT.BUSY ≠ 1 ∧ s.serviceOk = true ∧ (∀ c ∈ s.bistUnits.crofts, s.railOk (holdingOf c) = true) ∧
      (s.bistClaims s.bistUnits).find? (fun c => !s.claimClear c) = some ⟨2, 0, 255, 1, 1⟩) ∧
    (∃ s : State, s.pins.stHold = false ∧ s.rd Reg.BIST_STAT.BUSY ≠ 1 ∧ s.serviceOk = true ∧ s.bistUnits.crofts = [] ∧ s.bistUnits.tabkos = [] ∧
      s.bistUnits.ports = []) ∧
    (∃ s : State, s.pins.stHold = false ∧ s.rd Reg.BIST_STAT.BUSY ≠ 1 ∧ s.serviceOk = true ∧ (∀ c ∈ s.bistUnits.crofts, s.railOk (holdingOf c) = true) ∧
      (∀ c ∈ s.bistClaims s.bistUnits, s.claimClear c = true) ∧ s.bistUnits.crofts ≠ [] ∧ s.bistUnits.tabkos ≠ [] ∧ s.bistUnits.ports ≠ []) ∧
    (∃ (s : State) (r : BistRun), s.pins.stHold = false ∧ s.bist.run = some r ∧ (∀ c ∈ r.crofts, c < 256) ∧ (255 : CroftId).val ∈ r.crofts) ∧
    (∃ s : State, s.bist.run = some run0 ∧ s.pins.stHold = false ∧ croftOf (0 : CoreId).val ∈ run0.crofts ∧ s.fallow 0 = false ∧
      (s.core 0).fencing = none ∧ s.enclOfCore 0 = none) ∧
    (∀ q ∈ [(254, 255), (255, 0)], ∀ b : Bool, ∃ s : State, s.rd Reg.BIST_SLICE.EN ≠ 0 ∧ s.lc ≠ 4 ∧ s.bist.slice = none ∧ s.now % 1024 = 0 ∧
      s.stRuns = true ∧ s.bist.sliceAt = some 1024 ∧ 1024 + 1024 * s.rd Reg.BIST_SLICE.PERIOD ≤ s.now ∧ s.rd Reg.BIST_SLICE.LAST = q.1 ∧
      q.2 = (q.1 + 1 + 0) % 256 ∧ s.bistCroft q.2 = true ∧ s.railOk (holdingOf q.2) = true ∧ s.quarantined q.2 = false ∧
      s.croftClaimed [2, 9] q.2 = false ∧ s.claimClear ⟨1, 0, q.2, 1, 1⟩ = b) ∧
    (∃ s : State, s.bist.slice = some (255, 0) ∧ 0 + 2048 ≤ s.now ∧ s.pins.stHold = false) ∧
    (∀ d ∈ [0, 15, 16, 18], ∃ s : State, s.bist.run = some run0 ∧ run0.inDomain d = true ∧ s.bist.slice = none ∧ s.pins.stHold = false) ∧
    (∃ s : State, s.serviceOk = true ∧ s.croftPresent 0 = true ∧ s.logicalOf 0 = some 0 ∧ s.fallow 0 = false ∧ (s.core 0).fencing = none ∧
      s.enclOfCore 0 = none) ∧
    (∃ s : State, s.serviceOk = true ∧ s.croftPresent 0 = true ∧ s.logicalOf 0 = some 0 ∧ s.fallow 0 = false ∧ (s.core 0).fencing = none ∧
      s.enclOfCore 0 = some 0) ∧
    (∃ s : State, s.serviceOk = true ∧ s.croftPresent (croftOfPhys 87039) = true ∧ s.logicalOf 87039 = none ∧ 87039 ∉ s.bist.marks) ∧
    (∀ b : Bool, ∃ s : State, s.serviceOk = true ∧ s.enclOf 0 = none ∧ 0 ∈ s.bist.passed ∧ s.logicalOf 0 = some 0 ∧ s.fallow 0 = true ∧ s.stiled 0 = b) ∧
    (∃ s : State, s.serviceOk = true ∧ s.enclOf 255 = none ∧ 255 ∈ s.bist.passed ∧ croftOfPhys 87039 = 255 ∧ s.logicalOf 87039 = none ∧
      87039 ∈ s.bist.marks) ∧
    (∃ s : State, s.serviceOk = false) ∧ (∃ s : State, s.serviceOk = true) :=
  ⟨⟨put State.reset [(Reg.BIST_STAT.BUSY, 1, 0, 0)], by decide⟩, ⟨deployed 0 [], by decide⟩,
    ⟨put (bench 0 (asked 1 0 0 0)) [(Reg.PWR_HOLD.MILLIVOLTS, 804, 0, 0)], by decide, by decide, by decide, 0, by decide +kernel, by decide +kernel⟩,
    ⟨bench 0 (asked 1 255 0 0 ++ claimed 9 0 255), by decide, by decide, by decide, by decide +kernel, by decide +kernel⟩,
    ⟨State.reset, by decide, by decide, by decide, by decide +kernel, by decide +kernel, by decide +kernel⟩,
    ⟨bench 0 (asked 0x1FF 255 (2 ^ 47) (2 ^ 15)), by decide, by decide, by decide, by decide +kernel, by decide +kernel, by decide +kernel,
      by decide +kernel, by decide +kernel⟩,
    ⟨withBist State.reset (fun x => { x with run := some run0 }), run0, by decide⟩,
    ⟨withBist State.reset (fun x => { x with run := some run0 }), by decide +kernel⟩,
    fun q h b => ⟨withBist (sliced q.1 (if b then [] else claimed 4 0 q.2)) (fun x => { x with sliceAt := some 1024 }), by
      fin_cases h <;> cases b <;> decide +kernel⟩,
    ⟨withBist (ticking 2048) (fun x => { x with slice := some (255, 0) }), by decide⟩,
    fun d h => ⟨withBist State.reset (fun x => { x with run := some run0 }), rfl, by fin_cases h <;> decide +kernel, rfl, rfl⟩,
    ⟨State.reset, by decide +kernel⟩, ⟨owned State.reset, by decide +kernel⟩, ⟨State.reset, by decide +kernel⟩,
    fun b => ⟨withBist (put State.reset [(Reg.RTR_STAT.FENCED, 1, 0, 0), (Reg.RTR_STAT.STILE, b2n b, 0, 0)]) (fun x => { x with passed := [0] }), by
      cases b <;> decide +kernel⟩,
    ⟨withBist State.reset (fun x => { x with passed := [255], marks := [87039] }), by decide +kernel⟩,
    ⟨deployed 0 [], by decide⟩, ⟨State.reset, by decide⟩⟩

def event0 : Event := ⟨15, 0x28, 15, 0, 81919, 7, 3, 9⟩
/-- Ring r with its smallest size enabled, this much used, this many events lost. -/
def ring (r used lost : Nat) : State :=
  let s := put State.reset [(Reg.EVR_CTL.EN, 1, 0, r), (Reg.EVR_PI.PI, used, 0, r), (Reg.EVR_PI.LOST, lost, 0, r)]
  { s with events := [{ event0 with dest := r }] }

/-- Core 0 with its fencing for reason 3 over, these packets in its ejection buffer of CTL. -/
def fenced (l : List Packet) : State := (State.reset.modCore 0 (fun c => { c with fencing := some 3 })).setEject 0 0 l
/-- None of these is of the types that are left (all but MC_ACK). -/
def noneLeft (s : State) (vc : Nat) : Prop := ∀ p ∈ s.ejectOf 0 vc, p.ty = 8

theorem witness_FencingSpareRowsAndEventRings :
    (∃ s : State, (s.core 0).fencing = some 3 ∧ s.rd Reg.SP_STAT.WIPE_BUSY 0 ≠ 1 ∧ s.enclOfCore 0 = none ∧ (s.core 0).mcSlots = [] ∧
      ∀ vc < 4, noneLeft s vc) ∧
    (∃ (s : State) (p : Packet), (s.core 0).fencing = some 3 ∧ s.rd Reg.SP_STAT.WIPE_BUSY 0 ≠ 1 ∧ s.enclOfCore 0 = none ∧ s.stiled 0 = false ∧
      (s.core 0).mcSlots = [] ∧ s.ejectOf 0 0 = [p] ∧ p.ty = 5 ∧ ∀ vc, 1 ≤ vc → vc < 4 → noneLeft s vc) ∧
    (∀ r ∈ [3, 5], ∃ s : State, (s.core 81919).fencing = some r ∧ s.rd Reg.SP_STAT.WIPE_BUSY 81919 ≠ 1 ∧ s.enclOfCore 81919 = none) ∧
    (∃ s : State, (s.core 0).fencing = some 5 ∧ s.rd Reg.SP_STAT.WIPE_BUSY 0 ≠ 1 ∧ s.enclOfCore 0 = some 0 ∧ s.rd Reg.ENCL_STATE.STATE ≠ 3) ∧
    (∃ s : State, s.rd Reg.FLT_SPARE.BUSY = 1) ∧ (∃ s : State, s.rd Reg.FLT_SPARE.BUSY ≠ 1 ∧ s.rowFits 255 = false) ∧
    (∀ b : Bool, ∃ s : State, s.rd Reg.FLT_SPARE.BUSY ≠ 1 ∧ s.rowFits 255 = true ∧ s.claimClear ⟨4, 0, 255, 1, 1⟩ = b) ∧
    (∃ s : State, s.bist.spare = some (255, 0, none) ∧ s.now % 1024 = 0) ∧
    (∃ s : State, s.bist.spare = some (255, 15, some 0) ∧ 0 + 2048 ≤ s.now) ∧
    (∀ v ∈ [1, 2, 3], ∃ s : State, s.croftPresent 0 = true ∧ s.inRect 0 0 = true ∧ s.rd Reg.ENCL_STATE.STATE = v) ∧
    (∀ r ∈ [0, 16], ∀ q ∈ [(62, 0), (62, 1), (63, 0), (63, 1)], ∃ (s : State) (e : Event) (l : List Event), s.rd Reg.EVR_CTL.EN 0 r ≠ 0 ∧ s.pins.stHold = false ∧
      s.ringBusy r = false ∧ takeEvent r s.events = some (e, l) ∧
      (s.rd Reg.EVR_PI.PI 0 r + 2 ^ 32 - s.rd Reg.EVR_CI.CI 0 r) % 2 ^ 32 = q.1 ∧ 2 ^ (min (s.rd Reg.EVR_CTL.SIZE 0 r) 10 + 6) = 64 ∧
      s.rd Reg.EVR_PI.LOST 0 r = q.2) ∧
    (∀ v ∈ [2 ^ 31, 2 ^ 31 - 1, 64], ∃ s : State, (s.rd Reg.EVR_PI.PI 0 0 + 2 ^ 32 - 0) % 2 ^ 32 = v) ∧
    (∃ s : State, s.rd Reg.EVR_CTL.EN 0 16 = 1) ∧ (∃ s : State, s.rd Reg.EVR_CTL.EN 0 16 ≠ 1) :=
  ⟨⟨fenced [], by unfold noneLeft; decide +kernel⟩,
    ⟨fenced [gw 5 0], gw 5 0, by decide +kernel, by decide +kernel, by decide +kernel, by decide +kernel, by decide +kernel, by decide +kernel, rfl,
      by unfold noneLeft; intro vc h1 h2; interval_cases vc <;> decide +kernel⟩,
    fun r h => ⟨State.reset.modCore 81919 (fun c => { c with fencing := some r }), by fin_cases h <;> decide +kernel⟩,
    ⟨owned (State.reset.modCore 0 (fun c => { c with fencing := some 5 })), by decide +kernel⟩,
    ⟨put State.reset [(Reg.FLT_SPARE.BUSY, 1, 0, 0)], by decide⟩, ⟨State.reset, by decide +kernel⟩,
    fun b => ⟨bench 0 ((Reg.CROFT_TABLE.SPARE_GOOD, 1, 0, 255) :: (if b then [] else claimed 5 0 255)), by cases b <;> decide +kernel⟩,
    ⟨withBist (ticking 0) (fun x => { x with spare := some (255, 0, none) }), by decide⟩,
    ⟨withBist (ticking 2048) (fun x => { x with spare := some (255, 15, some 0) }), by decide⟩,
    fun v h => ⟨put (owned State.reset) [(Reg.ENCL_STATE.STATE, v, 0, 0)], by fin_cases h <;> decide +kernel⟩,
    fun r hr q h => ⟨ring r q.1 q.2, { event0 with dest := r }, [], by fin_cases hr <;> fin_cases h <;> decide +kernel⟩,
    fun v h => ⟨put State.reset [(Reg.EVR_PI.PI, v, 0, 0)], by fin_cases h <;> decide⟩,
    ⟨put State.reset [(Reg.EVR_CTL.EN, 1, 0, 16)], by decide⟩, ⟨State.reset, by decide⟩⟩

/-- Unit 0 of Tabko 0 with preset 0 and these bytes asked, MP ON, the Tabko READY. -/
def scanAsk (first len : Nat) (l : List (Fld × Nat × Nat × Nat)) : State :=
  staged (bench 0 ([(Reg.TBK_STAT.READY, 1, 0, 0)] ++ l)) [(Reg.CVU_START.MPA, first, 0, 0), (Reg.CVU_LEN.BYTES, len, 0, 0)]
def scan0 (next stop : Nat) : CvuX := ⟨next, stop, 32, 0x1EDC6F41, true, true, 0xFFFFFFFF, 0xFFFFFFFF⟩
def scanning (x : CvuX) (l : List (Fld × Nat × Nat × Nat)) (errs : List (Nat × Nat)) : State :=
  let s := bench 0 ((Reg.TBK_STAT.INIT_BUSY, 0, 0, 0) :: l)
  { s with cvus := Store.put s.cvus 0 x, slowErrs := errs }

theorem witness_CheckValueScans :
    (∃ s : State, s.anyStaged cvuFields 7 = false) ∧
    (∀ q ∈ [(0, 0), (0, spanBytes), (spanBytes - 1, 1)], ∃ (s : State) (c : CheckCfg), s.tabkoPresent 0 = true ∧ s.anyStaged cvuFields 0 = true ∧
      s.cvuConfig 0 0 = some c ∧ ¬(0 = 1 ∧ s.claimed [7] 2 0 = true) ∧
      Store.get s.cvus 0 = none ∧ s.stg Reg.CVU_START.MPA 0 = q.1 ∧ s.stg Reg.CVU_LEN.BYTES 0 = q.2 ∧ s.inSpan 0 q.1 = true ∧
      (q.2 = 0 ∨ s.inSpan 0 (q.1 + q.2 - 1) = true) ∧ s.mpState = 0 ∧ s.rd Reg.TBK_STAT.READY 0 = 1) ∧
    (∃ s : State, s.tabkoPresent 0 = true ∧ s.anyStaged cvuFields 0 = true ∧ s.cvuConfig 0 0 = none) ∧
    (∃ s : State, s.tabkoPresent 0 = true ∧ s.anyStaged cvuFields 0 = true ∧ Store.get s.cvus 0 ≠ none) ∧
    (∃ s : State, s.tabkoPresent 0 = true ∧ s.anyStaged cvuFields 0 = true ∧ s.inSpan 0 (s.stg Reg.CVU_START.MPA 0) = false) ∧
    (∃ s : State, s.tabkoPresent 0 = true ∧ s.anyStaged cvuFields 0 = true ∧ s.mpState ≠ 0) ∧
    (∃ s : State, s.admitting 0 = true ∧ Store.get s.cvus 0 = some (scan0 64 64)) ∧ (∃ s : State, s.admitting 0 = false ∧ Store.get s.cvus 0 = some (scan0 64 64)) ∧
    (∃ s : State, s.admitting 0 = true ∧ Store.get s.cvus 0 = some (scan0 0 1) ∧ s.closedAt 0 0 = true) ∧
    (∃ s : State, s.admitting 0 = true ∧ Store.get s.cvus 0 = some (scan0 0 64) ∧ s.closedAt 0 0 = false ∧ (s.dramRead 0 0 64).2.bad ≠ []) ∧
    (∃ s : State, s.admitting 0 = true ∧ Store.get s.cvus 0 = some (scan0 63 65) ∧ s.closedAt 0 63 = false ∧ (s.dramRead 0 63 1).2.bad = []) :=
  ⟨⟨State.reset, by decide +kernel⟩, fun q h => ⟨scanAsk q.1 q.2 [], preset0, by fin_cases h <;> decide +kernel⟩,
    ⟨staged (scanAsk 0 0 []) [(Reg.CVU_CFG.PRESET, 7, 0, 0)], by decide +kernel⟩,
    ⟨staged (scanning (scan0 0 64) [] []) [(Reg.CVU_LEN.BYTES, 1, 0, 0)], by decide +kernel⟩, ⟨scanAsk spanBytes 0 [], by decide +kernel⟩,
    ⟨staged State.reset [(Reg.CVU_LEN.BYTES, 1, 0, 0)], by decide +kernel⟩, ⟨scanning (scan0 64 64) [] [], by decide +kernel⟩,
    ⟨scanning (scan0 64 64) [(Reg.TBK_STAT.RECAL_BUSY, 1, 0, 0)] [], by decide +kernel⟩,
    ⟨scanning (scan0 0 1) [(Reg.TBK_REGION.VALID, 1, 0, 0), (Reg.TBK_REGION.COUNT, 1, 0, 0), (Reg.TBK_REGION.CLOSED, 1, 0, 0)] [], by decide +kernel⟩,
    ⟨scanning (scan0 0 64) [] [(0, 2)], by decide +kernel⟩, ⟨scanning (scan0 63 65) [] [], by decide +kernel⟩⟩

/-! ### The window -/

/-- The link up, the window enabled. -/
def windowed (l : List (Fld × Nat × Nat × Nat)) : State := bench 0 ([(Reg.YEP_STAT.STATE, 2, 0, 0), (Reg.YEP_WIN.EN, 1, 0, 0)] ++ l)
def held (s : State) : State := { s with pins := { s.pins with stHold := true } }
/-- MPA of the last byte of core 0's scratchpad; of Tabko 0's span from its first byte. -/
def padTop : Nat := 0x100000000000 + 2 ^ 18 - 1
/-- The window is open and a request need not wait. -/
def isOpen (s : State) (r : WinReq) : Prop :=
  s.yUp = true ∧ s.pins.stHold = false ∧ s.rd Reg.YEP_WIN.EN ≠ 0 ∧ s.yosal.winq = [] ∧ s.winWaits r = false
/-- The region of Tabko 0's first granules: VALID, its CLOSED. -/
def regioned (c : Nat) : List (Fld × Nat × Nat × Nat) :=
  [(Reg.TBK_REGION.VALID, 1, 0, 0), (Reg.TBK_REGION.COUNT, 1, 0, 0), (Reg.TBK_REGION.CLOSED, c, 0, 0)]

theorem witness_WindowAndSideBand :
    locate 0x200003000000 = none ∧
    (∃ (s : State) (q : WinReq), s.yUp = true ∧ s.yosal.winq = [] ∧ s.winWaits q = true) ∧
    (∃ s : State, s.yUp = true ∧ s.yosal.winq = [] ∧ s.pins.stHold = false ∧ s.rd Reg.YEP_WIN.EN = 0) ∧
    (∃ s : State, s.yUp = true ∧ s.yosal.winq = [] ∧ s.pins.stHold = true ∧ (0x200000DFFFFF < 0x200000E00000 ∨ 0x200000E01000 ≤ 0x200000DFFFFF)) ∧
    (∃ s : State, isOpen s (.rd 0 0x600000000000 1) ∧ s.reach 0x600000000000 = .nothing ∧ 64 < 63 % 64 + 2 ∧ s.reach (Reg.BOOT_ID.SERIAL.addr 0 0) = .csr ∧ s.csrStatus (Reg.BOOT_ID.SERIAL.addr 0 0) = 0) ∧
    (∃ s : State, isOpen s (.rd 0 (Reg.HND_STAT.HALTED.addr 0 0) 1) ∧ s.reach (Reg.HND_STAT.HALTED.addr 0 0) = .csr ∧ s.csrStatus (Reg.HND_STAT.HALTED.addr 0 0) ≠ 0) ∧
    (∃ s : State, isOpen s (.rd 0 padTop 1) ∧ s.reach padTop = .scratchpad 0 (2 ^ 18 - 1) ∧ s.fallow 0 = true ∧ padTop % 64 + 1 ≤ 64) ∧
    (∃ s : State, isOpen s (.rd 0 padTop 1) ∧ s.reach padTop = .scratchpad 0 (2 ^ 18 - 1) ∧ s.fallow 0 = false ∧ s.rd Reg.HND_STAT.HALTED 0 = 0) ∧
    (∃ s : State, isOpen s (.rd 0 padTop 1) ∧ s.reach padTop = .scratchpad 0 (2 ^ 18 - 1) ∧ s.fallow 0 = false ∧ s.rd Reg.HND_STAT.HALTED 0 = 1 ∧
      s.rd Reg.SP_STAT.LOCKED 0 = 0 ∧ s.rd Reg.SP_STAT.WIPE_BUSY 0 = 0 ∧ ∀ cw, s.wordErr 0 cw = 0) ∧
    (∀ q ∈ [(Reg.SP_STAT.LOCKED, 1, 0), (Reg.SP_STAT.WIPE_BUSY, 0, 1)], ∃ s : State, isOpen s (.rd 0 padTop 1) ∧ s.reach padTop = .scratchpad 0 (2 ^ 18 - 1) ∧ s.fallow 0 = false ∧
      s.rd Reg.SP_STAT.LOCKED 0 = q.2.1 ∧ s.rd Reg.SP_STAT.WIPE_BUSY 0 = q.2.2) ∧
    (∃ s : State, isOpen s (.rd 0 0 1) ∧ s.reach 0 = .slow 0 0 ∧ s.slowStatus 0 0 false = 0 ∧ (s.dramRead 0 0 64).2 = ⟨0, []⟩) ∧
    (∃ s : State, isOpen s (.rd 0 0 1) ∧ s.reach 0 = .slow 0 0 ∧ s.slowStatus 0 0 false = 0x66 ∧ s.slowStatus 0 0 true = 0x66) ∧
    (∃ s : State, isOpen s (.rd 0 0 1) ∧ s.reach 0 = .slow 0 0 ∧ s.slowStatus 0 0 false = 0x67) ∧
    (∃ (s : State) (mask : Word), isOpen s (.wr 0 (Reg.ATT_NONCE.NONCE.addr 0 0) mask.toNat []) ∧ (8 < 64 ∧ mask.getLsbD 8 = true ∧ ∀ q < 8, mask.getLsbD q = false) ∧
      (∀ q < 64, mask.getLsbD q = true ↔ 8 ≤ q ∧ q < 8 + 8) ∧
      s.reach (Reg.ATT_NONCE.NONCE.addr 0 0 / 64 * 64 + 8) = .csr ∧ s.csrStatus (Reg.ATT_NONCE.NONCE.addr 0 0 / 64 * 64 + 8) = 0) ∧
    (∀ v ∈ [0, 1], ∃ (s : State) (mask : Word), isOpen s (.wr 0 padTop mask.toNat []) ∧ (63 < 64 ∧ mask.getLsbD 63 = true ∧ ∀ q < 63, mask.getLsbD q = false) ∧
      s.reach (padTop / 64 * 64 + 63) = .scratchpad 0 (2 ^ 18 - 1) ∧ s.fallow 0 = false ∧ s.rd Reg.HND_STAT.HALTED 0 = v ∧
      s.rd Reg.SP_STAT.LOCKED 0 = 0 ∧ s.rd Reg.SP_STAT.WIPE_BUSY 0 = 0 ∧ ∀ cw, s.wordErr 0 cw = 0) ∧
    (∃ (s : State) (mask : Word) (line : List Byte), isOpen s (.wr 0 padTop mask.toNat line) ∧ (63 < 64 ∧ mask.getLsbD 63 = true ∧ ∀ q < 63, mask.getLsbD q = false) ∧
      s.reach (padTop / 64 * 64 + 63) = .scratchpad 0 (2 ^ 18 - 1) ∧ s.fallow 0 = false ∧ s.rd Reg.HND_STAT.HALTED 0 = 1 ∧
      s.rd Reg.SP_STAT.LOCKED 0 = 0 ∧ s.rd Reg.SP_STAT.WIPE_BUSY 0 = 0 ∧
      s.lostWords 0 ((maskedBytes mask.toNat line).map (fun p => 2 ^ 18 - 1 - 63 + p.1)) true ≠ []) ∧
    (∃ (s : State) (mask : Word), isOpen s (.wr 0 0 mask.toNat []) ∧ (0 < 64 ∧ mask.getLsbD 0 = true) ∧ s.reach (0 + 0) = .slow 0 0 ∧ s.slowStatus 0 0 true = 0 ∧
      (s.dramRead 0 (0 - 0) 64).2.bad = []) ∧
    (∃ s : State, s.stRuns = true ∧ s.rd Reg.BOOT_STAT.PHASE ≠ 0 ∧ s.lc ≠ 4 ∧ s.rd Reg.PWR_TRIP.VALID = 1) ∧
    (∃ s : State, ¬(s.stRuns = true ∧ s.rd Reg.BOOT_STAT.PHASE ≠ 0 ∧ s.lc ≠ 4)) :=
  ⟨by decide +kernel, ⟨windowed [(Reg.TBK_STAT.RECAL_BUSY, 1, 0, 0)], .rd 0 0 1, by decide +kernel⟩, ⟨bench 0 [(Reg.YEP_STAT.STATE, 2, 0, 0)], by decide +kernel⟩, ⟨held (windowed []), by decide +kernel⟩,
    ⟨windowed [], by unfold isOpen; decide +kernel⟩, ⟨windowed [(Reg.RTR_STAT.FENCED, 1, 0, 0)], by unfold isOpen; decide +kernel⟩,
    ⟨windowed [(Reg.RTR_STAT.FENCED, 1, 0, 0)], by unfold isOpen; decide +kernel⟩,
    ⟨windowed [(Reg.HND_STAT.HALTED, 0, 0, 0)], by unfold isOpen; decide +kernel⟩,
    ⟨windowed [], by unfold isOpen; decide +kernel, by decide +kernel, by decide +kernel, by decide +kernel, by decide +kernel, by decide +kernel, fun _ => rfl⟩,
    fun q h => ⟨windowed [(q.1, 1, 0, 0)], by unfold isOpen; fin_cases h <;> decide +kernel⟩,
    ⟨windowed ((Reg.TBK_STAT.INIT_BUSY, 0, 0, 0) :: regioned 0), by unfold isOpen; decide +kernel⟩,
    ⟨windowed [(Reg.TBK_STAT.DOWN, 1, 0, 0)], by unfold isOpen; decide +kernel⟩,
    ⟨windowed ((Reg.TBK_STAT.INIT_BUSY, 0, 0, 0) :: regioned 1), by unfold isOpen; decide +kernel⟩,
    ⟨windowed [], 0xFF00, by unfold isOpen; decide +kernel⟩,
    fun v h => ⟨windowed [(Reg.HND_STAT.HALTED, v, 0, 0)], 0x8000000000000000, by
      fin_cases h <;> exact ⟨by unfold isOpen; decide +kernel, by decide +kernel, by decide +kernel, by decide +kernel, by decide +kernel, by decide +kernel,
        by decide +kernel, fun _ => rfl⟩⟩,
    ⟨(windowed []).setErr 0 ((windowed []).codeWord 0 (2 ^ 18 - 1)) 2, 0x8000000000000000, List.replicate 64 0, by unfold isOpen; decide +kernel⟩,
    ⟨windowed ((Reg.TBK_STAT.INIT_BUSY, 0, 0, 0) :: regioned 0), 1, by unfold isOpen; decide +kernel⟩,
    ⟨put (ticking 0) [(Reg.PWR_TRIP.VALID, 1, 0, 0), (Reg.BOOT_STAT.PHASE, 9, 0, 0)], by decide⟩, ⟨State.reset, by decide⟩⟩

/-! ### Start-up: an image that verifies and a configuration that is accepted -/

/-- The signed part of a header: SLOT 0, SVN 0, LEN 4096, the hash of 4,096 zero bytes, the key; then its signature. -/
def imgHead : List Byte :=
  wordBytes [0x4547414d494a5a4b, 0x1, 0x0, 0x1000, 0xb5d3fb3f3e9ae5c0, 0xac2f4336fb2854c7, 0x51ff96429445c7ab, 0x64fc4eef4f7c735f,
    0x35566fa1f7096858, 0x74d7a82acfae1e4a] ++ key0 ++ List.replicate 80 0
def imgSig : List Byte :=
  wordBytes [0x991b088569af3f1e, 0xc2b58ef8ccf7d7b1, 0xdcea974e7ea67495, 0x8a8eede7bd04ea60, 0x60d29e56981b9084, 0xfd91f8bdd05cca26,
    0xccdcc7a328e01534, 0xcdaf65d353d11ab6, 0xff6d97493558d927, 0xa548a8b25f2d5d4c, 0x1ba85c8bef2be3f9, 0x8f724d60c0061415]
def goodImage : List Byte := imgHead ++ imgSig ++ List.replicate 672 0 ++ List.replicate 4096 0
/-- A block of zeros, and the values of the hash after each four of them. -/
def zeroBlock : List Byte := List.replicate 128 0
def fourBlocks (v : ShaRegs) : ShaRegs := (((v.absorb zeroBlock).absorb zeroBlock).absorb zeroBlock).absorb zeroBlock
def mid : Nat → ShaRegs
  | 0 => ⟨[0xb4f17373d387da42, 0x846ddb3ee7b014dd, 0x6df8303e0d268503, 0xd6fbd9c8d01884a3], [0x914ea7577b4649d, 0x8dd2b69667bfe131, 0xa3531b5dc734bffb, 0x20bee0140717d0c8]⟩
  | 1 => ⟨[0x715d870ce8855d09, 0x74a720dff84a3aad, 0x67d9d41703df64ed, 0xe93a103f02de7f08], [0xb720c0bde7a88d53, 0xf6d932f9da2d449c, 0x97adf0c54c30bfe8, 0x486735bc287b129d]⟩
  | 2 => ⟨[0x29a4605abee67b4f, 0x3541a7327cca98ea, 0x56c580191802a900, 0x6a7c062efd394da1], [0xb3382d55b805784f, 0xe2082b0018915b91, 0x72a8a504499f8064, 0xded8b99c2480a7ad]⟩
  | 3 => ⟨[0x2cbac553e1441f68, 0xa1902c48e3e001f6, 0xa23cfdfc7895e96a, 0x9dbb316e8239981f], [0xe00173a252eed119, 0x432178a83f66b2f6, 0x130d12fa07045a9f, 0x73912893957a9159]⟩
  | 4 => ⟨[0x2161287e24144e4b, 0xa87dd2f6378f147b, 0xa3e3b4008d85691d, 0x360c3f46b38ba49d], [0x94125b8fd2681576, 0xf9234afa7e1240b1, 0x788bcfeeefb4050a, 0x675723f591277f1]⟩
  | 5 => ⟨[0xba3095818bc538f0, 0xe4c7a0be8665b75c, 0x70a8f9e4156ea94, 0x9e4a24d20da6f50c], [0xb126521944510898, 0xf19ed58f7694d081, 0x83993eeed4267a97, 0xbc0170fc32417e75]⟩
  | 6 => ⟨[0x37c32ce6d191d341, 0x3b2a4f38498e5434, 0x307406e2de36e25, 0xbd453c44337ef512], [0xe83b88e6587f1133, 0x101d698bdcc2ff23, 0xd177b074971a6f46, 0x80ae4a9202cdc2b5]⟩
  | 7 => ⟨[0x74b65552241defc5, 0x7f47133eabb8ee03, 0xd337485e3c967777, 0x56305aa7077a987b], [0x61a9641c5d5cc4f8, 0xb37b48e9d5999090, 0x60fb67c06fd0b9a9, 0x54dfc9c6af525c14]⟩
  | _ => sha384Start
theorem img_mid_start : fourBlocks sha384Start = mid 0 := by decide +kernel
theorem img_mids : ∀ k < 7, fourBlocks (mid k) = mid (k + 1) := by decide +kernel
/-- The hash of the body. -/
theorem img_body_hash : sha384 (List.replicate 4096 0) = slice imgHead 32 48 := by
  have pad : ∀ k < 32, slice (List.replicate 4096 (0 : Byte) ++ [0x80] ++ List.replicate 111 0 ++ beBytes 16 32768) (128 * k) 128 = zeroBlock := by
    decide +kernel
  have len : (List.replicate 4096 (0 : Byte) ++ [0x80] ++ List.replicate 111 0 ++ beBytes 16 32768).length = 4224 := by
    simp only [List.length_append, List.length_replicate, List.length_cons, List.length_nil]
    decide
  have last : slice (List.replicate 4096 (0 : Byte) ++ [0x80] ++ List.replicate 111 0 ++ beBytes 16 32768) 4096 128 =
      [0x80] ++ List.replicate 111 0 ++ beBytes 16 32768 := by decide +kernel
  have f (v : ShaRegs) : ∀ k < 8, [0, 1, 2, 3].foldl (fun v i => ShaRegs.absorb v
      (slice (List.replicate 4096 (0 : Byte) ++ [0x80] ++ List.replicate 111 0 ++ beBytes 16 32768) (128 * (4 * k + i)) 128)) v = fourBlocks v := by
    intro k hk
    simp only [List.foldl_cons, List.foldl_nil, fourBlocks]
    rw [pad (4 * k + 0) (by omega), pad (4 * k + 1) (by omega), pad (4 * k + 2) (by omega), pad (4 * k + 3) (by omega)]
  have m := img_mids
  have e : (List.range 33) = [0, 1, 2, 3].map (4 * 0 + ·) ++ [0, 1, 2, 3].map (4 * 1 + ·) ++ [0, 1, 2, 3].map (4 * 2 + ·) ++ [0, 1, 2, 3].map (4 * 3 + ·) ++
      [0, 1, 2, 3].map (4 * 4 + ·) ++ [0, 1, 2, 3].map (4 * 5 + ·) ++ [0, 1, 2, 3].map (4 * 6 + ·) ++ [0, 1, 2, 3].map (4 * 7 + ·) ++ [32] := by decide
  have z : ((111 + 128 - (List.replicate 4096 (0 : Byte)).length % 128) % 128) = 111 := by
    simp only [List.length_replicate]
  have z2 : 8 * (List.replicate 4096 (0 : Byte)).length = 32768 := by
    simp only [List.length_replicate]
  unfold sha384
  simp only [z, z2, len, Nat.reduceDiv]
  rw [e]
  simp only [List.foldl_append, List.foldl_map, f _ 0 (by decide), f _ 1 (by decide), f _ 2 (by decide), f _ 3 (by decide), f _ 4 (by decide),
    f _ 5 (by decide), f _ 6 (by decide), f _ 7 (by decide), img_mid_start, m 0 (by decide), m 1 (by decide), m 2 (by decide), m 3 (by decide),
    m 4 (by decide), m 5 (by decide), m 6 (by decide), List.foldl_cons, List.foldl_nil, Nat.reduceMul, last]
  decide +kernel
/-- A module with this key's hash in slot 0. -/
def keyed (s : State) : State := { s with otp := { s.otp with keyHash := [sha384 key0] } }
theorem image_verifies (s : State) : (keyed s).otp.minSvn = 0 → (keyed s).otp.revoked = [] → (keyed s).imageReason goodImage 0x1000000 = 0 := by
  intro h1 h2
  have p : slice goodImage 80 96 = key0 := by decide +kernel
  have hd : slice goodImage 0 256 = imgHead := by decide +kernel
  have sg : slice goodImage 256 96 = imgSig := by decide +kernel
  have ln : (imgHead ++ imgSig ++ List.replicate 672 (0 : Byte)).length = 1024 := by decide +kernel
  have bd : slice goodImage 1024 4096 = List.replicate 4096 0 := by
    unfold slice goodImage
    rw [List.drop_left' ln, List.take_of_length_le (by rw [List.length_replicate])]
  have hh : slice goodImage 32 48 = slice imgHead 32 48 := by decide +kernel
  have k : (keyed s).otp.keyHash[0]? = some (sha384 key0) := rfl
  have l : leNat (slice goodImage 24 4) = 4096 := by decide +kernel
  have sl : leNat (slice goodImage 10 2) = 0 := by decide +kernel
  have sv : leNat (slice goodImage 12 4) = 0 := by decide +kernel
  have v : ecdsaVerify key0 imgHead imgSig = true := by decide +kernel
  have c1 : ¬(slice goodImage 0 8 ≠ imageMagic ∨ leNat (slice goodImage 8 2) ≠ 1 ∨ !zeros (slice goodImage 176 80) ∨ !zeros (slice goodImage 352 672) ∨
      4 ≤ leNat (slice goodImage 28 4)) := by decide +kernel
  unfold State.imageReason
  simp only [c1, p, hd, sg, l, sl, sv, h1, h2, v, bd, hh, k, img_body_hash, if_false, List.contains_nil, Bool.not_true, Bool.false_eq_true, ne_eq,
    not_true, or_false, Nat.lt_irrefl, Nat.reduceLT, Nat.reduceMod, Nat.reduceLeDiff, Nat.reduceAdd]

/-- Bytes up to the FALLOW record's body: header, MODULE, POWER, LANES, PLACEMENT, LINK, FALLOW's record header. -/
def cfgPre : List Byte :=
  wordBytes ([0x47464e4f434a5a4b, 0x1865000070001, 0x73c9d5b200000000, 0x0, 0x0, 0x0, 0x0, 0x0, 0x1000000001, 0x227f6eb9, 0x10005, 0x0, 0x0, 0x0,
    0x0, 0x0, 0x2000000002, 0xf1dc973c, 0x2, 0x0, 0x0, 0x0, 0x0, 0x0, 0x34000000003, 0x382146c] ++ List.replicate 110 0 ++
    [0x800000007, 0x8c28b28a] ++ List.replicate 6 0 ++ [0xc00000000a, 0x74357830] ++ List.replicate 30 0 ++ [0x2a8000000005, 0xffffffff])
/-- FALLOW: the first 32 cores; REPAIR: nine crofts on their spare rows. The first bytes bring the CRC's register to zero. -/
def cfgFallow : List Byte := List.replicate 4 0xFF ++ List.replicate 10876 0
def cfgHead4 : List Byte := wordBytes [0x1560000000004, 0xffffffff]
def cfgUsed : List Byte := wordBytes [0x30019000f0013, 0x9001b0015000d, 0x9]
def cfgRepair : List Byte := cfgUsed ++ List.replicate 87528 0
def goodConfig : List Byte := cfgPre ++ cfgFallow ++ (List.replicate 48 0 ++ cfgHead4) ++ cfgRepair
theorem cfgPre_length : cfgPre.length = 1424 := by decide +kernel
theorem cfgFallow_length : cfgFallow.length = 10880 := by
  simp only [cfgFallow, List.length_append, List.length_replicate]
theorem cfgHead4_length : cfgHead4.length = 16 := by decide +kernel
theorem cfgRepair_length : cfgRepair.length = 87552 := by
  have h : cfgUsed.length = 24 := by decide +kernel
  simp only [cfgRepair, List.length_append, List.length_replicate, h]
theorem cfg_fallow : slice goodConfig (1408 + 16) 10880 = cfgFallow := by
  unfold slice goodConfig
  rw [List.append_assoc, List.append_assoc, List.drop_left' cfgPre_length, List.take_left' cfgFallow_length]
theorem cfg_repair : slice goodConfig (12352 + 16) 87552 = cfgRepair := by
  unfold slice goodConfig
  rw [List.drop_left' (by simp only [List.length_append, cfgPre_length, cfgFallow_length, cfgHead4_length, List.length_replicate]), List.take_of_length_le (by rw [cfgRepair_length])]
/-- What lies before the FALLOW body, and in REPAIR's record header. -/
theorem cfg_pre (o n : Nat) (h : o + n ≤ 1424) : slice goodConfig o n = slice cfgPre o n := by
  unfold slice goodConfig
  rw [List.append_assoc, List.append_assoc, List.drop_append_of_le_length (by rw [cfgPre_length]; omega),
    List.take_append_of_le_length (by rw [List.length_drop, cfgPre_length]; omega)]
theorem cfg_head (o n : Nat) (h : 12352 ≤ o) (h2 : o + n ≤ 12368) : slice goodConfig o n = slice cfgHead4 (o - 12352) n := by
  have e : goodConfig = (cfgPre ++ cfgFallow ++ List.replicate 48 0) ++ (cfgHead4 ++ cfgRepair) := by
    simp only [goodConfig, List.append_assoc]
  have l : (cfgPre ++ cfgFallow ++ List.replicate 48 (0 : Byte)).length = 12352 := by
    simp only [List.length_append, cfgPre_length, cfgFallow_length, List.length_replicate]
  unfold slice
  rw [e, List.drop_append, l, List.drop_of_length_le (by omega), List.nil_append,
    List.drop_append_of_le_length (by rw [cfgHead4_length]; omega), List.take_append_of_le_length (by rw [List.length_drop, cfgHead4_length]; omega)]
theorem rec_step (img : List Byte) (o ty len next n : Nat) (h1 : leNat (slice img o 2) = ty) (h2 : leNat (slice img (o + 4) 4) = len)
    (h3 : o + ceilDiv (16 + len) 64 * 64 = next) : cfgRecsFrom img (n + 1) o = ⟨ty, o, len⟩ :: cfgRecsFrom img n next := by
  subst h1 h2 h3
  rfl
theorem pre_step (o ty len next n : Nat) (h : o + 8 ≤ 1424) (h1 : leNat (slice cfgPre o 2) = ty) (h2 : leNat (slice cfgPre (o + 4) 4) = len)
    (h3 : o + ceilDiv (16 + len) 64 * 64 = next) : cfgRecsFrom goodConfig (n + 1) o = ⟨ty, o, len⟩ :: cfgRecsFrom goodConfig n next :=
  rec_step _ _ _ _ _ _ (by rw [cfg_pre _ _ (by omega), h1]) (by rw [cfg_pre _ _ (by omega), h2]) h3
theorem cfg_recs : cfgRecs goodConfig =
    [⟨1, 64, 16⟩, ⟨2, 128, 32⟩, ⟨3, 192, 832⟩, ⟨7, 1088, 8⟩, ⟨0x0A, 1152, 192⟩, ⟨5, 1408, 10880⟩, ⟨4, 12352, 87552⟩] := by
  have n : leNat (slice goodConfig 10 2) = 7 := by rw [cfg_pre _ _ (by decide)]; decide +kernel
  have r : cfgRecsFrom goodConfig 1 12352 = [⟨4, 12352, 87552⟩] :=
    rec_step _ _ 4 87552 _ 0 (by rw [cfg_head _ _ (by decide) (by decide)]; decide +kernel) (by rw [cfg_head _ _ (by decide) (by decide)]; decide +kernel) rfl
  rw [cfgRecs, n, pre_step 64 1 16 128 6 (by decide) (by decide +kernel) (by decide +kernel) (by decide),
    pre_step 128 2 32 192 5 (by decide) (by decide +kernel) (by decide +kernel) (by decide),
    pre_step 192 3 832 1088 4 (by decide) (by decide +kernel) (by decide +kernel) (by decide),
    pre_step 1088 7 8 1152 3 (by decide) (by decide +kernel) (by decide +kernel) (by decide),
    pre_step 1152 0x0A 192 1408 2 (by decide) (by decide +kernel) (by decide +kernel) (by decide),
    pre_step 1408 5 10880 12352 1 (by decide) (by decide +kernel) (by decide +kernel) (by decide), r]
theorem checkRun_zero (n : Nat) : checkRun 32 0x1EDC6F41 true 0 (List.replicate n 0) = 0 := by
  have h : checkByte 32 0x1EDC6F41 true 0 0 = 0 := by decide
  induction n with
  | zero => rfl
  | succ n ih => simpa only [checkRun, List.replicate_succ, List.foldl_cons, h] using ih
theorem crc_fallow : crc32c cfgFallow = 0xFFFFFFFF := by
  have h : checkRun 32 0x1EDC6F41 true 0xFFFFFFFF (List.replicate 4 0xFF) = 0 := by decide +kernel
  have a : checkRun 32 0x1EDC6F41 true 0xFFFFFFFF cfgFallow = 0 := by
    rw [cfgFallow, checkRun, List.foldl_append]
    change checkRun 32 0x1EDC6F41 true (checkRun 32 0x1EDC6F41 true 0xFFFFFFFF (List.replicate 4 0xFF)) (List.replicate 10876 0) = 0
    rw [h, checkRun_zero]
  rw [crc32c, a]
  decide
theorem crc_repair : crc32c cfgRepair = 0xFFFFFFFF := by
  have h : checkRun 32 0x1EDC6F41 true 0xFFFFFFFF cfgUsed = 0 := by decide +kernel
  have a : checkRun 32 0x1EDC6F41 true 0xFFFFFFFF cfgRepair = 0 := by
    rw [cfgRepair, checkRun, List.foldl_append]
    change checkRun 32 0x1EDC6F41 true (checkRun 32 0x1EDC6F41 true 0xFFFFFFFF cfgUsed) (List.replicate 87528 0) = 0
    rw [h, checkRun_zero]
  rw [crc32c, a]
  decide
/-- A byte past the first 24 of the REPAIR body is zero. -/
theorem repair_zero (o : Nat) (h : 24 ≤ o) : leNat (slice cfgRepair o 1) = 0 := by
  have hu : cfgUsed.length = 24 := by decide +kernel
  have e : slice cfgRepair o 1 = List.replicate (min 1 (87528 - (o - 24))) 0 := by
    unfold slice cfgRepair
    rw [List.drop_append, hu, List.drop_of_length_le (by omega), List.nil_append, List.drop_replicate, List.take_replicate]
  rw [e]
  have c : min 1 (87528 - (o - 24)) = 0 ∨ min 1 (87528 - (o - 24)) = 1 := by omega
  rcases c with c | c <;> rw [c] <;> decide
/-- The bodies that the checks read. -/
theorem cfg_small (ty o len : Nat) (h : (cfgRecs goodConfig).find? (fun r => decide (r.ty = ty)) = some ⟨ty, o, len⟩) (l : o + 16 + len ≤ 1424) :
    cfgBody goodConfig ty = some (slice cfgPre (o + 16) len) := by
  rw [cfgBody, h, Option.map_some, cfg_pre _ _ l]
theorem cfg_body1 : cfgBody goodConfig 0x01 = some (slice cfgPre 80 16) := cfg_small 1 64 16 (by rw [cfg_recs]; decide) (by decide)
theorem cfg_body2 : cfgBody goodConfig 0x02 = some (slice cfgPre 144 32) := cfg_small 2 128 32 (by rw [cfg_recs]; decide) (by decide)
theorem cfg_body7 : cfgBody goodConfig 0x07 = some (slice cfgPre 1104 8) := cfg_small 7 1088 8 (by rw [cfg_recs]; decide) (by decide)
theorem cfg_bodyA : cfgBody goodConfig 0x0A = some (slice cfgPre 1168 192) := cfg_small 10 1152 192 (by rw [cfg_recs]; decide) (by decide)
theorem cfg_body4 : cfgBody goodConfig 0x04 = some cfgRepair := by
  have h : (cfgRecs goodConfig).find? (fun r => decide (r.ty = 4)) = some ⟨4, 12352, 87552⟩ := by rw [cfg_recs]; decide
  rw [cfgBody, h, Option.map_some, cfg_repair]
theorem cfg_none (ty : Nat) (h : ty = 6 ∨ ty = 0x0B) : cfgBody goodConfig ty = none := by
  rw [cfgBody, cfg_recs]
  rcases h with h | h <;> rw [h] <;> decide
theorem cfg_used_croft (o n : Nat) (h : o + n ≤ 24) : slice cfgRepair o n = slice cfgUsed o n := by
  have hu : cfgUsed.length = 24 := by decide +kernel
  unfold slice cfgRepair
  rw [List.drop_append_of_le_length (by omega), List.take_append_of_le_length (by rw [List.length_drop]; omega)]
theorem repair_zero2 (o : Nat) (h : 24 ≤ o) : leNat (slice cfgRepair o 2) = 0 := by
  have hu : cfgUsed.length = 24 := by decide +kernel
  have e : slice cfgRepair o 2 = List.replicate (min 2 (87528 - (o - 24))) 0 := by
    unfold slice cfgRepair
    rw [List.drop_append, hu, List.drop_of_length_le (by omega), List.nil_append, List.drop_replicate, List.take_replicate]
  rw [e]
  have c : min 2 (87528 - (o - 24)) = 0 ∨ min 2 (87528 - (o - 24)) = 1 ∨ min 2 (87528 - (o - 24)) = 2 := by omega
  rcases c with c | c | c <;> rw [c] <;> decide
theorem cfg_croft (c : Nat) : (decide (bits (leNat (slice cfgRepair (2 * c) 2)) 1 4 ≤ 15) &&
    (decide (bits (leNat (slice cfgRepair (2 * c) 2)) 0 1 = 0) || decide (bits (leNat (slice cfgRepair (2 * c) 2)) 5 1 = 0)) &&
    (decide (bits (leNat (slice cfgRepair (2 * c) 2)) 0 1 = 1) || decide (bits (leNat (slice cfgRepair (2 * c) 2)) 1 4 = 0))) = true := by
  rcases Nat.lt_or_ge c 12 with h | h
  · rw [cfg_used_croft _ _ (by omega)]
    revert h
    revert c
    decide +kernel
  · rw [repair_zero2 _ (by omega)]
    decide
theorem cfg_ranges : cfgRanges goodConfig = true := by
  have m : leNat (slice (slice cfgPre 80 16) 3 1) ≤ 2 ∧ 1 ≤ leNat (slice (slice cfgPre 80 16) 2 1) ∧ leNat (slice (slice cfgPre 1104 8) 1 1) ≤ 3 := by decide +kernel
  have z (o n : Nat) : leNat (slice [] o n) = 0 := by simp [slice, leNat]
  have r (i : Nat) : leNat (slice cfgRepair (512 + i) 1) = 0 := repair_zero _ (by omega)
  simp only [cfgRanges, cfg_body1, cfg_body4, cfg_body7, cfg_none 6 (.inl rfl), Option.getD_some, Option.getD_none, z, r, m, List.all_eq_true,
    decide_true, Bool.true_and, Bool.and_true, Bool.and_eq_true, bits, Nat.zero_div, Nat.zero_mod, Nat.zero_le, Bool.true_or, and_self,
    Nat.reduceEqDiff, Bool.or_eq_true]
  exact ⟨⟨.inl rfl, fun c _ => by
    have h := cfg_croft c
    simp only [Bool.and_eq_true, Bool.or_eq_true, decide_eq_true_eq] at h
    simp only [decide_eq_true_eq]
    exact h⟩, fun _ _ => .inr trivial⟩
/-- The register along the LANES body. -/
def lanesReg : Nat → Nat
  | 0 => 0xffffffff
  | 1 => 0x8da61e4d
  | 2 => 0x17e444bb
  | 3 => 0x2abb36ec
  | 4 => 0xc9d7be3f
  | _ => 0
theorem lanes_steps : ∀ k < 4, checkRun 32 0x1EDC6F41 true (lanesReg k) (List.replicate 208 0) = lanesReg (k + 1) := by decide +kernel
theorem crc_lanes : crc32c (slice cfgPre 208 832) = 0x0382146c := by
  have e : slice cfgPre 208 832 = List.replicate 208 0 ++ List.replicate 208 0 ++ List.replicate 208 0 ++ List.replicate 208 0 := by decide +kernel
  have a (x y : List Byte) (r : Nat) : checkRun 32 0x1EDC6F41 true r (x ++ y) = checkRun 32 0x1EDC6F41 true (checkRun 32 0x1EDC6F41 true r x) y :=
    List.foldl_append
  have s0 : checkRun 32 0x1EDC6F41 true 0xFFFFFFFF (List.replicate 208 0) = lanesReg 1 := lanes_steps 0 (by decide)
  rw [crc32c, e, a, a, a, s0, lanes_steps 1 (by decide), lanes_steps 2 (by decide), lanes_steps 3 (by decide)]
  decide +kernel
theorem config_accepted (s : State) : s.configReason goodConfig 0x400000 = 0 := by
  have hd (o n : Nat) (h : o + n ≤ 64) : slice goodConfig o n = slice cfgPre o n := cfg_pre o n (by omega)
  have z1 : zeros (slice goodConfig 24 40) = true := by rw [hd _ _ (by decide)]; decide +kernel
  have zr : ([⟨1, 64, 16⟩, ⟨2, 128, 32⟩, ⟨3, 192, 832⟩, ⟨7, 1088, 8⟩, ⟨0x0A, 1152, 192⟩, ⟨5, 1408, 10880⟩, ⟨4, 12352, 87552⟩] : List CfgRec).all
      (fun r => zeros (slice goodConfig (r.at_ + 2) 2) && zeros (slice goodConfig (r.at_ + 12) 4) &&
        cfgZero r.ty (slice goodConfig (r.at_ + 16) r.len)) = true := by
    have y4 (b : List Byte) : cfgZero 4 b = true := rfl
    have y5 (b : List Byte) : cfgZero 5 b = true := rfl
    simp only [List.all_cons, List.all_nil, Nat.reduceAdd, y4, y5, cfg_pre 66 2 (by decide), cfg_pre 76 4 (by decide), cfg_pre 80 16 (by decide),
      cfg_pre 130 2 (by decide), cfg_pre 140 4 (by decide), cfg_pre 144 32 (by decide), cfg_pre 194 2 (by decide), cfg_pre 204 4 (by decide),
      cfg_pre 208 832 (by decide), cfg_pre 1090 2 (by decide), cfg_pre 1100 4 (by decide), cfg_pre 1104 8 (by decide), cfg_pre 1154 2 (by decide),
      cfg_pre 1164 4 (by decide), cfg_pre 1168 192 (by decide), cfg_pre 1410 2 (by decide), cfg_pre 1420 4 (by decide),
      cfg_head 12354 2 (by decide) (by decide), cfg_head 12364 4 (by decide) (by decide)]
    decide +kernel
  have cr : ([⟨1, 64, 16⟩, ⟨2, 128, 32⟩, ⟨3, 192, 832⟩, ⟨7, 1088, 8⟩, ⟨0x0A, 1152, 192⟩, ⟨5, 1408, 10880⟩, ⟨4, 12352, 87552⟩] : List CfgRec).any
      (fun r => decide (crc32c (slice goodConfig (r.at_ + 16) r.len) ≠ leNat (slice goodConfig (r.at_ + 8) 4))) = false := by
    simp only [List.any_cons, List.any_nil, cfg_fallow, cfg_repair, crc_fallow, crc_repair, crc_lanes, cfg_pre (64 + 16) 16 (by decide),
      cfg_pre (128 + 16) 32 (by decide), cfg_pre (192 + 16) 832 (by decide), Nat.reduceAdd, cfg_pre (1088 + 16) 8 (by decide), cfg_pre (1152 + 16) 192 (by decide),
      cfg_pre (64 + 8) 4 (by decide), cfg_pre (128 + 8) 4 (by decide), cfg_pre (192 + 8) 4 (by decide), cfg_pre (1088 + 8) 4 (by decide),
      cfg_pre (1152 + 8) 4 (by decide), cfg_pre (1408 + 8) 4 (by decide), cfg_head (12352 + 8) 4 (by decide) (by decide)]
    decide +kernel
  have fw : cfgForward goodConfig = [] := by
    simp only [cfgForward, cfg_none 0x0B (.inr rfl)]
    decide
  have ln : cfgLinesOk goodConfig = true := by
    simp only [cfgLinesOk, cfgLine, cfg_bodyA]
    decide +kernel
  have cd : cfgCard goodConfig = [2, 0, 0, 0] := by
    simp only [cfgCard, cfg_body2]
    decide +kernel
  have le : leNat (slice goodConfig 12 4) = 99920 := by rw [hd _ _ (by decide)]; decide +kernel
  unfold State.configReason
  simp only [cfg_recs, le]
  refine (if_neg ?_).trans ?_
  · rw [z1, zr, hd 0 8 (by decide), hd 8 2 (by decide), hd 10 2 (by decide)]
    decide +kernel
  refine (if_neg ?_).trans ?_
  · rw [hd 0 20 (by decide), hd 24 40 (by decide), hd 20 4 (by decide)]
    decide +kernel
  refine (if_neg ?_).trans ?_
  · rw [cr]
    decide
  refine (if_neg ?_).trans ?_
  · decide +kernel
  refine (if_neg ?_).trans ?_
  · rw [cfg_ranges]
    decide
  refine (if_neg ?_).trans ?_
  · rw [fw, ln]
    simp
  refine (if_neg ?_).trans ?_
  · have c1 : cardReserved [2, 0, 0, 0] = false := by decide +kernel
    have c2 : (stateCard [2, 0, 0, 0]).seq = 0 := by decide +kernel
    have c3 : bitsOf (stateCard [2, 0, 0, 0]).hmask 16 ++ bitsOf (stateCard [2, 0, 0, 0]).opmask 16 = [] := by decide +kernel
    rw [cd, c1, c2, c3]
    simp
  rfl
/-- A module with the firmware image above in flash, its key known, and a configuration image. -/
def imaged (cfg : List Byte) : State := keyed { State.reset with flash := { State.reset.flash with image := goodImage, config := cfg } }
/-- Phase 7 ended with this configuration; a card of these words for the POWER record; domain d in a state. -/
def booted (ws : List Word) (d cur : Nat) : State :=
  let s := put State.reset [(Reg.BOOT_STAT.PHASE, 7, 0, 0), (Reg.YEP_STAT.STATE, 2, 0, 0), (Reg.REF_CTL.A_GOOD, 1, 0, 0), (Reg.PWR_DOM.CUR, cur, 0, d)]
  let img := wordBytes ([0, 0x10000, 0, 0, 0, 0, 0, 0, 0x2000000002, 0] ++ ws.map BitVec.toNat)
  { s with trust := { s.trust with cfg := some img } }
/-- BOOT_LOAD_CTL: TARGET and LEN; transition fuses blown. -/
def loads (target len fuses : Nat) : State :=
  let s := put State.reset [(Reg.BOOT_LOAD_CTL.TARGET, target, 0, 0), (Reg.BOOT_LOAD_CTL.LEN, len, 0, 0)]
  keyed { s with otp := { s.otp with lcFuses := fuses } }
theorem goodImage_length : goodImage.length = 5120 := by
  have ln : (imgHead ++ imgSig ++ List.replicate 672 (0 : Byte)).length = 1024 := by decide +kernel
  rw [goodImage, List.length_append, ln, List.length_replicate]
theorem goodConfig_length : goodConfig.length = 99920 := by
  simp only [goodConfig, List.length_append, cfgPre_length, cfgFallow_length, cfgHead4_length, cfgRepair_length, List.length_replicate]
theorem image_verifies_in (s : State) (limit : Nat) (h : 5120 ≤ limit) (h1 : (keyed s).otp.minSvn = 0) (h2 : (keyed s).otp.revoked = []) :
    (keyed s).imageReason goodImage limit = 0 := by
  have a := image_verifies s h1 h2
  have l : leNat (slice goodImage 24 4) = 4096 := by decide +kernel
  have c (n : Nat) : 5120 ≤ n → (n < 1024 + 4096) = False := fun h => by simp only [eq_iff_iff, iff_false]; omega
  unfold State.imageReason at a ⊢
  simp only [l, c limit h, c 0x1000000 (by decide)] at a ⊢
  exact a
theorem config_accepted_in (s : State) (limit : Nat) (h : 99920 ≤ limit) : s.configReason goodConfig limit = 0 := by
  have a := config_accepted s
  have l : leNat (slice goodConfig 12 4) = 99920 := by rw [cfg_pre _ _ (by decide)]; decide +kernel
  have c (n : Nat) : 99920 ≤ n → (n < 99920) = False := fun h => by simp only [eq_iff_iff, iff_false]; omega
  unfold State.configReason at a ⊢
  simp only [l, c limit h, c 0x400000 (by decide)] at a ⊢
  exact a

theorem imaged_ok (cfg : List Byte) : (imaged cfg).imageReason (imaged cfg).flash.image 0x1000000 = 0 := by
  have e : (imaged cfg).flash.image = goodImage := rfl
  rw [e]
  exact image_verifies _ rfl rfl
theorem imaged_config : (imaged goodConfig).configReason (imaged goodConfig).flash.config 0x400000 = 0 := by
  have e : (imaged goodConfig).flash.config = goodConfig := rfl
  rw [e]
  exact config_accepted _

theorem witness_StartUpPins :
    (∃ s : State, s.pins.enIn = false) ∧
    (∀ q ∈ [400, 595], ∃ (s : State) (volts : List (BitVec 16)), s.pins.enIn = true ∧ s.pins.pgOut = false ∧ s.pins.stOff = false ∧
      volts = List.replicate 4 (BitVec.ofNat 16 q) ∧ ∀ v ∈ volts, 400 ≤ v.toNat ∧ v.toNat ≤ 595) ∧
    (∃ s : State, s.rd Reg.BOOT_LOAD_STAT.BUSY ≠ 1) ∧
    (∃ s : State, s.rd Reg.BOOT_LOAD_STAT.BUSY = 1) ∧
    (∃ s : State, s.pins.pgOut = true ∧ s.pins.rstN = false ∧ s.otp.retired = true) :=
  ⟨⟨{ State.reset with pins := { State.reset.pins with enIn := false } }, rfl⟩,
    fun q h => ⟨{ State.reset with pins := { State.reset.pins with pgOut := false } }, List.replicate 4 (BitVec.ofNat 16 q), rfl, rfl, rfl, rfl,
      fun v hv => by rw [List.eq_of_mem_replicate hv]; fin_cases h <;> decide⟩,
    ⟨State.reset, by decide⟩,
    ⟨put State.reset [(Reg.BOOT_LOAD_STAT.BUSY, 1, 0, 0)], by decide⟩,
    ⟨{ State.reset with otp := { State.reset.otp with retired := true } }, rfl, rfl, rfl⟩⟩
/-- A ledger record of SEQ 41 (KIND 1, the counters 1 to 24) signed by private key 0x5EED. -/
def record41 : List Byte :=
  ledMagic ++ leBytes 4 41 ++ leBytes 4 0 ++ [1, 1, 0, 0] ++ wordBytes ((List.range 24).map (· + 1)) ++ List.replicate 16 0 ++
    wordBytes [0x4c796011dbe1e97a, 0x1f19e51b07efc170, 0xe8fb08460f24666c, 0xb95dedc336cd4ea4, 0xb43f4ed8e4f20075, 0x2b3003436ffd5058,
      0xa0a97200855e85fd, 0x9efa65ccc8a5ea24, 0xe6eb2d0cffe7e15d, 0xd2f91ab3ee5ebb73, 0xadd2b1b8d29988bc, 0x19b9adcfcf4456c9]
/-- How the identity key comes from its seed is open (opaque): with that key, the record counts as the newest. -/
theorem witness_RecordInHold (h : Config.identityKey (List.replicate 32 0) = 0x5EED) :
    ∃ (s : State) (r : List Byte), s.pins.pgOut = true ∧ s.pins.rstN = false ∧ s.newestRecord = some r ∧ r.length = 320 := by
  have p : ecdsaPublic 0x5EED = key0 := by decide +kernel
  have v : ecdsaVerify key0 (record41.take 224) (slice record41 224 96) = true := by decide +kernel
  have m : record41.take 4 = ledMagic := by decide +kernel
  refine ⟨{ State.reset with flash := { State.reset.flash with journal := [record41] }, otp := { State.reset.otp with idSeed := some (List.replicate 32 0) } },
    record41, rfl, rfl, ?_, by decide +kernel⟩
  simp only [State.newestRecord, List.reverse_cons, List.reverse_nil, List.nil_append, List.find?_cons, State.recordOk, h, p, v, m, decide_true,
    Bool.and_self]
theorem witness_StartUpImages :
    (∃ s : State, s.pins.pgOut = true ∧ s.pins.rstN = false ∧ s.otp.retired = false ∧ s.flash.tornImage = false ∧
      s.imageReason s.flash.image 0x1000000 ≠ 0) ∧
    (∃ s : State, s.pins.pgOut = true ∧ s.pins.rstN = false ∧ s.otp.retired = false ∧ s.flash.tornImage = false ∧
      s.imageReason s.flash.image 0x1000000 = 0 ∧ s.flash.tornConfig = false ∧ s.configReason s.flash.config 0x400000 ≠ 0) ∧
    (∃ s : State, s.pins.pgOut = true ∧ s.pins.rstN = false ∧ s.otp.retired = false ∧ s.flash.tornImage = false ∧
      s.imageReason s.flash.image 0x1000000 = 0 ∧ s.flash.tornConfig = false ∧ s.configReason s.flash.config 0x400000 = 0) :=
  ⟨⟨State.reset, rfl, rfl, rfl, rfl, by decide +kernel⟩,
    ⟨imaged [], rfl, rfl, rfl, rfl, imaged_ok [], rfl, by decide +kernel⟩,
    ⟨imaged goodConfig, rfl, rfl, rfl, rfl, imaged_ok goodConfig, rfl, imaged_config⟩⟩
theorem witness_StartUpPower :
    (∀ q ∈ [7, 8], ∃ s : State, s.rd Reg.BOOT_STAT.PHASE = q ∧ s.yUp = true ∧ s.power.card = none ∧ s.rd Reg.REF_CTL.A_GOOD = 0 ∧ s.rd Reg.REF_CTL.B_GOOD = 0) ∧
    (∃ s : State, s.rd Reg.BOOT_STAT.PHASE = 8 ∧ s.power.card = none ∧ s.rd Reg.REF_CTL.A_GOOD ≠ 0 ∧
      (s.wr Reg.REF_CTL.ACTIVE (1 - s.rd Reg.REF_CTL.A_GOOD)).cardRefusal (cfgCard (s.trust.cfg.getD [])) = none ∧
      (stateCard (cfgCard (s.trust.cfg.getD []))).stOff = false ∧ ∀ k < 6, s.phaseWork (stateCard (cfgCard (s.trust.cfg.getD []))) k = []) ∧
    (∃ s : State, s.rd Reg.BOOT_STAT.PHASE = 7 ∧ s.yUp = true ∧ s.rd Reg.REF_CTL.A_GOOD ≠ 0 ∧
      ((s.wr Reg.BOOT_STAT.PHASE 8).wr Reg.REF_CTL.ACTIVE (1 - s.rd Reg.REF_CTL.A_GOOD)).cardRefusal (cfgCard (s.trust.cfg.getD [])) = some (0x01, 0, none)) ∧
    (∃ s : State, s.rd Reg.BOOT_STAT.PHASE = 7 ∧ s.yUp = true ∧ s.rd Reg.REF_CTL.A_GOOD ≠ 0 ∧
      ((s.wr Reg.BOOT_STAT.PHASE 8).wr Reg.REF_CTL.ACTIVE (1 - s.rd Reg.REF_CTL.A_GOOD)).cardRefusal (cfgCard (s.trust.cfg.getD [])) = none ∧
      (stateCard (cfgCard (s.trust.cfg.getD []))).stOff = false ∧ ∀ k < 6, s.phaseWork (stateCard (cfgCard (s.trust.cfg.getD []))) k = []) ∧
    (∃ s : State, s.rd Reg.BOOT_STAT.PHASE = 7 ∧ s.yUp = true ∧ s.rd Reg.REF_CTL.A_GOOD = 0 ∧ s.rd Reg.REF_CTL.B_GOOD ≠ 0 ∧
      ((s.wr Reg.BOOT_STAT.PHASE 8).wr Reg.REF_CTL.ACTIVE (1 - s.rd Reg.REF_CTL.A_GOOD)).cardRefusal (cfgCard (s.trust.cfg.getD [])) = none ∧
      (stateCard (cfgCard (s.trust.cfg.getD []))).stOff = false ∧ ∀ k < 6, s.phaseWork (stateCard (cfgCard (s.trust.cfg.getD []))) k = []) ∧
    (∀ q ∈ [(1, 0, 0, 1), (2, 16, 0, 1), (3, 16, 3, 0), (4, 15, 3, 0), (5, 0, 0, 0)], ∃ s : State, s.rd Reg.BOOT_STAT.PHASE = 7 ∧ s.yUp = true ∧
      s.rd Reg.REF_CTL.A_GOOD ≠ 0 ∧ ((s.wr Reg.BOOT_STAT.PHASE 8).wr Reg.REF_CTL.ACTIVE (1 - s.rd Reg.REF_CTL.A_GOOD)).cardRefusal (cfgCard (s.trust.cfg.getD [])) = none ∧
      (stateCard (cfgCard (s.trust.cfg.getD []))).stOff = false ∧ s.phaseWork (stateCard (cfgCard (s.trust.cfg.getD []))) q.1 ≠ [] ∧
      ∀ k < q.1, s.phaseWork (stateCard (cfgCard (s.trust.cfg.getD []))) k = []) :=
  ⟨fun q h => ⟨put (booted [] 0 3) [(Reg.BOOT_STAT.PHASE, q, 0, 0), (Reg.REF_CTL.A_GOOD, 0, 0, 0)], by fin_cases h <;> decide +kernel⟩,
    ⟨put (booted (stateWords 0 0) 0 0) [(Reg.BOOT_STAT.PHASE, 8, 0, 0)], by decide +kernel⟩,
    ⟨booted [] 0 3, by decide +kernel⟩,
    ⟨booted (stateWords 0 0) 0 0, by decide +kernel⟩,
    ⟨put (booted (stateWords 0 0) 0 0) [(Reg.REF_CTL.A_GOOD, 0, 0, 0), (Reg.REF_CTL.B_GOOD, 1, 0, 0)], by decide +kernel⟩,
    fun q h => ⟨booted (if q.1 = 5 then opWords else stateWords q.2.1 q.2.2.2) q.2.1 q.2.2.1, by fin_cases h <;> decide +kernel⟩⟩
theorem witness_StartUpAndWriteThrough :
    (∀ l ∈ [[], [(⟨3, 1, [], []⟩ : LedgerWrite)]], ∃ (s : State) (r : LoadRun), s.trust.load = some r ∧ s.pins.stHold = false ∧
      sha384 (r.data.set 0 1) ≠ sha384 r.data ∧ s.trust.waiting = l) ∧
    (∃ (s : State) (seed : List Byte), s.rd Reg.ATT_CTL.BUSY ≠ 1 ∧ s.otp.idSeed = some seed ∧ s.yUp = false) ∧
    (∀ q ∈ [(62, 0), (63, 0), (62, 1)], ∃ s : State, s.stRuns = true ∧ s.trust.hourAt + 60 * 6375000000 = s.now ∧ s.trust.hours = q.1 ∧
      s.rd Reg.BOOT_LOAD_STAT.BUSY = q.2) :=
  ⟨fun l h => ⟨{ State.reset with trust := { State.reset.trust with load := some ⟨false, [0]⟩, waiting := l } }, ⟨false, [0]⟩, by
      fin_cases h <;> decide +kernel⟩,
    ⟨State.reset, List.replicate 32 0, by decide⟩,
    fun q h => ⟨let s := put (ticking (60 * 6375000000)) [(Reg.BOOT_LOAD_STAT.BUSY, q.2, 0, 0)]; { s with trust := { s.trust with hours := q.1 } }, by
      fin_cases h <;> decide +kernel⟩⟩
/-- Lines of which none came with data: the content is what stands in their place. -/
theorem content_lost (r : LoadRead) (lost : List Byte) (free : Nat → Byte) (h : r.got = []) (hl : ceilDiv r.len 64 * 64 ≤ lost.length) :
    r.content lost free = (lost.take (ceilDiv r.len 64 * 64)).take r.len := by
  unfold LoadRead.content
  congr 1
  generalize ceilDiv r.len 64 = n at hl
  induction n with
  | zero => simp
  | succ n ih =>
    rw [List.range_succ (n := n), List.flatMap_append, ih (by omega), List.flatMap_singleton, Nat.succ_mul n 64, List.take_add]
    congr 1
    simp only [h, Store.get]
    apply List.ext_getElem
    · simp; omega
    · intro k h1 h2
      have hk : 64 * n + k < lost.length := by simp at h1; omega
      simp [List.getElem?_eq_getElem hk, Nat.mul_comm n 64]
/-- A write-through being read: TARGET, LEN, lines to come; the transition fuses blown. -/
def reads (target len left fuses : Nat) : State :=
  let s := put (loads target len fuses) [(Reg.BOOT_LOAD_STAT.BUSY, 1, 0, 0)]
  { s with trust := { s.trust with reading := some ⟨decide (target = 1), len, [], left⟩ } }
theorem reads_image : (⟨false, 5120, [], 0⟩ : LoadRead).content goodImage (fun k => Config.freeByte (0 + k)) = goodImage := by
  have l : ∀ n, 5120 ≤ n → goodImage.take n = goodImage := fun n h => List.take_of_length_le (by rw [goodImage_length]; exact h)
  rw [content_lost _ _ _ rfl (by rw [goodImage_length]; decide), l _ (by decide), l _ (by decide)]
theorem reads_config : (⟨true, 99920, [], 0⟩ : LoadRead).content (goodConfig ++ List.replicate 48 0) (fun k => Config.freeByte (0 + k)) = goodConfig := by
  rw [content_lost _ _ _ rfl (by rw [List.length_append, goodConfig_length, List.length_replicate]; decide), List.take_take]
  exact List.take_left' goodConfig_length
/-- A write-through begins; its lines come in; it waits for them; the images above, a short one, and each TARGET with and without leave. -/
theorem witness_WriteThroughGo :
    (∀ k ∈ [0, 1], ∃ s : State, s.rd Reg.BOOT_LOAD_STAT.BUSY ≠ 1 ∧ s.rd Reg.BOOT_LOAD_CTL.TARGET = k ∧ 0 < ceilDiv (s.rd Reg.BOOT_LOAD_CTL.LEN) 64 ∧
      s.yUp = false) ∧
    (∃ (s : State) (r : LoadRead) (q : YTag), s.trust.reading = some r ∧ s.rd Reg.BOOT_LOAD_STAT.BUSY = 1 ∧ r.left ≠ 0 ∧
      s.yosal.tags.find? (fun x => decide (x.tag = 0)) = some q ∧ q.req = .boot 0 ∧ q.dead = false) ∧
    (∀ c : Bool, ∃ (s : State) (r : LoadRead), s.trust.reading = some r ∧ s.rd Reg.BOOT_LOAD_STAT.BUSY = 1 ∧ r.left = 0 ∧ s.trust.waiting = [] ∧
      s.pins.stHold = false ∧ r.config = c ∧ (c = false → s.lc ≠ 4 ∧ s.imageReason (r.content [] (fun k => Config.freeByte (s.freeIx + k))) r.len ≠ 0) ∧
      (c = true → s.configReason (r.content [] (fun k => Config.freeByte (s.freeIx + k))) r.len ≠ 0)) ∧
    (∃ (s : State) (r : LoadRead), s.trust.reading = some r ∧ s.rd Reg.BOOT_LOAD_STAT.BUSY = 1 ∧ r.left = 0 ∧ s.trust.waiting = [] ∧
      s.pins.stHold = false ∧ r.config = false ∧ s.lc = 4) ∧
    (∃ (lost : List Byte) (s : State) (r : LoadRead), s.trust.reading = some r ∧ s.rd Reg.BOOT_LOAD_STAT.BUSY = 1 ∧ r.left = 0 ∧ s.trust.waiting = [] ∧
      s.pins.stHold = false ∧ r.config = false ∧ s.lc ≠ 4 ∧ s.imageReason (r.content lost (fun k => Config.freeByte (s.freeIx + k))) r.len = 0) ∧
    (∀ b : Bool, ∃ (lost : List Byte) (s : State) (r : LoadRead), s.trust.reading = some r ∧ s.rd Reg.BOOT_LOAD_STAT.BUSY = 1 ∧ r.left = 0 ∧
      s.trust.waiting = [] ∧ s.pins.stHold = false ∧ r.config = true ∧
      s.configReason (r.content lost (fun k => Config.freeByte (s.freeIx + k))) r.len = 0 ∧ s.serviceOk = b) := by
  refine ⟨fun k h => ⟨loads k 64 0, by fin_cases h <;> decide⟩,
    ⟨let s := reads 0 128 2 0; { s with yosal := { s.yosal with tags := [{ tag0 (.boot 0) with tag := 0 }] } }, _, _, rfl, by decide, by decide, rfl, rfl, rfl⟩,
    fun c => ⟨reads (if c then 1 else 0) 0 0 0, _, rfl, by cases c <;> decide, by cases c <;> decide, rfl, rfl, by cases c <;> rfl, fun _ => ?_, fun _ => ?_⟩,
    ⟨{ reads 0 64 0 0 with otp := { State.reset.otp with retired := true } }, _, rfl, by decide, rfl, rfl, rfl, rfl, by decide⟩,
    ⟨goodImage, reads 0 5120 0 1, _, rfl, by decide, rfl, rfl, rfl, rfl, by decide, ?_⟩,
    fun b => ⟨goodConfig ++ List.replicate 48 0, reads 1 99920 0 (if b then 0 else 1), _, rfl, by cases b <;> decide, rfl, rfl, rfl, rfl, ?_, ?_⟩⟩
  · cases c <;> decide +kernel
  · cases c <;> decide +kernel
  · show (reads 0 5120 0 1).imageReason (LoadRead.content ⟨false, 5120, [], 0⟩ goodImage (fun k => Config.freeByte (0 + k))) 5120 = 0
    rw [reads_image]
    exact image_verifies_in _ 5120 (by decide) rfl rfl
  · show (reads 1 99920 0 (if b then 0 else 1)).configReason (LoadRead.content ⟨true, 99920, [], 0⟩ _ (fun k => Config.freeByte (0 + k))) 99920 = 0
    rw [reads_config]
    exact config_accepted_in _ 99920 (by decide)
  · cases b <;> decide

/-! ### The queue and the memory form -/

theorem witness_EveryStepKeepsTheMemoryForm :
    ∃ s t : State, Memory.wf s.mem ∧ s.mem ≠ [] ∧ step s = .next t ∧ t.mem ≠ s.mem := by
  refine ⟨{ ((running 5).spPut 0 64 [1, 2, 3]).setH 0 1 64 |>.setH 0 2 0x102 with pending := [.st 0 (hw 0 1 2 0)] }, _, by decide +kernel, by
    decide +kernel, rfl, by decide +kernel⟩

/-! ### Ill-formed operands -/

theorem test_wf_verdict_cells : (Instr.tileVerdict 0 ⟨List.replicate 65 0, [], []⟩ 0).wellFormed = false ∧
    (Instr.tileRerunVerdict 0 ⟨[], List.replicate 65 0, []⟩).wellFormed = false := by decide
theorem test_wf_dwait_mode : (Instr.dwait 0 { d := 0, hs := 0, mode := 1, rsv := 0 }).wellFormed = false ∧
    (Instr.dwaitPendingFree 0 { d := 0, hs := 0, mode := 0, rsv := 0 }).wellFormed = false := by decide
theorem test_wf_sheaf_frames : ∀ b : Bool, let f := { linkF with body := if b then List.replicate 31 0 else List.replicate 20513 0 }
    (Instr.sheafFrameReduce 0 f).wellFormed = false ∧ (Instr.sheafFrameDistribute 0 f).wellFormed = false ∧
    (Instr.gleanFirstLap 0 f).wellFormed = false ∧ (Instr.gleanSecondLap 0 f).wellFormed = false := by
  intro b
  cases b <;> simp only [Instr.wellFormed, Bool.false_eq_true, if_true, if_false, List.length_replicate] <;> decide
theorem test_wf_link_frames : (Instr.laneAlign 0 (List.replicate 15 0)).wellFormed = false ∧
    (Instr.credit 0 { linkF with body := List.replicate 31 0 }).wellFormed = false ∧ (Instr.nak 0 { linkF with body := [0] }).wellFormed = false ∧
    (Instr.beacon 0 { linkF with body := List.replicate 33 0 }).wellFormed = false := by decide
theorem test_wf_forward : (Instr.frameForward 0 { linkF with body := List.replicate 20513 0 } false false).wellFormed = false := by
  simp only [Instr.wellFormed, List.length_replicate]
  decide
theorem test_wf_lines : (Instr.data 0 0 (List.replicate 63 0)).wellFormed = false ∧
    (Instr.winWr 0 0 0 (List.replicate 65 0)).wellFormed = false := by decide
theorem test_wf_volts : (Instr.enInHigh [480, 480, 480]).wellFormed = false ∧ (Instr.pgOut []).wellFormed = false ∧
    (Instr.bell 0 0 [] [] ⟨0, 0, 0, [480], [], [], []⟩).wellFormed = false := by decide
theorem test_wf_write_through : (Instr.writeThroughGo (List.replicate 33554432 0)).wellFormed = false := by
  simp only [Instr.wellFormed, List.length_replicate]
  decide

/-! ### Words that the spec writes out -/

/-- Chapter 21's example: the entry of the fencing of core 32,250. -/
theorem test_event_entry : (⟨2, 0x28, 2, 0, 32250, 171704320, 813, 34490 + 2 ^ 17⟩ : Event).words 1207 =
    [0x000004B700000228, 0x0A3C0000, 0x0000032D00007DFA, 0x286BA] := by decide
/-- Chapter 11's example: ORIGIN 0, CROWS 4, CCOLS 4, AUTO 0, FALLOW_RESERVE 1, KEEP 0, YOKE 1, SHARE 8 in word 3. -/
theorem test_job_card : jobCard [0x0000002900002101, 0, 352, 0x42088400, 9, 0] 2 =
    some { seq := 41, op := 1, bytes := 352, space := 0, origin := 0, crows := 4, ccols := 4, auto := false, reserve := 1, keep := false, yoke := 1
           share := 8, job := 9, step0 := 0 } := by decide +kernel
/-- Chapter 19's example: BOOT_STAT of the rolled-back image; TRUST_STAT after the new start. -/
theorem test_boot_stat : (put State.reset [(Reg.BOOT_STAT.PHASE, 15, 0, 0), (Reg.BOOT_STAT.HOLD_CAUSE, 1, 0, 0), (Reg.BOOT_STAT.REASON, 5, 0, 0),
    (Reg.BOOT_STAT.LC, 1, 0, 0), (Reg.BOOT_STAT.MIN_SVN, 12, 0, 0)]).readReg (Reg.BOOT_STAT.PHASE.addr 0 0) = 0xC1051F := by decide +kernel
theorem test_trust_stat : (put State.reset [(Reg.TRUST_STAT.SEQ, 60012, 0, 0), (Reg.TRUST_STAT.CKPT, 938, 0, 0), (Reg.TRUST_STAT.TAINT, 0, 0, 0),
    (Reg.TRUST_STAT.ID_OK, 1, 0, 0)]).readReg (Reg.TRUST_STAT.SEQ.addr 0 0) = 0xEA6C00000EA9 := by decide +kernel
/-- Chapter 17's example: YK_CMD with OP 4, ENCL 2, POLICY 1, STEP 813. -/
theorem test_yoke_command : ((State.reset.regWrite .companion (Reg.YK_CMD.OP.addr 0 0) 0x0000000196800094).stg Reg.YK_CMD.OP = 4 ∨
    (State.reset.regWrite .companion (Reg.YK_CMD.OP.addr 0 0) 0x0000000196800094).rd Reg.YK_CMD.OP = 4) ∧
    bits 0x0000000196800094 Reg.YK_CMD.STEP.lo Reg.YK_CMD.STEP.width = 813 := by decide +kernel
/-- R513, table of chapter 23's low input: a pair below 38.0 V is recorded as lost. -/
theorem test_stud_lost : ((after (.studLost 1 379) (ticking 1024)).power.lostPairs, (after (.studLost 1 380) (ticking 1024)).power.lostPairs) = ([1], []) := by
  decide +kernel

end Sys2Proof.Tests
end

namespace Sys2Proof.Machine

/-! ## Registers by address: which fields a register holds, and what a write of it sets -/

/-! ### Keys -/

/-- Two fields of one block lie apart when their registers or their bits do. -/
theorem Fld.key_ne {f g : Fld} {i j k : Nat} (hb : f.blk = g.blk) (hf : f.lo < 64) (hg : g.lo < 64)
    (h : f.off + j * f.stride ≠ g.off + k * g.stride ∨ f.lo ≠ g.lo) : f.key i j ≠ g.key i k := by
  simp only [Fld.key, Fld.addr, hb]
  omega

/-! ### The fields at an offset of a block -/

/-- The register of a group that lies at an offset of its block, if one does. -/
def Fld.atOff? (f : Fld) (off : Nat) : Option Nat :=
  if f.off ≤ off ∧ f.stride ≠ 0 ∧ (off - f.off) % f.stride = 0 ∧ (off - f.off) / f.stride < f.count then
    some ((off - f.off) / f.stride) else none
/-- The fields of a block at an offset, each with its register number. -/
def fieldsAtOff (b : Block) (off : Nat) : List (Fld × Nat) :=
  (Reg.fieldsOf b).filterMap (fun f => (f.atOff? off).map (fun j => (f, j)))

theorem Fld.at?_base (f : Fld) (i off : Nat) : f.at? i (f.blk.base i + off) = f.atOff? off := by
  unfold Fld.at? Fld.atOff?
  simp only [Nat.add_sub_add_left, Nat.add_le_add_iff_left]

theorem Reg.blk_of_mem_fieldsOf (b : Block) : ∀ f ∈ Reg.fieldsOf b, f.blk = b := by
  cases b <;> decide +kernel

/-- The fields at an address are those of its block at its offset. -/
theorem fieldsAt_of_locate {a : Nat} {b : Block} {i off : Nat} (h : locate a = some (b, i)) (ha : a = b.base i + off) :
    fieldsAt a = (fieldsAtOff b off).map (fun p => (p.1, i, p.2)) := by
  simp only [fieldsAt, h, fieldsAtOff, List.map_filterMap, Option.map_map]
  refine List.filterMap_congr (fun f hf => ?_)
  have e := Fld.at?_base f i off
  rw [Reg.blk_of_mem_fieldsOf b f hf, ← ha] at e
  rw [e]
  rfl
/-- What `fieldsAtOff` lists lies at the offset. -/
theorem off_of_mem_fieldsAtOff {b : Block} {off : Nat} {p : Fld × Nat} (h : p ∈ fieldsAtOff b off) :
    p.1 ∈ Reg.fieldsOf b ∧ p.1.off + p.2 * p.1.stride = off := by
  obtain ⟨f, hf, e⟩ := List.mem_filterMap.mp h
  obtain ⟨j, hj, rfl⟩ := Option.map_eq_some_iff.mp e
  refine ⟨hf, ?_⟩
  simp only [Fld.atOff?] at hj
  split at hj
  · next c =>
    obtain ⟨h1, -, h3, -⟩ := c
    cases hj
    have := Nat.div_add_mod (off - f.off) f.stride
    rw [Nat.mul_comm] at this
    dsimp only
    omega
  · cases hj

theorem locate_core (c : CoreId) {off : Nat} (h : off < 0x1000) : locate (Block.core.base c.val + off) = some (.core, c.val) := by
  have hc := c.isLt
  unfold locate Block.base
  rw [if_pos (by dsimp only; omega)]
  exact congrArg (fun k => some (Block.core, k)) (by dsimp only; omega)

/-- The fields at an offset of a core's block. -/
theorem fieldsAt_core (c : CoreId) {off : Nat} (h : off < 0x1000) :
    fieldsAt (Block.core.base c.val + off) = (fieldsAtOff .core off).map (fun p => (p.1, c.val, p.2)) :=
  fieldsAt_of_locate (locate_core c h) rfl

/-! ### Writes of one field (R12) -/

theorem State.writeFld_of_not_mayWrite {s : State} {who : Requester} {f : Fld} {i j v : Nat} (h : s.mayWrite who f i j v = false) :
    s.writeFld who f i j v = s := by simp [State.writeFld, h]
/-- A read-only field takes no write. -/
theorem State.writeFld_ro (s : State) (who : Requester) {f : Fld} (i j v : Nat) (h : f.acc = .ro) : s.writeFld who f i j v = s := by
  simp [State.writeFld, h]
theorem State.writeFld_rw {s : State} {who : Requester} {f : Fld} {i j v : Nat} (ho : ownRow f = false)
    (hm : s.mayWrite who f i j v = true) (h : f.acc = .rw) : s.writeFld who f i j v = s.wr f v i j := by
  simp [State.writeFld, ho, hm, h]
theorem State.writeFld_w1c {s : State} {who : Requester} {f : Fld} {i j v : Nat} (ho : ownRow f = false)
    (hm : s.mayWrite who f i j v = true) (h : f.acc = .w1c) :
    s.writeFld who f i j v = if v % 2 ^ f.width = 1 then s.wr f 0 i j else s := by
  simp [State.writeFld, ho, hm, h]

/-- Of a core's fields a hand writes those of its own core that are not the steading's. -/
theorem State.mayWrite_hand_core (s : State) (c : CoreId) {f : Fld} (j v : Nat) (hb : f.blk = .core) :
    s.mayWrite (.hand c) f c.val j v = !steadingOnly f := by
  have ne (g : Fld) (hg : g.blk ≠ .core) : f ≠ g := fun e => hg (e ▸ hb)
  simp only [State.mayWrite, hb, ne Reg.EVR_CTL.BASE (by decide), ne Reg.EVR_CTL.SIZE (by decide), ne Reg.YEP_WATCH_A.LINE (by decide),
    ne Reg.YEP_WATCH_B.ENCL (by decide), ne Reg.YEP_WATCH_B.CORE (by decide), ne Reg.YEP_WATCH_B.CNT (by decide),
    ne Reg.GLN_CTL.K (by decide), ne Reg.YK_CTL.HB_PERIOD (by decide), ne Reg.YK_CTL.HB_MISS (by decide)]
  simp

/-! ### Writes of a register -/

/-- A write of each listed field of unit `i` with its bits of `v`. -/
def State.writeFlds (s : State) (who : Requester) (i v : Nat) (l : List (Fld × Nat)) : State :=
  l.foldl (fun t p => t.writeFld who p.1 i p.2 (bits v p.1.lo p.1.width)) s

/-- Read-only fields do not matter to a write. -/
theorem State.writeFlds_filter (s : State) (who : Requester) (i v : Nat) (l : List (Fld × Nat)) :
    s.writeFlds who i v l = s.writeFlds who i v (l.filter (fun p => decide (p.1.acc ≠ .ro))) := by
  unfold State.writeFlds
  induction l generalizing s with
  | nil => rfl
  | cons p t ih =>
    by_cases h : p.1.acc = .ro
    · simp only [List.foldl_cons, s.writeFld_ro who i p.2 _ h, List.filter_cons, h, ne_eq, not_true_eq_false, decide_false]
      exact ih s
    · simp only [List.foldl_cons, List.filter_cons, h, ne_eq, not_false_eq_true, decide_true, if_true]
      exact ih _
/-- Fields that the requester may not write do not matter. -/
theorem State.writeFlds_of_not_mayWrite {s : State} {who : Requester} {i v : Nat} {l : List (Fld × Nat)}
    (h : ∀ p ∈ l, s.mayWrite who p.1 i p.2 (bits v p.1.lo p.1.width) = false) : s.writeFlds who i v l = s := by
  unfold State.writeFlds
  induction l with
  | nil => rfl
  | cons p t ih =>
    rw [List.foldl_cons, State.writeFld_of_not_mayWrite (h p List.mem_cons_self)]
    exact ih (fun q hq => h q (List.mem_cons_of_mem _ hq))

/-- A write of a register of a present unit writes its fields that are not read-only. -/
theorem State.writeReg_of_locate {s : State} {a : Nat} {b : Block} {i off : Nat} (who : Requester) (v : Nat)
    (h : locate a = some (b, i)) (ha : a = b.base i + off) (hp : s.unitPresent b i = true) :
    s.writeReg who a v = s.writeFlds who i v ((fieldsAtOff b off).filter (fun p => decide (p.1.acc ≠ .ro))) := by
  rw [← s.writeFlds_filter]
  simp only [State.writeReg, h, hp, if_true, fieldsAt_of_locate h ha, List.foldl_map, State.writeFlds]
theorem State.writeReg_of_absent {s : State} {a : Nat} {b : Block} {i : Nat} (who : Requester) (v : Nat)
    (h : locate a = some (b, i)) (hp : s.unitPresent b i = false) : s.writeReg who a v = s := by
  simp [State.writeReg, h, hp]

end Sys2Proof.Machine

namespace Sys2Proof.Machine

/-! ## CSRR and CSRW (R98, R99, R12) -/

/-- An effect in registers other than the PC, then the next word (R115). -/
theorem OnlyFields.advance {s t : State} {ks : List Nat} {core : CoreId} (h : OnlyFields s t ks)
    (hr : s.rd Reg.HND_STAT.PC core.val < 2047) (hk : pcKey core ∉ ks) :
    NextWord s (t.advance core.val) core ∧ OnlyFields s (t.advance core.val) (pcKey core :: ks) ∧
      ∀ f i j, f.key i j ≠ pcKey core → (t.advance core.val).rd f i j = t.rd f i j := by
  have hpc : t.rd Reg.HND_STAT.PC core.val = s.rd Reg.HND_STAT.PC core.val := h.rd _ _ _ hk
  have hr' : t.rd Reg.HND_STAT.PC core.val < 2047 := hpc ▸ hr
  refine ⟨?_, ?_, fun f i j hf => ?_⟩
  · have := advance_pc t core hr'
    unfold NextWord at *
    rw [this, hpc]
  · exact (h.trans (advance_only t core hr')).mono (by simp; tauto)
  · exact (advance_only t core hr').rd f i j (by simpa using hf)

/-! ### CSRR -/

/-- The fields of a core that a read clears. -/
theorem core_rc_fields : ∀ f ∈ Reg.coreFields, f.acc = .rc → f = Reg.GATE_STAT.STALE ∨ f = Reg.GCR_LOST.LOST := by
  decide +kernel

/-- Where the fields at an address that a read clears are kept. -/
def rcKeys (a : Nat) : List Nat := ((fieldsAt a).filter (fun p => decide (p.1.acc = .rc))).map (fun p => p.1.key p.2.1 p.2.2)

theorem mem_rcKeys {a k : Nat} : k ∈ rcKeys a ↔ ∃ p ∈ fieldsAt a, p.1.acc = .rc ∧ k = p.1.key p.2.1 p.2.2 := by
  simp only [rcKeys, List.mem_map, List.mem_filter, decide_eq_true_eq]
  constructor
  · rintro ⟨p, ⟨hp, h⟩, rfl⟩
    exact ⟨p, hp, h, rfl⟩
  · rintro ⟨p, hp, h, rfl⟩
    exact ⟨p, ⟨hp, h⟩, rfl⟩

/-- What a read clears of a list of fields reads zero, and nothing else changes. -/
theorem foldl_clear_rc (l : List (Fld × Nat × Nat)) (s : State) :
    let t := l.foldl (fun t p => if p.1.acc = .rc then t.wr p.1 0 p.2.1 p.2.2 else t) s
    OnlyFields s t ((l.filter (fun p => decide (p.1.acc = .rc))).map (fun p => p.1.key p.2.1 p.2.2)) ∧
      ∀ f i j, f.acc = .rc → ((f, i, j) ∈ l ∨ s.rd f i j = 0) → t.rd f i j = 0 := by
  induction l generalizing s with
  | nil => exact ⟨.refl _ _, fun f i j _ h => by simpa using h⟩
  | cons p l ih =>
    simp only [List.foldl_cons, List.filter_cons]
    by_cases hp : p.1.acc = .rc
    · simp only [hp, if_true, decide_true, List.map_cons]
      obtain ⟨ho, hz⟩ := ih (s.wr p.1 0 p.2.1 p.2.2)
      refine ⟨(OnlyFields.wr s p.1 0 p.2.1 p.2.2).trans ho, fun f i j hf h => hz f i j hf ?_⟩
      by_cases e : f.key i j = p.1.key p.2.1 p.2.2
      · right; simp [State.rd, State.wr, e]
      · rw [State.rd_wr_other _ _ _ _ _ _ _ _ e]
        refine h.imp (fun hm => ?_) id
        rcases List.mem_cons.mp hm with rfl | hm
        · exact absurd rfl e
        · exact hm
    · simp only [hp, if_false, decide_false]
      obtain ⟨ho, hz⟩ := ih s
      refine ⟨ho, fun f i j hf h => hz f i j hf (h.imp (fun hm => ?_) id)⟩
      rcases List.mem_cons.mp hm with rfl | hm
      · exact absurd hf hp
      · exact hm

/-- A read clears the RC fields at its address, and nothing else. -/
theorem afterRead_only (s : State) (a : Nat) : OnlyFields s (s.afterRead a) (rcKeys a) := (foldl_clear_rc (fieldsAt a) s).1
theorem afterRead_rc (s : State) (a : Nat) {p : Fld × Nat × Nat} (hp : p ∈ fieldsAt a) (h : p.1.acc = .rc) :
    (s.afterRead a).rd p.1 p.2.1 p.2.2 = 0 := (foldl_clear_rc (fieldsAt a) s).2 _ _ _ h (.inl hp)

/-- An RC field of a core lies apart from its hand's registers and its program counter. -/
theorem rc_key_ne {core : CoreId} {off : Nat} (h : off < 0x1000) {p : Fld × Nat × Nat} (hp : p ∈ fieldsAt (Block.core.base core.val + off))
    (hrc : p.1.acc = .rc) : p.1.key p.2.1 p.2.2 ≠ pcKey core ∧ ∀ r, r < 32 → p.1.key p.2.1 p.2.2 ≠ Reg.HND_H.VALUE.key core.val r := by
  rw [fieldsAt_core core h] at hp
  obtain ⟨q, hq, rfl⟩ := List.mem_map.mp hp
  obtain ⟨hf, ho⟩ := off_of_mem_fieldsAtOff hq
  rcases core_rc_fields q.1 hf hrc with e | e
  all_goals
    rw [e] at ho ⊢
    refine ⟨Fld.key_ne rfl (by decide) (by decide) (.inr (by decide)), fun r hr => Fld.key_ne rfl (by decide) (by decide) (.inl ?_)⟩
    simp [Reg.GATE_STAT.STALE, Reg.GCR_LOST.LOST, Reg.HND_H.VALUE] at *
    omega

theorem pcKey_not_hKeys (core : CoreId) (r : BitVec 5) : pcKey core ∉ hKeys core r := by
  unfold hKeys
  split
  · simp
  · rw [List.mem_singleton]
    exact Fld.key_ne rfl (by decide) (by decide) (.inr (by decide))

/-- R98, R12: CSRR. -/
theorem csrr_spec (core : CoreId) (w : HandWord) (s : State) (hr : Ready s core) (h0 : w.rsv = 0) (h1 : w.hs1 = 0) (h2 : w.hs2 = 0)
    (h8 : w.imm.toNat % 8 = 0) :
    let a := 0x200010000000 + core.val * 0x1000 + w.imm.toNat % 0x1000
    ∃ t, exec (.csrr core w) s = .next t ∧ HandResult s t core w.hd (BitVec.ofNat 64 (s.readReg a)) ∧ NextWord s t core ∧
      (∀ p ∈ fieldsAt a, p.1.acc = .rc → t.rd p.1 p.2.1 p.2.2 = 0) ∧ OnlyFields s t (pcKey core :: hKeys core w.hd ++ rcKeys a) := by
  intro a
  have hoff : w.imm.toNat % 0x1000 < 0x1000 := Nat.mod_lt _ (by decide)
  obtain ⟨hi, hpc⟩ := hr
  have h8' : csrAddr core w % 8 = 0 := by unfold csrAddr Block.base; dsimp only; omega
  have he : exec (.csrr core w) s = .next (((s.afterRead a).setH core.val w.hd.toNat (BitVec.ofNat 64 (s.readReg a))).advance core.val) := by
    simp only [exec, execCsrr, State.issueNext, State.issue, hi, handFields, h0, h1, h2, h8']
    rfl
  have hrc : ∀ p ∈ fieldsAt a, p.1.acc = .rc → p.1.key p.2.1 p.2.2 ≠ pcKey core ∧ ∀ r, r < 32 →
    p.1.key p.2.1 p.2.2 ≠ Reg.HND_H.VALUE.key core.val r := fun p hp h => rc_key_ne hoff hp h
  have ho := (afterRead_only s a).trans (setH_only (s.afterRead a) core w.hd (BitVec.ofNat 64 (s.readReg a)))
  have hpk : pcKey core ∉ rcKeys a ++ hKeys core w.hd := by
    rw [List.mem_append, not_or]
    refine ⟨fun hm => ?_, pcKey_not_hKeys core w.hd⟩
    obtain ⟨p, hp, h, e⟩ := mem_rcKeys.mp hm
    exact (hrc p hp h).1 e.symm
  obtain ⟨hn, hk, hrd⟩ := ho.advance hpc hpk
  have hreg : ∀ r : BitVec 5, (s.afterRead a).h core.val r.toNat = s.h core.val r.toNat := fun r => by
    unfold State.h
    rw [(afterRead_only s a).rd _ _ _ (fun hm => ?_)]
    obtain ⟨p, hp, h, e⟩ := mem_rcKeys.mp hm
    exact (hrc p hp h).2 _ r.isLt e.symm
  refine ⟨_, he, ?_, hn, fun p hp h => ?_, hk.mono (by simp; tauto)⟩
  · have := (setH_result (s.afterRead a) core w.hd (BitVec.ofNat 64 (s.readReg a))).of_rd (u :=
      ((s.afterRead a).setH core.val w.hd.toNat (BitVec.ofNat 64 (s.readReg a))).advance core.val)
      (fun j => hrd _ _ _ (Fld.key_ne rfl (by decide) (by decide) (.inr (by decide))))
    intro r
    rw [this r, hreg r]
  · rw [hrd _ _ _ (hrc p hp h).1, (setH_only (s.afterRead a) core w.hd _).rd _ _ _ (fun hm => ?_)]
    · exact afterRead_rc s a hp h
    · unfold hKeys at hm
      split at hm
      · simp at hm
      · exact (hrc p hp h).2 _ w.hd.isLt (List.mem_singleton.mp hm)

/-! ### CSRW -/

/-- A CSRW of a register that has no row of its own: the fields at its offset are written, then the next word (R98). -/
theorem csrw_writes {core : CoreId} {w : HandWord} {s : State} {off : Nat} (hr : Ready s core) (h0 : w.rsv = 0) (hd : w.hd = 0)
    (h1 : w.hs1 = 0) (ho : w.imm.toNat % 0x1000 = off) (h8 : off % 8 = 0) (hg : gateOpAt off = none) (hgg : gateGrantAt off = none)
    (ht : tlyBindAt off = none) (hc : off ≠ 0x6C0) :
    exec (.csrw core w) s =
      .next ((s.writeReg (.hand core) (Block.core.base core.val + off) (s.h core.val w.hs2.toNat).toNat).advance core.val) := by
  have h8' : (Block.core.base core.val + off) % 8 = 0 := by unfold Block.base; dsimp only; omega
  simp [exec, execCsrw, State.issueNext, State.issue, hr.1, handFields, h0, h1, hd, h8', ho, hg, hgg, ht, hc, csrAddr, State.hs2]

/-- The fields of a core's register that a write may change. -/
theorem writeReg_core (s : State) (core : CoreId) (who : Requester) {off : Nat} (v : Nat) (h : off < 0x1000)
    (hp : s.corePresent core.val = true) : s.writeReg who (Block.core.base core.val + off) v =
      s.writeFlds who core.val v ((fieldsAtOff .core off).filter (fun p => decide (p.1.acc ≠ .ro))) :=
  s.writeReg_of_locate who v (locate_core core h) rfl hp

/-- A field that the hand may write is the only one of its register that takes a write (R12): it takes its bits. -/
theorem csrw_rw {f : Fld} (hrw : f.acc = .rw) (hb : f.blk = .core) (hs : steadingOnly f = false) (hown : ownRow f = false)
    (honly : (fieldsAtOff .core f.off).filter (fun p => decide (p.1.acc ≠ .ro)) = [(f, 0)]) (hlt : f.off < 0x1000) (h8 : f.off % 8 = 0)
    (hg : gateOpAt f.off = none) (hgg : gateGrantAt f.off = none) (ht : tlyBindAt f.off = none) (hc : f.off ≠ 0x6C0)
    (hpc : ∀ core : CoreId, f.key core.val 0 ≠ pcKey core)
    (core : CoreId) (w : HandWord) (s : State) (hr : Ready s core) (hp : s.corePresent core.val = true) (h0 : w.rsv = 0) (hd : w.hd = 0)
    (h1 : w.hs1 = 0) (ho : w.imm.toNat % 0x1000 = f.off) :
    ∃ t, exec (.csrw core w) s = .next t ∧
      t.rd f core.val = (s.h core.val w.hs2.toNat).toNat / 2 ^ f.lo % 2 ^ f.width ∧ NextWord s t core ∧
      OnlyFields s t [pcKey core, f.key core.val 0] := by
  have hm := s.mayWrite_hand_core core 0 (bits (s.h core.val w.hs2.toNat).toNat f.lo f.width) hb
  rw [hs] at hm
  have hw : s.writeReg (.hand core) (Block.core.base core.val + f.off) (s.h core.val w.hs2.toNat).toNat =
      s.wr f (bits (s.h core.val w.hs2.toNat).toNat f.lo f.width) core.val 0 := by
    rw [writeReg_core s core _ _ hlt hp, honly]
    exact State.writeFld_rw hown hm hrw
  refine ⟨_, csrw_writes hr h0 hd h1 ho h8 hg hgg ht hc, ?_⟩
  rw [hw]
  obtain ⟨hn, hk, hrd⟩ := (OnlyFields.wr s f (bits (s.h core.val w.hs2.toNat).toNat f.lo f.width) core.val 0).advance hr.2
    (by simpa using (hpc core).symm)
  refine ⟨?_, hn, hk⟩
  rw [hrd f core.val 0 (hpc core), State.rd_wr_same]
  simp [bits]

/-- One-bit fields that a 1 clears: each reads 0 where its bit of the value is 1, else as before. -/
theorem writeFlds_w1c (core : CoreId) (v : Nat) (l : List (Fld × Nat))
    (hl : ∀ p ∈ l, p.1.acc = .w1c ∧ p.1.width = 1 ∧ p.1.blk = .core ∧ ownRow p.1 = false ∧ steadingOnly p.1 = false)
    (hd : (l.map (fun p => p.1.key core.val p.2)).Nodup) (s : State) :
    let t := s.writeFlds (.hand core) core.val v l
    OnlyFields s t (l.map (fun p => p.1.key core.val p.2)) ∧
      ∀ p ∈ l, t.rd p.1 core.val p.2 = if v.testBit p.1.lo then 0 else s.rd p.1 core.val p.2 := by
  induction l generalizing s with
  | nil => exact ⟨.refl _ _, fun p hp => absurd hp List.not_mem_nil⟩
  | cons p l ih =>
    obtain ⟨hnot, hd'⟩ := List.nodup_cons.mp hd
    obtain ⟨hacc, hwid, hblk, hown, hst⟩ := hl p List.mem_cons_self
    have hb : bits v p.1.lo p.1.width % 2 ^ p.1.width = 1 ↔ v.testBit p.1.lo = true := by
      simp [bits, hwid, Nat.testBit_eq_decide_div_mod_eq]
    have hone : s.writeFld (.hand core) p.1 core.val p.2 (bits v p.1.lo p.1.width) =
        if v.testBit p.1.lo then s.wr p.1 0 core.val p.2 else s := by
      rw [State.writeFld_w1c hown (by rw [s.mayWrite_hand_core core _ _ hblk, hst]; rfl) hacc]
      simp only [hb]
    have hfirst : OnlyFields s (s.writeFld (.hand core) p.1 core.val p.2 (bits v p.1.lo p.1.width)) [p.1.key core.val p.2] ∧
        (s.writeFld (.hand core) p.1 core.val p.2 (bits v p.1.lo p.1.width)).rd p.1 core.val p.2 =
          if v.testBit p.1.lo then 0 else s.rd p.1 core.val p.2 := by
      rw [hone]
      split
      · exact ⟨.wr .., by simp⟩
      · exact ⟨.refl _ _, rfl⟩
    obtain ⟨ho, hv⟩ := ih (fun q hq => hl q (List.mem_cons_of_mem _ hq)) hd' (s.writeFld (.hand core) p.1 core.val p.2 (bits v p.1.lo p.1.width))
    refine ⟨hfirst.1.trans ho, fun q hq => ?_⟩
    rcases List.mem_cons.mp hq with rfl | hq
    · exact (ho.rd _ _ _ hnot).trans hfirst.2
    · refine (hv q hq).trans ?_
      rw [hfirst.1.rd q.1 core.val q.2 (fun e => hnot ?_)]
      exact List.mem_map.mpr ⟨q, hq, List.mem_singleton.mp e⟩

/-- A 1 clears each flag of VSTAT (R12). -/
theorem csrw_vstat (core : CoreId) (w : HandWord) (s : State) (hr : Ready s core) (hp : s.corePresent core.val = true) (h0 : w.rsv = 0)
    (hd : w.hd = 0) (h1 : w.hs1 = 0) (ho : w.imm.toNat % 0x1000 = 0x20) :
    let v := s.h core.val w.hs2.toNat
    ∃ t, exec (.csrw core w) s = .next t ∧
      t.rd Reg.VSTAT.OOR core.val = (if v.getLsbD 0 then 0 else s.rd Reg.VSTAT.OOR core.val) ∧
      t.rd Reg.VSTAT.ISAT core.val = (if v.getLsbD 1 then 0 else s.rd Reg.VSTAT.ISAT core.val) ∧
      t.rd Reg.VSTAT.FSAT core.val = (if v.getLsbD 2 then 0 else s.rd Reg.VSTAT.FSAT core.val) ∧ NextWord s t core ∧
      OnlyFields s t [pcKey core, Reg.VSTAT.OOR.key core.val 0, Reg.VSTAT.ISAT.key core.val 0, Reg.VSTAT.FSAT.key core.val 0] := by
  intro v
  have hl : (fieldsAtOff .core 0x20).filter (fun p => decide (p.1.acc ≠ .ro)) =
      [(Reg.VSTAT.OOR, 0), (Reg.VSTAT.ISAT, 0), (Reg.VSTAT.FSAT, 0)] := by decide +kernel
  have hne : ∀ f ∈ [Reg.VSTAT.OOR, Reg.VSTAT.ISAT, Reg.VSTAT.FSAT], f.key core.val 0 ≠ pcKey core := by
    simp only [List.forall_mem_cons, List.not_mem_nil, false_implies, implies_true, and_true]
    exact ⟨Fld.key_ne rfl (by decide) (by decide) (.inl (by decide)), Fld.key_ne rfl (by decide) (by decide) (.inl (by decide)),
      Fld.key_ne rfl (by decide) (by decide) (.inl (by decide))⟩
  obtain ⟨hof, hv⟩ := writeFlds_w1c core v.toNat [(Reg.VSTAT.OOR, 0), (Reg.VSTAT.ISAT, 0), (Reg.VSTAT.FSAT, 0)] (by decide)
    (by simp [Fld.key, Fld.addr, Reg.VSTAT.OOR, Reg.VSTAT.ISAT, Reg.VSTAT.FSAT]) s
  refine ⟨_, csrw_writes hr h0 hd h1 ho (by decide) (by decide) (by decide) (by decide) (by decide), ?_⟩
  rw [writeReg_core s core _ _ (by decide) hp, hl]
  obtain ⟨hn, hk, hrd⟩ := hof.advance hr.2 (fun hm => by
    obtain ⟨p, hp, e⟩ := List.mem_map.mp hm
    simp only [List.mem_cons, List.not_mem_nil, or_false] at hp
    rcases hp with rfl | rfl | rfl
    · exact hne _ (by simp) e
    · exact hne _ (by simp) e
    · exact hne _ (by simp) e)
  refine ⟨?_, ?_, ?_, hn, hk⟩
  · exact (hrd _ _ _ (hne _ (by simp))).trans (hv (Reg.VSTAT.OOR, 0) (by simp))
  · exact (hrd _ _ _ (hne _ (by simp))).trans (hv (Reg.VSTAT.ISAT, 0) (by simp))
  · exact (hrd _ _ _ (hne _ (by simp))).trans (hv (Reg.VSTAT.FSAT, 0) (by simp))

/-- R99: the hand's write of HND_CTL leaves it as it is. -/
theorem csrw_hndCtl (core : CoreId) (w : HandWord) (s : State) (hr : Ready s core) (h0 : w.rsv = 0) (hd : w.hd = 0) (h1 : w.hs1 = 0)
    (ho : w.imm.toNat % 0x1000 = 0) : ∃ t, exec (.csrw core w) s = .next t ∧ NextWord s t core ∧ OnlyFields s t [pcKey core] := by
  have hw : ∀ v, s.writeReg (.hand core) (Block.core.base core.val + 0) v = s := fun v => by
    cases hp : s.corePresent core.val with
    | false => exact State.writeReg_of_absent _ _ (locate_core core (by decide)) hp
    | true =>
      rw [writeReg_core s core _ _ (by decide) hp]
      refine State.writeFlds_of_not_mayWrite (fun p hm => ?_)
      have hf : ∀ p ∈ fieldsAtOff .core 0, p.1.blk = .core ∧ steadingOnly p.1 = true := by decide +kernel
      obtain ⟨hb, hst⟩ := hf p (List.mem_filter.mp hm).1
      rw [s.mayWrite_hand_core core _ _ hb, hst]
      rfl
  refine ⟨_, csrw_writes hr h0 hd h1 ho (by decide) (by decide) (by decide) (by decide) (by decide), ?_⟩
  rw [hw]
  exact ⟨advance_pc s core hr.2, advance_only s core hr.2⟩

/-- R88: a write of TLY_BIND_n holds the hand. -/
theorem csrw_tlyBind (core : CoreId) (w : HandWord) (s : State) (n : Fin 4) (hr : Ready s core) (h0 : w.rsv = 0) (hd : w.hd = 0)
    (h1 : w.hs1 = 0) (ho : w.imm.toNat % 0x1000 = 0x188 + 8 * n.val) :
    ∃ t, exec (.csrw core w) s = .next t ∧
      t.core core.val = { s.core core.val with hold := .tlyBind n.val (s.h core.val w.hs2.toNat) } ∧
      (∀ c, c ≠ core.val → t.core c = s.core c) ∧ NextWord s t core ∧
      { t with fields := s.fields, cores := s.cores } = s ∧ Kept s t (fun k => k = pcKey core) ∧ BytesKept s t (fun _ => False) := by
  have hg : gateOpAt (0x188 + 8 * n.val) = none := by unfold gateOpAt; rw [if_neg (by omega)]
  have hgg : gateGrantAt (0x188 + 8 * n.val) = none := by unfold gateGrantAt; rw [if_neg (by omega)]
  have ht : tlyBindAt (0x188 + 8 * n.val) = some n.val := by
    unfold tlyBindAt
    rw [if_pos (by omega)]
    exact congrArg some (by omega)
  have h8 : (Block.core.base core.val + (0x188 + 8 * n.val)) % 8 = 0 := by unfold Block.base; dsimp only; omega
  have he : exec (.csrw core w) s = .next ((s.tlyBindHold core.val n.val (s.h core.val w.hs2.toNat)).advance core.val) := by
    simp [exec, execCsrw, State.issueNext, State.issue, hr.1, handFields, h0, h1, hd, h8, ho, hg, hgg, ht, csrAddr, State.hs2]
  have hadv := advance_next (s.tlyBindHold core.val n.val (s.h core.val w.hs2.toNat)) core hr.2
  rw [hadv] at he
  refine ⟨_, he, ?_, fun c hc => ?_, ?_, rfl, Kept.wr (s.tlyBindHold core.val n.val _) _ _ _ _, .of_mem rfl _⟩
  · exact State.core_setCore ..
  · exact State.core_setCore_other _ _ _ hc
  · have := hr.2
    simp only [NextWord, State.rd_wr_same, State.tlyBindHold, State.modCore_def, State.setCore_rd, Reg.HND_STAT.PC] at *
    omega

/-- Settles O13: CSRR, and CSRW by the access code of what lies at the offset. -/
theorem csrAccessByTheHand : Obligations.CsrAccessByTheHand := by
  refine ⟨fun core w s hr h0 h1 h2 h8 => ?_, fun f hf => ?_, csrw_vstat, csrw_hndCtl, csrw_tlyBind⟩
  · obtain ⟨t, he, hres, hn, hrc, hframe, hk, hb⟩ := csrr_spec core w s hr h0 h1 h2 h8
    exact ⟨t, he, hres, hn, hrc, hframe, hb, hk.mono (fun k hm => (List.mem_append.mp hm).imp id mem_rcKeys.mp)⟩
  · have hpc : f.blk = .core ∧ f.lo < 64 ∧ f.off ≠ Reg.HND_STAT.PC.off := by revert f; decide
    simp only [List.mem_cons, List.not_mem_nil, or_false] at hf
    have ne : ∀ core : CoreId, f.key core.val 0 ≠ pcKey core := fun core =>
      Fld.key_ne hpc.1 hpc.2.1 (by decide) (.inl (by simpa using hpc.2.2))
    rcases hf with rfl | rfl | rfl | rfl
    all_goals
      exact csrw_rw rfl rfl (by decide) (by decide) (by decide +kernel) (by decide) (by decide) (by decide) (by decide) (by decide)
        (by decide) ne

end Sys2Proof.Machine

namespace Sys2Proof.Machine

/-! ## What shared operations change: staged fields, events, aborts, faults -/

/-! ### Staged fields (R13) -/

/-- A value staged for another register is another's. -/
theorem State.isStaged_congr {s t : State} {f : Fld} {i j : Nat} (h : Store.get t.stagedF (f.key i j) = Store.get s.stagedF (f.key i j)) :
    t.isStaged f i j = s.isStaged f i j := by simp [State.isStaged, h]

/-- Staged values that are dropped are staged no more; nothing else changes. -/
theorem dropAll_spec (fs : List Fld) (i j : Nat) (s : State) :
    let t := s.dropAll fs i j
    t = { s with stagedF := t.stagedF } ∧ (∀ f ∈ fs, t.isStaged f i j = false) ∧
      ∀ k, Store.get s.stagedF k = none → Store.get t.stagedF k = none := by
  unfold State.dropAll
  induction fs generalizing s with
  | nil => exact ⟨rfl, fun f hf => absurd hf List.not_mem_nil, fun _ h => h⟩
  | cons f fs ih =>
    obtain ⟨he, hd, hn⟩ := ih (s.unstage f i j)
    have hn' : ∀ k, Store.get s.stagedF k = none → Store.get (s.unstage f i j).stagedF k = none := fun k hk => by
      by_cases e : k = f.key i j
      · rw [e]; exact Store.get_erase_same _ _
      · exact (Store.get_erase_other _ _ e).trans hk
    refine ⟨?_, fun g hg => ?_, fun k hk => hn k (hn' k hk)⟩
    · rw [List.foldl_cons]
      exact he
    · rcases List.mem_cons.mp hg with rfl | hg
      · have := hn (g.key i j) (Store.get_erase_same _ _)
        simp only [List.foldl_cons, State.isStaged, this, Option.isSome_none]
      · exact hd g hg

/-- Staged values that take effect are in force and staged no more; nothing else changes. -/
theorem applyAll_spec (fs : List Fld) (i j : Nat) (hd : (fs.map (fun f => f.key i j)).Nodup) (s : State) :
    let t := s.applyAll fs i j
    { t with fields := s.fields, stagedF := s.stagedF } = s ∧ (∀ f ∈ fs, t.isStaged f i j = false) ∧
      (∀ f ∈ fs, t.rd f i j = if s.isStaged f i j then s.stg f i j % 2 ^ f.width else s.rd f i j) ∧
      Kept s t (fun k => ∃ f ∈ fs, k = f.key i j) ∧
      ∀ k, k ∉ fs.map (fun f => f.key i j) → Store.get t.stagedF k = Store.get s.stagedF k := by
  unfold State.applyAll
  induction fs generalizing s with
  | nil => exact ⟨rfl, fun f hf => absurd hf List.not_mem_nil, fun f hf => absurd hf List.not_mem_nil, .refl _ _, fun _ _ => rfl⟩
  | cons f fs ih =>
    obtain ⟨hnot, hd'⟩ := List.nodup_cons.mp hd
    -- the first field
    have hfirst : let u := if s.isStaged f i j then s.applyStg f i j else s
        { u with fields := s.fields, stagedF := s.stagedF } = s ∧ u.isStaged f i j = false ∧
          u.rd f i j = (if s.isStaged f i j then s.stg f i j % 2 ^ f.width else s.rd f i j) ∧ Kept s u (fun k => k = f.key i j) ∧
          ∀ k, k ≠ f.key i j → Store.get u.stagedF k = Store.get s.stagedF k := by
      by_cases hs : s.isStaged f i j = true
      · simp only [hs, if_true]
        refine ⟨rfl, ?_, ?_, Kept.wr s _ _ _ _, fun k hk => Store.get_erase_other _ _ hk⟩
        · simp [State.isStaged, State.applyStg, State.unstage]
        · exact State.rd_wr_same ..
      · simp only [hs]
        exact ⟨rfl, by simpa using hs, rfl, .refl _ _, fun _ _ => rfl⟩
    obtain ⟨hf1, hf2, hf3, hf4, hf5⟩ := hfirst
    obtain ⟨h1, h2, h3, h4, h5⟩ := ih hd' (if s.isStaged f i j then s.applyStg f i j else s)
    have hne : ∀ g ∈ fs, g.key i j ≠ f.key i j := fun g hg e => hnot (List.mem_map.mpr ⟨g, hg, e⟩)
    rw [List.foldl_cons]
    refine ⟨?_, fun g hg => ?_, fun g hg => ?_, ?_, fun k hk => ?_⟩
    · exact (congrArg (fun x : State => { x with fields := s.fields, stagedF := s.stagedF }) h1).trans hf1
    · rcases List.mem_cons.mp hg with rfl | hg
      · rw [State.isStaged_congr (h5 _ hnot)]
        exact hf2
      · exact h2 g hg
    · rcases List.mem_cons.mp hg with rfl | hg
      · rw [Kept.rd h4 g i j (fun ⟨x, hx, e⟩ => hne x hx e.symm)]
        exact hf3
      · rw [h3 g hg, State.isStaged_congr (hf5 _ (hne g hg)), State.stg, State.stg, hf5 _ (hne g hg), Kept.rd hf4 g i j (hne g hg)]
    · refine (hf4.trans h4).mono (fun k hk => ?_)
      rcases hk with rfl | ⟨g, hg, rfl⟩
      · exact ⟨f, List.mem_cons_self, rfl⟩
      · exact ⟨g, List.mem_cons_of_mem _ hg, rfl⟩
    · simp only [List.map_cons, List.mem_cons, not_or] at hk
      exact (h5 k hk.2).trans (hf5 k hk.1)

/-- What a COMMIT gives a field: the value it takes, to the field's width (R13). -/
theorem rd_mod_of_applied {s t : State} {f : Fld} {i j : Nat}
    (h : t.rd f i j = if s.isStaged f i j then s.stg f i j % 2 ^ f.width else s.rd f i j) :
    t.rd f i j % 2 ^ f.width = s.stg f i j % 2 ^ f.width := by
  rw [h]
  split
  · exact Nat.mod_mod _ _
  · next hs =>
    have hn : Store.get s.stagedF (f.key i j) = none := by simpa [State.isStaged] using hs
    rw [State.stg, hn]
    rfl

/-- R13: a COMMIT whose fields agree: each takes effect, none is staged any more, nothing else changes. -/
theorem applyAll_commits (fs : List Fld) (i j : Nat) (hd : (fs.map (fun f => f.key i j)).Nodup) (s : State) :
    let t := s.applyAll fs i j
    (∀ f ∈ fs, t.isStaged f i j = false) ∧ (∀ f ∈ fs, t.rd f i j % 2 ^ f.width = s.stg f i j % 2 ^ f.width) ∧
      { t with fields := s.fields, stagedF := s.stagedF } = s ∧ Kept s t (fun k => ∃ f ∈ fs, k = f.key i j) ∧
      BytesKept s t (fun _ => False) := by
  obtain ⟨hframe, hun, hrd, hkept, -⟩ := applyAll_spec fs i j hd s
  exact ⟨hun, fun f hf => rd_mod_of_applied (hrd f hf), hframe, hkept, .of_mem (congrArg State.mem hframe) _⟩

/-! ### Events (R487, R489) -/

theorem raiseAt_of_fits {s : State} {ring : Nat} (h : EventFits s ring) (code skind unit tick step detail : Nat) :
    s.raiseAt ring code skind unit tick step detail =
      { s with events := s.events ++ [⟨eventDest s ring, code, ring, skind, unit, tick, step, detail % 2 ^ 64⟩] } := by
  have hd : (if ring < 16 ∧ s.rd Reg.EVR_CTL.EN (j := ring) = 0 then stRing else ring) = eventDest s ring := rfl
  unfold State.raiseAt
  dsimp only
  rw [hd, if_neg (not_or.mpr ⟨h.1, Nat.not_le.mpr h.2⟩)]
theorem raiseAt_of_not_fits {s : State} {ring : Nat} (h : ¬EventFits s ring) (code skind unit tick step detail : Nat) :
    s.raiseAt ring code skind unit tick step detail = s.incSat Reg.EVR_PI.LOST 1 (j := eventDest s ring) := by
  have hd : (if ring < 16 ∧ s.rd Reg.EVR_CTL.EN (j := ring) = 0 then stRing else ring) = eventDest s ring := rfl
  unfold State.raiseAt
  dsimp only
  rw [hd, if_pos]
  unfold EventFits at h
  by_contra c
  obtain ⟨c1, c2⟩ := not_or.mp c
  exact h ⟨c1, Nat.not_le.mp c2⟩

theorem eventDest_le {ring : Nat} (s : State) (hr : ring ≤ 16) : eventDest s ring ≤ 16 := by
  unfold eventDest
  split
  · exact Nat.le_refl _
  · exact hr

/-- An event raised waits at its ring or is counted as lost; nothing else changes. -/
theorem raiseAt_spec (s : State) {ring : Nat} (code skind unit tick step : Nat) {detail : Nat} (hr : ring ≤ 16) (hd : detail < 2 ^ 64) :
    let t := s.raiseAt ring code skind unit tick step detail
    Raised s t ring code skind unit detail ∧ { t with fields := s.fields, events := s.events } = s ∧ Kept s t lostKey := by
  by_cases h : EventFits s ring
  · rw [raiseAt_of_fits h]
    refine ⟨⟨fun e he => List.mem_append_left _ he, fun _ =>
      ⟨_, List.mem_append_right _ (List.mem_singleton.mpr rfl), rfl, rfl, rfl, rfl, rfl, Nat.mod_eq_of_lt hd⟩⟩, rfl, .of_fields rfl _⟩
  · rw [raiseAt_of_not_fits h]
    have hdest := eventDest_le s hr
    exact ⟨⟨fun e he => he, fun hf => absurd hf h⟩, rfl, (Kept.wr s _ _ _ _).mono (fun k hk => ⟨_, hdest, hk⟩)⟩

/-- The enclosure of a core is one of sixteen. -/
theorem enclOf_lt {s : State} {c n : Nat} (h : s.enclOf c = some n) : n < 16 := List.mem_range.mp (List.mem_of_find?_eq_some h)
/-- The ring of a core's events. -/
theorem coreRing_le (s : State) (core : Nat) : (s.enclOfCore core).getD 16 ≤ 16 := by
  cases h : s.enclOfCore core with
  | none => exact Nat.le_refl _
  | some n => exact Nat.le_of_lt (enclOf_lt h)
theorem raiseCore_spec (s : State) (core code : Nat) {detail : Nat} (hd : detail < 2 ^ 64) :
    let t := s.raiseCore core code detail
    Raised s t ((s.enclOfCore core).getD 16) code 0 core detail ∧ { t with fields := s.fields, events := s.events } = s ∧
      Kept s t lostKey := raiseAt_spec s code skCore core _ _ (coreRing_le s core) hd

/-- Staged values that disagree are dropped, and the event says so (R13). -/
theorem dropAll_raiseAt (s : State) (fs : List Fld) (i j : Nat) {ring : Nat} (code skind unit tick step : Nat) {detail : Nat} (hr : ring ≤ 16)
    (hd : detail < 2 ^ 64) :
    let t := (s.dropAll fs i j).raiseAt ring code skind unit tick step detail
    (∀ f ∈ fs, t.isStaged f i j = false) ∧ Raised s t ring code skind unit detail ∧
      { t with fields := s.fields, stagedF := s.stagedF, events := s.events } = s ∧ Kept s t lostKey ∧
      BytesKept s t (fun _ => False) := by
  obtain ⟨he, hs, -⟩ := dropAll_spec fs i j s
  have hrs := raiseAt_spec (s.dropAll fs i j) code skind unit tick step hr hd
  generalize s.dropAll fs i j = u at *
  obtain ⟨l, rfl⟩ : ∃ l, u = { s with stagedF := l } := ⟨_, he⟩
  obtain ⟨h1, h2, h3⟩ := hrs
  refine ⟨fun f hf => ?_, h1, ?_, h3, .of_mem (congrArg State.mem h2) _⟩
  · exact (State.isStaged_congr (congrArg (fun x : State => Store.get x.stagedF (f.key i j)) h2)).trans (hs f hf)
  · exact congrArg (fun x : State => { x with stagedF := s.stagedF }) h2
/-- Staged values of a core's register group that disagree. -/
theorem dropAll_raiseCore (s : State) (fs : List Fld) (core j code : Nat) {detail : Nat} (hd : detail < 2 ^ 64) :
    let t := (s.dropAll fs core j).raiseCore core code detail
    (∀ f ∈ fs, t.isStaged f core j = false) ∧ Raised s t ((s.enclOfCore core).getD 16) code 0 core detail ∧
      { t with fields := s.fields, stagedF := s.stagedF, events := s.events } = s ∧ Kept s t lostKey ∧ BytesKept s t (fun _ => False) := by
  have hu : (s.dropAll fs core j).enclOfCore core = s.enclOfCore core := by
    rw [(dropAll_spec fs core j s).1]
    rfl
  unfold State.raiseCore
  rw [hu]
  exact dropAll_raiseAt s fs core j code skCore core _ _ (coreRing_le s core) hd
/-- The address of a core's register fits a DETAIL. -/
theorem core_addr_lt (core : CoreId) {f : Fld} (hb : f.blk = .core) {j : Nat} (h : f.off + j * f.stride < 0x1000) :
    f.addr core.val j < 2 ^ 64 := by
  have := core.isLt
  simp only [Fld.addr, hb, Block.base]
  omega

end Sys2Proof.Machine

namespace Sys2Proof.Machine

/-! ## Aborts, halts and faults (R115, R116, R137, R147, R214, R275) -/

/-! ### Drills abort (R214) -/

/-- The fields that follow a drill's abort. -/
def abortFlds : List Fld :=
  [Reg.DRL_STAT.STATE, Reg.DRL_STAT.PEND, Reg.DRL_STAT.INFL, Reg.DRL_STAT.ABORTED, Reg.DRL_STAT.CREDIT_WAIT]
theorem abortFlds_place : ∀ f ∈ abortFlds, f.blk = .core ∧ f.lo < 64 ∧ f.off = 0x600 ∧ f.stride = 0x30 := by decide
/-- Where they are kept. -/
def abortKey (core k : Nat) : Prop := ∃ f ∈ abortFlds, ∃ d < 4, k = f.key core d

/-- Of the core, only its drills with their status bits and its staged packets differ; of the rest nothing does. -/
structure Aborts (s t : State) (core : Nat) : Prop where
  frame : { t with fields := s.fields, cores := s.cores } = s
  others : ∀ c, c ≠ core → t.core c = s.core c
  record : { t.core core with drills := (s.core core).drills, staged := (s.core core).staged } = s.core core
  count : (t.core core).drills.length = (s.core core).drills.length
  kept : Kept s t (abortKey core)

theorem Aborts.refl (s : State) (core : Nat) : Aborts s s core := ⟨rfl, fun _ _ => rfl, rfl, rfl, .refl _ _⟩
theorem Aborts.trans {s t u : State} {core : Nat} (h : Aborts s t core) (g : Aborts t u core) : Aborts s u core where
  frame := (congrArg (fun x : State => { x with fields := s.fields, cores := s.cores }) g.frame).trans h.frame
  others c hc := (g.others c hc).trans (h.others c hc)
  record := (congrArg (fun x : CoreX => { x with drills := (s.core core).drills, staged := (s.core core).staged }) g.record).trans h.record
  count := g.count.trans h.count
  kept := (h.kept.trans g.kept).mono (fun _ hk => hk.elim id id)

/-- The drill has aborted. -/
def DrillAborted (t : State) (core d : Nat) : Prop :=
  (t.drill core d).active = none ∧ (t.drill core d).pending = none ∧ t.rd Reg.DRL_STAT.ABORTED core d = 1

theorem Aborts.wr {s t : State} {core : Nat} (h : Aborts s t core) {f : Fld} (v : Nat) {d : Nat} (hf : f ∈ abortFlds) (hd : d < 4) :
    Aborts s (t.wr f v core d) core :=
  { h with frame := h.frame, others := h.others, kept := h.kept.wr_then f v core d ⟨f, hf, d, hd, rfl⟩ }
theorem Aborts.stage {s t : State} {core : Nat} (h : Aborts s t core) (l : List Packet) :
    Aborts s (t.modCore core (fun c => { c with staged := l })) core where
  frame := h.frame
  others c hc := (State.core_setCore_other _ _ _ hc).trans (h.others c hc)
  record := by simpa using h.record
  count := by simpa using h.count
  kept := h.kept
theorem Aborts.setDrill {s t : State} {core : Nat} (h : Aborts s t core) {d : Nat} (x : DrillX) (hd : d < 4) :
    Aborts s (t.setDrill core d x) core := by
  have hm : Aborts s (t.modCore core (fun c => { c with drills := c.drills.set d x })) core :=
    { frame := h.frame
      others := fun c hc => (State.core_setCore_other _ _ _ hc).trans (h.others c hc)
      record := by simpa using h.record
      count := by simpa using h.count
      kept := h.kept }
  exact ((hm.wr _ (by simp [abortFlds]) hd).wr _ (by simp [abortFlds]) hd).wr _ (by simp [abortFlds]) hd

theorem abortDrill_aborts (s : State) (core : Nat) {d : Nat} (hd : d < 4) : Aborts s (s.abortDrill core d) core := by
  unfold State.abortDrill
  refine ((Aborts.setDrill ?_ _ hd).wr _ (by simp [abortFlds]) hd).wr _ (by simp [abortFlds]) hd
  split
  · exact .refl s core
  · exact (Aborts.refl s core).stage _

/-- A drill set is that drill; the others are as before. -/
theorem drill_setDrill {s : State} {core d : Nat} (x : DrillX) (hd : d < (s.core core).drills.length) :
    (s.setDrill core d x).drill core d = x := by
  simp [State.drill, State.setDrill, State.drlSync, hd]
theorem drill_setDrill_other (s : State) (core : Nat) {d e : Nat} (x : DrillX) (h : e ≠ d) :
    (s.setDrill core d x).drill core e = s.drill core e := by
  simp [State.drill, State.setDrill, State.drlSync, List.getElem?_set_ne h.symm]
@[simp] theorem State.drill_wr (s : State) (f : Fld) (v i j core d : Nat) : (s.wr f v i j).drill core d = s.drill core d := rfl
theorem drill_stage (s : State) (core : Nat) (l : List Packet) (d : Nat) :
    (s.modCore core (fun c => { c with staged := l })).drill core d = s.drill core d := by simp [State.drill]

/-- The drill that aborts has aborted. -/
theorem abortDrill_aborted {s : State} {core : Nat} (h4 : (s.core core).drills.length = 4) {d : Nat} (hd : d < 4) :
    DrillAborted (s.abortDrill core d) core d := by
  have hr : (s.abortDrill core d).rd Reg.DRL_STAT.ABORTED core d = 1 := by
    have hne : Reg.DRL_STAT.ABORTED.key core d ≠ Reg.DRL_STAT.CREDIT_WAIT.key core d :=
      Fld.key_ne rfl (by decide) (by decide) (.inr (by decide))
    exact (State.rd_wr_other _ _ _ _ _ _ _ _ hne).trans (State.rd_wr_same ..)
  refine ⟨?_, ?_, hr⟩
  all_goals
    unfold State.abortDrill
    dsimp only
    rw [State.drill_wr, State.drill_wr, drill_setDrill _ (by split <;> simp [h4, hd])]
/-- A drill that has aborted stays so when another aborts. -/
theorem DrillAborted.abortDrill {s : State} {core e : Nat} (h : DrillAborted s core e) (h4 : (s.core core).drills.length = 4) 
    {d : Nat} (hd : d < 4) : DrillAborted (s.abortDrill core d) core e := by
  by_cases hed : e = d
  · subst hed
    exact abortDrill_aborted h4 hd
  have hdr : (s.abortDrill core d).drill core e = s.drill core e := by
    unfold State.abortDrill
    dsimp only
    rw [State.drill_wr, State.drill_wr, drill_setDrill_other _ _ _ hed]
    split
    · rfl
    · exact drill_stage ..
  have hne : ∀ f ∈ abortFlds, Reg.DRL_STAT.ABORTED.key core e ≠ f.key core d := fun f hf =>
    have hf' := abortFlds_place f hf
    Fld.key_ne hf'.1.symm (by decide) hf'.2.1 (.inl (by
      rw [hf'.2.2.1, hf'.2.2.2]
      simp only [Reg.DRL_STAT.ABORTED]
      omega))
  have hrd : (s.abortDrill core d).rd Reg.DRL_STAT.ABORTED core e = s.rd Reg.DRL_STAT.ABORTED core e := by
    unfold State.abortDrill State.setDrill State.drlSync
    dsimp only
    rw [State.rd_wr_other _ _ _ _ _ _ _ _ (hne _ (by simp [abortFlds])), State.rd_wr_other _ _ _ _ _ _ _ _ (hne _ (by simp [abortFlds])),
      State.rd_wr_other _ _ _ _ _ _ _ _ (hne _ (by simp [abortFlds])), State.rd_wr_other _ _ _ _ _ _ _ _ (hne _ (by simp [abortFlds])),
      State.rd_wr_other _ _ _ _ _ _ _ _ (hne _ (by simp [abortFlds]))]
    split
    · rfl
    · rfl
  obtain ⟨ha, hp, hr⟩ := h
  exact ⟨by rw [hdr, ha], by rw [hdr, hp], by rw [hrd, hr]⟩

/-- R214: every drill of a core aborts. -/
theorem abortDrills_aborts (s : State) (core : Nat) : Aborts s (s.abortDrills core) core :=
  (((abortDrill_aborts s core (by decide)).trans (abortDrill_aborts _ core (by decide))).trans
    (abortDrill_aborts _ core (by decide))).trans (abortDrill_aborts _ core (by decide))
theorem abortDrills_aborted {s : State} {core : Nat} (h4 : (s.core core).drills.length = 4) {d : Nat} (hd : d < 4) :
    DrillAborted (s.abortDrills core) core d := by
  have c1 := (abortDrill_aborts s core (d := 0) (by decide)).count.trans h4
  have c2 := (abortDrill_aborts _ core (d := 1) (by decide)).count.trans c1
  have c3 := (abortDrill_aborts _ core (d := 2) (by decide)).count.trans c2
  have hd' : d = 0 ∨ d = 1 ∨ d = 2 ∨ d = 3 := by omega
  rcases hd' with rfl | rfl | rfl | rfl
  · exact (((abortDrill_aborted h4 hd).abortDrill c1 (by decide)).abortDrill c2 (by decide)).abortDrill c3 (by decide)
  · exact ((abortDrill_aborted c1 hd).abortDrill c2 (by decide)).abortDrill c3 (by decide)
  · exact (abortDrill_aborted c2 hd).abortDrill c3 (by decide)
  · exact abortDrill_aborted c3 hd

/-! ### A core halts (R116, R117) -/

/-- A running core halted with a CAUSE, its drills left as they are. -/
def State.halted (s : State) (core cause : Nat) : State :=
  ((s.wr Reg.HND_STAT.HALTED 1 core).wr Reg.HND_STAT.CAUSE cause core).modCore core (fun c => { c with hold := .none, runOff := false })
theorem haltCore_of_running {s : State} {core cause : Nat} (h : s.rd Reg.HND_STAT.HALTED core ≠ 1) (hc : cause ≠ 1) :
    s.haltCore core cause = (s.halted core cause).abortDrills core := by
  simp only [State.haltCore, if_neg h, if_neg hc, State.halted]
theorem rd_halted_halted (s : State) (core cause : Nat) : (s.halted core cause).rd Reg.HND_STAT.HALTED core = 1 := by
  have hne : Reg.HND_STAT.HALTED.key core 0 ≠ Reg.HND_STAT.CAUSE.key core 0 := Fld.key_ne rfl (by decide) (by decide) (.inr (by decide))
  exact (State.rd_wr_other _ _ _ _ _ _ _ _ hne).trans (State.rd_wr_same ..)
theorem rd_halted_cause (s : State) (core cause : Nat) : (s.halted core cause).rd Reg.HND_STAT.CAUSE core = cause % 16 :=
  State.rd_wr_same ..
theorem halted_kept (s : State) (core cause : Nat) :
    Kept s (s.halted core cause) (fun k => k ∈ [Reg.HND_STAT.HALTED.key core 0, Reg.HND_STAT.CAUSE.key core 0]) :=
  (Kept.wr_then (.refl s _) _ _ _ _ (by simp)).wr_then _ _ _ _ (by simp)

end Sys2Proof.Machine

namespace Sys2Proof.Machine

/-! ## Gates, counters cleared on read, START and STOP, the drills' limits (R117, R129, R130, R141, R201, R241) -/

/-! ### Gates -/

/-- Two windows lie apart. -/
theorem overlap_eq_false_iff (b n b' n' : Nat) : overlap b n b' n' = false ↔ n = 0 ∨ n' = 0 ∨ b + n ≤ b' ∨ b' + n' ≤ b := by
  simp only [overlap, Bool.and_eq_false_iff, decide_eq_false_iff_not]
  omega

/-- R130, R13: COMMIT of a gate's window. -/
theorem gateCommit_spec (core : CoreId) (gate : GateId) (s : State)
    (hst : s.anyStaged [Reg.GATE_WIN.BASE, Reg.GATE_WIN.SIZE] core.val gate.val = true) :
    let b := s.stg Reg.GATE_WIN.BASE core.val gate.val
    let n := s.stg Reg.GATE_WIN.SIZE core.val gate.val
    let ok := s.rd Reg.GATE_EPOCH.OPEN core.val gate.val ≠ 1 ∧ b % 256 = 0 ∧ n % 256 = 0 ∧ b + n ≤ 0x40000 ∧
      ∀ k < 8, k ≠ gate.val → n = 0 ∨ s.rd Reg.GATE_WIN.SIZE core.val k = 0 ∨ b + n ≤ s.rd Reg.GATE_WIN.BASE core.val k ∨
        s.rd Reg.GATE_WIN.BASE core.val k + s.rd Reg.GATE_WIN.SIZE core.val k ≤ b
    let fs := [Reg.GATE_WIN.BASE, Reg.GATE_WIN.SIZE]
    (ok → s.commitGate core.val gate.val = s.applyAll fs core.val gate.val) ∧
      (¬ok → s.commitGate core.val gate.val =
        (s.dropAll fs core.val gate.val).raiseCore core.val 0x01 (Reg.GATE_OP.COMMIT.addr core.val gate.val)) := by
  intro b n ok fs
  have hif : s.commitGate core.val gate.val = if ok then s.applyAll fs core.val gate.val else
      (s.dropAll fs core.val gate.val).raiseCore core.val 0x01 (Reg.GATE_OP.COMMIT.addr core.val gate.val) := by
    simp only [State.commitGate, hst, Bool.not_true, Bool.false_eq_true, if_false]
    refine if_congr ?_ rfl rfl
    simp only [State.gateOpen, Bool.and_eq_true, Bool.not_eq_true', decide_eq_true_eq, decide_eq_false_iff_not, List.all_eq_true,
      List.mem_range, Bool.or_eq_true, overlap_eq_false_iff, and_assoc, ← or_iff_not_imp_left, ok, b, n, ne_eq]
  exact ⟨fun h => hif.trans (if_pos h), fun h => hif.trans (if_neg h)⟩

/-! ### Reads that clear (R12, R141, R241) -/

theorem locate_croft (c : CroftId) {off : Nat} (h : off < 0x10000) : locate (Block.croft.base c.val + off) = some (.croft, c.val) := by
  have hc := c.isLt
  unfold locate Block.base
  rw [if_neg (by dsimp only; omega), if_pos (by dsimp only; omega)]
  exact congrArg (fun k => some (Block.croft, k)) (by dsimp only; omega)

/-- A read of a register with one RC field returns the register and clears the field, and nothing else changes. -/
theorem readOut_spec {s t : State} {f : Fld} {u j : Nat} (ht : s.readOut (f.addr u j) = t) (hrc : f.acc = .rc)
    (hl : locate (f.blk.base u + (f.off + j * f.stride)) = some (f.blk, u))
    (h1 : (fieldsAtOff f.blk (f.off + j * f.stride)).filter (fun p => decide (p.1.acc = .rc)) = [(f, j)]) :
    t.readData = leBytes 8 (s.readReg (f.addr u j)) ∧ t.rd f u j = 0 ∧ { t with fields := s.fields, readData := s.readData } = s ∧
      BytesKept s t (fun _ => False) ∧ Kept s t (fun k => k = f.key u j) := by
  have ha : f.addr u j = f.blk.base u + (f.off + j * f.stride) := Nat.add_assoc ..
  have hf : (fieldsAt (f.addr u j)).filter (fun p => decide (p.1.acc = .rc)) = [(f, u, j)] := by
    rw [ha, fieldsAt_of_locate hl rfl, List.filter_map]
    exact congrArg (List.map (fun p : Fld × Nat => (p.1, u, p.2))) h1
  have hmem : (f, u, j) ∈ (fieldsAt (f.addr u j)).filter (fun p => decide (p.1.acc = .rc)) := by
    rw [hf]
    exact List.mem_singleton.mpr rfl
  have hz : (s.afterRead (f.addr u j)).rd f u j = 0 := afterRead_rc s _ (p := (f, u, j)) (List.mem_filter.mp hmem).1 hrc
  obtain ⟨hframe, hk, hb⟩ := afterRead_only s (f.addr u j)
  rw [rcKeys, hf] at hk
  unfold State.readOut at ht
  generalize s.afterRead (f.addr u j) = r at *
  subst ht
  refine ⟨rfl, hz, ?_, hb, hk.mono (fun k hm => List.mem_singleton.mp hm)⟩
  exact congrArg (fun x : State => { x with readData := s.readData }) hframe

theorem gateStat_rc : ∀ gate : GateId, (fieldsAtOff .core (Reg.GATE_STAT.STALE.off + gate.val * Reg.GATE_STAT.STALE.stride)).filter
    (fun p => decide (p.1.acc = .rc)) = [(Reg.GATE_STAT.STALE, gate.val)] := by decide +kernel
theorem gcrLost_rc : (fieldsAtOff .core Reg.GCR_LOST.LOST.off).filter (fun p => decide (p.1.acc = .rc)) = [(Reg.GCR_LOST.LOST, 0)] := by
  decide +kernel
theorem lagCount_rc : (fieldsAtOff .croft Reg.LAG_COUNT.LAGS.off).filter (fun p => decide (p.1.acc = .rc)) = [(Reg.LAG_COUNT.LAGS, 0)] := by
  decide +kernel

/-! ### START and STOP (R117) -/

/-- A key of one of the core's fields lies in its block. -/
theorem inCoreBlock_key (core : CoreId) {f : Fld} {j : Nat} (hb : f.blk = .core) (ho : f.off + j * f.stride < 0x1000) (hl : f.lo < 64) :
    inCoreBlock core (f.key core.val j) := by
  simp only [inCoreBlock, Fld.key, Fld.addr, hb, Block.base]
  omega
/-- What follows an abort lies in the core's block, apart from HND_STAT. -/
theorem inCoreBlock_of_abortKey (core : CoreId) {k : Nat} (h : abortKey core.val k) : inCoreBlock core k := by
  obtain ⟨f, hf, d, hd, rfl⟩ := h
  obtain ⟨hb, hl, ho, hs⟩ := abortFlds_place f hf
  exact inCoreBlock_key core hb (by rw [ho, hs]; omega) hl
theorem not_abortKey_hndStat (core : Nat) {f : Fld} (hf : f ∈ [Reg.HND_STAT.HALTED, Reg.HND_STAT.CAUSE, Reg.HND_STAT.PC]) :
    ¬abortKey core (f.key core 0) := by
  have hf' : f.blk = .core ∧ f.lo < 64 ∧ f.off < 0x600 := by revert f; decide
  rintro ⟨g, hg, d, -, e⟩
  have hg' := abortFlds_place g hg
  refine Fld.key_ne (hf'.1.trans hg'.1.symm) hf'.2.1 hg'.2.1 (.inl ?_) e
  omega

/-- R117: STOP of a running core. -/
theorem stop_spec {core : CoreId} {s t : State} (ht : s.haltCore core.val 4 = t) (hr : s.rd Reg.HND_STAT.HALTED core.val ≠ 1) (h4 : FourDrills s core) :
    t.rd Reg.HND_STAT.HALTED core.val = 1 ∧ t.rd Reg.HND_STAT.CAUSE core.val = 4 ∧
      t.rd Reg.HND_STAT.PC core.val = s.rd Reg.HND_STAT.PC core.val ∧ (t.core core.val).hold = .none ∧
      (∀ d : DrillId, DrillAborted t core.val d.val) ∧ (∀ c, c ≠ core.val → t.core c = s.core c) ∧
      { t with fields := s.fields, cores := s.cores } = s ∧ BytesKept s t (fun _ => False) ∧ Kept s t (inCoreBlock core) := by
  rw [haltCore_of_running hr (by decide)] at ht
  have ha := abortDrills_aborts (s.halted core.val 4) core.val
  have hd : ∀ d : Nat, d < 4 → DrillAborted ((s.halted core.val 4).abortDrills core.val) core.val d := fun d hd =>
    abortDrills_aborted (by simpa [State.halted, FourDrills] using h4) hd
  rw [ht] at ha hd
  have hrd : ∀ f ∈ [Reg.HND_STAT.HALTED, Reg.HND_STAT.CAUSE, Reg.HND_STAT.PC], t.rd f core.val = (s.halted core.val 4).rd f core.val :=
    fun f hf => ha.kept.rd f _ _ (not_abortKey_hndStat _ hf)
  have hframe : { t with fields := s.fields, cores := s.cores } = s :=
    congrArg (fun x : State => { x with fields := s.fields, cores := s.cores }) ha.frame
  refine ⟨(hrd _ (by simp)).trans (rd_halted_halted ..), (hrd _ (by simp)).trans (rd_halted_cause ..), ?_, ?_, fun d => hd d.val d.isLt,
    fun c hc => ?_, hframe, .of_mem (congrArg State.mem hframe) _, ?_⟩
  · refine (hrd _ (by simp)).trans ((halted_kept s _ _).rd _ _ _ ?_)
    simp [Fld.key, Reg.HND_STAT.PC, Reg.HND_STAT.HALTED, Reg.HND_STAT.CAUSE, Fld.addr]
  · have hh := congrArg CoreX.hold ha.record
    dsimp only at hh
    rw [hh, State.halted, State.modCore_def, State.core_setCore]
  · exact (ha.others c hc).trans (State.core_setCore_other _ _ _ hc)
  · refine ((halted_kept s core.val 4).trans ha.kept).mono (fun k hk => ?_)
    rcases hk with hk | hk
    · simp only [List.mem_cons, List.not_mem_nil, or_false] at hk
      rcases hk with rfl | rfl
      · exact inCoreBlock_key core rfl (by decide) (by decide)
      · exact inCoreBlock_key core rfl (by decide) (by decide)
    · exact inCoreBlock_of_abortKey core hk

/-! ### The drills' limits (R201) -/

/-- The fields of DRL_CFG. -/
def drlCfgFlds : List Fld := [Reg.DRL_CFG.OUT0, Reg.DRL_CFG.OUT1, Reg.DRL_CFG.OUT2, Reg.DRL_CFG.OUT3]

/-- R201, R13: COMMIT of DRL_CFG. -/
theorem drlCfgCommit_spec (core : Nat) (s : State) (hst : s.anyStaged drlCfgFlds core = true) :
    let v := drlCfgFlds.map (fun f => s.stg f core)
    let ok := (∀ x ∈ v, x ≤ 8) ∧ v.sum ≤ 16 ∧ ∀ d < 4, ∀ f, drlCfgFlds[d]? = some f → s.stg f core ≠ s.rd f core →
      s.rd Reg.DRL_STAT.STATE core d = 0 ∧ s.rd Reg.DRL_STAT.PEND core d = 0
    (ok → s.commitDrlCfg core = s.applyAll drlCfgFlds core) ∧
      (¬ok → s.commitDrlCfg core = (s.dropAll drlCfgFlds core).raiseCore core 0x01 (Reg.DRL_CFG.COMMIT.addr core 0)) := by
  intro v ok
  have hif : s.commitDrlCfg core = if ok then s.applyAll drlCfgFlds core else
      (s.dropAll drlCfgFlds core).raiseCore core 0x01 (Reg.DRL_CFG.COMMIT.addr core 0) := by
    have hst' := hst
    unfold drlCfgFlds at hst'
    simp only [State.commitDrlCfg, hst', Bool.not_true, Bool.false_eq_true, if_false]
    refine if_congr ?_ rfl rfl
    have h4 : (∀ d < 4, ∀ f, drlCfgFlds[d]? = some f → s.stg f core ≠ s.rd f core →
        s.rd Reg.DRL_STAT.STATE core d = 0 ∧ s.rd Reg.DRL_STAT.PEND core d = 0) ↔
        ∀ d ∈ [0, 1, 2, 3], (match drlCfgFlds[d]? with | some f => decide (s.stg f core = s.rd f core) | none => true) = true ∨
          s.rd Reg.DRL_STAT.STATE core d = 0 ∧ s.rd Reg.DRL_STAT.PEND core d = 0 := by
      have hm : ∀ d : Nat, d ∈ [0, 1, 2, 3] ↔ d < 4 := fun d => by simp; omega
      refine forall_congr' (fun d => ?_)
      rw [hm d]
      refine imp_congr_right (fun _ => ?_)
      cases drlCfgFlds[d]? with
      | none => simp
      | some f => simp [or_iff_not_imp_left]
    simp only [ok, h4, Bool.and_eq_true, List.all_eq_true, Bool.or_eq_true, decide_eq_true_eq, and_assoc]
    exact Iff.rfl
  exact ⟨fun h => hif.trans (if_pos h), fun h => hif.trans (if_neg h)⟩

/-! ### The statement -/

/-- Settles O26: gates by their commands, the reads that clear, START and STOP, and COMMIT of DRL_CFG. -/
theorem gatesStartAndDrillLimits : Obligations.GatesStartAndDrillLimits := by
  refine ⟨⟨fun core gate s hst => ?commit, fun core gate s ho hn hl => ?opens, fun core gate s ho => ?close,
    fun core gate dest units s ho hu => ?grant, fun i f u j h s => ?read⟩, fun core s hh hp => ⟨fun hc => ?start, fun hc => ?ignored⟩,
    fun core s hp hh h4 => ?stop, fun core s => ?limits⟩
  case commit =>
    intro b n apart ok
    obtain ⟨hyes, hno⟩ := gateCommit_spec core gate s hst
    have hg := gate.isLt
    by_cases hok : ok
    · obtain ⟨hun, hrd, hframe, hkept, hbytes⟩ := applyAll_commits [Reg.GATE_WIN.BASE, Reg.GATE_WIN.SIZE] core.val gate.val
        (by simp [Fld.key, Fld.addr, Reg.GATE_WIN.BASE, Reg.GATE_WIN.SIZE]) s
      refine ⟨_, congrArg Host.Outcome.next (hyes hok), hun _ (by simp), hun _ (by simp), fun _ => ⟨hrd _ (by simp), hrd _ (by simp), hframe,
        hkept.mono (fun k hk => ?_)⟩, fun c => absurd hok c, hbytes⟩
      simpa using hk
    · obtain ⟨hun, hraised, hframe, hkept, hbytes⟩ := dropAll_raiseCore s [Reg.GATE_WIN.BASE, Reg.GATE_WIN.SIZE] core.val gate.val 0x01
        (core_addr_lt core (f := Reg.GATE_OP.COMMIT) rfl (j := gate.val) (by dsimp only [Reg.GATE_OP.COMMIT]; omega))
      exact ⟨_, congrArg Host.Outcome.next (hno hok), hun _ (by simp), hun _ (by simp), fun c => absurd c hok,
        fun _ => ⟨hraised, hframe, hkept⟩, hbytes⟩
  case opens =>
    have he : s.openGate core.val gate.val =
        (s.wr Reg.GATE_EPOCH.OPEN 1 core.val gate.val).wr Reg.GATE_STAT.LANDED 0 core.val gate.val := by
      simp [State.openGate, State.gateOpen, ho, hn, hl]
    have hne : Reg.GATE_EPOCH.OPEN.key core.val gate.val ≠ Reg.GATE_STAT.LANDED.key core.val gate.val :=
      Fld.key_ne rfl (by decide) (by decide) (.inl (by dsimp only [Reg.GATE_EPOCH.OPEN, Reg.GATE_STAT.LANDED]; omega))
    exact ⟨_, congrArg Host.Outcome.next he, (State.rd_wr_other _ _ _ _ _ _ _ _ hne).trans (State.rd_wr_same ..), State.rd_wr_same ..,
      (OnlyFields.wr s _ _ _ _).trans (.wr ..)⟩
  case close =>
    have he : s.closeGate core.val gate.val = (s.wr Reg.GATE_EPOCH.OPEN 0 core.val gate.val).setEpoch core.val gate.val
        (s.rd Reg.GATE_EPOCH.EPOCH core.val gate.val + 1) := by simp [State.closeGate, State.gateOpen, ho]
    have hne : Reg.GATE_EPOCH.OPEN.key core.val gate.val ≠ Reg.GATE_EPOCH.EPOCH.key core.val gate.val :=
      Fld.key_ne rfl (by decide) (by decide) (.inr (by decide))
    refine ⟨_, congrArg Host.Outcome.next he, (State.rd_wr_other _ _ _ _ _ _ _ _ hne).trans (State.rd_wr_same ..), State.rd_wr_same .., rfl,
      .of_mem rfl _, ?_⟩
    have hk : Kept s ((s.wr Reg.GATE_EPOCH.OPEN 0 core.val gate.val).wr Reg.GATE_EPOCH.EPOCH
        (s.rd Reg.GATE_EPOCH.EPOCH core.val gate.val + 1) core.val gate.val)
        (fun k => k ∈ [Reg.GATE_EPOCH.OPEN.key core.val gate.val, Reg.GATE_EPOCH.EPOCH.key core.val gate.val]) :=
      ((Kept.refl s _).wr_then _ _ _ _ (by simp)).wr_then _ _ _ _ (by simp)
    exact hk
  case grant =>
    have hu' : 0 < units.toNat := by
      rw [Nat.pos_iff_ne_zero]
      exact fun e => hu (BitVec.eq_of_toNat_eq e)
    have he : s.grantGate core.val gate.val dest.toNat units.toNat = s.modCore core.val (fun c => { c with ctl := c.ctl ++
        [s.ctlPacket core.val 0xA dest.toNat (units.toNat + gate.val * 2 ^ 8 + s.rd Reg.GATE_EPOCH.EPOCH core.val gate.val * 2 ^ 24)] }) := by
      simp [State.grantGate, State.gateOpen, ho, hu']
    exact ⟨_, _, congrArg Host.Outcome.next he, State.core_setCore .., rfl, rfl, rfl, rfl, fun c hc => State.core_setCore_other _ _ _ hc, rfl,
      .of_mem rfl _⟩
  case read =>
    rcases h with ⟨core, gate, rfl, rfl, rfl, rfl⟩ | ⟨core, rfl, rfl, rfl, rfl⟩ | ⟨croft, rfl, rfl, rfl, rfl⟩
    · have hg := gate.isLt
      exact ⟨_, rfl, readOut_spec rfl rfl (locate_core core (by dsimp only [Reg.GATE_STAT.STALE]; omega)) (gateStat_rc gate)⟩
    · exact ⟨_, rfl, readOut_spec rfl rfl (locate_core core (by decide)) gcrLost_rc⟩
    · exact ⟨_, rfl, readOut_spec rfl rfl (locate_croft croft (by decide)) lagCount_rc⟩
  case start =>
    obtain ⟨hf, hl, hw, hr⟩ := hc
    have he : s.startCore core.val = (((s.wr Reg.HND_STAT.HALTED 0 core.val).wr Reg.HND_STAT.PC (s.rd Reg.HND_CTL.ENTRY core.val) core.val).wr
        Reg.HND_CYC.CYCLES 0 core.val).modCore core.val (fun c => { c with hold := .none, arrived := false }) := by
      simp [State.startCore, State.fallow, hh, hp, hf, hl, hw, hr]
    have h1 : Reg.HND_STAT.HALTED.key core.val 0 ≠ Reg.HND_STAT.PC.key core.val 0 := Fld.key_ne rfl (by decide) (by decide) (.inr (by decide))
    have h2 : Reg.HND_STAT.HALTED.key core.val 0 ≠ Reg.HND_CYC.CYCLES.key core.val 0 :=
      Fld.key_ne rfl (by decide) (by decide) (.inl (by decide))
    have h3 : Reg.HND_STAT.PC.key core.val 0 ≠ Reg.HND_CYC.CYCLES.key core.val 0 := Fld.key_ne rfl (by decide) (by decide) (.inl (by decide))
    refine ⟨_, congrArg Host.Outcome.next he, ?_, ?_, ?_, State.core_setCore .., fun c hc => State.core_setCore_other _ _ _ hc, rfl, .of_mem rfl _, ?_⟩
    · exact ((State.rd_wr_other _ _ _ _ _ _ _ _ h2).trans (State.rd_wr_other _ _ _ _ _ _ _ _ h1)).trans (State.rd_wr_same ..)
    · exact (State.rd_wr_other _ _ _ _ _ _ _ _ h3).trans (State.rd_wr_same ..)
    · exact State.rd_wr_same ..
    · have hk : Kept s (((s.wr Reg.HND_STAT.HALTED 0 core.val).wr Reg.HND_STAT.PC (s.rd Reg.HND_CTL.ENTRY core.val) core.val).wr
          Reg.HND_CYC.CYCLES 0 core.val)
          (fun k => k ∈ [Reg.HND_STAT.HALTED.key core.val 0, pcKey core, Reg.HND_CYC.CYCLES.key core.val 0]) :=
        (((Kept.refl s _).wr_then _ _ _ _ (by simp)).wr_then _ _ _ _ (by simp [pcKey])).wr_then _ _ _ _ (by simp)
      exact hk
  case ignored =>
    refine congrArg Host.Outcome.next (if_neg (fun c => hc ?_))
    obtain ⟨-, hf, hl, hw, hr, -⟩ := c
    exact ⟨by simpa [State.fallow] using hf, hl, hw, hr⟩
  case stop =>
    obtain ⟨h1, h2, h3, h5, h6, h7, h8, h9, h10⟩ := stop_spec rfl hh h4
    exact ⟨_, congrArg Host.Outcome.next (if_pos hp), h1, h2, h3, h5, h6, h7, h8, h9, h10⟩
  case limits =>
    intro fs v hst ok
    obtain ⟨hyes, hno⟩ := drlCfgCommit_spec core.val s hst
    by_cases hok : ok
    · obtain ⟨hun, hrd, hframe, hkept, hbytes⟩ := applyAll_commits drlCfgFlds core.val 0
        (by simp [drlCfgFlds, Fld.key, Fld.addr, Reg.DRL_CFG.OUT0, Reg.DRL_CFG.OUT1, Reg.DRL_CFG.OUT2, Reg.DRL_CFG.OUT3]) s
      refine ⟨_, congrArg Host.Outcome.next (hyes hok), hun, fun _ => ⟨fun f hf => ?_, hframe, hkept⟩, fun c => absurd hok c, hbytes⟩
      have hw : f.width = 4 := by revert f; decide
      simpa [hw] using hrd f hf
    · obtain ⟨hun, hraised, hframe, hkept, hbytes⟩ := dropAll_raiseCore s drlCfgFlds core.val 0 0x01
        (core_addr_lt core (f := Reg.DRL_CFG.COMMIT) rfl (j := 0) (by decide))
      exact ⟨_, congrArg Host.Outcome.next (hno hok), hun, fun c => absurd c hok, fun _ => ⟨hraised, hframe, hkept⟩, hbytes⟩

end Sys2Proof.Machine

namespace Sys2Proof.Machine

/-! ## The aftermath of a fault (R115, R125, R137, R147, R275)

Once a fault has halted a core, its drills abort, its enclosure faults with the segments of it, and its wipe starts. What all this
leaves as it was is said here once. -/

/-- The fields of a core's block that an aftermath writes. -/
def aftermathFlds : List Fld :=
  abortFlds ++ [Reg.SP_STAT.LOCKED, Reg.SP_STAT.WIPE_BUSY, Reg.SP_STAT.RECLASS_BUSY, Reg.GATE_EPOCH.OPEN, Reg.GATE_EPOCH.EPOCH,
    Reg.FUR_STAT.CATCH, Reg.FUR_STAT.HOLDCYC]
/-- Their places in a block: each block of 4 KiB holds 2^18 bits' worth of keys. -/
def aftermathSlots : List Nat :=
  aftermathFlds.flatMap (fun f => (List.range f.count).map (fun j => (f.off + j * f.stride) * 64 + f.lo))
/-- Where an aftermath writes: below the cores' blocks, or at one of these places of a block. -/
def aftermathKey (k : Nat) : Prop := k < 0x200010000000 * 64 ∨ k % 0x40000 ∈ aftermathSlots

theorem key_core_mod {f : Fld} (hb : f.blk = .core) {c j : Nat} (ho : f.off + j * f.stride < 0x1000) (hl : f.lo < 64) :
    f.key c j % 0x40000 = (f.off + j * f.stride) * 64 + f.lo := by
  simp only [Fld.key, Fld.addr, hb, Block.base]
  omega
theorem aftermathKey_of_mem {f : Fld} (hf : f ∈ aftermathFlds) (c : Nat) {j : Nat} (hj : j < f.count) : aftermathKey (f.key c j) := by
  have hall : ∀ f ∈ aftermathFlds, f.blk = .core ∧ f.lo < 64 ∧ ∀ j < f.count, f.off + j * f.stride < 0x1000 := by decide
  obtain ⟨hb, hl, ho⟩ := hall f hf
  right
  rw [key_core_mod hb (ho j hj) hl]
  exact List.mem_flatMap.mpr ⟨f, hf, List.mem_map.mpr ⟨j, List.mem_range.mpr hj, rfl⟩⟩
theorem aftermathKey_of_lt {k : Nat} (h : k < 0x200010000000 * 64) : aftermathKey k := .inl h
/-- A field of a core elsewhere in its block is not written. -/
theorem not_aftermathKey {f : Fld} (hb : f.blk = .core) {c j : Nat} (ho : f.off + j * f.stride < 0x1000) (hl : f.lo < 64)
    (h : (f.off + j * f.stride) * 64 + f.lo ∉ aftermathSlots) : ¬aftermathKey (f.key c j) := by
  rintro (hk | hk)
  · simp only [Fld.key, Fld.addr, hb, Block.base] at hk
    omega
  · rw [key_core_mod hb ho hl] at hk
    exact h hk

/-- What an aftermath can change. -/
structure Aftermath (s t : State) : Prop where
  frame : { t with fields := s.fields, cores := s.cores, segs := s.segs, encls := s.encls, epochs := s.epochs, events := s.events } = s
  kept : Kept s t aftermathKey
  events : ∀ e ∈ s.events, e ∈ t.events

theorem Aftermath.refl (s : State) : Aftermath s s := ⟨rfl, .refl _ _, fun _ h => h⟩
theorem Aftermath.trans {s t u : State} (h : Aftermath s t) (g : Aftermath t u) : Aftermath s u where
  frame := (congrArg (fun x : State =>
    { x with fields := s.fields, cores := s.cores, segs := s.segs, encls := s.encls, epochs := s.epochs, events := s.events }) g.frame).trans h.frame
  kept := (h.kept.trans g.kept).mono (fun _ hk => hk.elim id id)
  events e he := g.events e (h.events e he)
theorem Aftermath.ite {s t u : State} {c : Prop} [Decidable c] (h : Aftermath s t) (g : Aftermath s u) : Aftermath s (if c then t else u) := by
  split <;> assumption
theorem Aftermath.foldl {β : Type} {f : State → β → State} (l : List β) (h : ∀ s, ∀ x ∈ l, Aftermath s (f s x)) (s : State) :
    Aftermath s (l.foldl f s) := by
  induction l generalizing s with
  | nil => exact .refl s
  | cons x t ih => exact (h s x List.mem_cons_self).trans (ih (fun u y hy => h u y (List.mem_cons_of_mem _ hy)) (f s x))
theorem Aftermath.wr (s : State) (f : Fld) (v i j : Nat) (hk : aftermathKey (f.key i j)) : Aftermath s (s.wr f v i j) :=
  ⟨rfl, (Kept.refl s _).wr_then f v i j hk, fun _ h => h⟩
/-- A field of a core's block that an aftermath writes. -/
theorem Aftermath.wrCore (s : State) {f : Fld} (hf : f ∈ aftermathFlds) (v c : Nat) {j : Nat} (hj : j < f.count) : Aftermath s (s.wr f v c j) :=
  .wr s f v c j (aftermathKey_of_mem hf c hj)
theorem Aftermath.modCore (s : State) (c : Nat) (g : CoreX → CoreX) : Aftermath s (s.modCore c g) := ⟨rfl, .of_fields rfl _, fun _ h => h⟩
theorem Aftermath.setCore (s : State) (c : Nat) (x : CoreX) : Aftermath s (s.setCore c x) := ⟨rfl, .of_fields rfl _, fun _ h => h⟩
theorem Aftermath.modSeg (s : State) (n : Nat) (g : SegX → SegX) : Aftermath s (s.modSeg n g) := ⟨rfl, .of_fields rfl _, fun _ h => h⟩
theorem Aftermath.modEncl (s : State) (n : Nat) (g : EnclX → EnclX) : Aftermath s (s.modEncl n g) := ⟨rfl, .of_fields rfl _, fun _ h => h⟩
theorem Aftermath.raiseAt (s : State) {ring : Nat} (hr : ring ≤ 16) (code skind unit tick step detail : Nat) :
    Aftermath s (s.raiseAt ring code skind unit tick step detail) := by
  by_cases h : EventFits s ring
  · rw [raiseAt_of_fits h]
    exact ⟨rfl, .of_fields rfl _, fun e he => List.mem_append_left _ he⟩
  · rw [raiseAt_of_not_fits h]
    have hdest := eventDest_le s hr
    refine .wr s _ _ _ _ (aftermathKey_of_lt ?_)
    simp only [Fld.key, Fld.addr, Reg.EVR_PI.LOST, Block.base]
    omega

theorem Aftermath.of_aborts {s t : State} {core : Nat} (h : Aborts s t core) : Aftermath s t where
  frame := by
    have hs := congrArg State.segs h.frame
    have he := congrArg State.encls h.frame
    have hp := congrArg State.epochs h.frame
    have hv := congrArg State.events h.frame
    dsimp only at hs he hp hv
    rw [← hs, ← he, ← hp, ← hv]
    exact h.frame
  kept := h.kept.mono (fun k hk => by
    obtain ⟨f, hf, d, hd, rfl⟩ := hk
    refine aftermathKey_of_mem (List.mem_append_left _ hf) core ?_
    have hc : ∀ f ∈ abortFlds, f.count = 4 := by decide
    rw [hc f hf]
    exact hd)
  events e he := by
    have hv := congrArg State.events h.frame
    dsimp only at hv
    rw [hv]
    exact he

/-! ### A segment stops (R147) -/

theorem shiftArr_aftermath (s : State) (core n : Nat) : Aftermath s (s.shiftArr core n) := .ite (.refl s) (.setCore s core _)
theorem countHeld_aftermath (s : State) (core : Nat) : Aftermath s (s.countHeld core) := by
  unfold State.countHeld
  exact .ite (.refl s) ((Aftermath.wrCore s (by simp [aftermathFlds]) _ core (j := 0) (by decide)).trans (shiftArr_aftermath ..))
/-- A core's catch buffer empties. -/
def State.emptyCatch (t : State) (c : Nat) : State :=
  let u := if t.rd Reg.FUR_STAT.CATCH c = 0 then t else t.wr Reg.FUR_STAT.CATCH 0 c
  if (u.core c).catchUp.isSome then u.modCore c (fun x => { x with catchUp := none }) else u
theorem emptyCatch_aftermath (t : State) (c : Nat) : Aftermath t (t.emptyCatch c) := by
  have h : Aftermath t (if t.rd Reg.FUR_STAT.CATCH c = 0 then t else t.wr Reg.FUR_STAT.CATCH 0 c) :=
    .ite (.refl t) (.wrCore t (by simp [aftermathFlds]) _ c (by decide))
  exact .ite (h.trans (.modCore _ c _)) h
theorem stopSeg_aftermath (s : State) {g : Nat} (hg : g < 256) : Aftermath s (s.stopSeg g) := by
  have hrun : aftermathKey (Reg.FUR_RUN.RUN.key 0 g) := aftermathKey_of_lt (by
    simp only [Fld.key, Fld.addr, Reg.FUR_RUN.RUN, Block.base]
    omega)
  unfold State.stopSeg
  refine Aftermath.trans ((Aftermath.trans (.ite (.foldl _ (fun t c _ => countHeld_aftermath t c) s) (.refl s)) (.wr _ _ _ _ _ hrun)).trans
    (.modSeg _ g _)) (.foldl _ (fun t c _ => emptyCatch_aftermath t c) _)
theorem stopSegsOf_aftermath (s : State) (n : Nat) : Aftermath s (s.stopSegsOf n) :=
  .foldl _ (fun t _ hg => .ite (stopSeg_aftermath t (List.mem_range.mp hg)) (.refl t)) s

/-! ### An enclosure faults, a wipe starts (R137, R275) -/

theorem enclState_low {f : Fld} (hf : f ∈ [Reg.ENCL_STATE.STATE, Reg.ENCL_STATE.CAUSE]) {n : Nat} (hn : n < 16) :
    aftermathKey (f.key 0 n) := aftermathKey_of_lt (by
  have hf' : f.blk = .reeve ∧ f.off = 0x108 ∧ f.stride = 0x20 ∧ f.lo < 64 := by revert f; decide
  obtain ⟨hb, ho, hs, hl⟩ := hf'
  simp only [Fld.key, Fld.addr, hb, ho, hs, Block.base]
  omega)
theorem faultEncl_aftermath (s : State) {n : Nat} (hn : n < 16) (code m : Nat) : Aftermath s (s.faultEncl n code m) := by
  unfold State.faultEncl
  refine .ite ?_ (.refl s)
  refine Aftermath.trans (.trans (.trans (.trans (.trans (.wr s _ _ _ _ (enclState_low ?_ hn)) (.wr _ _ _ _ _ (enclState_low ?_ hn)))
    (.modEncl _ n _)) (stopSegsOf_aftermath _ n)) (.raiseAt _ (Nat.le_refl _) ..)) (.raiseAt _ (Nat.le_of_lt hn) ..)
  · simp
  · simp
theorem setEpoch_aftermath (s : State) (core : Nat) {g : Nat} (e : Nat) (hg : g < 8) : Aftermath s (s.setEpoch core g e) where
  frame := rfl
  kept := (Aftermath.wrCore s (f := Reg.GATE_EPOCH.EPOCH) (by simp [aftermathFlds]) e core hg).kept
  events _ h := h
theorem wipeStart_aftermath (s : State) (core : Nat) (copy : Bool) : Aftermath s (s.wipeStart core copy) := by
  unfold State.wipeStart
  have hw : ∀ (t : State) (f : Fld), f ∈ [Reg.SP_STAT.LOCKED, Reg.SP_STAT.WIPE_BUSY, Reg.SP_STAT.RECLASS_BUSY] → ∀ v, Aftermath t (t.wr f v core) :=
    fun t f hf v => .wrCore t (by revert f; decide) v core (by revert f; decide)
  refine Aftermath.trans (.trans (.trans (.trans (.trans (.foldl _ (fun t g hg => ?_) s) (.of_aborts (abortDrills_aborts _ core))) (.modCore _ core _))
    (hw _ _ (by simp) _)) (hw _ _ (by simp) _)) (hw _ _ (by simp) _)
  have hg' : g < 8 := List.mem_range.mp hg
  exact (Aftermath.wrCore t (f := Reg.GATE_EPOCH.OPEN) (by simp [aftermathFlds]) 0 core hg').trans (setEpoch_aftermath _ core _ hg')
theorem wipeOf_aftermath (s : State) (n core : Nat) : Aftermath s (s.wipeOf n core) := .ite (.refl s) (wipeStart_aftermath s core _)

/-! ### A core faults (R115, R275) -/

/-- What follows the halt of a core that faults. -/
theorem coreFault_of_running {s : State} {core cause : Nat} (h : s.rd Reg.HND_STAT.HALTED core = 0) (hc : cause ≠ 1) (code : Nat) :
    Aftermath (s.halted core cause) (s.coreFault core cause code) := by
  have hh : s.haltCore core cause = (s.halted core cause).abortDrills core := haltCore_of_running (by rw [h]; decide) hc
  have ha : Aftermath (s.halted core cause) (s.haltCore core cause) := hh ▸ .of_aborts (abortDrills_aborts _ core)
  unfold State.coreFault
  dsimp only
  split
  · next n hn =>
    have hf := ha.trans (faultEncl_aftermath (s.haltCore core cause) (enclOf_lt hn) code ((s.haltCore core cause).estTick (croftOf core)))
    exact .ite (hf.trans (wipeOf_aftermath ..)) hf
  · exact ha

/-- A core's enclosure is read from few fields. -/
theorem enclOfCore_congr {s t : State} (h : ∀ f ∈ [Reg.ENCL_STATE.STATE, Reg.ENCL_SHAPE.ORIGIN, Reg.ENCL_SHAPE.CROWS, Reg.ENCL_SHAPE.CCOLS],
    ∀ n < 16, t.rd f 0 n = s.rd f 0 n) (core : Nat) : t.enclOfCore core = s.enclOfCore core := by
  simp only [List.forall_mem_cons] at h
  obtain ⟨h1, h2, h3, h4, -⟩ := h
  unfold State.enclOfCore State.enclOf
  refine List.find?_congr (fun n hn => ?_)
  have hn' : n < 16 := List.mem_range.mp hn
  simp only [State.enclHolds, State.inRect, h1 n hn', h2 n hn', h3 n hn', h4 n hn']
/-- An event raised between two states is raised between those around them. -/
theorem Raised.of_congr {s s' t t' : State} {ring code skind unit detail : Nat} (h : Raised s' t' ring code skind unit detail)
    (hr : ring ≤ 16) (hen : ∀ r ≤ 16, s'.rd Reg.EVR_CTL.EN 0 r = s.rd Reg.EVR_CTL.EN 0 r) (hev : s'.events = s.events)
    (hafter : ∀ e ∈ t'.events, e ∈ t.events) : Raised s t ring code skind unit detail := by
  have hdest : eventDest s' ring = eventDest s ring := by simp only [eventDest, hen ring hr]
  have hfit : EventFits s ring → EventFits s' ring := fun hf => by
    unfold EventFits at *
    rw [hdest, hen _ (eventDest_le s hr), hev]
    exact hf
  refine ⟨fun e he => hafter e (h.1 e (hev ▸ he)), fun hf => ?_⟩
  obtain ⟨e, he, hd, hrest⟩ := h.2 (hfit hf)
  exact ⟨e, hafter e he, hd.trans hdest, hrest⟩
/-- The fields by which an event's ring is chosen. -/
def ringFlds : List Fld := [Reg.EVR_CTL.EN, Reg.ENCL_STATE.STATE, Reg.ENCL_SHAPE.ORIGIN, Reg.ENCL_SHAPE.CROWS, Reg.ENCL_SHAPE.CCOLS]
/-- They lie below the cores' blocks. -/
theorem ringFlds_low {f : Fld} (hf : f ∈ ringFlds) {n : Nat} (hn : n ≤ 16) : f.key 0 n < 0x200010000000 * 64 := by
  simp only [ringFlds, List.mem_cons, List.not_mem_nil, or_false] at hf
  rcases hf with rfl | rfl | rfl | rfl | rfl
  all_goals
    simp only [Fld.key, Fld.addr, Block.base, Reg.EVR_CTL.EN, Reg.ENCL_STATE.STATE, Reg.ENCL_SHAPE.ORIGIN, Reg.ENCL_SHAPE.CROWS,
      Reg.ENCL_SHAPE.CCOLS]
    omega
/-- Where registers below the cores' blocks are kept as they were, an event of a core goes to the same ring. -/
theorem Raised.of_kept {s s' t t' : State} {core code skind unit detail : Nat} {P : Nat → Prop}
    (h : Raised s' t' ((s'.enclOfCore core).getD 16) code skind unit detail) (hk : Kept s s' P) (hP : ∀ k < 0x200010000000 * 64, ¬P k)
    (hev : s'.events = s.events) (hafter : ∀ e ∈ t'.events, e ∈ t.events) :
    Raised s t ((s.enclOfCore core).getD 16) code skind unit detail := by
  have hrd : ∀ f ∈ ringFlds, ∀ n ≤ 16, s'.rd f 0 n = s.rd f 0 n := fun f hf n hn => hk.rd f 0 n (hP _ (ringFlds_low hf hn))
  have hencl : s'.enclOfCore core = s.enclOfCore core :=
    enclOfCore_congr (fun f hf n hn => hrd f (List.mem_cons_of_mem _ hf) n (Nat.le_of_lt hn)) core
  rw [hencl] at h
  exact h.of_congr (coreRing_le s core) (fun r hr => hrd _ List.mem_cons_self r hr) hev hafter

/-! ### A word is discarded (R115) -/

theorem not_lostKey_core {f : Fld} (hb : f.blk = .core) (hl : f.lo < 64) (c j : Nat) : ¬lostKey (f.key c j) := by
  rintro ⟨r, hr, e⟩
  simp only [Fld.key, Fld.addr, hb, Reg.EVR_PI.LOST, Block.base] at e
  omega

/-- Where a discarded word is recorded, beside what follows the halt. -/
def illegalKeys (core : Nat) : List Nat := [Reg.HND_ILL.WORD.key core 0, Reg.HND_STAT.HALTED.key core 0, Reg.HND_STAT.CAUSE.key core 0]

/-- The state in which a discarded word has been recorded and its event raised. -/
def State.illRaised (s : State) (core word code : Nat) : State := (s.wr Reg.HND_ILL.WORD word core).raiseCore core code word

theorem illRaised_kept (s : State) (core : Nat) {word : Nat} (code : Nat) (hw : word < 2 ^ 64) :
    Kept s (s.illRaised core word code) (fun k => k = Reg.HND_ILL.WORD.key core 0 ∨ lostKey k) :=
  (Kept.wr s _ _ _ _).trans (raiseCore_spec _ core code hw).2.2
theorem illegal_aftermath {s : State} {core word cause : Nat} (h : s.rd Reg.HND_STAT.HALTED core = 0) (hc : cause ≠ 1) (code : Nat)
    (hw : word < 2 ^ 64) : Aftermath ((s.illRaised core word code).halted core cause) (s.illegal core word cause code) := by
  refine coreFault_of_running ?_ hc code
  refine ((illRaised_kept s core code hw).rd _ _ _ (not_or.mpr ⟨?_, not_lostKey_core rfl (by decide) _ _⟩)).trans h
  exact Fld.key_ne rfl (by decide) (by decide) (.inl (by decide))

/-- A register of a core that neither records the word nor follows the halt is as before. -/
theorem illegal_rd {s : State} {core word cause : Nat} (h : s.rd Reg.HND_STAT.HALTED core = 0) (hc : cause ≠ 1) (code : Nat)
    (hw : word < 2 ^ 64) {f : Fld} {c j : Nat} (hb : f.blk = .core) (ho : f.off + j * f.stride < 0x1000) (hl : f.lo < 64)
    (ha : (f.off + j * f.stride) * 64 + f.lo ∉ aftermathSlots) (hk : f.key c j ∉ illegalKeys core) :
    (s.illegal core word cause code).rd f c j = s.rd f c j := by
  simp only [illegalKeys, List.mem_cons, List.not_mem_nil, or_false, not_or] at hk
  obtain ⟨hill, hhalt, hcause⟩ := hk
  calc (s.illegal core word cause code).rd f c j
      = ((s.illRaised core word code).halted core cause).rd f c j :=
        (illegal_aftermath h hc code hw).kept.rd f c j (not_aftermathKey hb ho hl ha)
    _ = (s.illRaised core word code).rd f c j := (halted_kept _ core cause).rd f c j (by simp [hhalt, hcause])
    _ = s.rd f c j := (illRaised_kept s core code hw).rd f c j (not_or.mpr ⟨hill, not_lostKey_core hb hl c j⟩)

/-- R115: a word that a running core discards. -/
theorem illegal_discarded {s : State} {core : CoreId} (h : s.rd Reg.HND_STAT.HALTED core.val = 0) (word : Word) {cause : Nat} (hc : cause ≠ 1)
    (hc16 : cause < 16) (code : Nat) : Discarded s (s.illegal core.val word.toNat cause code) core word cause code := by
  have hw := word.isLt
  have ha := illegal_aftermath h hc code hw
  have hin : ∀ f ∈ [Reg.HND_ILL.WORD, Reg.HND_STAT.HALTED, Reg.HND_STAT.CAUSE], (s.illegal core.val word.toNat cause code).rd f core.val =
      ((s.illRaised core.val word.toNat code).halted core.val cause).rd f core.val := fun f hf => by
    have hf' : f.blk = .core ∧ f.off < 0x1000 ∧ f.lo < 64 ∧ f.off * 64 + f.lo ∉ aftermathSlots := by revert f; decide
    obtain ⟨hb, ho, hl, hs⟩ := hf'
    exact ha.kept.rd f _ _ (not_aftermathKey hb (by omega) hl (by simpa using hs))
  obtain ⟨hraised, hframe, hlost⟩ := raiseCore_spec (s.wr Reg.HND_ILL.WORD word.toNat core.val) core.val code hw
  have hothers := congrArg State.vregs hframe
  have hmem := congrArg State.mem hframe
  refine ⟨?word, ?halted, ?cause, ?pc, ?raised, fun c r => ?hand, ?vregs, ?bytes⟩
  case word =>
    rw [hin _ (by simp), (halted_kept _ core.val cause).rd _ _ _ ?_]
    · refine (hlost.rd _ _ _ (not_lostKey_core rfl (by decide) _ _)).trans ?_
      rw [State.rd_wr_same]
      exact Nat.mod_eq_of_lt hw
    · simp [Fld.key, Fld.addr, Reg.HND_ILL.WORD, Reg.HND_STAT.HALTED, Reg.HND_STAT.CAUSE]
      omega
  case halted => rw [hin _ (by simp), rd_halted_halted]
  case cause => rw [hin _ (by simp), rd_halted_cause, Nat.mod_eq_of_lt hc16]
  case pc =>
    refine illegal_rd h hc code hw rfl (by decide) (by decide) (by decide) ?_
    simp [illegalKeys, Fld.key, Fld.addr, Reg.HND_ILL.WORD, Reg.HND_STAT.HALTED, Reg.HND_STAT.CAUSE, Reg.HND_STAT.PC]
    omega
  case raised =>
    refine hraised.of_kept (Kept.wr s _ _ _ _) (fun k hk e => ?_) rfl ha.events
    rw [e] at hk
    simp only [Fld.key, Fld.addr, Reg.HND_ILL.WORD, Block.base] at hk
    omega
  case hand =>
    unfold State.h
    split
    · rfl
    · refine congrArg (BitVec.ofNat 64) (illegal_rd h hc code hw rfl ?_ (by decide) ?_ ?_)
      · have := r.isLt
        simp only [Reg.HND_H.VALUE]
        omega
      · have hall : ∀ j < 32, (Reg.HND_H.VALUE.off + j * Reg.HND_H.VALUE.stride) * 64 + Reg.HND_H.VALUE.lo ∉ aftermathSlots := by decide
        exact hall _ r.isLt
      · have := r.isLt
        simp [illegalKeys, Fld.key, Fld.addr, Block.base, Reg.HND_ILL.WORD, Reg.HND_STAT.HALTED, Reg.HND_STAT.CAUSE, Reg.HND_H.VALUE]
        omega
  case vregs => exact (congrArg State.vregs ha.frame).trans hothers
  case bytes => exact .of_mem ((congrArg State.mem ha.frame).trans hmem) _

end Sys2Proof.Machine

namespace Sys2Proof.Machine

/-! ## A cold array, the repair map, the tally binding (R57, R69, R88) -/

/-! ### What a binding can change -/

/-- The fields of a core that a binding writes: the tally's, and EMIT_STAT for the flushed slot. -/
def tallyFlds : List Fld :=
  [Reg.TLY_BIND.TALLY_ID, Reg.TLY_BIND.BOUND, Reg.TLY_BIND.SIGMA, Reg.TLY_BIND.CSAT, Reg.TLY_CNT.ZERO, Reg.TLY_CNT.NONFIN, Reg.TLY_CNT.OVF,
    Reg.TLY_CNT.UNF, Reg.TLY_HIST.HIST_LO, Reg.TLY_HIST.HIST_HI, Reg.TLY_CTL.FLUSH_BUSY, Reg.EMIT_STAT.RET_USED, Reg.EMIT_STAT.BUSY,
    Reg.EMIT_STAT.REEMIT]
/-- Where they are kept. -/
def tallyKey (core : CoreId) (k : Nat) : Prop := ∃ f ∈ tallyFlds, ∃ j < f.count, k = f.key core.val j

theorem tallyFlds_place : ∀ f ∈ tallyFlds, f.blk = .core ∧ f.lo < 64 ∧ 0x180 ≤ f.off ∧
    ∀ j < f.count, f.off + j * f.stride < 0x1000 ∧ (f.off + j * f.stride < 0x200 ∨ 0x300 ≤ f.off + j * f.stride) := by decide
/-- The hand's registers, of this core or another, are none of these. -/
theorem not_tallyKey_hand (core : CoreId) {f : Fld} {c j : Nat} (hb : f.blk = .core) (hl : f.lo < 64)
    (ho : f.off + j * f.stride < 0x180 ∨ 0x200 ≤ f.off + j * f.stride ∧ f.off + j * f.stride < 0x300) : ¬tallyKey core (f.key c j) := by
  rintro ⟨g, hg, k, hk, e⟩
  obtain ⟨hgb, hgl, h180, hgo⟩ := tallyFlds_place g hg
  obtain ⟨h1000, hout⟩ := hgo k hk
  have e' : f.key c j % 0x40000 = g.key core.val k % 0x40000 := by rw [e]
  rw [key_core_mod hb (by omega) hl, key_core_mod hgb h1000 hgl] at e'
  omega
theorem not_tallyKey_low (core : CoreId) {k : Nat} (h : k < 0x200010000000 * 64) : ¬tallyKey core k := by
  rintro ⟨f, hf, j, -, rfl⟩
  simp only [Fld.key, Fld.addr, (tallyFlds_place f hf).1, Block.base] at h
  omega

/-- Of the state only registers of the core's tally and EMIT_STAT differ, and of the core's record its flush buffer and its emission path. -/
structure TallyOnly (core : CoreId) (s t : State) : Prop where
  frame : { t with fields := s.fields, cores := s.cores } = s
  others : ∀ c, c ≠ core.val → t.core c = s.core c
  record : { t.core core.val with flush := (s.core core.val).flush, emit := (s.core core.val).emit } = s.core core.val
  kept : Kept s t (tallyKey core)

theorem TallyOnly.refl (core : CoreId) (s : State) : TallyOnly core s s := ⟨rfl, fun _ _ => rfl, rfl, .refl _ _⟩
theorem TallyOnly.trans {core : CoreId} {s t u : State} (h : TallyOnly core s t) (g : TallyOnly core t u) : TallyOnly core s u where
  frame := (congrArg (fun x : State => { x with fields := s.fields, cores := s.cores }) g.frame).trans h.frame
  others c hc := (g.others c hc).trans (h.others c hc)
  record := (congrArg (fun x : CoreX => { x with flush := (s.core core.val).flush, emit := (s.core core.val).emit }) g.record).trans h.record
  kept := (h.kept.trans g.kept).mono (fun _ hk => hk.elim id id)
theorem TallyOnly.wr (core : CoreId) (s : State) {f : Fld} (v : Nat) {j : Nat} (hf : f ∈ tallyFlds) (hj : j < f.count) :
    TallyOnly core s (s.wr f v core.val j) :=
  ⟨rfl, fun _ _ => rfl, rfl, (Kept.refl s _).wr_then f v core.val j ⟨f, hf, j, hj, rfl⟩⟩
theorem TallyOnly.foldl {β : Type} {core : CoreId} {f : State → β → State} (l : List β) (h : ∀ s, ∀ x ∈ l, TallyOnly core s (f s x)) (s : State) :
    TallyOnly core s (l.foldl f s) := by
  induction l generalizing s with
  | nil => exact .refl core s
  | cons x t ih => exact (h s x List.mem_cons_self).trans (ih (fun u y hy => h u y (List.mem_cons_of_mem _ hy)) (f s x))
/-- The flush buffer and the emission path take what they take. -/
theorem TallyOnly.setFlush (core : CoreId) (s : State) (a : Option Flush) (b : List Packet) :
    TallyOnly core s (s.setCore core.val { s.core core.val with flush := a, emit := b }) :=
  ⟨rfl, fun c hc => State.core_setCore_other _ _ _ hc, by rw [State.core_setCore], .of_fields rfl _⟩

/-! ### The bound slot is flushed (R88, R333) -/

theorem flushOut_only (core : CoreId) (s : State) : TallyOnly core s (s.flushOut core.val) := by
  unfold State.flushOut
  dsimp only
  split
  · exact .refl core s
  · split
    · unfold State.emitSync
      exact TallyOnly.trans (.trans (.trans (.trans (.setFlush ..) (.wr core _ _ (by simp [tallyFlds]) (by decide)))
        (.wr core _ _ (by simp [tallyFlds]) (by decide))) (.wr core _ _ (by simp [tallyFlds]) (by decide)))
        (.wr core _ _ (by simp [tallyFlds]) (by decide))
    · exact .refl core s

/-- The counters of slot `n` read zero. -/
def SlotZero (t : State) (core n : Nat) : Prop :=
  (∀ f ∈ [Reg.TLY_CNT.ZERO, Reg.TLY_CNT.NONFIN, Reg.TLY_CNT.OVF, Reg.TLY_CNT.UNF, Reg.TLY_BIND.CSAT], t.rd f core n = 0) ∧
    ∀ j < 32, t.rd Reg.TLY_HIST.HIST_LO core (n * 32 + j) = 0 ∧ t.rd Reg.TLY_HIST.HIST_HI core (n * 32 + j) = 0
theorem SlotZero.counters {t : State} {core n : Nat} (h : SlotZero t core n) :
    ∀ f ∈ [Reg.TLY_CNT.ZERO, Reg.TLY_CNT.NONFIN, Reg.TLY_CNT.OVF, Reg.TLY_CNT.UNF, Reg.TLY_BIND.CSAT], t.rd f core n = 0 := h.1
theorem SlotZero.bins {t : State} {core n : Nat} (h : SlotZero t core n) :
    ∀ j < 32, t.rd Reg.TLY_HIST.HIST_LO core (n * 32 + j) = 0 ∧ t.rd Reg.TLY_HIST.HIST_HI core (n * 32 + j) = 0 := h.2

/-- A write of zero leaves a zero, and makes one where it writes. -/
theorem rd_wr_zero {s : State} {f g : Fld} {i j a b : Nat} (h : g.key a b = f.key i j ∨ s.rd f i j = 0) : (s.wr g 0 a b).rd f i j = 0 := by
  by_cases e : f.key i j = g.key a b
  · simp [State.rd, State.wr, e]
  · rw [State.rd_wr_other _ _ _ _ _ _ _ _ e]
    exact h.resolve_left (fun c => e c.symm)
/-- The counters of a slot cleared (R88). -/
def State.clearSlot (s : State) (core n : Nat) : State :=
  (List.range 32).foldl (fun t j => (t.wr Reg.TLY_HIST.HIST_LO 0 core (n * 32 + j)).wr Reg.TLY_HIST.HIST_HI 0 core (n * 32 + j))
    (((((s.wr Reg.TLY_BIND.CSAT 0 core n).wr Reg.TLY_CNT.ZERO 0 core n).wr Reg.TLY_CNT.NONFIN 0 core n).wr Reg.TLY_CNT.OVF 0 core n).wr
      Reg.TLY_CNT.UNF 0 core n)

/-- The bins written are zero, and what was zero stays so. -/
theorem foldl_clear_bins (core n : Nat) (l : List Nat) (s : State) :
    let t := l.foldl (fun t j => (t.wr Reg.TLY_HIST.HIST_LO 0 core (n * 32 + j)).wr Reg.TLY_HIST.HIST_HI 0 core (n * 32 + j)) s
    (∀ f i j, s.rd f i j = 0 → t.rd f i j = 0) ∧
      ∀ j ∈ l, t.rd Reg.TLY_HIST.HIST_LO core (n * 32 + j) = 0 ∧ t.rd Reg.TLY_HIST.HIST_HI core (n * 32 + j) = 0 := by
  induction l generalizing s with
  | nil => exact ⟨fun _ _ _ h => h, fun _ h => absurd h List.not_mem_nil⟩
  | cons x l ih =>
    obtain ⟨hz, hl⟩ := ih ((s.wr Reg.TLY_HIST.HIST_LO 0 core (n * 32 + x)).wr Reg.TLY_HIST.HIST_HI 0 core (n * 32 + x))
    refine ⟨fun f i j h => hz f i j (rd_wr_zero (.inr (rd_wr_zero (.inr h)))), fun j hj => ?_⟩
    rcases List.mem_cons.mp hj with rfl | hj
    · exact ⟨hz _ _ _ (rd_wr_zero (.inr (rd_wr_zero (.inl rfl)))), hz _ _ _ (rd_wr_zero (.inl rfl))⟩
    · exact hl j hj
theorem clearSlot_zero (s : State) (core n : Nat) : SlotZero (s.clearSlot core n) core n := by
  obtain ⟨hz, hl⟩ := foldl_clear_bins core n (List.range 32) (((((s.wr Reg.TLY_BIND.CSAT 0 core n).wr Reg.TLY_CNT.ZERO 0 core n).wr
    Reg.TLY_CNT.NONFIN 0 core n).wr Reg.TLY_CNT.OVF 0 core n).wr Reg.TLY_CNT.UNF 0 core n)
  refine ⟨fun f hf => hz f core n ?_, fun j hj => hl j (List.mem_range.mpr hj)⟩
  simp only [List.mem_cons, List.not_mem_nil, or_false] at hf
  rcases hf with rfl | rfl | rfl | rfl | rfl
  · exact rd_wr_zero (.inr (rd_wr_zero (.inr (rd_wr_zero (.inr (rd_wr_zero (.inl rfl)))))))
  · exact rd_wr_zero (.inr (rd_wr_zero (.inr (rd_wr_zero (.inl rfl)))))
  · exact rd_wr_zero (.inr (rd_wr_zero (.inl rfl)))
  · exact rd_wr_zero (.inl rfl)
  · exact rd_wr_zero (.inr (rd_wr_zero (.inr (rd_wr_zero (.inr (rd_wr_zero (.inr (rd_wr_zero (.inl rfl)))))))))
theorem clearSlot_only (core : CoreId) (s : State) (n : Fin 4) : TallyOnly core s (s.clearSlot core.val n.val) := by
  have hn := n.isLt
  unfold State.clearSlot
  refine TallyOnly.trans (.trans (.trans (.trans (.trans (.wr core _ _ ?_ hn) (.wr core _ _ ?_ hn)) (.wr core _ _ ?_ hn)) (.wr core _ _ ?_ hn))
    (.wr core _ _ ?_ hn)) (.foldl _ (fun t j hj => ?_) _)
  case refine_6 =>
    have hj' : n.val * 32 + j < 128 := by
      have := List.mem_range.mp hj
      omega
    exact (TallyOnly.wr core t 0 (f := Reg.TLY_HIST.HIST_LO) (by simp [tallyFlds]) hj').trans
      (.wr core _ 0 (f := Reg.TLY_HIST.HIST_HI) (by simp [tallyFlds]) hj')
  all_goals simp [tallyFlds]

/-- The fields of these that are not a slot's counters. -/
def bindFlds : List Fld :=
  [Reg.TLY_BIND.TALLY_ID, Reg.TLY_BIND.BOUND, Reg.TLY_BIND.SIGMA, Reg.TLY_CTL.FLUSH_BUSY, Reg.EMIT_STAT.RET_USED, Reg.EMIT_STAT.BUSY,
    Reg.EMIT_STAT.REEMIT]
theorem bindFlds_place : ∀ f ∈ bindFlds, f.blk = .core ∧ f.lo < 64 ∧ f.lo ≠ 11 ∧
    ∀ j < f.count, f.off + j * f.stride < 0x1C0 ∨ 0x980 ≤ f.off + j * f.stride ∧ f.off + j * f.stride < 0xC00 := by decide
theorem counters_place : ∀ n < 4, ∀ g ∈ [Reg.TLY_CNT.ZERO, Reg.TLY_CNT.NONFIN, Reg.TLY_CNT.OVF, Reg.TLY_CNT.UNF, Reg.TLY_BIND.CSAT],
    g.blk = .core ∧ g.lo < 64 ∧ (g.lo = 11 ∨ 0x1C0 ≤ g.off + n * g.stride ∧ g.off + n * g.stride < 0x980) := by decide
/-- A write of one of them leaves a slot's counters zero. -/
theorem SlotZero.wr {t : State} {core n : Nat} (hn : n < 4) (h : SlotZero t core n) {f : Fld} (hf : f ∈ bindFlds) (v : Nat) {j : Nat}
    (hj : j < f.count) : SlotZero (t.wr f v core j) core n := by
  obtain ⟨hb, hl, h11, ho⟩ := bindFlds_place f hf
  have hplace := ho j hj
  refine ⟨fun g hg => ?_, fun i hi => ⟨?_, ?_⟩⟩
  · obtain ⟨hgb, hgl, hg'⟩ := counters_place n hn g hg
    rw [State.rd_wr_other]
    · exact h.counters g hg
    · exact Fld.key_ne (hgb.trans hb.symm) hgl hl (by omega)
  · rw [State.rd_wr_other]
    · exact (h.bins i hi).1
    · exact Fld.key_ne hb.symm (by decide) hl (.inl (by simp only [Reg.TLY_HIST.HIST_LO]; omega))
  · rw [State.rd_wr_other]
    · exact (h.bins i hi).2
    · exact Fld.key_ne hb.symm (by decide) hl (.inl (by simp only [Reg.TLY_HIST.HIST_HI]; omega))
theorem SlotZero.of_fields {t u : State} {core n : Nat} (h : SlotZero t core n) (he : u.fields = t.fields) : SlotZero u core n := by
  have hrd : ∀ f i j, u.rd f i j = t.rd f i j := fun f i j => by rw [State.rd, he, State.rd]
  exact ⟨fun f hf => (hrd f _ _).trans (h.counters f hf), fun j hj => ⟨(hrd _ _ _).trans (h.bins j hj).1, (hrd _ _ _).trans (h.bins j hj).2⟩⟩
theorem flushOut_zero {s : State} {core n : Nat} (hn : n < 4) (h : SlotZero s core n) : SlotZero (s.flushOut core) core n := by
  unfold State.flushOut
  dsimp only
  split
  · exact h
  · split
    · unfold State.emitSync
      have hset : ∀ x, SlotZero (s.setCore core x) core n := fun x => h.of_fields rfl
      exact ((((hset _).wr hn (by simp [bindFlds]) _ (by decide)).wr hn (by simp [bindFlds]) _ (by decide)).wr hn (by simp [bindFlds]) _
        (by decide)).wr hn (by simp [bindFlds]) _ (by decide)
    · exact h
/-- The flush buffer takes the counters that slot `n` had in `s` (R88). -/
def State.fillFlush (t : State) (core n : Nat) (s : State) : State :=
  let hist := (List.range 64).map (fun b =>
    s.rd (if b % 2 = 0 then Reg.TLY_HIST.HIST_LO else Reg.TLY_HIST.HIST_HI) core (n * 32 + b / 2))
  let f : Flush :=
    { id := s.rd Reg.TLY_BIND.TALLY_ID core n, csat := decide (s.rd Reg.TLY_BIND.CSAT core n = 1)
      zero := s.rd Reg.TLY_CNT.ZERO core n, nonfin := s.rd Reg.TLY_CNT.NONFIN core n
      ovf := s.rd Reg.TLY_CNT.OVF core n, unf := s.rd Reg.TLY_CNT.UNF core n, hist := hist }
  (t.modCore core (fun c => { c with flush := some f })).wr Reg.TLY_CTL.FLUSH_BUSY 1 core
theorem fillFlush_only (core : CoreId) (t : State) (n : Nat) (s : State) : TallyOnly core t (t.fillFlush core.val n s) :=
  (TallyOnly.setFlush core t _ _).trans (.wr core _ _ (by simp [tallyFlds]) (by decide))
theorem fillFlush_zero {t : State} {core n : Nat} (hn : n < 4) (h : SlotZero t core n) (s : State) : SlotZero (t.fillFlush core n s) core n := by
  have hm : ∀ g, SlotZero (t.modCore core g) core n := fun g => h.of_fields rfl
  exact (hm _).wr hn (by simp [bindFlds]) _ (by decide)
/-- R88: a bound slot's counters go to the flush buffer, or on into the emission path, and read zero. -/
theorem flushSlot_spec (core : CoreId) (s : State) (n : Fin 4) :
    TallyOnly core s (s.flushSlot core.val n.val) ∧ SlotZero (s.flushSlot core.val n.val) core.val n.val := by
  have he : s.flushSlot core.val n.val = ((s.clearSlot core.val n.val).fillFlush core.val n.val s).flushOut core.val := rfl
  rw [he]
  refine ⟨((clearSlot_only core s n).trans (fillFlush_only core _ n.val s)).trans (flushOut_only core _),
    flushOut_zero n.isLt (fillFlush_zero n.isLt (clearSlot_zero s core.val n.val) s)⟩

/-! ### The binding takes effect (R88) -/

/-- The new binding of slot `n`. -/
def State.bound (s : State) (core n : Nat) (v : Word) : State :=
  ((s.wr Reg.TLY_BIND.TALLY_ID (bits v.toNat 0 10) core n).wr Reg.TLY_BIND.BOUND (bits v.toNat 10 1) core n).wr
    Reg.TLY_BIND.SIGMA (bits v.toNat 16 8) core n
/-- The slot shows the binding. -/
def SlotSet (t : State) (core n : Nat) (v : Word) : Prop :=
  t.rd Reg.TLY_BIND.TALLY_ID core n = v.toNat % 2 ^ 10 ∧ t.rd Reg.TLY_BIND.BOUND core n = v.toNat / 2 ^ 10 % 2 ∧
    t.rd Reg.TLY_BIND.SIGMA core n = v.toNat / 2 ^ 16 % 2 ^ 8

theorem bound_set (s : State) (core n : Nat) (v : Word) : SlotSet (s.bound core n v) core n v := by
  have h1 : Reg.TLY_BIND.TALLY_ID.key core n ≠ Reg.TLY_BIND.BOUND.key core n := Fld.key_ne rfl (by decide) (by decide) (.inr (by decide))
  have h2 : Reg.TLY_BIND.TALLY_ID.key core n ≠ Reg.TLY_BIND.SIGMA.key core n := Fld.key_ne rfl (by decide) (by decide) (.inr (by decide))
  have h3 : Reg.TLY_BIND.BOUND.key core n ≠ Reg.TLY_BIND.SIGMA.key core n := Fld.key_ne rfl (by decide) (by decide) (.inr (by decide))
  unfold SlotSet State.bound
  rw [State.rd_wr_other _ _ _ _ _ _ _ _ h2, State.rd_wr_other _ _ _ _ _ _ _ _ h1, State.rd_wr_same, State.rd_wr_other _ _ _ _ _ _ _ _ h3,
    State.rd_wr_same, State.rd_wr_same]
  simp [bits, Reg.TLY_BIND.TALLY_ID, Reg.TLY_BIND.BOUND, Reg.TLY_BIND.SIGMA]
theorem bound_kept (s : State) (core n : Nat) (v : Word) : Kept s (s.bound core n v)
    (fun k => k ∈ [Reg.TLY_BIND.TALLY_ID.key core n, Reg.TLY_BIND.BOUND.key core n, Reg.TLY_BIND.SIGMA.key core n]) :=
  (((Kept.refl s _).wr_then _ _ _ _ (by simp)).wr_then _ _ _ _ (by simp)).wr_then _ _ _ _ (by simp)
theorem bound_only (core : CoreId) (s : State) (n : Fin 4) (v : Word) : TallyOnly core s (s.bound core.val n.val v) :=
  ((TallyOnly.wr core s _ (by simp [tallyFlds]) n.isLt).trans (.wr core _ _ (by simp [tallyFlds]) n.isLt)).trans
    (.wr core _ _ (by simp [tallyFlds]) n.isLt)
theorem bound_zero {s : State} {core : Nat} {n : Nat} (hn : n < 4) (h : SlotZero s core n) (v : Word) : SlotZero (s.bound core n v) core n :=
  ((h.wr hn (by simp [bindFlds]) _ hn).wr hn (by simp [bindFlds]) _ hn).wr hn (by simp [bindFlds]) _ hn

/-- What a binding that need not wait gives. -/
structure Binds (core : CoreId) (n : Nat) (v : Word) (s t : State) : Prop where
  slot : SlotSet t core.val n v
  only : TallyOnly core s t
  unbound : s.rd Reg.TLY_BIND.BOUND core.val n ≠ 1 → t.cores = s.cores ∧ Kept s t
    (fun k => k ∈ [Reg.TLY_BIND.TALLY_ID.key core.val n, Reg.TLY_BIND.BOUND.key core.val n, Reg.TLY_BIND.SIGMA.key core.val n])
  flushed : s.rd Reg.TLY_BIND.BOUND core.val n = 1 → SlotZero t core.val n

theorem bindSlot_binds (core : CoreId) (s : State) (n : Fin 4) (v : Word) (hw : s.tallyWaits core.val n.val = false)
    (hf : s.rd Reg.TLY_BIND.BOUND core.val n.val ≠ 1 ∨ (s.core core.val).flush = none) :
    ∃ t, s.bindSlot core.val n.val v = some t ∧ Binds core n.val v s t := by
  by_cases hb : s.rd Reg.TLY_BIND.BOUND core.val n.val = 1
  · have hfl : (s.core core.val).flush = none := hf.resolve_left (fun c => c hb)
    obtain ⟨ho, hz⟩ := flushSlot_spec core s n
    refine ⟨(s.flushSlot core.val n.val).bound core.val n.val v, ?_, bound_set .., ho.trans (bound_only core _ n v), fun c => absurd hb c,
      fun _ => bound_zero n.isLt hz v⟩
    simp [State.bindSlot, hw, hb, hfl, State.bound]
  · refine ⟨s.bound core.val n.val v, ?_, bound_set .., bound_only core s n v, fun _ => ⟨rfl, bound_kept s core.val n.val v⟩, fun c => absurd c hb⟩
    simp [State.bindSlot, hw, hb, State.bound]
/-- The hold is over: a core that has not run off the end of its code goes on. -/
theorem releaseHold_of_not_runOff {s : State} {core : Nat} (h : (s.core core).runOff = false) :
    s.releaseHold core = s.modCore core (fun c => { c with hold := .none }) := by
  have he : { s.core core with hold := .none, runOff := false } = { s.core core with hold := Hold.none } := by rw [← h]
  unfold State.releaseHold
  rw [h, if_neg (by decide), State.modCore_def, State.modCore_def]
  exact congrArg (s.setCore core) he

/-- A word discarded after the binding is discarded before it. -/
theorem Discarded.of_tally {core : CoreId} {s u t : State} {word : Word} {cause code : Nat} (d : Discarded u t core word cause code)
    (hframe : { u with fields := s.fields, cores := s.cores } = s) (hkept : Kept s u (tallyKey core)) : Discarded s t core word cause code := by
  obtain ⟨hill, hhalt, hcause, hpc, hraised, hhand, hv, hbytes⟩ := d
  have hev : u.events = s.events := (congrArg State.events hframe :)
  refine ⟨hill, hhalt, hcause, hpc.trans ?_, hraised.of_kept hkept (fun k hk => not_tallyKey_low core hk) hev (fun _ he => he),
    fun c r => (hhand c r).trans ?_, hv.trans (congrArg State.vregs hframe :), fun a ha => (hbytes a ha).trans ?_⟩
  · exact hkept.rd _ _ _ (not_tallyKey_hand core rfl (by decide) (.inl (by decide)))
  · unfold State.h
    split
    · rfl
    · have := r.isLt
      refine congrArg (BitVec.ofNat 64) (hkept.rd _ _ _ (not_tallyKey_hand core rfl (by decide) (.inr ?_)))
      simp only [Reg.HND_H.VALUE]
      omega
  · exact BytesKept.of_mem (congrArg State.mem hframe :) (fun _ => False) a id

/-- What the statement says of a binding that ends with the core's record `x`. -/
theorem Binds.ends {core : CoreId} {n : Fin 4} {v : Word} {s u : State} (h : Binds core n.val v s u) (g : CoreX → CoreX) {x : CoreX}
    (hx : x = g (s.core core.val)) (hg : ∀ c a b, g { c with flush := a, emit := b } = { g c with flush := a, emit := b }) :
    let t := u.modCore core.val g
    SlotSet t core.val n.val v ∧
      (s.rd Reg.TLY_BIND.BOUND core.val n.val ≠ 1 → t.core core.val = x ∧
        Kept s t (fun k => k ∈ [Reg.TLY_BIND.TALLY_ID.key core.val n.val, Reg.TLY_BIND.BOUND.key core.val n.val,
          Reg.TLY_BIND.SIGMA.key core.val n.val])) ∧
      (s.rd Reg.TLY_BIND.BOUND core.val n.val = 1 → { t.core core.val with flush := x.flush, emit := x.emit } = x ∧ SlotZero t core.val n.val) ∧
      (∀ c, c ≠ core.val → t.core c = s.core c) ∧ { t with fields := s.fields, cores := s.cores } = s ∧ BytesKept s t (fun _ => False) := by
  intro t
  obtain ⟨hslot, ⟨hframe, hothers, hrec, -⟩, hunbound, hflushed⟩ := h
  have ht : t.core core.val = g (u.core core.val) := State.core_setCore ..
  refine ⟨hslot, fun hb => ?unbound, fun hb => ⟨?record, (hflushed hb).of_fields rfl⟩, fun c hc => ?others, hframe,
    .of_mem (congrArg State.mem hframe :) _⟩
  case unbound =>
    obtain ⟨hcores, hkept⟩ := hunbound hb
    have hc : u.core core.val = s.core core.val := by rw [State.core, State.core, hcores]
    exact ⟨by rw [ht, hc, hx], hkept⟩
  case record =>
    have hgs := (congrArg g hrec.symm).trans (hg (u.core core.val) (s.core core.val).flush (s.core core.val).emit)
    rw [ht, hx, hgs]
  case others => exact (State.core_setCore_other _ _ _ hc).trans (hothers c hc)

/-- The binding stands when the core then halts. -/
theorem SlotSet.illegal {u : State} {core : CoreId} {v : Word} (n : Fin 4) (h : SlotSet u core.val n.val v)
    (hhalt : u.rd Reg.HND_STAT.HALTED core.val = 0) {g : CoreX → CoreX} :
    SlotSet ((u.modCore core.val g).illegal core.val 0) core.val n.val v := by
  have hrd : ∀ f ∈ [Reg.TLY_BIND.TALLY_ID, Reg.TLY_BIND.BOUND, Reg.TLY_BIND.SIGMA],
      ((u.modCore core.val g).illegal core.val 0).rd f core.val n.val = u.rd f core.val n.val := fun f hf => by
    have hall : ∀ n < 4, ∀ f ∈ [Reg.TLY_BIND.TALLY_ID, Reg.TLY_BIND.BOUND, Reg.TLY_BIND.SIGMA], f.blk = .core ∧ f.off + n * f.stride < 0x1000 ∧
        0x188 ≤ f.off + n * f.stride ∧ f.lo < 64 ∧ (f.off + n * f.stride) * 64 + f.lo ∉ aftermathSlots := by decide
    obtain ⟨hb, ho, h188, hl, ha⟩ := hall n.val n.isLt f hf
    refine illegal_rd (s := u.modCore core.val g) hhalt (by decide) 0x03 (by decide) hb ho hl ha ?_
    have hne : ∀ k : Fld, k.blk = .core → k.lo < 64 → k.off < 0x188 → f.key core.val n.val ≠ k.key core.val 0 := fun k hk hkl hko =>
      Fld.key_ne (hb.trans hk.symm) hl hkl (.inl (by omega))
    simp only [illegalKeys, List.mem_cons, List.not_mem_nil, or_false, not_or]
    exact ⟨hne _ rfl (by decide) (by decide), hne _ rfl (by decide) (by decide), hne _ rfl (by decide) (by decide)⟩
  obtain ⟨h1, h2, h3⟩ := h
  exact ⟨(hrd _ (by simp)).trans h1, (hrd _ (by simp)).trans h2, (hrd _ (by simp)).trans h3⟩

/-! ### The statement -/

/-- R69, R13: COMMIT of the repair map. -/
theorem arrRepairCommit_spec (core : CoreId) (s : State)
    (hst : s.anyStaged [Reg.ARR_REPAIR.SPARE_EN, Reg.ARR_REPAIR.BAD_ROW] core.val = true) (ok : Prop) [Decidable ok]
    (hok : ok ↔ s.rd Reg.HND_STAT.HALTED core.val = 1 ∧ s.stg Reg.ARR_REPAIR.BAD_ROW core.val ≤ 16 ∧
      (s.stg Reg.ARR_REPAIR.SPARE_EN core.val = 0 → s.stg Reg.ARR_REPAIR.BAD_ROW core.val = 0) ∧
      (s.stg Reg.ARR_REPAIR.SPARE_EN core.val = 1 → s.rd Reg.ARR_REPAIR.SPARE_GOOD core.val = 1)) :
    exec (.arrRepairCommit core) s = .next (if ok then s.applyAll [Reg.ARR_REPAIR.SPARE_EN, Reg.ARR_REPAIR.BAD_ROW] core.val else
      (s.dropAll [Reg.ARR_REPAIR.SPARE_EN, Reg.ARR_REPAIR.BAD_ROW] core.val).raiseCore core.val 0x01 (Reg.ARR_REPAIR.COMMIT.addr core.val 0)) := by
  simp only [exec, execArrRepairCommit, hst, Bool.not_true, Bool.false_eq_true, if_false, ← hok]
  split <;> rfl
/-- R57: a core's array becomes cold. -/
theorem chill_spec (s : State) (core : Nat) :
    let t := s.chill core
    t.rd Reg.ARR_STAT.COLD core = 1 ∧ t.core core = { s.core core with ramp := none } ∧ (∀ c, c ≠ core → t.core c = s.core c) ∧
      { t with fields := s.fields, cores := s.cores } = s ∧ BytesKept s t (fun _ => False) ∧
      Kept s t (fun k => k = Reg.ARR_STAT.COLD.key core 0) := by
  have hramp : ∃ u : State, (if (s.core core).ramp.isSome then s.modCore core (fun c => { c with ramp := none }) else s) = u ∧
      u.core core = { s.core core with ramp := none } ∧ (∀ c, c ≠ core → u.core c = s.core c) ∧ { u with cores := s.cores } = s := by
    by_cases hr : (s.core core).ramp = none
    · refine ⟨s, if_neg (by simp [hr]), ?_, fun _ _ => rfl, rfl⟩
      rw [← hr]
    · exact ⟨_, if_pos (Option.isSome_iff_ne_none.mpr hr), State.core_setCore .., fun c hc => State.core_setCore_other _ _ _ hc, rfl⟩
  obtain ⟨u, hu, hcore, hothers, hframe⟩ := hramp
  have hf : u.fields = s.fields := (congrArg State.fields hframe :)
  have hm : u.mem = s.mem := (congrArg State.mem hframe :)
  unfold State.chill
  rw [hu]
  have hframe' : { u with fields := s.fields, cores := s.cores } = s :=
    (congrArg (fun x : State => { x with fields := s.fields }) hframe :)
  by_cases hc : u.rd Reg.ARR_STAT.COLD core = 1
  · rw [if_pos hc]
    exact ⟨hc, hcore, hothers, hframe', .of_mem hm _, .of_fields hf _⟩
  · rw [if_neg hc]
    exact ⟨State.rd_wr_same .., hcore, hothers, hframe', .of_mem hm _, (Kept.of_fields hf _).wr_then _ _ _ _ rfl⟩

/-- Settles O17: a cold array, COMMIT of the repair map, and the tally binding from the hand's write on. -/
theorem arrayUpkeepAndTallyBinding : Obligations.ArrayUpkeepAndTallyBinding := by
  refine ⟨fun core s hf hs hst => ?cool, fun core s hst => ?repair, fun core s n v hi => ?bind, fun core s n v hw hfl => ⟨fun x hx => ?apply,
    fun hheld hrun hhalt => ?runOff⟩⟩
  case cool =>
    have he : exec (.arrayCool core) s = .next (s.chill core.val) := congrArg Host.Outcome.next (if_pos ⟨by simp [hf], hs, by simp [hst]⟩)
    exact ⟨_, he, chill_spec s core.val⟩
  case repair =>
    intro en row ok
    have he := arrRepairCommit_spec core s hst ok Iff.rfl
    by_cases hok : ok
    · rw [if_pos hok] at he
      obtain ⟨hun, hrd, hframe, hkept, hbytes⟩ := applyAll_commits [Reg.ARR_REPAIR.SPARE_EN, Reg.ARR_REPAIR.BAD_ROW] core.val 0
        (by simp [Fld.key, Fld.addr, Reg.ARR_REPAIR.SPARE_EN, Reg.ARR_REPAIR.BAD_ROW]) s
      exact ⟨_, he, hun _ (by simp), hun _ (by simp), fun _ => ⟨hrd _ (by simp), hrd _ (by simp), hframe, hkept.mono (fun k hk => by simpa using hk)⟩,
        fun c => absurd hok c, hbytes⟩
    · rw [if_neg hok] at he
      obtain ⟨hun, hraised, hframe, hkept, hbytes⟩ := dropAll_raiseCore s [Reg.ARR_REPAIR.SPARE_EN, Reg.ARR_REPAIR.BAD_ROW] core.val 0 0x01
        (core_addr_lt core (f := Reg.ARR_REPAIR.COMMIT) rfl (j := 0) (by decide))
      exact ⟨_, he, hun _ (by simp), hun _ (by simp), fun c => absurd c hok, fun _ => ⟨hraised, hframe, hkept⟩, hbytes⟩
  case bind =>
    exact ⟨_, congrArg Host.Outcome.next (if_pos hi), State.core_setCore .., fun c hc => State.core_setCore_other _ _ _ hc, rfl, .of_mem rfl _⟩
  case apply =>
    obtain ⟨u, hu, hb⟩ := bindSlot_binds core s n v hw hfl
    have hrun : (u.core core.val).runOff = (s.core core.val).runOff := (congrArg CoreX.runOff hb.only.record :)
    rcases hx with ⟨⟨hhold, hst⟩, hro, hx⟩ | ⟨hhold, rest, hbinds, hx⟩
    · have he : exec (.tlyBindApply core) s = .next (u.modCore core.val (fun c => { c with hold := .none })) := by
        rw [← releaseHold_of_not_runOff (hrun.trans hro)]
        simp [exec, execTlyBindApply, hhold, hst, hu]
      exact ⟨_, he, hb.ends (fun c => { c with hold := .none }) hx (fun _ _ _ => rfl)⟩
    · have he : exec (.tlyBindApply core) s = .next (u.modCore core.val (fun c => { c with binds := rest })) := by
        have hnext : s.bindNext core.val = u.modCore core.val (fun c => { c with binds := rest }) := by
          simp only [State.bindNext, hbinds, hu]
        rw [← hnext]
        refine congrArg Host.Outcome.next ?_
        split
        · next m w hm => exact absurd hm (hhold m w)
        · rfl
      exact ⟨_, he, hb.ends (fun c => { c with binds := rest }) hx (fun _ _ _ => rfl)⟩
  case runOff =>
    obtain ⟨u, hu, hb⟩ := bindSlot_binds core s n v hw hfl
    have hro : (u.core core.val).runOff = true := ((congrArg CoreX.runOff hb.only.record :)).trans hrun
    have hhalt' : u.rd Reg.HND_STAT.HALTED core.val = 0 :=
      (hb.only.kept.rd _ _ _ (not_tallyKey_hand core rfl (by decide) (.inl (by decide)))).trans hhalt
    have he : exec (.tlyBindApply core) s = .next ((u.modCore core.val (fun c => { c with hold := .none, runOff := false })).illegal core.val 0) := by
      simp [exec, execTlyBindApply, hheld.1, hheld.2, hu, State.releaseHold, hro]
    exact ⟨_, he, hb.slot.illegal n hhalt', (illegal_discarded (s := u.modCore core.val _) hhalt' 0 (by decide) (by decide) _).of_tally
      (hb.only.frame :) hb.only.kept⟩

end Sys2Proof.Machine

namespace Sys2Proof.Machine

/-! ## Segments: COMMIT, START, the run from a bell, STOP (R146, R147) -/

theorem State.seg_setSeg_other (s : State) {g k : Nat} (x : SegX) (h : k ≠ g) : (s.setSeg g x).seg k = s.seg k := by
  simp [State.seg, State.setSeg, Store.getD_put_other _ _ _ _ h]

/-! ### A segment stops (R147, R160) -/

/-- One field of two cores. -/
theorem key_ne_of_core_ne {f : Fld} (hb : f.blk = .core) {c d : Nat} (h : c ≠ d) : f.key c 0 ≠ f.key d 0 := by
  simp only [Fld.key, Fld.addr, hb, Block.base]
  omega
/-- Two fields of a core's block at different places, of any two cores. -/
theorem key_ne_of_slot_ne {f g : Fld} (hf : f.blk = .core ∧ f.off < 0x1000 ∧ f.lo < 64) (hg : g.blk = .core ∧ g.off < 0x1000 ∧ g.lo < 64)
    (h : f.off * 64 + f.lo ≠ g.off * 64 + g.lo) (c d : Nat) : f.key c 0 ≠ g.key d 0 := fun e => by
  obtain ⟨hfb, hfo, hfl⟩ := hf
  obtain ⟨hgb, hgo, hgl⟩ := hg
  have e' : f.key c 0 % 0x40000 = g.key d 0 % 0x40000 := by rw [e]
  rw [key_core_mod hfb (by omega) hfl, key_core_mod hgb (by omega) hgl] at e'
  omega

/-- Of the state, only the records of the listed cores and a field of each differ. -/
structure CoresOnly (f : Fld) (l : List Nat) (s t : State) : Prop where
  frame : { t with fields := s.fields, cores := s.cores } = s
  others : ∀ c, c ∉ l → t.core c = s.core c
  kept : Kept s t (fun k => ∃ c ∈ l, k = f.key c 0)

theorem CoresOnly.refl (f : Fld) (l : List Nat) (s : State) : CoresOnly f l s s := ⟨rfl, fun _ _ => rfl, .refl _ _⟩
theorem CoresOnly.trans {f : Fld} {l m : List Nat} {s t u : State} (h : CoresOnly f l s t) (g : CoresOnly f m t u) :
    CoresOnly f (l ++ m) s u where
  frame := (congrArg (fun x : State => { x with fields := s.fields, cores := s.cores }) g.frame).trans h.frame
  others c hc := by
    rw [List.mem_append, not_or] at hc
    exact (g.others c hc.2).trans (h.others c hc.1)
  kept := (h.kept.trans g.kept).mono (fun k hk => by
    rcases hk with ⟨c, hc, e⟩ | ⟨c, hc, e⟩
    · exact ⟨c, List.mem_append_left _ hc, e⟩
    · exact ⟨c, List.mem_append_right _ hc, e⟩)
theorem CoresOnly.trans_same {f : Fld} {l : List Nat} {s t u : State} (h : CoresOnly f l s t) (g : CoresOnly f l t u) : CoresOnly f l s u := by
  obtain ⟨hframe, hothers, hkept⟩ := h.trans g
  have hmem : ∀ c, c ∈ l ++ l ↔ c ∈ l := fun c => by simp
  exact ⟨hframe, fun c hc => hothers c (fun h => hc ((hmem c).mp h)), hkept.mono (fun k ⟨c, hc, e⟩ => ⟨c, (hmem c).mp hc, e⟩)⟩
theorem CoresOnly.ite {f : Fld} {l : List Nat} {s t u : State} {p : Prop} [Decidable p] (h : CoresOnly f l s t) (g : CoresOnly f l s u) :
    CoresOnly f l s (if p then t else u) := by
  split <;> assumption
theorem CoresOnly.wr (f : Fld) (c : Nat) (s : State) (v : Nat) : CoresOnly f [c] s (s.wr f v c) :=
  ⟨rfl, fun _ _ => rfl, (Kept.refl s _).wr_then _ _ _ _ ⟨c, by simp, rfl⟩⟩
theorem CoresOnly.setCore (f : Fld) (c : Nat) (s : State) (x : CoreX) : CoresOnly f [c] s (s.setCore c x) :=
  ⟨rfl, fun d hd => State.core_setCore_other _ _ _ (by simpa using hd), .of_fields rfl _⟩

/-- The record of a core that has been held for `k` cycles (R57). -/
def CoreX.heldBy (x : CoreX) (k : Nat) : CoreX :=
  { x with
    ramp := x.ramp.map (· + k)
    stepEnd := if x.stepEnd = 0 ∧ x.ramp = none then 0 else x.stepEnd + k }

theorem CoreX.heldBy_zero (x : CoreX) : x.heldBy 0 = x := by
  have hs : (if x.stepEnd = 0 ∧ x.ramp = none then 0 else x.stepEnd + 0) = x.stepEnd := by
    split
    · next h => exact h.1.symm
    · rfl
  have hr : x.ramp.map (· + 0) = x.ramp := by simp
  unfold CoreX.heldBy
  rw [hs, hr]
theorem shiftArr_core (s : State) (core n : Nat) : (s.shiftArr core n).core core = (s.core core).heldBy n := by
  unfold State.shiftArr
  by_cases hn : n = 0
  · rw [hn, CoreX.heldBy_zero, if_pos (.inl rfl)]
  by_cases hz : (s.core core).stepEnd = 0 ∧ (s.core core).ramp = none
  · obtain ⟨h1, h2⟩ := hz
    rw [if_pos (.inr ⟨h1, by simp [h2]⟩)]
    have hs : (if (s.core core).stepEnd = 0 ∧ (s.core core).ramp = none then 0 else (s.core core).stepEnd + n) = (s.core core).stepEnd := by
      rw [if_pos ⟨h1, h2⟩, h1]
    have hr : (s.core core).ramp.map (· + n) = (s.core core).ramp := by simp [h2]
    unfold CoreX.heldBy
    rw [hs, hr]
  · rw [if_neg (by simpa [hn] using hz), State.core_setCore]
    unfold CoreX.heldBy
    rw [if_neg hz]
theorem shiftArr_only (s : State) (core n : Nat) : CoresOnly Reg.FUR_STAT.HOLDCYC [core] s (s.shiftArr core n) :=
  .ite (.refl _ _ s) (.setCore ..)

/-- Cycles for which a core has been held so far are counted. -/
theorem countHeld_only (s : State) (core : Nat) : CoresOnly Reg.FUR_STAT.HOLDCYC [core] s (s.countHeld core) :=
  .ite (.refl _ _ s) ((CoresOnly.wr ..).trans_same (shiftArr_only _ core _))
theorem countHeld_core (s : State) (core : Nat) : (s.countHeld core).core core = (s.core core).heldBy (s.heldCycles core 0) ∧
    (s.countHeld core).rd Reg.FUR_STAT.HOLDCYC core = if s.heldCycles core 0 = 0 then s.rd Reg.FUR_STAT.HOLDCYC core
      else (s.rd Reg.FUR_STAT.HOLDCYC core + s.heldCycles core 0) % 2 ^ Reg.FUR_STAT.HOLDCYC.width := by
  unfold State.countHeld
  dsimp only
  by_cases h : s.heldCycles core 0 = 0
  · rw [if_pos h, if_pos h, h, CoreX.heldBy_zero]
    exact ⟨rfl, rfl⟩
  · rw [if_neg h, if_neg h]
    refine ⟨(shiftArr_core _ core _).trans rfl, ?_⟩
    have hrd : ∀ (t : State) n, (t.shiftArr core n).rd Reg.FUR_STAT.HOLDCYC core = t.rd Reg.FUR_STAT.HOLDCYC core := fun t n => by
      unfold State.shiftArr
      dsimp only
      split <;> rfl
    rw [hrd]
    exact State.rd_wr_same ..
/-- The cycles for which a core has been held are read from its own registers and records. -/
theorem heldCycles_congr {s t : State} {c : Nat} (h : ∀ f ∈ [Reg.FUR_POS.IN_SEG, Reg.FUR_POS.SEG, Reg.FUR_STAT.CATCH], t.rd f c = s.rd f c)
    (hc : t.core c = s.core c) (hs : t.segs = s.segs) (hr : t.crofts = s.crofts) : t.heldCycles c 0 = s.heldCycles c 0 := by
  simp only [List.forall_mem_cons] at h
  obtain ⟨h1, h2, h3, -⟩ := h
  have hseg : ∀ g, t.seg g = s.seg g := fun g => by rw [State.seg, State.seg, hs]
  have hcyc : ∀ c k, t.cycle c k = s.cycle c k := fun c k => by rw [State.cycle, State.cycle, State.croft, State.croft, hr]
  simp only [State.heldCycles, State.segOf, State.heldFor, h1, h2, h3, hc, hseg, hcyc]

theorem foldl_countHeld_only (l : List Nat) (s : State) : CoresOnly Reg.FUR_STAT.HOLDCYC l s (l.foldl State.countHeld s) := by
  induction l generalizing s with
  | nil => exact .refl _ _ s
  | cons c l ih => exact (countHeld_only s c).trans (ih (s.countHeld c))
/-- R57, R160: every core of the list is counted once, each for its own hold. -/
theorem foldl_countHeld_core (l : List Nat) (hd : l.Nodup) (s : State) : ∀ c ∈ l,
    (l.foldl State.countHeld s).core c = (s.core c).heldBy (s.heldCycles c 0) ∧
      (l.foldl State.countHeld s).rd Reg.FUR_STAT.HOLDCYC c = if s.heldCycles c 0 = 0 then s.rd Reg.FUR_STAT.HOLDCYC c
        else (s.rd Reg.FUR_STAT.HOLDCYC c + s.heldCycles c 0) % 2 ^ Reg.FUR_STAT.HOLDCYC.width := by
  induction l generalizing s with
  | nil => exact fun c hc => absurd hc List.not_mem_nil
  | cons d l ih =>
    obtain ⟨hnot, hd'⟩ := List.nodup_cons.mp hd
    intro c hc
    rw [List.foldl_cons]
    rcases List.mem_cons.mp hc with rfl | hc
    · have hrest := foldl_countHeld_only l (s.countHeld c)
      obtain ⟨hcore, hrd⟩ := countHeld_core s c
      refine ⟨(hrest.others c hnot).trans hcore, (hrest.kept.rd _ _ _ ?_).trans hrd⟩
      rintro ⟨d, hd, e⟩
      exact key_ne_of_core_ne rfl (fun e' : c = d => hnot (e' ▸ hd)) e
    · have hne : c ≠ d := fun e => hnot (e ▸ hc)
      have hfirst := countHeld_only s d
      have hcore : (s.countHeld d).core c = s.core c := hfirst.others c (by simpa using hne)
      have hcyc : (s.countHeld d).rd Reg.FUR_STAT.HOLDCYC c = s.rd Reg.FUR_STAT.HOLDCYC c := hfirst.kept.rd _ _ _ (by
        simpa using key_ne_of_core_ne rfl hne)
      have hheld : (s.countHeld d).heldCycles c 0 = s.heldCycles c 0 := by
        refine heldCycles_congr (fun f hf => hfirst.kept.rd _ _ _ ?_) hcore (congrArg State.segs hfirst.frame :) (congrArg State.crofts hfirst.frame :)
        have hf' : (f.blk = .core ∧ f.off < 0x1000 ∧ f.lo < 64) ∧ f.off * 64 + f.lo ≠ Reg.FUR_STAT.HOLDCYC.off * 64 + Reg.FUR_STAT.HOLDCYC.lo := by
          revert f
          decide
        rintro ⟨e, -, he⟩
        exact key_ne_of_slot_ne hf'.1 (by decide) hf'.2 c e he
      obtain ⟨h1, h2⟩ := ih hd' (s.countHeld d) c hc
      rw [hcore, hheld] at h1
      rw [hcyc, hheld] at h2
      exact ⟨h1, h2⟩

/-! ### Catch buffers empty -/

theorem emptyCatch_only (s : State) (c : Nat) : CoresOnly Reg.FUR_STAT.CATCH [c] s (s.emptyCatch c) := by
  have hw : CoresOnly Reg.FUR_STAT.CATCH [c] s (if s.rd Reg.FUR_STAT.CATCH c = 0 then s else s.wr Reg.FUR_STAT.CATCH 0 c) :=
    .ite (.refl _ _ s) (.wr ..)
  exact .ite (hw.trans_same (.setCore ..)) hw
theorem emptyCatch_core (s : State) (c : Nat) :
    (s.emptyCatch c).core c = { s.core c with catchUp := none } ∧ (s.emptyCatch c).rd Reg.FUR_STAT.CATCH c = 0 := by
  have hw : ∃ u : State, (if s.rd Reg.FUR_STAT.CATCH c = 0 then s else s.wr Reg.FUR_STAT.CATCH 0 c) = u ∧ u.core c = s.core c ∧
      u.rd Reg.FUR_STAT.CATCH c = 0 := by
    split
    · next h => exact ⟨s, rfl, rfl, h⟩
    · exact ⟨_, rfl, rfl, State.rd_wr_same ..⟩
  obtain ⟨u, hu, hcore, hrd⟩ := hw
  unfold State.emptyCatch
  rw [hu]
  by_cases h : (s.core c).catchUp = none
  · rw [if_neg (by simp [hcore, h]), hcore, ← h]
    exact ⟨rfl, hrd⟩
  · rw [if_pos (by rw [hcore]; exact Option.isSome_iff_ne_none.mpr h), State.modCore_def, State.core_setCore, hcore]
    exact ⟨rfl, hrd⟩
theorem foldl_emptyCatch_only (l : List Nat) (s : State) : CoresOnly Reg.FUR_STAT.CATCH l s (l.foldl State.emptyCatch s) := by
  induction l generalizing s with
  | nil => exact .refl _ _ s
  | cons c l ih => exact (emptyCatch_only s c).trans (ih (s.emptyCatch c))
theorem foldl_emptyCatch_core (l : List Nat) (s : State) : ∀ c ∈ l,
    (l.foldl State.emptyCatch s).core c = { s.core c with catchUp := none } ∧ (l.foldl State.emptyCatch s).rd Reg.FUR_STAT.CATCH c = 0 := by
  induction l generalizing s with
  | nil => exact fun c hc => absurd hc List.not_mem_nil
  | cons d l ih =>
    intro c hc
    rw [List.foldl_cons]
    by_cases hcl : c ∈ l
    · obtain ⟨h1, h2⟩ := ih (s.emptyCatch d) c hcl
      refine ⟨h1.trans ?_, h2⟩
      by_cases hcd : c = d
      · rw [hcd, (emptyCatch_core s d).1]
      · rw [(emptyCatch_only s d).others c (by simpa using hcd)]
    · have hcd : c = d := (List.mem_cons.mp hc).resolve_right hcl
      have hrest := foldl_emptyCatch_only l (s.emptyCatch d)
      obtain ⟨h1, h2⟩ := emptyCatch_core s d
      rw [hcd] at hcl ⊢
      refine ⟨(hrest.others d hcl).trans h1, (hrest.kept.rd _ _ _ ?_).trans h2⟩
      rintro ⟨e, he, hk⟩
      exact key_ne_of_core_ne rfl (fun e' : d = e => hcl (e' ▸ he)) hk

/-! ### The stop of a segment -/

/-- A register below the cores' blocks is no core's field. -/
theorem not_core_key {f : Fld} (hb : f.blk = .core) {l : List Nat} {k : Nat} (h : k < 0x200010000000 * 64) : ¬∃ c ∈ l, k = f.key c 0 := by
  rintro ⟨c, -, rfl⟩
  simp only [Fld.key, Fld.addr, hb, Block.base] at h
  omega
/-- The fields of a segment's registers lie below the cores' blocks. -/
theorem fur_key_low {f : Fld} (hb : f.blk = .fur) (ho : f.off < 0x20) (hs : f.stride = 0x20) (hl : f.lo < 64) (g : SegId) :
    f.key 0 g.val < 0x200010000000 * 64 := by
  have := g.isLt
  simp only [Fld.key, Fld.addr, hb, hs, Block.base]
  omega
theorem segCores_congr {s t : State} {g : Nat} (h : ∀ f ∈ [Reg.FUR_SEG.ORIGIN, Reg.FUR_SEG.CROWS, Reg.FUR_SEG.CCOLS], t.rd f 0 g = s.rd f 0 g) :
    t.segCores g = s.segCores g := by
  simp only [List.forall_mem_cons] at h
  obtain ⟨h1, h2, h3, -⟩ := h
  rw [State.segCores, State.segCores, h1, h2, h3]

/-- The cycles of the hold in force are counted, where there is one. -/
def State.countHolds (s : State) (g : Nat) : State := if (s.seg g).held.isSome then (s.segCores g).foldl State.countHeld s else s
/-- What the segment itself keeps of its run. -/
def State.endRun (t : State) (g : Nat) (s : State) : State :=
  (t.wr Reg.FUR_RUN.RUN 0 0 g).modSeg g (fun x =>
    { x with
      startReq := none, stopReq := none, ring := [], holds := [], held := none, heldDone := [], wave := []
      ended := some ((s.segCrofts g).map (fun c => (c, s.furCycles g c 0))) })
theorem stopSeg_eq (s : State) (g : Nat) : s.stopSeg g =
    (((s.countHolds g).endRun g s).segCores g).foldl State.emptyCatch ((s.countHolds g).endRun g s) := rfl

theorem countHolds_only (s : State) (g : Nat) : CoresOnly Reg.FUR_STAT.HOLDCYC (s.segCores g) s (s.countHolds g) :=
  .ite (foldl_countHeld_only ..) (.refl _ _ s)
theorem countHolds_of_none {s : State} {g : Nat} (h : (s.seg g).held = none) : s.countHolds g = s := if_neg (by simp [h])
theorem countHolds_of_some {s : State} {g : Nat} (h : (s.seg g).held ≠ none) : s.countHolds g = (s.segCores g).foldl State.countHeld s :=
  if_pos (Option.isSome_iff_ne_none.mpr h)

/-- The cores that empty their catch buffers are those that were counted. -/
theorem segCores_endRun (s : State) (g : SegId) : ((s.countHolds g.val).endRun g.val s).segCores g.val = s.segCores g.val := by
  refine segCores_congr (fun f hf => ?_)
  have hf' : f.blk = .fur ∧ f.off = 0 ∧ f.stride = 0x20 ∧ f.lo < 64 := by revert f; decide
  obtain ⟨hb, ho, hs, hl⟩ := hf'
  have hne : f.key 0 g.val ≠ Reg.FUR_RUN.RUN.key 0 g.val := Fld.key_ne hb hl (by decide) (.inl (by
    simp only [ho, hs, Reg.FUR_RUN.RUN]
    omega))
  exact (State.rd_wr_other _ _ _ _ _ _ _ _ hne).trans ((countHolds_only s g.val).kept.rd _ _ _
    (not_core_key rfl (fur_key_low hb (by omega) hs hl g)))

/-- R147: what a stop leaves as it was. -/
theorem stopSeg_frame (s : State) (g : SegId) :
    { s.stopSeg g.val with fields := s.fields, segs := s.segs, cores := s.cores } = s ∧
      (∀ c, c ∉ s.segCores g.val → (s.stopSeg g.val).core c = s.core c) ∧
      (∀ k, k ≠ g.val → (s.stopSeg g.val).seg k = s.seg k) ∧ BytesKept s (s.stopSeg g.val) (fun _ => False) ∧
      Kept s (s.stopSeg g.val) (fun k => k = Reg.FUR_RUN.RUN.key 0 g.val ∨ ∃ c ∈ s.segCores g.val, k = Reg.FUR_STAT.CATCH.key c 0 ∨
        ((s.seg g.val).held ≠ none ∧ k = Reg.FUR_STAT.HOLDCYC.key c 0)) := by
  have hcatch := foldl_emptyCatch_only (s.segCores g.val) ((s.countHolds g.val).endRun g.val s)
  have hcount := countHolds_only s g.val
  have hk0 : Kept s (s.countHolds g.val) (fun k => ∃ c ∈ s.segCores g.val, (s.seg g.val).held ≠ none ∧ k = Reg.FUR_STAT.HOLDCYC.key c 0) := by
    by_cases h : (s.seg g.val).held = none
    · rw [countHolds_of_none h]
      exact .refl _ _
    · exact hcount.kept.mono (fun k ⟨c, hc, e⟩ => ⟨c, hc, h, e⟩)
  rw [stopSeg_eq, segCores_endRun]
  generalize (s.segCores g.val).foldl State.emptyCatch ((s.countHolds g.val).endRun g.val s) = t at hcatch
  generalize s.countHolds g.val = u at hcatch hcount hk0
  have hframe : { t with fields := s.fields, segs := s.segs, cores := s.cores } = s :=
    (congrArg (fun x : State => { x with fields := s.fields, segs := s.segs, cores := s.cores }) hcatch.frame).trans
      (congrArg (fun x : State => { x with segs := s.segs }) hcount.frame)
  have hseg : t.segs = (u.endRun g.val s).segs := (congrArg State.segs hcatch.frame :)
  have hsegs : u.segs = s.segs := (congrArg State.segs hcount.frame :)
  refine ⟨hframe, fun c hc => (hcatch.others c hc).trans (hcount.others c hc), fun k hk => ?_, .of_mem (congrArg State.mem hframe :) _, ?_⟩
  · rw [State.seg, hseg, ← State.seg, State.endRun, State.modSeg, State.seg_setSeg_other _ _ hk, State.seg, State.seg]
    rw [← hsegs]
    rfl
  · refine ((hk0.trans (Kept.wr u Reg.FUR_RUN.RUN 0 0 g.val)).trans (t := u.endRun g.val s) hcatch.kept).mono (fun k hk => ?_)
    rcases hk with (⟨c, hc, h, e⟩ | e) | ⟨c, hc, e⟩
    · exact .inr ⟨c, hc, .inr ⟨h, e⟩⟩
    · exact .inl e
    · exact .inr ⟨c, hc, .inl e⟩

/-- R147: the segment that stops. -/
theorem stopSeg_seg (s : State) (g : SegId) : (s.stopSeg g.val).rd Reg.FUR_RUN.RUN 0 g.val = 0 ∧
    (s.stopSeg g.val).seg g.val = { s.seg g.val with
      startReq := none, stopReq := none, ring := [], holds := [], held := none, heldDone := [], wave := []
      ended := some ((s.segCrofts g.val).map (fun c => (c, s.furCycles g.val c 0))) } := by
  have hcatch := foldl_emptyCatch_only (s.segCores g.val) ((s.countHolds g.val).endRun g.val s)
  have hsegs : (s.countHolds g.val).seg g.val = s.seg g.val := by
    rw [State.seg, State.seg, (congrArg State.segs (countHolds_only s g.val).frame :)]
  rw [stopSeg_eq, segCores_endRun]
  generalize (s.segCores g.val).foldl State.emptyCatch ((s.countHolds g.val).endRun g.val s) = t at hcatch
  have hseg : t.segs = ((s.countHolds g.val).endRun g.val s).segs := (congrArg State.segs hcatch.frame :)
  refine ⟨(hcatch.kept.rd _ _ _ (not_core_key rfl (fur_key_low rfl (by decide) rfl (by decide) g))).trans (State.rd_wr_same ..), ?_⟩
  rw [State.seg, hseg, ← State.seg, State.endRun, State.modSeg, State.seg_setSeg, ← hsegs]
  rfl
/-- R147, R160: its cores. -/
theorem stopSeg_cores (s : State) (g : SegId) : ∀ c ∈ s.segCores g.val,
    (s.stopSeg g.val).rd Reg.FUR_STAT.CATCH c = 0 ∧
      (s.stopSeg g.val).core c = { (s.countHolds g.val).core c with catchUp := none } ∧
      (s.stopSeg g.val).rd Reg.FUR_STAT.HOLDCYC c = (s.countHolds g.val).rd Reg.FUR_STAT.HOLDCYC c := by
  intro c hc
  rw [stopSeg_eq, segCores_endRun]
  obtain ⟨hcore, hcatch⟩ := foldl_emptyCatch_core (s.segCores g.val) ((s.countHolds g.val).endRun g.val s) c hc
  refine ⟨hcatch, hcore, ((foldl_emptyCatch_only (s.segCores g.val) ((s.countHolds g.val).endRun g.val s)).kept.rd _ _ _ ?_).trans ?_⟩
  · rintro ⟨d, -, e⟩
    exact key_ne_of_slot_ne (by decide) (by decide) (by decide) c d e
  · refine State.rd_wr_other _ _ _ _ _ _ _ _ (fun e => ?_)
    have := fur_key_low (f := Reg.FUR_RUN.RUN) rfl (by decide) rfl (by decide) g
    rw [← e] at this
    simp only [Fld.key, Fld.addr, Reg.FUR_STAT.HOLDCYC, Block.base] at this
    omega

/-! ### COMMIT (R146) -/

/-- The fields of FUR_POS. -/
def posFlds : List Fld := [Reg.FUR_POS.POS, Reg.FUR_POS.IN_SEG, Reg.FUR_POS.SEG]
/-- Where they are kept. -/
def posKey (k : Nat) : Prop := ∃ c, ∃ f ∈ posFlds, k = f.key c 0
/-- Only positions differ. -/
structure PosOnly (s t : State) : Prop where
  frame : { t with fields := s.fields } = s
  kept : Kept s t posKey

theorem PosOnly.refl (s : State) : PosOnly s s := ⟨rfl, .refl _ _⟩
theorem PosOnly.trans {s t u : State} (h : PosOnly s t) (g : PosOnly t u) : PosOnly s u where
  frame := (congrArg (fun x : State => { x with fields := s.fields }) g.frame).trans h.frame
  kept := (h.kept.trans g.kept).mono (fun _ hk => hk.elim id id)
theorem PosOnly.foldl {f : State → Nat → State} (h : ∀ s c, PosOnly s (f s c)) (l : List Nat) (s : State) : PosOnly s (l.foldl f s) := by
  induction l generalizing s with
  | nil => exact .refl s
  | cons c l ih => exact (h s c).trans (ih (f s c))
/-- The position of one core. -/
def State.setPos (t : State) (c p i g : Nat) : State := ((t.wr Reg.FUR_POS.POS p c).wr Reg.FUR_POS.IN_SEG i c).wr Reg.FUR_POS.SEG g c
theorem setPos_only (t : State) (c p i g : Nat) : PosOnly t (t.setPos c p i g) where
  frame := rfl
  kept := (((Kept.refl t posKey).wr_then _ _ _ _ ⟨c, _, by simp [posFlds], rfl⟩).wr_then _ _ _ _ ⟨c, _, by simp [posFlds], rfl⟩).wr_then _ _ _ _
    ⟨c, _, by simp [posFlds], rfl⟩
theorem clearPos_only (s : State) (g : Nat) : PosOnly s (s.clearPos g) := .foldl (fun t c => setPos_only t c 0 0 0) _ s
theorem writePos_only (s : State) (g : Nat) : PosOnly s (s.writePos g) := .foldl (fun t c => setPos_only t c _ 1 g) _ s

/-- The core has learnt that it lies in segment `g`. -/
def InSegment (t : State) (g c : Nat) : Prop := t.rd Reg.FUR_POS.IN_SEG c = 1 ∧ t.rd Reg.FUR_POS.SEG c = g
theorem InSegment.segOf {t : State} {g c : Nat} (h : InSegment t g c) : t.segOf c = some g := by
  obtain ⟨h1, h2⟩ := h
  rw [State.segOf, if_pos h1, h2]
theorem setPos_inSegment {t : State} {g c d p : Nat} (hg : g < 256) (h : c = d ∨ InSegment t g c) : InSegment (t.setPos d p 1 g) g c := by
  have h1 : Reg.FUR_POS.IN_SEG.key c 0 ≠ Reg.FUR_POS.SEG.key d 0 := key_ne_of_slot_ne (by decide) (by decide) (by decide) c d
  by_cases hcd : c = d
  · subst hcd
    refine ⟨(State.rd_wr_other _ _ _ _ _ _ _ _ h1).trans (State.rd_wr_same ..), ?_⟩
    exact (State.rd_wr_same ..).trans (Nat.mod_eq_of_lt hg)
  · obtain ⟨hin, hseg⟩ := h.resolve_left hcd
    have h2 : Reg.FUR_POS.IN_SEG.key c 0 ≠ Reg.FUR_POS.POS.key d 0 := key_ne_of_slot_ne (by decide) (by decide) (by decide) c d
    have h3 : Reg.FUR_POS.SEG.key c 0 ≠ Reg.FUR_POS.POS.key d 0 := key_ne_of_slot_ne (by decide) (by decide) (by decide) c d
    have h4 : Reg.FUR_POS.SEG.key c 0 ≠ Reg.FUR_POS.IN_SEG.key d 0 := key_ne_of_slot_ne (by decide) (by decide) (by decide) c d
    have h5 : Reg.FUR_POS.IN_SEG.key c 0 ≠ Reg.FUR_POS.IN_SEG.key d 0 := key_ne_of_core_ne rfl hcd
    have h6 : Reg.FUR_POS.SEG.key c 0 ≠ Reg.FUR_POS.SEG.key d 0 := key_ne_of_core_ne rfl hcd
    unfold InSegment State.setPos
    rw [State.rd_wr_other _ _ _ _ _ _ _ _ h1, State.rd_wr_other _ _ _ _ _ _ _ _ h5, State.rd_wr_other _ _ _ _ _ _ _ _ h2,
      State.rd_wr_other _ _ _ _ _ _ _ _ h6, State.rd_wr_other _ _ _ _ _ _ _ _ h4, State.rd_wr_other _ _ _ _ _ _ _ _ h3]
    exact ⟨hin, hseg⟩
theorem foldl_setPos_inSegment {g : Nat} (hg : g < 256) (p : Nat → Nat) (l : List Nat) (s : State) (c : Nat) (h : c ∈ l ∨ InSegment s g c) :
    InSegment (l.foldl (fun t d => t.setPos d (p d) 1 g) s) g c := by
  induction l generalizing s with
  | nil => exact h.resolve_left List.not_mem_nil
  | cons d l ih =>
    refine ih _ ?_
    rcases h with h | h
    · rcases List.mem_cons.mp h with e | h
      · exact .inr (setPos_inSegment hg (.inl e))
      · exact .inl h
    · exact .inr (setPos_inSegment hg (.inr h))
theorem writePos_inSegment (s : State) (g : SegId) : ∀ c ∈ s.segCores g.val, InSegment (s.writePos g.val) g.val c :=
  fun c hc => foldl_setPos_inSegment g.isLt _ _ s c (.inl hc)

/-- LAP_MIN is read from the crofts and one operating point. -/
theorem lapMin_congr {s t : State} {o : Nat} (hc : t.crofts = s.crofts) (ho : t.opOf o = s.opOf o) (r c : Nat) : t.lapMin o r c = s.lapMin o r c := by
  have hslack : ∀ c d, t.slack c d = s.slack c d := fun c d => by rw [State.slack, State.slack, State.croft, State.croft, hc]
  have hcross : ∀ a b p, t.crossBeats a b p = s.crossBeats a b p := fun a b p => by rw [State.crossBeats, State.crossBeats, hslack]
  have hruns : ∀ p l, t.runBeats p l = s.runBeats p l := fun p l => by
    induction l with
    | nil => rfl
    | cons a l ih =>
      cases l with
      | nil => rfl
      | cons b l => rw [State.runBeats, State.runBeats, hcross, ih]
  simp only [State.lapMin, ho, hruns, hcross]

/-- The staged fields of a segment (R146). -/
def segFlds : List Fld := [Reg.FUR_SEG.ORIGIN, Reg.FUR_SEG.CROWS, Reg.FUR_SEG.CCOLS, Reg.FUR_SEG.ENCL, Reg.FUR_SEG.EN, Reg.FUR_SEG.LAP]
theorem segFlds_place : ∀ f ∈ segFlds, f.blk = .fur ∧ f.off = 0 ∧ f.stride = 0x20 ∧ f.lo < 64 := by decide
theorem segFlds_low {f : Fld} (hf : f ∈ segFlds) (g : SegId) : f.key 0 g.val < 0x200010000000 * 64 := by
  obtain ⟨hb, ho, hs, hl⟩ := segFlds_place f hf
  exact fur_key_low hb (by omega) hs hl g
theorem segFlds_nodup (g : Nat) : (segFlds.map (fun f => f.key 0 g)).Nodup := by
  simp [segFlds, Fld.key, Fld.addr, Reg.FUR_SEG.ORIGIN, Reg.FUR_SEG.CROWS, Reg.FUR_SEG.CCOLS, Reg.FUR_SEG.ENCL, Reg.FUR_SEG.EN,
    Reg.FUR_SEG.LAP]
theorem not_posKey_low {k : Nat} (h : k < 0x200010000000 * 64) : ¬posKey k := by
  rintro ⟨c, f, hf, rfl⟩
  have hall : ∀ f ∈ posFlds, f.blk = .core := by decide
  have hb := hall f hf
  simp only [Fld.key, Fld.addr, hb, Block.base] at h
  omega

/-- A segment in use lies in the lattice (R146). -/
theorem origin_lt_of_segAgrees {s : State} {g : Nat} (h : s.segAgrees g = true) (he : s.stg Reg.FUR_SEG.EN (j := g) ≠ 0) :
    s.stg Reg.FUR_SEG.ORIGIN (j := g) < 256 := by
  simp only [State.segAgrees, Bool.and_eq_true, Bool.or_eq_true, decide_eq_true_eq] at h
  obtain ⟨⟨⟨⟨⟨⟨-, hen⟩, hrow⟩, -⟩, -⟩, -⟩, -⟩ := h
  obtain ⟨hr, -⟩ := hen.resolve_left he
  omega

/-- Once the fields are in force LAP_MIN is known, and the cores of a segment in use learn their positions. -/
def State.placeSeg (s : State) (g : Nat) : State :=
  let u := (s.wr Reg.FUR_LAPMIN.LAP_MIN (s.lapMin (s.rd Reg.FUR_SEG.ORIGIN (j := g)) (s.rd Reg.FUR_SEG.CROWS (j := g))
    (s.rd Reg.FUR_SEG.CCOLS (j := g))) (j := g)).wr Reg.FUR_LAPMIN.VALID 1 (j := g)
  if u.rd Reg.FUR_SEG.EN (j := g) = 1 then u.writePos g else u
theorem commitSeg_of_agrees {s : State} {g : Nat} (h : s.segAgrees g = true) :
    s.commitSeg g = ((if s.rd Reg.FUR_SEG.EN (j := g) = 1 then s.clearPos g else s).applyAll segFlds (j := g)).placeSeg g := if_pos h

/-- The fields of FUR_LAPMIN. -/
def lapFlds : List Fld := [Reg.FUR_LAPMIN.VALID, Reg.FUR_LAPMIN.LAP_MIN]
theorem lapFlds_place : ∀ d ∈ lapFlds, d.blk = .fur ∧ d.off = 8 ∧ d.stride = 0x20 ∧ d.lo < 64 := by decide
/-- An operating point lies behind the segments' registers. -/
theorem holdOp_key_ne {d : Fld} (hd : d ∈ lapFlds) (g : SegId) (h : Nat) : Reg.HOLD_OP.CUR.key 0 h ≠ d.key 0 g.val := by
  have hg := g.isLt
  obtain ⟨hb, ho, hs, hl⟩ := lapFlds_place d hd
  simp only [Fld.key, Fld.addr, hb, ho, hs, Reg.HOLD_OP.CUR, Block.base]
  omega

theorem placeSeg_spec {s t : State} (g : SegId) (ht : s.placeSeg g.val = t)
    (ho : s.rd Reg.FUR_SEG.EN (j := g.val) = 1 → s.rd Reg.FUR_SEG.ORIGIN (j := g.val) < 256) :
    (∀ f ∈ segFlds, t.rd f (j := g.val) = s.rd f (j := g.val)) ∧ t.rd Reg.FUR_LAPMIN.VALID (j := g.val) = 1 ∧
      t.rd Reg.FUR_LAPMIN.LAP_MIN (j := g.val) = t.lapMin (t.rd Reg.FUR_SEG.ORIGIN (j := g.val)) (t.rd Reg.FUR_SEG.CROWS (j := g.val))
        (t.rd Reg.FUR_SEG.CCOLS (j := g.val)) % 2 ^ Reg.FUR_LAPMIN.LAP_MIN.width ∧
      (t.rd Reg.FUR_SEG.EN (j := g.val) = 1 → ∀ c ∈ t.segCores g.val, t.segOf c = some g.val) ∧ { t with fields := s.fields } = s ∧
      Kept s t (fun k => (∃ f ∈ lapFlds, k = f.key 0 g.val) ∨ posKey k) := by
  obtain ⟨u, hu⟩ : ∃ u, (s.wr Reg.FUR_LAPMIN.LAP_MIN (s.lapMin (s.rd Reg.FUR_SEG.ORIGIN (j := g.val)) (s.rd Reg.FUR_SEG.CROWS (j := g.val))
    (s.rd Reg.FUR_SEG.CCOLS (j := g.val))) (j := g.val)).wr Reg.FUR_LAPMIN.VALID 1 (j := g.val) = u := ⟨_, rfl⟩
  have hpos : PosOnly u t := by
    rw [← ht, State.placeSeg, hu]
    split
    · exact writePos_only u g.val
    · exact .refl u
  have hku : Kept s u (fun k => ∃ f ∈ lapFlds, k = f.key 0 g.val) := by
    rw [← hu]
    exact ((Kept.refl s _).wr_then _ _ _ _ ⟨_, by simp [lapFlds], rfl⟩).wr_then _ _ _ _ ⟨_, by simp [lapFlds], rfl⟩
  have hlow : ∀ f i j, f.key i j < 0x200010000000 * 64 → t.rd f i j = u.rd f i j := fun f i j h => hpos.kept.rd f i j (not_posKey_low h)
  have hseg : ∀ f ∈ segFlds, t.rd f (j := g.val) = s.rd f (j := g.val) := fun f hf => by
    rw [hlow f _ _ (segFlds_low hf g)]
    refine hku.rd f _ _ ?_
    rintro ⟨d, hd, e⟩
    obtain ⟨hb, ho, hs, hl⟩ := segFlds_place f hf
    obtain ⟨hdb, hdo, hds, hdl⟩ := lapFlds_place d hd
    exact Fld.key_ne (hb.trans hdb.symm) hl hdl (.inl (by rw [ho, hs, hdo, hds]; omega)) e
  have hframe : { u with fields := s.fields } = s := by rw [← hu]; rfl
  have hframe' : { t with fields := s.fields } = s := (congrArg (fun x : State => { x with fields := s.fields }) hpos.frame).trans hframe
  refine ⟨hseg, ?valid, ?lapMin, fun hen => ?placed, hframe', (hku.trans hpos.kept)⟩
  case valid =>
    rw [hlow _ _ _ (fur_key_low rfl (by decide) rfl (by decide) g), ← hu]
    exact State.rd_wr_same ..
  case lapMin =>
    have hne : Reg.FUR_LAPMIN.LAP_MIN.key 0 g.val ≠ Reg.FUR_LAPMIN.VALID.key 0 g.val := Fld.key_ne rfl (by decide) (by decide) (.inr (by decide))
    have hlap : u.rd Reg.FUR_LAPMIN.LAP_MIN 0 g.val = s.lapMin (s.rd Reg.FUR_SEG.ORIGIN (j := g.val)) (s.rd Reg.FUR_SEG.CROWS (j := g.val))
        (s.rd Reg.FUR_SEG.CCOLS (j := g.val)) % 2 ^ Reg.FUR_LAPMIN.LAP_MIN.width := by
      rw [← hu, State.rd_wr_other _ _ _ _ _ _ _ _ hne, State.rd_wr_same]
    have hop : t.opOf (s.rd Reg.FUR_SEG.ORIGIN (j := g.val)) = s.opOf (s.rd Reg.FUR_SEG.ORIGIN (j := g.val)) := by
      have hu' : ∀ h, u.rd Reg.HOLD_OP.CUR 0 h = s.rd Reg.HOLD_OP.CUR 0 h := fun h =>
        hku.rd _ _ _ (fun ⟨d, hd, e⟩ => holdOp_key_ne hd g h e)
      rw [State.opOf, State.opOf, ← hu']
      by_cases hen : s.rd Reg.FUR_SEG.EN (j := g.val) = 1
      · have := ho hen
        refine hlow _ _ _ ?_
        simp only [Fld.key, Fld.addr, Reg.HOLD_OP.CUR, Block.base, holdingOf]
        omega
      · have hen' : u.rd Reg.FUR_SEG.EN (j := g.val) ≠ 1 := by
          rw [← hlow _ _ _ (segFlds_low (by simp [segFlds]) g), hseg _ (by simp [segFlds])]
          exact hen
        have htu : t = u := by
          rw [← ht, State.placeSeg, hu]
          exact if_neg hen'
        rw [htu]
    have hcrofts : t.crofts = s.crofts := (congrArg State.crofts hframe' :)
    rw [hlow _ _ _ (fur_key_low rfl (by decide) rfl (by decide) g), hlap, hseg _ (by simp [segFlds]), hseg _ (by simp [segFlds]),
      hseg _ (by simp [segFlds]), lapMin_congr hcrofts hop]
  case placed =>
    have hen' : u.rd Reg.FUR_SEG.EN (j := g.val) = 1 := (hlow _ _ _ (segFlds_low (by simp [segFlds]) g)).symm.trans hen
    have hw : t = u.writePos g.val := by
      rw [← ht, State.placeSeg, hu]
      exact if_pos hen'
    have hcores : t.segCores g.val = u.segCores g.val := segCores_congr (fun f hf => hlow f _ _ (segFlds_low (by revert f; decide) g))
    intro c hc
    rw [hcores] at hc
    rw [hw]
    exact (writePos_inSegment u g c hc).segOf

/-- R146, R13: COMMIT of a segment whose staged fields agree. -/
theorem commitSeg_spec {s t : State} (g : SegId) (ha : s.segAgrees g.val = true) (ht : s.commitSeg g.val = t) :
    (∀ f ∈ segFlds, t.isStaged f (j := g.val) = false ∧
      t.rd f (j := g.val) = if s.isStaged f (j := g.val) then s.stg f (j := g.val) % 2 ^ f.width else s.rd f (j := g.val)) ∧
      t.rd Reg.FUR_LAPMIN.VALID (j := g.val) = 1 ∧
      t.rd Reg.FUR_LAPMIN.LAP_MIN (j := g.val) = t.lapMin (t.rd Reg.FUR_SEG.ORIGIN (j := g.val)) (t.rd Reg.FUR_SEG.CROWS (j := g.val))
        (t.rd Reg.FUR_SEG.CCOLS (j := g.val)) % 2 ^ Reg.FUR_LAPMIN.LAP_MIN.width ∧
      (t.rd Reg.FUR_SEG.EN (j := g.val) = 1 → ∀ c ∈ t.segCores g.val, t.segOf c = some g.val) ∧
      { t with fields := s.fields, stagedF := s.stagedF } = s ∧
      Kept s t (fun k => (∃ f ∈ segFlds, k = f.key 0 g.val) ∨ (∃ f ∈ lapFlds, k = f.key 0 g.val) ∨ posKey k) := by
  rw [commitSeg_of_agrees ha] at ht
  have hclear : PosOnly s (if s.rd Reg.FUR_SEG.EN (j := g.val) = 1 then s.clearPos g.val else s) := by
    split
    · exact clearPos_only s g.val
    · exact .refl s
  generalize (if s.rd Reg.FUR_SEG.EN (j := g.val) = 1 then s.clearPos g.val else s) = u at hclear ht
  have hstaged : u.stagedF = s.stagedF := (congrArg State.stagedF hclear.frame :)
  have hrdu : ∀ f ∈ segFlds, u.rd f 0 g.val = s.rd f 0 g.val := fun f hf => hclear.kept.rd f _ _ (not_posKey_low (segFlds_low hf g))
  obtain ⟨hframe, hun, hrd, hkept, -⟩ := applyAll_spec segFlds 0 g.val (segFlds_nodup g.val) u
  generalize u.applyAll segFlds 0 g.val = v at ht hframe hun hrd hkept
  -- the value a field takes
  have hval : ∀ f ∈ segFlds, v.rd f 0 g.val = if s.isStaged f 0 g.val then s.stg f 0 g.val % 2 ^ f.width else s.rd f 0 g.val := fun f hf => by
    have hst : u.isStaged f 0 g.val = s.isStaged f 0 g.val := by rw [State.isStaged, State.isStaged, hstaged]
    rw [hrd f hf, hst, State.stg, State.stg, hstaged, hrdu f hf]
  have horigin : v.rd Reg.FUR_SEG.EN 0 g.val = 1 → v.rd Reg.FUR_SEG.ORIGIN 0 g.val < 256 := fun hen => by
    have hin : s.stg Reg.FUR_SEG.EN 0 g.val ≠ 0 := fun h0 => by
      have := rd_mod_of_applied (hval Reg.FUR_SEG.EN (by simp [segFlds]))
      rw [hen, h0] at this
      exact absurd this (by decide)
    have ho := origin_lt_of_segAgrees ha hin
    have := rd_mod_of_applied (hval Reg.FUR_SEG.ORIGIN (by simp [segFlds]))
    rw [hval _ (by simp [segFlds])]
    split
    · exact Nat.lt_of_le_of_lt (Nat.mod_le _ _) ho
    · next hs =>
      have hn : Store.get s.stagedF (Reg.FUR_SEG.ORIGIN.key 0 g.val) = none := by simpa [State.isStaged] using hs
      rwa [State.stg, hn] at ho
  obtain ⟨hseg, hvalid, hlap, hplaced, hframe', hkept'⟩ := placeSeg_spec g ht horigin
  refine ⟨fun f hf => ⟨?_, (hseg f hf).trans (hval f hf)⟩, hvalid, hlap, hplaced, ?_, ?_⟩
  · have hsv : t.stagedF = v.stagedF := (congrArg State.stagedF hframe' :)
    rw [State.isStaged, hsv]
    exact hun f hf
  · exact ((congrArg (fun x : State => { x with fields := s.fields, stagedF := s.stagedF }) hframe').trans
      (congrArg (fun x : State => { x with fields := s.fields, stagedF := s.stagedF }) hframe)).trans
      (congrArg (fun x : State => { x with fields := s.fields, stagedF := s.stagedF }) hclear.frame)
  · refine ((hclear.kept.trans hkept).trans hkept').mono (fun k hk => ?_)
    rcases hk with (hk | hk) | hk | hk
    · exact .inr (.inr hk)
    · exact .inl hk
    · exact .inr (.inl hk)
    · exact .inr (.inr hk)

/-! ### The run from a bell (R147) -/

/-- The fields that a run starts with. -/
theorem segmentRun_spec {s t : State} (g : SegId) {x : SegX}
    (ht : ((((s.setSeg g.val x).wr Reg.FUR_RUN.RUN 1 (j := g.val)).wr Reg.FUR_RUN.TICK0 s.now (j := g.val)).wr Reg.FUR_HOLD.HOLDS 0 (j := g.val)).wr
      Reg.FUR_HOLD.LAGS 0 (j := g.val) = t) :
    t.rd Reg.FUR_RUN.RUN (j := g.val) = 1 ∧ t.rd Reg.FUR_RUN.TICK0 (j := g.val) = s.now % 2 ^ Reg.FUR_RUN.TICK0.width ∧
      t.rd Reg.FUR_HOLD.HOLDS (j := g.val) = 0 ∧ t.rd Reg.FUR_HOLD.LAGS (j := g.val) = 0 ∧ t.seg g.val = x ∧
      (∀ k, k ≠ g.val → t.seg k = s.seg k) ∧ { t with fields := s.fields, segs := s.segs } = s ∧ BytesKept s t (fun _ => False) ∧
      Kept s t (fun k => k ∈ [Reg.FUR_RUN.RUN.key 0 g.val, Reg.FUR_RUN.TICK0.key 0 g.val, Reg.FUR_HOLD.HOLDS.key 0 g.val,
        Reg.FUR_HOLD.LAGS.key 0 g.val]) := by
  have h1 : Reg.FUR_RUN.RUN.key 0 g.val ≠ Reg.FUR_RUN.TICK0.key 0 g.val := Fld.key_ne rfl (by decide) (by decide) (.inr (by decide))
  have h2 : ∀ f ∈ [Reg.FUR_RUN.RUN, Reg.FUR_RUN.TICK0], ∀ h ∈ [Reg.FUR_HOLD.HOLDS, Reg.FUR_HOLD.LAGS], f.key 0 g.val ≠ h.key 0 g.val :=
    fun f hf h hh => by
      have hf' : f.blk = .fur ∧ f.off = 0x10 ∧ f.stride = 0x20 ∧ f.lo < 64 := by revert f; decide
      have hh' : h.blk = .fur ∧ h.off = 0x18 ∧ h.stride = 0x20 ∧ h.lo < 64 := by revert h; decide
      obtain ⟨hb, ho, hs, hl⟩ := hf'
      obtain ⟨hhb, hho, hhs, hhl⟩ := hh'
      exact Fld.key_ne (hb.trans hhb.symm) hl hhl (.inl (by rw [ho, hs, hho, hhs]; omega))
  have h3 : Reg.FUR_HOLD.HOLDS.key 0 g.val ≠ Reg.FUR_HOLD.LAGS.key 0 g.val := Fld.key_ne rfl (by decide) (by decide) (.inr (by decide))
  subst ht
  refine ⟨?_, ?_, ?_, State.rd_wr_same .., State.seg_setSeg .., fun k hk => State.seg_setSeg_other _ _ hk, rfl, .of_mem rfl _, ?_⟩
  · rw [State.rd_wr_other _ _ _ _ _ _ _ _ (h2 _ (by simp) _ (by simp)), State.rd_wr_other _ _ _ _ _ _ _ _ (h2 _ (by simp) _ (by simp)),
      State.rd_wr_other _ _ _ _ _ _ _ _ h1, State.rd_wr_same]
    rfl
  · rw [State.rd_wr_other _ _ _ _ _ _ _ _ (h2 _ (by simp) _ (by simp)), State.rd_wr_other _ _ _ _ _ _ _ _ (h2 _ (by simp) _ (by simp)),
      State.rd_wr_same]
  · rw [State.rd_wr_other _ _ _ _ _ _ _ _ h3, State.rd_wr_same]
    rfl
  · have hk : Kept s (s.setSeg g.val x) (fun k => k ∈ [Reg.FUR_RUN.RUN.key 0 g.val, Reg.FUR_RUN.TICK0.key 0 g.val,
        Reg.FUR_HOLD.HOLDS.key 0 g.val, Reg.FUR_HOLD.LAGS.key 0 g.val]) := .of_fields rfl _
    exact (((hk.wr_then _ _ _ _ (by simp)).wr_then _ _ _ _ (by simp)).wr_then _ _ _ _ (by simp)).wr_then _ _ _ _ (by simp)

theorem atBell_of {s : State} {m : Nat} {o : Option Nat} (h : o = some m) (hm : m ≤ s.now) (hb : s.now % 1024 = 0) : s.atBell o = true := by
  simp [State.atBell, h, hm, hb]

/-! ### The statement -/

/-- Settles O20: COMMIT of a segment, START and STOP as they are written, and each at its bell. -/
theorem furrowSegments : Obligations.FurrowSegments := by
  refine ⟨fun seg s => ?commit, fun seg s he hr => ?start, fun seg s hr => ?stop, fun seg s m hm hle hb => ?run, fun seg s m hm hle hb => ?stopped⟩
  case commit =>
    intro g fs hst
    have he : exec (.furSegCommit seg) s = .next (s.commitSeg seg.val) := congrArg Host.Outcome.next (if_pos hst)
    refine ⟨fun ha => ?_, fun ha => ?_⟩
    · obtain ⟨hval, hvalid, hlap, hplaced, hframe, hkept⟩ := commitSeg_spec seg ha rfl
      refine ⟨_, he, hval, hvalid, hlap, hplaced, hframe, .of_mem (congrArg State.mem hframe :) _, hkept.mono (fun k hk => ?_)⟩
      rcases hk with ⟨f, hf, e⟩ | ⟨f, hf, e⟩ | hk
      · exact .inl ⟨f, List.mem_cons_of_mem _ (List.mem_cons_of_mem _ hf), e⟩
      · refine .inl ⟨f, ?_, e⟩
        simp only [lapFlds, List.mem_cons, List.not_mem_nil, or_false] at hf
        rcases hf with rfl | rfl
        · simp
        · simp
      · exact .inr hk
    · have ha' : s.segAgrees seg.val = false := ha
      have hc : s.commitSeg seg.val = (s.dropAll segFlds (j := seg.val)).mismatch (Reg.FUR_SEG.COMMIT.addr 0 seg.val) skSteading 0 := if_neg (by simp [ha'])
      have hd : Reg.FUR_SEG.COMMIT.addr 0 seg.val < 2 ^ 64 := by
        have := seg.isLt
        simp only [Fld.addr, Reg.FUR_SEG.COMMIT, Block.base]
        omega
      obtain ⟨hun, hraised, hframe, hkept, hbytes⟩ := dropAll_raiseAt s segFlds 0 seg.val 0x01 skSteading 0
        (s.dropAll segFlds (j := seg.val)).now 0 (Nat.le_refl 16) hd
      exact ⟨_, he.trans (congrArg Host.Outcome.next hc), hun, hraised, hframe, hbytes, hkept⟩
  case start =>
    exact ⟨_, congrArg Host.Outcome.next (if_pos ⟨he, hr⟩), State.seg_setSeg .., fun k hk => State.seg_setSeg_other _ _ hk, rfl, .of_mem rfl _⟩
  case stop =>
    exact ⟨_, congrArg Host.Outcome.next (if_pos hr), State.seg_setSeg .., fun k hk => State.seg_setSeg_other _ _ hk, rfl, .of_mem rfl _⟩
  case run => exact ⟨_, if_pos (atBell_of hm hle hb), segmentRun_spec seg rfl⟩
  case stopped =>
    have he : exec (.segmentStop seg) s = .next (s.stopSeg seg.val) := congrArg Host.Outcome.next (if_pos (atBell_of hm hle hb))
    obtain ⟨hframe, hothers, hsegs, hbytes, hkept⟩ := stopSeg_frame s seg
    obtain ⟨hrun, hseg⟩ := stopSeg_seg s seg
    refine ⟨_, he, hrun, hseg, fun c hc => ?_, fun hheld hd c hc => ?_, hothers, hsegs, hframe, hbytes, hkept⟩
    · obtain ⟨hcatch, hcore, -⟩ := stopSeg_cores s seg c hc
      refine ⟨hcatch, fun hnone => ?_⟩
      rw [hcore, countHolds_of_none hnone]
    · obtain ⟨-, hcore, hcyc⟩ := stopSeg_cores s seg c hc
      obtain ⟨hx, hn⟩ := foldl_countHeld_core (s.segCores seg.val) hd s c hc
      rw [countHolds_of_some hheld] at hcore hcyc
      rw [hcore, hcyc, hx, hn]
      exact ⟨rfl, rfl⟩

end Sys2Proof.Machine

namespace Sys2Proof.Machine

/-! ## Register writes that start nothing (R12) -/

/-- A register of a present unit whose fields start nothing takes its values, and that is all. -/
theorem regWrite_of_quiet {s : State} {who : Requester} {a v : Nat} {b : Block} {i off : Nat} (h : locate a = some (b, i))
    (ha : a = b.base i + off) (hp : s.unitPresent b i = true) (hb : b ≠ .core ∧ b ≠ .floor)
    (hq : ∀ p ∈ fieldsAtOff b off, ∀ t : State, t.trigger who v (p.1, i, p.2) = t) :
    s.regWrite who a v = s.writeFlds who i v ((fieldsAtOff b off).filter (fun p => decide (p.1.acc ≠ .ro))) := by
  have hfold : ∀ (l : List (Fld × Nat)) (t : State), (∀ p ∈ l, ∀ t : State, t.trigger who v (p.1, i, p.2) = t) →
      (l.map (fun p => (p.1, i, p.2))).foldl (fun t p => t.trigger who v p) t = t := fun l => by
    induction l with
    | nil => exact fun t _ => rfl
    | cons p l ih =>
      intro t hl
      rw [List.map_cons, List.foldl_cons, hl p List.mem_cons_self]
      exact ih t (fun q hq => hl q (List.mem_cons_of_mem _ hq))
  rw [← State.writeReg_of_locate who v h ha hp]
  simp only [State.regWrite, h, hp, hb.1, hb.2, Bool.not_true, decide_false, Bool.false_and, Bool.or_self, Bool.false_eq_true, if_false]
  rw [fieldsAt_of_locate h ha]
  exact hfold _ _ hq

theorem bootTrigger_of_not_command {f : Fld}
    (h : f ∉ [Reg.GNT_CTL.OP, Reg.LC_CMD.OP, Reg.BOOT_LOAD_CTL.GO, Reg.BOOT_LOAD_CTL.RESTART, Reg.ATT_CTL.GO]) (s : State) (x : Nat) :
    s.bootTrigger f x = s := by
  simp only [List.mem_cons, List.not_mem_nil, or_false, not_or] at h
  obtain ⟨h1, h2, h3, h4, h5⟩ := h
  simp [State.bootTrigger, h1, h2, h3, h4, h5]
theorem trigger_boot {f : Fld} (hb : f.blk = .boot)
    (h : f ∉ [Reg.GNT_CTL.OP, Reg.LC_CMD.OP, Reg.BOOT_LOAD_CTL.GO, Reg.BOOT_LOAD_CTL.RESTART, Reg.ATT_CTL.GO]) (s : State) (who : Requester)
    (v i j : Nat) : s.trigger who v (f, i, j) = s := by
  unfold State.trigger
  dsimp only
  split
  · rfl
  · rw [hb]
    exact bootTrigger_of_not_command h s _
/-- No command bit lies among the registers of the power domain. -/
theorem trigger_pwr {f : Fld} (hb : f.blk = .pwr) (s : State) (who : Requester) (v i j : Nat) : s.trigger who v (f, i, j) = s := by
  have ne (g : Fld) (hg : g.blk ≠ .pwr) : f ≠ g := fun e => hg (e ▸ hb)
  unfold State.trigger
  dsimp only
  split
  · rfl
  · rw [hb]
    simp [State.steadingTrigger, ne Reg.FALLOW_EDIT.SET (by decide), ne Reg.EVR_CTL.EN (by decide), ne Reg.EVR_CI.CI (by decide),
      ne Reg.LED_SEL.SEQ (by decide), ne Reg.YEP_WATCH_B.EN (by decide), ne Reg.GLN_CTL.HOLD (by decide), ne Reg.FUR_SEG.COMMIT (by decide),
      ne Reg.FUR_RUN.START (by decide), ne Reg.FUR_RUN.STOP (by decide), ne Reg.REF_CTL.SELECT (by decide), ne Reg.YEP_CTL.SPACE_COMMIT (by decide),
      ne Reg.YK_GO.COMMIT (by decide), ne Reg.BIST_CMD.GO (by decide), ne Reg.FLT_SPARE.GO (by decide)]

/-- A hand writes registers of cores only. -/
theorem mayWrite_hand_other (s : State) (c : CoreId) {f : Fld} (i j v : Nat) (hb : f.blk ≠ .core) : s.mayWrite (.hand c) f i j v = false := by
  simp [State.mayWrite, hb]
theorem mayWrite_nonce (s : State) {who : Requester} (hw : ∀ c, who ≠ .hand c) (i j v : Nat) :
    s.mayWrite who Reg.ATT_NONCE.NONCE i j v = true := by
  cases who with
  | steading => rfl
  | companion => rfl
  | hand c => exact absurd rfl (hw c)

/-! ### The registers of the statement -/

theorem nonce_fields : ∀ k : Fin 6, fieldsAtOff .boot (0x400 + 8 * k.val) = [(Reg.ATT_NONCE.NONCE, k.val)] := by decide +kernel
theorem locate_nonce : ∀ k : Fin 6, locate (Block.boot.base 0 + (0x400 + 8 * k.val)) = some (.boot, 0) := by decide +kernel
theorem nonce_addr : ∀ k : Fin 6, (BitVec.ofNat 48 (Reg.ATT_NONCE.NONCE.addr 0 k.val)).toNat = Block.boot.base 0 + (0x400 + 8 * k.val) := by
  decide +kernel

/-- A write of ATT_NONCE_k is a write of its one field, and starts nothing. -/
theorem regWrite_nonce (s : State) (who : Requester) (k : Fin 6) (v : Nat) :
    s.regWrite who (BitVec.ofNat 48 (Reg.ATT_NONCE.NONCE.addr 0 k.val)).toNat v = s.writeFld who Reg.ATT_NONCE.NONCE 0 k.val (v % 2 ^ 64) := by
  have hq : ∀ p ∈ fieldsAtOff .boot (0x400 + 8 * k.val), ∀ t : State, t.trigger who v (p.1, 0, p.2) = t := fun p hp t => by
    rw [nonce_fields k, List.mem_singleton] at hp
    rw [hp]
    exact trigger_boot (f := Reg.ATT_NONCE.NONCE) rfl (by decide) t who v 0 k.val
  rw [nonce_addr k, regWrite_of_quiet (locate_nonce k) rfl rfl (by decide) hq, nonce_fields k]
  have hb : bits v 0 64 = v % 2 ^ 64 := by simp [bits]
  rw [← hb]
  rfl
/-- R12: a read-write register. -/
theorem registerWrite_nonce (s : State) {who : Requester} (hw : ∀ c, who ≠ .hand c) (k : Fin 6) (value : Word) :
    ∃ t, exec (.registerWrite who (BitVec.ofNat 48 (Reg.ATT_NONCE.NONCE.addr 0 k.val)) value) s = .next t ∧
      t.rd Reg.ATT_NONCE.NONCE 0 k.val = value.toNat ∧ OnlyFields s t [Reg.ATT_NONCE.NONCE.key 0 k.val] := by
  have hv : value.toNat % 2 ^ 64 = value.toNat := Nat.mod_eq_of_lt value.isLt
  have he : s.regWrite who (BitVec.ofNat 48 (Reg.ATT_NONCE.NONCE.addr 0 k.val)).toNat value.toNat =
      s.wr Reg.ATT_NONCE.NONCE value.toNat 0 k.val := by
    rw [regWrite_nonce, hv]
    exact State.writeFld_rw (by decide) (mayWrite_nonce s hw ..) rfl
  exact ⟨_, congrArg Host.Outcome.next he, (State.rd_wr_same ..).trans hv, .wr ..⟩
theorem registerWrite_nonce_hand (s : State) (c : CoreId) (k : Fin 6) (value : Word) :
    exec (.registerWrite (.hand c) (BitVec.ofNat 48 (Reg.ATT_NONCE.NONCE.addr 0 k.val)) value) s = .next s :=
  congrArg Host.Outcome.next ((regWrite_nonce s _ k _).trans (State.writeFld_of_not_mayWrite (mayWrite_hand_other s c _ _ _ (by decide))))

/-- R12: a register of read-only fields. -/
theorem registerWrite_serial (s : State) (who : Requester) (value : Word) :
    exec (.registerWrite who (BitVec.ofNat 48 (Reg.BOOT_ID.SERIAL.addr 0 0)) value) s = .next s := by
  have hf : fieldsAtOff .boot 0x28 = [(Reg.BOOT_ID.SERIAL, 0)] := by decide +kernel
  have ha : (BitVec.ofNat 48 (Reg.BOOT_ID.SERIAL.addr 0 0)).toNat = Block.boot.base 0 + 0x28 := by decide
  have hl : locate (Block.boot.base 0 + 0x28) = some (.boot, 0) := by decide
  have hq : ∀ p ∈ fieldsAtOff .boot 0x28, ∀ t : State, t.trigger who value.toNat (p.1, 0, p.2) = t := fun p hp t => by
    rw [hf, List.mem_singleton] at hp
    rw [hp]
    exact trigger_boot (f := Reg.BOOT_ID.SERIAL) rfl (by decide) t who _ 0 0
  refine congrArg Host.Outcome.next ?_
  rw [ha, regWrite_of_quiet hl rfl rfl (by decide) hq, hf]
  rfl
/-- R12: a register whose one field that takes a write is cleared by a 1. -/
theorem registerWrite_trip (s : State) (value : Word) :
    ∃ t, exec (.registerWrite .companion (BitVec.ofNat 48 (Reg.PWR_TRIP.VALID.addr 0 0)) value) s = .next t ∧
      t.rd Reg.PWR_TRIP.VALID = (if value.getLsbD 9 then 0 else s.rd Reg.PWR_TRIP.VALID) ∧ OnlyFields s t [Reg.PWR_TRIP.VALID.key 0 0] := by
  have hf : (fieldsAtOff .pwr 8).filter (fun p => decide (p.1.acc ≠ .ro)) = [(Reg.PWR_TRIP.VALID, 0)] := by decide +kernel
  have hblk : ∀ p ∈ fieldsAtOff .pwr 8, p.1.blk = .pwr := by decide +kernel
  have ha : (BitVec.ofNat 48 (Reg.PWR_TRIP.VALID.addr 0 0)).toNat = Block.pwr.base 0 + 8 := by decide
  have hl : locate (Block.pwr.base 0 + 8) = some (.pwr, 0) := by decide
  have hmay : ∀ v, s.mayWrite .companion Reg.PWR_TRIP.VALID 0 0 v = true := fun _ => rfl
  have hbit : bits value.toNat 9 1 % 2 ^ 1 = 1 ↔ value.getLsbD 9 = true := by
    simp [bits, BitVec.getLsbD, Nat.testBit_eq_decide_div_mod_eq]
  have he : s.regWrite .companion (BitVec.ofNat 48 (Reg.PWR_TRIP.VALID.addr 0 0)).toNat value.toNat =
      if value.getLsbD 9 then s.wr Reg.PWR_TRIP.VALID 0 else s := by
    rw [ha, regWrite_of_quiet hl rfl rfl (by decide) (fun p hp t => trigger_pwr (hblk p hp) t _ _ _ _), hf]
    refine (State.writeFld_w1c (f := Reg.PWR_TRIP.VALID) (by decide) (hmay _) rfl).trans ?_
    exact if_congr hbit rfl rfl
  refine ⟨_, congrArg Host.Outcome.next he, ?_⟩
  split
  · exact ⟨State.rd_wr_same .., .wr ..⟩
  · exact ⟨rfl, .refl _ _⟩

end Sys2Proof.Machine

namespace Sys2Proof.Machine

/-! ## The window: answers, requests that wait, reads (R397) -/

/-- A command that ends in an answer: it is the last message handed to the link; beside the endpoint's record nothing differs. -/
theorem answer_spec {i : Instr} {s u : State} {opc tag a status : Nat} {data : List Byte}
    (h : exec i s = .next (u.winAnswer opc tag a status data)) :
    ∃ t, exec i s = .next t ∧ t.yosal = { u.yosal with tx := u.yosal.tx ++ [⟨opc, tag, a, status, 0, 0, 0, data⟩] } ∧
      { t with yosal := u.yosal } = u ∧ BytesKept u t (fun _ => False) := ⟨_, h, rfl, rfl, .of_mem rfl _⟩

/-- A line of zeros. -/
def zeroLine : List Byte := List.replicate 64 0

/-! ### Requests that wait -/

/-- The requests behind one that waits wait with it. -/
theorem winDrain_waits {s : State} {q : WinReq} {l : List WinReq} (hq : s.yosal.winq = q :: l) (hw : s.winWaits q = true) : s.winDrain = s := by
  have hfold : ∀ (l a : List WinReq) (u : State), a ≠ [] → l.foldl (fun (a : State × List WinReq) r =>
      if !a.2.isEmpty || a.1.winWaits r then (a.1, a.2 ++ [r]) else (a.1.winServe r, [])) (u, a) = (u, a ++ l) := fun l => by
    induction l with
    | nil => exact fun a u _ => by rw [List.append_nil]; rfl
    | cons r l ih =>
      intro a u ha
      have hne : (!a.isEmpty) = true := by simpa using ha
      rw [List.foldl_cons]
      dsimp only
      rw [hne, Bool.true_or, if_pos rfl, ih _ u (by simp), List.append_assoc]
      rfl
  have hw' : (s.modYosal (fun y => { y with winq := [] })).winWaits q = true := hw
  unfold State.winDrain
  rw [if_neg (by simp [hq]), hq, List.foldl_cons]
  dsimp only
  rw [hw', Bool.or_true, if_pos rfl, hfold _ _ _ (by simp)]
  have he : ([] ++ [q]) ++ l = s.yosal.winq := hq.symm
  dsimp only
  rw [he]
  rfl
/-- R397: a request that waits, or comes behind one that does, is kept in its place. -/
theorem winTake_waits {s : State} {r q : WinReq} {l : List WinReq} (hup : s.yUp = true) (hq : s.yosal.winq ++ [r] = q :: l)
    (hw : s.winWaits q = true) : s.winTake r = { s with yosal := { s.yosal with winq := s.yosal.winq ++ [r] } } := by
  have hd : (s.modYosal (fun y => { y with winq := y.winq ++ [r] })).winDrain = s.modYosal (fun y => { y with winq := y.winq ++ [r] }) :=
    winDrain_waits hq hw
  have hne : ¬(s.yosal.winq.isEmpty && !s.winWaits r) = true := fun c => by
    simp only [Bool.and_eq_true, List.isEmpty_iff, Bool.not_eq_true'] at c
    obtain ⟨he, hr⟩ := c
    rw [he, List.nil_append, List.cons_eq_cons] at hq
    rw [hq.1, hw] at hr
    exact absurd hr (by decide)
  rw [State.winTake, if_neg (by simp [hup]), if_neg hne, hd]
  rfl
/-- R397: a request that finds none before it and need not wait is performed. -/
theorem winTake_serves {s : State} {r : WinReq} (hup : s.yUp = true) (hq : s.yosal.winq = []) (hw : s.winWaits r = false) :
    s.winTake r = s.winServe r := by
  rw [State.winTake, if_neg (by simp [hup]), if_pos (by simp [hq, hw])]

/-! ### Refusals -/

/-- R34: nothing lies at the address. -/
theorem winUnmapped_spec (s : State) (opc tag : Nat) {a : Nat} (ha : a < 2 ^ 48) :
    let t := s.winUnmapped opc tag a
    t.yosal = { s.yosal with tx := s.yosal.tx ++ [⟨opc, tag, a, 0x02, 0, 0, 0, if opc = 0x23 then zeroLine else []⟩] } ∧
      Raised s t 16 0x02 5 0 a ∧ { t with fields := s.fields, events := s.events, yosal := s.yosal } = s ∧ BytesKept s t (fun _ => False) ∧
      Kept s t lostKey := by
  obtain ⟨hraised, hframe, hkept⟩ := raiseAt_spec s (ring := 16) 0x02 skSteading 0 s.now 0 (detail := a) (Nat.le_refl _)
    (Nat.lt_of_lt_of_le ha (by decide))
  have hy : (s.raiseSt 0x02 a).yosal = s.yosal := (congrArg State.yosal hframe :)
  refine ⟨?_, hraised, congrArg (fun x : State => { x with yosal := s.yosal }) hframe, .of_mem (congrArg State.mem hframe :) _, hkept⟩
  rw [← hy]
  rfl
/-- R135: a running or locked scratchpad. -/
theorem padRefused_spec (s : State) (opc tag a core : Nat) {off : Nat} (ho : off < 2 ^ 18) :
    let t := (s.padDenied .companion core off).winRefused opc tag a 0x43
    t.yosal = { s.yosal with tx := s.yosal.tx ++ [⟨opc, tag, a, 0x43, 0, 0, 0, if opc = 0x23 then zeroLine else []⟩] } ∧
      Raised s t ((s.enclOfCore core).getD 16) 0x43 0 core (off + 2 * 2 ^ 18) ∧
      { t with fields := s.fields, events := s.events, yosal := s.yosal } = s := by
  obtain ⟨hraised, hframe, -⟩ := raiseCore_spec s core 0x43 (detail := off + 2 * 2 ^ 18) (by omega)
  have hy : (s.padDenied .companion core off).yosal = s.yosal := (congrArg State.yosal hframe :)
  refine ⟨?_, hraised, congrArg (fun x : State => { x with yosal := s.yosal }) hframe⟩
  rw [← hy]
  rfl

/-! ### Reads of a scratchpad without latent errors (R123) -/

/-- The code words met are those of the offsets, and each offset's is met. -/
theorem wordsOf_spec (s : State) (core : Nat) (offs : List (Nat × Nat)) :
    (∀ q ∈ s.wordsOf core offs, ∃ p ∈ offs, q.1 = s.codeWord core p.1) ∧
      ∀ p ∈ offs, ∃ q ∈ s.wordsOf core offs, q.1 = s.codeWord core p.1 := by
  have hfold : ∀ (l acc : List (Nat × Nat)), let r := l.foldl (fun acc p =>
      let cw := s.codeWord core p.1
      if acc.any (fun q => q.1 = cw) then acc else acc ++ [(cw, p.2)]) acc
      (∀ q ∈ acc, q ∈ r) ∧ (∀ q ∈ r, q ∈ acc ∨ ∃ p ∈ l, q.1 = s.codeWord core p.1) ∧ ∀ p ∈ l, ∃ q ∈ r, q.1 = s.codeWord core p.1 := fun l => by
    induction l with
    | nil => exact fun acc => ⟨fun _ h => h, fun _ h => .inl h, fun _ h => absurd h List.not_mem_nil⟩
    | cons p l ih =>
      intro acc
      rw [List.foldl_cons]
      dsimp only
      by_cases hany : (acc.any (fun q => decide (q.1 = s.codeWord core p.1))) = true
      · rw [if_pos hany]
        obtain ⟨h1, h2, h3⟩ := ih acc
        refine ⟨h1, fun q hq => (h2 q hq).imp_right (fun ⟨r, hr, e⟩ => ⟨r, List.mem_cons_of_mem _ hr, e⟩), fun r hr => ?_⟩
        rcases List.mem_cons.mp hr with rfl | hr
        · obtain ⟨q, hq, e⟩ := List.any_eq_true.mp hany
          exact ⟨q, h1 q hq, by simpa using e⟩
        · exact h3 r hr
      · rw [if_neg hany]
        obtain ⟨h1, h2, h3⟩ := ih (acc ++ [(s.codeWord core p.1, p.2)])
        refine ⟨fun q hq => h1 q (List.mem_append_left _ hq), fun q hq => ?_, fun r hr => ?_⟩
        · rcases h2 q hq with hq | ⟨r, hr, e⟩
          · rcases List.mem_append.mp hq with hq | hq
            · exact .inl hq
            · rw [List.mem_singleton.mp hq]
              exact .inr ⟨p, List.mem_cons_self, rfl⟩
          · exact .inr ⟨r, List.mem_cons_of_mem _ hr, e⟩
        · rcases List.mem_cons.mp hr with rfl | hr
          · exact ⟨_, h1 _ (List.mem_append_right _ (List.mem_singleton.mpr rfl)), rfl⟩
          · exact h3 r hr
  obtain ⟨-, h2, h3⟩ := hfold offs []
  exact ⟨fun q hq => (h2 q hq).resolve_left List.not_mem_nil, h3⟩

/-- No offset lies in a code word with a latent error. -/
def Clean (s : State) (core : Nat) (offs : List Nat) : Prop := ∀ o ∈ offs, s.wordErr core (s.codeWord core o) = 0

theorem lostWords_of_clean {s : State} {core : Nat} {offs : List Nat} (h : Clean s core offs) (part : Bool) : s.lostWords core offs part = [] := by
  rw [State.lostWords, List.filter_eq_nil_iff]
  intro cw hcw
  rw [List.mem_eraseDups] at hcw
  obtain ⟨o, ho, rfl⟩ := List.mem_map.mp hcw
  simp [h o ho]
/-- A read of a clean scratchpad returns its bytes and changes nothing. -/
theorem spRead_of_clean {s : State} {core off n : Nat} (slot : Nat) (h : Clean s core ((List.range n).map (fun k => off + k))) :
    s.spRead core off n slot = (s.spBytes core off n, s) := by
  have htouch : ∀ l : List (Nat × Nat), (∀ q ∈ l, s.wordErr core q.1 = 0) → l.foldl (fun t p => t.touch core p.1 p.2) s = s := fun l => by
    induction l with
    | nil => exact fun _ => rfl
    | cons q l ih =>
      intro hl
      have hq : s.touch core q.1 q.2 = s := by simp [State.touch, hl q List.mem_cons_self]
      rw [List.foldl_cons, hq]
      exact ih (fun r hr => hl r (List.mem_cons_of_mem _ hr))
  have hwords := htouch (s.wordsOf core ((List.range n).map (fun k => (off + k, slot)))) (fun q hq => by
    obtain ⟨p, hp, e⟩ := (wordsOf_spec s core _).1 q hq
    obtain ⟨k, hk, rfl⟩ := List.mem_map.mp hp
    rw [e]
    exact h _ (List.mem_map.mpr ⟨k, hk, rfl⟩))
  unfold State.spRead State.spReadAt
  rw [hwords, State.spBytes, List.map_map]
  refine congrArg (fun l => (l, s)) (List.map_congr_left (fun k hk => ?_))
  have hk0 : s.wordErr core (s.codeWord core (off + k)) = 0 := h _ (List.mem_map.mpr ⟨k, hk, rfl⟩)
  simp [hk0]

/-! ### What an address reaches -/

theorem reach_scratchpad {s : State} {a core off : Nat} (h : s.reach a = .scratchpad core off) : off = a % 2 ^ 18 := by
  unfold State.reach at h
  split at h
  · cases h
  · split at h
    · dsimp only at h
      split at h
      · cases h
      · cases h
        rfl
    · split at h
      · cases h
      · cases h
/-- An element of a filtered range has as many before it as its place says. -/
theorem length_filter_range {p : Nat → Bool} {n i t : Nat} (h : ((List.range n).filter p)[i]? = some t) : ((List.range t).filter p).length = i := by
  induction n with
  | zero => simp at h
  | succ n ih =>
    rw [List.range_succ, List.filter_append, List.getElem?_append] at h
    split at h
    · exact ih h
    · next hi =>
      by_cases hp : p n = true
      · simp only [List.filter_cons, hp, if_true, List.filter_nil, List.getElem?_singleton] at h
        split at h
        · cases h
          omega
        · cases h
      · simp [hp] at h
/-- The Tabko whose span an address lies in, and the place in the span (R33, R286). -/
theorem reach_slow {s : State} {a t off : Nat} (h : s.reach a = .slow t off) : s.spanBase t = a / spanBytes * spanBytes ∧ off = a - s.spanBase t := by
  unfold State.reach at h
  split at h
  · cases h
  · split at h
    · dsimp only at h
      split at h
      · cases h
      · cases h
    · split at h
      · next u hu =>
        cases h
        refine ⟨?_, rfl⟩
        rw [State.spanBase, State.spanIndex, length_filter_range hu]
        rfl
      · cases h

/-! ### STATUS of a core and of its scratchpad (R35, R135) -/

theorem coreStatus_fallow {s : State} {core : Nat} (h : s.fallow core = true) (pad : Bool) : s.coreStatus core pad = 0x21 := by
  simp [State.coreStatus, h]
theorem coreStatus_denied {s : State} {core : Nat} (h : s.fallow core = false)
    (hd : s.rd Reg.HND_STAT.HALTED core = 0 ∨ s.rd Reg.SP_STAT.LOCKED core = 1 ∨ s.rd Reg.SP_STAT.WIPE_BUSY core = 1) :
    s.coreStatus core true = 0x43 := by
  have hp : s.padPermits .companion core = false := by
    rcases hd with hd | hd | hd
    · simp [State.padPermits, hd]
    · simp [State.padPermits, hd]
    · simp [State.padPermits, hd]
  simp [State.coreStatus, h, hp]
theorem coreStatus_permitted {s : State} {core : Nat} (h : s.fallow core = false) (hh : s.rd Reg.HND_STAT.HALTED core = 1)
    (hl : s.rd Reg.SP_STAT.LOCKED core = 0) (hw : s.rd Reg.SP_STAT.WIPE_BUSY core = 0) : s.coreStatus core true = 0 := by
  simp [State.coreStatus, State.padPermits, h, hh, hl, hw]

/-! ### Window reads -/

theorem winShut_of_open {s : State} (hp : s.pins.stHold = false) (he : s.rd Reg.YEP_WIN.EN ≠ 0) (opc tag a : Nat) : s.winShut opc tag a = none := by
  simp [State.winShut, hp, he]
theorem winShut_of_disabled {s : State} (hp : s.pins.stHold = false) (he : s.rd Reg.YEP_WIN.EN = 0) (opc tag a : Nat) :
    s.winShut opc tag a = some (s.winRefused opc tag a 0x02) := by
  simp [State.winShut, hp, he]
theorem winShut_of_hold {s : State} (hp : s.pins.stHold = true) {a : Nat} (ha : a < 0x200000E00000 ∨ 0x200000E01000 ≤ a) (opc tag : Nat) :
    s.winShut opc tag a = some (s.winUnmapped opc tag a) := by
  have : ¬(0x200000E00000 ≤ a ∧ a < 0x200000E01000) := by omega
  simp [State.winShut, hp, this]

/-- A read of `n` bytes, by what their address reaches. -/
def State.readFrom (s : State) (tag a n : Nat) : Reached → State
  | .nothing => s.winUnmapped 0x23 tag a
  | .csr =>
    if n ≠ 8 ∨ a % 8 ≠ 0 then s.winUnmapped 0x23 tag a
    else if s.csrStatus a ≠ 0 then s.winRefused 0x23 tag a (s.csrStatus a)
    else (s.afterRead a).winAnswer 0x23 tag a 0 (inLine a (leBytes 8 (s.readReg a)))
  | .scratchpad core off =>
    let st := s.coreStatus core true
    if st = 0x43 then (s.padDenied .companion core off).winRefused 0x23 tag a st
    else if st ≠ 0 then s.winRefused 0x23 tag a st
    else
      let lost := s.lostWords core ((List.range n).map (fun k => off + k)) false
      let r := s.spRead core off n 7
      if lost.isEmpty then r.2.winAnswer 0x23 tag a 0 (inLine a r.1) else r.2.winRefused 0x23 tag a 0x42
  | .slow t off =>
    let st := s.slowStatus t off false
    if st ≠ 0 then s.slowRefused 0x23 tag a t st
    else
      let r := s.dramRead t off n
      let u := (s.touchGranule t (off / 65536)).report t 2 r.2
      if r.2.bad.isEmpty then u.winAnswer 0x23 tag a 0 (inLine a r.1) else u.winRefused 0x23 tag a 0x62

section
variable {s : State} {a n : Nat} (hp : s.pins.stHold = false) (he : s.rd Reg.YEP_WIN.EN ≠ 0) (hn : n ≠ 0) (tag : Nat)
include hp he hn

theorem windowRead_open : s.windowRead tag a n = if 64 < a % 64 + n then s.winUnmapped 0x23 tag a else s.readFrom tag a n (s.reach a) := by
  unfold State.windowRead
  dsimp only
  rw [winShut_of_open hp he]
  dsimp only
  rw [if_neg hn]
  cases s.reach a <;> rfl
theorem windowRead_unmapped (h : 64 < a % 64 + n ∨ s.reach a = .nothing ∨ (s.reach a = .csr ∧ (n ≠ 8 ∨ a % 8 ≠ 0))) :
    s.windowRead tag a n = s.winUnmapped 0x23 tag a := by
  rw [windowRead_open hp he hn]
  split
  · rfl
  · next h64 =>
    rcases h.resolve_left h64 with hr | ⟨hr, hc⟩
    · rw [hr]
      rfl
    · rw [hr]
      exact if_pos hc

variable (h64 : a % 64 + n ≤ 64)
include h64

theorem windowRead_reached {r : Reached} (hr : s.reach a = r) : s.windowRead tag a n = s.readFrom tag a n r := by
  rw [windowRead_open hp he hn, if_neg (Nat.not_lt.mpr h64), hr]
theorem windowRead_clean {core off : Nat} (hr : s.reach a = .scratchpad core off) (hst : s.coreStatus core true = 0)
    (hc : Clean s core ((List.range n).map (fun k => off + k))) :
    s.windowRead tag a n = s.winAnswer 0x23 tag a 0 (inLine a (s.spBytes core off n)) := by
  rw [windowRead_reached hp he hn tag h64 hr, State.readFrom, hst, lostWords_of_clean hc, spRead_of_clean 7 hc]
  rfl
theorem windowRead_slow {tb off : Nat} (hr : s.reach a = .slow tb off) (hst : s.slowStatus tb off false = 0)
    (hf : (s.dramRead tb off n).2 = ⟨0, []⟩) :
    s.windowRead tag a n = (s.touchGranule tb (off / 65536)).winAnswer 0x23 tag a 0 (inLine a (s.dramRead tb off n).1) := by
  rw [windowRead_reached hp he hn tag h64 hr, State.readFrom, hst]
  dsimp only
  rw [hf]
  rfl
end

theorem readFrom_csr {s : State} {tag a : Nat} (ha : a % 8 = 0) : s.readFrom tag a 8 .csr =
    if s.csrStatus a ≠ 0 then s.winRefused 0x23 tag a (s.csrStatus a) else
      (s.afterRead a).winAnswer 0x23 tag a 0 (inLine a (leBytes 8 (s.readReg a))) := if_neg (by omega)
theorem readFrom_denied {s : State} {tag a n core off : Nat} (hst : s.coreStatus core true = 0x43) :
    s.readFrom tag a n (.scratchpad core off) = (s.padDenied .companion core off).winRefused 0x23 tag a 0x43 := by
  rw [State.readFrom, hst]
  rfl
theorem readFrom_fallow {s : State} {tag a n core off : Nat} (hf : s.fallow core = true) :
    s.readFrom tag a n (.scratchpad core off) = s.winRefused 0x23 tag a 0x21 := by
  rw [State.readFrom, coreStatus_fallow hf]
  rfl
theorem readFrom_away {s : State} {tag a n tb off : Nat} (hst : s.slowStatus tb off false = 0x66) :
    s.readFrom tag a n (.slow tb off) = s.winRefused 0x23 tag a 0x66 := by
  rw [State.readFrom, hst]
  rfl
theorem readFrom_closed {s : State} {tag a n tb off : Nat} (hst : s.slowStatus tb off false = 0x67) :
    s.readFrom tag a n (.slow tb off) = s.slowRefused 0x23 tag a tb 0x67 := by
  rw [State.readFrom, hst]
  rfl

/-- A request that touches a granule may move it in the wipe order. -/
theorem touchGranule_frame (s : State) (t g : Nat) : { s.touchGranule t g with tabkos := s.tabkos } = s := by
  unfold State.touchGranule
  dsimp only
  split
  · rfl
  · rfl

end Sys2Proof.Machine

namespace Sys2Proof.Machine

/-! ## Window writes (R397) -/

/-! ### Writes to memory at listed addresses -/

/-- Bytes written one after another, each at its address. -/
def writesAt (m : List Host.Cell) (l : List (Nat × Byte)) : List Host.Cell := l.foldl (fun m p => Memory.write m p.1 p.2) m

theorem read_writesAt_other (m : List Host.Cell) {l : List (Nat × Byte)} {a : Nat} (h : ∀ p ∈ l, p.1 ≠ a) :
    Memory.read (writesAt m l) a = Memory.read m a := by
  induction l generalizing m with
  | nil => rfl
  | cons p l ih =>
    refine (ih _ (fun q hq => h q (List.mem_cons_of_mem _ hq))).trans ?_
    exact Memory.read_write_other m _ p.2 (h p List.mem_cons_self).symm
/-- Where every write at an address has one value, that is read there. -/
theorem read_writesAt {m : List Host.Cell} {l : List (Nat × Byte)} {a : Nat} {v : Byte} (hv : ∀ p ∈ l, p.1 = a → p.2 = v)
    (h : (∃ p ∈ l, p.1 = a) ∨ Memory.read m a = v) : Memory.read (writesAt m l) a = v := by
  induction l generalizing m with
  | nil => exact h.resolve_left (by simp)
  | cons p l ih =>
    refine ih (fun q hq => hv q (List.mem_cons_of_mem _ hq)) ?_
    by_cases hp : p.1 = a
    · right
      dsimp only
      rw [hp, hv p List.mem_cons_self hp]
      exact Memory.read_write_same ..
    · refine h.imp (fun ⟨q, hq, e⟩ => ?_) (fun hr => (Memory.read_write_other m _ p.2 (Ne.symm hp)).trans hr)
      rcases List.mem_cons.mp hq with rfl | hq
      · exact absurd e hp
      · exact ⟨q, hq, e⟩

/-! ### Writes to a scratchpad without latent errors (R123) -/

/-- Where the bytes of a scratchpad's writes go. -/
def atCore (core : Nat) (l : List (Nat × Byte)) : List (Nat × Byte) := l.map (fun p => (spAddr core p.1, p.2))

theorem foldl_spPut (core : Nat) (l : List (Nat × Byte)) (s : State) :
    l.foldl (fun v p => v.spPut core p.1 [p.2]) s = { s with mem := writesAt s.mem (atCore core l) } := by
  induction l generalizing s with
  | nil => rfl
  | cons p l ih =>
    rw [List.foldl_cons, ih]
    rfl
/-- The bytes go to their places, word by word; beside them only latent errors of the words covered whole can go. -/
theorem spWriteAt_of_clean {s : State} {core : Nat} (slot : Nat) {wr : List (Nat × Byte)} (hc : Clean s core (wr.map Prod.fst)) :
    ∃ l e, s.spWriteAt core slot wr = { s with mem := writesAt s.mem (atCore core l), errs := e } ∧ ∀ p, p ∈ l ↔ p ∈ wr := by
  have hfold : ∀ (ws : List Nat) (t : State), (∀ cw ∈ ws, s.wordErr core cw = 0) → ∃ e, ws.foldl (fun t cw =>
      let mine := wr.filter (fun p => decide (s.codeWord core p.1 = cw))
      let whole := (List.range (s.codeLen core cw)).all (fun k => mine.any (fun p => decide (p.1 % 2 ^ 18 = cw + k)))
      let put (u : State) : State := mine.foldl (fun v p => v.spPut core p.1 [p.2]) u
      if whole then (put t).setErr core cw 0
      else if s.wordErr core cw = 0 then put t
      else if s.wordErr core cw = 1 then ((put t).setErr core cw 0).corrected core cw
      else t.uncorrectable core cw slot) t =
      { t with
        mem := writesAt t.mem (atCore core (ws.flatMap (fun cw => wr.filter (fun p => decide (s.codeWord core p.1 = cw)))))
        errs := e } := fun ws => by
    induction ws with
    | nil => exact fun t _ => ⟨t.errs, rfl⟩
    | cons cw ws ih =>
      intro t hws
      have h0 : s.wordErr core cw = 0 := hws cw List.mem_cons_self
      have hws' : ∀ x ∈ ws, s.wordErr core x = 0 := fun x hx => hws x (List.mem_cons_of_mem _ hx)
      have hcat : ∀ g g' : List (Nat × Byte), writesAt t.mem (atCore core (g ++ g')) = writesAt (writesAt t.mem (atCore core g)) (atCore core g') :=
        fun g g' => by simp only [writesAt, atCore, List.map_append, List.foldl_append]
      rw [List.foldl_cons]
      dsimp only
      rw [if_pos h0, foldl_spPut, List.flatMap_cons, hcat]
      split
      · obtain ⟨e, he⟩ := ih (State.setErr { t with mem := writesAt t.mem (atCore core
          (wr.filter (fun p => decide (s.codeWord core p.1 = cw)))) } core cw 0) hws'
        exact ⟨e, he⟩
      · obtain ⟨e, he⟩ := ih { t with mem := writesAt t.mem (atCore core (wr.filter (fun p => decide (s.codeWord core p.1 = cw)))) } hws'
        exact ⟨e, he⟩
  obtain ⟨hmem, hall⟩ := wordsOf_spec s core (wr.map (fun p => (p.1, slot)))
  have hclean : ∀ cw ∈ (s.wordsOf core (wr.map (fun p => (p.1, slot)))).map Prod.fst, s.wordErr core cw = 0 := fun cw hcw => by
    obtain ⟨q, hq, rfl⟩ := List.mem_map.mp hcw
    obtain ⟨r, hr, e⟩ := hmem q hq
    obtain ⟨p, hp, rfl⟩ := List.mem_map.mp hr
    rw [e]
    exact hc _ (List.mem_map.mpr ⟨p, hp, rfl⟩)
  obtain ⟨e, he⟩ := hfold _ s hclean
  refine ⟨_, e, he, fun p => ⟨fun hp => ?_, fun hp => ?_⟩⟩
  · obtain ⟨cw, -, hp⟩ := List.mem_flatMap.mp hp
    exact (List.mem_filter.mp hp).1
  · obtain ⟨q, hq, e⟩ := hall (p.1, slot) (List.mem_map.mpr ⟨p, hp, rfl⟩)
    exact List.mem_flatMap.mpr ⟨q.1, List.mem_map.mpr ⟨q, hq, rfl⟩, List.mem_filter.mpr ⟨hp, by simp [e]⟩⟩

/-! ### Words beyond correction leave memory as it is (R125) -/

theorem Aborts.mem {s t : State} {core : Nat} (h : Aborts s t core) : t.mem = s.mem := (congrArg State.mem h.frame :)
theorem Aftermath.mem {s t : State} (h : Aftermath s t) : t.mem = s.mem := (congrArg State.mem h.frame :)
theorem raiseAt_mem (s : State) {ring : Nat} (hr : ring ≤ 16) (code skind unit tick step detail : Nat) :
    (s.raiseAt ring code skind unit tick step detail).mem = s.mem := (Aftermath.raiseAt s hr ..).mem
theorem raiseCore_mem (s : State) (core code detail : Nat) : (s.raiseCore core code detail).mem = s.mem := raiseAt_mem s (coreRing_le s core) ..
theorem haltCore_mem (s : State) (core cause : Nat) : (s.haltCore core cause).mem = s.mem := by
  have habort : ∀ u : State, (if cause = 1 then u else u.abortDrills core).mem = u.mem := fun u => by
    split
    · rfl
    · exact (abortDrills_aborts u core).mem
  unfold State.haltCore
  dsimp only
  rw [habort]
  split
  · split
    · rfl
    · rfl
  · rfl
theorem coreFault_mem (s : State) (core cause code : Nat) : (s.coreFault core cause code).mem = s.mem := by
  unfold State.coreFault
  dsimp only
  split
  · next n hn =>
    have hf := faultEncl_aftermath (s.haltCore core cause) (enclOf_lt hn) code ((s.haltCore core cause).estTick (croftOf core))
    have h := Aftermath.ite (c := s.rd Reg.HND_STAT.HALTED core = 0 ∧
      ((s.haltCore core cause).faultEncl n code ((s.haltCore core cause).estTick (croftOf core))).rd Reg.ENCL_STATE.STATE (j := n) = 4)
      (hf.trans (wipeOf_aftermath _ n core)) hf
    exact h.mem.trans (haltCore_mem s core cause)
  · exact haltCore_mem s core cause
theorem uncorrectable_mem (s : State) (core cw slot : Nat) : (s.uncorrectable core cw slot).mem = s.mem := by
  unfold State.uncorrectable
  dsimp only
  split
  · exact (coreFault_mem ..).trans (raiseCore_mem ..)
  · exact raiseCore_mem ..

/-! ### The bytes of a masked line -/

theorem bits_one_iff {w : Nat} (m : BitVec w) (k : Nat) : bits m.toNat k 1 = 1 ↔ m.getLsbD k = true := by
  simp [bits, BitVec.getLsbD, Nat.testBit_eq_decide_div_mod_eq]
theorem mem_maskedBytes {mask : Word} {line : List Byte} {p : Nat × Byte} :
    p ∈ maskedBytes mask.toNat line ↔ p.1 < 64 ∧ mask.getLsbD p.1 = true ∧ p.2 = line.getD p.1 0 := by
  simp only [maskedBytes, List.mem_map, List.mem_filter, List.mem_range, decide_eq_true_eq, bits_one_iff]
  constructor
  · rintro ⟨k, ⟨hk, hb⟩, rfl⟩
    exact ⟨hk, hb, rfl⟩
  · rintro ⟨hk, hb, hv⟩
    exact ⟨p.1, ⟨hk, hb⟩, Prod.ext rfl hv.symm⟩
/-- The lowest place of a mask. -/
def LowestBit (mask : Word) (k : Nat) : Prop := k < 64 ∧ mask.getLsbD k = true ∧ ∀ q < k, mask.getLsbD q = false
/-- The lowest byte comes first. -/
theorem maskedBytes_lowest {mask : Word} {k : Nat} (h : LowestBit mask k) (line : List Byte) :
    ∃ rest, maskedBytes mask.toNat line = (k, line.getD k 0) :: rest := by
  obtain ⟨hk, hb, hlow⟩ := h
  obtain ⟨n, hn⟩ : ∃ n, 64 = k + (n + 1) := ⟨63 - k, by omega⟩
  have hlow' : (List.range k).filter (fun q => decide (bits mask.toNat q 1 = 1)) = [] := by
    rw [List.filter_eq_nil_iff]
    intro q hq
    simp [bits_one_iff, hlow q (List.mem_range.mp hq)]
  have hr : List.range 64 = List.range (k + (n + 1)) := congrArg List.range hn
  unfold maskedBytes
  rw [hr, List.range_add, List.filter_append, hlow', List.range_succ_eq_map, List.map_cons, List.filter_cons,
    if_pos (by simpa [bits_one_iff] using hb)]
  exact ⟨_, rfl⟩
/-- A mask of the eight bytes from a multiple of eight. -/
theorem maskedBytes_eight {mask : Word} {k : Nat} (hk : k < 64) (h8 : k % 8 = 0) (hm : ∀ q < 64, mask.getLsbD q = true ↔ k ≤ q ∧ q < k + 8)
    (line : List Byte) : maskedBytes mask.toNat line = (List.range 8).map (fun b => (k + b, line.getD (k + b) 0)) := by
  have hf : (List.range 64).filter (fun q => decide (bits mask.toNat q 1 = 1)) = (List.range 64).filter (fun q => decide (k ≤ q ∧ q < k + 8)) :=
    List.filter_congr (fun q hq => by simp only [bits_one_iff, hm q (List.mem_range.mp hq)])
  have hr : ∀ m < 8, (List.range 64).filter (fun q => decide (8 * m ≤ q ∧ q < 8 * m + 8)) = (List.range 8).map (fun b => 8 * m + b) := by decide
  have hk8 : k = 8 * (k / 8) := by omega
  unfold maskedBytes
  rw [hf, hk8, hr _ (by omega), List.map_map]
  rfl
end Sys2Proof.Machine

namespace Sys2Proof.Machine

/-! ### Window writes, by what their address reaches -/

/-- A write of the bytes `bs` of a line, the lowest at place `k`. -/
def State.writeTo (s : State) (tag a k : Nat) (bs : List (Nat × Byte)) : Reached → State
  | .nothing => s.winUnmapped 0x24 tag a
  | .csr =>
    let m := a / 64 * 64 + k
    if k % 8 ≠ 0 ∨ bs.map Prod.fst ≠ (List.range 8).map (fun b => k + b) then s.winUnmapped 0x24 tag a
    else if s.csrStatus m ≠ 0 then s.winRefused 0x24 tag a (s.csrStatus m)
    else (s.winAnswer 0x24 tag a 0 []).regWrite .companion m (leNat (bs.map Prod.snd))
  | .scratchpad core off =>
    let st := s.coreStatus core true
    let wr := bs.map (fun p => (off - k + p.1, p.2))
    let lost := s.lostWords core (wr.map Prod.fst) true
    if st = 0x43 then (s.padDenied .companion core off).winRefused 0x24 tag a st
    else if st ≠ 0 then s.winRefused 0x24 tag a st
    else if lost.isEmpty then (s.spWriteAt core 7 wr).winAnswer 0x24 tag a 0 []
    else (lost.foldl (fun t cw => t.uncorrectable core cw 7) s).winRefused 0x24 tag a 0x42
  | .slow t off =>
    let st := s.slowStatus t off true
    if st ≠ 0 then s.slowRefused 0x24 tag a t st else s.windowSlow 0x24 tag a t (off - k) bs

section
variable {s : State} {mask : Word} {k : Nat} (hp : s.pins.stHold = false) (he : s.rd Reg.YEP_WIN.EN ≠ 0) (hk : LowestBit mask k) (tag a : Nat)
  (line : List Byte)
include hp he hk

theorem windowWrite_reached {r : Reached} (hr : s.reach (a / 64 * 64 + k) = r) :
    s.windowWrite tag a mask.toNat line = s.writeTo tag a k (maskedBytes mask.toNat line) r := by
  obtain ⟨rest, hbs⟩ := maskedBytes_lowest hk line
  unfold State.windowWrite
  dsimp only
  rw [winShut_of_open hp he]
  dsimp only
  rw [hbs]
  dsimp only
  rw [hr]
  cases r <;> rfl
end

/-! ### Registers -/

theorem writeTo_csr {s : State} {mask : Word} {k : Nat} (hk : k < 64) (h8 : k % 8 = 0) (hm : ∀ q < 64, mask.getLsbD q = true ↔ k ≤ q ∧ q < k + 8)
    {a : Nat} (hst : s.csrStatus (a / 64 * 64 + k) = 0) (tag : Nat) (line : List Byte) :
    s.writeTo tag a k (maskedBytes mask.toNat line) .csr = (s.winAnswer 0x24 tag a 0 []).regWrite .companion (a / 64 * 64 + k)
      (leNat ((List.range 8).map (fun q => line.getD (k + q) 0))) := by
  have hfst : ((List.range 8).map (fun b => (k + b, line.getD (k + b) 0))).map Prod.fst = (List.range 8).map (fun b => k + b) := List.map_map
  have hsnd : ((List.range 8).map (fun b => (k + b, line.getD (k + b) 0))).map Prod.snd = (List.range 8).map (fun b => line.getD (k + b) 0) :=
    List.map_map
  rw [State.writeTo, maskedBytes_eight hk h8 hm, hfst, hsnd]
  rw [if_neg (by simp [h8]), if_neg (by simp [hst])]

/-! ### Scratchpads -/

theorem writeTo_denied {s : State} {tag a k core off : Nat} {bs : List (Nat × Byte)} (hst : s.coreStatus core true = 0x43) :
    s.writeTo tag a k bs (.scratchpad core off) = (s.padDenied .companion core off).winRefused 0x24 tag a 0x43 := by
  rw [State.writeTo, hst]
  rfl

/-- The line's place in the scratchpad: it lies in one. -/
theorem line_in_scratchpad {s : State} {a k core off : Nat} (h : s.reach (a / 64 * 64 + k) = .scratchpad core off) (hk : k < 64) :
    off < 2 ^ 18 ∧ off - k + 64 ≤ 2 ^ 18 := by
  have := reach_scratchpad h
  omega
theorem spAddr_inj {core o p : Nat} (ho : o < 2 ^ 18) (hp : p < 2 ^ 18) (h : spAddr core o = spAddr core p) : o = p := by
  unfold spAddr at h
  omega

/-- The bytes written are those of the line under the mask; no others change. -/
theorem writeTo_clean {s : State} {mask : Word} {core : Nat} {off k : Nat} (h18 : off - k + 64 ≤ 2 ^ 18) (hst : s.coreStatus core true = 0)
    (hc : ∀ q < 64, s.wordErr core (s.codeWord core (off - k + q)) = 0) (tag a : Nat) (line : List Byte) :
    ∃ m e, s.writeTo tag a k (maskedBytes mask.toNat line) (.scratchpad core off) = ({ s with mem := m, errs := e } : State).winAnswer 0x24 tag a 0 [] ∧
      (∀ q < 64, mask.getLsbD q = true → Memory.read m (spAddr core (off - k + q)) = line.getD q 0) ∧
      ∀ x, (¬∃ q < 64, mask.getLsbD q = true ∧ x = spAddr core (off - k + q)) → Memory.read m x = Memory.read s.mem x := by
  have hclean : Clean s core (((maskedBytes mask.toNat line).map (fun p => (off - k + p.1, p.2))).map Prod.fst) := fun o ho => by
    obtain ⟨w, hw, rfl⟩ := List.mem_map.mp ho
    obtain ⟨p, hp, rfl⟩ := List.mem_map.mp hw
    exact hc _ (mem_maskedBytes.mp hp).1
  obtain ⟨l, e, heq, hl⟩ := spWriteAt_of_clean 7 hclean
  -- each write is that of a byte of the line
  have hwrite : ∀ p ∈ atCore core l, ∃ q < 64, mask.getLsbD q = true ∧ p = (spAddr core (off - k + q), line.getD q 0) := fun p hp => by
    obtain ⟨w, hw, rfl⟩ := List.mem_map.mp hp
    obtain ⟨b, hb, rfl⟩ := List.mem_map.mp ((hl w).mp hw)
    obtain ⟨hq, hbit, hval⟩ := mem_maskedBytes.mp hb
    exact ⟨b.1, hq, hbit, by rw [hval]⟩
  refine ⟨writesAt s.mem (atCore core l), e, ?_, fun q hq hbit => ?_, fun x hx => ?_⟩
  · rw [State.writeTo, hst, lostWords_of_clean hclean, heq]
    rfl
  · refine read_writesAt (fun p hp hpa => ?_) (.inl ⟨(spAddr core (off - k + q), line.getD q 0), ?_, rfl⟩)
    · obtain ⟨r, hr, -, rfl⟩ := hwrite p hp
      have := spAddr_inj (by omega) (by omega) hpa
      have hrq : r = q := by omega
      rw [hrq]
    · exact List.mem_map.mpr ⟨(off - k + q, line.getD q 0), (hl _).mpr (List.mem_map.mpr ⟨(q, line.getD q 0),
        mem_maskedBytes.mpr ⟨hq, hbit, rfl⟩, rfl⟩), rfl⟩
  · refine read_writesAt_other _ (fun p hp hpa => hx ?_)
    obtain ⟨r, hr, hbit, rfl⟩ := hwrite p hp
    exact ⟨r, hr, hbit, hpa.symm⟩

/-- Where a word is lost, nothing is written. -/
theorem writeTo_lost {s : State} {bs : List (Nat × Byte)} {core : Nat} {off k : Nat} (hst : s.coreStatus core true = 0)
    (hl : s.lostWords core (bs.map (fun p => off - k + p.1)) true ≠ []) (tag a : Nat) :
    ∃ u : State, s.writeTo tag a k bs (.scratchpad core off) = u.winRefused 0x24 tag a 0x42 ∧ u.yosal = s.yosal ∧ u.mem = s.mem := by
  have hmem : ∀ (l : List Nat) (t : State), (l.foldl (fun t cw => t.uncorrectable core cw 7) t).mem = t.mem := fun l => by
    induction l with
    | nil => exact fun _ => rfl
    | cons cw l ih => exact fun t => (ih _).trans (uncorrectable_mem ..)
  have hoffs : (bs.map (fun p => (off - k + p.1, p.2))).map Prod.fst = bs.map (fun p => off - k + p.1) := List.map_map
  have heq : s.writeTo tag a k bs (.scratchpad core off) =
      ((s.lostWords core (bs.map (fun p => off - k + p.1)) true).foldl (fun t cw => t.uncorrectable core cw 7) s).winRefused 0x24 tag a 0x42 := by
    rw [State.writeTo, hst, hoffs]
    simp [hl]
  exact ⟨_, heq, (Sown.foldl (fun t cw => uncorrectable_sown t core cw 7) _ s).yosal, hmem _ s⟩

/-! ### The slow tier (R289) -/

theorem writeTo_slow {s : State} {tag a k tb off : Nat} {bs : List (Nat × Byte)} (hst : s.slowStatus tb off true = 0) :
    s.writeTo tag a k bs (.slow tb off) = s.windowSlow 0x24 tag a tb (off - k) bs := by
  rw [State.writeTo, hst]
  rfl
theorem writeTo_away {s : State} {tag a k tb off : Nat} {bs : List (Nat × Byte)} (hst : s.slowStatus tb off true = 0x66) :
    s.writeTo tag a k bs (.slow tb off) = s.winRefused 0x24 tag a 0x66 := by
  rw [State.writeTo, hst]
  rfl
/-- The line of an address in a span: its place in the span is that of its block. -/
theorem line_in_span {s : State} {a k tb off : Nat} (h : s.reach (a / 64 * 64 + k) = .slow tb off) (hk : k < 64) :
    (off - k) % 64 = 0 ∧ s.spanBase tb + (off - k) = a / 64 * 64 := by
  obtain ⟨hbase, hoff⟩ := reach_slow h
  simp only [spanBytes] at hbase
  omega

/-- A block written whole. -/
theorem dramWrite_block {s : State} {l : Nat} (t : Nat) (hl : l % 64 = 0) {bs : List Byte} (hn : bs.length = 64) :
    (s.dramWrite t l bs).1.mem = Memory.writeList s.mem (s.spanBase t + l) bs ∧ (s.dramWrite t l bs).1.yosal = s.yosal := by
  have hb : l / 64 * 64 = l := by omega
  have hblocks : blocksOf l 64 = [l / 64] := by
    have h1 : (l + 64 - 1) / 64 - l / 64 + 1 = 1 := by omega
    rw [blocksOf, if_neg (by decide), h1]
    rfl
  have hcov : coversBlock l 64 (l / 64) = true := by simp [coversBlock, hb]
  have hpart : (bs.drop (l - l)).take (l + 64 - l) = bs := by
    rw [Nat.sub_self, List.drop_zero, Nat.add_sub_cancel_left, ← hn, List.take_length]
  unfold State.dramWrite
  dsimp only
  rw [hn, hblocks, List.foldl_cons, List.foldl_nil]
  dsimp only
  simp only [hcov, hb, Nat.max_self, Nat.min_self, hpart, Bool.not_true, Bool.false_eq_true, and_false, if_false]
  split
  · exact ⟨rfl, rfl⟩
  · exact ⟨rfl, rfl⟩

theorem symbols_mem (s : State) (t n : Nat) : (s.symbols t n).mem = s.mem := by
  have hled : ∀ (u : State) (off w n : Nat), (u.ledAdd off w n).mem = u.mem := fun u off w n => by
    unfold State.ledAdd
    dsimp only
    split
    · rfl
    · rfl
  unfold State.symbols
  split
  · rfl
  · dsimp only
    split
    · exact hled ..
    · exact (raiseAt_mem _ (Nat.le_refl _) ..).trans (hled ..)

/-- The bytes of a block after a masked write. -/
def mergedBytes (bs : List (Nat × Byte)) (old : List Byte) : List Byte :=
  (List.range 64).map (fun k => match bs.find? (fun p => decide (p.1 = k)) with
    | some p => p.2
    | none => (old[k]?).getD 0)
theorem mergedBytes_length (bs : List (Nat × Byte)) (old : List Byte) : (mergedBytes bs old).length = 64 := by
  rw [mergedBytes, List.length_map, List.length_range]
theorem mergedBytes_masked (mask : Word) (line old : List Byte) {q : Nat} (hq : q < 64) :
    (mergedBytes (maskedBytes mask.toNat line) old)[q]'(by rw [mergedBytes_length]; exact hq) =
      if mask.getLsbD q then line.getD q 0 else (old[q]?).getD 0 := by
  simp only [mergedBytes, List.getElem_map, List.getElem_range]
  split
  · next p hp =>
    obtain ⟨-, hbit, hval⟩ := mem_maskedBytes.mp (List.mem_of_find?_eq_some hp)
    have hpq : p.1 = q := by simpa using List.find?_some hp
    rw [hpq] at hbit hval
    rw [hbit, if_pos rfl, hval]
  · next hnone =>
    have hbit : ¬mask.getLsbD q = true := fun c => by
      simpa using List.find?_eq_none.mp hnone (q, line.getD q 0) (mem_maskedBytes.mpr ⟨hq, c, rfl⟩)
    rw [if_neg hbit]

/-- A write where nothing is beyond correction: the bytes under the mask, and the block's others as they read. -/
theorem windowSlow_spec {s : State} {l t : Nat} (hl : l % 64 = 0) (hbad : (s.dramRead t l 64).2.bad = []) (tag a : Nat) (bs : List (Nat × Byte)) :
    ∃ u : State, s.windowSlow 0x24 tag a t l bs = u.winAnswer 0x24 tag a 0 [] ∧ u.yosal = s.yosal ∧
      u.mem = Memory.writeList s.mem (s.spanBase t + l) (mergedBytes bs (s.dramRead t l 64).1) := by
  obtain ⟨x, hx⟩ : ∃ x, s.touchGranule t (l / 65536) = { s with tabkos := x } := ⟨_, by
    have := touchGranule_frame s t (l / 65536)
    exact (congrArg (fun y : State => { y with tabkos := (s.touchGranule t (l / 65536)).tabkos }) this :)⟩
  obtain ⟨hm, hy⟩ := dramWrite_block (s := { s with tabkos := x }) t hl (mergedBytes_length bs (s.dramRead t l 64).1)
  unfold State.windowSlow
  dsimp only
  rw [hx, hbad, if_neg (by simp)]
  refine ⟨_, rfl, ?_, ?_⟩
  · split
    · exact hy
    · exact (symbols_sown ..).yosal.trans hy
  · split
    · exact hm
    · exact (symbols_mem ..).trans hm

/-- A line of a span after a masked write: the bytes under the mask are the line's, the others as they read; no other byte changes. -/
theorem writeTo_merges {s : State} {mask : Word} {a k tb off : Nat} (hk : k < 64) (hr : s.reach (a / 64 * 64 + k) = .slow tb off)
    (hst : s.slowStatus tb off true = 0) (hbad : (s.dramRead tb (off - k) 64).2.bad = []) (tag : Nat) (line : List Byte) :
    ∃ u : State, s.writeTo tag a k (maskedBytes mask.toNat line) (.slow tb off) = u.winAnswer 0x24 tag a 0 [] ∧ u.yosal = s.yosal ∧
      (∀ q < 64, u.byte (a / 64 * 64 + q) = if mask.getLsbD q then line.getD q 0 else ((s.dramRead tb (off - k) 64).1[q]?).getD 0) ∧
      BytesKept s u (fun x => a / 64 * 64 ≤ x ∧ x < a / 64 * 64 + 64) := by
  obtain ⟨hl, hbase⟩ := line_in_span hr hk
  obtain ⟨u, heq, hy, hmem⟩ := windowSlow_spec hl hbad tag a (maskedBytes mask.toNat line)
  rw [hbase] at hmem
  refine ⟨u, (writeTo_slow hst).trans heq, hy, fun q hq => ?_, fun x hx => ?_⟩
  · exact (congrArg (fun m => Memory.read m _) hmem).trans
      ((Memory.read_writeList_inside _ _ _ q (by rw [mergedBytes_length]; exact hq)).trans (mergedBytes_masked mask line _ hq))
  · refine (congrArg (fun m => Memory.read m _) hmem).trans (Memory.read_writeList_outside _ _ _ _ ?_)
    rw [mergedBytes_length]
    omega

end Sys2Proof.Machine

namespace Sys2Proof.Machine

/-! ## SMBus and the TAP (R508-R511) -/

/-- The target answers (R509). -/
def SmbOn (s : State) : Prop := s.stRuns = true ∧ s.rd Reg.BOOT_STAT.PHASE ≠ 0 ∧ s.lc ≠ 4
theorem smbOn_iff (s : State) : s.smbOn = true ↔ SmbOn s := by
  simp only [State.smbOn, SmbOn, Bool.and_eq_true, decide_eq_true_eq, and_assoc, ne_eq]

/-- Only the data driven out and the record of the side band differ. -/
def SideOnly (s t : State) : Prop := { t with readData := s.readData, trust := s.trust } = s ∧ BytesKept s t (fun _ => False)
/-- The transfer is not acknowledged. -/
def Nacked (s t : State) : Prop := t.readData = [] ∧ t.trust = { s.trust with smbAck := false } ∧ SideOnly s t

theorem smbNack_nacked (s : State) : Nacked s s.smbNack := ⟨rfl, rfl, rfl, .of_mem rfl _⟩

/-- R508: a command answered with its block, the count before it and the check behind it; off, it is not acknowledged. -/
def Served (s : State) (pec : Bool) (i : Instr) (code : Nat) (bs : List Byte) : Prop :=
  let a := leBytes 1 (s.trust.smbAddr % 128 * 2)
  let body := leBytes 1 bs.length ++ bs
  (SmbOn s → ∃ t, exec i s = .next t ∧ SideOnly s t ∧ t.trust = { s.trust with smbAck := true } ∧ t.readData = body ++
    (if pec then [pecOf (a ++ leBytes 1 code ++ leBytes 1 (s.trust.smbAddr % 128 * 2 + 1) ++ body)] else [])) ∧
  (¬SmbOn s → ∃ t, exec i s = .next t ∧ Nacked s t)
theorem served_of_blockRead {s : State} {pec : Bool} {i : Instr} {code : Nat} {bs : List Byte} (h : exec i s = .next (s.blockRead code pec bs)) :
    Served s pec i code bs := by
  refine ⟨fun hon => ⟨_, h, ?_⟩, fun hoff => ⟨_, h, ?_⟩⟩
  · rw [State.blockRead, if_neg (by simp [(smbOn_iff s).mpr hon])]
    exact ⟨⟨rfl, .of_mem rfl _⟩, rfl, rfl⟩
  · have h' : s.smbOn = false := by simpa using (smbOn_iff s).not.mpr hoff
    rw [State.blockRead, if_pos (by simp [h'])]
    exact smbNack_nacked s

/-- A list of bytes, each from a number. -/
theorem map_ofNat_eq_flatMap (l : List Nat) (f : Nat → Nat) : l.map (fun k => BitVec.ofNat 8 (f k)) = l.flatMap (fun k => leBytes 1 (f k)) := by
  rw [List.map_eq_flatMap]
  rfl

/-- R510: the target that holds the alert line low answers with its address; else there is no acknowledgement. -/
theorem alertResponse_spec (s : State) (pec : Bool) :
    let a := leBytes 1 (s.trust.smbAddr % 128 * 2)
    let alert := s.rd Reg.PWR_TRIP.VALID = 1 ∨ s.pins.stHold = true
    (SmbOn s → alert → ∃ t, exec (.alertResponse pec) s = .next t ∧ SideOnly s t ∧ t.trust = { s.trust with smbAck := true } ∧
      t.readData = a ++ (if pec then [pecOf (leBytes 1 0x19 ++ a)] else [])) ∧
    (¬(SmbOn s ∧ alert) → ∃ t, exec (.alertResponse pec) s = .next t ∧ Nacked s t) := by
  refine ⟨fun hon hal => ?_, fun hno => ?_⟩
  · refine ⟨_, congrArg Host.Outcome.next (if_pos ?_), ⟨rfl, .of_mem rfl _⟩, rfl, rfl⟩
    rw [(smbOn_iff s).mpr hon]
    simpa [State.smbAlert] using hal
  · refine ⟨_, congrArg Host.Outcome.next (if_neg (fun c => hno ?_)), smbNack_nacked s⟩
    rw [Bool.and_eq_true] at c
    exact ⟨(smbOn_iff s).mp c.1, by simpa [State.smbAlert] using c.2⟩

end Sys2Proof.Machine

namespace Sys2Proof.Machine

/-! ## The window and the side band: the statement -/

section
variable {s : State} (tag : BitVec 12) (mpa : BitVec 48) (hup : s.yUp = true) (hq : s.yosal.winq = [])
include hup hq

theorem exec_winRd (bytes : BitVec 7) (hw : s.winWaits (.rd tag.toNat mpa.toNat bytes.toNat) = false) :
    exec (.winRd tag mpa bytes) s = .next (s.windowRead tag.toNat mpa.toNat bytes.toNat) :=
  congrArg Host.Outcome.next (winTake_serves hup hq hw)
theorem exec_winWr (mask : Word) (line : List Byte) (hw : s.winWaits (.wr tag.toNat mpa.toNat mask.toNat line) = false) :
    exec (.winWr tag mpa mask line) s = .next (s.windowWrite tag.toNat mpa.toNat mask.toNat line) :=
  congrArg Host.Outcome.next (winTake_serves hup hq hw)
end

/-- A read of the slow tier that is answered: its granule may have moved in the wipe order. -/
theorem touchGranule_answered (s : State) (tb g opc tag a : Nat) (data : List Byte) :
    let t := (s.touchGranule tb g).winAnswer opc tag a 0 data
    t.yosal = { s.yosal with tx := s.yosal.tx ++ [⟨opc, tag, a, 0, 0, 0, 0, data⟩] } ∧ { t with yosal := s.yosal, tabkos := s.tabkos } = s ∧
      BytesKept s t (fun _ => False) := by
  have h := touchGranule_frame s tb g
  generalize s.touchGranule tb g = u at *
  have hy : u.yosal = s.yosal := (congrArg State.yosal h :)
  refine ⟨?_, congrArg (fun x : State => { x with yosal := s.yosal }) h, .of_mem (congrArg State.mem h :) _⟩
  rw [← hy]
  rfl
/-- R297: a closed region refuses, and says so. -/
theorem closedRefused_spec (s : State) (tb tag : Nat) {a : Nat} (ha : a < 2 ^ 48) :
    let t := s.slowRefused 0x23 tag a tb 0x67
    t.yosal = { s.yosal with tx := s.yosal.tx ++ [⟨0x23, tag, a, 0x67, 0, 0, 0, zeroLine⟩] } ∧ Raised s t 16 0x67 2 tb a := by
  obtain ⟨hraised, hframe, -⟩ := raiseAt_spec s (ring := 16) 0x67 skTabko tb s.now 0 (detail := a) (Nat.le_refl _)
    (Nat.lt_of_lt_of_le ha (by decide))
  have hy : (s.raiseUnit 0x67 skTabko tb a).yosal = s.yosal := (congrArg State.yosal hframe :)
  refine ⟨?_, hraised⟩
  rw [← hy]
  rfl

/-- Settles O54, part by part: what registers take, requests that wait, window reads, window writes, the side band. -/
theorem windowAndSideBand : Obligations.WindowAndSideBand := by
  unfold Obligations.WindowAndSideBand
  refine ⟨fun who value s => ⟨fun a ha => ?unmapped, fun k => ⟨fun hw => registerWrite_nonce s hw k value, fun c hc => ?hand⟩,
    registerWrite_serial s who value, fun hw => ?trip⟩, fun tag mpa bytes mask line s hup => ⟨fun q l hl hw => ?waitRd, fun q l hl hw => ?waitWr⟩,
    fun tag mpa bytes s hup hq hw => ?reads, fun tag mpa mask line s hup hq hw => ?writes, fun pec code s => ?side⟩
  case unmapped =>
    refine congrArg Host.Outcome.next ?_
    rw [State.regWrite, ha]
  case hand =>
    subst hc
    exact registerWrite_nonce_hand s c k value
  case trip =>
    subst hw
    exact registerWrite_trip s value
  case waitRd => exact congrArg Host.Outcome.next (winTake_waits hup hl hw)
  case waitWr => exact congrArg Host.Outcome.next (winTake_waits hup hl hw)
  case reads =>
    have hx := exec_winRd tag mpa hup hq bytes hw
    have ha := mpa.isLt
    have hread {u : State} (h : s.windowRead tag.toNat mpa.toNat bytes.toNat = u) : exec (.winRd tag mpa bytes) s = .next u := h ▸ hx
    refine ⟨fun hh hen => answer_spec (hread ?_), fun hh hout => ⟨_, hread ?_, winUnmapped_spec s _ _ ha⟩,
      fun ⟨hh, hen⟩ hn hno => ⟨_, hread (windowRead_unmapped hh hen hn _ hno), winUnmapped_spec s _ _ ha⟩,
      fun ⟨hh, hen⟩ hn h8 hr => ?csr, fun core off ⟨hh, hen⟩ hn h64 hr => ?pad, fun tb off ⟨hh, hen⟩ hn h64 hr => ?slow⟩
    · rw [State.windowRead, winShut_of_disabled hh hen]
      rfl
    · rw [State.windowRead, winShut_of_hold hh hout]
    case csr =>
      have hcsr := windowRead_reached hh hen (n := bytes.toNat) (by omega) tag.toNat (by omega) hr
      rw [hn] at hcsr
      rw [readFrom_csr h8] at hcsr
      refine ⟨fun hst => answer_spec (hread ?_), fun hst => answer_spec (hread ?_)⟩
      · rw [hn, hcsr, if_neg (not_not.mpr hst)]
      · rw [hn, hcsr, if_pos hst]
        rfl
    case pad =>
      have hpad := windowRead_reached hh hen hn tag.toNat h64 hr
      have hoff : off < 2 ^ 18 := by
        have := reach_scratchpad hr
        omega
      exact ⟨fun hf => answer_spec (hread (hpad.trans (readFrom_fallow hf))),
        fun hf hd => ⟨_, hread (hpad.trans (readFrom_denied (coreStatus_denied hf hd))), padRefused_spec s 0x23 _ _ core hoff⟩,
        fun hf h1 h2 h3 hc => answer_spec (hread (windowRead_clean hh hen hn _ h64 hr (coreStatus_permitted hf h1 h2 h3) (fun o ho => by
          obtain ⟨k, hk, rfl⟩ := List.mem_map.mp ho
          exact hc k (List.mem_range.mp hk))))⟩
    case slow =>
      have hslow := windowRead_reached hh hen hn tag.toNat h64 hr
      exact ⟨fun hst hf => ⟨_, hread (windowRead_slow hh hen hn _ h64 hr hst hf), touchGranule_answered s tb (off / 65536) ..⟩,
        fun hst => answer_spec (hread (hslow.trans (readFrom_away hst))),
        fun hst => ⟨_, hread (hslow.trans (readFrom_closed hst)), closedRefused_spec s tb _ ha⟩⟩
  case writes =>
    have hx := exec_winWr tag mpa hup hq mask line hw
    have hwrite {u : State} (h : s.windowWrite tag.toNat mpa.toNat mask.toNat line = u) : exec (.winWr tag mpa mask line) s = .next u := h ▸ hx
    refine ⟨fun hh hen => answer_spec (hwrite ?_), fun ⟨hh, hen⟩ k hk hr h8 hm hst => ?csr, fun ⟨hh, hen⟩ k core off hk hr hf => ?pad,
      fun ⟨hh, hen⟩ k tb off hk hr => ?slow⟩
    · rw [State.windowWrite, winShut_of_disabled hh hen]
      rfl
    case csr =>
      exact ⟨_, hwrite ((windowWrite_reached hh hen hk _ _ line hr).trans (writeTo_csr hk.1 h8 hm hst _ line)), rfl⟩
    case pad =>
      have hpad := windowWrite_reached hh hen hk tag.toNat _ line hr
      obtain ⟨hoff, h18⟩ := line_in_scratchpad hr hk.1
      refine ⟨fun h0 => ?denied, fun h1 h2 h3 hc => ?clean, fun h1 h2 h3 hl => ?lost⟩
      case denied =>
        obtain ⟨hy, hraised, hframe⟩ := padRefused_spec s 0x24 tag.toNat mpa.toNat core hoff
        exact ⟨_, hwrite (hpad.trans (writeTo_denied (coreStatus_denied hf (.inl h0)))), hy, (congrArg State.mem hframe :), hraised⟩
      case clean =>
        obtain ⟨m, e, heq, hin, hother⟩ := writeTo_clean h18 (coreStatus_permitted hf h1 h2 h3) hc tag.toNat mpa.toNat line
        exact ⟨_, hwrite (hpad.trans heq), rfl, hin, hother, rfl⟩
      case lost =>
        obtain ⟨u, heq, hy, hmem⟩ := writeTo_lost (coreStatus_permitted hf h1 h2 h3) hl tag.toNat mpa.toNat
        refine ⟨_, hwrite (hpad.trans heq), ?_, hmem⟩
        rw [← hy]
        rfl
    case slow =>
      have hslow := windowWrite_reached hh hen hk tag.toNat _ line hr
      refine ⟨fun hst => ⟨_, hwrite (hslow.trans (writeTo_away hst)), rfl, rfl⟩, fun hst hbad => ?_⟩
      obtain ⟨u, heq, hy, hline, hkept⟩ := writeTo_merges hk.1 hr hst hbad tag.toNat line
      refine ⟨_, hwrite (hslow.trans heq), ?_, hline, hkept⟩
      rw [← hy]
      rfl
  case side =>
    refine ⟨served_of_blockRead rfl, served_of_blockRead rfl, served_of_blockRead rfl, served_of_blockRead rfl, served_of_blockRead rfl,
      served_of_blockRead rfl, served_of_blockRead ?_, served_of_blockRead ?_, served_of_blockRead ?_, served_of_blockRead rfl, fun hc =>
      served_of_blockRead ?_, fun h1 h10 => ?_, ⟨_, rfl, smbNack_nacked s⟩, alertResponse_spec s pec, ⟨_, rfl, rfl, rfl, rfl, .of_mem rfl _⟩,
      ⟨_, rfl, rfl, rfl, rfl, .of_mem rfl _⟩, ⟨_, rfl, rfl, rfl, rfl, .of_mem rfl _⟩⟩
    · rw [← map_ofNat_eq_flatMap]
      rfl
    · rw [← map_ofNat_eq_flatMap]
      rfl
    · rw [← map_ofNat_eq_flatMap]
      rfl
    · exact congrArg Host.Outcome.next (if_neg (by omega))
    · exact congrArg Host.Outcome.next (if_pos ⟨h1, h10⟩)

end Sys2Proof.Machine

namespace Sys2Proof.Machine

/-! ## The wipe of a core while a step is written through (R137, R441) -/

/-- The reset state with a write-through under way. -/
def loadingState : State := State.reset.wr Reg.BOOT_LOAD_STAT.BUSY 1

/-- What the start of a wipe leaves of a state. -/
def afterWipeStart (s : State) : State := (s.wipeStart 0 false).ledRecord 4 (detailCore 0)

theorem exec_wipeStart_loading : exec (.wipeStart 0) loadingState = .next (afterWipeStart loadingState) := by
  have h : loadingState.rd Reg.HND_STAT.HALTED 0 = 1 ∧ loadingState.corePresent 0 = true ∧
    loadingState.rd Reg.SP_STAT.WIPE_BUSY 0 = 0 := by decide +kernel
  exact congrArg Host.Outcome.next (if_pos h)

/-- R441: with a write-through under way the record of the wipe waits, and the ledger's number stands. -/
theorem rd_seq_afterWipeStart_loading :
    (afterWipeStart loadingState).rd Reg.TRUST_STAT.SEQ = 0 ∧ loadingState.rd Reg.TRUST_STAT.SEQ = 0 := by decide +kernel

/-- Refutes O27: while a step is written through (BOOT_LOAD_STAT.BUSY = 1) the ledger's records wait (R441), so a wipe that starts then
on the halted core 0 leaves TRUST_STAT.SEQ as it is; the statement has it go up by one. -/
theorem not_classesScrubAndWipe : ¬ Obligations.ClassesScrubAndWipe := by
  rintro ⟨-, hwipe, -⟩
  obtain ⟨t, he, -, -, -, -, -, -, hseq, -⟩ := hwipe 0 loadingState (by decide +kernel) (by decide +kernel) (by decide +kernel)
    (by unfold FourDrills; decide +kernel)
  have ht : afterWipeStart loadingState = t := Host.Outcome.next.inj (exec_wipeStart_loading.symm.trans he)
  obtain ⟨hafter, hbefore⟩ := rd_seq_afterWipeStart_loading
  rw [← ht, hafter, hbefore] at hseq
  exact absurd hseq (by decide)

end Sys2Proof.Machine

namespace Sys2Proof.Machine

/-! ### Every command ends in a next state -/

/-- The outcome is a next state. -/
def EndsNext (o : Host.Outcome State Fault Refusal) : Prop := ∃ t, o = .next t

theorem EndsNext.next (t : State) : EndsNext (.next t) := ⟨t, rfl⟩
theorem EndsNext.ite {c : Prop} [Decidable c] {o p : Host.Outcome State Fault Refusal} (h : EndsNext o) (g : EndsNext p) :
    EndsNext (if c then o else p) := by
  split
  · exact h
  · exact g

theorem flit_endsNext (f : FlitHeader) (corrected crcFail : Bool) (slots : List (BitVec 128)) (s : State) :
    EndsNext (execFlit f corrected crcFail slots s) :=
  .ite (.next _) (.ite (.next _) (.ite (.next _) (.next _)))
theorem rstNRise_endsNext (selfTest : Bool) (s : State) : EndsNext (execRstNRise selfTest s) :=
  .ite (.next _) (.ite (.next _) (.ite (.next _) (.ite (.next _) (.ite (.next _) (.ite (.next _) (.ite (.next _) (.next _)))))))
theorem frameSend_endsNext (port : PortId) (s : State) : EndsNext (execFrameSend port s) := by
  refine .ite (.next _) (.ite (.next _) (.ite (.next _) (.ite (.next _) (.ite (.next _) ?_))))
  split
  · split
    · exact .next _
    · exact .next _
  · refine .ite (.next _) ?_
    split
    · exact .next _
    · exact .next _
theorem bistEnd_endsNext (failC : List CroftId) (failT : List TabkoId) (failP : List PortId) (cells : List CoreId) (s : State) :
    EndsNext (execBistEnd failC failT failP cells s) := by
  unfold execBistEnd
  split
  · exact .next _
  · exact .next _

/-- Settles O55: every branch of every command's meaning is a next state; a case for the commands that branch, and one for those whose
meaning is a next state as it stands. -/
theorem everyCommandEndsInANextState : Obligations.EveryCommandEndsInANextState := by
  intro i s
  cases i
  case flit => exact flit_endsNext ..
  case rstNRise => exact rstNRise_endsNext ..
  case frameSend => exact frameSend_endsNext ..
  case bistEnd => exact bistEnd_endsNext ..
  case vcvt | afenceRelease | arrayDispatch | tileVerdict | tileRerunVerdict | arrRepairCommit | fwaitRelease | furrowEntryRun |
      furrowCaptureRun | segmentRun | segmentHoldStart | segmentHoldEnd | dwaitRelease | descriptorCheck | transferForm |
      transferComplete | twaitRelease | swaitRelease | stepRelease | scrubRead | spClassCommit | reEncodingDone | inspectionCopyDone |
      grant | packetDeparture | headlandRelease | gateAck | mcWr | mcSlotEject | mcBranchDrop | mcAck | mcMiss | sync | rdRsp | wrAck |
      patrolRead | granuleWipe | tabkoRetrainStart | dramHot | landingNotice | updateDone | sheaf | sheafMark | reEmit | stepClose |
      boundaryFold | boundaryChecks | releaseNaming | flrRingCommit | blnEn | laneAlign | hello | frameForward | credit | nak | beacon |
      fwdIdCommit | fwdCtlCommit | yrefDetect | yosalTrained | yosalDown | yosalTimeout | transInv | signalGapEnd | watchEnable |
      watchDisable | spaceCommit | load | sowingStart | kill | release | enclosureHalt | enclosureWipesDone | resowingDone |
      heartbeatSend | yokeLost | fallowWaitTimeout | compareScanDone | stateCard | powerPhaseStart | holdingChangeEnd | domainChangeEnd |
      opStopBegin | opChanged | protectiveTrip | tripDomainOff | thermWarn | stSupplyRemove | studLost | enInHigh | pgOut |
      bootPowerPhase | writeThroughGo | writeThroughDone | ledgerHourly | sliceStart | sliceEnd | fenceIsolate | spareRowStart |
      spareIn | ctlTree | eventRingWrite | scanDone | bell | refSwitchSelect | refSwitch | lossHalt | refRelock | badFrame |
      nonceExpiry | scanRead | localCopyDone =>
    dsimp only [exec, execVcvt, execAfenceRelease, execArrayDispatch, execTileVerdict, execTileRerunVerdict, execArrRepairCommit, execFwaitRelease,
      execFurrowEntryRun, execFurrowCaptureRun, execSegmentRun, execSegmentHoldStart, execSegmentHoldEnd, execDwaitRelease,
      execDescriptorCheck, execTransferForm, execTransferComplete, execTwaitRelease, execSwaitRelease, execStepRelease, execScrubRead,
      execSpClassCommit, execReEncodingDone, execInspectionCopyDone, execGrant, execPacketDeparture, execHeadlandRelease, execGateAck,
      execMcWr, execMcSlotEject, execMcBranchDrop, execMcAck, execMcMiss, execSync, execRdRsp, execWrAck, execPatrolRead,
      execGranuleWipe, execTabkoRetrainStart, execDramHot, execLandingNotice, execUpdateDone, execSheaf, execSheafMark, execReEmit,
      execStepClose, execBoundaryFold, execBoundaryChecks, execReleaseNaming, execFlrRingCommit, execBlnEn, execLaneAlign, execHello,
      execFrameForward, execCredit, execNak, execBeacon, execFwdIdCommit, execFwdCtlCommit, execYrefDetect, execYosalTrained,
      execYosalDown, execYosalTimeout, execTransInv, execSignalGapEnd, execWatchEnable, execWatchDisable, execSpaceCommit, execLoad,
      execSowingStart, execKill, execRelease, execEnclosureHalt, execEnclosureWipesDone, execResowingDone, execHeartbeatSend,
      execYokeLost, execFallowWaitTimeout, execCompareScanDone, execStateCard, execPowerPhaseStart, execHoldingChangeEnd,
      execDomainChangeEnd, execOpStopBegin, execOpChanged, execProtectiveTrip, execTripDomainOff, execThermWarn, execStSupplyRemove,
      execStudLost, execEnInHigh, execPgOut, execBootPowerPhase, execWriteThroughGo, execWriteThroughDone, execLedgerHourly,
      execSliceStart, execSliceEnd, execFenceIsolate, execSpareRowStart, execSpareIn, execCtlTree, execEventRingWrite, execScanDone,
      execBell, execRefSwitchSelect, execRefSwitch, execLossHalt, execRefRelock, execBadFrame, execNonceExpiry, execScanRead,
      execLocalCopyDone]
    repeat' split
    all_goals exact ⟨_, rfl⟩
  all_goals exact ⟨_, rfl⟩

end Sys2Proof.Machine

namespace Sys2Proof

/-! ## The words a core issues, and the commands they read back as (R97, R101, R49-R52, R157, R204, R237)

A word is its fields one behind another. Each field is a slice of the word, and slices that meet put the word together again. -/

/-! ### Fields of words -/

/-! #### R97 -/

theorem HandWord.wfield_word (op : BitVec 8) (w : HandWord) (lo k : Nat) :
    wfield (w.word op) lo k = BitVec.extractLsb' (n := 4 + 8 + 5 + 5 + 5 + 5 + 32) lo k (w.word op) := rfl
theorem HandWord.word_fields (op : BitVec 8) (w : HandWord) :
    wfield (w.word op) 60 4 = 0#4 ∧ wfield (w.word op) 52 8 = op ∧ read (w.word op) = w := by
  simp only [read, HandWord.wfield_word]
  simp (disch := decide) only [word, BitVec.extractLsb'_append_eq_of_le, BitVec.extractLsb'_append_eq_of_add_le,
    Nat.reduceSub, BitVec.extractLsb'_eq_self, and_self]
theorem HandWord.word_read {w : Word} (hu : wfield w 60 4 = 0#4) : (HandWord.read w).word (wfield w 52 8) = w := by
  simp only [read, word, ← hu, wfield, BitVec.extractLsb'_append_extractLsb'_eq_extractLsb']
  exact BitVec.extractLsb'_eq_self

/-! #### R101 -/

theorem VecWord.wfield_word (op : BitVec 8) (w : VecWord) (lo k : Nat) :
    wfield (w.word op) lo k = BitVec.extractLsb' (n := 4 + 8 + 3 + 5 + 5 + 5 + 5 + 1 + 12 + 16) lo k (w.word op) := rfl
theorem VecWord.word_fields (op : BitVec 8) (w : VecWord) :
    wfield (w.word op) 60 4 = 1#4 ∧ wfield (w.word op) 52 8 = op ∧ read (w.word op) = w := by
  simp only [read, VecWord.wfield_word]
  simp (disch := decide) only [word, BitVec.extractLsb'_append_eq_of_le, BitVec.extractLsb'_append_eq_of_add_le,
    Nat.reduceSub, BitVec.extractLsb'_eq_self, and_self]
theorem VecWord.word_read {w : Word} (hu : wfield w 60 4 = 1#4) : (VecWord.read w).word (wfield w 52 8) = w := by
  simp only [read, word, ← hu, wfield, BitVec.extractLsb'_append_extractLsb'_eq_extractLsb']
  exact BitVec.extractLsb'_eq_self

/-! #### R49 -/

theorem AmmaWord.wfield_word (w : AmmaWord) (lo k : Nat) :
    wfield w.word lo k = BitVec.extractLsb' (n := 4 + 4 + 4 + 4 + 5 + 5 + 1 + 1 + 1 + 1 + 1 + 1 + 11 + 21) lo k w.word := rfl
theorem AmmaWord.word_fields (w : AmmaWord) : wfield w.word 60 4 = 2#4 ∧ wfield w.word 56 4 = 1#4 ∧ read w.word = w := by
  simp only [read, AmmaWord.wfield_word]
  simp (disch := decide) only [word, BitVec.extractLsb'_append_eq_of_le, BitVec.extractLsb'_append_eq_of_add_le,
    Nat.reduceSub, BitVec.extractLsb'_eq_self, and_self]
theorem AmmaWord.word_read {w : Word} (hu : wfield w 60 4 = 2#4) (ho : wfield w 56 4 = 1#4) : (AmmaWord.read w).word = w := by
  simp only [read, word, ← hu, ← ho, wfield, BitVec.extractLsb'_append_extractLsb'_eq_extractLsb']
  exact BitVec.extractLsb'_eq_self

/-! #### R50 -/

theorem AdrainWord.wfield_word (w : AdrainWord) (lo k : Nat) :
    wfield w.word lo k = BitVec.extractLsb' (n := 4 + 4 + 4 + 5 + 1 + 2 + 1 + 1 + 42) lo k w.word := rfl
theorem AdrainWord.word_fields (w : AdrainWord) : wfield w.word 60 4 = 2#4 ∧ wfield w.word 56 4 = 2#4 ∧ read w.word = w := by
  simp only [read, AdrainWord.wfield_word]
  simp (disch := decide) only [word, BitVec.extractLsb'_append_eq_of_le, BitVec.extractLsb'_append_eq_of_add_le,
    Nat.reduceSub, BitVec.extractLsb'_eq_self, and_self]
theorem AdrainWord.word_read {w : Word} (hu : wfield w 60 4 = 2#4) (ho : wfield w 56 4 = 2#4) : (AdrainWord.read w).word = w := by
  have h : 2#4 ++ 2#4 = wfield w 60 4 ++ wfield w 56 4 := by rw [hu, ho]
  simp only [read, word, h, wfield, BitVec.extractLsb'_append_extractLsb'_eq_extractLsb']
  exact BitVec.extractLsb'_eq_self

/-! #### R51 -/

theorem AemitWord.wfield_word (w : AemitWord) (lo k : Nat) :
    wfield w.word lo k = BitVec.extractLsb' (n := 4 + 4 + 1 + 1 + 16 + 16 + 22) lo k w.word := rfl
theorem AemitWord.word_fields (w : AemitWord) : wfield w.word 60 4 = 2#4 ∧ wfield w.word 56 4 = 3#4 ∧ read w.word = w := by
  simp only [read, AemitWord.wfield_word]
  simp (disch := decide) only [word, BitVec.extractLsb'_append_eq_of_le, BitVec.extractLsb'_append_eq_of_add_le,
    Nat.reduceSub, BitVec.extractLsb'_eq_self, and_self]
theorem AemitWord.word_read {w : Word} (hu : wfield w 60 4 = 2#4) (ho : wfield w 56 4 = 3#4) : (AemitWord.read w).word = w := by
  simp only [read, word, ← hu, ← ho, wfield, BitVec.extractLsb'_append_extractLsb'_eq_extractLsb']
  exact BitVec.extractLsb'_eq_self

/-! #### R157 -/

theorem FurWord.wfield_word (op : BitVec 4) (w : FurWord) (lo k : Nat) :
    wfield (w.word op) lo k = BitVec.extractLsb' (n := 4 + 4 + 4 + 1 + 1 + 5 + 5 + 11 + 29) lo k (w.word op) := rfl
theorem FurWord.word_fields (op : BitVec 4) (w : FurWord) :
    wfield (w.word op) 60 4 = 4#4 ∧ wfield (w.word op) 56 4 = op ∧ read (w.word op) = w := by
  simp only [read, FurWord.wfield_word]
  simp (disch := decide) only [word, BitVec.extractLsb'_append_eq_of_le, BitVec.extractLsb'_append_eq_of_add_le,
    Nat.reduceSub, BitVec.extractLsb'_eq_self, and_self]
theorem FurWord.word_read {w : Word} (hu : wfield w 60 4 = 4#4) : (FurWord.read w).word (wfield w 56 4) = w := by
  simp only [read, word, ← hu, wfield, BitVec.extractLsb'_append_extractLsb'_eq_extractLsb']
  exact BitVec.extractLsb'_eq_self

/-! #### R204 -/

theorem DrillWord.wfield_word (op : BitVec 4) (w : DrillWord) (lo k : Nat) :
    wfield (w.word op) lo k = BitVec.extractLsb' (n := 4 + 4 + 2 + 5 + 1 + 48) lo k (w.word op) := rfl
theorem DrillWord.word_fields (op : BitVec 4) (w : DrillWord) :
    wfield (w.word op) 60 4 = 3#4 ∧ wfield (w.word op) 56 4 = op ∧ read (w.word op) = w := by
  simp only [read, DrillWord.wfield_word]
  simp (disch := decide) only [word, BitVec.extractLsb'_append_eq_of_le, BitVec.extractLsb'_append_eq_of_add_le,
    Nat.reduceSub, BitVec.extractLsb'_eq_self, and_self]
theorem DrillWord.word_read {w : Word} (hu : wfield w 60 4 = 3#4) : (DrillWord.read w).word (wfield w 56 4) = w := by
  simp only [read, word, ← hu, wfield, BitVec.extractLsb'_append_extractLsb'_eq_extractLsb']
  exact BitVec.extractLsb'_eq_self

/-! #### R237 -/

theorem SyncWord.wfield_word (op : BitVec 4) (w : SyncWord) (lo k : Nat) :
    wfield (w.word op) lo k = BitVec.extractLsb' (n := 4 + 4 + 5 + 5 + 3 + 43) lo k (w.word op) := rfl
theorem SyncWord.word_fields (op : BitVec 4) (w : SyncWord) :
    wfield (w.word op) 60 4 = 5#4 ∧ wfield (w.word op) 56 4 = op ∧ read (w.word op) = w := by
  simp only [read, SyncWord.wfield_word]
  simp (disch := decide) only [word, BitVec.extractLsb'_append_eq_of_le, BitVec.extractLsb'_append_eq_of_add_le,
    Nat.reduceSub, BitVec.extractLsb'_eq_self, and_self]
theorem SyncWord.word_read {w : Word} (hu : wfield w 60 4 = 5#4) : (SyncWord.read w).word (wfield w 56 4) = w := by
  simp only [read, word, ← hu, wfield, BitVec.extractLsb'_append_extractLsb'_eq_extractLsb']
  exact BitVec.extractLsb'_eq_self

/-! #### R52 -/

theorem wfield_afenceWord (rsv : BitVec 56) (lo k : Nat) :
    wfield (afenceWord rsv) lo k = BitVec.extractLsb' (n := 4 + 4 + 56) lo k (afenceWord rsv) := rfl
theorem afenceWord_fields (rsv : BitVec 56) :
    wfield (afenceWord rsv) 60 4 = 2#4 ∧ wfield (afenceWord rsv) 56 4 = 4#4 ∧ wfield (afenceWord rsv) 0 56 = rsv := by
  simp only [wfield_afenceWord]
  simp (disch := decide) only [afenceWord, BitVec.extractLsb'_append_eq_of_le, BitVec.extractLsb'_append_eq_of_add_le,
    Nat.reduceSub, BitVec.extractLsb'_eq_self, and_self]
theorem afenceWord_wfield {w : Word} (hu : wfield w 60 4 = 2#4) (ho : wfield w 56 4 = 4#4) : afenceWord (wfield w 0 56) = w := by
  simp only [afenceWord, ← hu, ← ho, wfield, BitVec.extractLsb'_append_extractLsb'_eq_extractLsb']
  exact BitVec.extractLsb'_eq_self

/-! ### What a word reads as, by its UNIT and OP -/

theorem opFind_isSome {α : Type} (l : List (BitVec 8 × α)) (op : BitVec 8) : (opFind l op).isSome = (l.map Prod.fst).contains op := by
  induction l with
  | nil => rfl
  | cons p t ih =>
    by_cases h : p.1 = op
    · simp [opFind, h]
    · simp [opFind, h, ih, Ne.symm h]
theorem mem_of_opFind {α : Type} {l : List (BitVec 8 × α)} {op : BitVec 8} {v : α} (h : opFind l op = some v) : (op, v) ∈ l := by
  induction l with
  | nil => cases h
  | cons p t ih =>
    simp only [opFind] at h
    split at h
    · next e => cases h; exact List.mem_cons.mpr (.inl (by rw [← e]))
    · exact List.mem_cons_of_mem _ (ih h)

section
variable {core : CoreId} {sub : Fin 8} {w : Word}

theorem coreWord_hand (hu : wfield w 60 4 = 0#4) {f : CoreId → HandWord → Instr} (hf : opFind handOps (wfield w 52 8) = some f) :
    coreWord core sub w = some (f core (.read w)) := by simp [coreWord, hu, hf]
theorem coreWord_vec (hu : wfield w 60 4 = 1#4) {f : CoreId → VecWord → Instr} (hf : opFind vecOps (wfield w 52 8) = some f) :
    coreWord core sub w = some (f core (.read w)) := by simp [coreWord, hu, hf]
theorem coreWord_amma (hu : wfield w 60 4 = 2#4) (ho : wfield w 56 4 = 1#4) : coreWord core sub w = some (.amma core (.read w)) := by
  simp [coreWord, hu, ho]
theorem coreWord_adrain (hu : wfield w 60 4 = 2#4) (ho : wfield w 56 4 = 2#4) : coreWord core sub w = some (.adrain core (.read w)) := by
  simp [coreWord, hu, ho]
theorem coreWord_aemit (hu : wfield w 60 4 = 2#4) (ho : wfield w 56 4 = 3#4) : coreWord core sub w = some (.aemit core (.read w)) := by
  simp [coreWord, hu, ho]
theorem coreWord_afence (hu : wfield w 60 4 = 2#4) (ho : wfield w 56 4 = 4#4) :
    coreWord core sub w = some (.afence core (wfield w 0 56)) := by
  simp [coreWord, hu, ho]
theorem coreWord_darm (hu : wfield w 60 4 = 3#4) (ho : wfield w 56 4 = 1#4) : coreWord core sub w = some (.darm core (.read w)) := by
  simp [coreWord, hu, ho]
theorem coreWord_dwait (hu : wfield w 60 4 = 3#4) (ho : wfield w 56 4 = 2#4) : coreWord core sub w =
    some (if (DrillWord.read w).mode = 0 then .dwait core (.read w) else .dwaitPendingFree core (.read w)) := by
  simp [coreWord, hu, ho]
theorem coreWord_finj (hu : wfield w 60 4 = 4#4) (ho : wfield w 56 4 = 1#4) : coreWord core sub w = some (.finj core (.read w) sub) := by
  simp [coreWord, hu, ho]
theorem coreWord_fcap (hu : wfield w 60 4 = 4#4) (ho : wfield w 56 4 = 2#4) : coreWord core sub w = some (.fcap core (.read w) sub) := by
  simp [coreWord, hu, ho]
theorem coreWord_fwait (hu : wfield w 60 4 = 4#4) (ho : wfield w 56 4 = 3#4) : coreWord core sub w = some (.fwait core (.read w) sub) := by
  simp [coreWord, hu, ho]
theorem coreWord_tread (hu : wfield w 60 4 = 5#4) (ho : wfield w 56 4 = 1#4) : coreWord core sub w = some (.tread core (.read w)) := by
  simp [coreWord, hu, ho]
theorem coreWord_twait (hu : wfield w 60 4 = 5#4) (ho : wfield w 56 4 = 2#4) : coreWord core sub w = some (.twait core (.read w)) := by
  simp [coreWord, hu, ho]
theorem coreWord_ssend (hu : wfield w 60 4 = 5#4) (ho : wfield w 56 4 = 3#4) : coreWord core sub w = some (.ssend core (.read w)) := by
  simp [coreWord, hu, ho]
theorem coreWord_swait (hu : wfield w 60 4 = 5#4) (ho : wfield w 56 4 = 4#4) : coreWord core sub w = some (.swait core (.read w)) := by
  simp [coreWord, hu, ho]
theorem coreWord_sbar (hu : wfield w 60 4 = 5#4) (ho : wfield w 56 4 = 5#4) : coreWord core sub w = some (.sbar core (.read w)) := by
  simp [coreWord, hu, ho]

/-- The OPs of UNIT 0 and UNIT 1 that the tables list are those that are read. -/
theorem handOps_isSome (op : BitVec 8) : (opFind handOps op).isSome = handCodes.contains op := opFind_isSome handOps op
theorem vecOps_isSome (op : BitVec 8) : (opFind vecOps op).isSome = vecCodes.contains op := opFind_isSome vecOps op

/-- A UNIT and OP that the tables do not list is issued as HALT's row has it (R55, R115, R237). -/
theorem coreWord_unlisted (h : opListed w = false) : coreWord core sub w = some (.halt core w) := by
  unfold opListed at h
  unfold coreWord
  split at h
  · next hu =>
    rw [← handOps_isSome, Option.isSome_eq_false_iff, Option.isNone_iff_eq_none] at h
    simp [hu, h]
  · next hu =>
    rw [← vecOps_isSome, Option.isSome_eq_false_iff, Option.isNone_iff_eq_none] at h
    simp [hu, h]
  · next h0 h1 =>
    unfold unitCodes at h
    split at h
    case h_5 h2 h3 h4 h5 => simp
    all_goals
      next hu =>
      simp only [List.contains_cons, List.contains_nil, Bool.or_eq_false_iff, beq_eq_false_iff_ne] at h
      simp [hu, h]

/-- A word whose UNIT and OP the tables list has one of these. -/
theorem opListed_cases (h : opListed w = true) :
    (wfield w 60 4 = 0#4 ∧ ∃ f, opFind handOps (wfield w 52 8) = some f) ∨
    (wfield w 60 4 = 1#4 ∧ ∃ f, opFind vecOps (wfield w 52 8) = some f) ∨ wfield w 56 4 ∈ unitCodes (wfield w 60 4) := by
  unfold opListed at h
  split at h
  · next hu => exact .inl ⟨BitVec.eq_of_toNat_eq hu, Option.isSome_iff_exists.mp ((handOps_isSome _).trans h)⟩
  · next hu => exact .inr (.inl ⟨BitVec.eq_of_toNat_eq hu, Option.isSome_iff_exists.mp ((vecOps_isSome _).trans h)⟩)
  · exact .inr (.inr (List.contains_iff_mem.mp h))

end

/-! ### From the command to its word and back -/

theorem coreWord_handWord {op : BitVec 8} {f : CoreId → HandWord → Instr} (h : opFind handOps op = some f) (core : CoreId) (w : HandWord) :
    coreWord core 0 (w.word op) = some (f core w) := by
  obtain ⟨hu, ho, hr⟩ := w.word_fields op
  rw [coreWord_hand hu (ho.symm ▸ h), hr]
theorem coreWord_vecWord {op : BitVec 8} {f : CoreId → VecWord → Instr} (h : opFind vecOps op = some f) (core : CoreId) (w : VecWord) :
    coreWord core 0 (w.word op) = some (f core w) := by
  obtain ⟨hu, ho, hr⟩ := w.word_fields op
  rw [coreWord_vec hu (ho.symm ▸ h), hr]

/-- The word of a command reads back as that command. -/
theorem coreWord_of_wordOf {i : Instr} {core : CoreId} {sub : Fin 8} {word : Word} (hw : i.wellFormed = true)
    (h : wordOf i = some (core, sub, word)) : coreWord core sub word = some i := by
  cases i
  case add | sub | and | or | xor | shl | shr | sra | slt | sltu | mul | addi | andi | ori | shli | shri | srai | lih | ld | ldw | st |
      stw | beq | bne | blt | bge | bltu | jal | jr | vsetvl | csrr | csrw =>
    cases h
    exact coreWord_handWord rfl ..
  case vadd | vsub | vadds | vsubs | vmuls | vmul | vmin | vmax | vand | vor | vxor | vandn | vshl | vshr | vsra | vshls | vsrar | vceq |
      vclt | vcle | vsel | vfadd | vfsub | vfmul | vfma | vfnma | vfmin | vfmax | vfsgn | vfabs | vfneg | vexp2 | vlog2 | vrcp | vrsq |
      vcvt | vmxq | vmxe | vperm | vrsum | vrmax | vins | vext | vld | vst =>
    cases h
    exact coreWord_vecWord rfl ..
  case amma w | adrain w | aemit w =>
    cases h
    simp [coreWord_amma, coreWord_adrain, coreWord_aemit, w.word_fields]
  case afence rsv =>
    cases h
    simp [coreWord_afence, afenceWord_fields rsv]
  case darm w | dwait w | dwaitPendingFree w =>
    cases h
    simp_all [coreWord_darm, coreWord_dwait, DrillWord.word_fields _ w, Instr.wellFormed]
  case finj w _ | fcap w _ | fwait w _ =>
    cases h
    simp [coreWord_finj, coreWord_fcap, coreWord_fwait, FurWord.word_fields _ w]
  case tread w | twait w | ssend w | swait w | sbar w =>
    cases h
    simp [coreWord_tread, coreWord_twait, coreWord_ssend, coreWord_swait, coreWord_sbar, SyncWord.word_fields _ w]
  case halt =>
    cases h
    exact coreWord_unlisted ((Bool.not_eq_true' _).mp hw)
  all_goals cases h

/-- The command is well formed and issues this word, in the sub-cycle it was read with where it names one. -/
def IssuesWord (core : CoreId) (sub : Fin 8) (word : Word) (i : Instr) : Prop :=
  i.wellFormed = true ∧ ∃ sub' : Fin 8, (sub' = sub ∨ sub' = 0) ∧ wordOf i = some (core, sub', word)

theorem IssuesWord.intro {core : CoreId} {sub sub' : Fin 8} {i : Instr} {v w : Word} (hw : i.wellFormed = true) (hs : sub' = sub ∨ sub' = 0)
    (hi : wordOf i = some (core, sub', v)) (e : v = w) : IssuesWord core sub w i := ⟨hw, sub', hs, e ▸ hi⟩

/-- A command of a table of operations issues the word of its OP. -/
theorem wordOf_handOps : ∀ p ∈ handOps, ∀ (core : CoreId) (w : HandWord),
    (p.2 core w).wellFormed = true ∧ wordOf (p.2 core w) = some (core, 0, w.word p.1) := by
  intro p hp core w
  fin_cases hp <;> exact ⟨rfl, rfl⟩
theorem wordOf_vecOps : ∀ p ∈ vecOps, ∀ (core : CoreId) (w : VecWord),
    (p.2 core w).wellFormed = true ∧ wordOf (p.2 core w) = some (core, 0, w.word p.1) := by
  intro p hp core w
  fin_cases hp <;> exact ⟨rfl, rfl⟩

/-- The UNITs whose OP has four bits, with their OPs (R49-R52, R157, R204, R237). -/
theorem mem_unitCodes {u op : BitVec 4} (h : op ∈ unitCodes u) :
    u = 2#4 ∧ (op = 1#4 ∨ op = 2#4 ∨ op = 3#4 ∨ op = 4#4) ∨ u = 3#4 ∧ (op = 1#4 ∨ op = 2#4) ∨
    u = 4#4 ∧ (op = 1#4 ∨ op = 2#4 ∨ op = 3#4) ∨ u = 5#4 ∧ (op = 1#4 ∨ op = 2#4 ∨ op = 3#4 ∨ op = 4#4 ∨ op = 5#4) := by
  revert u op
  decide

section
variable {w : Word} (core : CoreId) (sub : Fin 8)

theorem arrayWord_issuesWord (hu : wfield w 60 4 = 2#4)
    (ho : wfield w 56 4 = 1#4 ∨ wfield w 56 4 = 2#4 ∨ wfield w 56 4 = 3#4 ∨ wfield w 56 4 = 4#4) :
    ∃ i, coreWord core sub w = some i ∧ IssuesWord core sub w i := by
  rcases ho with ho | ho | ho | ho
  · exact ⟨_, coreWord_amma hu ho, .intro rfl (.inr rfl) rfl (AmmaWord.word_read hu ho)⟩
  · exact ⟨_, coreWord_adrain hu ho, .intro rfl (.inr rfl) rfl (AdrainWord.word_read hu ho)⟩
  · exact ⟨_, coreWord_aemit hu ho, .intro rfl (.inr rfl) rfl (AemitWord.word_read hu ho)⟩
  · exact ⟨_, coreWord_afence hu ho, .intro rfl (.inr rfl) rfl (afenceWord_wfield hu ho)⟩

theorem drillWord_issuesWord (hu : wfield w 60 4 = 3#4) (ho : wfield w 56 4 = 1#4 ∨ wfield w 56 4 = 2#4) :
    ∃ i, coreWord core sub w = some i ∧ IssuesWord core sub w i := by
  have hw := DrillWord.word_read hu
  rcases ho with ho | ho <;> rw [ho] at hw
  · exact ⟨_, coreWord_darm hu ho, .intro rfl (.inr rfl) rfl hw⟩
  · refine ⟨_, coreWord_dwait hu ho, ?_⟩
    split
    · next hm => exact .intro (decide_eq_true hm) (.inr rfl) rfl hw
    · next hm => exact .intro (decide_eq_true ((BitVec.eq_zero_or_eq_one _).resolve_left hm)) (.inr rfl) rfl hw

theorem furWord_issuesWord (hu : wfield w 60 4 = 4#4) (ho : wfield w 56 4 = 1#4 ∨ wfield w 56 4 = 2#4 ∨ wfield w 56 4 = 3#4) :
    ∃ i, coreWord core sub w = some i ∧ IssuesWord core sub w i := by
  have hw := FurWord.word_read hu
  rcases ho with ho | ho | ho <;> rw [ho] at hw
  · exact ⟨_, coreWord_finj hu ho, .intro rfl (.inl rfl) rfl hw⟩
  · exact ⟨_, coreWord_fcap hu ho, .intro rfl (.inl rfl) rfl hw⟩
  · exact ⟨_, coreWord_fwait hu ho, .intro rfl (.inl rfl) rfl hw⟩

theorem syncWord_issuesWord (hu : wfield w 60 4 = 5#4)
    (ho : wfield w 56 4 = 1#4 ∨ wfield w 56 4 = 2#4 ∨ wfield w 56 4 = 3#4 ∨ wfield w 56 4 = 4#4 ∨ wfield w 56 4 = 5#4) :
    ∃ i, coreWord core sub w = some i ∧ IssuesWord core sub w i := by
  have hw := SyncWord.word_read hu
  rcases ho with ho | ho | ho | ho | ho <;> rw [ho] at hw
  · exact ⟨_, coreWord_tread hu ho, .intro rfl (.inr rfl) rfl hw⟩
  · exact ⟨_, coreWord_twait hu ho, .intro rfl (.inr rfl) rfl hw⟩
  · exact ⟨_, coreWord_ssend hu ho, .intro rfl (.inr rfl) rfl hw⟩
  · exact ⟨_, coreWord_swait hu ho, .intro rfl (.inr rfl) rfl hw⟩
  · exact ⟨_, coreWord_sbar hu ho, .intro rfl (.inr rfl) rfl hw⟩

end

/-- Whatever a word reads as issues that word. -/
theorem coreWord_issuesWord (core : CoreId) (sub : Fin 8) (word : Word) :
    ∃ i, coreWord core sub word = some i ∧ IssuesWord core sub word i := by
  cases hl : opListed word with
  | false => exact ⟨_, coreWord_unlisted hl, .intro ((Bool.not_eq_true' _).mpr hl) (.inr rfl) rfl rfl⟩
  | true =>
    rcases opListed_cases hl with ⟨hu, f, hf⟩ | ⟨hu, f, hf⟩ | h4
    · obtain ⟨hw, hi⟩ := wordOf_handOps _ (mem_of_opFind hf) core (.read word)
      exact ⟨_, coreWord_hand hu hf, .intro hw (.inr rfl) hi (HandWord.word_read hu)⟩
    · obtain ⟨hw, hi⟩ := wordOf_vecOps _ (mem_of_opFind hf) core (.read word)
      exact ⟨_, coreWord_vec hu hf, .intro hw (.inr rfl) hi (VecWord.word_read hu)⟩
    · rcases mem_unitCodes h4 with ⟨hu, ho⟩ | ⟨hu, ho⟩ | ⟨hu, ho⟩ | ⟨hu, ho⟩
      · exact arrayWord_issuesWord core sub hu ho
      · exact drillWord_issuesWord core sub hu ho
      · exact furWord_issuesWord core sub hu ho
      · exact syncWord_issuesWord core sub hu ho

/-- Settles O56: a command's word has the UNIT, OP and fields that `coreWord` reads, and what `coreWord` reads
issues the word it was read from. -/
theorem coreWordsReadBack : Obligations.CoreWordsReadBack := by
  refine ⟨fun i core sub word hw h => coreWord_of_wordOf hw h, fun core sub word i h => ?_⟩
  obtain ⟨j, hj, hi⟩ := coreWord_issuesWord core sub word
  cases h.symm.trans hj
  exact hi

end Sys2Proof

namespace Sys2Proof.Machine

/-! ## Values at reset (R12) -/

/-- At reset a register field holds what its table gives. -/
theorem rd_reset (f : Fld) (i j : Nat) : State.reset.rd f i j = f.reset := rfl

/-- At reset every gate is CLOSED (R129). -/
theorem gateOpen_reset (core g : Nat) : State.reset.gateOpen core g = false := decide_eq_false (by rw [rd_reset]; decide)

/-- At reset both bins have the float type (R43). -/
theorem binInt_reset (core bin : Nat) : State.reset.binInt core bin = false := by
  unfold State.binInt
  split
  · exact decide_eq_false (by rw [rd_reset]; decide)
  · exact decide_eq_false (by rw [rd_reset]; decide)

theorem slack_reset : ∀ f ∈ [Reg.HL_SLACK.S_N, Reg.HL_SLACK.S_E, Reg.HL_SLACK.S_S, Reg.HL_SLACK.S_W], f.reset = 1 := by decide

/-- Settles O60: every field reads as its table gives it for reset, and the bins list no cell, so each reads as +0. -/
theorem valuesAtReset : Obligations.ValuesAtReset := by
  unfold Obligations.ValuesAtReset
  simp only [rd_reset]
  exact ⟨rfl, rfl, fun core g => ⟨gateOpen_reset core g, rfl, rfl⟩, fun core b _ => ⟨rfl, binInt_reset core b⟩, fun _ => ⟨rfl, rfl, rfl, rfl⟩,
    fun _ => ⟨rfl, slack_reset, rfl, rfl⟩, rfl, rfl, rfl, rfl, rfl, rfl, rfl, rfl, rfl, rfl, rfl, rfl⟩

end Sys2Proof.Machine

namespace Sys2Proof.Machine

/-! ## Words that are discarded at issue (R55, R115, R237) -/

/-- A word that a core discards after a change of its registers and records is discarded before it, where the change leaves PC, the
hand registers and every register below the cores' blocks. -/
theorem Discarded.of_kept {s u t : State} {core : CoreId} {word : Word} {cause code : Nat} {P : Nat → Prop}
    (d : Discarded u t core word cause code) (hframe : { u with fields := s.fields, cores := s.cores } = s) (hkept : Kept s u P)
    (hlow : ∀ k < 0x200010000000 * 64, ¬P k) (hpc : ¬P (pcKey core))
    (hh : ∀ (c : CoreId) (r : BitVec 5), ¬P (Reg.HND_H.VALUE.key c.val r.toNat)) : Discarded s t core word cause code := by
  obtain ⟨hill, hhalt, hcause, hpc', hraised, hhand, hv, hbytes⟩ := d
  have hev : u.events = s.events := (congrArg State.events hframe :)
  refine ⟨hill, hhalt, hcause, hpc'.trans (hkept.rd _ _ _ hpc), hraised.of_kept hkept hlow hev (fun _ he => he), fun c r => ?_,
    hv.trans (congrArg State.vregs hframe :), fun a ha => (hbytes a ha).trans ?_⟩
  · refine (hhand c r).trans ?_
    unfold State.h
    rw [hkept.rd _ _ _ (hh c r)]
  · exact BytesKept.of_mem (congrArg State.mem hframe :) (fun _ => False) a id

theorem halted_of_canIssue {s : State} {core : Nat} (h : s.canIssue core = true) : s.rd Reg.HND_STAT.HALTED core = 0 := by
  simp only [State.canIssue, Bool.and_eq_true, decide_eq_true_eq] at h
  exact h.1.1.1

/-- A legal array instruction of a hand that can issue, with a place free in the queue, enters it (R53). -/
theorem arrIssue_of_ok {s : State} {core : Nat} (h : s.canIssue core = true) (hq : (s.core core).arrQ.length < 4) (word : Word)
    (enter : State → State) : s.arrIssue core word true enter = (enter s).advance core := by simp [State.arrIssue, h, hq]
/-- An illegal one is discarded (R55). -/
theorem arrIssue_of_not_ok {s : State} {core : Nat} (h : s.canIssue core = true) (hq : (s.core core).arrQ.length < 4) (word : Word)
    (enter : State → State) : s.arrIssue core word false enter = s.arrIllegal core word := by simp [State.arrIssue, h, hq]

section
variable {i : Instr} {s : State} {core : CoreId} {word : Word}

/-- A word that the hand issues and that fails its check is discarded (R115). -/
theorem discards_of_issue {ok : Bool} {eff : State → State} (hi : s.canIssue core.val = true)
    (he : exec i s = .next (s.issue core.val word ok eff)) (hok : ok = false) :
    ∃ t, exec i s = .next t ∧ Discarded s t core word 2 0x03 := by
  refine ⟨_, he, ?_⟩
  rw [hok, issue_of_not_ok hi]
  exact illegal_discarded (halted_of_canIssue hi) word (by decide) (by decide) _

/-- An array instruction that fails its check is discarded and sets ARR_STAT.ILL (R55). -/
theorem discards_of_arrIssue {ok : Bool} {enter : State → State} (hi : s.canIssue core.val = true) (hq : (s.core core.val).arrQ.length < 4)
    (he : exec i s = .next (s.arrIssue core.val word ok enter)) (hok : ok = false) :
    ∃ t, exec i s = .next t ∧ Discarded s t core word 3 0x33 ∧ t.rd Reg.ARR_STAT.ILL core.val = 1 := by
  have hw := word.isLt
  rw [hok, arrIssue_of_not_ok hi hq, State.arrIllegal] at he
  have hne : Reg.HND_STAT.HALTED.key core.val 0 ≠ Reg.ARR_STAT.ILL.key core.val 0 :=
    Fld.key_ne rfl (by decide) (by decide) (.inl (by decide))
  have hhalt : (s.wr Reg.ARR_STAT.ILL 1 core.val).rd Reg.HND_STAT.HALTED core.val = 0 :=
    (State.rd_wr_other s Reg.ARR_STAT.ILL Reg.HND_STAT.HALTED 1 core.val 0 core.val 0 hne).trans (halted_of_canIssue hi)
  have hd := illegal_discarded hhalt word (cause := 3) (by decide) (by decide) 0x33
  refine ⟨_, he, hd.of_kept (P := fun k => k = Reg.ARR_STAT.ILL.key core.val 0) rfl (Kept.wr s _ _ _ _) (fun k hk e => ?low) ?pc
    (fun c r => ?hand), ?ill⟩
  case low =>
    simp only [e, Fld.key, Fld.addr, Reg.ARR_STAT.ILL, Block.base] at hk
    omega
  case pc => exact Fld.key_ne rfl (by decide) (by decide) (.inl (by decide))
  case hand =>
    have := r.isLt
    simp only [Fld.key, Fld.addr, Reg.HND_H.VALUE, Reg.ARR_STAT.ILL, Block.base]
    omega
  case ill =>
    refine (illegal_rd hhalt (cause := 3) (by decide) 0x33 hw (f := Reg.ARR_STAT.ILL) (c := core.val) (j := 0) rfl (by decide)
      (by decide) (by decide) ?_).trans (State.rd_wr_same ..)
    simp [illegalKeys, Fld.key, Fld.addr, Reg.HND_ILL.WORD, Reg.HND_STAT.HALTED, Reg.HND_STAT.CAUSE, Reg.ARR_STAT.ILL]
    omega

end

/-! ### What makes a hand word illegal (R115) -/

/-- The word has a nonzero reserved field, or its operation's address, target or width is illegal. -/
def handIllegal (op : BitVec 8) (core : CoreId) (w : HandWord) (s : State) : Prop :=
  w.rsv ≠ 0 ∨ (op ∈ [0x20#8, 0x21#8] ∧ s.hAddr core.val w % 8 ≠ 0) ∨ (op ∈ [0x22#8, 0x23#8] ∧ s.hAddr core.val w % 4 ≠ 0) ∨
    (op ∈ [0x30#8, 0x31#8, 0x32#8, 0x33#8, 0x34#8, 0x38#8] ∧ (s.hTarget core.val w < 0 ∨ 2047 < s.hTarget core.val w)) ∨
    (op = 0x39#8 ∧ 2047 < (s.hs1 core.val w).toNat) ∨ (op = 0x40#8 ∧ w.imm.toNat % 4 = 3)

/-- The OPs for which R115 names more than the fields. -/
def checkedOps : List (BitVec 8) :=
  [0x20#8, 0x21#8, 0x22#8, 0x23#8, 0x30#8, 0x31#8, 0x32#8, 0x33#8, 0x34#8, 0x38#8, 0x39#8, 0x40#8]

/-- A command that issues hand words of an OP discards the illegal ones. -/
def HandDiscards (p : (CoreId → HandWord → Instr) × BitVec 8) : Prop :=
  ∀ (core : CoreId) (w : HandWord) (s : State), s.canIssue core.val = true → handIllegal p.2 core w s →
    ∃ t, exec (p.1 core w) s = .next t ∧ Discarded s t core (w.word p.2) 2 0x03

theorem handFields_of_rsv {w : HandWord} (h : w.rsv ≠ 0) (d a b : Bool) : handFields w d a b = false := by
  simp only [handFields, decide_eq_false h, Bool.false_and]

section
variable {con : CoreId → HandWord → Instr} {op : BitVec 8}

/-- An operation whose word is legal by its fields and a further check, which fails where R115 says so. -/
theorem handDiscards_of_check {check : CoreId → HandWord → State → Bool}
    (he : ∀ core w s, ∃ d a b eff, exec (con core w) s = .next (s.issue core.val (w.word op) (handFields w d a b && check core w s) eff))
    (hc : ∀ core w s, handIllegal op core w s → w.rsv = 0 → check core w s = false) : HandDiscards (con, op) := by
  intro core w s hi h
  obtain ⟨d, a, b, eff, he⟩ := he core w s
  refine discards_of_issue hi he ?_
  by_cases hr : w.rsv = 0
  · rw [hc core w s h hr, Bool.and_false]
  · rw [handFields_of_rsv hr, Bool.false_and]

/-- An operation that R115 checks by its fields alone. -/
theorem handDiscards_of_fields (hop : op ∉ checkedOps)
    (he : ∀ core w s, ∃ ok eff, exec (con core w) s = .next (s.issue core.val (w.word op) ok eff) ∧ (w.rsv ≠ 0 → ok = false)) :
    HandDiscards (con, op) := by
  intro core w s hi h
  obtain ⟨ok, eff, he, hok⟩ := he core w s
  refine discards_of_issue hi he (hok ?_)
  simp only [checkedOps, List.mem_cons, List.not_mem_nil, or_false, not_or] at hop
  obtain ⟨h20, h21, h22, h23, h30, h31, h32, h33, h34, h38, h39, h40⟩ := hop
  simpa [handIllegal, h20, h21, h22, h23, h30, h31, h32, h33, h34, h38, h39, h40] using h

/-- A load or store of `n` bytes whose address is no multiple of `n`. -/
theorem handDiscards_aligned {n : Nat} (hn : op ∈ [0x20#8, 0x21#8] ∧ n = 8 ∨ op ∈ [0x22#8, 0x23#8] ∧ n = 4)
    (he : ∀ core w s, ∃ d a b eff,
      exec (con core w) s = .next (s.issue core.val (w.word op) (handFields w d a b && decide (s.hAddr core.val w % n = 0)) eff)) :
    HandDiscards (con, op) := by
  refine handDiscards_of_check he (fun core w s h hr => decide_eq_false (fun ha => ?_))
  simp only [List.mem_cons, List.not_mem_nil, or_false] at hn
  rcases hn with ⟨rfl | rfl, rfl⟩ | ⟨rfl | rfl, rfl⟩
  all_goals
    simp [handIllegal, hr] at h
    exact h ha

/-- A branch or JAL whose target lies outside the code store. -/
theorem handDiscards_target (hop : op ∈ [0x30#8, 0x31#8, 0x32#8, 0x33#8, 0x34#8, 0x38#8])
    (he : ∀ core w s, ∃ d a b eff,
      exec (con core w) s = .next (s.issue core.val (w.word op) (handFields w d a b && targetOk (s.hTarget core.val w)) eff)) :
    HandDiscards (con, op) := by
  refine handDiscards_of_check he (fun core w s h hr => ?_)
  simp only [List.mem_cons, List.not_mem_nil, or_false] at hop
  have ht : s.hTarget core.val w < 0 ∨ 2047 < s.hTarget core.val w := by
    rcases hop with rfl | rfl | rfl | rfl | rfl | rfl
    all_goals simpa [handIllegal, hr] using h
  simp only [targetOk, Bool.and_eq_false_iff, decide_eq_false_iff_not]
  omega

end

theorem handDiscards_jr : HandDiscards (Instr.jr, 0x39#8) := by
  refine handDiscards_of_check (check := fun core w s => targetOk ((s.hs1 core.val w).toNat : Int)) (fun core w s => ⟨_, _, _, _, rfl⟩)
    (fun core w s h hr => ?_)
  have ht : 2047 < (s.hs1 core.val w).toNat := by simpa [handIllegal, hr] using h
  simp only [targetOk, Bool.and_eq_false_iff, decide_eq_false_iff_not]
  omega
theorem handDiscards_vsetvl : HandDiscards (Instr.vsetvl, 0x40#8) := by
  refine handDiscards_of_check (check := fun _ w _ => decide (w.imm.toNat % 4 ≠ 3)) (fun core w s => ⟨_, _, _, _, rfl⟩)
    (fun core w s h hr => ?_)
  have ht : w.imm.toNat % 4 = 3 := by simpa [handIllegal, hr] using h
  simp [ht]
theorem handDiscards_csrr : HandDiscards (Instr.csrr, 0x28#8) :=
  handDiscards_of_fields (by decide) (fun _ _ _ => ⟨_, _, rfl, fun h => by rw [handFields_of_rsv h, Bool.false_and]⟩)
theorem handDiscards_csrw : HandDiscards (Instr.csrw, 0x29#8) :=
  handDiscards_of_fields (by decide) (fun _ _ _ => ⟨_, _, rfl, fun h => by rw [handFields_of_rsv h, Bool.false_and, Bool.false_and]⟩)

/-! ### Vector words (R101, R115) -/

theorem vecOk_of_rsv {w : VecWord} (h : w.rsv ≠ 0) (types : List Nat) (use2 use3 mem : Bool) : vecOk w types use2 use3 mem = false := by
  simp only [vecOk, decide_eq_false h, Bool.and_false, Bool.false_and]

theorem vecMemOk_of_rsv {s : State} {core : Nat} {w : VecWord} (h : w.rsv ≠ 0) : s.vecMemOk core w = false := by
  simp only [State.vecMemOk, vecOk_of_rsv h, Bool.false_and]

/-- A command that issues vector words of an OP discards those with a nonzero reserved field. -/
def VecDiscards (p : (CoreId → VecWord → Instr) × BitVec 8) : Prop :=
  ∀ (core : CoreId) (w : VecWord) (s : State), s.canIssue core.val = true → w.rsv ≠ 0 →
    ∃ t, exec (p.1 core w) s = .next t ∧ Discarded s t core (w.word p.2) 2 0x03

theorem vecDiscards_of_issue {con : CoreId → VecWord → Instr} {op : BitVec 8}
    (he : ∀ core w s, ∃ ok eff, exec (con core w) s = .next (s.issue core.val (w.word op) ok eff) ∧ (w.rsv ≠ 0 → ok = false)) :
    VecDiscards (con, op) := by
  intro core w s hi h
  obtain ⟨ok, eff, he, hok⟩ := he core w s
  exact discards_of_issue hi he (hok h)

theorem vecDiscards_vcvt : VecDiscards (Instr.vcvt, 0x48#8) := by
  refine vecDiscards_of_issue (fun core w s => ?_)
  dsimp only [exec, execVcvt]
  split
  · exact ⟨_, _, rfl, fun h => by rw [vecOk_of_rsv h, Bool.false_and]⟩
  · exact ⟨_, _, rfl, fun _ => rfl⟩

/-! ### The array's words (R55) -/

/-- An AMMA with a reserved format, unequal depths or kinds, a bin of the other type, a forbidden transposed read or a nonzero reserved
field is not legal. -/
theorem ammaOk_false {s : State} {core : Nat} {w : AmmaWord}
    (h : w.rsv ≠ 0 ∨ w.fmta = 0 ∨ 0xB < w.fmta.toNat ∨ w.fmtb = 0 ∨ 0xB < w.fmtb.toNat ∨
      codeDepth w.fmta.toNat ≠ codeDepth w.fmtb.toNat ∨ codeInt w.fmta.toNat ≠ codeInt w.fmtb.toNat ∨
      (w.zero = 0 ∧ s.issuedInt core w.bin.toNat ≠ codeInt w.fmta.toNat) ∨
      (w.ta = 1 ∧ (w.srca = 1 ∨ codeMx w.fmta.toNat = true)) ∨ (w.tb = 1 ∧ (w.srcb = 1 ∨ codeMx w.fmtb.toNat = true))) :
    s.ammaOk core w = false := by
  have hmx : ∀ c, codeMx c = true → codeTrans c = false := fun c hc => by
    simp only [codeMx, codeTrans, codeInt, Bool.and_eq_true, decide_eq_true_eq, Bool.or_eq_false_iff, decide_eq_false_iff_not] at hc ⊢
    omega
  refine Bool.eq_false_iff.mpr (fun ho => ?_)
  simp only [State.ammaOk, codeOk, Bool.and_eq_true, Bool.or_eq_true, decide_eq_true_eq] at ho
  obtain ⟨⟨⟨⟨⟨⟨⟨⟨⟨⟨ha1, ha2⟩, hb1, hb2⟩, hdepth⟩, hkind⟩, hbin⟩, hta⟩, htb⟩, hrsv⟩, -⟩, -⟩ := ho
  rcases h with h | h | h | h | h | h | h | ⟨hz, h⟩ | ⟨ht, h⟩ | ⟨ht, h⟩
  · exact h hrsv
  · simp [h] at ha1
  · omega
  · simp [h] at hb1
  · omega
  · exact h hdepth
  · exact h hkind
  · exact hbin.elim (fun e => absurd (hz.symm.trans e) (by decide)) h
  · rcases hta with e | ⟨htr, hs⟩
    · exact absurd (ht.symm.trans e) (by decide)
    · exact h.elim (fun e => absurd (e.symm.trans hs) (by decide)) (fun e => by simp [hmx _ e] at htr)
  · rcases htb with e | ⟨htr, hs⟩
    · exact absurd (ht.symm.trans e) (by decide)
    · exact h.elim (fun e => absurd (e.symm.trans hs) (by decide)) (fun e => by simp [hmx _ e] at htr)

/-- An ADRAIN with a reserved format or rounding, a bin of the other type or a nonzero reserved field is not legal. -/
theorem adrainOk_false {s : State} {core : Nat} {w : AdrainWord}
    (h : w.rsv ≠ 0 ∨ 5 < w.fmto.toNat ∨ 1 < w.rnd.toNat ∨ (s.issuedInt core w.bin.toNat = true ↔ w.fmto ≠ 5)) :
    s.adrainOk core w = false := by
  have h5 : w.fmto.toNat = 5 ↔ w.fmto = 5 := by
    rw [← BitVec.toNat_inj]
    rfl
  refine Bool.eq_false_iff.mpr (fun ho => ?_)
  simp only [State.adrainOk, Bool.and_eq_true, decide_eq_true_eq] at ho
  obtain ⟨⟨⟨⟨⟨⟨hf, hr⟩, hrsv⟩, hbin⟩, -⟩, -⟩, -⟩ := ho
  rcases h with h | h | h | h
  · exact h hrsv
  · omega
  · omega
  · rw [hbin, decide_eq_true_eq, h5] at h
    exact (iff_not_self h)

/-- The UNIT of a word is the upper part of the twelve bits of UNIT and OP. -/
theorem unit_eq (w : Word) : wfield w 60 4 = (wfield w 52 12).extractLsb' 8 4 := by
  ext k hk
  have hk' : 8 + k < 12 := by omega
  simp [wfield, hk', ← Nat.add_assoc]

/-- Settles O12: a word fails its check at issue, and what issue does with such a word is said once by `illegal_discarded`. -/
theorem discardedWords : Obligations.DiscardedWords := by
  refine ⟨⟨?hand, ?vec⟩, fun core w s hi hu hf => ?reserved, fun core s hi hq => ⟨fun w hu => ?arrayReserved,
    fun w h => ?amma, fun w h => ?adrain, fun w h => ?aemit, fun rsv h => ?afence⟩⟩
  case hand =>
    change ∀ p ∈ _, HandDiscards p
    simp only [List.forall_mem_cons]
    refine ⟨?_, ?_, ?_, ?_, ?_, ?_, ?_, ?_, ?_, ?_, ?_, ?_, ?_, ?_, ?_, ?_, ?_, ?_, ?ld, ?st, ?ldw, ?stw, handDiscards_csrr,
      handDiscards_csrw, ?beq, ?bne, ?blt, ?bge, ?bltu, ?jal, handDiscards_jr, handDiscards_vsetvl, fun _ h => nomatch h⟩
    case ld | st | ldw | stw => exact handDiscards_aligned (by decide) (fun _ _ _ => ⟨_, _, _, _, rfl⟩)
    case beq | bne | blt | bge | bltu | jal => exact handDiscards_target (by decide) (fun _ _ _ => ⟨_, _, _, _, rfl⟩)
    all_goals exact handDiscards_of_fields (by decide) (fun _ _ _ => ⟨_, _, rfl, fun h => handFields_of_rsv h ..⟩)
  case vec =>
    change ∀ p ∈ _, VecDiscards p
    simp only [List.forall_mem_cons]
    refine ⟨?vadd, ?vfma, ?vrcp, vecDiscards_vcvt, ?vmxq, ?vperm, ?vrsum, ?vins, ?vld, ?vst, fun _ h => nomatch h⟩
    case vadd | vfma | vrcp | vperm | vrsum => exact vecDiscards_of_issue (fun _ _ _ => ⟨_, _, rfl, fun h => vecOk_of_rsv h ..⟩)
    case vmxq | vins => exact vecDiscards_of_issue (fun _ _ _ => ⟨_, _, rfl, fun h => by simp only [vecOk_of_rsv h, Bool.false_and]⟩)
    case vld | vst => exact vecDiscards_of_issue (fun _ _ _ => ⟨_, _, rfl, vecMemOk_of_rsv⟩)
  case reserved =>
    by_cases h7 : wfield w 52 12 = 0x07F#12
    · have he : exec (.halt core w) s = .next (s.issue core.val w (handFields (.read w) false false false) (fun t => t.haltCore core.val 1)) :=
        congrArg Host.Outcome.next (if_pos h7)
      refine discards_of_issue hi he ?_
      rcases hf.resolve_left (fun c => c h7) with h | h | h | h
      all_goals simp only [handFields, decide_eq_false (h : ¬_), Bool.and_false, Bool.false_and, Bool.or_false]
    · have he : exec (.halt core w) s = .next (s.issue core.val w false id) :=
        congrArg Host.Outcome.next ((if_neg h7).trans (if_neg hu))
      exact discards_of_issue hi he rfl
  case arrayReserved =>
    have h7 : wfield w 52 12 ≠ 0x07F#12 := fun c => by
      rw [unit_eq, c] at hu
      exact absurd hu (by decide)
    have he : exec (.halt core w) s = .next (s.arrIssue core.val w false id) :=
      congrArg Host.Outcome.next ((if_neg h7).trans (if_pos hu))
    exact discards_of_arrIssue hi hq he rfl
  case amma => exact discards_of_arrIssue hi hq rfl (ammaOk_false h)
  case adrain => exact discards_of_arrIssue hi hq rfl (adrainOk_false h)
  case aemit => exact discards_of_arrIssue hi hq rfl (decide_eq_false h)
  case afence => exact discards_of_arrIssue hi hq rfl (decide_eq_false h)

end Sys2Proof.Machine

namespace Sys2Proof.Machine

/-! ## The array's queue: what a change of a core's record and registers leaves (R49-R54, R70) -/

/-- Of the state only the record of the core, which is `x`, and the register fields that `P` names differ. -/
structure CoreStep (s t : State) (core : CoreId) (x : CoreX) (P : Nat → Prop) : Prop where
  frame : { t with fields := s.fields, cores := s.cores } = s
  record : t.core core.val = x
  others : ∀ c, c ≠ core.val → t.core c = s.core c
  kept : Kept s t P

section
variable {s t : State} {core : CoreId} {x : CoreX} {P : Nat → Prop}

theorem CoreStep.refl (s : State) (core : CoreId) (P : Nat → Prop) : CoreStep s s core (s.core core.val) P :=
  ⟨rfl, rfl, fun _ _ => rfl, .refl _ _⟩
theorem CoreStep.setCore (h : CoreStep s t core x P) (y : CoreX) : CoreStep s (t.setCore core.val y) core y P :=
  ⟨h.frame, State.core_setCore .., fun c hc => (State.core_setCore_other _ _ _ hc).trans (h.others c hc), h.kept⟩
theorem CoreStep.modCore (h : CoreStep s t core x P) (g : CoreX → CoreX) : CoreStep s (t.modCore core.val g) core (g x) P := by
  rw [State.modCore_def, h.record]
  exact h.setCore _
theorem CoreStep.wr (h : CoreStep s t core x P) (f : Fld) (v i j : Nat) (hp : P (f.key i j)) : CoreStep s (t.wr f v i j) core x P :=
  ⟨h.frame, h.record, h.others, h.kept.wr_then f v i j hp⟩
theorem CoreStep.mono {Q : Nat → Prop} (h : CoreStep s t core x P) (hq : ∀ k, P k → Q k) : CoreStep s t core x Q :=
  ⟨h.frame, h.record, h.others, h.kept.mono hq⟩
theorem CoreStep.mem (h : CoreStep s t core x P) : t.mem = s.mem := (congrArg State.mem h.frame :)
theorem CoreStep.bytes (h : CoreStep s t core x P) : BytesKept s t (fun _ => False) := .of_mem h.mem _
theorem CoreStep.rd (h : CoreStep s t core x P) (f : Fld) (i j : Nat) (hk : ¬P (f.key i j)) : t.rd f i j = s.rd f i j := h.kept.rd f i j hk
end

/-! ### ARR_STAT (R70) -/

/-- Where what ARR_STAT shows of the queue and the engines is kept. -/
def arrKeys (core : CoreId) : List Nat := [Reg.ARR_STAT.QDEPTH.key core.val 0, Reg.ARR_STAT.BUSY.key core.val 0]

/-- An array instruction is queued or in an engine that still has a bin to read or to merge (R70). -/
def CoreX.arrWork (x : CoreX) : Bool := !x.arrQ.isEmpty || x.mmaPend.isSome || x.feed.isSome || !x.flight.isEmpty || x.rdPend.isSome

/-- A field of a core lies apart from another in a register at another offset or at other bits of it. -/
theorem core_key_ne {f g : Fld} (core : CoreId) (hf : f.blk = .core) (hg : g.blk = .core) (hfl : f.lo < 64) (hgl : g.lo < 64)
    (h : f.off ≠ g.off ∨ f.lo ≠ g.lo) : f.key core.val 0 ≠ g.key core.val 0 :=
  Fld.key_ne (hf.trans hg.symm) hfl hgl (by simpa using h)

theorem qdepth_ne_busy (core : CoreId) : Reg.ARR_STAT.QDEPTH.key core.val 0 ≠ Reg.ARR_STAT.BUSY.key core.val 0 :=
  core_key_ne core rfl rfl (by decide) (by decide) (by decide)

theorem arrSync_qdepth (s : State) (core : CoreId) :
    (s.arrSync core.val).rd Reg.ARR_STAT.QDEPTH core.val = (s.core core.val).arrQ.length % 8 := by
  unfold State.arrSync
  rw [State.rd_wr_other _ _ _ _ _ _ _ _ (qdepth_ne_busy core), State.rd_wr_same]
  rfl
theorem arrSync_busy (s : State) (core : CoreId) : (s.arrSync core.val).rd Reg.ARR_STAT.BUSY core.val = b2n (s.core core.val).arrWork := by
  have h : ∀ b : Bool, b2n b % 2 = b2n b := by decide
  exact (State.rd_wr_same ..).trans (h _)
theorem CoreStep.arrSync {s t : State} {core : CoreId} {x : CoreX} {P : Nat → Prop} (h : CoreStep s t core x P) (hp : ∀ k ∈ arrKeys core, P k) :
    CoreStep s (t.arrSync core.val) core x P :=
  (h.wr _ _ _ _ (hp _ (by simp [arrKeys]))).wr _ _ _ _ (hp _ (by simp [arrKeys]))

/-! ### Entering the queue (R53) -/

/-- The record with an instruction in the next place of program order. -/
def CoreX.pushed (x : CoreX) (i : ArrInsn) : CoreX := { x with arrQ := x.arrQ ++ [(x.arrSeq, i)], arrSeq := x.arrSeq + 1 }

theorem CoreStep.arrPush {s t : State} {core : CoreId} {x : CoreX} {P : Nat → Prop} (h : CoreStep s t core x P) (hp : ∀ k ∈ arrKeys core, P k)
    (i : ArrInsn) : CoreStep s (t.arrPush core.val i) core (x.pushed i) P := (h.modCore _).arrSync hp

/-- After a push ARR_STAT shows one instruction more, and work. -/
theorem arrPush_stat (s : State) (core : CoreId) (i : ArrInsn) (hq : (s.core core.val).arrQ.length < 4) :
    (s.arrPush core.val i).rd Reg.ARR_STAT.QDEPTH core.val = (s.core core.val).arrQ.length + 1 ∧
      (s.arrPush core.val i).rd Reg.ARR_STAT.BUSY core.val = 1 := by
  unfold State.arrPush
  rw [arrSync_qdepth, arrSync_busy]
  simp [CoreX.arrWork, b2n]
  omega

/-- The hand moves on from a change of its core's record and of ARR_STAT. -/
theorem CoreStep.advance {s t : State} {core : CoreId} {x : CoreX} (h : CoreStep s t core x (fun k => k ∈ arrKeys core))
    (hr : s.rd Reg.HND_STAT.PC core.val < 2047) :
    CoreStep s (t.advance core.val) core x (fun k => k ∈ pcKey core :: arrKeys core) ∧ NextWord s (t.advance core.val) core ∧
      (t.advance core.val).rd Reg.ARR_STAT.QDEPTH core.val = t.rd Reg.ARR_STAT.QDEPTH core.val ∧
      (t.advance core.val).rd Reg.ARR_STAT.BUSY core.val = t.rd Reg.ARR_STAT.BUSY core.val := by
  have hq : Reg.ARR_STAT.QDEPTH.key core.val 0 ≠ pcKey core := core_key_ne core rfl rfl (by decide) (by decide) (by decide)
  have hb : Reg.ARR_STAT.BUSY.key core.val 0 ≠ pcKey core := core_key_ne core rfl rfl (by decide) (by decide) (by decide)
  have hpk : pcKey core ∉ arrKeys core := by simp [arrKeys, hq.symm, hb.symm]
  have hpc : t.rd Reg.HND_STAT.PC core.val = s.rd Reg.HND_STAT.PC core.val := h.rd _ _ _ hpk
  have hn := advance_pc t core (hpc ▸ hr)
  have he := advance_next t core (hpc ▸ hr)
  refine ⟨?_, hn.trans (congrArg (· + 1) hpc), ?_, ?_⟩
  · rw [he]
    exact (h.mono (fun k hk => List.mem_cons_of_mem _ hk)).wr _ _ _ _ List.mem_cons_self
  · rw [he, State.rd_wr_other _ _ _ _ _ _ _ _ hq]
  · rw [he, State.rd_wr_other _ _ _ _ _ _ _ _ hb]

/-- An instruction has entered the queue of `u`, and the hand moves on (R53). -/
theorem CoreStep.enters {s u t : State} {core : CoreId} {x : CoreX} (h : CoreStep s t core x (fun k => k ∈ arrKeys core))
    (hr : s.rd Reg.HND_STAT.PC core.val < 2047) (i : ArrInsn) (hq : (u.core core.val).arrQ.length < 4)
    (hf : t.fields = (u.arrPush core.val i).fields) :
    CoreStep s (t.advance core.val) core x (fun k => k ∈ pcKey core :: arrKeys core) ∧ NextWord s (t.advance core.val) core ∧
      (t.advance core.val).rd Reg.ARR_STAT.QDEPTH core.val = (u.core core.val).arrQ.length + 1 ∧
      (t.advance core.val).rd Reg.ARR_STAT.BUSY core.val = 1 := by
  obtain ⟨hs, hn, hd, hb⟩ := h.advance hr
  obtain ⟨hd', hb'⟩ := arrPush_stat u core i hq
  exact ⟨hs, hn, hd.trans ((State.rd_congr hf ..).trans hd'), hb.trans ((State.rd_congr hf ..).trans hb')⟩

/-! ### The statement -/

/-- The record after an AMMA whose first tile sets its bin: the bin will have the type of its operands (R55). -/
def CoreX.retyped (x : CoreX) (w : AmmaWord) : CoreX :=
  if w.zero = 1 then
    (if w.bin = 0 then { x with issInt0 := codeInt w.fmta.toNat } else { x with issInt1 := codeInt w.fmta.toNat }) else x
theorem CoreX.retyped_rest (x : CoreX) (w : AmmaWord) : { x.retyped w with issInt0 := x.issInt0, issInt1 := x.issInt1 } = x := by
  unfold CoreX.retyped
  split
  · split <;> rfl
  · rfl

/-- Settles O14: a legal word enters the queue by a push; an AMMA with ZERO also sets the type that its bin will have. -/
theorem arrayIssue : Obligations.ArrayIssue := by
  refine ⟨fun core s i insn hr hq h => ?enter, fun core s w hr hq hok h0 => ?none, fun core s hr hq => ?fence⟩
  case enter =>
    have hpush : ∃ u y, CoreStep s u core y (fun k => k ∈ arrKeys core) ∧
        { y with issInt0 := (s.core core.val).issInt0, issInt1 := (s.core core.val).issInt1 } = s.core core.val ∧
        exec i s = .next ((u.arrPush core.val insn).advance core.val) := by
      rcases h with ⟨w, rfl, hok, h0, rfl⟩ | ⟨w, rfl, hok, rfl⟩ | ⟨w, rfl, hok, rfl⟩
      · refine ⟨s.modCore core.val (CoreX.retyped · w), _, (CoreStep.refl s core _).modCore _, CoreX.retyped_rest .., ?_⟩
        simp only [exec, execAmma, hok, arrIssue_of_ok hr.1 hq, if_neg h0]
        rfl
      · refine ⟨s, _, .refl s core _, rfl, ?_⟩
        simp only [exec, execAdrain, hok, arrIssue_of_ok hr.1 hq]
      · refine ⟨s, _, .refl s core _, rfl, ?_⟩
        simp only [exec, execAemit, hok, decide_true, arrIssue_of_ok hr.1 hq]
    obtain ⟨u, y, hu, hy, he⟩ := hpush
    have hyq : y.arrQ = (s.core core.val).arrQ := (congrArg CoreX.arrQ hy :)
    have hys : y.arrSeq = (s.core core.val).arrSeq := (congrArg CoreX.arrSeq hy :)
    have huq : (u.core core.val).arrQ = (s.core core.val).arrQ := by rw [hu.record, hyq]
    obtain ⟨hs, hn, hd, hb⟩ := (hu.arrPush (fun _ hk => hk) insn).enters hr.2 insn (huq ▸ hq) rfl
    refine ⟨_, he, ?_, ?_, hs.others, hd.trans (by rw [huq]), hb, hn, hs.frame, hs.bytes, hs.kept⟩
    · rw [hs.record, CoreX.pushed, hyq, hys]
    · rw [hs.record]
      exact hy ▸ rfl
  case none =>
    have he : exec (.amma core w) s = .next (s.advance core.val) := by simp only [exec, execAmma, hok, arrIssue_of_ok hr.1 hq, if_pos h0]
    exact ⟨_, he, advance_pc s core hr.2, advance_only s core hr.2⟩
  case fence =>
    have he : exec (.afence core 0) s =
        .next (((s.arrPush core.val .fence).modCore core.val (fun c => { c with hold := .afence })).advance core.val) := by
      simp only [exec, execAfence, decide_true, arrIssue_of_ok hr.1 hq]
    obtain ⟨hs, hn, hd, hb⟩ := (((CoreStep.refl s core _).arrPush (fun _ hk => hk) .fence).modCore (fun c => { c with hold := .afence })).enters
      hr.2 .fence hq rfl
    exact ⟨_, he, hs.record, hs.others, hd, hb, hn, hs.frame, hs.bytes, hs.kept⟩

end Sys2Proof.Machine

namespace Sys2Proof.Machine

/-! ## The array's queue and the tiles read, in the aftermath of a fault (R64, R115, R137, R147, R275) -/

/-- What the array of a core has queued, and the tiles it has read. -/
def CoreX.waiting (x : CoreX) : List (Nat × ArrInsn) × List MmaRun := (x.arrQ, x.flight)

/-- Every core's array has the same queued and read. -/
structure ArrKept (s t : State) : Prop where
  waiting : ∀ c, (t.core c).waiting = (s.core c).waiting

theorem ArrKept.queue {s t : State} (h : ArrKept s t) (c : Nat) : (t.core c).arrQ = (s.core c).arrQ := (Prod.mk.inj (h.waiting c)).1
theorem ArrKept.tiles {s t : State} (h : ArrKept s t) (c : Nat) : (t.core c).flight = (s.core c).flight := (Prod.mk.inj (h.waiting c)).2
theorem ArrKept.refl (s : State) : ArrKept s s := ⟨fun _ => rfl⟩
theorem ArrKept.trans {s t u : State} (h : ArrKept s t) (g : ArrKept t u) : ArrKept s u :=
  ⟨fun c => (g.waiting c).trans (h.waiting c)⟩
theorem ArrKept.ite {s t u : State} {c : Prop} [Decidable c] (h : ArrKept s t) (g : ArrKept s u) : ArrKept s (if c then t else u) := by
  split
  · exact h
  · exact g
theorem ArrKept.foldl {β : Type} {f : State → β → State} (h : ∀ s x, ArrKept s (f s x)) (l : List β) (s : State) :
    ArrKept s (l.foldl f s) := by
  induction l generalizing s with
  | nil => exact .refl s
  | cons x l ih => exact (h s x).trans (ih (f s x))
theorem ArrKept.of_cores {s t : State} (h : t.cores = s.cores) : ArrKept s t := ⟨fun c => by simp only [State.core, h]⟩
theorem ArrKept.wr (s : State) (f : Fld) (v i j : Nat) : ArrKept s (s.wr f v i j) := .of_cores rfl
theorem ArrKept.modSeg (s : State) (g : Nat) (f : SegX → SegX) : ArrKept s (s.modSeg g f) := .of_cores rfl
theorem ArrKept.modEncl (s : State) (n : Nat) (f : EnclX → EnclX) : ArrKept s (s.modEncl n f) := .of_cores rfl
theorem ArrKept.setCore {s : State} {core : Nat} {x : CoreX} (h : x.waiting = (s.core core).waiting) : ArrKept s (s.setCore core x) := by
  refine ⟨fun c => ?_⟩
  by_cases hc : c = core
  · subst hc
    rw [State.core_setCore, h]
  · rw [State.core_setCore_other _ _ _ hc]
theorem ArrKept.modCore (s : State) (core : Nat) {g : CoreX → CoreX} (h : ∀ x, (g x).waiting = x.waiting) : ArrKept s (s.modCore core g) := by
  rw [State.modCore_def]
  exact .setCore (h _)
theorem ArrKept.of_aborts {s t : State} {core : Nat} (h : Aborts s t core) : ArrKept s t := by
  refine ⟨fun c => ?_⟩
  by_cases hc : c = core
  · subst hc
    exact (congrArg CoreX.waiting h.record :)
  · rw [h.others c hc]
theorem raiseAt_arrKept (s : State) (ring code skind unit tick step detail : Nat) :
    ArrKept s (s.raiseAt ring code skind unit tick step detail) := by
  by_cases h : EventFits s ring
  · rw [raiseAt_of_fits h]
    exact .of_cores rfl
  · rw [raiseAt_of_not_fits h]
    exact .of_cores rfl

theorem shiftArr_arrKept (s : State) (core n : Nat) : ArrKept s (s.shiftArr core n) := .ite (.refl s) (.setCore rfl)
theorem countHeld_arrKept (s : State) (core : Nat) : ArrKept s (s.countHeld core) :=
  .ite (.refl s) ((ArrKept.wr s _ _ core 0).trans (shiftArr_arrKept ..))
theorem emptyCatch_arrKept (s : State) (core : Nat) : ArrKept s (s.emptyCatch core) := by
  have h : ArrKept s (if s.rd Reg.FUR_STAT.CATCH core = 0 then s else s.wr Reg.FUR_STAT.CATCH 0 core) := .ite (.refl s) (.wr ..)
  exact .ite (h.trans (.modCore _ _ (fun _ => rfl))) h
theorem stopSeg_arrKept (s : State) (g : Nat) : ArrKept s (s.stopSeg g) := by
  unfold State.stopSeg
  refine ArrKept.trans ?_ (.foldl emptyCatch_arrKept _ _)
  refine ArrKept.trans ?_ (.modSeg _ g _)
  exact ArrKept.trans (.ite (.foldl countHeld_arrKept _ s) (.refl s)) (.wr _ _ _ _ _)
theorem stopSegsOf_arrKept (s : State) (n : Nat) : ArrKept s (s.stopSegsOf n) := .foldl (fun t g => .ite (stopSeg_arrKept t g) (.refl t)) _ s
theorem faultEncl_arrKept (s : State) (n code m : Nat) : ArrKept s (s.faultEncl n code m) := by
  unfold State.faultEncl
  refine .ite ?_ (.refl s)
  refine ArrKept.trans ?_ (raiseAt_arrKept ..)
  refine ArrKept.trans ?_ (raiseAt_arrKept ..)
  refine ArrKept.trans ?_ (stopSegsOf_arrKept ..)
  refine ArrKept.trans ?_ (.modEncl _ n _)
  exact ArrKept.trans (.wr _ _ _ _ _) (.wr _ _ _ _ _)
theorem setEpoch_arrKept (s : State) (core g e : Nat) : ArrKept s (s.setEpoch core g e) := .of_cores rfl
theorem wipeOf_arrKept (s : State) (n core : Nat) : ArrKept s (s.wipeOf n core) := by
  unfold State.wipeOf State.wipeStart
  refine .ite (.refl s) ?_
  refine ArrKept.trans ?_ (.wr _ _ _ _ _)
  refine ArrKept.trans ?_ (.wr _ _ _ _ _)
  refine ArrKept.trans ?_ (.wr _ _ _ _ _)
  refine ArrKept.trans ?_ (.modCore _ _ (fun _ => rfl))
  refine ArrKept.trans ?_ (.of_aborts (abortDrills_aborts ..))
  exact .foldl (fun t g => (ArrKept.wr t _ _ _ _).trans (setEpoch_arrKept ..)) _ s
theorem haltCore_arrKept (s : State) (core cause : Nat) : ArrKept s (s.haltCore core cause) := by
  unfold State.haltCore
  refine ArrKept.trans ?_ (.ite (.refl _) (.of_aborts (abortDrills_aborts ..)))
  refine .ite (.ite (.wr _ _ _ _ _) (.refl s)) ?_
  refine ArrKept.trans ?_ (.modCore _ _ (fun _ => rfl))
  exact (ArrKept.wr s _ _ _ _).trans (.wr _ _ _ _ _)
/-- A fault of a core leaves what every array has queued and read. -/
theorem coreFault_arrKept (s : State) (core cause code : Nat) : ArrKept s (s.coreFault core cause code) := by
  have hh := haltCore_arrKept s core cause
  unfold State.coreFault
  dsimp only
  split
  · next n hn =>
    have hf := hh.trans (faultEncl_arrKept (s.haltCore core cause) n code ((s.haltCore core cause).estTick (croftOf core)))
    exact .ite (hf.trans (wipeOf_arrKept ..)) hf
  · exact hh
/-- So does a word that is discarded. -/
theorem illegal_arrKept (s : State) (core word cause code : Nat) : ArrKept s (s.illegal core word cause code) :=
  ((ArrKept.wr s _ _ core 0).trans (raiseAt_arrKept ..)).trans (coreFault_arrKept ..)

end Sys2Proof.Machine

namespace Sys2Proof.Machine

/-! ## The array's queue: the AFENCE leaves, the others go to their engines (R52, R53) -/

/-! ### Fields of one core -/

/-- Where fields of a core are kept. -/
def coreKeys (core : CoreId) (fs : List Fld) : List Nat := fs.map (fun f => f.key core.val 0)
/-- A field of the cores' block that lies apart from others of it. -/
abbrev Fld.apart (f g : Fld) : Prop := f.blk = .core ∧ g.blk = .core ∧ f.lo < 64 ∧ g.lo < 64 ∧ (f.off ≠ g.off ∨ f.lo ≠ g.lo)
theorem Fld.apart.key_ne {f g : Fld} (h : f.apart g) (core : CoreId) : f.key core.val 0 ≠ g.key core.val 0 := by
  obtain ⟨hf, hg, hfl, hgl, ho⟩ := h
  exact core_key_ne core hf hg hfl hgl ho
theorem rd_wr_apart (s : State) (core : CoreId) {f g : Fld} (v : Nat) (h : f.apart g) : (s.wr g v core.val).rd f core.val = s.rd f core.val :=
  State.rd_wr_other _ _ _ _ _ _ _ _ (h.key_ne core)
theorem mem_coreKeys {core : CoreId} {fs : List Fld} {f : Fld} (h : f ∈ fs) : f.key core.val 0 ∈ coreKeys core fs := List.mem_map_of_mem h
theorem notin_coreKeys {core : CoreId} {fs : List Fld} {f : Fld} (h : ∀ g ∈ fs, f.apart g) :
    f.key core.val 0 ∉ coreKeys core fs := fun hm => by
  obtain ⟨g, hg, e⟩ := List.mem_map.mp hm
  exact (h g hg).key_ne core e.symm
theorem coreKeys_subset {core : CoreId} {fs gs : List Fld} (h : fs ⊆ gs) {k : Nat} (hk : k ∈ coreKeys core fs) : k ∈ coreKeys core gs :=
  List.map_subset _ h hk
/-- They do not lie below the cores' blocks. -/
theorem coreKeys_low {core : CoreId} {fs : List Fld} (h : ∀ f ∈ fs, f.blk = .core) :
    ∀ k < 0x200010000000 * 64, k ∉ coreKeys core fs := fun k hk hm => by
  obtain ⟨f, hf, rfl⟩ := List.mem_map.mp hm
  simp only [Fld.key, Fld.addr, h f hf, Block.base] at hk
  omega

/-! ### ARR_STAT's registers are none of the hand's (R70) -/

theorem hand_notin_arrKeys (core c : CoreId) (r : BitVec 5) : Reg.HND_H.VALUE.key c.val r.toNat ∉ arrKeys core := fun hm => by
  have := r.isLt
  simp only [arrKeys, List.mem_cons, List.not_mem_nil, or_false, Fld.key, Fld.addr, Block.base, Reg.HND_H.VALUE, Reg.ARR_STAT.QDEPTH,
    Reg.ARR_STAT.BUSY] at hm
  omega
theorem notin_arrKeys {f : Fld} (core : CoreId) (h : ∀ g ∈ [Reg.ARR_STAT.QDEPTH, Reg.ARR_STAT.BUSY], f.apart g) :
    f.key core.val 0 ∉ arrKeys core := notin_coreKeys (fs := [Reg.ARR_STAT.QDEPTH, Reg.ARR_STAT.BUSY]) h

/-! ### The head of the queue -/

section
variable {s : State} {core : CoreId} {q : Nat} {rest : List (Nat × ArrInsn)}

/-- The queue without its head. -/
def State.dequeued (s : State) (core : Nat) (rest : List (Nat × ArrInsn)) : State :=
  (s.modCore core (fun c => { c with arrQ := rest })).arrSync core
theorem dequeued_step (s : State) (core : CoreId) (rest : List (Nat × ArrInsn)) :
    CoreStep s (s.dequeued core.val rest) core { s.core core.val with arrQ := rest } (fun k => k ∈ arrKeys core) :=
  ((CoreStep.refl s core _).modCore _).arrSync (fun _ hk => hk)

/-- R52: an AFENCE at the head leaves once the array is idle, and the hand it holds goes on. -/
theorem exec_afenceRelease (hq : (s.core core.val).arrQ = (q, .fence) :: rest) (hi : s.arrIdle core.val = true)
    (hs : s.stopped core.val = false) :
    exec (.afenceRelease core) s = .next (
      if (s.core core.val).hold = .afence then (s.dequeued core.val rest).releaseHold core.val else s.dequeued core.val rest) := by
  simp [exec, execAfenceRelease, hq, hi, hs, State.dequeued]

/-- The hand goes on. -/
theorem afenceRelease_goes_on (hq : (s.core core.val).arrQ = (q, .fence) :: rest) (hi : s.arrIdle core.val = true)
    (hs : s.stopped core.val = false) (ho : (s.core core.val).runOff = false) : ∃ t, exec (.afenceRelease core) s = .next t ∧
      CoreStep s t core { s.core core.val with
        arrQ := rest, hold := if (s.core core.val).hold = .afence then .none else (s.core core.val).hold } (fun k => k ∈ arrKeys core) := by
  have hd := dequeued_step s core rest
  refine ⟨_, exec_afenceRelease hq hi hs, ?_⟩
  by_cases hh : (s.core core.val).hold = .afence
  · rw [if_pos hh, if_pos hh, releaseHold_of_not_runOff (by rw [hd.record]; exact ho)]
    exact hd.modCore _
  · rw [if_neg hh, if_neg hh]
    exact hd
/-- A core halts behind word 2,047 after a change of its record and of ARR_STAT (R115). -/
theorem CoreStep.runs_off {u : State} {x : CoreX} (h : CoreStep s u core x (fun k => k ∈ arrKeys core))
    (h0 : s.rd Reg.HND_STAT.HALTED core.val = 0) :
    ((u.illegal core.val 0).core core.val).arrQ = x.arrQ ∧ Discarded s (u.illegal core.val 0) core 0 2 0x03 := by
  have hu0 : u.rd Reg.HND_STAT.HALTED core.val = 0 := (h.rd _ _ _ (notin_arrKeys core (by decide))).trans h0
  refine ⟨?_, ?_⟩
  · rw [(illegal_arrKept u core.val 0 2 0x03).queue, h.record]
  · exact (illegal_discarded hu0 0 (by decide) (by decide) 0x03).of_kept h.frame h.kept
      (coreKeys_low (fs := [Reg.ARR_STAT.QDEPTH, Reg.ARR_STAT.BUSY]) (by decide))
      (notin_arrKeys core (by decide)) (fun c r => hand_notin_arrKeys core c r)
theorem afenceRelease_runs_off (hq : (s.core core.val).arrQ = (q, .fence) :: rest) (hi : s.arrIdle core.val = true)
    (hs : s.stopped core.val = false) (ho : (s.core core.val).runOff = true) (hh : (s.core core.val).hold = .afence)
    (h0 : s.rd Reg.HND_STAT.HALTED core.val = 0) :
    ∃ t, exec (.afenceRelease core) s = .next t ∧ (t.core core.val).arrQ = rest ∧ Discarded s t core 0 2 0x03 := by
  have hd := dequeued_step s core rest
  have hro : ((s.dequeued core.val rest).core core.val).runOff = true := by rw [hd.record]; exact ho
  have he := exec_afenceRelease hq hi hs
  rw [if_pos hh, State.releaseHold, hro, if_pos rfl] at he
  exact ⟨_, he, (hd.modCore _).runs_off h0⟩

/-- R53: another head goes to its engine's free pending place. -/
theorem arrayDispatch_spec {i : ArrInsn} (hq : (s.core core.val).arrQ = (q, i) :: rest) (hf : i ≠ .fence)
    (hc : s.croftIssues (croftOf core.val) = true)
    (hp : if i.isMma then (s.core core.val).mmaPend = none else (s.core core.val).rdPend = none) :
    ∃ t, exec (.arrayDispatch core) s = .next t ∧ t.rd Reg.ARR_STAT.BUSY core.val = 1 ∧
      CoreStep s t core (if i.isMma then { s.core core.val with arrQ := rest, mmaPend := some (q, i) }
        else { s.core core.val with arrQ := rest, rdPend := some (q, i) }) (fun k => k ∈ arrKeys core) := by
  have hnf : i.isFence = false := by
    cases i
    case fence => exact absurd rfl hf
    all_goals rfl
  have hset (x : CoreX) : CoreStep s ((s.setCore core.val x).arrSync core.val) core x (fun k => k ∈ arrKeys core) :=
    ((CoreStep.refl s core _).setCore x).arrSync (fun _ hk => hk)
  cases hm : i.isMma
  case true =>
    have hp' : (s.core core.val).mmaPend = none := by simpa [hm] using hp
    refine ⟨_, ?_, ?_, hset _⟩
    · simp [exec, execArrayDispatch, hq, hnf, hc, hm, hp']
    · rw [arrSync_busy, State.core_setCore]
      simp [CoreX.arrWork, b2n]
  case false =>
    have hp' : (s.core core.val).rdPend = none := by simpa [hm] using hp
    refine ⟨_, ?_, ?_, hset _⟩
    · simp [exec, execArrayDispatch, hq, hnf, hc, hm, hp']
    · rw [arrSync_busy, State.core_setCore]
      simp [CoreX.arrWork, b2n]

end

end Sys2Proof.Machine

namespace Sys2Proof.Machine

/-! ## An AMMA starts (R53, R54, R57) -/

/-! ### Reads of a scratchpad free of latent errors (R123) -/

/-- No code word of the core's scratchpad has a latent error. -/
def CleanPad (s : State) (core : Nat) : Prop := ∀ cw, s.wordErr core cw = 0

theorem CleanPad.congr {s u : State} {core : Nat} (h : CleanPad s core) (he : u.errs = s.errs) : CleanPad u core := fun cw => by
  rw [State.wordErr, he]
  exact h cw
theorem spReadAt_of_cleanPad {s : State} {core : Nat} (h : CleanPad s core) (offs : List (Nat × Nat)) :
    s.spReadAt core offs = (offs.map (fun p => s.byte (spAddr core p.1)), s) := by
  have htouch (p : Nat × Nat) : s.touch core p.1 p.2 = s := by simp [State.touch, h p.1]
  unfold State.spReadAt
  rw [List.foldl_fixed' htouch]
  simp [h _]
/-- A tile read is as it was in a state with the same memory, and the read changes nothing. -/
theorem readTile_of_cleanPad {s u : State} {core : Nat} (h : CleanPad s core) (he : u.errs = s.errs) (hm : u.mem = s.mem) (slot code : Nat)
    (d sd : Word) (trans : Bool) (t : Nat) : u.readTile core slot code d sd trans t = ((s.readTile core slot code d sd trans t).1, u) := by
  simp only [State.readTile, spReadAt_of_cleanPad h, spReadAt_of_cleanPad (h.congr he), State.byte, hm]

/-! ### ARR_STAT follows, the rest stands -/

theorem arrSync_rd (s : State) (core : CoreId) {f : Fld} (h : f.key core.val 0 ∉ arrKeys core) :
    (s.arrSync core.val).rd f core.val = s.rd f core.val :=
  ((CoreStep.refl s core (fun k => k ∈ arrKeys core)).arrSync (fun _ hk => hk)).rd _ _ _ h

theorem CoreStep.errs {s t : State} {core : CoreId} {x : CoreX} {P : Nat → Prop} (h : CoreStep s t core x P) : t.errs = s.errs :=
  (congrArg State.errs h.frame :)
theorem CoreStep.incWrap {s t : State} {core : CoreId} {x : CoreX} {P : Nat → Prop} (h : CoreStep s t core x P) (f : Fld) (n i j : Nat)
    (hp : P (f.key i j)) : CoreStep s (t.incWrap f n i j) core x P := h.wr f _ i j hp

/-- The registers that the start of an AMMA writes. -/
def mmaFlds : List Fld := [Reg.ARR_COUNT.STEPS, Reg.ARR_STAT.COLD, Reg.ARR_STAT.QDEPTH, Reg.ARR_STAT.BUSY]

/-! ### Its first tiles (R56, R62) -/

section
variable (s : State) (core : CoreId) (q : Nat) (i : MmaInsn) (begins cold : Bool) (beat : Nat)

/-- A tile of an AMMA whose operands the scratchpad holds. -/
def State.padTile (k : Nat) : MmaRun :=
  { seq := q, insn := i, tile := k
    a := (s.readTile core.val 0 i.fmta i.da i.sa i.ta k).1, b := (s.readTile core.val 1 i.fmtb i.db i.sb i.tb k).1
    cold := begins, beat := beat }

/-- The record of a core that has read the first `k` tiles of its AMMA. -/
def State.withTiles (x : CoreX) (k : Nat) : CoreX :=
  { x with
    feed := if k < max 1 i.tiles then some ⟨q, i, k, begins, beat⟩ else none
    flight := (List.range k).map (s.padTile core q i begins beat) }

/-- Three tiles read, or all of fewer: the AMMA reads on only if it has more. -/
theorem feed_after_three : (if max 1 (min 3 i.tiles) < max 1 i.tiles then
    some (⟨q, i, max 1 (min 3 i.tiles), begins, beat⟩ : MmaFeed) else none) = if 3 < i.tiles then some ⟨q, i, 3, begins, beat⟩ else none := by
  by_cases h3 : 3 < i.tiles
  · have hn : max 1 (min 3 i.tiles) = 3 := by omega
    rw [if_pos (by omega), if_pos h3, hn]
  · rw [if_neg (by omega), if_neg h3]

/-- An AMMA has started and read its first `k` tiles. -/
structure TilesRead (x : CoreX) (k : Nat) (u : State) : Prop where
  step : CoreStep s u core (s.withTiles core q i begins beat x k) (fun j => j ∈ coreKeys core mmaFlds)
  cold : u.rd Reg.ARR_STAT.COLD core.val = b2n cold
  steps : u.rd Reg.ARR_COUNT.STEPS core.val =
    if k = 0 then s.rd Reg.ARR_COUNT.STEPS core.val else (s.rd Reg.ARR_COUNT.STEPS core.val + 16 * k) % 2 ^ Reg.ARR_COUNT.STEPS.width

/-- A counter that wraps, 16 more after `k` tiles. -/
theorem steps_mod_succ (n k m : Nat) :
    ((if k = 0 then n else (n + 16 * k) % m) + 16) % m = if k + 1 = 0 then n else (n + 16 * (k + 1)) % m := by
  rw [if_neg (Nat.succ_ne_zero k)]
  split
  · next h => rw [h]
  · rw [Nat.mod_add_mod, Nat.mul_succ, Nat.add_assoc]

variable {s core q i begins cold beat} {x : CoreX} {k : Nat} {u : State}

/-- An operand from the scratchpad, with no entry of its lane armed. -/
theorem latchOperand_of_pad (hc : CleanPad s core.val) (he : u.errs = s.errs) (hm : u.mem = s.mem) {slot : Nat}
    (ha : slot = 0 → u.rd Reg.FUR_STAT.INJ_A core.val ≠ 1) (hb : slot = 1 → u.rd Reg.FUR_STAT.INJ_B core.val ≠ 1) (fmt : Nat) (trans : Bool)
    (d sd : Word) (t : Nat) :
    u.latchOperand core.val slot fmt false trans d sd t = some ((s.readTile core.val slot fmt d sd trans t).1, u) := by
  have hn : ¬((slot = 0 ∧ u.rd Reg.FUR_STAT.INJ_A core.val = 1) ∨ (slot = 1 ∧ u.rd Reg.FUR_STAT.INJ_B core.val = 1)) := by
    rintro (⟨h0, h1⟩ | ⟨h0, h1⟩)
    · exact ha h0 h1
    · exact hb h0 h1
  rw [State.latchOperand, if_neg (by decide), if_neg hn, readTile_of_cleanPad hc he hm]

section
variable (hc : CleanPad s core.val) (ha : s.rd Reg.FUR_STAT.INJ_A core.val ≠ 1) (hb : s.rd Reg.FUR_STAT.INJ_B core.val ≠ 1)
  (hsa : i.srca = false) (hsb : i.srcb = false)
include hc ha hb hsa hsb

/-- One more tile is read; it counts its 16 steps. -/
theorem TilesRead.latch (h : TilesRead s core q i begins cold beat x k u) :
    TilesRead s core q i begins cold beat x (k + 1) (u.latchTile core.val ⟨q, i, k, begins, beat⟩) := by
  obtain ⟨hstep, hcold, hsteps⟩ := h
  have he := hstep.errs
  have hA : u.rd Reg.FUR_STAT.INJ_A core.val ≠ 1 := by
    rw [hstep.rd _ _ _ (notin_coreKeys (by decide))]
    exact ha
  have hB : u.rd Reg.FUR_STAT.INJ_B core.val ≠ 1 := by
    rw [hstep.rd _ _ _ (notin_coreKeys (by decide))]
    exact hb
  have hlatch : u.latchTile core.val ⟨q, i, k, begins, beat⟩ = (u.incWrap Reg.ARR_COUNT.STEPS 16 core.val).modCore core.val (fun c =>
      { c with
        flight := c.flight ++ [s.padTile core q i begins beat k]
        feed := if k + 1 < i.tiles then some ⟨q, i, k + 1, begins, beat⟩ else none }) := by
    simp only [State.latchTile, hsa, hsb, latchOperand_of_pad hc he hstep.mem (slot := 0) (fun _ => hA) (fun h => absurd h (by decide)),
      latchOperand_of_pad hc he hstep.mem (slot := 1) (fun h => absurd h (by decide)) (fun _ => hB)]
    rfl
  have hmax : (k + 1 < max 1 i.tiles) = (k + 1 < i.tiles) := propext (by omega)
  rw [hlatch]
  refine ⟨?_, ?_, ?_⟩
  · have hw := (hstep.incWrap Reg.ARR_COUNT.STEPS 16 core.val 0 (mem_coreKeys (by decide))).modCore (fun c =>
      { c with
        flight := c.flight ++ [s.padTile core q i begins beat k]
        feed := if k + 1 < i.tiles then some ⟨q, i, k + 1, begins, beat⟩ else none })
    simpa only [State.withTiles, List.range_succ, List.map_append, List.map_cons, List.map_nil, hmax] using hw
  · exact (rd_wr_apart u core _ (by decide)).trans hcold
  · refine (State.rd_wr_same ..).trans ?_
    rw [hsteps]
    exact steps_mod_succ ..

/-- The AMMA reads on until three tiles wait or it has no more. -/
theorem TilesRead.fill (hl : s.rd Reg.SP_STAT.LOCKED core.val = 0) : ∀ (m k : Nat) (u : State), k + m = 3 → k ≤ max 1 i.tiles →
    TilesRead s core q i begins cold beat x k u →
    TilesRead s core q i begins cold beat x (max 1 (min 3 i.tiles)) (State.fillFlight core.val m u) := fun m => by
  induction m with
  | zero =>
    intro k u hk hle h
    have hn : max 1 (min 3 i.tiles) = k := by omega
    rw [hn]
    exact h
  | succ m ih =>
    intro k u hk hle h
    have hrec := h.step.record
    by_cases hmore : k < max 1 i.tiles
    · have hlock : u.rd Reg.SP_STAT.LOCKED core.val = 0 :=
        (h.step.rd _ _ _ (notin_coreKeys (by decide))).trans hl
      have hf : State.fillFlight core.val (m + 1) u = State.fillFlight core.val m (u.latchTile core.val ⟨q, i, k, begins, beat⟩) := by
        have hlen : k < 3 := by omega
        simp [State.fillFlight, hrec, State.withTiles, hmore, hlock, hlen]
      rw [hf]
      exact ih (k + 1) _ (by omega) (by omega) (h.latch hc ha hb hsa hsb)
    · have hn : max 1 (min 3 i.tiles) = k := by omega
      have hf : State.fillFlight core.val (m + 1) u = u := by simp [State.fillFlight, hrec, State.withTiles, hmore]
      rw [hn, hf]
      exact h
end

end

/-! ### The start (R53, R59) -/

section
variable {s : State} {core : CoreId} {sub : Fin 8} {q : Nat} {i : MmaInsn}

theorem exec_arrayEngineStart (hs : s.stopped core.val = false) (hl : s.rd Reg.SP_STAT.LOCKED core.val = 0) (readOut : Bool) :
    exec (.arrayEngineStart core readOut sub) s =
      .next (if readOut then s.startReadOut core.val sub.val else s.startMma core.val sub.val) := by
  simp [exec, execArrayEngineStart, hs, hl]

/-- An AMMA that starts begins the ramp: the array is cold, and no ramp runs (R57). -/
def State.beginsRamp (s : State) (core : CoreId) (sub : Fin 8) : Bool := s.cold core.val sub.val && (s.core core.val).ramp.isNone

/-- The record of a core whose pending AMMA starts, beside its tiles. -/
def State.mmaStarted (s : State) (core : CoreId) (sub : Fin 8) (i : MmaInsn) : CoreX :=
  let now := s.cycle (croftOf core.val) sub.val
  { s.core core.val with
    mmaPend := none, stepEnd := now + 16 * i.tiles + (if s.beginsRamp core sub then 12 else 0)
    ramp := if s.beginsRamp core sub then some (now + 32) else if s.cold core.val sub.val then (s.core core.val).ramp else none }

/-- An AMMA that finds the engine free starts, its first tiles read. -/
theorem mmaStart_spec (hs : s.stopped core.val = false) (hl : s.rd Reg.SP_STAT.LOCKED core.val = 0)
    (hpend : (s.core core.val).mmaPend = some (q, .mma i)) (hfeed : (s.core core.val).feed = none) (hfl : (s.core core.val).flight = [])
    (hend : (s.core core.val).stepEnd ≤ s.cycle (croftOf core.val) sub.val)
    (hrb : (s.core core.val).readBefore i.bin q (s.cycle (croftOf core.val) sub.val + (if s.beginsRamp core sub then 57 else 45)) = false)
    (hsa : i.srca = false) (hsb : i.srcb = false) (ha : s.rd Reg.FUR_STAT.INJ_A core.val ≠ 1) (hb : s.rd Reg.FUR_STAT.INJ_B core.val ≠ 1)
    (hc : CleanPad s core.val) :
    ∃ u, exec (.arrayEngineStart core false sub) s = .next (u.arrSync core.val) ∧
      TilesRead s core q i (s.beginsRamp core sub) (s.cold core.val sub.val) (s.consBeat core.val sub.val).toNat (s.mmaStarted core sub i)
        (max 1 (min 3 i.tiles)) u := by
  have hwait : ¬(3 ≤ (s.core core.val).flight.length ∨ s.cycle (croftOf core.val) sub.val < (s.core core.val).stepEnd ∨
      (s.core core.val).readBefore i.bin q (s.cycle (croftOf core.val) sub.val + (if s.beginsRamp core sub then 57 else 45)) = true) := by
    rw [hfl, hrb]
    simp [hend]
  have hfur : ¬(((i.srca || i.srcb) && s.cold core.val sub.val) = true) := by simp [hsa, hsb]
  let x := s.withTiles core q i (s.beginsRamp core sub) (s.consBeat core.val sub.val).toNat (s.mmaStarted core sub i) 0
  have hstart : TilesRead s core q i (s.beginsRamp core sub) (s.cold core.val sub.val) (s.consBeat core.val sub.val).toNat
      (s.mmaStarted core sub i) 0 ((s.setCore core.val x).wr Reg.ARR_STAT.COLD (b2n (s.cold core.val sub.val)) core.val) := by
    have hbit : ∀ b : Bool, b2n b % 2 ^ Reg.ARR_STAT.COLD.width = b2n b := by decide
    refine ⟨((CoreStep.refl s core _).setCore _).wr _ _ _ _ (mem_coreKeys (by decide)), (State.rd_wr_same ..).trans (hbit _), ?_⟩
    exact rd_wr_apart (s.setCore core.val x) core _ (by decide)
  refine ⟨_, (exec_arrayEngineStart hs hl false).trans (congrArg Host.Outcome.next ?_),
    hstart.fill hc ha hb hsa hsb hl 3 0 _ rfl (Nat.zero_le _)⟩
  have hx : x =
      { s.core core.val with
        mmaPend := none, feed := some ⟨q, i, 0, s.beginsRamp core sub, (s.consBeat core.val sub.val).toNat⟩
        stepEnd := (s.mmaStarted core sub i).stepEnd, ramp := (s.mmaStarted core sub i).ramp } := by
    have hmax : (0 < max 1 i.tiles) = True := eq_true (by omega)
    simp only [x, State.withTiles, State.mmaStarted, hmax, if_true, List.range_zero, List.map_nil, ← hfl]
  rw [if_neg (by decide), State.startMma, hpend, hfeed, hx]
  exact (if_neg hwait).trans (if_neg hfur)

end

end Sys2Proof.Machine

namespace Sys2Proof.Machine

/-! ## Read-outs start (R50, R53, R58, R77-R81, R330-R332) -/

/-! ### Rows of elements -/

theorem leBytes_eq_map (n x : Nat) : leBytes n x = (List.range n).map (fun j => BitVec.ofNat 8 (x / 256 ^ j)) := by
  induction n generalizing x with
  | zero => rfl
  | succ n ih =>
    rw [leBytes, ih, List.range_succ_eq_map, List.map_cons, List.map_map]
    refine congrArg₂ List.cons (by simp) (List.map_congr_left (fun j _ => ?_))
    rw [Nat.div_div_eq_div_mul, Function.comp_apply, Nat.pow_succ']
/-- The bytes of `m` elements of `n` bytes each. -/
theorem flatMap_leBytes_eq_map {n : Nat} (hn : 0 < n) (c : Nat → Nat) (m : Nat) :
    (List.range m).flatMap (fun e => leBytes n (c e)) = (List.range (m * n)).map (fun k => BitVec.ofNat 8 (c (k / n) / 256 ^ (k % n))) := by
  induction m with
  | zero => simp
  | succ m ih =>
    rw [List.range_succ, List.flatMap_append, ih, Nat.succ_mul, List.range_add, List.map_append, List.map_map, List.flatMap_singleton,
      leBytes_eq_map]
    refine congrArg _ (List.map_congr_left (fun j hj => ?_))
    have hj := List.mem_range.mp hj
    rw [Function.comp_apply, Nat.mul_comm m n, Nat.mul_add_div hn, Nat.mul_add_mod, Nat.div_eq_of_lt hj, Nat.mod_eq_of_lt hj, Nat.add_zero]
/-- The bytes of a row of elements with their places: byte `j` of element `e` lies `e * n + j` behind the row's start. -/
theorem mem_row {n : Nat} (hn : 0 < n) (off : Nat) (c : Nat → Nat) (m : Nat) (p : Nat × Byte) :
    let bs := (List.range m).flatMap (fun e => leBytes n (c e))
    p ∈ ((List.range bs.length).map (fun k => off + k)).zip bs ↔
      ∃ e < m, ∃ j < n, p = (off + (e * n + j), BitVec.ofNat 8 (c e / 256 ^ j)) := by
  intro bs
  have hbs : bs = (List.range (m * n)).map (fun k => BitVec.ofNat 8 (c (k / n) / 256 ^ (k % n))) := flatMap_leBytes_eq_map hn c m
  rw [hbs, List.length_map, List.length_range, List.zip_map', List.mem_map]
  constructor
  · rintro ⟨k, hk, rfl⟩
    refine ⟨k / n, (Nat.div_lt_iff_lt_mul hn).mpr (List.mem_range.mp hk), k % n, Nat.mod_lt k hn, ?_⟩
    rw [Nat.div_add_mod']
  · rintro ⟨e, he, j, hj, rfl⟩
    refine ⟨e * n + j, List.mem_range.mpr ?_, ?_⟩
    · calc e * n + j < (e + 1) * n := by rw [Nat.succ_mul]; omega
        _ ≤ m * n := Nat.mul_le_mul_right n he
    · rw [Nat.mul_comm e n, Nat.mul_add_div hn, Nat.mul_add_mod, Nat.div_eq_of_lt hj, Nat.mod_eq_of_lt hj, Nat.add_zero]

/-! ### Writes to a scratchpad free of latent errors -/

/-- No latent error comes or goes. -/
theorem spWriteAt_errs {s : State} {core : Nat} (h : CleanPad s core) (slot : Nat) (wr : List (Nat × Byte)) (k : Nat) :
    Store.getD (s.spWriteAt core slot wr).errs k 0 = Store.getD s.errs k 0 := by
  have hput (l : List (Nat × Byte)) (t : State) : (l.foldl (fun v p => v.spPut core p.1 [p.2]) t).errs = t.errs := by rw [foldl_spPut]
  have hset {t : State} (ht : ∀ k, Store.getD t.errs k 0 = Store.getD s.errs k 0) (cw k : Nat) :
      Store.getD (t.setErr core cw 0).errs k 0 = Store.getD s.errs k 0 := by
    rw [State.setErr, if_pos rfl]
    by_cases hk : k = spAddr core cw
    · rw [hk, Store.getD, Store.get_erase_same]
      exact (h cw).symm
    · rw [Store.getD, Store.get_erase_other _ _ hk]
      exact ht k
  suffices hfold : ∀ (ws : List Nat) (t : State), (∀ k, Store.getD t.errs k 0 = Store.getD s.errs k 0) →
      ∀ k, Store.getD (ws.foldl (fun t cw =>
        let mine := wr.filter (fun p => decide (s.codeWord core p.1 = cw))
        let whole := (List.range (s.codeLen core cw)).all (fun k => mine.any (fun p => decide (p.1 % 2 ^ 18 = cw + k)))
        let put (u : State) : State := mine.foldl (fun v p => v.spPut core p.1 [p.2]) u
        if whole then (put t).setErr core cw 0
        else if s.wordErr core cw = 0 then put t
        else if s.wordErr core cw = 1 then ((put t).setErr core cw 0).corrected core cw
        else t.uncorrectable core cw slot) t).errs k 0 = Store.getD s.errs k 0 from hfold _ s (fun _ => rfl) k
  intro ws
  induction ws with
  | nil => exact fun t ht => ht
  | cons cw ws ih =>
    intro t ht
    refine ih _ ?_
    dsimp only
    rw [if_pos (h cw)]
    split
    · exact hset (fun k => by rw [hput]; exact ht k) cw
    · exact fun k => by rw [hput]; exact ht k

/-- Writes of byte runs, one after another: the bytes go to their places, and nothing else changes. -/
theorem foldl_spWrite_of_cleanPad {core : Nat} (slot : Nat) (off : Nat → Nat) (bs : Nat → List Byte) (is : List Nat) {s : State}
    (h : CleanPad s core) : ∃ l e, is.foldl (fun t i => t.spWrite core (off i) slot (bs i)) s =
        { s with mem := writesAt s.mem (atCore core l), errs := e } ∧ (∀ k, Store.getD e k 0 = Store.getD s.errs k 0) ∧
      ∀ p, p ∈ l ↔ ∃ i ∈ is, p ∈ ((List.range (bs i).length).map (fun k => off i + k)).zip (bs i) := by
  induction is generalizing s with
  | nil => exact ⟨[], s.errs, rfl, fun _ => rfl, by simp⟩
  | cons i is ih =>
    obtain ⟨l, e, hw, hl⟩ := spWriteAt_of_clean (s := s) (core := core) slot
      (wr := ((List.range (bs i).length).map (fun k => off i + k)).zip (bs i)) (fun _ _ => h _)
    have he := spWriteAt_errs h slot (((List.range (bs i).length).map (fun k => off i + k)).zip (bs i))
    rw [hw] at he
    have hc : CleanPad { s with mem := writesAt s.mem (atCore core l), errs := e } core := fun cw => (he _).trans (h cw)
    obtain ⟨l', e', hw', he', hl'⟩ := ih hc
    refine ⟨l ++ l', e', ?_, fun k => (he' k).trans (he k), fun p => ?_⟩
    · rw [List.foldl_cons, State.spWrite, hw, hw']
      simp only [writesAt, atCore, List.map_append, List.foldl_append]
    · rw [List.mem_append, hl, hl']
      simp

end Sys2Proof.Machine

namespace Sys2Proof.Machine

/-! ## A pending read-out starts (R53, R54, R58) -/

section
variable {s : State} {core : CoreId} {sub : Fin 8} {q bin : Nat}

/-- A counter up by `n`, or at its end. -/
theorem rd_incSat_same (s : State) (f : Fld) (n i j : Nat) : (s.incSat f n i j).rd f i j = min (s.rd f i j + n) (2 ^ f.width - 1) := by
  have := Nat.two_pow_pos f.width
  exact (State.rd_wr_same ..).trans (Nat.mod_eq_of_lt (by omega))

/-- The record of a core whose read-out runs, unobserved. -/
def CoreX.readOut (x : CoreX) (q bin readEnd writeEnd : Nat) : CoreX :=
  { x with rdPend := none, rdRun := some ⟨q, bin, none, readEnd, writeEnd⟩ }

/-- The read-out's interlocks allow it: no earlier AMMA has its bin to merge into, and the engine has made its last bin read (R54). -/
theorem readOut_waits_not {i : ArrInsn} {now : Nat} (hm : (s.core core.val).mmaBefore i.bin q = false)
    (hr : ∀ r, (s.core core.val).rdRun = some r → r.readEnd ≤ now) :
    ¬((s.core core.val).mmaBefore i.bin q = true ∨ ((s.core core.val).rdRun.any (fun r => decide (now < r.readEnd))) = true) := by
  rintro (h | h)
  · exact absurd (hm.symm.trans h) (by decide)
  · cases hrun : (s.core core.val).rdRun with
    | none => simp [hrun] at h
    | some r =>
      have hle := hr r hrun
      have hlt : now < r.readEnd := by simpa [hrun] using h
      omega

/-! ### Drains (R50, R77-R81) -/

/-- The drain rounds stochastically. -/
def drainStoch (fmto rnd : Nat) : Bool := decide (rnd = 1 ∧ 1 ≤ fmto ∧ fmto ≤ 4)
/-- What a drain writes for a cell that no tally slot observes. -/
def State.drainCode (s : State) (core fmto bin rnd : Nat) (sat : Bool) (k : Nat) : Nat :=
  if fmto = 5 then (s.binCell core bin k).toNat
  else ((fmtoFmt fmto).convert
    (if drainStoch fmto rnd then .sr (srBits (s.rd Reg.NUM_SR.SEED core) (s.rd Reg.NUM_SR.STEP core) core (s.rd Reg.NUM_SR_SEQ.SEQ core) k)
      else .rne)
    (sat && decide (fmto ≠ 0)) ((fp32.decode (s.binCell core bin k).toNat).scale 0)).code
/-- A row of it. -/
def State.drainRow (s : State) (core fmto bin rnd : Nat) (sat : Bool) (i : Nat) : List Byte :=
  (List.range 16).flatMap (fun n => leBytes (fmtoBytes fmto) (s.drainCode core fmto bin rnd sat (16 * i + n)))

theorem drainBin_unobserved (s : State) (core fmto : Nat) (desc : Word) (bin rnd : Nat) (sat : Bool) :
    s.drainBin core fmto desc bin rnd sat false =
      (List.range 16).foldl (fun t i => t.spWrite core (dAddr desc + i * dBstride desc) 2 (s.drainRow core fmto bin rnd sat i))
        (if drainStoch fmto rnd then s.incWrap Reg.NUM_SR_SEQ.SEQ 1 core else s) := by
  have hobs : s.observer core bin false = none := by simp [State.observer]
  have hst : drainStoch fmto rnd = (decide (rnd = 1) && decide (1 ≤ fmto) && decide (fmto ≤ 4)) := by
    simp only [drainStoch, Bool.decide_and, Bool.and_assoc]
  simp only [State.drainBin, hobs, Option.isSome_none, Bool.false_eq_true, if_false, State.drainRow, State.drainCode, hst]

/-- The registers that a read-out and ARR_STAT write. -/
def drainFlds : List Fld := [Reg.NUM_SR_SEQ.SEQ, Reg.ARR_STAT.QDEPTH, Reg.ARR_STAT.BUSY]

theorem fmtoBytes_pos (fmto : Nat) : 0 < fmtoBytes fmto := by
  unfold fmtoBytes
  split
  · decide
  · split
    · decide
    · decide

theorem CoreStep.trans {t u : State} {x y : CoreX} {P : Nat → Prop} (h : CoreStep s t core x P) (g : CoreStep t u core y P) :
    CoreStep s u core y P where
  frame := (congrArg (fun v : State => { v with fields := s.fields, cores := s.cores }) g.frame).trans h.frame
  record := g.record
  others c hc := (g.others c hc).trans (h.others c hc)
  kept := (h.kept.trans g.kept).mono (fun _ hk => hk.elim id id)

/-- The registers are written before the rows, as ARR_STAT is: it does not look at memory. -/
theorem arrSync_with_mem (s : State) (core : Nat) (m : List Host.Cell) (e : List (Nat × Nat)) :
    ({ s with mem := m, errs := e } : State).arrSync core = { s.arrSync core with mem := m, errs := e } := rfl

/-- The rows of a drain that no slot observes, and its use of a sequence number if it rounds stochastically. -/
theorem drainBin_spec (hc : CleanPad s core.val) (fmto : Nat) (desc : Word) (bin rnd : Nat) (sat : Bool) :
    ∃ v l e, s.drainBin core.val fmto desc bin rnd sat false = { v with mem := writesAt s.mem (atCore core.val l), errs := e } ∧
      CoreStep s v core (s.core core.val) (fun k => k ∈ coreKeys core drainFlds) ∧
      v.rd Reg.NUM_SR_SEQ.SEQ core.val = (if drainStoch fmto rnd
        then (s.rd Reg.NUM_SR_SEQ.SEQ core.val + 1) % 2 ^ Reg.NUM_SR_SEQ.SEQ.width else s.rd Reg.NUM_SR_SEQ.SEQ core.val) ∧
      (∀ k, Store.getD e k 0 = Store.getD s.errs k 0) ∧
      ∀ p, p ∈ l ↔ ∃ i < 16, ∃ n < 16, ∃ j < fmtoBytes fmto, p = (dAddr desc + i * dBstride desc + (n * fmtoBytes fmto + j),
        BitVec.ofNat 8 (s.drainCode core.val fmto bin rnd sat (16 * i + n) / 256 ^ j)) := by
  obtain ⟨v, hv, hstep, hseq⟩ : ∃ v, (if drainStoch fmto rnd then s.incWrap Reg.NUM_SR_SEQ.SEQ 1 core.val else s) = v ∧
      CoreStep s v core (s.core core.val) (fun k => k ∈ coreKeys core drainFlds) ∧
      v.rd Reg.NUM_SR_SEQ.SEQ core.val = (if drainStoch fmto rnd
        then (s.rd Reg.NUM_SR_SEQ.SEQ core.val + 1) % 2 ^ Reg.NUM_SR_SEQ.SEQ.width else s.rd Reg.NUM_SR_SEQ.SEQ core.val) := by
    cases drainStoch fmto rnd
    · exact ⟨s, rfl, .refl s core _, rfl⟩
    · exact ⟨_, rfl, (CoreStep.refl s core _).incWrap _ _ _ _ (mem_coreKeys (by decide)), State.rd_wr_same ..⟩
  have he := hstep.errs
  obtain ⟨l, e, hw, herr, hl⟩ := foldl_spWrite_of_cleanPad 2 (fun i => dAddr desc + i * dBstride desc) (s.drainRow core.val fmto bin rnd sat)
    (List.range 16) (hc.congr he)
  refine ⟨v, l, e, ?_, hstep, hseq, fun k => (herr k).trans (by rw [he]), fun p => ?_⟩
  · rw [drainBin_unobserved, hv, hw, hstep.mem]
  · rw [hl]
    simp only [List.mem_range]
    exact exists_congr (fun i => and_congr_right (fun _ => mem_row (fmtoBytes_pos fmto) ..))

/-- The cycles that a drain reads its bin for (R58). -/
def drainReads (fmto : Nat) : Nat := if fmto = 0 ∨ fmto = 5 then 32 else 16

/-- A drain that no slot observes starts. -/
theorem drain_spec {fmto rnd : Nat} {desc : Word} {sat : Bool} (hs : s.stopped core.val = false) (hl : s.rd Reg.SP_STAT.LOCKED core.val = 0)
    (hpend : (s.core core.val).rdPend = some (q, .drain fmto desc bin rnd sat false)) (hm : (s.core core.val).mmaBefore bin q = false)
    (hr : ∀ r, (s.core core.val).rdRun = some r → r.readEnd ≤ s.cycle (croftOf core.val) sub.val) (hc : CleanPad s core.val) :
    ∃ v l e, exec (.arrayEngineStart core true sub) s = .next { v with mem := writesAt s.mem (atCore core.val l), errs := e } ∧
      CoreStep s v core ((s.core core.val).readOut q bin (s.cycle (croftOf core.val) sub.val + drainReads fmto)
        (s.cycle (croftOf core.val) sub.val + drainReads fmto + 4)) (fun k => k ∈ coreKeys core drainFlds) ∧
      v.rd Reg.NUM_SR_SEQ.SEQ core.val = (if drainStoch fmto rnd
        then (s.rd Reg.NUM_SR_SEQ.SEQ core.val + 1) % 2 ^ Reg.NUM_SR_SEQ.SEQ.width else s.rd Reg.NUM_SR_SEQ.SEQ core.val) ∧
      (∀ k, Store.getD e k 0 = Store.getD s.errs k 0) ∧
      ∀ p, p ∈ l ↔ ∃ i < 16, ∃ n < 16, ∃ j < fmtoBytes fmto, p = (dAddr desc + i * dBstride desc + (n * fmtoBytes fmto + j),
        BitVec.ofNat 8 (s.drainCode core.val fmto bin rnd sat (16 * i + n) / 256 ^ j)) := by
  have hcyc : 16 * (if fmto = 0 ∨ fmto = 5 then 2 else 1) = drainReads fmto := by
    unfold drainReads
    split <;> rfl
  have hobs : s.observer core.val bin false = none := by simp [State.observer]
  have hstart : s.startReadOut core.val sub.val =
      ((s.setCore core.val ((s.core core.val).readOut q bin (s.cycle (croftOf core.val) sub.val + drainReads fmto)
        (s.cycle (croftOf core.val) sub.val + drainReads fmto + 4))).drainBin core.val fmto desc bin rnd sat false).arrSync core.val := by
    rw [State.startReadOut, hpend]
    dsimp only
    refine (if_neg (readOut_waits_not hm hr)).trans ?_
    rw [hcyc, hobs, ← Nat.add_assoc]
    rfl
  have hset := (CoreStep.refl s core (fun k => k ∈ coreKeys core drainFlds)).setCore ((s.core core.val).readOut q bin
    (s.cycle (croftOf core.val) sub.val + drainReads fmto) (s.cycle (croftOf core.val) sub.val + drainReads fmto + 4))
  obtain ⟨v, l, e, hw, hstep, hseq, herr, hl'⟩ := drainBin_spec (hc.congr hset.errs) fmto desc bin rnd sat
  refine ⟨v.arrSync core.val, l, e, ?_, ?_, ?_, herr, hl'⟩
  · rw [exec_arrayEngineStart hs hl, if_pos rfl, hstart, hw, arrSync_with_mem]
    rfl
  · rw [hset.record] at hstep
    exact (hset.trans hstep).arrSync (fun _ hk => coreKeys_subset (fs := [Reg.ARR_STAT.QDEPTH, Reg.ARR_STAT.BUSY]) (by decide) hk)
  · exact (arrSync_rd v core (notin_arrKeys core (by decide))).trans hseq

end

end Sys2Proof.Machine

namespace Sys2Proof.Machine

/-! ### Emissions (R330-R332) -/

section
variable {s : State} {core : CoreId} {sub : Fin 8} {q bin floor sheaf tile : Nat}

theorem CoreStep.incSat {t : State} {x : CoreX} {P : Nat → Prop} (h : CoreStep s t core x P) (f : Fld) (n i j : Nat) (hp : P (f.key i j)) :
    CoreStep s (t.incSat f n i j) core x P := h.wr f _ i j hp

/-- The registers that show the emission path. -/
def emitFlds : List Fld := [Reg.EMIT_STAT.RET_USED, Reg.EMIT_STAT.BUSY, Reg.EMIT_STAT.REEMIT]

theorem CoreStep.emitSync {t : State} {x : CoreX} {P : Nat → Prop} (h : CoreStep s t core x P) (hp : ∀ k ∈ coreKeys core emitFlds, P k) :
    CoreStep s (t.emitSync core.val) core x P :=
  ((h.wr _ _ _ _ (hp _ (mem_coreKeys (by decide)))).wr _ _ _ _ (hp _ (mem_coreKeys (by decide)))).wr _ _ _ _ (hp _ (mem_coreKeys (by decide)))
theorem emitSync_rd (s : State) (core : CoreId) {f : Fld} (h : ∀ g ∈ emitFlds, f.apart g) :
    (s.emitSync core.val).rd f core.val = s.rd f core.val :=
  ((CoreStep.refl s core (fun k => k ∈ coreKeys core emitFlds)).emitSync (fun _ hk => hk)).rd _ _ _ (notin_coreKeys h)

/-- The values of a bin's cells. -/
def State.binVals (s : State) (core bin : Nat) : List FVal :=
  (List.range 256).map (fun k =>
    if s.binInt core bin then FVal.ofInt (s.binCell core bin k).toInt else fp32.decode (s.binCell core bin k).toNat)
/-- ROUND of a sheaf's entry, if it has one. -/
def State.emitRound (s : State) (core sheaf : Nat) : Nat := ((s.exactEntry core sheaf).map (fun j => s.rd Reg.EMIT_SCALE.ROUND core j)).getD 0
/-- The record `x` with the four packets of a bin's tile behind its emission path, and the tile retained if it is exact. -/
def State.emitted (s : State) (core bin floor sheaf tile : Nat) (x : CoreX) : CoreX :=
  { x with
    emit := x.emit ++ s.tilePackets core floor sheaf tile (s.emitRound core sheaf)
      ((s.exactEntry core sheaf).map (fun j => sint 9 (s.rd Reg.EMIT_SCALE.S core j))) (s.binVals core bin)
    retention := x.retention ++
      (match s.exactEntry core sheaf with
       | some _ => [⟨sheaf, tile, floor, (s.binVals core bin).map fp32.round, s.emitRound core sheaf, false⟩]
       | none => []) }

theorem emitBin_eq (s : State) (core bin floor sheaf tile : Nat) : s.emitBin core bin floor sheaf tile =
    ((s.setCore core (s.emitted core bin floor sheaf tile (s.core core))).incSat Reg.EMIT_STAT.TILES 1 core).emitSync core := rfl
/-- What an emission puts out does not depend on the record of the core. -/
theorem emitted_setCore (s : State) (core bin floor sheaf tile : Nat) (x y : CoreX) :
    (s.setCore core y).emitted core bin floor sheaf tile x = s.emitted core bin floor sheaf tile x := rfl

/-- The registers that an emission writes. -/
def emissionFlds : List Fld := Reg.EMIT_STAT.TILES :: (emitFlds ++ [Reg.ARR_STAT.QDEPTH, Reg.ARR_STAT.BUSY])

/-- An emission that finds room starts (R331). -/
theorem emit_spec (hs : s.stopped core.val = false) (hl : s.rd Reg.SP_STAT.LOCKED core.val = 0)
    (hpend : (s.core core.val).rdPend = some (q, .emit bin floor sheaf tile)) (hm : (s.core core.val).mmaBefore bin q = false)
    (hr : ∀ r, (s.core core.val).rdRun = some r → r.readEnd ≤ s.cycle (croftOf core.val) sub.val) (hroom : (s.core core.val).emit.length ≤ 4)
    (hret : s.exactEntry core.val sheaf ≠ none → (s.core core.val).retention.length < 8) :
    ∃ t, exec (.arrayEngineStart core true sub) s = .next t ∧
      CoreStep s t core (s.emitted core.val bin floor sheaf tile ((s.core core.val).readOut q bin
        (s.cycle (croftOf core.val) sub.val + 32) (s.cycle (croftOf core.val) sub.val + 32))) (fun k => k ∈ coreKeys core emissionFlds) ∧
      t.rd Reg.EMIT_STAT.TILES core.val = min (s.rd Reg.EMIT_STAT.TILES core.val + 1) (2 ^ Reg.EMIT_STAT.TILES.width - 1) := by
  have hgo : (s.core core.val).emit.length ≤ 4 ∧ (s.exactEntry core.val sheaf = none ∨ (s.core core.val).retention.length < 8) :=
    ⟨hroom, Decidable.or_iff_not_imp_left.mpr hret⟩
  have hset := (CoreStep.refl s core (fun k => k ∈ coreKeys core emissionFlds)).setCore ((s.core core.val).readOut q bin
    (s.cycle (croftOf core.val) sub.val + 32) (s.cycle (croftOf core.val) sub.val + 32))
  have hstart : s.startReadOut core.val sub.val = ((s.setCore core.val ((s.core core.val).readOut q bin
      (s.cycle (croftOf core.val) sub.val + 32) (s.cycle (croftOf core.val) sub.val + 32))).emitBin core.val bin floor sheaf tile).arrSync
        core.val := by
    rw [State.startReadOut, hpend]
    exact (if_neg (readOut_waits_not hm hr)).trans (if_pos hgo)
  rw [emitBin_eq, emitted_setCore, hset.record] at hstart
  refine ⟨_, (exec_arrayEngineStart hs hl true).trans (congrArg Host.Outcome.next ((if_pos rfl).trans hstart)), ?_, ?_⟩
  · exact (((hset.setCore _).incSat _ _ _ _ (mem_coreKeys (by decide))).emitSync (fun _ hk => coreKeys_subset (by decide) hk)).arrSync
      (fun _ hk => coreKeys_subset (fs := [Reg.ARR_STAT.QDEPTH, Reg.ARR_STAT.BUSY]) (by decide) hk)
  · rw [arrSync_rd _ core (notin_arrKeys core (by decide)), emitSync_rd _ core (by decide), rd_incSat_same]
    rfl

end

/-! ### The statement -/

/-- Settles O15, part by part: the AFENCE's release, the dispatch, the starts of an AMMA, a drain, an emission. -/
theorem arrayQueueAndReadOut : Obligations.ArrayQueueAndReadOut := by
  refine ⟨⟨fun core s q rest hq hi hs => ⟨fun ho => ?release, fun ho hh h0 => afenceRelease_runs_off hq hi hs ho hh h0⟩,
    fun core s q i rest hq hf hc hp => ?dispatch, fun core s sub q i hs hl hpend hfeed hfl hend hrb hsa hsb ha hb hc => ?mma⟩,
    fun core s sub q fmto desc bin rnd sat hs hl hpend hm hr _ hc hinj => ?drain,
    fun core s sub q bin floor sheaf tile hs hl hpend hm hr hroom hret => ?emit⟩
  case release =>
    obtain ⟨t, he, ht⟩ := afenceRelease_goes_on hq hi hs ho
    exact ⟨t, he, ht.record, ht.others, ht.frame, ht.bytes, ht.kept⟩
  case dispatch =>
    obtain ⟨t, he, hb, ht⟩ := arrayDispatch_spec hq hf hc hp
    exact ⟨t, he, ht.record, ht.others, hb, ht.frame, ht.bytes, ht.kept⟩
  case mma =>
    obtain ⟨u, he, hstep, hcold, hsteps⟩ := mmaStart_spec hs hl hpend hfeed hfl hend hrb hsa hsb ha hb hc
    have ht := hstep.arrSync (fun _ hk => coreKeys_subset (fs := [Reg.ARR_STAT.QDEPTH, Reg.ARR_STAT.BUSY]) (by decide) hk)
    have hn : ¬max 1 (min 3 i.tiles) = 0 := by omega
    refine ⟨_, he, ht.record.trans ?_, ht.others, ?_, ?_, ht.frame, ht.bytes, ht.kept⟩
    · rw [State.withTiles, feed_after_three]
      rfl
    · rw [arrSync_rd _ core (notin_arrKeys core (by decide)), hcold]
      rfl
    · rw [arrSync_rd _ core (notin_arrKeys core (by decide)), hsteps, if_neg hn]
  case drain =>
    obtain ⟨v, l, e, he, hv, hseq, herr, hl'⟩ := drain_spec hs hl hpend hm hr hc
    have hmem (p : Nat × Byte) : p ∈ atCore core.val l ↔ ∃ i < 16, ∃ n < 16, ∃ j < fmtoBytes fmto,
        p = (spAddr core.val (dAddr desc + i * dBstride desc + (n * fmtoBytes fmto + j)),
          BitVec.ofNat 8 (s.drainCode core.val fmto bin rnd sat (16 * i + n) / 256 ^ j)) := by
      simp only [atCore, List.mem_map, hl']
      constructor
      · rintro ⟨_, ⟨i, hi, n, hn, j, hj, rfl⟩, rfl⟩
        exact ⟨i, hi, n, hn, j, hj, rfl⟩
      · rintro ⟨i, hi, n, hn, j, hj, rfl⟩
        exact ⟨_, ⟨i, hi, n, hn, j, hj, rfl⟩, rfl⟩
    refine ⟨_, he, fun i hi n hn j hj => ?_, fun a ha => ?_, hv.record, hv.others, hseq, ?_, herr, hv.kept⟩
    · refine read_writesAt (fun p hp hpa => ?_) (.inl ⟨_, (hmem _).mpr ⟨i, hi, n, hn, j, hj, rfl⟩, rfl⟩)
      obtain ⟨i', hi', n', hn', j', hj', rfl⟩ := (hmem p).mp hp
      obtain ⟨rfl, rfl, rfl⟩ := hinj i' hi' n' hn' j' hj' i hi n hn j hj hpa
      rfl
    · refine read_writesAt_other s.mem (fun p hp hpa => ha ?_)
      obtain ⟨i', hi', n', hn', j', hj', rfl⟩ := (hmem p).mp hp
      exact ⟨i', hi', n', hn', j', hj', hpa.symm⟩
    · exact (congrArg (fun x : State => { x with mem := s.mem, errs := s.errs }) hv.frame :)
  case emit =>
    obtain ⟨t, he, ht, htiles⟩ := emit_spec hs hl hpend hm hr hroom hret
    exact ⟨t, he, ht.record, ht.others, htiles, ht.frame, ht.bytes, ht.kept⟩

end Sys2Proof.Machine

namespace Sys2Proof.Machine

/-! ## Verdicts on a tile (R40, R41, R60-R64) -/

/-! ### Sticky flags of ARR_STAT (R41, R60) -/

/-- A sticky flag asked for between two states is asked for between others that show it alike. -/
theorem StickyIf.of_rd {s s' t t' : State} {core : CoreId} {f : Fld} {b : Prop} (h : StickyIf s t core f b)
    (hs : s.rd f core.val = s'.rd f core.val) (ht : t'.rd f core.val = t.rd f core.val) : StickyIf s' t' core f b :=
  ⟨fun hb => ht.trans (h.1 hb), fun hb => (ht.trans (h.2 hb)).trans hs⟩

theorem CoreStep.arrFlags {s t : State} {core : CoreId} {x : CoreX} {P : Nat → Prop} (h : CoreStep s t core x P) {isat nonfin : Bool}
    (hi : isat = true → P (Reg.ARR_STAT.ISAT.key core.val 0)) (hn : nonfin = true → P (Reg.ARR_STAT.NONFINITE.key core.val 0)) :
    CoreStep s (t.arrFlags core.val isat nonfin) core x P := by
  cases isat <;> cases nonfin
  · exact h
  · exact h.wr _ _ _ _ (hn rfl)
  · exact h.wr _ _ _ _ (hi rfl)
  · exact (h.wr _ _ _ _ (hi rfl)).wr _ _ _ _ (hn rfl)
theorem arrFlags_isat (s : State) (core : CoreId) (isat : Bool) :
    StickyIf s (s.arrFlags core.val isat false) core Reg.ARR_STAT.ISAT (isat = true) := by
  cases isat
  · exact ⟨fun h => absurd h (by decide), fun _ => rfl⟩
  · exact ⟨fun _ => State.rd_wr_same .., fun h => absurd rfl h⟩
theorem arrFlags_nonfinite (s : State) (core : CoreId) (nonfin : Bool) :
    StickyIf s (s.arrFlags core.val false nonfin) core Reg.ARR_STAT.NONFINITE (nonfin = true) := by
  cases nonfin
  · exact ⟨fun h => absurd h (by decide), fun _ => rfl⟩
  · exact ⟨fun _ => State.rd_wr_same .., fun h => absurd rfl h⟩

/-! ### A tile merges into its bin (R40, R41) -/

/-- Values put at rising keys are found there. -/
theorem getD_foldl_put {α : Type} (f : Nat → α) (base n : Nat) (m : List (Nat × α)) (j : Nat) (d : α) :
    Store.getD ((List.range n).foldl (fun m k => Store.put m (base + k) (f k)) m) j d =
      if base ≤ j ∧ j < base + n then f (j - base) else Store.getD m j d := by
  induction n with
  | zero => rw [if_neg (by omega)]; rfl
  | succ n ih =>
    rw [List.range_succ, List.foldl_append, List.foldl_cons, List.foldl_nil]
    by_cases hj : j = base + n
    · rw [hj, Store.getD_put_same, if_pos (by omega), Nat.add_sub_cancel_left]
    · rw [Store.getD_put_other _ _ _ _ hj, ih]
      exact if_congr (by omega) rfl rfl

section
variable (s : State) (core : Nat) (i : MmaInsn) (tile : Nat) (p : List Int)

/-- The tile sets its bin: it is the first of an AMMA with ZERO. -/
def MmaInsn.sets (i : MmaInsn) (tile : Nat) : Bool := i.zero && decide (tile = 0)
/-- The exact sum that a cell takes. -/
def State.mergeSum (k : Nat) : Int := if i.sets tile then p.getD k 0 else (s.binCell core i.bin k).toInt + p.getD k 0
/-- The code that a cell takes. -/
def State.mergeCell (k : Nat) : BitVec 32 :=
  if codeInt i.fmta then BitVec.ofInt 32 (max (-2147483648) (min 2147483647 (s.mergeSum core i tile p k)))
  else if i.sets tile then BitVec.ofInt 32 (p.getD k 0)
  else BitVec.ofNat 32 (fp32.round (FVal.add (fp32.decode (s.binCell core i.bin k).toNat) (fp32.decode (p.getD k 0).toNat)))
/-- The bins with a tile merged. -/
def State.mergeBins : List (Nat × BitVec 32) :=
  (List.range 256).foldl (fun m k => Store.put m ((core * 2 + i.bin) * 256 + k) (s.mergeCell core i tile p k)) s.bins
/-- A cell saturates. -/
def State.mergeSat : Bool := (List.range 256).any (fun k => codeInt i.fmta &&
  (decide (s.mergeSum core i tile p k < -2147483648) || decide (2147483647 < s.mergeSum core i tile p k)))
/-- ARR_STAT with a tile merged. -/
def State.mergeFlags : State :=
  let t := s.arrFlags core (s.mergeSat core i tile p) false
  if i.sets tile then
    (if i.bin = 0 then t.wr Reg.ARR_STAT.BIN0_INT (b2n (codeInt i.fmta)) core else t.wr Reg.ARR_STAT.BIN1_INT (b2n (codeInt i.fmta)) core)
  else t

theorem satInt32_eq (x : Int) :
    satInt32 x = (BitVec.ofInt 32 (max (-2147483648) (min 2147483647 x)), decide (x < -2147483648) || decide (2147483647 < x)) := by
  have hc : clampInt (-2147483648) 2147483647 x = max (-2147483648) (min 2147483647 x) := by
    unfold clampInt
    split
    · omega
    · split <;> omega
  unfold satInt32
  dsimp only
  rw [hc]

theorem arrFlags_bins (t : State) (b : List (Nat × BitVec 32)) (core : Nat) (isat nonfin : Bool) :
    ({ t with bins := b } : State).arrFlags core isat nonfin = { t.arrFlags core isat nonfin with bins := b } := by
  cases isat <;> cases nonfin <;> rfl
theorem wr_bins (t : State) (b : List (Nat × BitVec 32)) (f : Fld) (v i j : Nat) :
    ({ t with bins := b } : State).wr f v i j = { t.wr f v i j with bins := b } := rfl
theorem mergeTile_eq : s.mergeTile core i tile p = { s.mergeFlags core i tile p with bins := s.mergeBins core i tile p } := by
  have hcell (k : Nat) : (if codeInt i.fmta then satInt32 (if i.zero && decide (tile = 0) then p[k]?.getD 0
        else (s.binCell core i.bin k).toInt + p[k]?.getD 0)
      else if i.zero && decide (tile = 0) then (BitVec.ofInt 32 (p[k]?.getD 0), false)
      else (BitVec.ofNat 32 (fp32.round (FVal.add (fp32.decode (s.binCell core i.bin k).toNat) (fp32.decode (p[k]?.getD 0).toNat))), false)) =
      (s.mergeCell core i tile p k, codeInt i.fmta &&
        (decide (s.mergeSum core i tile p k < -2147483648) || decide (2147483647 < s.mergeSum core i tile p k))) := by
    rw [← List.getD_eq_getElem?_getD]
    unfold State.mergeCell State.mergeSum MmaInsn.sets
    cases codeInt i.fmta
    · cases i.zero && decide (tile = 0) <;> rfl
    · exact satInt32_eq _
  unfold State.mergeTile State.mergeFlags
  simp only [hcell, arrFlags_bins, wr_bins, State.mergeSat, State.mergeBins]
  rw [MmaInsn.sets]
  split
  · split <;> rfl
  · rfl
end

/-- Each cell of the bin takes its code. -/
theorem getD_mergeBins (s : State) (core : Nat) (i : MmaInsn) (tile : Nat) (p : List Int) {k : Nat} (hk : k < 256) :
    Store.getD (s.mergeBins core i tile p) ((core * 2 + i.bin) * 256 + k) 0 = s.mergeCell core i tile p k := by
  rw [State.mergeBins, getD_foldl_put, if_pos (by omega), Nat.add_sub_cancel_left]
/-- The cells of the other bins stand. -/
theorem getD_mergeBins_other (s : State) {core : Nat} {i : MmaInsn} (hi : i.bin < 2) (tile : Nat) (p : List Int) {c b k : Nat} (hb : b < 2)
    (hk : k < 256) (h : c ≠ core ∨ b ≠ i.bin) :
    Store.getD (s.mergeBins core i tile p) ((c * 2 + b) * 256 + k) 0 = Store.getD s.bins ((c * 2 + b) * 256 + k) 0 := by
  rw [State.mergeBins, getD_foldl_put, if_neg (by omega)]

/-! ### A tile passes (R57, R62) -/

/-- The registers that a tile's pass writes. -/
def passFlds : List Fld :=
  [Reg.ARR_STAT.ISAT, Reg.ARR_STAT.COLD, Reg.ARR_STAT.BIN0_INT, Reg.ARR_STAT.BIN1_INT, Reg.ARR_STAT.QDEPTH, Reg.ARR_STAT.BUSY]
/-- Those of them that the end of the ramp and the queue write. -/
def warmFlds : List Fld := [Reg.ARR_STAT.COLD, Reg.ARR_STAT.QDEPTH, Reg.ARR_STAT.BUSY]
/-- The record of a core whose oldest tile has passed. -/
def CoreX.passed (x : CoreX) : CoreX := { x with ramp := none, flight := x.flight.drop 1 }
/-- A tile's pass, its bin left out. -/
def State.passed (s : State) (core : Nat) (i : MmaInsn) (tile : Nat) (p : List Int) : State :=
  (((s.mergeFlags core i tile p).warm core).modCore core (fun c => { c with flight := c.flight.drop 1 })).arrSync core

theorem fillFlight_of_no_feed {s : State} {core : Nat} (h : (s.core core).feed = none) (n : Nat) : State.fillFlight core n s = s := by
  cases n with
  | zero => rfl
  | succ n => simp [State.fillFlight, h]

section
variable (s : State) (core : CoreId) (i : MmaInsn) (tile : Nat) (p : List Int)

theorem CoreStep.mergeFlags {t : State} {x : CoreX} {P : Nat → Prop} (h : CoreStep s t core x P) (hp : ∀ k ∈ coreKeys core passFlds, P k) :
    CoreStep s (t.mergeFlags core.val i tile p) core x P := by
  have hf := h.arrFlags (isat := t.mergeSat core.val i tile p) (nonfin := false) (fun _ => hp _ (mem_coreKeys (by decide)))
    (fun c => absurd c (by decide))
  unfold State.mergeFlags
  split
  · split
    · exact hf.wr _ _ _ _ (hp _ (mem_coreKeys (by decide)))
    · exact hf.wr _ _ _ _ (hp _ (mem_coreKeys (by decide)))
  · exact hf
theorem mergeFlags_isat : StickyIf s (s.mergeFlags core.val i tile p) core Reg.ARR_STAT.ISAT (s.mergeSat core.val i tile p = true) := by
  refine (arrFlags_isat s core _).of_rd rfl ?_
  have h0 : Reg.ARR_STAT.ISAT.apart Reg.ARR_STAT.BIN0_INT := by decide
  have h1 : Reg.ARR_STAT.ISAT.apart Reg.ARR_STAT.BIN1_INT := by decide
  unfold State.mergeFlags
  split
  · split
    · exact State.rd_wr_other _ _ _ _ _ _ _ _ (h0.key_ne core)
    · exact State.rd_wr_other _ _ _ _ _ _ _ _ (h1.key_ne core)
  · rfl
theorem mergeFlags_binInt (h : i.sets tile = true) : (s.mergeFlags core.val i tile p).binInt core.val i.bin = codeInt i.fmta := by
  have hbit : ∀ b : Bool, decide (b2n b % 2 = 1) = b := by decide
  unfold State.mergeFlags State.binInt
  rw [if_pos h]
  by_cases hb : i.bin = 0
  · rw [if_pos hb, if_pos hb, State.rd_wr_same]
    exact hbit _
  · rw [if_neg hb, if_neg hb, State.rd_wr_same]
    exact hbit _

/-- What of a tile's pass does not concern its bin. -/
theorem passed_spec :
    CoreStep s (s.passed core.val i tile p) core (s.core core.val).passed (fun k => k ∈ coreKeys core passFlds) ∧
      StickyIf s (s.passed core.val i tile p) core Reg.ARR_STAT.ISAT (s.mergeSat core.val i tile p = true) ∧
      (s.passed core.val i tile p).rd Reg.ARR_STAT.COLD core.val = 0 ∧
      (i.sets tile = true → (s.passed core.val i tile p).binInt core.val i.bin = codeInt i.fmta) := by
  have hm : CoreStep s (s.mergeFlags core.val i tile p) core (s.core core.val) (fun k => k ∈ coreKeys core passFlds) :=
    (CoreStep.refl s core _).mergeFlags (hp := fun _ hk => hk) ..
  have hw : CoreStep (s.mergeFlags core.val i tile p) (s.passed core.val i tile p) core (s.core core.val).passed
      (fun k => k ∈ coreKeys core warmFlds) := by
    have hr := CoreStep.refl (s.mergeFlags core.val i tile p) core (fun k => k ∈ coreKeys core warmFlds)
    rw [hm.record] at hr
    exact (((hr.modCore _).wr _ _ _ _ (mem_coreKeys (by decide))).modCore _).arrSync
      (fun k hk => coreKeys_subset (fs := [Reg.ARR_STAT.QDEPTH, Reg.ARR_STAT.BUSY]) (by decide) hk)
  have hkept {f : Fld} (h : ∀ g ∈ warmFlds, f.apart g) :
      (s.passed core.val i tile p).rd f core.val = (s.mergeFlags core.val i tile p).rd f core.val := hw.rd _ _ _ (notin_coreKeys h)
  refine ⟨hm.trans (hw.mono (fun _ hk => coreKeys_subset (by decide) hk)), ?_, ?_, fun h => ?_⟩
  · exact (mergeFlags_isat s core i tile p).of_rd rfl (hkept (by decide))
  · exact (arrSync_rd _ core (notin_arrKeys core (by decide))).trans (State.rd_wr_same ..)
  · rw [← mergeFlags_binInt s core i tile p h]
    unfold State.binInt
    rw [hkept (f := Reg.ARR_STAT.BIN0_INT) (by decide), hkept (f := Reg.ARR_STAT.BIN1_INT) (by decide)]
end

/-- The bins beside a pass stand, and the AMMA reads on no further. -/
theorem pass_with_bins {t : State} {core : Nat} (h : (t.core core).feed = none) (b : List (Nat × BitVec 32)) :
    (State.fillFlight core 1 ((({ t with bins := b } : State).warm core).modCore core (fun c =>
        { c with flight := c.flight.drop 1 }))).arrSync core =
      { ((t.warm core).modCore core (fun c => { c with flight := c.flight.drop 1 })).arrSync core with bins := b } := by
  have hfeed (u : State) (hu : (u.core core).feed = none) :
      (((u.warm core).modCore core (fun c => { c with flight := c.flight.drop 1 })).core core).feed = none := by simp [State.warm, hu]
  rw [fillFlight_of_no_feed (hfeed { t with bins := b } h)]
  rfl
/-- A tile that passes while the engine has no more to read. -/
theorem tilePass_eq {s : State} {core : CoreId} (h : (s.core core.val).feed = none) (r : MmaRun) (x : Cells) :
    s.tilePass core.val r x =
      { s.passed core.val r.insn r.tile x.plane with bins := s.mergeBins core.val r.insn r.tile x.plane } := by
  have hm := (CoreStep.refl s core (fun k => k ∈ coreKeys core passFlds)).mergeFlags (i := r.insn) (tile := r.tile) (p := x.plane)
    (hp := fun _ hk => hk)
  rw [State.tilePass, mergeTile_eq]
  exact pass_with_bins (by rw [hm.record]; exact h) _

end Sys2Proof.Machine

namespace Sys2Proof.Machine

/-! ### What a passed tile leaves (R40, R41, R57, R160) -/

/-- The array's counts move by the cycles of a re-run (R62). -/
def CoreX.shifted (x : CoreX) (n : Nat) : CoreX :=
  if n = 0 ∨ (x.stepEnd = 0 ∧ x.ramp.isNone) then x else { x with stepEnd := x.stepEnd + n, ramp := x.ramp.map (fun r => r + n) }
theorem CoreStep.shiftArr {s t : State} {core : CoreId} {x : CoreX} {P : Nat → Prop} (h : CoreStep s t core x P) (n : Nat) :
    CoreStep s (t.shiftArr core.val n) core (x.shifted n) P := by
  unfold State.shiftArr CoreX.shifted
  dsimp only
  rw [h.record]
  split
  · exact h
  · exact h.setCore _
theorem shifted_passed (y : CoreX) {n : Nat} (hn : n ≠ 0) : (CoreX.shifted { y with retry := false } n).passed =
    { y with
      flight := y.flight.drop 1, ramp := none, retry := false
      stepEnd := if y.stepEnd = 0 ∧ y.ramp = none then 0 else y.stepEnd + n } := by
  unfold CoreX.shifted CoreX.passed
  by_cases h : y.stepEnd = 0 ∧ y.ramp = none
  · rw [if_pos (.inr ⟨h.1, by simp [h.2]⟩), if_pos h, ← h.1]
  · rw [if_neg (by simpa [hn] using h), if_neg h]
theorem shifted_feed (x : CoreX) (n : Nat) : (x.shifted n).feed = x.feed := by
  unfold CoreX.shifted
  split <;> rfl
theorem MmaRun.count_pos (r : MmaRun) : r.count ≠ 0 := by
  unfold MmaRun.count
  split <;> decide

/-- A tile has merged into its bin: of the state only the bins, the record of the core, which is `y`, and the register fields that `P`
names differ. -/
structure TileMerged (s t : State) (core : CoreId) (i : MmaInsn) (tile : Nat) (p : List Int) (nonfin : Bool) (y : CoreX) (P : Nat → Prop) :
    Prop where
  cells : ∀ k < 256, t.binCell core.val i.bin k = s.mergeCell core.val i tile p k
  others : ∀ c b k, b < 2 → k < 256 → c ≠ core.val ∨ b ≠ i.bin → t.binCell c b k = s.binCell c b k
  isat : StickyIf s t core Reg.ARR_STAT.ISAT (codeInt i.fmta = true ∧
    ∃ k < 256, s.mergeSum core.val i tile p k < -2147483648 ∨ 2147483647 < s.mergeSum core.val i tile p k)
  nonfinite : StickyIf s t core Reg.ARR_STAT.NONFINITE (nonfin = true)
  cold : t.rd Reg.ARR_STAT.COLD core.val = 0
  type : i.sets tile = true → t.binInt core.val i.bin = codeInt i.fmta
  step : CoreStep s { t with bins := s.bins } core y P

theorem mergeSat_iff (s : State) (core : Nat) (i : MmaInsn) (tile : Nat) (p : List Int) : s.mergeSat core i tile p = true ↔
    codeInt i.fmta = true ∧ ∃ k < 256, s.mergeSum core i tile p k < -2147483648 ∨ 2147483647 < s.mergeSum core i tile p k := by
  simp only [State.mergeSat, List.any_eq_true, List.mem_range, Bool.and_eq_true, Bool.or_eq_true, decide_eq_true_eq]
  constructor
  · rintro ⟨k, hk, hi, hs⟩
    exact ⟨hi, k, hk, hs⟩
  · rintro ⟨hi, k, hk, hs⟩
    exact ⟨k, hk, hi, hs⟩

section
variable {s t u : State} {core : CoreId} {i : MmaInsn} {tile : Nat} {p : List Int} {nonfin : Bool} {y : CoreX} {P : Nat → Prop}

theorem TileMerged.mono {Q : Nat → Prop} (h : TileMerged s t core i tile p nonfin y P) (hq : ∀ k, P k → Q k) :
    TileMerged s t core i tile p nonfin y Q := { h with step := h.step.mono hq }
/-- A change of the core's record after the merge. -/
theorem TileMerged.modCore (h : TileMerged s t core i tile p nonfin y P) (g : CoreX → CoreX) :
    TileMerged s (t.modCore core.val g) core i tile p nonfin (g y) P :=
  ⟨h.cells, h.others, h.isat, h.nonfinite, h.cold, h.type, h.step.modCore g⟩
/-- The fill of the catch buffer after it. -/
theorem TileMerged.wrCatch (h : TileMerged s t core i tile p nonfin y P) (v : Nat) (hp : P (Reg.FUR_STAT.CATCH.key core.val 0)) :
    TileMerged s (t.wr Reg.FUR_STAT.CATCH v core.val) core i tile p nonfin y P := by
  have hrd {f : Fld} (hf : f.apart Reg.FUR_STAT.CATCH) : (t.wr Reg.FUR_STAT.CATCH v core.val).rd f core.val = t.rd f core.val :=
    State.rd_wr_other _ _ _ _ _ _ _ _ (hf.key_ne core)
  refine ⟨h.cells, h.others, h.isat.of_rd rfl (hrd (by decide)), h.nonfinite.of_rd rfl (hrd (by decide)),
    (hrd (by decide)).trans h.cold, fun hs => ?_, h.step.wr _ _ _ _ hp⟩
  rw [← h.type hs]
  unfold State.binInt
  rw [hrd (f := Reg.ARR_STAT.BIN0_INT) (by decide), hrd (f := Reg.ARR_STAT.BIN1_INT) (by decide)]

/-- A tile whose cells agree merges. -/
theorem tilePass_merges {r : MmaRun} (x : Cells) (hu : CoreStep s u core y (fun k => k = Reg.ARR_STAT.NONFINITE.key core.val 0))
    (hn : StickyIf s u core Reg.ARR_STAT.NONFINITE (nonfin = true)) (hfeed : y.feed = none) (hb : r.insn.bin < 2) :
    TileMerged s (u.tilePass core.val r x) core r.insn r.tile x.plane nonfin y.passed
      (fun k => k = Reg.ARR_STAT.NONFINITE.key core.val 0 ∨ k ∈ coreKeys core passFlds) := by
  obtain ⟨hstep, hisat, hcold, htype⟩ := passed_spec u core r.insn r.tile x.plane
  have hbins : u.bins = s.bins := (congrArg State.bins hu.frame :)
  have hcell (c b k : Nat) : u.binCell c b k = s.binCell c b k := by simp only [State.binCell, hbins]
  have hsum (k : Nat) : u.mergeSum core.val r.insn r.tile x.plane k = s.mergeSum core.val r.insn r.tile x.plane k := by
    simp only [State.mergeSum, hcell]
  have hnf : Reg.ARR_STAT.NONFINITE.key core.val 0 ∉ coreKeys core passFlds := notin_coreKeys (by decide)
  have hi : Reg.ARR_STAT.ISAT.apart Reg.ARR_STAT.NONFINITE := by decide
  rw [tilePass_eq (by rw [hu.record]; exact hfeed)]
  rw [mergeSat_iff] at hisat
  simp only [hsum] at hisat
  rw [hu.record] at hstep
  have hin : ∀ k < 256, Store.getD (u.mergeBins core.val r.insn r.tile x.plane) ((core.val * 2 + r.insn.bin) * 256 + k) 0 =
      s.mergeCell core.val r.insn r.tile x.plane k := fun k hk => by
    rw [getD_mergeBins u core.val r.insn r.tile x.plane hk]
    simp only [State.mergeCell, hsum, hcell]
  have hout : ∀ c b k, b < 2 → k < 256 → c ≠ core.val ∨ b ≠ r.insn.bin →
      Store.getD (u.mergeBins core.val r.insn r.tile x.plane) ((c * 2 + b) * 256 + k) 0 = s.binCell c b k := fun c b k hb' hk h =>
    (getD_mergeBins_other u hb r.tile x.plane hb' hk h).trans (hcell c b k)
  generalize u.mergeBins core.val r.insn r.tile x.plane = bins at hin hout ⊢
  generalize u.passed core.val r.insn r.tile x.plane = w at *
  have hsw := (hu.mono (Q := fun k => k = Reg.ARR_STAT.NONFINITE.key core.val 0 ∨ k ∈ coreKeys core passFlds) (fun _ hk => .inl hk)).trans
    (hstep.mono (fun _ hk => .inr hk))
  have hwb : { w with bins := s.bins } = w := by
    have hw : w.bins = s.bins := (congrArg State.bins hsw.frame :)
    rw [← hw]
  refine ⟨hin, hout, hisat.of_rd (hu.rd _ _ _ (hi.key_ne core)) rfl, hn.of_rd rfl (hstep.rd _ _ _ hnf), hcold, htype, ?_⟩
  exact hwb.symm ▸ hsw

/-! ### The catch buffer fills (R160) -/

theorem catchEnd_of_none (h : (t.core core.val).catchUp = none) : t.catchEnd core.val = t := by simp [State.catchEnd, h]
/-- A re-run's end fills it by its cycles, which fit. -/
theorem catchEnd_of_fits {q : Nat × Nat} (h : (t.core core.val).catchUp = some q) (hf : t.rd Reg.FUR_STAT.CATCH core.val + q.2 ≤ 128) :
    t.catchEnd core.val =
      (t.wr Reg.FUR_STAT.CATCH (t.rd Reg.FUR_STAT.CATCH core.val + q.2) core.val).modCore core.val (fun c => { c with catchUp := none }) := by
  have hnow (v : State) (hv : (v.core core.val).catchUp = none) : v.catchNow core.val 0 ≤ v.rd Reg.FUR_STAT.CATCH core.val := by
    unfold State.catchNow
    rw [hv]
    exact Nat.sub_le _ _
  have hcatch : ((t.wr Reg.FUR_STAT.CATCH (t.rd Reg.FUR_STAT.CATCH core.val + q.2) core.val).modCore core.val
      (fun c => { c with catchUp := none })).catchNow core.val 0 ≤ 128 := by
    refine (hnow _ (congrArg CoreX.catchUp (State.core_setCore ..))).trans ?_
    rw [State.modCore_def, State.setCore_rd, State.rd_wr_same]
    exact (Nat.mod_le _ _).trans hf
  unfold State.catchEnd
  rw [h]
  exact if_neg (Nat.not_lt.mpr hcatch)

/-- A re-run that passes (R62). -/
theorem TileMerged.catchEnd (h : TileMerged s t core i tile p nonfin y P)
    (hf : ∀ q, y.catchUp = some q → s.rd Reg.FUR_STAT.CATCH core.val + q.2 ≤ 128) (hp : ¬P (Reg.FUR_STAT.CATCH.key core.val 0)) :
    TileMerged s (t.catchEnd core.val) core i tile p nonfin { y with catchUp := none }
        (fun k => P k ∨ (y.catchUp ≠ none ∧ k = Reg.FUR_STAT.CATCH.key core.val 0)) ∧
      ∀ q, y.catchUp = some q → (t.catchEnd core.val).rd Reg.FUR_STAT.CATCH core.val = s.rd Reg.FUR_STAT.CATCH core.val + q.2 := by
  have hrec : (t.core core.val) = y := h.step.record
  have hrd : t.rd Reg.FUR_STAT.CATCH core.val = s.rd Reg.FUR_STAT.CATCH core.val := h.step.rd _ _ _ hp
  cases hy : y.catchUp with
  | none =>
    rw [catchEnd_of_none (by rw [hrec, hy])]
    exact ⟨(hy ▸ h : TileMerged s t core i tile p nonfin { y with catchUp := none } P).mono (fun _ hk => .inl hk), fun q hq => by cases hq⟩
  | some q =>
    have hq := hf q hy
    rw [catchEnd_of_fits (q := q) (by rw [hrec, hy]) (by rw [hrd]; exact hq), hrd]
    refine ⟨((h.mono (fun _ hk => .inl hk)).wrCatch _ (.inr ⟨by simp, rfl⟩)).modCore _, fun q' hq' => ?_⟩
    cases hq'
    rw [State.modCore_def, State.setCore_rd, State.rd_wr_same]
    exact Nat.mod_eq_of_lt (Nat.lt_of_le_of_lt hq (by decide))

end

end Sys2Proof.Machine

namespace Sys2Proof.Machine

/-! ### The two commands, by their verdict (R60-R64) -/

/-- The verdict on a tile, and that an operand of it is poisoned. -/
def State.tileCheck (s : State) (core : Nat) (r : MmaRun) (cells : CheckCells) : Verdict :=
  verdict (codeInt r.insn.fmta) (s.cellsOf core r cells)
def MmaRun.poisoned (r : MmaRun) : Bool := r.a.poison || r.b.poison

/-- A failing tile's place is recorded: none is known of a poisoned one (R61). -/
def State.locateTile (s : State) (core : Nat) (r : MmaRun) (v : Verdict) : State :=
  s.chkLoc core (if r.poisoned then 31 else v.row) (if r.poisoned then 31 else v.col)
/-- The registers after a first failure: the place and the counters. -/
def State.failCounted (s : State) (core : Nat) (r : MmaRun) (v : Verdict) : State :=
  (((((s.arrFlags core false v.nonfinite).warm core).locateTile core r v).incSat Reg.ARR_CHK.CHK_TOTAL 1 core).incSat
    Reg.ARR_CHK.CHK_STEP 1 core).incSat Reg.ARR_COUNT.RETRIES 1 core
/-- An event of a core with a copy of ARR_CHK. -/
def State.raiseChk (s : State) (core code : Nat) : State := s.raiseCore core code (s.copyOf Reg.ARR_CHK.CHK_TOTAL core)
/-- The record of a core whose oldest tile is run again (R62). -/
def State.rerunRecord (s : State) (core sub : Nat) (r : MmaRun) (rest : List MmaRun) (x : CoreX) : CoreX :=
  { x with
    flight := r :: rest, retry := true
    catchUp := if s.furRuns core then some (s.cycle (croftOf core) sub + 1, r.count) else (s.core core).catchUp }
/-- A first failure (R62). -/
def State.tileFails (s : State) (core sub : Nat) (r : MmaRun) (rest : List MmaRun) (v : Verdict) : State :=
  ((((s.failCounted core r v).raiseChk core 0x31).modCore core (s.rerunRecord core sub r rest))).askHold core r.count sub
/-- A re-run is over, whatever its verdict. -/
def State.rerunOver (s : State) (core : Nat) (r : MmaRun) (v : Verdict) : State :=
  ((s.arrFlags core false v.nonfinite).modCore core (fun c => { c with retry := false })).shiftArr core r.count
/-- A second failure (R64). -/
def State.arrayFaults (s : State) (core : Nat) (r : MmaRun) (v : Verdict) : State :=
  ((((((s.rerunOver core r v).locateTile core r v).wr Reg.ARR_STAT.FAULT 1 core).raiseChk core 0x32)).dropArray core).coreFault core 3 0x32

section
variable {s : State} {core : CoreId} {cells : CheckCells} {sub : Fin 8} {r0 r : MmaRun} {rest : List MmaRun}

theorem exec_tileVerdict (hfl : (s.core core.val).flight = r0 :: rest) (hs : s.stopped core.val = false)
    (hrb : (s.core core.val).readBefore r0.insn.bin r0.seq (s.cycle (croftOf core.val) sub.val) = false)
    (hr : s.tileOperands core.val r0 = some r) : exec (.tileVerdict core cells sub) s =
      if ((s.tileCheck core.val r cells).pass && !r.poisoned) = true then
        .next ((s.arrFlags core.val false (s.tileCheck core.val r cells).nonfinite).tilePass core.val r (s.cellsOf core.val r cells))
      else .next (s.tileFails core.val sub.val r rest (s.tileCheck core.val r cells)) := by
  have hgo : ¬(s.stopped core.val = true ∨
      (s.core core.val).readBefore r0.insn.bin r0.seq (s.cycle (croftOf core.val) sub.val) = true) := by simp [hs, hrb]
  simp only [exec, execTileVerdict, hfl, if_neg hgo, hr]
  rfl
theorem exec_tileRerunVerdict (hfl : (s.core core.val).flight = r :: rest) (hre : (s.core core.val).retry = true)
    (hc : s.croftIssues (croftOf core.val) = true) : exec (.tileRerunVerdict core cells) s =
      if ((s.tileCheck core.val r cells).pass && !r.poisoned) = true then
        .next (((s.rerunOver core.val r (s.tileCheck core.val r cells)).tilePass core.val r (s.cellsOf core.val r cells)).catchEnd core.val)
      else .next (s.arrayFaults core.val r (s.tileCheck core.val r cells)) := by
  simp only [exec, execTileRerunVerdict, hfl, hre, hc, and_self, if_true]
  rfl

end

end Sys2Proof.Machine

namespace Sys2Proof.Machine

/-! ### A verdict that passes (R40, R41, R60, R62) -/

section
variable {s : State} {core : CoreId} {cells : CheckCells} {sub : Fin 8} {r0 r : MmaRun} {rest : List MmaRun}

theorem arrFlags_nonfinite_step (s : State) (core : CoreId) (nonfin : Bool) :
    CoreStep s (s.arrFlags core.val false nonfin) core (s.core core.val) (fun k => k = Reg.ARR_STAT.NONFINITE.key core.val 0) :=
  (CoreStep.refl s core _).arrFlags (fun c => absurd c (by decide)) (fun _ => rfl)

/-- The tile on its first run. -/
theorem tileVerdict_merges (hfl : (s.core core.val).flight = r0 :: rest) (hs : s.stopped core.val = false)
    (hrb : (s.core core.val).readBefore r0.insn.bin r0.seq (s.cycle (croftOf core.val) sub.val) = false)
    (hr : s.tileOperands core.val r0 = some r) (hv : (s.tileCheck core.val r cells).pass = true) (hp : r.poisoned = false)
    (hfeed : (s.core core.val).feed = none) (hb : r.insn.bin < 2) :
    ∃ t, exec (.tileVerdict core cells sub) s = .next t ∧
      TileMerged s t core r.insn r.tile (s.cellsOf core.val r cells).plane (s.tileCheck core.val r cells).nonfinite
        { s.core core.val with flight := rest, ramp := none }
        (fun k => k = Reg.ARR_STAT.NONFINITE.key core.val 0 ∨ k ∈ coreKeys core passFlds) := by
  have hm := tilePass_merges (s.cellsOf core.val r cells) (arrFlags_nonfinite_step s core (s.tileCheck core.val r cells).nonfinite)
    (arrFlags_nonfinite ..) hfeed hb
  rw [CoreX.passed, hfl] at hm
  exact ⟨_, (exec_tileVerdict hfl hs hrb hr).trans (if_pos (by simp [hv, hp])), hm⟩

theorem rerunOver_step (s : State) (core : CoreId) (r : MmaRun) (v : Verdict) :
    CoreStep s (s.rerunOver core.val r v) core (CoreX.shifted { s.core core.val with retry := false } r.count)
      (fun k => k = Reg.ARR_STAT.NONFINITE.key core.val 0) :=
  ((arrFlags_nonfinite_step s core v.nonfinite).modCore (fun c => { c with retry := false })).shiftArr r.count
theorem shiftArr_rd (s : State) (core n : Nat) (f : Fld) (i j : Nat) : (s.shiftArr core n).rd f i j = s.rd f i j := by
  unfold State.shiftArr
  dsimp only
  split <;> rfl

/-- The tile on its re-run, which also ends what the catch buffer took in. -/
theorem tileRerunVerdict_merges (hfl : (s.core core.val).flight = r :: rest) (hre : (s.core core.val).retry = true)
    (hc : s.croftIssues (croftOf core.val) = true) (hv : (s.tileCheck core.val r cells).pass = true) (hp : r.poisoned = false)
    (hfeed : (s.core core.val).feed = none) (hb : r.insn.bin < 2)
    (hf : ∀ q, (s.core core.val).catchUp = some q → s.rd Reg.FUR_STAT.CATCH core.val + q.2 ≤ 128) :
    ∃ t, exec (.tileRerunVerdict core cells) s = .next t ∧
      TileMerged s t core r.insn r.tile (s.cellsOf core.val r cells).plane (s.tileCheck core.val r cells).nonfinite
        { s.core core.val with
          flight := rest, ramp := none, retry := false, catchUp := none
          stepEnd := if (s.core core.val).stepEnd = 0 ∧ (s.core core.val).ramp = none then 0 else (s.core core.val).stepEnd + r.count }
        (fun k => (k = Reg.ARR_STAT.NONFINITE.key core.val 0 ∨ k ∈ coreKeys core passFlds) ∨
          ((s.core core.val).catchUp ≠ none ∧ k = Reg.FUR_STAT.CATCH.key core.val 0)) ∧
      ∀ q, (s.core core.val).catchUp = some q → t.rd Reg.FUR_STAT.CATCH core.val = s.rd Reg.FUR_STAT.CATCH core.val + q.2 := by
  have hsticky : StickyIf s (s.rerunOver core.val r (s.tileCheck core.val r cells)) core Reg.ARR_STAT.NONFINITE
      ((s.tileCheck core.val r cells).nonfinite = true) := (arrFlags_nonfinite s core _).of_rd rfl (shiftArr_rd ..)
  have hm := tilePass_merges (s.cellsOf core.val r cells) (rerunOver_step s core r (s.tileCheck core.val r cells)) hsticky
    ((shifted_feed ..).trans hfeed) hb
  rw [shifted_passed _ r.count_pos, hfl] at hm
  have hnf : Reg.FUR_STAT.CATCH.apart Reg.ARR_STAT.NONFINITE := by decide
  have hout : ¬(Reg.FUR_STAT.CATCH.key core.val 0 = Reg.ARR_STAT.NONFINITE.key core.val 0 ∨
      Reg.FUR_STAT.CATCH.key core.val 0 ∈ coreKeys core passFlds) := not_or.mpr ⟨hnf.key_ne core, notin_coreKeys (by decide)⟩
  exact ⟨_, (exec_tileRerunVerdict hfl hre hc).trans (if_pos (by simp [hv, hp])), hm.catchEnd hf hout⟩

end

end Sys2Proof.Machine

namespace Sys2Proof.Machine

/-! ### A first failure: the place, the counters (R61, R62) -/

/-- A verdict names a row and a column of five bits. -/
theorem verdict_loc_lt (isInt : Bool) (x : Cells) : (verdict isInt x).row < 32 ∧ (verdict isInt x).col < 32 := by
  have hmem {l : List CmpOut} {k : Nat} {ks : List Nat} (h : (List.range 16).filter (fun k => decide (l[k]? = some CmpOut.fail)) = k :: ks) :
      k < 32 := by
    have hk : k ∈ (List.range 16).filter (fun k => decide (l[k]? = some CmpOut.fail)) := h ▸ List.mem_cons_self
    have := List.mem_range.mp (List.mem_filter.mp hk).1
    omega
  unfold verdict
  dsimp only
  split
  · next hr hc => exact ⟨hmem hr, hmem hc⟩
  · next hr hc => exact ⟨hmem hr, (by decide : 16 < 32)⟩
  · next hr hc => exact ⟨(by decide : 16 < 32), hmem hc⟩
  · split <;> exact ⟨by decide, by decide⟩
  · exact ⟨by decide, by decide⟩

theorem rd_incSat_apart (s : State) (core : CoreId) {f g : Fld} (n : Nat) (h : f.apart g) :
    (s.incSat g n core.val).rd f core.val = s.rd f core.val := rd_wr_apart s core _ h
theorem rd_arrFlags_apart (s : State) (core : CoreId) {f : Fld} (nonfin : Bool) (h : f.apart Reg.ARR_STAT.NONFINITE) :
    (s.arrFlags core.val false nonfin).rd f core.val = s.rd f core.val :=
  (arrFlags_nonfinite_step s core nonfin).rd _ _ _ (h.key_ne core)
theorem rd_warm_apart (s : State) (core : CoreId) {f : Fld} (h : f.apart Reg.ARR_STAT.COLD) :
    (s.warm core.val).rd f core.val = s.rd f core.val :=
  rd_wr_apart (s.modCore core.val (fun c => { c with ramp := none })) core 0 h

/-- The counters of failures. -/
def failCounters : List Fld := [Reg.ARR_CHK.CHK_TOTAL, Reg.ARR_CHK.CHK_STEP, Reg.ARR_COUNT.RETRIES]
/-- The registers that a first failure writes. -/
def failFlds : List Fld :=
  [Reg.ARR_STAT.NONFINITE, Reg.ARR_STAT.COLD, Reg.ARR_CHK.LOC_ROW, Reg.ARR_CHK.LOC_COL, Reg.ARR_CHK.LOC_VALID] ++ failCounters

section
variable (s : State) (core : CoreId) (r : MmaRun) (v : Verdict)

theorem CoreStep.locateTile {t : State} {x : CoreX} {P : Nat → Prop} (h : CoreStep s t core x P)
    (hp : ∀ k ∈ coreKeys core [Reg.ARR_CHK.LOC_ROW, Reg.ARR_CHK.LOC_COL, Reg.ARR_CHK.LOC_VALID], P k) :
    CoreStep s (t.locateTile core.val r v) core x P :=
  ((h.wr _ _ _ _ (hp _ (mem_coreKeys (by decide)))).wr _ _ _ _ (hp _ (mem_coreKeys (by decide)))).wr _ _ _ _ (hp _ (mem_coreKeys (by decide)))
theorem failCounted_step : CoreStep s (s.failCounted core.val r v) core { s.core core.val with ramp := none }
    (fun k => k ∈ coreKeys core failFlds) := by
  have hf : ∀ f ∈ failFlds, f.key core.val 0 ∈ coreKeys core failFlds := fun f hf => mem_coreKeys hf
  have hw := (((arrFlags_nonfinite_step s core v.nonfinite).mono (fun k hk => hk ▸ hf _ (by decide))).modCore
    (fun c => { c with ramp := none })).wr Reg.ARR_STAT.COLD 0 core.val 0 (hf _ (by decide))
  exact (((hw.locateTile (r := r) (v := v) (hp := fun k hk => coreKeys_subset (by decide) hk)).incSat _ _ _ _ (hf _ (by decide))).incSat _ _ _ _
    (hf _ (by decide))).incSat _ _ _ _ (hf _ (by decide))
theorem failCounted_place (hr : v.row < 32) (hc : v.col < 32) :
    (s.failCounted core.val r v).rd Reg.ARR_CHK.LOC_ROW core.val = (if r.poisoned then 31 else v.row) ∧
      (s.failCounted core.val r v).rd Reg.ARR_CHK.LOC_COL core.val = (if r.poisoned then 31 else v.col) ∧
      (s.failCounted core.val r v).rd Reg.ARR_CHK.LOC_VALID core.val = 1 ∧ (s.failCounted core.val r v).rd Reg.ARR_STAT.COLD core.val = 0 := by
  have hlt {n : Nat} (hn : n < 32) : (if r.poisoned then 31 else n) % 2 ^ 5 = if r.poisoned then 31 else n :=
    Nat.mod_eq_of_lt (by split <;> omega)
  unfold State.failCounted State.locateTile State.chkLoc
  refine ⟨?_, ?_, ?_, ?_⟩
  · simp (disch := decide) only [rd_incSat_apart, rd_wr_apart, State.rd_wr_same]
    exact hlt hr
  · simp (disch := decide) only [rd_incSat_apart, rd_wr_apart, State.rd_wr_same]
    exact hlt hc
  · simp (disch := decide) only [rd_incSat_apart, State.rd_wr_same]
    rfl
  · simp (disch := decide) only [rd_incSat_apart, rd_wr_apart, State.warm, State.rd_wr_same]
    rfl
theorem failCounted_counters {f : Fld} (hf : f ∈ failCounters) :
    (s.failCounted core.val r v).rd f core.val = min (s.rd f core.val + 1) (2 ^ f.width - 1) := by
  simp only [failCounters, List.mem_cons, List.not_mem_nil, or_false] at hf
  unfold State.failCounted State.locateTile State.chkLoc
  rcases hf with rfl | rfl | rfl
  all_goals simp (disch := decide) only [rd_incSat_apart, rd_incSat_same, rd_wr_apart, rd_warm_apart, rd_arrFlags_apart]

end

/-! ### Its event (R489) -/

/-- An event keeps 64 bits of its DETAIL. -/
theorem raiseCore_mod (s : State) (core code detail : Nat) : s.raiseCore core code detail = s.raiseCore core code (detail % 2 ^ 64) := by
  simp only [State.raiseCore, State.raiseAt, Nat.mod_mod]

section
variable {s u : State} {core : CoreId} {x : CoreX} {P : Nat → Prop}

/-- An event of the core after a change of its record and registers. -/
theorem CoreStep.raiseCore (h : CoreStep s u core x P) (code detail : Nat) :
    CoreStep s { u.raiseCore core.val code detail with events := s.events } core x (fun k => P k ∨ lostKey k) := by
  rw [raiseCore_mod]
  obtain ⟨-, hframe, hkept⟩ := raiseCore_spec u core.val code (Nat.mod_lt detail (Nat.two_pow_pos 64))
  generalize u.raiseCore core.val code (detail % 2 ^ 64) = t at *
  have hcores : t.cores = u.cores := (congrArg State.cores hframe :)
  have hev : u.events = s.events := (congrArg State.events h.frame :)
  have hcore (c : Nat) : State.core { t with events := s.events } c = u.core c := by simp only [State.core, hcores]
  refine ⟨?_, (hcore _).trans h.record, fun c hc => (hcore c).trans (h.others c hc), h.kept.trans hkept⟩
  have hf := (congrArg (fun v : State => { v with fields := s.fields, cores := s.cores }) hframe).trans h.frame
  rw [hev] at hf
  exact hf
theorem CoreStep.raises (h : CoreStep s u core x P) (hlow : ∀ k < 0x200010000000 * 64, ¬P k) (code detail : Nat) :
    ∃ d, Raised s (u.raiseCore core.val code detail) ((s.enclOfCore core.val).getD 16) code 0 core.val d := by
  rw [raiseCore_mod]
  obtain ⟨hraised, -, -⟩ := raiseCore_spec u core.val code (Nat.mod_lt detail (Nat.two_pow_pos 64))
  exact ⟨_, hraised.of_kept h.kept hlow (congrArg State.events h.frame :) (fun _ he => he)⟩
/-- The same with a copy of ARR_CHK. -/
theorem CoreStep.raiseChk (h : CoreStep s u core x P) (code : Nat) :
    CoreStep s { u.raiseChk core.val code with events := s.events } core x (fun k => P k ∨ lostKey k) := h.raiseCore code _
theorem CoreStep.raisesChk (h : CoreStep s u core x P) (hlow : ∀ k < 0x200010000000 * 64, ¬P k) (code : Nat) :
    ∃ d, Raised s (u.raiseChk core.val code) ((s.enclOfCore core.val).getD 16) code 0 core.val d := h.raises hlow code _
theorem rd_raiseChk (s : State) (core : CoreId) (code : Nat) {f : Fld} (hb : f.blk = .core) (hl : f.lo < 64) :
    (s.raiseChk core.val code).rd f core.val = s.rd f core.val := by
  unfold State.raiseChk
  rw [raiseCore_mod]
  obtain ⟨-, -, hkept⟩ := raiseCore_spec s core.val code (Nat.mod_lt (s.copyOf Reg.ARR_CHK.CHK_TOTAL core.val) (Nat.two_pow_pos 64))
  exact hkept.rd f core.val 0 (not_lostKey_core hb hl core.val 0)
end

end Sys2Proof.Machine

namespace Sys2Proof.Machine

/-! ### A core of a running segment asks for a hold (R159) -/

/-- The hold goes to the core's segment; nothing else changes. -/
theorem askHold_spec (s : State) (core len sub : Nat) :
    (∀ g, (s.askHold core len sub).seg g = if s.furRuns core = true ∧ s.segOf core = some g then
        { s.seg g with holds := addHold ⟨s.estTick (croftOf core), croftOf core, sub, len⟩ (s.seg g).holds } else s.seg g) ∧
      { s.askHold core len sub with segs := s.segs } = s := by
  unfold State.askHold State.furRuns
  cases hseg : s.segOf core with
  | none => exact ⟨fun g => (if_neg (by simp)).symm, rfl⟩
  | some n =>
    dsimp only
    by_cases hrun : s.rd Reg.FUR_RUN.RUN (j := n) = 1
    · rw [if_pos hrun]
      refine ⟨fun g => ?_, rfl⟩
      by_cases hg : n = g
      · subst hg
        rw [if_pos ⟨decide_eq_true hrun, rfl⟩]
        exact State.seg_setSeg ..
      · rw [if_neg (fun c => hg (Option.some.inj c.2))]
        exact State.seg_setSeg_other _ _ (Ne.symm hg)
    · rw [if_neg hrun]
      exact ⟨fun g => (if_neg (fun c => hrun (of_decide_eq_true c.1))).symm, rfl⟩

/-- Where fields of one core, and the LOST counters, are kept. -/
def lostOr (core : CoreId) (fs : List Fld) (k : Nat) : Prop := k ∈ coreKeys core fs ∨ lostKey k

theorem Fld.key_mod {f : Fld} (h : f.lo < 64) (i j : Nat) : f.key i j % 64 = f.lo := by
  simp only [Fld.key]
  omega
/-- A field at other bits than all of them is none of them. -/
theorem not_lostOr_of_lo {core : CoreId} {fs : List Fld} {f : Fld} (hl : f.lo < 64) (hne : f.lo ≠ 32) (h : ∀ g ∈ fs, g.lo < 64 ∧ f.lo ≠ g.lo)
    (i j : Nat) : ¬lostOr core fs (f.key i j) := by
  rintro (hm | ⟨n, -, e⟩)
  · obtain ⟨g, hg, e⟩ := List.mem_map.mp hm
    have he : _ % 64 = _ % 64 := congrArg (· % 64) e
    rw [Fld.key_mod hl, Fld.key_mod (h g hg).1] at he
    exact (h g hg).2 he.symm
  · have he : _ % 64 = _ % 64 := congrArg (· % 64) e
    rw [Fld.key_mod hl, Fld.key_mod (by decide)] at he
    exact hne he
theorem not_lostOr_core {core : CoreId} {fs : List Fld} {f : Fld} (hb : f.blk = .core) (hl : f.lo < 64) (h : ∀ g ∈ fs, f.apart g) :
    ¬lostOr core fs (f.key core.val 0) := not_or.mpr ⟨notin_coreKeys h, not_lostKey_core hb hl core.val 0⟩
/-- Nor is a field of the almanac and the clocks. -/
theorem not_lostOr_clk {core : CoreId} {fs : List Fld} (hfs : ∀ g ∈ fs, g.blk = .core) {f : Fld} (hb : f.blk = .clk) (hl : f.lo < 64) {j : Nat}
    (ho : f.off + j * f.stride < 0x100000) : ¬lostOr core fs (f.key 0 j) := by
  rintro (hm | ⟨n, hn, e⟩)
  · refine coreKeys_low hfs (f.key 0 j) ?_ hm
    simp only [Fld.key, Fld.addr, hb, Block.base]
    omega
  · simp only [Fld.key, Fld.addr, hb, Reg.EVR_PI.LOST, Block.base] at e
    omega

section
variable {s t : State} {core : CoreId} {x : CoreX} {P : Nat → Prop}

/-- A core's segment, and whether it runs, are read from three fields. -/
theorem furRuns_congr (hin : t.rd Reg.FUR_POS.IN_SEG core.val = s.rd Reg.FUR_POS.IN_SEG core.val)
    (hseg : t.rd Reg.FUR_POS.SEG core.val = s.rd Reg.FUR_POS.SEG core.val) (hrun : ∀ g, t.rd Reg.FUR_RUN.RUN 0 g = s.rd Reg.FUR_RUN.RUN 0 g) :
    t.segOf core.val = s.segOf core.val ∧ t.furRuns core.val = s.furRuns core.val := by
  have hs : t.segOf core.val = s.segOf core.val := by simp only [State.segOf, hin, hseg]
  refine ⟨hs, ?_⟩
  simp only [State.furRuns, hs, hrun]
/-- A croft's tick is read from its record and two fields. -/
theorem estTick_congr (hc : t.crofts = s.crofts) (htick : t.rd Reg.ALM_TICK.TICK = s.rd Reg.ALM_TICK.TICK)
    (hop : t.rd Reg.HOLD_OP.CUR 0 (holdingOf (croftOf core.val)) = s.rd Reg.HOLD_OP.CUR 0 (holdingOf (croftOf core.val))) :
    t.estTick (croftOf core.val) = s.estTick (croftOf core.val) := by
  have hcroft : t.croft (croftOf core.val) = s.croft (croftOf core.val) := by simp only [State.croft, hc]
  have hnow : t.now = s.now := htick
  have hop' : t.opOf (croftOf core.val) = s.opOf (croftOf core.val) := hop
  rw [State.estTick, State.estUnits, hcroft, hnow, hop']
  rfl
theorem holdingOf_lt (core : CoreId) : holdingOf (croftOf core.val) < 16 := by
  have := core.isLt
  unfold holdingOf croftOf rowOf colOf
  omega

end

/-! ### A first failure (R62) -/

/-- What a first failure leaves, beside its event: the registers, the record of the core, and its segment's holds. -/
theorem tileFails_spec (s : State) (core : CoreId) (sub : Nat) (r : MmaRun) (rest : List MmaRun) (v : Verdict) :
    ∃ z, CoreStep s { z with events := s.events } core (s.rerunRecord core.val sub r rest { s.core core.val with ramp := none })
        (lostOr core failFlds) ∧
      (∃ d, Raised s z ((s.enclOfCore core.val).getD 16) 0x31 0 core.val d) ∧
      (∀ f : Fld, f.blk = .core → f.lo < 64 → z.rd f core.val = (s.failCounted core.val r v).rd f core.val) ∧
      s.tileFails core.val sub r rest v = z.askHold core.val r.count sub := by
  have hc := failCounted_step s core r v
  have hw := hc.raiseChk 0x31
  have hd := hc.raisesChk (coreKeys_low (by decide)) 0x31
  have hrd (f : Fld) (hb : f.blk = .core) (hl : f.lo < 64) := rd_raiseChk (s.failCounted core.val r v) core 0x31 hb hl
  unfold State.tileFails
  generalize (s.failCounted core.val r v).raiseChk core.val 0x31 = w at *
  exact ⟨w.modCore core.val (s.rerunRecord core.val sub r rest), hw.modCore _, hd, hrd, rfl⟩

end Sys2Proof.Machine

namespace Sys2Proof.Machine

/-! ### A fault of a core, halted before or not (R115, R116, R275) -/

section
variable (s : State) (core cause code : Nat)

/-- A core halted with a CAUSE, unless it is halted already. -/
def State.haltedOnce : State := if s.rd Reg.HND_STAT.HALTED core = 1 then s else s.halted core cause

variable {cause} (h1 : cause ≠ 1) (h5 : cause ≠ 5)
include h1 h5

/-- What follows the halt of a core that faults. -/
theorem coreFault_aftermath : Aftermath (s.haltedOnce core cause) (s.coreFault core cause code) := by
  have hh : s.haltCore core cause = (s.haltedOnce core cause).abortDrills core := by
    unfold State.haltCore State.haltedOnce State.halted
    simp only [if_neg h1, if_neg h5]
  have ha : Aftermath (s.haltedOnce core cause) (s.haltCore core cause) := hh ▸ .of_aborts (abortDrills_aborts _ core)
  unfold State.coreFault
  dsimp only
  split
  · next n hn =>
    have hf := ha.trans (faultEncl_aftermath (s.haltCore core cause) (enclOf_lt hn) code ((s.haltCore core cause).estTick (croftOf core)))
    exact .ite (hf.trans (wipeOf_aftermath ..)) hf
  · exact ha
/-- A register that neither the halt nor what follows writes. -/
theorem coreFault_rd {f : Fld} {j : Nat} (hb : f.blk = .core) (ho : f.off + j * f.stride < 0x1000) (hl : f.lo < 64)
    (ha : (f.off + j * f.stride) * 64 + f.lo ∉ aftermathSlots) :
    (s.coreFault core cause code).rd f core j = (s.haltedOnce core cause).rd f core j :=
  (coreFault_aftermath s core code h1 h5).kept.rd _ _ _ (not_aftermathKey hb ho hl ha)
end

theorem haltedOnce_rd (s : State) (core : CoreId) (cause : Nat) {f : Fld} (hh : f.apart Reg.HND_STAT.HALTED) (hc : f.apart Reg.HND_STAT.CAUSE) :
    (s.haltedOnce core.val cause).rd f core.val = s.rd f core.val := by
  unfold State.haltedOnce
  split
  · rfl
  · exact (halted_kept s core.val cause).rd _ _ _ (by simp [hh.key_ne core, hc.key_ne core])
theorem haltedOnce_bins (s : State) (core cause : Nat) : (s.haltedOnce core cause).bins = s.bins := by
  unfold State.haltedOnce
  split <;> rfl
theorem haltedOnce_events (s : State) (core cause : Nat) : (s.haltedOnce core cause).events = s.events := by
  unfold State.haltedOnce
  split <;> rfl
theorem Aftermath.bins {s t : State} (h : Aftermath s t) : t.bins = s.bins := (congrArg State.bins h.frame :)
theorem haltedOnce_halted (s : State) (core cause : Nat) : (s.haltedOnce core cause).rd Reg.HND_STAT.HALTED core = 1 ∧
    (s.rd Reg.HND_STAT.HALTED core ≠ 1 → (s.haltedOnce core cause).rd Reg.HND_STAT.CAUSE core = cause % 16) := by
  unfold State.haltedOnce
  by_cases h : s.rd Reg.HND_STAT.HALTED core = 1
  · rw [if_pos h]
    exact ⟨h, fun c => absurd h c⟩
  · rw [if_neg h]
    exact ⟨rd_halted_halted .., fun _ => rd_halted_cause ..⟩

/-! ### A second failure (R64) -/

/-- The registers that a second failure writes before its event. -/
def faultFlds : List Fld := [Reg.ARR_STAT.NONFINITE, Reg.ARR_CHK.LOC_ROW, Reg.ARR_CHK.LOC_COL, Reg.ARR_CHK.LOC_VALID, Reg.ARR_STAT.FAULT]

theorem CoreStep.dropArray {s t : State} {core : CoreId} {x : CoreX} {P : Nat → Prop} (h : CoreStep s t core x P)
    (hp : ∀ k ∈ arrKeys core, P k) : CoreStep s (t.dropArray core.val) core { x with arrQ := [], mmaPend := none, feed := none, flight := [], rdPend := none } P :=
  (h.modCore _).arrSync hp

/-- What a second failure leaves before the core faults. -/
theorem dropped_spec (s : State) (core : CoreId) (r : MmaRun) (v : Verdict) : ∃ a y, s.arrayFaults core.val r v = a.coreFault core.val 3 0x32 ∧
    CoreStep s { a with events := s.events } core y (lostOr core (faultFlds ++ [Reg.ARR_STAT.QDEPTH, Reg.ARR_STAT.BUSY])) ∧
    y.waiting = ([], []) ∧ (∃ d, Raised s a ((s.enclOfCore core.val).getD 16) 0x32 0 core.val d) ∧ a.rd Reg.ARR_STAT.FAULT core.val = 1 := by
  have hmem : ∀ f ∈ faultFlds, f.key core.val 0 ∈ coreKeys core faultFlds := fun f hf => mem_coreKeys hf
  have hu := (((rerunOver_step s core r v).mono (fun k hk => hk ▸ hmem _ (by decide))).locateTile (r := r) (v := v)
    (hp := fun k hk => coreKeys_subset (by decide) hk)).wr Reg.ARR_STAT.FAULT 1 core.val 0 (hmem _ (by decide))
  have hfault : (((s.rerunOver core.val r v).locateTile core.val r v).wr Reg.ARR_STAT.FAULT 1 core.val).rd Reg.ARR_STAT.FAULT core.val = 1 :=
    State.rd_wr_same ..
  unfold State.arrayFaults
  generalize ((s.rerunOver core.val r v).locateTile core.val r v).wr Reg.ARR_STAT.FAULT 1 core.val = u at *
  have hw := hu.raiseChk 0x32
  have hd := hu.raisesChk (coreKeys_low (by decide)) 0x32
  have hrd := (rd_raiseChk u core 0x32 (f := Reg.ARR_STAT.FAULT) rfl (by decide)).trans hfault
  generalize u.raiseChk core.val 0x32 = w at *
  refine ⟨w.dropArray core.val, _, rfl, (hw.mono fun k hk => ?_).dropArray fun k hk => .inl ?_, rfl, hd, ?_⟩
  · exact hk.imp_left (coreKeys_subset (by decide))
  · exact coreKeys_subset (fs := [Reg.ARR_STAT.QDEPTH, Reg.ARR_STAT.BUSY]) (by decide) hk
  · exact (arrSync_rd _ core (notin_arrKeys core (by decide))).trans hrd

end Sys2Proof.Machine

namespace Sys2Proof.Machine

section
variable {s : State} {core : CoreId} {cells : CheckCells} {sub : Fin 8} {r0 r : MmaRun} {rest : List MmaRun}

/-- A change that keeps all but LOST and such fields of the core leaves what the core's hold is asked with (R159). -/
theorem CoreStep.hold {z : State} {y : CoreX} {fs : List Fld} (h : CoreStep s z core y (lostOr core fs))
    (hfs : ∀ g ∈ fs, g.blk = .core ∧ g.lo < 64 ∧ g.lo ≠ 2) (hin : ∀ g ∈ fs, Reg.FUR_POS.IN_SEG.apart g)
    (hseg : ∀ g ∈ fs, Reg.FUR_POS.SEG.apart g) :
    z.segOf core.val = s.segOf core.val ∧ z.furRuns core.val = s.furRuns core.val ∧
      z.estTick (croftOf core.val) = s.estTick (croftOf core.val) := by
  have hh := holdingOf_lt core
  obtain ⟨hs, hr⟩ := furRuns_congr (h.rd _ _ _ (not_lostOr_core rfl (by decide) hin)) (h.rd _ _ _ (not_lostOr_core rfl (by decide) hseg))
    (fun g => h.rd Reg.FUR_RUN.RUN 0 g (not_lostOr_of_lo (by decide) (by decide)
      (fun f hf => (hfs f hf).2.imp_right (fun hne e => hne e.symm)) 0 g))
  refine ⟨hs, hr, estTick_congr (congrArg State.crofts h.frame :) (h.rd Reg.ALM_TICK.TICK 0 0 ?_) (h.rd Reg.HOLD_OP.CUR 0 _ ?_)⟩
  · exact not_lostOr_clk (fun f hf => (hfs f hf).1) rfl (by decide) (by decide)
  · refine not_lostOr_clk (fun f hf => (hfs f hf).1) rfl (by decide) ?_
    simp only [Reg.HOLD_OP.CUR]
    omega

/-- A tile that fails on its first run (R61, R62, R159). -/
theorem tileFails_leaves (s : State) (core : CoreId) (sub : Nat) (r : MmaRun) (rest : List MmaRun) {v : Verdict} (hv : v.row < 32 ∧ v.col < 32) :
    let t := s.tileFails core.val sub r rest v
    t.bins = s.bins ∧ t.rd Reg.ARR_CHK.LOC_ROW core.val = (if r.poisoned then 31 else v.row) ∧
      t.rd Reg.ARR_CHK.LOC_COL core.val = (if r.poisoned then 31 else v.col) ∧ t.rd Reg.ARR_CHK.LOC_VALID core.val = 1 ∧
      (∀ f ∈ failCounters, t.rd f core.val = min (s.rd f core.val + 1) (2 ^ f.width - 1)) ∧ t.rd Reg.ARR_STAT.COLD core.val = 0 ∧
      (∃ d, Raised s t ((s.enclOfCore core.val).getD 16) 0x31 0 core.val d) ∧
      t.core core.val = s.rerunRecord core.val sub r rest { s.core core.val with ramp := none } ∧
      (∀ c, c ≠ core.val → t.core c = s.core c) ∧
      (∀ g, t.seg g = if s.furRuns core.val = true ∧ s.segOf core.val = some g then
        { s.seg g with holds := addHold ⟨s.estTick (croftOf core.val), croftOf core.val, sub, r.count⟩ (s.seg g).holds } else s.seg g) ∧
      { t with fields := s.fields, cores := s.cores, events := s.events, segs := s.segs } = s ∧ BytesKept s t (fun _ => False) ∧
      Kept s t (lostOr core failFlds) := by
  intro t
  obtain ⟨z, hz, ⟨d, hd⟩, hrd, heq⟩ := tileFails_spec s core sub r rest v
  obtain ⟨hseg, hframe⟩ := askHold_spec z core.val r.count sub
  have ht : t = z.askHold core.val r.count sub := heq
  clear_value t
  subst ht
  obtain ⟨hrow, hcol, hvalid, hcold⟩ := failCounted_place s core r v hv.1 hv.2
  obtain ⟨hsegOf, hruns, htick⟩ := hz.hold (by decide) (by decide) (by decide)
  generalize z.askHold core.val r.count sub = t at *
  have hfields : t.fields = z.fields := (congrArg State.fields hframe :)
  have hcores : t.cores = z.cores := (congrArg State.cores hframe :)
  have hevents : t.events = z.events := (congrArg State.events hframe :)
  have hall : { t with fields := s.fields, cores := s.cores, events := s.events, segs := s.segs } = s := by
    have hsegs : z.segs = s.segs := (congrArg State.segs hz.frame :)
    rw [← hsegs]
    exact (congrArg (fun x : State => { x with fields := s.fields, cores := s.cores, events := s.events }) hframe).trans hz.frame
  have htrd (f : Fld) (hb : f.blk = .core) (hl : f.lo < 64) : t.rd f core.val = (s.failCounted core.val r v).rd f core.val :=
    (State.rd_congr hfields ..).trans (hrd f hb hl)
  have hcounters : ∀ f ∈ failCounters, f.blk = .core ∧ f.lo < 64 := by decide
  refine ⟨(congrArg State.bins hall :), (htrd _ rfl (by decide)).trans hrow, (htrd _ rfl (by decide)).trans hcol,
    (htrd _ rfl (by decide)).trans hvalid, fun f hf => (htrd f (hcounters f hf).1 (hcounters f hf).2).trans (failCounted_counters s core r v hf),
    (htrd _ rfl (by decide)).trans hcold, ⟨d, ?_⟩, ?_, fun c hc => ?_, fun g => ?_, hall, .of_mem (congrArg State.mem hall :) _, ?_⟩
  · unfold Raised at *
    rw [hevents]
    exact hd
  · exact (congrArg (fun l => Store.getD l core.val CoreX.init) hcores).trans hz.record
  · exact (congrArg (fun l => Store.getD l c CoreX.init) hcores).trans (hz.others c hc)
  · have hz' : z.seg g = s.seg g := congrArg (fun l => Store.getD l g SegX.init) (congrArg State.segs hz.frame :)
    have hsegOf' : z.segOf core.val = s.segOf core.val := hsegOf
    have hruns' : z.furRuns core.val = s.furRuns core.val := hruns
    have htick' : z.estTick (croftOf core.val) = s.estTick (croftOf core.val) := htick
    rw [hseg g, hz', hsegOf', hruns', htick']
  · exact fun k hk => (congrArg (fun l => Store.get l k) hfields).trans (hz.kept k hk)

end

section
variable {s a : State} {core : CoreId} {y : CoreX}

/-- The fault of a core leaves the bins, memory and what is queued and read of a state that differs in the core's record and registers. -/
theorem CoreStep.faults {P : Nat → Prop} (h : CoreStep s { a with events := s.events } core y P) :
    (a.coreFault core.val 3 0x32).bins = s.bins ∧ (a.coreFault core.val 3 0x32).mem = s.mem ∧
      ((a.coreFault core.val 3 0x32).core core.val).waiting = y.waiting := by
  have haft := coreFault_aftermath a core.val 0x32 (cause := 3) (by decide) (by decide)
  have hrec : a.core core.val = y := h.record
  refine ⟨?_, ?_, ?_⟩
  · rw [haft.bins, haltedOnce_bins]
    exact (congrArg State.bins h.frame :)
  · rw [coreFault_mem]
    exact (congrArg State.mem h.frame :)
  · rw [(coreFault_arrKept a core.val 3 0x32).waiting, hrec]
/-- It halts the core. -/
theorem coreFault_halts (a : State) (core : CoreId) : (a.coreFault core.val 3 0x32).rd Reg.HND_STAT.HALTED core.val = 1 ∧
    (a.rd Reg.HND_STAT.HALTED core.val ≠ 1 → (a.coreFault core.val 3 0x32).rd Reg.HND_STAT.CAUSE core.val = 3) ∧
    (a.coreFault core.val 3 0x32).rd Reg.ARR_STAT.FAULT core.val = a.rd Reg.ARR_STAT.FAULT core.val := by
  obtain ⟨hh, hcause⟩ := haltedOnce_halted a core.val 3
  refine ⟨?_, fun hne => ?_, ?_⟩
  · rw [coreFault_rd a core.val 0x32 (by decide) (by decide) rfl (by decide) (by decide) (by decide)]
    exact hh
  · rw [coreFault_rd a core.val 0x32 (by decide) (by decide) rfl (by decide) (by decide) (by decide)]
    exact hcause hne
  · rw [coreFault_rd a core.val 0x32 (by decide) (by decide) rfl (by decide) (by decide) (by decide),
      haltedOnce_rd a core 3 (by decide) (by decide)]
/-- Events raised before it stay. -/
theorem Raised.coreFault {ring code skind unit d : Nat} (h : Raised s a ring code skind unit d) (core : Nat) :
    Raised s (a.coreFault core 3 0x32) ring code skind unit d := by
  have haft := coreFault_aftermath a core 0x32 (cause := 3) (by decide) (by decide)
  have hin : ∀ e ∈ a.events, e ∈ (a.coreFault core 3 0x32).events := fun e he => haft.events e ((haltedOnce_events a core 3).symm ▸ he)
  obtain ⟨hold, hnew⟩ := h
  refine ⟨fun e he => hin e (hold e he), fun hf => ?_⟩
  obtain ⟨e, he, hrest⟩ := hnew hf
  exact ⟨e, hin e he, hrest⟩

/-- A tile that fails on its re-run (R64). -/
theorem arrayFaults_leaves (s : State) (core : CoreId) (r : MmaRun) (v : Verdict) : ∃ t, s.arrayFaults core.val r v = t ∧
    t.bins = s.bins ∧ t.rd Reg.ARR_STAT.FAULT core.val = 1 ∧ t.rd Reg.HND_STAT.HALTED core.val = 1 ∧
      (s.rd Reg.HND_STAT.HALTED core.val ≠ 1 → t.rd Reg.HND_STAT.CAUSE core.val = 3) ∧ (t.core core.val).flight = [] ∧
      (t.core core.val).arrQ = [] ∧ (∃ d, Raised s t ((s.enclOfCore core.val).getD 16) 0x32 0 core.val d) ∧ BytesKept s t (fun _ => False) := by
  obtain ⟨a, y, heq, hstep, hy, ⟨d, hd⟩, hfault⟩ := dropped_spec s core r v
  obtain ⟨hbins, hmem, hwait⟩ := hstep.faults
  obtain ⟨hh, hcause, hf⟩ := coreFault_halts a core
  obtain ⟨hq, hfl⟩ := Prod.mk.inj (hwait.trans hy)
  have hhalt : a.rd Reg.HND_STAT.HALTED core.val = s.rd Reg.HND_STAT.HALTED core.val :=
    hstep.rd _ _ _ (not_lostOr_core rfl (by decide) (by decide))
  exact ⟨_, heq, hbins, hf.trans hfault, hh, fun hne => hcause (hhalt ▸ hne), hfl, hq, ⟨d, hd.coreFault core.val⟩, .of_mem hmem _⟩

end

end Sys2Proof.Machine

namespace Sys2Proof.Machine

/-! ### The statement -/

/-- Where a pass writes registers, as the statement lists it. -/
theorem pass_keys {core : CoreId} {k : Nat} (h : k = Reg.ARR_STAT.NONFINITE.key core.val 0 ∨ k ∈ coreKeys core passFlds) :
    k ∈ [Reg.ARR_STAT.ISAT.key core.val 0, Reg.ARR_STAT.NONFINITE.key core.val 0, Reg.ARR_STAT.COLD.key core.val 0,
      Reg.ARR_STAT.BIN0_INT.key core.val 0, Reg.ARR_STAT.BIN1_INT.key core.val 0, Reg.ARR_STAT.QDEPTH.key core.val 0,
      Reg.ARR_STAT.BUSY.key core.val 0] := by
  rcases h with rfl | h
  · simp
  · exact coreKeys_subset (fs := passFlds) (gs := [Reg.ARR_STAT.ISAT, Reg.ARR_STAT.NONFINITE, Reg.ARR_STAT.COLD, Reg.ARR_STAT.BIN0_INT,
      Reg.ARR_STAT.BIN1_INT, Reg.ARR_STAT.QDEPTH, Reg.ARR_STAT.BUSY]) (by decide) h

/-- Settles O16: a verdict passes or fails, on the first run or the re-run of the tile. -/
theorem tileVerdicts : Obligations.TileVerdicts := by
  intro core s cells sub r0 r rest re hfl hre
  have hloc := verdict_loc_lt (codeInt r.insn.fmta) (s.cellsOf core.val r cells)
  have hnot (h : (s.tileCheck core.val r cells).pass = false ∨ r.poisoned = true) :
      ¬((s.tileCheck core.val r cells).pass && !r.poisoned) = true := by
    rcases h with h | h <;> simp [h]
  cases re
  case false =>
    obtain ⟨hs, hrb, hr⟩ : s.stopped core.val = false ∧
      (s.core core.val).readBefore r0.insn.bin r0.seq (s.cycle (croftOf core.val) sub.val) = false ∧ s.tileOperands core.val r0 = some r := by
      simpa using hre
    refine ⟨fun hv hp hfeed hb _ => ?pass, fun hv _ => ?fail, fun _ h => absurd h (by decide)⟩
    case pass =>
      obtain ⟨t, he, hm⟩ := tileVerdict_merges (cells := cells) hfl hs hrb hr hv hp hfeed hb
      have hframe : { t with fields := s.fields, cores := s.cores, bins := s.bins } = s := (hm.step.frame :)
      exact ⟨t, he, hm.cells, hm.others, hm.isat, hm.nonfinite, hm.cold, hm.type, hm.step.record, fun h => absurd h (by decide), hm.step.others,
        hframe, .of_mem hm.step.mem _, hm.step.kept.mono (fun k hk => .inl (pass_keys hk))⟩
    case fail =>
      have he := (exec_tileVerdict (cells := cells) hfl hs hrb hr).trans (if_neg (hnot hv))
      exact ⟨_, he, tileFails_leaves s core sub.val r rest hloc⟩
  case true =>
    obtain ⟨hretry, hc, rfl⟩ : (s.core core.val).retry = true ∧ s.croftIssues (croftOf core.val) = true ∧ r = r0 := by simpa using hre
    refine ⟨fun hv hp hfeed hb hcatch => ?pass, fun _ h => absurd h (by decide), fun hv _ => ?fail⟩
    case pass =>
      obtain ⟨t, he, hm, hfill⟩ := tileRerunVerdict_merges (cells := cells) hfl hretry hc hv hp hfeed hb (hcatch rfl)
      have hframe : { t with fields := s.fields, cores := s.cores, bins := s.bins } = s := (hm.step.frame :)
      refine ⟨t, he, hm.cells, hm.others, hm.isat, hm.nonfinite, hm.cold, hm.type, hm.step.record, fun _ => hfill, hm.step.others,
        hframe, .of_mem hm.step.mem _, hm.step.kept.mono (fun k hk => ?_)⟩
      exact hk.imp pass_keys (fun h => ⟨rfl, h.1, h.2⟩)
    case fail =>
      obtain ⟨t, heq, ht⟩ := arrayFaults_leaves s core r (s.tileCheck core.val r cells)
      have he := (exec_tileRerunVerdict (cells := cells) hfl hretry hc).trans (if_neg (hnot hv))
      exact ⟨t, heq ▸ he, ht⟩

end Sys2Proof.Machine

namespace Sys2Proof.Machine

/-! ## Lanes of a vector register (R100) -/

/-! ### Bits of a lane, and of a word with one lane replaced -/

theorem testBit_lane (w : Nat) (x : VWord) (i j : Nat) : (lane w x i).testBit j = (decide (j < w) && x.getLsbD (w * i + j)) := by
  rw [lane, bits, Nat.testBit_mod_two_pow, Nat.testBit_div_two_pow, Nat.add_comm, BitVec.getLsbD]

theorem testBit_mask (w o b : Nat) : ((2 ^ w - 1) * 2 ^ o).testBit b = (decide (o ≤ b) && decide (b < o + w)) := by
  rw [Nat.testBit_mul_two_pow, Nat.testBit_two_pow_sub_one]
  by_cases h : o ≤ b
  · simp only [h, decide_true, Bool.true_and, decide_eq_decide]
    omega
  · simp [h]

theorem mask_lt {w o m : Nat} (h : o + w ≤ m) : (2 ^ w - 1) * 2 ^ o < 2 ^ m := calc
  (2 ^ w - 1) * 2 ^ o < 2 ^ w * 2 ^ o := Nat.mul_lt_mul_of_pos_right (Nat.sub_lt (Nat.two_pow_pos w) Nat.one_pos) (Nat.two_pow_pos o)
  _ = 2 ^ (o + w) := by rw [← Nat.pow_add, Nat.add_comm]
  _ ≤ 2 ^ m := Nat.pow_le_pow_right (by decide) h

theorem getLsbD_setLane {w i b : Nat} (x : VWord) (v : Nat) (hi : w * i + w ≤ 1024) (hb : b < 1024) :
    (setLane w x i v).getLsbD b = if w * i ≤ b ∧ b < w * i + w then v.testBit (b - w * i) else x.getLsbD b := by
  have hm := mask_lt hi
  have hsub : 2 ^ 1024 - 1 - (2 ^ w - 1) * 2 ^ (w * i) = 2 ^ 1024 - ((2 ^ w - 1) * 2 ^ (w * i) + 1) := by
    rw [Nat.sub_sub, Nat.add_comm 1]
  rw [setLane, BitVec.getLsbD_ofNat, Nat.testBit_or, Nat.testBit_and, hsub, Nat.testBit_two_pow_sub_succ hm, testBit_mask,
    Nat.testBit_mul_two_pow, Nat.testBit_mod_two_pow, BitVec.getLsbD]
  by_cases h1 : w * i ≤ b <;> by_cases h2 : b < w * i + w
  · have : b - w * i < w := by omega
    simp [h1, h2, hb, this]
  · have : ¬ b - w * i < w := by omega
    simp [h1, h2, hb, this]
  · simp [h1, hb]
  · simp [h1, hb]

/-- A lane of any width that lies apart from the bits a lane of another takes. -/
theorem lane_setLane_of_disjoint {w i u k : Nat} (x : VWord) (v : Nat) (hi : w * i + w ≤ 1024)
    (h : u * k + u ≤ w * i ∨ w * i + w ≤ u * k) : lane u (setLane w x i v) k = lane u x k := by
  refine Nat.eq_of_testBit_eq (fun j => ?_)
  rw [testBit_lane, testBit_lane]
  by_cases hj : j < u
  · by_cases hb : u * k + j < 1024
    · rw [getLsbD_setLane x v hi hb, if_neg (by omega)]
    · rw [BitVec.getLsbD_of_ge _ _ (by omega), BitVec.getLsbD_of_ge _ _ (by omega)]
  · simp [hj]

theorem lane_setLane_same {w i : Nat} (x : VWord) (v : Nat) (hi : w * i + w ≤ 1024) : lane w (setLane w x i v) i = v % 2 ^ w := by
  refine Nat.eq_of_testBit_eq (fun j => ?_)
  rw [testBit_lane, Nat.testBit_mod_two_pow]
  by_cases hj : j < w
  · rw [getLsbD_setLane x v hi (by omega), if_pos (by omega), Nat.add_sub_cancel_left]
  · simp [hj]

theorem lane_end_le {w i k : Nat} (h : i < k) : w * i + w ≤ w * k := (Nat.mul_succ w i).symm ▸ Nat.mul_le_mul_left w h

theorem lane_setLane {w i : Nat} (x : VWord) (v k : Nat) (hi : w * i + w ≤ 1024) :
    lane w (setLane w x i v) k = if k = i then v % 2 ^ w else lane w x k := by
  split
  · next h => rw [h, lane_setLane_same x v hi]
  · next h => exact lane_setLane_of_disjoint x v hi ((Nat.lt_or_gt_of_ne h).imp lane_end_le lane_end_le)

/-! ### Runs of lanes replaced -/

/-- `n` lanes from lane `first` on replaced. -/
def setLanes (w first n : Nat) (x : VWord) (f : Nat → Nat) : VWord := (List.range n).foldl (fun a i => setLane w a (first + i) (f i)) x

theorem setLanes_succ (w first n : Nat) (x : VWord) (f : Nat → Nat) :
    setLanes w first (n + 1) x f = setLane w (setLanes w first n x f) (first + n) (f n) := by
  rw [setLanes, List.range_succ, List.foldl_append]
  rfl
theorem mapLanes_eq_setLanes (w n : Nat) (x : VWord) (f : Nat → Nat) : mapLanes w n x f = setLanes w 0 n x f := by
  simp only [mapLanes, setLanes, Nat.zero_add]

theorem lane_setLanes {w first n : Nat} (x : VWord) (f : Nat → Nat) (k : Nat) (h : w * (first + n) ≤ 1024) :
    lane w (setLanes w first n x f) k = if first ≤ k ∧ k < first + n then f (k - first) % 2 ^ w else lane w x k := by
  induction n with
  | zero => rw [if_neg (by omega)]; rfl
  | succ n ih =>
    have hin : w * (first + n) + w ≤ 1024 := h
    rw [setLanes_succ, lane_setLane _ _ _ hin, ih (Nat.le_trans (Nat.le_add_right _ w) hin)]
    split
    · next hk => rw [if_pos (by omega), hk, Nat.add_sub_cancel_left]
    · next hk => simp only [show (first ≤ k ∧ k < first + (n + 1)) ↔ (first ≤ k ∧ k < first + n) by omega]

theorem getLsbD_setLanes {w first n b : Nat} (x : VWord) (f : Nat → Nat) (h : w * (first + n) ≤ 1024) (hb : b < 1024)
    (ho : b < w * first ∨ w * (first + n) ≤ b) : (setLanes w first n x f).getLsbD b = x.getLsbD b := by
  induction n with
  | zero => rfl
  | succ n ih =>
    have hin : w * (first + n) + w ≤ 1024 := h
    have hle : w * first ≤ w * (first + n) := Nat.mul_le_mul_left w (Nat.le_add_right ..)
    have ho' : b < w * first ∨ w * (first + n) + w ≤ b := ho
    rw [setLanes_succ, getLsbD_setLane _ _ hin hb, if_neg (by omega), ih (by omega) (by omega)]

end Sys2Proof.Machine

namespace Sys2Proof.Machine

/-! ## What a vector instruction leaves (R100, R117) -/

theorem StickyIf.congr {s t : State} {core : CoreId} {f : Fld} {b c : Prop} (h : StickyIf s t core f b) (hbc : c ↔ b) : StickyIf s t core f c :=
  ⟨fun hc => h.1 (hbc.mp hc), fun hc => h.2 (fun hb => hc (hbc.mpr hb))⟩

/-- Nothing but one vector register and fields of the core has changed. -/
structure VecStep (s t : State) (core : CoreId) (vd : BitVec 5) (fs : List Fld) : Prop where
  frame : { t with fields := s.fields, vregs := s.vregs } = s
  kept : Kept s t (fun k => k ∈ coreKeys core fs)
  others : ∀ k, k ≠ core.val * 32 + vd.toNat → Store.get t.vregs k = Store.get s.vregs k

theorem VecStep.refl (s : State) (core : CoreId) (vd : BitVec 5) (fs : List Fld) : VecStep s s core vd fs := ⟨rfl, .refl _ _, fun _ _ => rfl⟩
theorem VecStep.setV (s : State) (core : CoreId) (vd : BitVec 5) (fs : List Fld) (x : VWord) :
    VecStep s (s.setV core.val vd.toNat x) core vd fs :=
  ⟨rfl, .of_fields rfl _, fun _ hk => Store.get_put_other _ _ _ hk⟩
theorem VecStep.wr {s t : State} {core : CoreId} {vd : BitVec 5} {fs : List Fld} (h : VecStep s t core vd fs) {f : Fld} (v : Nat) (hf : f ∈ fs) :
    VecStep s (t.wr f v core.val) core vd fs :=
  ⟨h.frame, h.kept.wr_then _ _ _ _ (mem_coreKeys hf), h.others⟩
theorem VecStep.vstat {s t : State} {core : CoreId} {vd : BitVec 5} {fs : List Fld} (h : VecStep s t core vd fs) {isat fsat : Bool}
    (hi : isat = true → Reg.VSTAT.ISAT ∈ fs) (hf : fsat = true → Reg.VSTAT.FSAT ∈ fs) :
    VecStep s (t.vstat core.val isat fsat false) core vd fs := by
  cases isat <;> cases fsat
  · exact h
  · exact h.wr 1 (hf rfl)
  · exact h.wr 1 (hi rfl)
  · exact (h.wr 1 (hi rfl)).wr 1 (hf rfl)
theorem VecStep.bumpSrseq {s t : State} {core : CoreId} {vd : BitVec 5} {fs : List Fld} (h : VecStep s t core vd fs) {on : Bool}
    (hq : on = true → Reg.VEC_SRSEQ.SEQ ∈ fs) : VecStep s (t.bumpSrseq core.val on) core vd fs := by
  cases on
  · exact h
  · exact h.wr _ (hq rfl)

/-! ### Sticky flags and the sequence number -/

theorem rd_vstat_apart (s : State) (core : CoreId) (isat fsat : Bool) {f : Fld} (hi : f.apart Reg.VSTAT.ISAT) (hf : f.apart Reg.VSTAT.FSAT) :
    (s.vstat core.val isat fsat false).rd f core.val = s.rd f core.val := by
  cases isat <;> cases fsat
  · rfl
  · exact rd_wr_apart s core 1 hf
  · exact rd_wr_apart s core 1 hi
  · exact (rd_wr_apart _ core 1 hf).trans (rd_wr_apart s core 1 hi)
theorem rd_bumpSrseq_apart (s : State) (core : CoreId) (on : Bool) {f : Fld} (h : f.apart Reg.VEC_SRSEQ.SEQ) :
    (s.bumpSrseq core.val on).rd f core.val = s.rd f core.val := by
  cases on
  · rfl
  · exact rd_wr_apart s core _ h

theorem vregs_vstat (s : State) (core : Nat) (isat fsat : Bool) : (s.vstat core isat fsat false).vregs = s.vregs := by
  cases isat <;> cases fsat <;> rfl
theorem vregs_bumpSrseq (s : State) (core : Nat) (on : Bool) : (s.bumpSrseq core on).vregs = s.vregs := by
  cases on <;> rfl

theorem vstat_isat (s : State) (core : CoreId) (isat fsat : Bool) :
    StickyIf s (s.vstat core.val isat fsat false) core Reg.VSTAT.ISAT (isat = true) := by
  have hf (t : State) : ((if fsat then t.wr Reg.VSTAT.FSAT 1 core.val else t).rd Reg.VSTAT.ISAT core.val) = t.rd Reg.VSTAT.ISAT core.val := by
    cases fsat
    · rfl
    · exact rd_wr_apart t core 1 (by decide)
  cases isat
  · exact ⟨fun h => absurd h (by decide), fun _ => hf s⟩
  · exact ⟨fun _ => (hf _).trans (State.rd_wr_same ..), fun h => absurd rfl h⟩
theorem vstat_fsat (s : State) (core : CoreId) (isat fsat : Bool) :
    StickyIf s (s.vstat core.val isat fsat false) core Reg.VSTAT.FSAT (fsat = true) := by
  cases fsat
  · refine ⟨fun h => absurd h (by decide), fun _ => ?_⟩
    cases isat
    · rfl
    · exact rd_wr_apart s core 1 (by decide)
  · exact ⟨fun _ => State.rd_wr_same .., fun h => absurd rfl h⟩
theorem rd_bumpSrseq (s : State) (core : CoreId) (on : Bool) : (s.bumpSrseq core.val on).rd Reg.VEC_SRSEQ.SEQ core.val =
    if on then (s.rd Reg.VEC_SRSEQ.SEQ core.val + 1) % 2 ^ 23 else s.rd Reg.VEC_SRSEQ.SEQ core.val := by
  cases on
  · rfl
  · exact State.rd_wr_same ..

/-! ### The effect and the next word -/

/-- The effect of an instruction on `n` lanes: the result in vd, the flags, the sequence number. With no lane there is none. -/
def State.vecEffect (s : State) (n core vd : Nat) (x : VWord) (isat fsat stoch : Bool) : State :=
  if n = 0 then s else ((s.setV core vd x).vstat core isat fsat false).bumpSrseq core stoch

/-- The result `x` in vd, the flags of the lanes, the sequence number counted where `bump` says so, the hand at the next word. -/
structure VecLeaves (s t : State) (core : CoreId) (vd : BitVec 5) (x : VWord) (isat fsat bump : Bool) (fs : List Fld) : Prop where
  reg : t.v core.val vd.toNat = x
  isat : StickyIf s t core Reg.VSTAT.ISAT (isat = true)
  fsat : StickyIf s t core Reg.VSTAT.FSAT (fsat = true)
  seq : t.rd Reg.VEC_SRSEQ.SEQ core.val = if bump then (s.rd Reg.VEC_SRSEQ.SEQ core.val + 1) % 2 ^ 23 else s.rd Reg.VEC_SRSEQ.SEQ core.val
  next : NextWord s t core
  only : OnlyVector s t core vd (coreKeys core fs)

section
variable {s u : State} {core : CoreId} {vd : BitVec 5} {fs : List Fld} {x : VWord} {isat fsat stoch : Bool} {n : Nat}

theorem VecStep.advance (h : VecStep s u core vd fs) (hpc : s.rd Reg.HND_STAT.PC core.val < 2047) (hfs : ∀ f ∈ fs, Reg.HND_STAT.PC.apart f) :
    NextWord s (u.advance core.val) core ∧ OnlyVector s (u.advance core.val) core vd (coreKeys core fs) ∧
      (u.advance core.val).vregs = u.vregs ∧
      ∀ f : Fld, f.apart Reg.HND_STAT.PC → (u.advance core.val).rd f core.val = u.rd f core.val := by
  have hu : u.rd Reg.HND_STAT.PC core.val = s.rd Reg.HND_STAT.PC core.val := h.kept.rd _ _ _ (notin_coreKeys hfs)
  have hpc' : u.rd Reg.HND_STAT.PC core.val < 2047 := hu ▸ hpc
  have hnext := advance_pc u core hpc'
  rw [advance_next u core hpc'] at hnext ⊢
  refine ⟨?_, ⟨h.frame, ?_, h.others, ?_⟩, rfl, fun f hf => rd_wr_apart u core _ hf⟩
  · unfold NextWord at hnext ⊢
    rw [hnext, hu]
  · exact (h.kept.mono (fun k hk => List.mem_cons_of_mem _ hk)).wr_then _ _ _ _ List.mem_cons_self
  · exact .of_mem (congrArg State.mem h.frame :) _

theorem vecStep_leaves (hpc : s.rd Reg.HND_STAT.PC core.val < 2047) (hfs : ∀ f ∈ fs, Reg.HND_STAT.PC.apart f)
    (hi : isat = true → Reg.VSTAT.ISAT ∈ fs) (hf : fsat = true → Reg.VSTAT.FSAT ∈ fs) (hq : stoch = true → Reg.VEC_SRSEQ.SEQ ∈ fs) :
    VecLeaves s ((((s.setV core.val vd.toNat x).vstat core.val isat fsat false).bumpSrseq core.val stoch).advance core.val) core vd x isat fsat
      stoch fs := by
  obtain ⟨hnext, honly, hregs, hrd⟩ := (((VecStep.setV s core vd fs x).vstat hi hf).bumpSrseq hq).advance hpc hfs
  refine ⟨?_, ?_, ?_, ?_, hnext, honly⟩
  · rw [State.v, hregs, vregs_bumpSrseq, vregs_vstat]
    exact Store.getD_put_same _ _ _ _
  · exact (vstat_isat (s.setV core.val vd.toNat x) core isat fsat).of_rd rfl ((hrd _ (by decide)).trans (rd_bumpSrseq_apart _ core stoch (by decide)))
  · exact (vstat_fsat (s.setV core.val vd.toNat x) core isat fsat).of_rd rfl ((hrd _ (by decide)).trans (rd_bumpSrseq_apart _ core stoch (by decide)))
  · rw [hrd _ (by decide), rd_bumpSrseq, rd_vstat_apart _ core isat fsat (by decide) (by decide)]
    rfl

/-- R100: with n = 0 an instruction does nothing but issue. -/
theorem idle_leaves (hpc : s.rd Reg.HND_STAT.PC core.val < 2047) (hfs : ∀ f ∈ fs, Reg.HND_STAT.PC.apart f) :
    VecLeaves s (s.advance core.val) core vd (s.v core.val vd.toNat) false false false fs := by
  obtain ⟨hnext, honly, hregs, hrd⟩ := (VecStep.refl s core vd fs).advance hpc hfs
  exact ⟨congrArg (Store.getD · _ _) hregs, ⟨fun h => absurd h (by decide), fun _ => hrd _ (by decide)⟩,
    ⟨fun h => absurd h (by decide), fun _ => hrd _ (by decide)⟩, hrd _ (by decide), hnext, honly⟩

theorem vecEffect_leaves (hr : Ready s core) (h0 : n = 0 → x = s.v core.val vd.toNat ∧ isat = false ∧ fsat = false)
    (hfs : ∀ f ∈ fs, Reg.HND_STAT.PC.apart f) (hi : isat = true → Reg.VSTAT.ISAT ∈ fs) (hf : fsat = true → Reg.VSTAT.FSAT ∈ fs)
    (hq : stoch = true → Reg.VEC_SRSEQ.SEQ ∈ fs) :
    VecLeaves s ((s.vecEffect n core.val vd.toNat x isat fsat stoch).advance core.val) core vd x isat fsat (stoch && decide (0 < n)) fs := by
  unfold State.vecEffect
  rcases Nat.eq_zero_or_pos n with h | h
  · obtain ⟨hx, hisat, hfsat⟩ := h0 h
    rw [if_pos h, hx, hisat, hfsat, h, show (stoch && decide (0 < 0)) = false by simp]
    exact idle_leaves hr.2 hfs
  · rw [if_neg (by omega), show (stoch && decide (0 < n)) = stoch by simp [h]]
    exact vecStep_leaves hr.2 hfs hi hf hq

/-- The lanes of vd, when the result replaces `n` of them from `first` on. -/
theorem VecLeaves.lanesAre {t : State} {w first : Nat} {f : Nat → Nat} (hw : w * (first + n) ≤ 1024)
    (h : VecLeaves s t core vd (setLanes w first n (s.v core.val vd.toNat) (fun i => f (first + i))) isat fsat stoch fs) :
    LanesAre s t core vd w (fun k => first ≤ k ∧ k < first + n) f := by
  intro k _
  rw [h.reg, lane_setLanes _ _ _ hw]
  exact ⟨fun hk => by rw [if_pos hk, Nat.add_sub_cancel' hk.1], fun hk => if_neg hk⟩

theorem VecLeaves.seq_bumped {t : State} (h : VecLeaves s t core vd x isat fsat (stoch && decide (0 < n)) fs) :
    (stoch = true → 0 < n → t.rd Reg.VEC_SRSEQ.SEQ core.val = (s.rd Reg.VEC_SRSEQ.SEQ core.val + 1) % 2 ^ 23) ∧
      (stoch = false ∨ n = 0 → t.rd Reg.VEC_SRSEQ.SEQ core.val = s.rd Reg.VEC_SRSEQ.SEQ core.val) := by
  refine ⟨fun hs hn => ?_, fun hs => ?_⟩
  · rw [h.seq, hs, decide_eq_true hn]
    rfl
  · rw [h.seq, if_neg]
    rcases hs with hs | hs <;> simp [hs]

end

end Sys2Proof.Machine

namespace Sys2Proof.Machine

/-! ## VCVT (R106) -/

/-- The lane that the first active element of a conversion goes to, and the one it comes from. -/
def cvtTo (src dst : CvtFmt) (part : Nat) : Nat := if dst.width < src.width then part * (1024 / src.width) else 0
def cvtFrom (src dst : CvtFmt) (part : Nat) : Nat := if src.width < dst.width then part * (1024 / dst.width) else 0
/-- How an instruction rounds what goes to a lane: to nearest even, or with the random bits of R81. -/
def State.vecRnd (s : State) (core : Nat) (stoch : Bool) (k : Nat) : Rnd := if stoch then .sr (s.vecSr core k) else .rne
/-- What VCVT puts into lane `k` of vd. -/
def State.cvtLane (s : State) (core : Nat) (w : VecWord) (src dst : CvtFmt) (stoch : Bool) (k : Nat) : LaneOut :=
  let part := w.imm.toNat / 256 % 4
  cvtElem src dst (s.vecRnd core stoch k) (decide (w.imm.toNat / 2048 % 2 = 1))
    (lane src.width (s.v core w.vs1.toNat) (k - cvtTo src dst part + cvtFrom src dst part))

theorem bits_low_four (x : Nat) : bits x 0 4 = x % 16 := by simp [bits]

section
variable {s : State} {core : CoreId} {w : VecWord} {src dst : CvtFmt} {part n : Nat} {stoch : Bool}

theorem convertLanes_eq (s : State) (core : Nat) (w : VecWord) (src dst : CvtFmt) :
    let stoch := decide (w.imm.toNat / 1024 % 2 = 1)
    let n := s.vn core (max src.width dst.width)
    let out (i : Nat) := s.cvtLane core w src dst stoch (cvtTo src dst (w.imm.toNat / 256 % 4) + i)
    s.convertLanes core w src dst = s.vecEffect n core w.vd.toNat
      (setLanes dst.width (cvtTo src dst (w.imm.toNat / 256 % 4)) n (s.v core w.vd.toNat) (fun i => (out i).val))
      ((List.range n).any (fun i => (out i).isat)) ((List.range n).any (fun i => (out i).fsat)) stoch := by
  intro stoch n out
  have hto (i : Nat) : (if dst.width < src.width then bits w.imm.toNat 8 2 * vlmax src.width + i else i) =
      cvtTo src dst (w.imm.toNat / 256 % 4) + i := by
    unfold cvtTo
    split
    · rfl
    · exact (Nat.zero_add i).symm
  have hfrom (i : Nat) : (if src.width < dst.width then bits w.imm.toNat 8 2 * vlmax dst.width + i else i) =
      cvtTo src dst (w.imm.toNat / 256 % 4) + i - cvtTo src dst (w.imm.toNat / 256 % 4) + cvtFrom src dst (w.imm.toNat / 256 % 4) := by
    rw [Nat.add_sub_cancel_left]
    unfold cvtFrom
    split
    · exact Nat.add_comm ..
    · rfl
  unfold State.convertLanes
  simp only [hto, hfrom, List.any_map]
  rfl

/-- The lanes that a conversion writes lie in the register. -/
theorem cvtTo_fits (hp : part < max src.width dst.width / min src.width dst.width) (hn : n ≤ 1024 / max src.width dst.width) :
    dst.width * (cvtTo src dst part + n) ≤ 1024 := by
  unfold cvtTo
  split
  · next h =>
    rw [max_eq_left h.le, min_eq_right h.le] at hp
    rw [max_eq_left h.le] at hn
    calc dst.width * (part * (1024 / src.width) + n)
        ≤ dst.width * (part * (1024 / src.width) + 1024 / src.width) := Nat.mul_le_mul_left _ (Nat.add_le_add_left hn _)
      _ = dst.width * (part + 1) * (1024 / src.width) := by ring
      _ ≤ src.width * (1024 / src.width) := Nat.mul_le_mul_right _ ((Nat.mul_le_mul_left _ hp).trans (Nat.mul_div_le ..))
      _ ≤ 1024 := Nat.mul_div_le ..
  · next h =>
    rw [max_eq_right (not_lt.mp h)] at hn
    rw [Nat.zero_add]
    exact (Nat.mul_le_mul_left _ hn).trans (Nat.mul_div_le ..)

theorem exec_vcvt (hr : Ready s core) (hty : w.ty = 0) (hrsv : w.rsv = 0) (h2 : w.vs2 = 0) (h3 : w.vs3 = 0) (hbc : w.bc = 0)
    (hsrc : cvtFmt (w.imm.toNat / 16 % 16) = some src) (hdst : cvtFmt (w.imm.toNat % 16) = some dst)
    (hp : w.imm.toNat / 256 % 4 < max src.width dst.width / min src.width dst.width) :
    exec (.vcvt core w) s = .next ((s.convertLanes core.val w src dst).advance core.val) := by
  have hs : cvtFmt (bits w.imm.toNat 4 4) = some src := hsrc
  have hd : cvtFmt (bits w.imm.toNat 0 4) = some dst := (congrArg cvtFmt (bits_low_four ..)).trans hdst
  have hok : (vecOk w [0] false false false &&
      decide (bits w.imm.toNat 8 2 < max src.width dst.width / min src.width dst.width)) = true := by
    rw [decide_eq_true (show bits w.imm.toNat 8 2 < _ from hp)]
    simp [vecOk, hty, hrsv, h2, h3, hbc]
  simp only [exec, execVcvt, hs, hd, State.issueNext, hok, issue_of_ok hr.1]

theorem any_range_iff (n : Nat) (p : Nat → Bool) : (List.range n).any p = true ↔ ∃ i < n, p i = true := by
  simp [List.any_eq_true]

theorem exists_run_iff (first n : Nat) (p : Nat → Prop) : (∃ k, first ≤ k ∧ k < first + n ∧ p k) ↔ ∃ i < n, p (first + i) :=
  ⟨fun ⟨k, h1, h2, hk⟩ => ⟨k - first, by omega, by rwa [Nat.add_sub_cancel' h1]⟩,
    fun ⟨i, hi, h⟩ => ⟨first + i, Nat.le_add_right .., by omega, h⟩⟩

theorem vcvt_spec (hr : Ready s core) (hty : w.ty = 0) (hrsv : w.rsv = 0) (h2 : w.vs2 = 0) (h3 : w.vs3 = 0) (hbc : w.bc = 0)
    (hsrc : cvtFmt (w.imm.toNat / 16 % 16) = some src) (hdst : cvtFmt (w.imm.toNat % 16) = some dst) (hpart : part = w.imm.toNat / 256 % 4)
    (hp : part < max src.width dst.width / min src.width dst.width) (hstoch : stoch = decide (w.imm.toNat / 1024 % 2 = 1))
    (hn : n = activeLanes s core (max src.width dst.width)) :
    let first := cvtTo src dst part
    let out := s.cvtLane core.val w src dst stoch
    ∃ t, exec (.vcvt core w) s = .next t ∧
      LanesAre s t core w.vd dst.width (fun k => first ≤ k ∧ k < first + n) (fun k => (out k).val) ∧
      StickyIf s t core Reg.VSTAT.ISAT (∃ k, first ≤ k ∧ k < first + n ∧ (out k).isat = true) ∧
      StickyIf s t core Reg.VSTAT.FSAT (∃ k, first ≤ k ∧ k < first + n ∧ (out k).fsat = true) ∧
      (stoch = true → 0 < n → t.rd Reg.VEC_SRSEQ.SEQ core.val = (s.rd Reg.VEC_SRSEQ.SEQ core.val + 1) % 2 ^ 23) ∧
      (stoch = false ∨ n = 0 → t.rd Reg.VEC_SRSEQ.SEQ core.val = s.rd Reg.VEC_SRSEQ.SEQ core.val) ∧ NextWord s t core ∧
      OnlyVector s t core w.vd
        [Reg.VSTAT.ISAT.key core.val 0, Reg.VSTAT.FSAT.key core.val 0, Reg.VEC_SRSEQ.SEQ.key core.val 0] := by
  intro first out
  subst hpart hstoch
  have hfits := cvtTo_fits hp (n := n) (hn ▸ Nat.min_le_right ..)
  have hvn : s.vn core.val (max src.width dst.width) = n := hn.symm
  have hleaves := vecEffect_leaves (fs := [Reg.VSTAT.ISAT, Reg.VSTAT.FSAT, Reg.VEC_SRSEQ.SEQ]) (n := n) (vd := w.vd)
    (x := setLanes dst.width first n (s.v core.val w.vd.toNat) (fun i => (out (first + i)).val))
    (isat := (List.range n).any (fun i => (out (first + i)).isat)) (fsat := (List.range n).any (fun i => (out (first + i)).fsat))
    (stoch := decide (w.imm.toNat / 1024 % 2 = 1)) hr (by rintro rfl; exact ⟨rfl, rfl, rfl⟩) (by decide) (by simp) (by simp) (by simp)
  refine ⟨_, exec_vcvt hr hty hrsv h2 h3 hbc hsrc hdst hp, ?_⟩
  rw [convertLanes_eq, hvn]
  obtain ⟨hbump, hstay⟩ := hleaves.seq_bumped
  exact ⟨hleaves.lanesAre (f := fun k => (out k).val) hfits, hleaves.isat.congr ((exists_run_iff ..).trans (any_range_iff ..).symm),
    hleaves.fsat.congr ((exists_run_iff ..).trans (any_range_iff ..).symm), hbump, hstay, hleaves.next, hleaves.only⟩

end

end Sys2Proof.Machine

namespace Sys2Proof.Machine

/-! ## VMXE (R107, R85) -/

theorem LanesAre.congr {s t : State} {core : CoreId} {vd : BitVec 5} {w : Nat} {P Q : Nat → Prop} {f : Nat → Nat}
    (h : LanesAre s t core vd w P f) (hpq : ∀ k, Q k ↔ P k) : LanesAre s t core vd w Q f :=
  fun k hk => ⟨fun q => (h k hk).1 ((hpq k).mp q), fun q => (h k hk).2 (fun p => q ((hpq k).mpr p))⟩

theorem mxCodeOk_iff (c : Nat) : mxCodeOk c = true ↔ c = 5 ∨ c = 6 ∨ c = 9 := by simp [mxCodeOk, or_assoc]
theorem codeWidth_le {c : Nat} (h : c = 5 ∨ c = 6 ∨ c = 9) : codeWidth c ≤ 8 := by rcases h with rfl | rfl | rfl <;> decide

/-- Whether the expansion of an element saturates: its scaled value does not fit BF16. -/
def mxSat (f : Fmt) (scale elem : Nat) : Bool :=
  match f.decode elem with
  | .fin a m e => decide (scale ≠ 0xFF) && (bf16.convert .rne true (.fin a m (e + ((scale : Int) - 127)))).sat
  | _ => false

theorem mxSat_iff (f : Fmt) (scale elem : Nat) : mxSat f scale elem = true ↔ ∃ a m e, scale ≠ 0xFF ∧ f.decode elem = .fin a m e ∧
    (bf16.convert .rne true (.fin a m (e + ((scale : Int) - 127)))).sat = true := by
  unfold mxSat
  cases f.decode elem with
  | nan => simp
  | inf neg => simp
  | fin neg m e => simp

section
variable {s : State} {core : CoreId} {w : VecWord} {code n : Nat}

theorem expandMx_eq (s : State) (core : Nat) (w : VecWord) :
    let code := w.imm.toNat % 16
    let n := s.vn core 16
    let scale (k : Nat) := lane 8 (s.v core w.vs1.toNat) (64 + k / 32)
    let elem (k : Nat) := lane (codeWidth code) (s.v core w.vs1.toNat) k
    s.expandMx core w = s.vecEffect n core w.vd.toNat
      (setLanes 16 0 n (s.v core w.vd.toNat) (fun i => mxExpand (codeFmt code) (scale (0 + i)) (elem (0 + i))))
      false ((List.range n).any (fun i => mxSat (codeFmt code) (scale i) (elem i))) false := by
  intro code n scale elem
  have hcode : bits w.imm.toNat 0 4 = code := bits_low_four ..
  unfold State.expandMx
  simp only [hcode, mapLanes_eq_setLanes, Nat.zero_add]
  rfl

theorem exec_vmxe (hr : Ready s core) (hty : w.ty = 6) (hrsv : w.rsv = 0) (h2 : w.vs2 = 0) (h3 : w.vs3 = 0) (hbc : w.bc = 0)
    (hc : w.imm.toNat % 16 = 5 ∨ w.imm.toNat % 16 = 6 ∨ w.imm.toNat % 16 = 9) (him : w.imm.toNat / 16 = 0) :
    exec (.vmxe core w) s = .next ((s.expandMx core.val w).advance core.val) := by
  have hok : (vecOk w [6] false false false && mxCodeOk (bits w.imm.toNat 0 4) && decide (bits w.imm.toNat 4 8 = 0)) = true := by
    rw [bits_low_four, (mxCodeOk_iff _).mpr hc, show bits w.imm.toNat 4 8 = 0 by simp [bits, him]]
    simp [vecOk, hty, hrsv, h2, h3, hbc]
  simp only [exec, execVmxe, State.issueNext, hok, issue_of_ok hr.1]

theorem vmxe_spec (hr : Ready s core) (hty : w.ty = 6) (hrsv : w.rsv = 0) (h2 : w.vs2 = 0) (h3 : w.vs3 = 0) (hbc : w.bc = 0)
    (hcode : code = w.imm.toNat % 16) (hc : code = 5 ∨ code = 6 ∨ code = 9) (him : w.imm.toNat / 16 = 0) (hn : n = activeLanes s core 16) :
    let x := s.v core.val w.vs1.toNat
    let scale := fun k => lane 8 x (64 + k / 32)
    let elem := fun k => lane (codeWidth code) x k
    ∃ t, exec (.vmxe core w) s = .next t ∧
      LanesAre s t core w.vd 16 (fun k => k < n) (fun k => mxExpand (codeFmt code) (scale k) (elem k)) ∧
      StickyIf s t core Reg.VSTAT.FSAT (∃ k < n, mxSat (codeFmt code) (scale k) (elem k) = true) ∧ NextWord s t core ∧
      OnlyVector s t core w.vd [Reg.VSTAT.FSAT.key core.val 0] := by
  intro x scale elem
  subst hcode
  have hvn : s.vn core.val 16 = n := hn.symm
  have hfits : 16 * (0 + n) ≤ 1024 := by
    have : n ≤ 1024 / 16 := hn ▸ Nat.min_le_right ..
    omega
  have hleaves := vecEffect_leaves (fs := [Reg.VSTAT.FSAT]) (n := n) (vd := w.vd) (isat := false)
    (x := setLanes 16 0 n (s.v core.val w.vd.toNat) (fun i => mxExpand (codeFmt (w.imm.toNat % 16)) (scale (0 + i)) (elem (0 + i))))
    (fsat := (List.range n).any (fun i => mxSat (codeFmt (w.imm.toNat % 16)) (scale i) (elem i)))
    (stoch := false) hr (by rintro rfl; exact ⟨rfl, rfl, rfl⟩) (by decide) (by simp) (by simp) (by simp)
  refine ⟨_, exec_vmxe hr hty hrsv h2 h3 hbc hc him, ?_⟩
  rw [expandMx_eq, hvn]
  exact ⟨(hleaves.lanesAre (f := fun k => mxExpand (codeFmt (w.imm.toNat % 16)) (scale k) (elem k)) hfits).congr (fun k => by omega),
    hleaves.fsat.congr (any_range_iff ..).symm, hleaves.next, hleaves.only⟩

end

/-! ## VMXQ (R107, R75) -/

/-! ### A group in a register: its elements and its scale byte -/

theorem foldl_range_guard {α : Type} (m n : Nat) (f : α → Nat → α) (a : α) :
    (List.range m).foldl (fun b j => if j < n then f b j else b) a = (List.range (min m n)).foldl f a := by
  induction m with
  | zero => simp
  | succ m ih =>
    rw [List.range_succ, List.foldl_append, ih]
    rcases Nat.lt_or_ge m n with h | h
    · rw [Nat.min_eq_left (by omega), Nat.min_eq_left (by omega), List.range_succ, List.foldl_append]
      simp [h]
    · rw [Nat.min_eq_right h, Nat.min_eq_right (by omega)]
      simp [Nat.not_lt.mpr h]

/-- The elements of group `g` that are below `n`. -/
theorem foldl_setLane_below (ew n g : Nat) (a : VWord) (f : Nat → Nat) :
    (List.range 32).foldl (fun b j => if 32 * g + j < n then setLane ew b (32 * g + j) (f j) else b) a =
      setLanes ew (32 * g) (min 32 (n - 32 * g)) a f := by
  simp only [show ∀ j, 32 * g + j < n ↔ j < n - 32 * g by omega]
  exact foldl_range_guard 32 (n - 32 * g) _ a

/-- A register with group `g` put in: its elements below `n`, and its scale in 8-bit lane 64 + g. -/
def mxPut (ew n : Nat) (q : Nat → MxGroup) (a : VWord) (g : Nat) : VWord :=
  setLane 8 (setLanes ew (32 * g) (min 32 (n - 32 * g)) a (fun j => ((q g).elems[j]?.getD 0))) (64 + g) (q g).scale

section
variable {ew n g : Nat} {q : Nat → MxGroup} (a : VWord)

theorem group_ends (hg : 32 * g < n) : 32 * g + min 32 (n - 32 * g) ≤ n := by omega

/-- The elements of at most 64 lanes lie in the lower half of the register. -/
theorem elems_below (hew : ew ≤ 8) (hn : n ≤ 64) {k : Nat} (hk : k ≤ n) : ew * k ≤ 512 := Nat.mul_le_mul hew (Nat.le_trans hk hn)

theorem lane_mxPut (hew : ew ≤ 8) (hn : n ≤ 64) (hg : 32 * g < n) {k : Nat} (hk : k < n) :
    lane ew (mxPut ew n q a g) k = if k / 32 = g then ((q g).elems[k % 32]?.getD 0) % 2 ^ ew else lane ew a k := by
  have hend := elems_below hew hn (group_ends hg)
  have hlane : ew * k + ew ≤ 512 := elems_below hew hn (k := k + 1) hk
  rw [mxPut, lane_setLane_of_disjoint _ _ (by omega) (by omega), lane_setLanes _ _ _ (by omega)]
  by_cases h : k / 32 = g
  · rw [if_pos (by omega), if_pos h, show k - 32 * g = k % 32 by omega]
  · rw [if_neg (by omega), if_neg h]

theorem scale_mxPut (hew : ew ≤ 8) (hn : n ≤ 64) (hg : 32 * g < n) (h : Nat) :
    lane 8 (mxPut ew n q a g) (64 + h) = if h = g then (q g).scale % 256 else lane 8 a (64 + h) := by
  have hend := elems_below hew hn (group_ends hg)
  rw [mxPut, lane_setLane _ _ _ (by omega)]
  simp only [Nat.add_left_cancel_iff]
  split
  · rfl
  · refine Nat.eq_of_testBit_eq (fun j => ?_)
    rw [testBit_lane, testBit_lane]
    by_cases hb : 8 * (64 + h) + j < 1024
    · rw [getLsbD_setLanes _ _ (by omega) hb (.inr (by omega))]
    · rw [BitVec.getLsbD_of_ge _ _ (by omega), BitVec.getLsbD_of_ge _ _ (by omega)]

theorem getLsbD_mxPut (hew : ew ≤ 8) (hn : n ≤ 64) (hg : 32 * g < n) {b : Nat} (hb : b < 1024) (ho : ew * n ≤ b) (hs : b / 8 ≠ 64 + g) :
    (mxPut ew n q a g).getLsbD b = a.getLsbD b := by
  have hend := elems_below hew hn (group_ends hg)
  have hle : ew * (32 * g + min 32 (n - 32 * g)) ≤ ew * n := Nat.mul_le_mul_left ew (group_ends hg)
  rw [mxPut, getLsbD_setLane _ _ (by omega) hb, if_neg (by omega), getLsbD_setLanes _ _ (by omega) hb (.inr (by omega))]

/-- The groups put in one after the other. -/
theorem foldl_mxPut (hew : ew ≤ 8) (hn : n ≤ 64) (l : List Nat) (hl : ∀ g ∈ l, 32 * g < n) (a : VWord) :
    (∀ k < n, lane ew (l.foldl (mxPut ew n q) a) k =
      if k / 32 ∈ l then ((q (k / 32)).elems[k % 32]?.getD 0) % 2 ^ ew else lane ew a k) ∧
    (∀ h, lane 8 (l.foldl (mxPut ew n q) a) (64 + h) = if h ∈ l then (q h).scale % 256 else lane 8 a (64 + h)) ∧
    (∀ b < 1024, ew * n ≤ b → (∀ g ∈ l, b / 8 ≠ 64 + g) → (l.foldl (mxPut ew n q) a).getLsbD b = a.getLsbD b) := by
  induction l generalizing a with
  | nil => exact ⟨fun _ _ => rfl, fun _ => rfl, fun _ _ _ _ => rfl⟩
  | cons g l ih =>
    have hg := hl g List.mem_cons_self
    obtain ⟨helems, hscales, hrest⟩ := ih (fun h hh => hl h (List.mem_cons_of_mem _ hh)) (mxPut ew n q a g)
    refine ⟨fun k hk => ?_, fun h => ?_, fun b hb ho hs => ?_⟩
    · rw [List.foldl_cons, helems k hk, lane_mxPut a hew hn hg hk]
      by_cases h1 : k / 32 ∈ l
      · simp [h1]
      · by_cases h2 : k / 32 = g <;> simp [h1, h2]
    · rw [List.foldl_cons, hscales h, scale_mxPut a hew hn hg]
      by_cases h1 : h ∈ l
      · simp [h1]
      · by_cases h2 : h = g <;> simp [h1, h2]
    · rw [List.foldl_cons, hrest b hb ho (fun h hh => hs h (List.mem_cons_of_mem _ hh)), getLsbD_mxPut a hew hn hg hb ho (hs g List.mem_cons_self)]

end

/-! ### The instruction -/

/-- Group `g` of vs1 quantised, lanes at or above n counting as +0. -/
def State.mxQuant (s : State) (core : Nat) (w : VecWord) (g : Nat) : MxGroup :=
  let wd := typeWidth w.ty.toNat
  mxGroup (codeFmt (w.imm.toNat % 16)) (fun j => s.vecRnd core (decide (w.imm.toNat / 64 % 2 = 1)) (32 * g + j))
    ((List.range 32).map (fun j => if 32 * g + j < s.vn core wd then (tyFmt w.ty.toNat).decode (lane wd (s.v core w.vs1.toNat) (32 * g + j))
      else .fin false 0 0))
/-- The groups that have a lane below n. -/
def mxGroups (ty : BitVec 3) (n : Nat) : List Nat := (List.range (if ty.toNat = 6 then 2 else 1)).filter (fun g => decide (32 * g < n))

theorem mem_mxGroups {ty : BitVec 3} {n : Nat} (hty : ty = 6 ∨ ty = 7) (hn : n ≤ 1024 / typeWidth ty.toNat) (g : Nat) :
    g ∈ mxGroups ty n ↔ 32 * g < n := by
  rcases hty with rfl | rfl <;> simp [mxGroups, typeWidth] at hn ⊢ <;> omega

section
variable {s : State} {core : CoreId} {w : VecWord}

theorem quantise_eq (s : State) (core : Nat) (w : VecWord) :
    let n := s.vn core (typeWidth w.ty.toNat)
    s.quantise core w = s.vecEffect n core w.vd.toNat
      ((mxGroups w.ty n).foldl (mxPut (codeWidth (w.imm.toNat % 16)) n (s.mxQuant core w)) (s.v core w.vd.toNat))
      false ((mxGroups w.ty n).any (fun g => (s.mxQuant core w g).sat)) (decide (w.imm.toNat / 64 % 2 = 1)) := by
  intro n
  unfold State.quantise
  simp only [bits_low_four, foldl_setLane_below]
  rfl

theorem exec_vmxq (hr : Ready s core) (hty : w.ty = 6 ∨ w.ty = 7) (hrsv : w.rsv = 0) (h2 : w.vs2 = 0) (h3 : w.vs3 = 0) (hbc : w.bc = 0)
    (hc : w.imm.toNat % 16 = 5 ∨ w.imm.toNat % 16 = 6 ∨ w.imm.toNat % 16 = 9) (h4 : w.imm.toNat / 16 % 4 = 0) (h7 : w.imm.toNat / 128 = 0) :
    exec (.vmxq core w) s = .next ((s.quantise core.val w).advance core.val) := by
  have hok : (vecOk w [6, 7] false false false && mxCodeOk (bits w.imm.toNat 0 4) && decide (bits w.imm.toNat 4 2 = 0) &&
      decide (bits w.imm.toNat 7 5 = 0)) = true := by
    rw [bits_low_four, (mxCodeOk_iff _).mpr hc, show bits w.imm.toNat 4 2 = 0 from h4, show bits w.imm.toNat 7 5 = 0 by simp [bits, h7]]
    rcases hty with hty | hty <;> simp [vecOk, hty, hrsv, h2, h3, hbc]
  simp only [exec, execVmxq, State.issueNext, hok, issue_of_ok hr.1]

theorem vmxq_spec {n : Nat} (hr : Ready s core) (hty : w.ty = 6 ∨ w.ty = 7) (hrsv : w.rsv = 0) (h2 : w.vs2 = 0) (h3 : w.vs3 = 0) (hbc : w.bc = 0)
    (hc : w.imm.toNat % 16 = 5 ∨ w.imm.toNat % 16 = 6 ∨ w.imm.toNat % 16 = 9) (h4 : w.imm.toNat / 16 % 4 = 0) (h7 : w.imm.toNat / 128 = 0)
    (hn : n = activeLanes s core (typeWidth w.ty.toNat)) :
    let ew := codeWidth (w.imm.toNat % 16)
    let group := s.mxQuant core.val w
    let stoch := decide (w.imm.toNat / 64 % 2 = 1)
    ∃ t, exec (.vmxq core w) s = .next t ∧
      (∀ k < n, lane ew (t.v core.val w.vd.toNat) k = ((group (k / 32)).elems[k % 32]?.getD 0) % 2 ^ ew) ∧
      (∀ g, 32 * g < n → lane 8 (t.v core.val w.vd.toNat) (64 + g) = (group g).scale % 256) ∧
      (∀ b < 1024, ew * n ≤ b → (∀ g, 32 * g < n → b / 8 ≠ 64 + g) →
        (t.v core.val w.vd.toNat).getLsbD b = (s.v core.val w.vd.toNat).getLsbD b) ∧
      StickyIf s t core Reg.VSTAT.FSAT (∃ g, 32 * g < n ∧ (group g).sat = true) ∧
      (stoch = true → 0 < n → t.rd Reg.VEC_SRSEQ.SEQ core.val = (s.rd Reg.VEC_SRSEQ.SEQ core.val + 1) % 2 ^ 23) ∧
      (stoch = false ∨ n = 0 → t.rd Reg.VEC_SRSEQ.SEQ core.val = s.rd Reg.VEC_SRSEQ.SEQ core.val) ∧ NextWord s t core ∧
      OnlyVector s t core w.vd [Reg.VSTAT.FSAT.key core.val 0, Reg.VEC_SRSEQ.SEQ.key core.val 0] := by
  intro ew group stoch
  have hvn : s.vn core.val (typeWidth w.ty.toNat) = n := hn.symm
  have hle : n ≤ 1024 / typeWidth w.ty.toNat := hn ▸ Nat.min_le_right ..
  have hmem := mem_mxGroups hty hle
  have h64 : n ≤ 64 := Nat.le_trans hle (by rcases hty with hty | hty <;> rw [hty] <;> decide)
  obtain ⟨helems, hscales, hrest⟩ := foldl_mxPut (q := group) (codeWidth_le hc) h64 (mxGroups w.ty n)
    (fun g hg => (hmem g).mp hg) (s.v core.val w.vd.toNat)
  have hempty (h : n = 0) : mxGroups w.ty n = [] := List.eq_nil_iff_forall_not_mem.mpr (fun g hg => by have := (hmem g).mp hg; omega)
  have hleaves := vecEffect_leaves (fs := [Reg.VSTAT.FSAT, Reg.VEC_SRSEQ.SEQ]) (n := n) (vd := w.vd) (isat := false)
    (x := (mxGroups w.ty n).foldl (mxPut ew n group) (s.v core.val w.vd.toNat)) (fsat := (mxGroups w.ty n).any (fun g => (group g).sat))
    (stoch := stoch) hr (fun h => by rw [hempty h]; exact ⟨rfl, rfl, rfl⟩) (by decide) (by simp) (by simp) (by simp)
  refine ⟨_, exec_vmxq hr hty hrsv h2 h3 hbc hc h4 h7, ?_⟩
  rw [quantise_eq, hvn]
  obtain ⟨hbump, hstay⟩ := hleaves.seq_bumped
  rw [hleaves.reg]
  refine ⟨fun k hk => ?_, fun g hg => ?_, fun b hb ho hs => hrest b hb ho (fun g hg => hs g ((hmem g).mp hg)), ?_, hbump, hstay,
    hleaves.next, hleaves.only⟩
  · rw [helems k hk, if_pos ((hmem _).mpr (by omega))]
  · rw [hscales g, if_pos ((hmem g).mpr hg)]
  · exact hleaves.fsat.congr (by simp only [List.any_eq_true, hmem])

end

/-! ## The statement -/

/-- Settles O11: VCVT, VMXQ and VMXE, each by what its lanes take and what a vector instruction leaves. -/
theorem vectorConversions : Obligations.VectorConversions := by
  refine ⟨fun core w s src dst part n stoch hr hty hrsv h2 h3 hbc hsrc hdst hpart hp hstoch hn => ?vcvt,
    fun core w s code n hr hrsv h2 h3 hbc hcode hc => ?mx⟩
  case vcvt =>
    intro first from_ rnd out
    have h := vcvt_spec hr hty hrsv h2 h3 hbc hsrc hdst hpart hp hstoch hn
    subst hpart hstoch
    exact h
  case mx =>
    intro wd ew x hn
    refine ⟨fun hty h4 h7 => ?vmxq, fun hty him => ?vmxe⟩
    case vmxq =>
      have h := vmxq_spec hr hty hrsv h2 h3 hbc (hcode ▸ hc) h4 h7 hn
      subst hcode hn
      exact h
    case vmxe =>
      have h16 : wd = 16 := by simp only [wd, hty]; decide
      have h := vmxe_spec hr hty hrsv h2 h3 hbc hcode hc him (h16 ▸ hn)
      simp only [mxSat_iff] at h
      exact h

end Sys2Proof.Machine

namespace Sys2Proof.Machine

/-! ## The fold of a boundary on a rectangle off the wafer (R344, R350) -/

/-- An exact sheaf of one tile at floor 0. -/
def farSheaf : Sheaf := { num := 3, exact := true, floor := 0, tiles := 1, contrib := 1, g := [], gFirst := 0, sInit := 0 }
/-- Its tile, with the final value 2. -/
def farTile : TileX := { TileX.new 5 3 0 0 1 with fin := some [2] }

/-- Enclosure 5 with its step closed and complete and the sheaf's scale in FLR_SCALE_320. Its ORIGIN holds 1,024, a value that the 8 bits
of the field have no room for: its one croft, and with it the blocks of its cores, lie behind those of the wafer. -/
def farState : State :=
  let s := (((State.reset.wr Reg.ENCL_SHAPE.CROWS 1 0 5).wr Reg.ENCL_SHAPE.CCOLS 1 0 5).wr Reg.FLR_SCALE.VALID 1 0 320).wr Reg.FLR_SCALE.SHEAF 3 0 320
  let s1 := { s with fields := Store.put s.fields (Reg.ENCL_SHAPE.ORIGIN.key 0 5) 1024 }
  (s1.modEncl 5 (fun x => { x with closed := true, statSheaf := 0xFFFF, sheaves := [farSheaf] })).modFloor 0
    (fun x => { x with tiles := [farTile], done := [(5, 3)] })

theorem farState_folds : (farState.encl 5).closed = true ∧ (farState.encl 5).folded = false ∧ farState.stepComplete 5 = true ∧
    farState.gleanedAll 5 = true ∧ (farState.encl 5).notices = [] ∧ (farState.encl 5).tally = [] ∧
    (farState.encl 5).sheaves = [farSheaf] ∧ farState.scaleEntry 0 5 3 = some 0 := by decide +kernel

/-- The block of core 327,681 lies on floor 0's registers: FLR_SCALE_320 is its EMIT_SCALE_0, with EMAX where ROUND is kept. -/
theorem rd_emax_eq_rd_round (s : State) : s.rd Reg.FLR_SCALE.EMAX 0 320 = s.rd Reg.EMIT_SCALE.ROUND 327681 0 :=
  congrArg (fun k => Store.getD s.fields k 0) (show Reg.FLR_SCALE.EMAX.key 0 320 = Reg.EMIT_SCALE.ROUND.key 327681 0 by decide)

/-- The state the fold leads to. -/
def farFolded : State :=
  match exec (.boundaryFold 5) farState with
  | .next t => t
  | _ => farState

/-- The fold gives the sheaf's entries of EMIT_SCALE round 0 on every core of the rectangle (R344). -/
theorem rd_round_after_fold : farFolded.rd Reg.EMIT_SCALE.ROUND 327681 0 = 0 := by decide +kernel

/-- Refutes O39: the statement's fold of a boundary bounds neither ORIGIN nor the cores it reaches, and a state may hold 1,024 in the 8 bits
of ORIGIN. Core 327,681 is then a core of the enclosure, and its EMIT_SCALE_0.ROUND, which the fold sets to 0, is FLR_SCALE_320.EMAX,
for which the statement has e = 1. -/
theorem not_stepCloseAndBoundary : ¬ Obligations.StepCloseAndBoundary := by
  rintro ⟨-, hfold, -⟩
  obtain ⟨hclosed, hfolded, hcomplete, hgleaned, hnotices, htally, hsheaves, hentry⟩ := farState_folds
  obtain ⟨t, he, -, -, -, -, -, hemax, -⟩ :=
    hfold 5 farState farSheaf 0 hclosed hfolded hcomplete hgleaned hnotices htally hsheaves rfl hentry
  have ht : farFolded = t := by simp only [farFolded, he]
  have hone : t.rd Reg.FLR_SCALE.EMAX 0 320 = 1 := (hemax (by decide +kernel)).trans (by decide +kernel)
  rw [rd_emax_eq_rd_round, ← ht, rd_round_after_fold] at hone
  exact absurd hone (by decide)

end Sys2Proof.Machine

namespace Sys2Proof.Machine

/-! ## The hand's operations (R97, R98, R100, R115, R116) -/

/-! ### The hand registers and PC -/

theorem mem_hKeys {core : CoreId} {r : BitVec 5} {k : Nat} : k ∈ hKeys core r ↔ r ≠ 0 ∧ k = Reg.HND_H.VALUE.key core.val r.toNat := by
  by_cases h : r = 0 <;> simp [hKeys, h]

theorem hKeys_low (core : CoreId) (r : BitVec 5) : ∀ k < 0x200010000000 * 64, k ∉ hKeys core r := fun k hk hm => by
  obtain ⟨-, rfl⟩ := mem_hKeys.mp hm
  simp only [Fld.key, Fld.addr, Reg.HND_H.VALUE, Block.base] at hk
  omega

/-- A field of the cores' block outside the hand registers. -/
abbrev Fld.besideHand (f : Fld) : Prop := f.blk = .core ∧ f.lo < 64 ∧ (f.off < 0x200 ∨ 0x300 ≤ f.off ∧ f.off < 0x1000)

theorem Fld.besideHand.key_ne {f : Fld} (hf : f.besideHand) (core c : CoreId) (r : BitVec 5) :
    Reg.HND_H.VALUE.key c.val r.toNat ≠ f.key core.val 0 := by
  obtain ⟨hb, hl, ho⟩ := hf
  have := r.isLt
  simp only [Fld.key, Fld.addr, hb, Reg.HND_H.VALUE, Block.base]
  omega

/-- A hand register written reads as written; the others, of every core, read as before. -/
theorem h_setH (s : State) (core c : CoreId) (hd r : BitVec 5) (v : Word) :
    (s.setH core.val hd.toNat v).h c.val r.toNat = if c = core ∧ r = hd ∧ r ≠ 0 then v else s.h c.val r.toNat := by
  by_cases hc : c = core
  · subst hc
    rw [setH_result s c hd v r]
    simp
  · rw [if_neg (fun h => hc h.1)]
    unfold State.h
    rw [(setH_only s core hd v).rd _ _ _ (fun hm => hc (Fin.ext ?_))]
    have hr := r.isLt
    have hd := hd.isLt
    have hm := (mem_hKeys.mp hm).2
    simp only [Fld.key, Fld.addr, Reg.HND_H.VALUE, Block.base] at hm
    omega

theorem h_wr (s : State) (core c : CoreId) (r : BitVec 5) (v : Nat) {f : Fld} (hf : f.besideHand) :
    (s.wr f v core.val).h c.val r.toNat = s.h c.val r.toNat := by
  unfold State.h
  rw [State.rd_wr_other _ _ _ _ _ _ _ _ (hf.key_ne core c r)]

/-- A register of the core that is no hand register reads as before after a write of one. -/
theorem rd_setH (s : State) (core : CoreId) (hd : BitVec 5) (v : Word) {f : Fld} (hf : f.besideHand) :
    (s.setH core.val hd.toNat v).rd f core.val = s.rd f core.val :=
  (setH_only s core hd v).rd _ _ _ (fun hm => hf.key_ne core core hd (mem_hKeys.mp hm).2.symm)

/-! ### Issue -/

theorem issueNext_of_ok {s : State} {core : Nat} (h : s.canIssue core = true) (word : Word) (eff : State → State) :
    s.issueNext core word true eff = (eff s).advance core := issue_of_ok h word _

theorem hold_of_canIssue {s : State} {core : Nat} (h : s.canIssue core = true) : (s.core core).hold = .none := by
  simp only [State.canIssue, Bool.and_eq_true, decide_eq_true_eq] at h
  exact h.1.1.2

/-- Whether the hand of a core can issue does not depend on its PC (R94, R95). -/
theorem canIssue_wr_pc (s : State) (core : CoreId) (v : Nat) : (s.wr Reg.HND_STAT.PC v core.val).canIssue core.val = s.canIssue core.val := by
  have hcore (f : Fld) (hf : f.apart Reg.HND_STAT.PC) : (s.wr Reg.HND_STAT.PC v core.val).rd f core.val = s.rd f core.val := rd_wr_apart s core v hf
  have hhold (f : Fld) (hf : f ∈ [Reg.HOLD_OP.BUSY, Reg.PWR_DOM.BUSY]) : (s.wr Reg.HND_STAT.PC v core.val).rd f 0 (holdingOf (croftOf core.val)) =
      s.rd f 0 (holdingOf (croftOf core.val)) := by
    refine State.rd_wr_other _ _ _ _ _ _ _ _ ?_
    simp only [List.mem_cons, List.not_mem_nil, or_false] at hf
    rcases hf with rfl | rfl
    all_goals
      simp only [Fld.key, Fld.addr, Block.base, Reg.HOLD_OP.BUSY, Reg.PWR_DOM.BUSY, Reg.HND_STAT.PC, holdingOf, croftOf, rowOf, colOf]
      omega
  have hseg : (s.wr Reg.HND_STAT.PC v core.val).segOf core.val = s.segOf core.val := by
    simp only [State.segOf, hcore Reg.FUR_POS.IN_SEG (by decide), hcore Reg.FUR_POS.SEG (by decide)]
  have hcatch : (s.wr Reg.HND_STAT.PC v core.val).catchNow core.val 0 = s.catchNow core.val 0 := by
    simp only [State.catchNow, hseg, hcore Reg.FUR_STAT.CATCH (by decide)]
    rfl
  have hheld : (s.wr Reg.HND_STAT.PC v core.val).heldNow core.val = s.heldNow core.val := by
    simp only [State.heldNow, hseg, hcatch]
    rfl
  have hissues : (s.wr Reg.HND_STAT.PC v core.val).croftIssues (croftOf core.val) = s.croftIssues (croftOf core.val) := by
    simp only [State.croftIssues, hhold Reg.HOLD_OP.BUSY (by simp), hhold Reg.PWR_DOM.BUSY (by simp)]
    rfl
  simp only [State.canIssue, State.stopped, hheld, hissues, hcore Reg.HND_STAT.HALTED (by decide)]
  rfl

/-- Behind word 2,047 there is no next word: a hand that nothing holds halts as on an illegal word (R115). -/
theorem advance_past_last {s : State} {core : Nat} (hpc : s.rd Reg.HND_STAT.PC core = 2047) (hh : (s.core core).hold = .none) :
    s.advance core = s.illegal core 0 := by
  simp only [State.advance, hpc, ne_eq, not_true_eq_false, if_false, hh, if_true]

/-! ### Operations that write hd (R98) -/

/-- The commands of an operation that writes `g` of its word and its sources to hd; `imm`: the operation has no second register. -/
def WritesHd (con : CoreId → HandWord → Instr) (imm : Bool) (g : HandWord → Word → Word → Word) : Prop :=
  ∃ op, ∀ core w s, exec (con core w) s = .next (s.issueNext core.val (w.word op) (handFields w true true (!imm)) (fun t =>
    t.setH core.val w.hd.toNat (g w (t.h core.val w.hs1.toNat) (t.h core.val w.hs2.toNat))))

section
variable {con : CoreId → HandWord → Instr} {op : BitVec 8} {f g : Word → Word → Word}

theorem writesHd_of_handRR (he : ∀ core w s, exec (con core w) s = handRR op f core w s) (hfg : ∀ a b, f a b = g a b) :
    WritesHd con false (fun _ => g) := by
  obtain rfl : f = g := funext fun a => funext (hfg a)
  exact ⟨op, he⟩
theorem writesHd_of_handRI {v : HandWord → Word → Word} (he : ∀ core w s, exec (con core w) s = handRI op f core w s)
    (hfv : ∀ w a, f a (w.imm.signExtend 64) = v w a) : WritesHd con true (fun w a _ => v w a) := by
  obtain rfl : (fun w a => f a (immS w)) = v := funext fun w => funext (hfv w)
  exact ⟨op, he⟩

theorem handFields_of_legal {w : HandWord} {imm : Bool} (h0 : w.rsv = 0) (h2 : imm = true → w.hs2 = 0) : handFields w true true (!imm) = true := by
  cases imm
  · simp [handFields, h0]
  · simp [handFields, h0, h2 rfl]

/-- A legal word of the operation, with a word behind it. -/
theorem WritesHd.completes {imm : Bool} {g : HandWord → Word → Word → Word} (h : WritesHd con imm g) {core : CoreId} {w : HandWord} {s : State}
    (hr : Ready s core) (h0 : w.rsv = 0) (h2 : imm = true → w.hs2 = 0) :
    ∃ t, exec (con core w) s = .next t ∧ HandResult s t core w.hd (g w (s.h core.val w.hs1.toNat) (s.h core.val w.hs2.toNat)) ∧
      NextWord s t core ∧ OnlyFields s t (pcKey core :: hKeys core w.hd) := by
  obtain ⟨op, he⟩ := h
  refine ⟨_, he core w s, ?_⟩
  rw [handFields_of_legal h0 h2, issueNext_of_ok hr.1]
  exact setH_advance hr.2 ..

/-- A legal word of the operation at word 2,047 (R115). -/
theorem WritesHd.past_last {imm : Bool} {g : HandWord → Word → Word → Word} (h : WritesHd con imm g) {core : CoreId} {w : HandWord} {s : State}
    (hi : s.canIssue core.val = true) (hpc : s.rd Reg.HND_STAT.PC core.val = 2047) (h0 : w.rsv = 0) (h2 : imm = true → w.hs2 = 0) :
    ∃ t, exec (con core w) s = .next t ∧
      (∃ u, exec (con core w) (s.wr Reg.HND_STAT.PC 2046 core.val) = .next u ∧
        ∀ (c : CoreId) (r : BitVec 5), t.h c.val r.toNat = u.h c.val r.toNat) ∧
      t.rd Reg.HND_ILL.WORD core.val = 0 ∧ t.rd Reg.HND_STAT.HALTED core.val = 1 ∧ t.rd Reg.HND_STAT.CAUSE core.val = 2 ∧
      t.rd Reg.HND_STAT.PC core.val = 2047 ∧ Raised s t ((s.enclOfCore core.val).getD 16) 0x03 0 core.val 0 ∧
      t.vregs = s.vregs ∧ BytesKept s t (fun _ => False) := by
  obtain ⟨op, he⟩ := h
  have hok := handFields_of_legal h0 h2
  obtain ⟨x, hx⟩ : ∃ x, x = g w (s.h core.val w.hs1.toNat) (s.h core.val w.hs2.toNat) := ⟨_, rfl⟩
  have hi' : (s.wr Reg.HND_STAT.PC 2046 core.val).canIssue core.val = true := (canIssue_wr_pc s core 2046).trans hi
  have hpc' : (s.setH core.val w.hd.toNat x).rd Reg.HND_STAT.PC core.val = 2047 := (setH_pc s core w.hd x).trans hpc
  obtain ⟨hframe, hkept, hbytes⟩ := setH_only s core w.hd x
  have hhold : ((s.setH core.val w.hd.toNat x).core core.val).hold = .none :=
    (congrArg (fun t : State => (t.core core.val).hold) hframe).trans (hold_of_canIssue hi)
  have hhalted : (s.setH core.val w.hd.toNat x).rd Reg.HND_STAT.HALTED core.val = 0 :=
    (rd_setH s core w.hd x (by decide)).trans (halted_of_canIssue hi)
  obtain ⟨hword, hhalt, hcause, hpc2, hraised, hh, hv, hb⟩ := illegal_discarded (core := core) hhalted 0#64 (cause := 2) (by decide) (by decide) 0x03
  refine ⟨(s.setH core.val w.hd.toNat x).illegal core.val 0, ?exec, ⟨_, he core w _, fun c r => ?hand⟩, hword, hhalt, hcause, hpc2.trans hpc',
    hraised.of_kept hkept (hKeys_low core w.hd) (congrArg State.events hframe :) (fun _ h => h), hv.trans (congrArg State.vregs hframe :),
    hbytes.trans hb⟩
  case exec =>
    rw [he, hok, issueNext_of_ok hi, ← hx]
    exact congrArg Host.Outcome.next (advance_past_last hpc' hhold)
  case hand =>
    have hlt : ((s.wr Reg.HND_STAT.PC 2046 core.val).setH core.val w.hd.toNat x).rd Reg.HND_STAT.PC core.val < 2047 := by
      rw [setH_pc, State.rd_wr_same]
      decide
    have hpcf : Reg.HND_STAT.PC.besideHand := by decide
    rw [hok, issueNext_of_ok hi', h_wr _ _ _ _ _ hpcf, h_wr _ _ _ _ _ hpcf, ← hx, advance_next _ core hlt, h_wr _ _ _ _ _ hpcf, h_setH,
      h_wr _ _ _ _ _ hpcf]
    exact (hh c r).trans (h_setH ..)

end

/-! ### What the operations give (R98) -/

theorem ofNat_and_low (a : Word) : a &&& 0xFFFFFFFF#64 = BitVec.ofNat 64 (a.toNat % 2 ^ 32) := by
  refine BitVec.eq_of_toNat_eq ?_
  rw [BitVec.toNat_and, BitVec.toNat_ofNat]
  exact (Nat.and_two_pow_sub_one_eq_mod a.toNat 32).trans (Nat.mod_eq_of_lt (by omega)).symm

theorem ofNat_shiftLeft (a : Word) (n : Nat) : a <<< n = BitVec.ofNat 64 (a.toNat * 2 ^ n) := by
  refine BitVec.eq_of_toNat_eq ?_
  rw [BitVec.toNat_shiftLeft, BitVec.toNat_ofNat, Nat.shiftLeft_eq]
theorem ofNat_shiftRight (a : Word) (n : Nat) : a >>> n = BitVec.ofNat 64 (a.toNat / 2 ^ n) := by
  refine BitVec.eq_of_toNat_eq ?_
  rw [BitVec.toNat_ushiftRight, BitVec.toNat_ofNat, Nat.shiftRight_eq_div_pow]
  exact (Nat.mod_eq_of_lt ((Nat.div_le_self ..).trans_lt a.isLt)).symm
theorem ofInt_sshiftRight (a : Word) (n : Nat) : a.sshiftRight n = BitVec.ofInt 64 (a.toInt / 2 ^ n) := by
  have h : a.toInt / 2 ^ n = (a.sshiftRight n).toInt := by
    rw [BitVec.toInt_sshiftRight, Int.shiftRight_eq_div_pow, Nat.cast_pow, Nat.cast_ofNat]
  rw [h, BitVec.ofInt_toInt]

/-- The low bits of IMM are those of IMM sign-extended. -/
theorem signExtend_mod (i : BitVec 32) : (i.signExtend 64).toNat % 64 = i.toNat % 64 := by
  have h := BitVec.toInt_eq_toNat_cond i
  rw [BitVec.signExtend, BitVec.toNat_ofInt]
  split at h <;> omega

/-- LIH: the halves of the result do not overlap. -/
theorem upper_or_lower (i : BitVec 32) (a : Word) :
    (i.signExtend 64 <<< 32) ||| (a &&& 0xFFFFFFFF#64) = BitVec.ofNat 64 (i.toNat * 2 ^ 32 + a.toNat % 2 ^ 32) := by
  have hlow : a.toNat % 2 ^ 32 < 2 ^ 32 := Nat.mod_lt _ (by decide)
  have hup : (i.signExtend 64).toNat * 2 ^ 32 % 2 ^ 64 = 2 ^ 32 * i.toNat := by
    have h := BitVec.toInt_eq_toNat_cond i
    have := i.isLt
    rw [BitVec.signExtend, BitVec.toNat_ofInt]
    split at h <;> omega
  refine BitVec.eq_of_toNat_eq ?_
  rw [BitVec.toNat_or, BitVec.toNat_shiftLeft, Nat.shiftLeft_eq, hup, ofNat_and_low, BitVec.toNat_ofNat, BitVec.toNat_ofNat,
    Nat.mod_eq_of_lt (hlow.trans (by decide)), ← Nat.two_pow_add_eq_or_of_lt hlow]
  have := i.isLt
  omega

theorem ofNat_add (a b : Word) : a + b = BitVec.ofNat 64 (a.toNat + b.toNat) := BitVec.eq_of_toNat_eq (by simp)
theorem ofInt_sub (a b : Word) : a - b = BitVec.ofInt 64 ((a.toNat : Int) - b.toNat) := by
  refine BitVec.eq_of_toNat_eq ?_
  rw [BitVec.toNat_sub, BitVec.toNat_ofInt]
  omega
theorem ofNat_mul (a b : Word) : a * b = BitVec.ofNat 64 (a.toNat * b.toNat) := BitVec.eq_of_toNat_eq (by simp)
theorem ofInt_addImm (a : Word) (i : BitVec 32) : a + i.signExtend 64 = BitVec.ofInt 64 (a.toNat + i.toInt) := by
  rw [BitVec.ofInt_add]
  simp [BitVec.signExtend]
theorem one_if_slt (a b : Word) : (if a.slt b then (1 : Word) else 0) = if a.toInt < b.toInt then 1 else 0 := by
  simp only [BitVec.slt, decide_eq_true_eq]
theorem one_if_ult (a b : Word) : (if a.ult b then (1 : Word) else 0) = if a.toNat < b.toNat then 1 else 0 := by
  simp only [BitVec.ult, decide_eq_true_eq]

theorem writesHd_add : WritesHd Instr.add false (fun _ a b => BitVec.ofNat 64 (a.toNat + b.toNat)) :=
  writesHd_of_handRR (f := fun a b => a + b) (fun _ _ _ => rfl) ofNat_add
theorem writesHd_sub : WritesHd Instr.sub false (fun _ a b => BitVec.ofInt 64 ((a.toNat : Int) - b.toNat)) :=
  writesHd_of_handRR (f := fun a b => a - b) (fun _ _ _ => rfl) ofInt_sub
theorem writesHd_and : WritesHd Instr.and false (fun _ a b => a &&& b) := writesHd_of_handRR (fun _ _ _ => rfl) (fun _ _ => rfl)
theorem writesHd_or : WritesHd Instr.or false (fun _ a b => a ||| b) := writesHd_of_handRR (fun _ _ _ => rfl) (fun _ _ => rfl)
theorem writesHd_xor : WritesHd Instr.xor false (fun _ a b => a ^^^ b) := writesHd_of_handRR (fun _ _ _ => rfl) (fun _ _ => rfl)
theorem writesHd_shl : WritesHd Instr.shl false (fun _ a b => BitVec.ofNat 64 (a.toNat * 2 ^ (b.toNat % 64))) :=
  writesHd_of_handRR (f := fun a b => a <<< (b.toNat % 64)) (fun _ _ _ => rfl) (fun _ _ => ofNat_shiftLeft ..)
theorem writesHd_shr : WritesHd Instr.shr false (fun _ a b => BitVec.ofNat 64 (a.toNat / 2 ^ (b.toNat % 64))) :=
  writesHd_of_handRR (f := fun a b => a >>> (b.toNat % 64)) (fun _ _ _ => rfl) (fun _ _ => ofNat_shiftRight ..)
theorem writesHd_sra : WritesHd Instr.sra false (fun _ a b => BitVec.ofInt 64 (a.toInt / 2 ^ (b.toNat % 64))) :=
  writesHd_of_handRR (f := fun a b => a.sshiftRight (b.toNat % 64)) (fun _ _ _ => rfl) (fun _ _ => ofInt_sshiftRight ..)
theorem writesHd_slt : WritesHd Instr.slt false (fun _ a b => if a.toInt < b.toInt then 1 else 0) :=
  writesHd_of_handRR (f := fun a b => if a.slt b then 1 else 0) (fun _ _ _ => rfl) one_if_slt
theorem writesHd_sltu : WritesHd Instr.sltu false (fun _ a b => if a.toNat < b.toNat then 1 else 0) :=
  writesHd_of_handRR (f := fun a b => if a.ult b then 1 else 0) (fun _ _ _ => rfl) one_if_ult
theorem writesHd_mul : WritesHd Instr.mul false (fun _ a b => BitVec.ofNat 64 (a.toNat * b.toNat)) :=
  writesHd_of_handRR (f := fun a b => a * b) (fun _ _ _ => rfl) ofNat_mul
theorem writesHd_addi : WritesHd Instr.addi true (fun w a _ => BitVec.ofInt 64 (a.toNat + w.imm.toInt)) :=
  writesHd_of_handRI (f := fun a i => a + i) (fun _ _ _ => rfl) (fun _ _ => ofInt_addImm ..)
theorem writesHd_andi : WritesHd Instr.andi true (fun w a _ => a &&& BitVec.ofInt 64 w.imm.toInt) :=
  writesHd_of_handRI (f := fun a i => a &&& i) (fun _ _ _ => rfl) (fun _ _ => rfl)
theorem writesHd_ori : WritesHd Instr.ori true (fun w a _ => a ||| BitVec.ofInt 64 w.imm.toInt) :=
  writesHd_of_handRI (f := fun a i => a ||| i) (fun _ _ _ => rfl) (fun _ _ => rfl)
theorem writesHd_shli : WritesHd Instr.shli true (fun w a _ => BitVec.ofNat 64 (a.toNat * 2 ^ (w.imm.toNat % 64))) :=
  writesHd_of_handRI (f := fun a i => a <<< (i.toNat % 64)) (fun _ _ _ => rfl) (fun _ _ => by rw [signExtend_mod, ofNat_shiftLeft])
theorem writesHd_shri : WritesHd Instr.shri true (fun w a _ => BitVec.ofNat 64 (a.toNat / 2 ^ (w.imm.toNat % 64))) :=
  writesHd_of_handRI (f := fun a i => a >>> (i.toNat % 64)) (fun _ _ _ => rfl) (fun _ _ => by rw [signExtend_mod, ofNat_shiftRight])
theorem writesHd_srai : WritesHd Instr.srai true (fun w a _ => BitVec.ofInt 64 (a.toInt / 2 ^ (w.imm.toNat % 64))) :=
  writesHd_of_handRI (f := fun a i => a.sshiftRight (i.toNat % 64)) (fun _ _ _ => rfl) (fun _ _ => by rw [signExtend_mod, ofInt_sshiftRight])
theorem writesHd_lih : WritesHd Instr.lih true (fun w a _ => BitVec.ofNat 64 (w.imm.toNat * 2 ^ 32 + a.toNat % 2 ^ 32)) :=
  writesHd_of_handRI (f := fun a i => (i <<< 32) ||| (a &&& 0xFFFFFFFF#64)) (fun _ _ _ => rfl) (fun _ _ => upper_or_lower ..)

/-! ### The statements on arithmetic -/

/-- Settles O2: each operation writes the value of the table to hd, and what that leaves is said once by `WritesHd.completes`. -/
theorem handArithmetic : Obligations.HandArithmetic := by
  refine ⟨?registers, ?immediate⟩
  case registers =>
    intro p hp
    suffices h : WritesHd p.1 false (fun _ => p.2) from fun core w s hr h0 => h.completes hr h0 nofun
    revert p
    simp only [List.forall_mem_cons]
    exact ⟨writesHd_add, writesHd_sub, writesHd_and, writesHd_or, writesHd_xor, writesHd_shl, writesHd_shr, writesHd_sra, writesHd_slt,
      writesHd_sltu, writesHd_mul, fun _ h => nomatch h⟩
  case immediate =>
    intro p hp
    suffices h : WritesHd p.1 true (fun w a _ => p.2 a w.imm) from fun core w s hr h0 h2 => h.completes hr h0 (fun _ => h2)
    revert p
    simp only [List.forall_mem_cons]
    exact ⟨writesHd_addi, writesHd_andi, writesHd_ori, writesHd_shli, writesHd_shri, writesHd_srai, writesHd_lih, fun _ h => nomatch h⟩

/-- Settles O3: at word 2,047 the same operations write hd, and what follows is said once by `WritesHd.past_last`. -/
theorem handPastTheLastWord : Obligations.HandPastTheLastWord := by
  intro p hp
  suffices h : ∃ g, WritesHd p.1 p.2 g from fun core w s hi hpc h0 h2 => h.choose_spec.past_last hi hpc h0 h2
  revert p
  simp only [List.forall_mem_cons]
  exact ⟨⟨_, writesHd_add⟩, ⟨_, writesHd_sub⟩, ⟨_, writesHd_and⟩, ⟨_, writesHd_or⟩, ⟨_, writesHd_xor⟩, ⟨_, writesHd_shl⟩, ⟨_, writesHd_shr⟩,
    ⟨_, writesHd_sra⟩, ⟨_, writesHd_slt⟩, ⟨_, writesHd_sltu⟩, ⟨_, writesHd_mul⟩, ⟨_, writesHd_addi⟩, ⟨_, writesHd_andi⟩, ⟨_, writesHd_ori⟩,
    ⟨_, writesHd_shli⟩, ⟨_, writesHd_shri⟩, ⟨_, writesHd_srai⟩, ⟨_, writesHd_lih⟩, fun _ h => nomatch h⟩

end Sys2Proof.Machine

namespace Sys2Proof.Machine

/-! ## Branches, jumps, VSETVL and HALT (R98, R100, R115, R116) -/

/-! ### Targets -/

theorem targetOk_of {x : Int} (h0 : 0 ≤ x) (h1 : x ≤ 2047) : targetOk x = true := by simp [targetOk, h0, h1]

/-- A jump inside the code store. -/
theorem jump_spec (s : State) (core : CoreId) {x : Int} (h0 : 0 ≤ x) (h1 : x ≤ 2047) :
    ((s.jump core.val x).rd Reg.HND_STAT.PC core.val : Int) = x ∧ OnlyFields s (s.jump core.val x) [pcKey core] := by
  refine ⟨?_, OnlyFields.wr ..⟩
  rw [State.jump, State.rd_wr_same, show x.toNat % 2 ^ Reg.HND_STAT.PC.width = x.toNat from Nat.mod_eq_of_lt (show x.toNat < 2 ^ 11 by omega), Int.toNat_of_nonneg h0]

/-- hd written, then a jump. -/
theorem setH_jump (s : State) (core : CoreId) (hd : BitVec 5) (v : Word) {x : Int} (h0 : 0 ≤ x) (h1 : x ≤ 2047) :
    let t := (s.setH core.val hd.toNat v).jump core.val x
    (t.rd Reg.HND_STAT.PC core.val : Int) = x ∧ HandResult s t core hd v ∧ OnlyFields s t (pcKey core :: hKeys core hd) := by
  intro t
  obtain ⟨hpc, honly⟩ := jump_spec (s.setH core.val hd.toNat v) core h0 h1
  refine ⟨hpc, fun r => ?_, ((setH_only s core hd v).trans honly).mono (by simp; tauto)⟩
  exact (h_wr (s.setH core.val hd.toNat v) core core r x.toNat (by decide)).trans (setH_result s core hd v r)

section
variable {core : CoreId} {w : HandWord} {s : State}

/-! ### Branches and jumps -/

/-- The commands of a branch on a condition of the two sources: a legal word of it goes to its target, or on. -/
def Branches (con : CoreId → HandWord → Instr) (cond : Word → Word → Prop) : Prop :=
  ∀ (core : CoreId) (w : HandWord) (s : State), s.canIssue core.val = true → w.rsv = 0 → w.hd = 0 →
    0 ≤ (s.rd Reg.HND_STAT.PC core.val : Int) + w.imm.toInt → (s.rd Reg.HND_STAT.PC core.val : Int) + w.imm.toInt ≤ 2047 →
    (cond (s.h core.val w.hs1.toNat) (s.h core.val w.hs2.toNat) → ∃ t, exec (con core w) s = .next t ∧
      (t.rd Reg.HND_STAT.PC core.val : Int) = s.rd Reg.HND_STAT.PC core.val + w.imm.toInt ∧ OnlyFields s t [pcKey core]) ∧
    (¬cond (s.h core.val w.hs1.toNat) (s.h core.val w.hs2.toNat) → s.rd Reg.HND_STAT.PC core.val < 2047 →
      ∃ t, exec (con core w) s = .next t ∧ NextWord s t core ∧ OnlyFields s t [pcKey core])

theorem branches_of_handBranch {con : CoreId → HandWord → Instr} {op : BitVec 8} {c : Word → Word → Bool} {cond : Word → Word → Prop}
    (he : ∀ core w s, exec (con core w) s = handBranch op c core w s) (hc : ∀ a b, c a b = true ↔ cond a b) : Branches con cond := by
  intro core w s hi h0 hd hlo hhi
  have hstep : exec (con core w) s = .next (if c (s.h core.val w.hs1.toNat) (s.h core.val w.hs2.toNat)
      then s.jump core.val (s.hTarget core.val w) else s.advance core.val) := by
    have hok : (handFields w false true true && targetOk (s.hTarget core.val w)) = true := by
      rw [State.hTarget, targetOk_of hlo hhi]
      simp [handFields, h0, hd]
    rw [he, handBranch, hok, issue_of_ok hi]
    rfl
  refine ⟨fun h => ⟨_, hstep, ?_⟩, fun h hpc => ⟨_, hstep, ?_⟩⟩
  · rw [if_pos ((hc _ _).mpr h)]
    exact jump_spec s core hlo hhi
  · rw [if_neg (fun hb => h ((hc _ _).mp hb))]
    exact ⟨advance_pc s core hpc, advance_only s core hpc⟩

theorem jal_spec (hi : s.canIssue core.val = true) (h0 : w.rsv = 0) (h1 : w.hs1 = 0) (h2 : w.hs2 = 0)
    (hlo : 0 ≤ (s.rd Reg.HND_STAT.PC core.val : Int) + w.imm.toInt) (hhi : (s.rd Reg.HND_STAT.PC core.val : Int) + w.imm.toInt ≤ 2047) :
    ∃ t, exec (.jal core w) s = .next t ∧ (t.rd Reg.HND_STAT.PC core.val : Int) = s.rd Reg.HND_STAT.PC core.val + w.imm.toInt ∧
      HandResult s t core w.hd (BitVec.ofNat 64 (s.rd Reg.HND_STAT.PC core.val + 1)) ∧ OnlyFields s t (pcKey core :: hKeys core w.hd) := by
  have hok : (handFields w true false false && targetOk (s.hTarget core.val w)) = true := by
    rw [State.hTarget, targetOk_of hlo hhi]
    simp [handFields, h0, h1, h2]
  refine ⟨_, rfl, ?_⟩
  rw [hok, issue_of_ok hi]
  exact setH_jump s core w.hd _ hlo hhi

theorem jr_spec (hi : s.canIssue core.val = true) (h0 : w.rsv = 0) (h2 : w.hs2 = 0) (hx : (s.h core.val w.hs1.toNat).toNat ≤ 2047) :
    ∃ t, exec (.jr core w) s = .next t ∧ t.rd Reg.HND_STAT.PC core.val = (s.h core.val w.hs1.toNat).toNat ∧
      HandResult s t core w.hd (BitVec.ofNat 64 (s.rd Reg.HND_STAT.PC core.val + 1)) ∧ OnlyFields s t (pcKey core :: hKeys core w.hd) := by
  have hhi : ((s.h core.val w.hs1.toNat).toNat : Int) ≤ 2047 := by exact_mod_cast hx
  have hok : (handFields w true true false && targetOk ((s.hs1 core.val w).toNat : Int)) = true := by
    rw [State.hs1, targetOk_of (Int.natCast_nonneg _) hhi]
    simp [handFields, h0, h2]
  obtain ⟨hpc, hrest⟩ := setH_jump s core w.hd (BitVec.ofNat 64 (s.rd Reg.HND_STAT.PC core.val + 1)) (Int.natCast_nonneg _) hhi
  refine ⟨_, rfl, ?_⟩
  rw [hok, issue_of_ok hi]
  exact ⟨Int.ofNat_inj.mp hpc, hrest⟩

/-! ### VSETVL (R100) -/

/-- VLMAX of the width that a code of VSETVL names. -/
theorem vlmax_of_code {c : Nat} (hc : c < 3) : vlmax (8 * 2 ^ c) = 128 / 2 ^ c ∧ 128 / 2 ^ c ≤ 128 := by
  interval_cases c <;> decide

theorem vsetvl_spec {c : Nat} (hr : Ready s core) (h0 : w.rsv = 0) (h2 : w.hs2 = 0) (hcode : c = w.imm.toNat % 4) (hc : c ≠ 3) :
    ∃ t, exec (.vsetvl core w) s = .next t ∧ t.rd Reg.VEC_VL.VL core.val = min (s.h core.val w.hs1.toNat).toNat (128 / 2 ^ c) ∧
      HandResult s t core w.hd (BitVec.ofNat 64 (min (s.h core.val w.hs1.toNat).toNat (128 / 2 ^ c))) ∧ NextWord s t core ∧
      OnlyFields s t (pcKey core :: Reg.VEC_VL.VL.key core.val 0 :: hKeys core w.hd) := by
  subst hcode
  obtain ⟨hmax, hle⟩ := vlmax_of_code (show w.imm.toNat % 4 < 3 by omega)
  obtain ⟨n, hn⟩ : ∃ n, n = min (s.h core.val w.hs1.toNat).toNat (128 / 2 ^ (w.imm.toNat % 4)) := ⟨_, rfl⟩
  have hok : (handFields w true true false && decide (w.imm.toNat % 4 ≠ 3)) = true := by simp [handFields, h0, h2, hc]
  have hstep : exec (.vsetvl core w) s =
      .next (((s.wr Reg.VEC_VL.VL n core.val).setH core.val w.hd.toNat (BitVec.ofNat 64 n)).advance core.val) := by
    simp only [exec, execVsetvl, hok, issueNext_of_ok hr.1, hmax, State.hs1, ← hn]
  have hpc : (s.wr Reg.VEC_VL.VL n core.val).rd Reg.HND_STAT.PC core.val = s.rd Reg.HND_STAT.PC core.val := rd_wr_apart s core n (by decide)
  obtain ⟨hhand, hnext, honly⟩ := setH_advance (hpc.trans_lt hr.2) w.hd (BitVec.ofNat 64 n)
  rw [← hn]
  refine ⟨_, hstep, ?vl, fun r => ?hand, ?next, ((OnlyFields.wr s ..).trans honly).mono (by simp; tauto)⟩
  case vl =>
    rw [honly.rd _ _ _ ?_, State.rd_wr_same]
    · exact Nat.mod_eq_of_lt (show n < 2 ^ 8 by omega)
    · rw [List.mem_cons, mem_hKeys]
      exact not_or.mpr ⟨Fld.key_ne rfl (by decide) (by decide) (.inl (by decide)),
        fun h => (show Reg.VEC_VL.VL.besideHand by decide).key_ne core core w.hd h.2.symm⟩
  case hand => rw [hhand r, h_wr s core core r n (by decide)]
  case next => exact hnext.trans (congrArg (· + 1) hpc)

/-! ### HALT (R116) -/

/-- A halt of its own leaves the drills as they are. -/
theorem haltCore_own (s : State) (core : Nat) (h : s.rd Reg.HND_STAT.HALTED core = 0) : s.haltCore core 1 = s.halted core 1 := by
  simp only [State.haltCore, h, State.halted, if_true, zero_ne_one, if_false]

theorem halt_spec (hi : s.canIssue core.val = true) (h0 : w.rsv = 0) (hd : w.hd = 0) (h1 : w.hs1 = 0) (h2 : w.hs2 = 0) :
    exec (.halt core (w.word 0x7F#8)) s = .next (s.halted core.val 1) := by
  obtain ⟨hunit, hop, hread⟩ := HandWord.word_fields 0x7F#8 w
  have hword : wfield (w.word 0x7F#8) 52 12 = 0x07F#12 := by
    have happ : wfield (w.word 0x7F#8) 52 12 = wfield (w.word 0x7F#8) 60 4 ++ wfield (w.word 0x7F#8) 52 8 :=
      (BitVec.extractLsb'_append_extractLsb'_eq_extractLsb' (x := w.word 0x7F#8) (show 60 = 52 + 8 from rfl)).symm
    rw [happ, hunit, hop]
    rfl
  have hok : handFields (.read (w.word 0x7F#8)) false false false = true := by simp [hread, handFields, h0, hd, h1, h2]
  simp only [exec, execHalt, hword, if_true, hok, issue_of_ok hi, haltCore_own s _ (halted_of_canIssue hi)]

end

/-! ### The statement -/

/-- Settles O5: what each of the operations leaves is said by its own lemma above. -/
theorem handControl : Obligations.HandControl := by
  refine ⟨⟨?branches, fun core w s hi h0 h1 h2 hlo hhi => jal_spec hi h0 h1 h2 hlo hhi, fun core w s hi h0 h2 hx => jr_spec hi h0 h2 hx⟩,
    fun core w s c hr h0 h2 hcode hc => vsetvl_spec hr h0 h2 hcode hc, fun core w s hi h0 hd h1 h2 => ?halt⟩
  case branches =>
    intro p hp
    change Branches p.1 p.2
    revert p
    simp only [List.forall_mem_cons]
    refine ⟨?_, ?_, ?_, ?_, ?_, fun _ h => nomatch h⟩
    · exact branches_of_handBranch (c := fun a b => a == b) (fun _ _ _ => rfl) (fun _ _ => beq_iff_eq)
    · exact branches_of_handBranch (c := fun a b => !(a == b)) (fun _ _ _ => rfl) (by simp)
    · exact branches_of_handBranch (c := fun a b => a.slt b) (fun _ _ _ => rfl) (by simp [BitVec.slt])
    · exact branches_of_handBranch (c := fun a b => !(a.slt b)) (fun _ _ _ => rfl) (by simp [BitVec.slt])
    · exact branches_of_handBranch (c := fun a b => a.ult b) (fun _ _ _ => rfl) (by simp [BitVec.ult])
  case halt =>
    refine ⟨_, halt_spec hi h0 hd h1 h2, rd_halted_halted s core.val 1, rd_halted_cause s core.val 1, State.core_setCore .., ?_, rfl,
      .of_mem rfl _, (halted_kept s core.val 1).mono (by simp)⟩
    exact fun c hc => State.core_setCore_other _ _ _ hc

end Sys2Proof.Machine

namespace Sys2Proof.Machine

/-! ## Accesses to a scratchpad where no latent error lies (R111, R123) -/

section
variable {s : State} {core : Nat}

theorem codeWord_congr {u : State} (h : u.rd Reg.SP_CLASS.CLASS core = s.rd Reg.SP_CLASS.CLASS core) (off : Nat) :
    u.codeWord core off = s.codeWord core off := by
  unfold State.codeWord State.wClass
  rw [h]

theorem Clean.congr {u : State} {offs : List Nat} (h : Clean s core offs) (he : u.errs = s.errs)
    (hc : u.rd Reg.SP_CLASS.CLASS core = s.rd Reg.SP_CLASS.CLASS core) : Clean u core offs := fun o ho => by
  rw [codeWord_congr hc, State.wordErr, he]
  exact h o ho

/-- The code words that clean offsets lie in have no latent error. -/
theorem Clean.wordsOf {offs : List (Nat × Nat)} (h : Clean s core (offs.map Prod.fst)) : ∀ q ∈ s.wordsOf core offs, s.wordErr core q.1 = 0 :=
  fun q hq => by
    obtain ⟨p, hp, e⟩ := (wordsOf_spec s core offs).1 q hq
    rw [e]
    exact h _ (List.mem_map_of_mem hp)

/-- A read of clean offsets gives their bytes and changes nothing. -/
theorem spReadAt_of_clean {offs : List (Nat × Nat)} (h : Clean s core (offs.map Prod.fst)) :
    s.spReadAt core offs = (offs.map (fun p => s.byte (spAddr core p.1)), s) := by
  refine Prod.ext (List.map_congr_left (fun p hp => ?_)) ?_
  · have h0 : s.wordErr core (s.codeWord core p.1) = 0 := h _ (List.mem_map_of_mem hp)
    simp [h0]
  · refine List.foldlRecOn (motive := fun t : State => t = s) _ _ rfl (fun t ht q hq => ?_)
    rw [ht]
    simp [State.touch, h.wordsOf q hq]

/-- A write of clean offsets neither brings nor takes a latent error. -/
theorem spWriteAt_errs_of_clean (slot : Nat) {wr : List (Nat × Byte)} (h : Clean s core (wr.map Prod.fst)) (k : Nat) :
    Store.getD (s.spWriteAt core slot wr).errs k 0 = Store.getD s.errs k 0 := by
  have hput (l : List (Nat × Byte)) (t : State) : (l.foldl (fun v p => v.spPut core p.1 [p.2]) t).errs = t.errs := by rw [foldl_spPut]
  have hwords : ∀ cw ∈ (s.wordsOf core (wr.map (fun p => (p.1, slot)))).map Prod.fst, s.wordErr core cw = 0 := fun cw hcw => by
    obtain ⟨q, hq, rfl⟩ := List.mem_map.mp hcw
    exact Clean.wordsOf (by rwa [List.map_map]) q hq
  revert k
  refine List.foldlRecOn (motive := fun t : State => ∀ k, Store.getD t.errs k 0 = Store.getD s.errs k 0) _ _ (fun _ => rfl) (fun t ht cw hcw k => ?_)
  dsimp only
  rw [if_pos (hwords cw hcw)]
  split
  · rw [State.setErr, if_pos rfl, hput]
    by_cases hk : k = spAddr core cw
    · rw [hk, Store.getD, Store.get_erase_same]
      exact (hwords cw hcw).symm
    · rw [Store.getD, Store.get_erase_other _ _ hk]
      exact ht k
  · rw [hput]
    exact ht k

/-- The bytes of `wr` have been written at their offsets, and nothing else has changed. -/
structure PadWritten (s t : State) (core : Nat) (wr : List (Nat × Byte)) : Prop where
  frame : { t with mem := s.mem, errs := s.errs } = s
  errs : ∀ k, Store.getD t.errs k 0 = Store.getD s.errs k 0
  bytes : ∀ p ∈ wr, (∀ q ∈ wr, spAddr core q.1 = spAddr core p.1 → q.2 = p.2) → t.byte (spAddr core p.1) = p.2
  others : BytesKept s t (fun x => ∃ p ∈ wr, x = spAddr core p.1)

theorem spWriteAt_writes (slot : Nat) {wr : List (Nat × Byte)} (h : Clean s core (wr.map Prod.fst)) :
    PadWritten s (s.spWriteAt core slot wr) core wr := by
  have herrs := spWriteAt_errs_of_clean slot h
  obtain ⟨l, e, he, hl⟩ := spWriteAt_of_clean slot h
  rw [he] at herrs ⊢
  have hmem (q : Nat × Byte) : q ∈ atCore core l ↔ ∃ p ∈ wr, (spAddr core p.1, p.2) = q := by simp only [atCore, List.mem_map, hl]
  refine ⟨rfl, herrs, fun p hp hone => ?_, fun a ha => ?_⟩
  · refine read_writesAt (fun q hq e => ?_) (.inl ⟨_, (hmem _).mpr ⟨p, hp, rfl⟩, rfl⟩)
    obtain ⟨r, hr, rfl⟩ := (hmem q).mp hq
    exact hone r hr e
  · refine read_writesAt_other _ (fun q hq e => ha ?_)
    obtain ⟨r, hr, rfl⟩ := (hmem q).mp hq
    exact ⟨r, hr, e.symm⟩

/-! ### Elements as numbers (R10) -/

theorem leNat_map (f : Nat → Byte) (n : Nat) : leNat ((List.range n).map f) = ((List.range n).map (fun k => (f k).toNat * 256 ^ k)).sum := by
  induction n generalizing f with
  | zero => rfl
  | succ n ih =>
    rw [List.range_succ_eq_map, List.map_cons, List.map_map, leNat, ih, List.map_cons, List.map_map, List.sum_cons, ← List.sum_map_mul_left]
    refine congrArg₂ (· + ·) (by simp) (congrArg List.sum (List.map_congr_left (fun k _ => ?_)))
    simp only [Function.comp_apply, Nat.succ_eq_add_one, Nat.pow_succ]
    ring

/-! ### An aligned element lies in one code word -/

theorem aligned_end {a n : Nat} (hn : n = 8 ∨ n = 4) (ha : a < 2 ^ 18) (hal : a % n = 0) : a + n ≤ 2 ^ 18 := by
  rcases hn with rfl | rfl <;> omega

theorem clean_of_aligned {a n : Nat} (hn : n = 8 ∨ n = 4) (ha : a < 2 ^ 18) (hal : a % n = 0) (h : s.wordErr core (s.codeWord core a) = 0) :
    Clean s core ((List.range n).map (fun k => a + k)) := fun o ho => by
  obtain ⟨k, hk, rfl⟩ := List.mem_map.mp ho
  have hk := List.mem_range.mp hk
  have hend := aligned_end hn ha hal
  have hmod : (a + k) % 2 ^ 18 = a + k ∧ a % 2 ^ 18 = a := by omega
  have hword : (a + k) / 0x4000 = a / 0x4000 ∧ (a + k) / 16 = a / 16 ∧ (a + k) / 8 = a / 8 := by
    rcases hn with rfl | rfl <;> omega
  have hcw : s.codeWord core (a + k) = s.codeWord core a := by simp only [State.codeWord, State.wClass, hmod, hword]
  rw [hcw]
  exact h

end

/-! ### A store, and the next word -/

/-- The bytes of `wr` stored in the core's scratchpad, the hand at the next word, nothing else changed. -/
structure Stored (s t : State) (core : CoreId) (wr : List (Nat × Byte)) : Prop where
  bytes : ∀ p ∈ wr, (∀ q ∈ wr, spAddr core.val q.1 = spAddr core.val p.1 → q.2 = p.2) → t.byte (spAddr core.val p.1) = p.2
  others : BytesKept s t (fun x => ∃ p ∈ wr, x = spAddr core.val p.1)
  next : NextWord s t core
  frame : { t with fields := s.fields, mem := s.mem, errs := s.errs } = s
  kept : Kept s t (fun k => k = pcKey core)
  errs : ∀ k, Store.getD t.errs k 0 = Store.getD s.errs k 0

/-- A state with the registers, the memory and the latent errors of another. -/
def State.padOf (t s : State) : State := { t with fields := s.fields, mem := s.mem, errs := s.errs }

theorem class_ne_pc (core : CoreId) : Reg.SP_CLASS.CLASS.key core.val 0 ≠ pcKey core := Fld.key_ne rfl (by decide) (by decide) (.inl (by decide))

theorem advance_stored {s : State} {core : CoreId} (hpc : s.rd Reg.HND_STAT.PC core.val < 2047) (slot : Nat) {wr : List (Nat × Byte)}
    (hc : Clean s core.val (wr.map Prod.fst)) : Stored s ((s.advance core.val).spWriteAt core.val slot wr) core wr := by
  obtain ⟨hframe, hkept, -⟩ := advance_only s core hpc
  have hw := spWriteAt_writes slot (hc.congr (u := s.advance core.val) (congrArg State.errs hframe :)
    (hkept.rd _ _ _ (by simpa using class_ne_pc core)))
  have hfields : ((s.advance core.val).spWriteAt core.val slot wr).fields = (s.advance core.val).fields := (congrArg State.fields hw.frame :)
  exact {
    bytes := hw.bytes
    others := fun y hy => (hw.others y hy).trans (BytesKept.of_mem (congrArg State.mem hframe :) (fun _ => False) y id)
    next := (State.rd_congr hfields ..).trans (advance_pc s core hpc)
    frame := (congrArg (State.padOf · s) hw.frame).trans (congrArg (State.padOf · s) hframe :)
    kept := fun k hk => (congrArg (Store.get · k) hfields).trans (hkept k (by simpa using hk))
    errs := fun k => (hw.errs k).trans (congrArg (fun u : State => Store.getD u.errs k 0) hframe :) }

/-! ## Loads and stores of the hand (R98, R111) -/

section
variable {con : CoreId → HandWord → Instr} {op : BitVec 8} {n : Nat} {core : CoreId} {w : HandWord} {s : State}

theorem hAddr_lt (s : State) (core : Nat) (w : HandWord) : s.hAddr core w < 2 ^ 18 := Nat.mod_lt _ (by decide)

theorem handLoad_loads (he : ∀ core w s, exec (con core w) s = handLoad op n core w s) (hn : n = 8 ∨ n = 4) (hr : Ready s core) (h0 : w.rsv = 0)
    (hal : s.hAddr core.val w % n = 0) (herr : s.wordErr core.val (s.codeWord core.val (s.hAddr core.val w)) = 0) (h2 : w.hs2 = 0) :
    ∃ t, exec (con core w) s = .next t ∧
      HandResult s t core w.hd
        (BitVec.ofNat 64 (((List.range n).map (fun k => (s.byte (spAddr core.val (s.hAddr core.val w + k))).toNat * 256 ^ k)).sum)) ∧
      NextWord s t core ∧ OnlyFields s t (pcKey core :: hKeys core w.hd) := by
  have hok : (handFields w true true false && decide (s.hAddr core.val w % n = 0)) = true := by simp [handFields, h0, h2, hal]
  have hc := clean_of_aligned hn (hAddr_lt s core.val w) hal herr
  obtain ⟨x, hx⟩ : ∃ x, x = BitVec.ofNat 64 (leNat (s.spBytes core.val (s.hAddr core.val w) n)) := ⟨_, rfl⟩
  obtain ⟨hhand, hnext, honly⟩ := setH_advance hr.2 w.hd x
  have hc' := hc.congr (u := (s.setH core.val w.hd.toNat x).advance core.val) (congrArg State.errs honly.1 :)
    (honly.rd _ _ _ (fun hm => ?onlyHand))
  case onlyHand =>
    rcases List.mem_cons.mp hm with e | hm
    · exact class_ne_pc core e
    · exact (show Reg.SP_CLASS.CLASS.besideHand by decide).key_ne core core w.hd (mem_hKeys.mp hm).2.symm
  refine ⟨(s.setH core.val w.hd.toNat x).advance core.val, ?_, ?_, hnext, honly⟩
  · have heff : ((s.setH core.val w.hd.toNat x).advance core.val).readEffects core.val (s.hAddr core.val w) n 3 = _ :=
      congrArg Prod.snd (spRead_of_clean 3 hc')
    rw [he, handLoad, hok, issue_of_ok hr.1, spRead_of_clean 3 hc]
    dsimp only
    rw [← hx, heff]
  · rw [← leNat_map, ← State.spBytes, ← hx]
    exact hhand

theorem handStore_stores (he : ∀ core w s, exec (con core w) s = handStore op n core w s) (hn : n = 8 ∨ n = 4) (hr : Ready s core) (h0 : w.rsv = 0)
    (hal : s.hAddr core.val w % n = 0) (herr : s.wordErr core.val (s.codeWord core.val (s.hAddr core.val w)) = 0) (hd : w.hd = 0) :
    ∃ t, exec (con core w) s = .next t ∧
      (∀ k < n, t.byte (spAddr core.val (s.hAddr core.val w + k)) = BitVec.ofNat 8 ((s.h core.val w.hs2.toNat).toNat / 256 ^ k)) ∧
      BytesKept s t (fun x => ∃ k < n, x = spAddr core.val (s.hAddr core.val w + k)) ∧
      NextWord s t core ∧ { t with fields := s.fields, mem := s.mem, errs := s.errs } = s ∧
      Kept s t (fun k => k = pcKey core) ∧ ∀ k, Store.getD t.errs k 0 = Store.getD s.errs k 0 := by
  obtain ⟨a, ha⟩ : ∃ a, a = s.hAddr core.val w := ⟨_, rfl⟩
  obtain ⟨x, hx⟩ : ∃ x, x = (s.h core.val w.hs2.toNat).toNat := ⟨_, rfl⟩
  rw [← ha] at hal herr ⊢
  rw [← hx]
  have ha18 : a < 2 ^ 18 := ha ▸ hAddr_lt s core.val w
  have hok : (handFields w false true true && decide (a % n = 0)) = true := by simp [handFields, h0, hd, hal]
  obtain ⟨wr, hwr⟩ : ∃ wr, wr = (List.range n).map (fun k => (a + k, BitVec.ofNat 8 (x / 256 ^ k))) := ⟨_, rfl⟩
  have hzip : ((List.range (leBytes n x).length).map (fun k => a + k)).zip (leBytes n x) = wr := by
    rw [leBytes_eq_map, List.length_map, List.length_range, List.zip_map', hwr]
  have hmem (p : Nat × Byte) : p ∈ wr ↔ ∃ k < n, (a + k, BitVec.ofNat 8 (x / 256 ^ k)) = p := by simp [hwr]
  have hc : Clean s core.val (wr.map Prod.fst) := by
    rw [hwr, List.map_map]
    exact clean_of_aligned hn ha18 hal herr
  have hst := advance_stored hr.2 5 hc
  refine ⟨(s.advance core.val).spWriteAt core.val 5 wr, ?exec, fun k hk => ?byte, fun y hy => ?others, hst.next, hst.frame, hst.kept, hst.errs⟩
  case exec => rw [he, handStore, ← ha, hok, issue_of_ok hr.1, State.hs2, ← hx, State.spWrite, hzip]
  case byte =>
    refine hst.bytes _ ((hmem _).mpr ⟨k, hk, rfl⟩) (fun q hq e => ?_)
    obtain ⟨j, hj, rfl⟩ := (hmem q).mp hq
    have hend := aligned_end hn ha18 hal
    have : a + j = a + k := spAddr_inj (by omega) (by omega) e
    rw [show j = k by omega]
  case others =>
    refine hst.others y ?_
    rintro ⟨p, hp, rfl⟩
    obtain ⟨k, hk, rfl⟩ := (hmem p).mp hp
    exact hy ⟨k, hk, rfl⟩

end

/-- Settles O4: the loads and the stores, of 8 bytes and of 4. -/
theorem handLoadsAndStores : Obligations.HandLoadsAndStores := by
  unfold Obligations.HandLoadsAndStores
  simp only [List.forall_mem_cons]
  refine ⟨fun core w s hr h0 hal herr => ⟨?ld, ?st⟩, fun core w s hr h0 hal herr => ⟨?ldw, ?stw⟩, fun _ h => nomatch h⟩
  case ld => exact handLoad_loads (fun _ _ _ => rfl) (.inl rfl) hr h0 hal herr
  case st => exact handStore_stores (fun _ _ _ => rfl) (.inl rfl) hr h0 hal herr
  case ldw => exact handLoad_loads (fun _ _ _ => rfl) (.inr rfl) hr h0 hal herr
  case stw => exact handStore_stores (fun _ _ _ => rfl) (.inr rfl) hr h0 hal herr

end Sys2Proof.Machine

namespace Sys2Proof.Machine

/-! ## Lane-wise operations (R100-R103) -/

/-! ### What a lane-wise instruction leaves -/

theorem lane_lt (w : Nat) (x : VWord) (i : Nat) : lane w x i < 2 ^ w := Nat.mod_lt _ (Nat.two_pow_pos w)

/-- The lanes an instruction works on lie in the register (R100). -/
theorem activeLanes_fit {s : State} {core : CoreId} {w n : Nat} (hn : n = activeLanes s core w) : w * (0 + n) ≤ 1024 := by
  have hle : n ≤ 1024 / w := hn ▸ Nat.min_le_right ..
  rw [Nat.zero_add]
  exact (Nat.mul_le_mul_left w hle).trans (Nat.mul_div_le ..)

/-- A lane function has the results and the flag of an operation of R102, and no other flag. -/
def LaneOp.Gives (p : LaneOp) (f : Nat → Nat → Nat → Nat → LaneOut) : Prop :=
  ∀ ty ∈ p.types, ∀ a < 2 ^ typeWidth ty, ∀ b < 2 ^ typeWidth ty, ∀ c < 2 ^ typeWidth ty,
    (f ty a b c).val % 2 ^ typeWidth ty = p.val ty a b c % 2 ^ typeWidth ty ∧ ((f ty a b c).isat = true ↔ p.sat ty a b c) ∧
      (f ty a b c).fsat = false ∧ (f ty a b c).oor = false

theorem vecOk_of_legal {w : VecWord} {types : List Nat} {use2 use3 mem : Bool} (hty : w.ty.toNat ∈ types) (h0 : w.rsv = 0)
    (h2 : use2 = false → w.vs2 = 0 ∧ w.bc = 0) (h3 : use3 = false → w.vs3 = 0) : vecOk w types use2 use3 mem = true := by
  have hvs2 : (use2 || decide (w.vs2 = 0)) = true := by
    cases use2
    · simp [(h2 rfl).1]
    · rfl
  have hbc : (use2 || mem || decide (w.bc = 0)) = true := by
    cases use2
    · simp [(h2 rfl).2]
    · rfl
  have hvs3 : (use3 || decide (w.vs3 = 0)) = true := by
    cases use3
    · simp [h3 rfl]
    · rfl
  rw [vecOk, List.contains_iff_mem.mpr hty, hvs2, hvs3, hbc, h0]
  rfl

theorem LaneOp.Gives.completes {p : LaneOp} {f : Nat → Nat → Nat → Nat → LaneOut} (hf : p.Gives f) {op : BitVec 8}
    (he : ∀ core w s, exec (p.con core w) s = vecLanes op p.types p.use2 p.use3 f core w s) : p.Completes := by
  intro core w s hr hty h0 h2 h3 wd a b c
  obtain ⟨n, hn⟩ : ∃ n, n = activeLanes s core wd := ⟨_, rfl⟩
  have hvn : s.vn core.val wd = n := hn.symm
  have hlane (k : Nat) := hf w.ty.toNat hty (a k) (lane_lt ..) (b k) (lane_lt ..) (c k) (lane_lt ..)
  have hflag (q : LaneOut → Bool) (hq : ∀ k, q (f w.ty.toNat (a k) (b k) (c k)) = false) :
      ((List.range n).map (fun k => f w.ty.toNat (a k) (b k) (c k))).any q = false := by simp [hq]
  have hstep : exec (p.con core w) s = .next ((s.vecEffect n core.val w.vd.toNat
      (setLanes wd 0 n (s.v core.val w.vd.toNat) (fun i => (f w.ty.toNat (a (0 + i)) (b (0 + i)) (c (0 + i))).val))
      ((List.range n).any (fun k => (f w.ty.toNat (a k) (b k) (c k)).isat)) false false).advance core.val) := by
    rw [he, vecLanes, vecOk_of_legal hty h0 h2 h3, issueNext_of_ok hr.1]
    dsimp only
    rw [hvn, hflag _ (fun k => (hlane k).2.2.1), hflag _ (fun k => (hlane k).2.2.2), mapLanes_eq_setLanes, List.any_map]
    simp only [Nat.zero_add]
    rfl
  have hleaves := vecEffect_leaves (fs := [Reg.VSTAT.ISAT]) (n := n) (vd := w.vd)
    (x := setLanes wd 0 n (s.v core.val w.vd.toNat) (fun i => (f w.ty.toNat (a (0 + i)) (b (0 + i)) (c (0 + i))).val))
    (isat := (List.range n).any (fun k => (f w.ty.toNat (a k) (b k) (c k)).isat)) (fsat := false) (stoch := false) hr
    (by rintro rfl; exact ⟨rfl, rfl, rfl⟩) (by decide) (by simp) (by simp) (by simp)
  have hlanes := hleaves.lanesAre (f := fun k => (f w.ty.toNat (a k) (b k) (c k)).val) (activeLanes_fit hn)
  refine ⟨_, hstep, fun k hk => ⟨fun hlt => ?_, fun hge => (hlanes k hk).2 (by omega)⟩, ?_, hleaves.next, hleaves.only⟩
  · exact ((hlanes k hk).1 (by omega)).trans (hlane k).1
  · rw [← hn]
    exact hleaves.isat.congr (by simp only [any_range_iff, (hlane _).2.1])

/-! ### Lane functions: plain, wrapping, saturating -/

section
variable {con : CoreId → VecWord → Instr} {types : List Nat} {use2 use3 : Bool}

theorem gives_plain {v v' : Nat → Nat → Nat → Nat → Nat}
    (h : ∀ ty ∈ types, ∀ a < 2 ^ typeWidth ty, ∀ b < 2 ^ typeWidth ty, ∀ c, v ty a b c % 2 ^ typeWidth ty = v' ty a b c % 2 ^ typeWidth ty) :
    LaneOp.Gives ⟨con, types, use2, use3, v', fun _ _ _ _ => False⟩ (fun ty a b c => plain (v ty a b c)) :=
  fun ty hty a ha b hb c _ => ⟨h ty hty a ha b hb c, by simp [plain], rfl, rfl⟩
theorem gives_same (v : Nat → Nat → Nat → Nat → Nat) :
    LaneOp.Gives ⟨con, types, use2, use3, v, fun _ _ _ _ => False⟩ (fun ty a b c => plain (v ty a b c)) :=
  gives_plain (fun _ _ _ _ _ _ _ => rfl)

theorem wrapInt_of_modEq {w : Nat} {x : Int} {y : Nat} (h : x ≡ y [ZMOD (2 ^ w : Nat)]) : wrapInt w x = y % 2 ^ w := by
  rw [wrapInt, h, ← Int.natCast_mod, Int.toNat_natCast]

theorem sint_modEq (w x : Nat) : sint w x ≡ x [ZMOD (2 ^ w : Nat)] := by
  have hmod : ((x % 2 ^ w : Nat) : Int) ≡ x [ZMOD (2 ^ w : Nat)] := by
    rw [Int.natCast_mod]
    exact Int.mod_modEq ..
  unfold sint
  split
  · exact hmod
  · exact (Int.modEq_sub_modulus_iff.mpr hmod.symm).symm
theorem elemInt_modEq (ty x : Nat) : elemInt ty x ≡ x [ZMOD (2 ^ typeWidth ty : Nat)] := by
  unfold elemInt
  split
  · exact sint_modEq ..
  · exact Int.ModEq.refl _
theorem wrapInt_elemInt (ty x : Nat) : wrapInt (typeWidth ty) (elemInt ty x) = x % 2 ^ typeWidth ty := wrapInt_of_modEq (elemInt_modEq ..)
theorem elemInt_inj {ty a b : Nat} (ha : a < 2 ^ typeWidth ty) (hb : b < 2 ^ typeWidth ty) : elemInt ty a = elemInt ty b ↔ a = b := by
  refine ⟨fun h => ?_, fun h => h ▸ rfl⟩
  have := wrapInt_elemInt ty a
  rwa [h, wrapInt_elemInt, Nat.mod_eq_of_lt ha, Nat.mod_eq_of_lt hb, eq_comm] at this

theorem gives_wrap {x : Nat → Int → Int → Int} {v : Nat → Nat → Nat → Nat → Nat}
    (h : ∀ ty, ∀ a < 2 ^ typeWidth ty, ∀ b < 2 ^ typeWidth ty, ∀ c,
      x ty (elemInt ty a) (elemInt ty b) ≡ (v ty a b c : Nat) [ZMOD (2 ^ typeWidth ty : Nat)]) :
    LaneOp.Gives ⟨con, types, use2, use3, v, fun _ _ _ _ => False⟩ (fun ty a b _ => wrapElem ty (x ty (elemInt ty a) (elemInt ty b))) :=
  gives_plain (fun ty _ a ha b hb c => by rw [wrapInt_of_modEq (h ty a ha b hb c), Nat.mod_mod])

theorem elemMin_le_elemMax (ty : Nat) : elemMin ty ≤ elemMax ty := by
  have h1 : (1 : Int) ≤ 2 ^ (typeWidth ty - 1) := one_le_pow₀ (by decide)
  have h2 : (1 : Int) ≤ 2 ^ typeWidth ty := one_le_pow₀ (by decide)
  unfold elemMin elemMax
  split <;> omega
theorem clampInt_eq {lo hi : Int} (h : lo ≤ hi) (x : Int) : clampInt lo hi x = max lo (min hi x) := by
  unfold clampInt
  split
  · omega
  · split <;> omega
theorem satElem_eq (ty : Nat) (x : Int) : satElem ty x =
    { val := wrapInt (typeWidth ty) (max (elemMin ty) (min (elemMax ty) x)), isat := decide (x < elemMin ty) || decide (elemMax ty < x) } := by
  have hlo : (if tySigned ty then -((2 ^ (typeWidth ty - 1) : Nat) : Int) else 0) = elemMin ty := by simp [elemMin]
  have hhi : (if tySigned ty then ((2 ^ (typeWidth ty - 1) : Nat) : Int) - 1 else ((2 ^ typeWidth ty : Nat) : Int) - 1) = elemMax ty := by
    simp [elemMax]
  rw [← clampInt_eq (elemMin_le_elemMax ty), satElem, hlo, hhi]

theorem gives_sat (x : Nat → Nat → Nat → Int) :
    LaneOp.Gives ⟨con, types, use2, use3, fun ty a b _ => wrapInt (typeWidth ty) (max (elemMin ty) (min (elemMax ty) (x ty a b))),
      fun ty a b _ => x ty a b < elemMin ty ∨ elemMax ty < x ty a b⟩ (fun ty a b _ => satElem ty (x ty a b)) := by
  intro ty _ a _ b _ c _
  dsimp only
  rw [satElem_eq]
  exact ⟨rfl, by simp, rfl, rfl⟩

end

/-! ### Comparisons of floats -/

theorem FVal.lt_asymm {x y : FVal} (h : FVal.lt x y = true) : FVal.lt y x = false := by
  cases x with
  | nan => simp [FVal.lt] at h
  | inf p =>
    cases y with
    | nan => simp [FVal.lt] at h
    | inf q => simp_all [FVal.lt]
    | fin q m e => simp_all [FVal.lt]
  | fin p m e =>
    cases y with
    | nan => simp [FVal.lt] at h
    | inf q => simp_all [FVal.lt]
    | fin q n d =>
      have hmin : (if d < e then d else e) = if e < d then e else d := by split <;> split <;> omega
      simp only [FVal.lt, decide_eq_true_eq, decide_eq_false_iff_not, hmin] at h ⊢
      omega

theorem FVal.eqv_of_numbers {x y : FVal} (hx : x.isNan = false) (hy : y.isNan = false) : FVal.eqv x y = (!FVal.lt x y && !FVal.lt y x) := by
  cases x <;> cases y <;> simp_all [FVal.isNan, FVal.eqv]
theorem FVal.lt_or_eqv (x y : FVal) : (FVal.lt x y || FVal.eqv x y) = true ↔ x.isNan = false ∧ y.isNan = false ∧ FVal.lt y x = false := by
  by_cases h : x.isNan = false ∧ y.isNan = false
  · rw [FVal.eqv_of_numbers h.1 h.2]
    cases hlt : FVal.lt x y
    · simp [h]
    · simp [h, FVal.lt_asymm hlt]
  · have hnan : x = .nan ∨ y = .nan := by
      cases x <;> cases y <;> simp_all [FVal.isNan]
    rcases hnan with rfl | rfl
    · simp [FVal.lt, FVal.eqv, FVal.isNan]
    · cases x <;> simp [FVal.lt, FVal.eqv, FVal.isNan]

/-! ### The statement on integer and bitwise operations -/

section
variable {ty a b : Nat}

theorem min_lane_modEq : (if elemInt ty a < elemInt ty b then elemInt ty a else elemInt ty b) ≡
    ((if elemInt ty a ≤ elemInt ty b then a else b : Nat) : Int) [ZMOD (2 ^ typeWidth ty : Nat)] := by
  rcases lt_trichotomy (elemInt ty a) (elemInt ty b) with h | h | h
  · rw [if_pos h, if_pos h.le]
    exact elemInt_modEq ..
  · rw [if_neg h.not_lt, if_pos h.le, ← h]
    exact elemInt_modEq ..
  · rw [if_neg h.not_gt, if_neg h.not_ge]
    exact elemInt_modEq ..
theorem max_lane_modEq : (if elemInt ty a < elemInt ty b then elemInt ty b else elemInt ty a) ≡
    ((if elemInt ty a ≤ elemInt ty b then b else a : Nat) : Int) [ZMOD (2 ^ typeWidth ty : Nat)] := by
  rcases lt_trichotomy (elemInt ty a) (elemInt ty b) with h | h | h
  · rw [if_pos h, if_pos h.le]
    exact elemInt_modEq ..
  · rw [if_neg h.not_lt, if_pos h.le, h]
    exact elemInt_modEq ..
  · rw [if_neg h.not_gt, if_neg h.not_ge]
    exact elemInt_modEq ..
theorem sub_lane_modEq (hb : b < 2 ^ typeWidth ty) :
    elemInt ty a - elemInt ty b ≡ ((a + 2 ^ typeWidth ty - b : Nat) : Int) [ZMOD (2 ^ typeWidth ty : Nat)] := by
  rw [Nat.cast_sub (hb.le.trans (Nat.le_add_left ..)), Nat.cast_add, add_sub_right_comm]
  exact ((elemInt_modEq ty a).sub (elemInt_modEq ty b)).trans (Int.add_modulus_modEq_iff.mpr (Int.ModEq.refl _)).symm

/-- All ones where the condition of the statement holds. -/
theorem gives_mask {con : CoreId → VecWord → Instr} {m : Nat → Nat → Nat → Bool} {P : Nat → Nat → Nat → Prop} [∀ ty a b, Decidable (P ty a b)]
    (h : ∀ ty, ∀ a < 2 ^ typeWidth ty, ∀ b < 2 ^ typeWidth ty, m ty a b = true ↔ P ty a b) :
    LaneOp.Gives ⟨con, tysAny, true, false, fun ty a b _ => if P ty a b then 2 ^ typeWidth ty - 1 else 0, fun _ _ _ _ => False⟩
      (fun ty a b _ => maskLane ty (m ty a b)) :=
  gives_plain (fun ty _ a ha b hb c => by simp only [h ty a ha b hb])

/-- The rounding addend of VSRAR: none for a shift by 0. -/
theorem round_shift (x : Int) (k : Nat) : (x + if k = 0 then 0 else ((2 ^ (k - 1) : Nat) : Int)) / ((2 ^ k : Nat) : Int) =
    if k = 0 then x else (x + 2 ^ (k - 1)) / 2 ^ k := by
  split
  · next h => simp [h]
  · push_cast
    rfl

/-- A comparison by TYPE: of integers or of floats. -/
theorem cmp_iff {ty : Nat} {fi ff : Bool} {Pi Pf : Prop} (hi : fi = true ↔ Pi) (hf : ff = true ↔ Pf) :
    (if tyInt ty then fi else ff) = true ↔ (tyInt ty = true ∧ Pi) ∨ (tyInt ty = false ∧ Pf) := by
  cases tyInt ty <;> simp [hi, hf]

end

/-- Settles O6: each operation is `vecLanes` over a lane function, and what `vecLanes` leaves is said once by `LaneOp.Gives.completes`. -/
theorem vectorIntegerAndBitLanes : Obligations.VectorIntegerAndBitLanes := by
  unfold Obligations.VectorIntegerAndBitLanes
  simp only [List.forall_mem_cons]
  refine ⟨⟨?vadd, ?vsub, ?vadds, ?vsubs, ?vmuls, ?vmul, ?vmin, ?vmax, ?vshl, ?vshr, ?vsra, ?vshls, ?vsrar, fun _ h => nomatch h⟩,
    ?vand, ?vor, ?vxor, ?vandn, ?vceq, ?vclt, ?vcle, ?vsel, fun _ h => nomatch h⟩
  case vadd =>
    exact (gives_wrap (x := fun _ x y => x + y) (fun ty a _ b _ _ => (elemInt_modEq ty a).add (elemInt_modEq ty b))).completes (fun _ _ _ => rfl)
  case vsub =>
    exact (gives_wrap (x := fun _ x y => x - y) (fun _ _ _ _ hb _ => sub_lane_modEq hb)).completes (fun _ _ _ => rfl)
  case vadds => exact (gives_sat (fun ty a b => elemInt ty a + elemInt ty b)).completes (fun _ _ _ => rfl)
  case vsubs => exact (gives_sat (fun ty a b => elemInt ty a - elemInt ty b)).completes (fun _ _ _ => rfl)
  case vmuls => exact (gives_sat (fun ty a b => elemInt ty a * elemInt ty b)).completes (fun _ _ _ => rfl)
  case vmul =>
    exact (gives_wrap (x := fun _ x y => x * y) (fun ty a _ b _ _ => (elemInt_modEq ty a).mul (elemInt_modEq ty b))).completes (fun _ _ _ => rfl)
  case vmin => exact (gives_wrap (x := fun _ x y => if x < y then x else y) (fun _ _ _ _ _ _ => min_lane_modEq)).completes (fun _ _ _ => rfl)
  case vmax => exact (gives_wrap (x := fun _ x y => if x < y then y else x) (fun _ _ _ _ _ _ => max_lane_modEq)).completes (fun _ _ _ => rfl)
  case vshl | vshr | vand | vor | vxor | vandn => exact (gives_same _).completes (fun _ _ _ => rfl)
  case vsra =>
    refine LaneOp.Gives.completes (f := fun ty a b _ => wrapElem ty (elemInt ty a / ((2 ^ (b % typeWidth ty) : Nat) : Int))) ?_ (fun _ _ _ => rfl)
    simp only [Nat.cast_pow, Nat.cast_ofNat]
    exact gives_same _
  case vshls =>
    refine LaneOp.Gives.completes (f := fun ty a b _ => satElem ty (elemInt ty a * ((2 ^ (b % typeWidth ty) : Nat) : Int))) ?_ (fun _ _ _ => rfl)
    simp only [Nat.cast_pow, Nat.cast_ofNat]
    exact gives_sat _
  case vsrar =>
    refine (gives_plain (v := fun ty a b _ => wrapInt (typeWidth ty)
      ((elemInt ty a + if b % typeWidth ty = 0 then 0 else ((2 ^ (b % typeWidth ty - 1) : Nat) : Int)) / ((2 ^ (b % typeWidth ty) : Nat) : Int)))
      (fun ty _ a _ b _ _ => ?_)).completes (fun _ _ _ => rfl)
    simp only [round_shift]
  case vceq =>
    exact (gives_mask (fun ty a ha b hb => cmp_iff (decide_eq_true_iff.trans (elemInt_inj ha hb)) Iff.rfl)).completes (fun _ _ _ => rfl)
  case vclt =>
    exact (gives_mask (fun ty a ha b hb => cmp_iff decide_eq_true_iff Iff.rfl)).completes (fun _ _ _ => rfl)
  case vcle =>
    exact (gives_mask (fun ty a ha b hb => cmp_iff decide_eq_true_iff (FVal.lt_or_eqv ..))).completes (fun _ _ _ => rfl)
  case vsel =>
    refine (gives_plain (v := fun _ a b c => if c = 0 then b else a) (fun _ _ a _ b _ c => ?_)).completes (fun _ _ _ => rfl)
    rw [ite_not]

end Sys2Proof.Machine

namespace Sys2Proof.Machine

/-! ## Float operations (R102, R104) -/

/-! ### A code is its sign, its exponent and its mantissa (R71) -/

theorem mod_two_pow_add (a m n : Nat) : a % 2 ^ (m + n) = a % 2 ^ n + 2 ^ n * (a / 2 ^ n % 2 ^ m) := by
  rw [Nat.add_comm m n, Nat.pow_add, Nat.mod_mul]

section
variable {f : Fmt} {a b : Nat}

/-- The sign, the exponent and the mantissa of a code. -/
def Fmt.neg (f : Fmt) (a : Nat) : Bool := decide (bits a (f.eb + f.mb) 1 = 1)
def Fmt.ex (f : Fmt) (a : Nat) : Nat := bits a f.mb f.eb
def Fmt.man (f : Fmt) (a : Nat) : Nat := bits a 0 f.mb

theorem Fmt.man_lt (f : Fmt) (a : Nat) : f.man a < 2 ^ f.mb := Nat.mod_lt _ (Nat.two_pow_pos _)

/-- Codes with the same parts are the same. -/
theorem Fmt.code_ext (ha : a < 2 ^ (f.eb + f.mb + 1)) (hb : b < 2 ^ (f.eb + f.mb + 1)) (hs : f.neg a = f.neg b) (he : f.ex a = f.ex b)
    (hm : f.man a = f.man b) : a = b := by
  have hcode {x : Nat} (hx : x < 2 ^ (f.eb + f.mb + 1)) : x = f.man x + 2 ^ f.mb * f.ex x + 2 ^ (f.eb + f.mb) * (if f.neg x then 1 else 0) := by
    have hsign : x / 2 ^ (f.eb + f.mb) = if f.neg x then 1 else 0 := by
      have hlt : x / 2 ^ (f.eb + f.mb) < 2 := Nat.div_lt_of_lt_mul hx
      rcases Nat.le_one_iff_eq_zero_or_eq_one.mp (Nat.le_of_lt_succ hlt) with h | h <;> simp [Fmt.neg, bits, h]
    rw [← hsign, Fmt.man, Fmt.ex, bits, bits, Nat.pow_zero, Nat.div_one, ← mod_two_pow_add, Nat.mod_add_div]
  rw [hcode ha, hcode hb, hs, he, hm]

/-- The significand of a finite code. -/
def Fmt.sig (f : Fmt) (a : Nat) : Nat := if f.ex a = 0 then f.man a else 2 ^ f.mb + f.man a

theorem decode_of_ieee (hk : f.kind = .ieee) (a : Nat) : f.decode a =
    if f.ex a = 2 ^ f.eb - 1 then (if f.man a = 0 then .inf (f.neg a) else .nan)
    else .fin (f.neg a) (f.sig a) ((f.ex a - 1 : Nat) + (1 - (f.bias : Int) - f.mb)) := by
  have hfin : (if f.ex a = 0 then FVal.fin (f.neg a) (f.man a) (1 - (f.bias : Int) - f.mb)
      else .fin (f.neg a) (2 ^ f.mb + f.man a) ((f.ex a : Int) - f.bias - f.mb)) =
      .fin (f.neg a) (f.sig a) ((f.ex a - 1 : Nat) + (1 - (f.bias : Int) - f.mb)) := by
    unfold Fmt.sig
    split
    · next h => simp [h]
    · exact congrArg (FVal.fin _ _) (by omega)
  rw [← hfin, Fmt.decode, hk]
  rfl

/-- A code with the larger exponent has the larger magnitude. -/
theorem magnitude_lt (h : f.ex a < f.ex b) : f.sig a * 2 ^ (f.ex a - 1) < f.sig b * 2 ^ (f.ex b - 1) := by
  have hman := f.man_lt a
  have hb : 2 ^ f.mb ≤ f.sig b := by
    rw [Fmt.sig, if_neg (by omega)]
    exact Nat.le_add_right ..
  have ha : f.sig a * 2 ^ (f.ex a - 1) < 2 ^ f.mb * 2 ^ f.ex a := by
    by_cases h0 : f.ex a = 0
    · simpa [Fmt.sig, h0] using hman
    · rw [Fmt.sig, if_neg h0, show f.ex a = (f.ex a - 1) + 1 by omega, Nat.pow_succ', ← Nat.mul_assoc, Nat.add_sub_cancel]
      exact Nat.mul_lt_mul_of_pos_right (by omega) (Nat.two_pow_pos _)
  calc f.sig a * 2 ^ (f.ex a - 1) < 2 ^ f.mb * 2 ^ f.ex a := ha
    _ ≤ f.sig b * 2 ^ (f.ex b - 1) := Nat.mul_le_mul hb (Nat.pow_le_pow_right (by decide) (by omega))

/-- Codes of one magnitude have the same exponent and mantissa. -/
theorem magnitude_inj (h : f.sig a * 2 ^ (f.ex a - 1) = f.sig b * 2 ^ (f.ex b - 1)) : f.ex a = f.ex b ∧ f.man a = f.man b := by
  have he : f.ex a = f.ex b := by
    rcases lt_trichotomy (f.ex a) (f.ex b) with hlt | he | hlt
    · exact absurd h (magnitude_lt hlt).ne
    · exact he
    · exact absurd h (magnitude_lt hlt).ne'
  rw [he] at h
  have hsig := Nat.eq_of_mul_eq_mul_right (Nat.two_pow_pos _) h
  refine ⟨he, ?_⟩
  unfold Fmt.sig at hsig
  rw [he] at hsig
  split at hsig <;> omega

end

/-! ### The order of finite values -/

theorem signed_mul (n : Bool) (m k : Nat) : signed n (m * k) = signed n m * k := by
  cases n <;> simp [signed]

/-- Finite values compare as their mantissas at any exponent below both. -/
theorem lt_fin (p q : Bool) (m n d e : Nat) (c : Int) : FVal.lt (.fin p m (d + c)) (.fin q n (e + c)) =
    decide (signed p (m * 2 ^ d) < signed q (n * 2 ^ e)) := by
  have hmin : (if (d : Int) + c < e + c then (d : Int) + c else e + c) = (min d e : Nat) + c := by split <;> omega
  have hscale (x k : Nat) (hk : min d e ≤ k) : scaleNat x (k + c - ((min d e : Nat) + c)) = x * 2 ^ (k - min d e) := by
    rw [scaleNat, if_pos (by omega)]
    congr 2
    omega
  have hpow (k : Nat) (hk : min d e ≤ k) : 2 ^ k = 2 ^ (k - min d e) * 2 ^ min d e := by rw [← Nat.pow_add, Nat.sub_add_cancel hk]
  rw [FVal.lt]
  rw [hmin, hscale m d (Nat.min_le_left ..), hscale n e (Nat.min_le_right ..), hpow d (Nat.min_le_left ..), hpow e (Nat.min_le_right ..),
    ← Nat.mul_assoc, ← Nat.mul_assoc, signed_mul p (_ * _), signed_mul q (_ * _), decide_eq_decide]
  exact (Int.mul_lt_mul_right (by positivity)).symm

theorem lt_of_zeros {x y : FVal} (hx : x.isZero = true) (hy : y.isZero = true) : FVal.lt x y = false := by
  have hzero (n : Bool) (k : Int) : signed n (scaleNat 0 k) = 0 := by cases n <;> simp [signed, scaleNat]
  cases x with
  | nan | inf p => simp [FVal.isZero] at hx
  | fin p m d =>
    cases y with
    | nan | inf q => simp [FVal.isZero] at hy
    | fin q n e =>
      obtain rfl : m = 0 := by simpa [FVal.isZero] using hx
      obtain rfl : n = 0 := by simpa [FVal.isZero] using hy
      simp [FVal.lt, hzero]

theorem signed_eq {p q : Bool} {m n : Nat} (h : signed p m = signed q n) : m = n ∧ (p = q ∨ m = 0) := by
  cases p <;> cases q <;> simp [signed] at h ⊢ <;> omega

/-! ### Codes that compare as equal -/

section
variable {f : Fmt} {a b : Nat}

/-- Two numbers, neither less than the other: codes of one magnitude, and of one sign unless they are zeros. -/
theorem same_magnitude (hk : f.kind = .ieee) (ha : (f.decode a).isNan = false) (hb : (f.decode b).isNan = false)
    (h1 : FVal.lt (f.decode a) (f.decode b) = false) (h2 : FVal.lt (f.decode b) (f.decode a) = false) :
    f.ex a = f.ex b ∧ f.man a = f.man b ∧ (f.decode a).isNeg = f.neg a ∧ (f.decode b).isNeg = f.neg b ∧
      (f.neg a = f.neg b ∨ (f.decode a).isZero = true ∧ (f.decode b).isZero = true) := by
  rw [decode_of_ieee hk a] at *
  rw [decode_of_ieee hk b] at *
  have hinf {x : Nat} (he : f.ex x = 2 ^ f.eb - 1) (hx : (if f.ex x = 2 ^ f.eb - 1 then (if f.man x = 0 then FVal.inf (f.neg x) else .nan)
      else .fin (f.neg x) (f.sig x) ((f.ex x - 1 : Nat) + (1 - (f.bias : Int) - f.mb))).isNan = false) : f.man x = 0 := by
    by_contra h
    simp [he, h, FVal.isNan] at hx
  by_cases hea : f.ex a = 2 ^ f.eb - 1 <;> by_cases heb : f.ex b = 2 ^ f.eb - 1
  · simp only [hea, heb, hinf hea ha, hinf heb hb, if_true, FVal.lt, FVal.isNeg] at h1 h2 ⊢
    refine ⟨trivial, trivial, trivial, trivial, .inl ?_⟩
    revert h1 h2
    cases f.neg a <;> cases f.neg b <;> simp
  · simp only [if_pos hea, if_neg heb, hinf hea ha, if_true, FVal.lt] at h1 h2
    simp [h1] at h2
  · simp only [if_pos heb, if_neg hea, hinf heb hb, if_true, FVal.lt] at h1 h2
    simp [h2] at h1
  · simp only [if_neg hea, if_neg heb, lt_fin, decide_eq_false_iff_not, not_lt] at h1 h2 ⊢
    obtain ⟨hmag, hsign⟩ := signed_eq (le_antisymm h2 h1)
    obtain ⟨he, hm⟩ := magnitude_inj hmag
    refine ⟨he, hm, rfl, rfl, hsign.imp_right (fun h0 => ?_)⟩
    have hza : f.sig a = 0 := by simpa using h0
    have hzb : f.sig b = 0 := by simpa using hmag.symm.trans h0
    simp [FVal.isZero, hza, hzb]

/-- The choice of VFMIN and VFMAX by the order of the values, and between values of one magnitude by the sign of the first. -/
theorem floatPick_eq (hk : f.kind = .ieee) (ha : a < 2 ^ (f.eb + f.mb + 1)) (hb : b < 2 ^ (f.eb + f.mb + 1)) (larger : Bool) :
    floatPick f larger a b =
      if (f.decode a).isNan || (f.decode b).isNan then f.nanCode
      else if FVal.lt (f.decode a) (f.decode b) then (if larger then b else a)
      else if FVal.lt (f.decode b) (f.decode a) then (if larger then a else b)
      else if (f.decode a).isNeg then (if larger then b else a) else (if larger then a else b) := by
  unfold floatPick
  dsimp only
  by_cases hnan : ((f.decode a).isNan || (f.decode b).isNan) = true
  · rw [if_pos hnan, if_pos hnan]
  rw [if_neg hnan, if_neg hnan]
  simp only [Bool.or_eq_true, not_or, Bool.not_eq_true] at hnan
  cases hab : FVal.lt (f.decode a) (f.decode b)
  · cases hba : FVal.lt (f.decode b) (f.decode a)
    · obtain ⟨he, hm, hna, hnb, hsign⟩ := same_magnitude hk hnan.1 hnan.2 hab hba
      rcases hsign with hs | ⟨hza, hzb⟩
      · have := f.code_ext ha hb hs he hm
        subst this
        simp
      · simp only [hza, hzb, Bool.false_or, Bool.true_and, hna, hnb, Bool.false_eq_true, if_false]
        by_cases hs : f.neg a = f.neg b
        · have := f.code_ext ha hb hs he hm
          subst this
          simp
        · revert hs
          cases f.neg a <;> cases f.neg b <;> simp
    · have hz : ((f.decode a).isZero && (f.decode b).isZero) = false := by
        by_contra h
        simp only [Bool.not_eq_false, Bool.and_eq_true] at h
        rw [lt_of_zeros h.2 h.1] at hba
        exact absurd hba (by decide)
      simp [hz]
  · simp

end

/-! ### The lanes of a float TYPE -/

theorem tyFmt_of_float {ty : Nat} (h : ty ∈ tysFloat) : (ty = 6 ∧ tyFmt ty = bf16 ∧ typeWidth ty = 16) ∨ (ty = 7 ∧ tyFmt ty = fp32 ∧ typeWidth ty = 32) := by
  simp only [tysFloat, List.mem_cons, List.not_mem_nil, or_false] at h
  rcases h with rfl | rfl <;> decide
theorem float_ieee (ty : Nat) : (tyFmt ty).kind = .ieee := by
  unfold tyFmt
  split <;> rfl
theorem float_width {ty : Nat} (h : ty ∈ tysFloat) : (tyFmt ty).eb + (tyFmt ty).mb + 1 = typeWidth ty := by
  rcases tyFmt_of_float h with ⟨-, hf, hw⟩ | ⟨-, hf, hw⟩ <;> rw [hf, hw] <;> rfl
/-- The sign of a lane is its highest bit. -/
theorem float_sign {ty : Nat} (h : ty ∈ tysFloat) : (tyFmt ty).eb + (tyFmt ty).mb = typeWidth ty - 1 := by
  have := float_width h
  omega

theorem gives_pick {con : CoreId → VecWord → Instr} (larger : Bool) {v : Nat → Nat → Nat → Nat → Nat}
    (hv : ∀ ty a b c, v ty a b c = if ((tyFmt ty).decode a).isNan || ((tyFmt ty).decode b).isNan then (tyFmt ty).nanCode
      else if FVal.lt ((tyFmt ty).decode a) ((tyFmt ty).decode b) then (if larger then b else a)
      else if FVal.lt ((tyFmt ty).decode b) ((tyFmt ty).decode a) then (if larger then a else b)
      else if ((tyFmt ty).decode a).isNeg then (if larger then b else a) else (if larger then a else b)) :
    LaneOp.Gives ⟨con, tysFloat, true, false, v, fun _ _ _ _ => False⟩ (fun ty a b _ => plain (floatPick (tyFmt ty) larger a b)) :=
  gives_plain (fun ty hty a ha b hb c => by
    rw [hv, floatPick_eq (float_ieee ty) (float_width hty ▸ ha) (float_width hty ▸ hb)])

/-- VFSGN: one, of either sign, in the formats of the lanes. -/
theorem round_one {ty : Nat} (h : ty ∈ tysFloat) (n : Bool) : (tyFmt ty).round (.fin n 1 0) =
    (if n then 2 ^ (typeWidth ty - 1) else 0) + if ty = 6 then 0x3F80 else 0x3F800000 := by
  rcases tyFmt_of_float h with ⟨rfl, -, -⟩ | ⟨rfl, -, -⟩ <;> cases n <;> decide +kernel

/-- The sign bit inverted. -/
theorem invert_sign {a k : Nat} (ha : a < 2 ^ (k + 1)) : a % 2 ^ k + (1 - a / 2 ^ k % 2) * 2 ^ k = (a + 2 ^ k) % (2 * 2 ^ k) := by
  have hlt : a / 2 ^ k < 2 := Nat.div_lt_of_lt_mul ha
  have hmod := Nat.mod_lt a (Nat.two_pow_pos k)
  have hdiv := Nat.div_add_mod a (2 ^ k)
  rcases Nat.le_one_iff_eq_zero_or_eq_one.mp (Nat.le_of_lt_succ hlt) with h | h
  · rw [h] at hdiv ⊢
    rw [Nat.mod_eq_of_lt (show a + 2 ^ k < 2 * 2 ^ k by omega), Nat.zero_mod, Nat.sub_zero, Nat.one_mul]
    omega
  · rw [h] at hdiv ⊢
    rw [show a + 2 ^ k = a % 2 ^ k + 2 * 2 ^ k by omega, Nat.add_mod_right, Nat.mod_eq_of_lt (show a % 2 ^ k < 2 * 2 ^ k by omega),
      Nat.one_mod, Nat.sub_self, Nat.zero_mul, Nat.add_zero]

/-- Settles O7: the rounded operations are the lane functions of the statement themselves; the others act on codes. -/
theorem vectorFloatLanes : Obligations.VectorFloatLanes := by
  unfold Obligations.VectorFloatLanes
  intro D signBit
  simp only [List.forall_mem_cons]
  refine ⟨?vfadd, ?vfsub, ?vfmul, ?vfma, ?vfnma, ?vfmin, ?vfmax, ?vfsgn, ?vfabs, ?vfneg, fun _ h => nomatch h⟩
  case vfadd | vfsub | vfmul | vfma | vfnma => exact (gives_same _).completes (fun _ _ _ => rfl)
  case vfmin => exact (gives_pick false (fun _ _ _ _ => rfl)).completes (fun _ _ _ => rfl)
  case vfmax => exact (gives_pick true (fun _ _ _ _ => rfl)).completes (fun _ _ _ => rfl)
  case vfsgn =>
    refine (gives_plain (v := fun ty a _ _ => floatSign (tyFmt ty) a) (fun ty hty a _ _ _ _ => ?_)).completes (fun _ _ _ => rfl)
    simp only [floatSign, round_one hty, D, signBit]
  case vfabs =>
    refine (gives_plain (v := fun ty a _ _ => floatAbs (tyFmt ty) a) (fun ty hty a _ _ _ _ => ?_)).completes (fun _ _ _ => rfl)
    simp only [floatAbs, float_sign hty, bits, Nat.pow_zero, Nat.div_one, D, signBit]
  case vfneg =>
    refine (gives_plain (v := fun ty a _ _ => floatNeg (tyFmt ty) a) (fun ty hty a ha _ _ _ => ?_)).completes (fun _ _ _ => rfl)
    simp only [floatNeg, float_sign hty, bits, Nat.pow_zero, Nat.div_one, Nat.pow_one]
    rw [invert_sign (by rw [← float_sign hty, float_width hty]; exact ha)]

end Sys2Proof.Machine

namespace Sys2Proof.Machine

/-! ## The approximations (R105) -/

section
variable {x m : Nat} {n : Bool} {e : Int}

/-! ### Operands that are no numbers -/

theorem decode_of_isNan (h : (fp32.decode x).isNan = true) : fp32.decode x = .nan := by
  cases hd : fp32.decode x <;> simp [hd, FVal.isNan] at h ⊢

theorem approx_of_nan (h : fp32.decode x = .nan) :
    vexp2Code x = 0x7FC00000 ∧ vlog2Code x = 0x7FC00000 ∧ vrcpCode x = 0x7FC00000 ∧ vrsqCode x = 0x7FC00000 := by
  have hnan : fp32.nanCode = 0x7FC00000 := by decide
  simp only [vexp2Code, vlog2Code, vrcpCode, vrsqCode, h, hnan, and_self]

theorem vexp2Code_of_inf (h : fp32.decode x = .inf n) : vexp2Code x = if n then 0 else 0x7F800000 := by simp only [vexp2Code, h]
theorem vlog2Code_of_inf (h : fp32.decode x = .inf n) : vlog2Code x = if n then fp32.nanCode else 0x7F800000 := by simp only [vlog2Code, h]
theorem vrcpCode_of_inf (h : fp32.decode x = .inf n) : vrcpCode x = b2n n * 0x80000000 := by simp only [vrcpCode, h]
theorem vrsqCode_of_inf (h : fp32.decode x = .inf n) : vrsqCode x = if n then fp32.nanCode else 0 := by simp only [vrsqCode, h]

/-! ### Zeros and negative operands -/

theorem vlog2Code_of_zero (h : fp32.decode x = .fin n 0 e) : vlog2Code x = 0xFF800000 := by simp only [vlog2Code, h, if_true]
theorem vrcpCode_of_zero (h : fp32.decode x = .fin n 0 e) : vrcpCode x = b2n n * 0x80000000 + 0x7F800000 := by
  simp only [vrcpCode, h, if_true]
theorem vrsqCode_of_zero (h : fp32.decode x = .fin n 0 e) : vrsqCode x = if n then 0xFF800000 else 0x7F800000 := by
  simp only [vrsqCode, h, if_true]

/-- A value below zero is the negative infinity or a negative number other than −0. -/
theorem negative_cases {v : FVal} (h : FVal.lt v (.fin false 0 0) = true) : v = .inf true ∨ ∃ m e, m ≠ 0 ∧ v = .fin true m e := by
  have hzero (k : Int) : scaleNat 0 k = 0 := by simp [scaleNat]
  cases v with
  | nan => simp [FVal.lt] at h
  | inf n =>
    obtain rfl : n = true := h
    exact .inl rfl
  | fin n m e =>
    simp only [FVal.lt, decide_eq_true_eq, hzero] at h
    refine .inr ⟨m, e, fun hm => ?_, ?_⟩
    · rw [hm, hzero] at h
      cases n <;> simp [signed] at h
    · cases n
      · simp only [signed, Bool.false_eq_true, if_false] at h
        omega
      · rfl

theorem logs_of_negative (h : FVal.lt (fp32.decode x) (.fin false 0 0) = true) : vlog2Code x = 0x7FC00000 ∧ vrsqCode x = 0x7FC00000 := by
  have hnan : fp32.nanCode = 0x7FC00000 := by decide
  rcases negative_cases h with hx | ⟨m, e, hm, hx⟩
  · simp only [vlog2Code_of_inf hx, vrsqCode_of_inf hx, hnan, if_true, and_self]
  · simp only [vlog2Code, vrsqCode, hx, hm, hnan, if_true, if_false, and_self]

/-! ### The bound of VRCP -/

theorem within_cases (ok : Bool) (cand comp : Nat) : (within ok cand comp = cand ∧ ok = true) ∨ within ok cand comp = comp := by
  cases ok
  · exact .inr rfl
  · exact .inl ⟨rfl, rfl⟩

theorem vrcpCode_of_number (h : fp32.decode x = .fin n m e) (hm : m ≠ 0) :
    (vrcpCode x = (Config.vrcp (BitVec.ofNat 32 x)).toNat ∧
      nearRel (FVal.mul (fp32.decode (vrcpCode x)) (fp32.decode x)) (.fin false 1 0) (.fin false 1 0) = true) ∨
    vrcpCode x = fp32.round (recipRef (fp32.decode x)) := by
  rw [h]
  have hcode : ∃ ok, vrcpCode x = within ok (Config.vrcp (BitVec.ofNat 32 x)).toNat (fp32.round (recipRef (.fin n m e))) ∧ (ok = true →
      nearRel (FVal.mul (fp32.decode (Config.vrcp (BitVec.ofNat 32 x)).toNat) (.fin n m e)) (.fin false 1 0) (.fin false 1 0) = true) := by
    refine ⟨_, by simp only [vrcpCode, h, hm, if_false]; rfl, fun hok => ?_⟩
    simp only [Bool.and_eq_true] at hok
    exact hok.2
  obtain ⟨ok, hc, hnear⟩ := hcode
  rcases within_cases ok (Config.vrcp (BitVec.ofNat 32 x)).toNat (fp32.round (recipRef (.fin n m e))) with ⟨hw, hok⟩ | hw
  · rw [hc, hw]
    exact .inl ⟨rfl, hnear hok⟩
  · exact .inr (hc.trans hw)

end

/-! ### The statement -/

/-- An approximation of a lane: in FP32, and in BF16 of the operand widened, rounded once. -/
theorem approx_completes {con : CoreId → VecWord → Instr} {op : BitVec 8} {f : Nat → Nat}
    (he : ∀ core w s, exec (con core w) s = vecApprox op f core w s) :
    LaneOp.Completes ⟨con, tysFloat, false, false,
      fun ty a _ _ => if ty = 7 then f a else bf16.round (fp32.decode (f (a * 2 ^ 16))), fun _ _ _ _ => False⟩ := by
  refine (gives_plain (v := fun ty a _ _ => if tyFmt ty = fp32 then f a else bf16.round (fp32.decode (f (a * 2 ^ 16))))
    (fun ty hty a _ _ _ _ => ?_)).completes he
  have h : tyFmt ty = fp32 ↔ ty = 7 := by
    rcases tyFmt_of_float hty with ⟨rfl, -, -⟩ | ⟨rfl, -, -⟩ <;> decide
  simp only [h]

/-- Settles O8: the approximations by the class of their operand. -/
theorem vectorApproximations : Obligations.VectorApproximations := by
  have hpinf : fp32.decode 0x7F800000 = .inf false := by decide
  have hninf : fp32.decode 0xFF800000 = .inf true := by decide
  have hpzero : fp32.decode 0 = .fin false 0 (-149) := by decide
  have hnzero : fp32.decode 0x80000000 = .fin true 0 (-149) := by decide
  refine ⟨?lanes, fun x h => approx_of_nan (decode_of_isNan h), ⟨vexp2Code_of_inf hninf, vexp2Code_of_inf hpinf⟩,
    ⟨vlog2Code_of_zero hpzero, vlog2Code_of_zero hnzero, vlog2Code_of_inf hpinf⟩,
    ⟨vrcpCode_of_zero hpzero, vrcpCode_of_zero hnzero, vrcpCode_of_inf hpinf, vrcpCode_of_inf hninf⟩,
    ⟨vrsqCode_of_zero hpzero, vrsqCode_of_zero hnzero, vrsqCode_of_inf hpinf⟩, fun x h => logs_of_negative h,
    fun x m e n h hm => vrcpCode_of_number h hm⟩
  simp only [List.forall_mem_cons]
  exact ⟨approx_completes (fun _ _ _ => rfl), approx_completes (fun _ _ _ => rfl), approx_completes (fun _ _ _ => rfl),
    approx_completes (fun _ _ _ => rfl), fun _ h => nomatch h⟩

end Sys2Proof.Machine

namespace Sys2Proof.Machine

/-! ## Moves of a lane (R102) -/

section
variable {core : CoreId} {w : VecWord} {s t : State} {vd : BitVec 5}

theorem lanesAre_setLane {wd i v : Nat} (hv : t.v core.val vd.toNat = setLane wd (s.v core.val vd.toNat) i v) (hi : wd * i + wd ≤ 1024) :
    LanesAre s t core vd wd (fun k => k = i) (fun _ => v) := by
  intro k _
  rw [hv, lane_setLane _ _ _ hi]
  exact ⟨fun h => if_pos h, fun h => if_neg h⟩

theorem lane_in_register {wd i : Nat} (h : i < 1024 / wd) : wd * i + wd ≤ 1024 := (lane_end_le h).trans (Nat.mul_div_le ..)

theorem ty_mem_any (ty : BitVec 3) : ty.toNat ∈ tysAny := by
  have := ty.isLt
  simp only [tysAny, List.mem_cons, List.not_mem_nil, or_false]
  omega

theorem move_ok {k : Nat} (h0 : w.rsv = 0) (h2 : w.vs2 = 0) (h3 : w.vs3 = 0) (hbc : w.bc = 0) (hk : k < vlmax (typeWidth w.ty.toNat)) :
    (vecOk w tysAny false false false && decide (k < vlmax (typeWidth w.ty.toNat))) = true := by
  rw [vecOk_of_legal (ty_mem_any w.ty) h0 (fun _ => ⟨h2, hbc⟩) (fun _ => h3), decide_eq_true hk]
  rfl

theorem vins_spec (hr : Ready s core) (h0 : w.rsv = 0) (h2 : w.vs2 = 0) (h3 : w.vs3 = 0) (hbc : w.bc = 0)
    (hk : w.imm.toNat % 128 < 1024 / typeWidth w.ty.toNat) :
    ∃ t, exec (.vins core w) s = .next t ∧
      LanesAre s t core w.vd (typeWidth w.ty.toNat) (fun k => k = w.imm.toNat % 128) (fun _ => (s.h core.val w.vs1.toNat).toNat) ∧
      NextWord s t core ∧ OnlyVector s t core w.vd [] := by
  have hbits : bits w.imm.toNat 0 7 = w.imm.toNat % 128 := by simp [bits]
  obtain ⟨x, hx⟩ : ∃ x, x = setLane (typeWidth w.ty.toNat) (s.v core.val w.vd.toNat) (w.imm.toNat % 128) (s.h core.val w.vs1.toNat).toNat := ⟨_, rfl⟩
  obtain ⟨hnext, honly, hregs, -⟩ := (VecStep.setV s core w.vd [] x).advance hr.2 (by simp)
  refine ⟨(s.setV core.val w.vd.toNat x).advance core.val, ?_, lanesAre_setLane ?_ (lane_in_register hk), hnext, honly⟩
  · simp only [exec, execVins, hbits, move_ok h0 h2 h3 hbc hk, issueNext_of_ok hr.1, hx]
  · rw [State.v, hregs, ← hx]
    exact Store.getD_put_same _ _ _ _

theorem vext_spec (hr : Ready s core) (h0 : w.rsv = 0) (h2 : w.vs2 = 0) (h3 : w.vs3 = 0) (hbc : w.bc = 0)
    (hk : w.imm.toNat % 128 < 1024 / typeWidth w.ty.toNat) :
    ∃ t, exec (.vext core w) s = .next t ∧
      HandResult s t core w.vd
        (let x := lane (typeWidth w.ty.toNat) (s.v core.val w.vs1.toNat) (w.imm.toNat % 128)
         if w.ty.toNat < 3 then BitVec.ofInt 64 (sint (typeWidth w.ty.toNat) x) else BitVec.ofNat 64 x) ∧
      NextWord s t core ∧ OnlyFields s t (pcKey core :: hKeys core w.vd) := by
  have hbits : bits w.imm.toNat 0 7 = w.imm.toNat % 128 := by simp [bits]
  refine ⟨_, ?_, setH_advance hr.2 w.vd _⟩
  simp only [exec, execVext, hbits, move_ok h0 h2 h3 hbc hk, issueNext_of_ok hr.1, tySigned, decide_eq_true_eq]

/-! ## VPERM (R108) -/

/-- The effect of VPERM: the lanes in vd, and VSTAT.OOR where an index is not below n. With no lane there is none. -/
def State.permuted (s : State) (n core vd : Nat) (x : VWord) (oor : Bool) : State := if n = 0 then s else (s.setV core vd x).vstat core false false oor

theorem permuted_spec {n : Nat} {x : VWord} {oor : Bool} (h0 : n = 0 → x = s.v core.val vd.toNat ∧ oor = false) :
    VecStep s (s.permuted n core.val vd.toNat x oor) core vd [Reg.VSTAT.OOR] ∧ (s.permuted n core.val vd.toNat x oor).v core.val vd.toNat = x ∧
      StickyIf s (s.permuted n core.val vd.toNat x oor) core Reg.VSTAT.OOR (oor = true) := by
  unfold State.permuted
  by_cases hn : n = 0
  · obtain ⟨hx, ho⟩ := h0 hn
    rw [if_pos hn, hx, ho]
    exact ⟨.refl .., rfl, fun h => absurd h (by decide), fun _ => rfl⟩
  · rw [if_neg hn]
    have hset := VecStep.setV s core vd [Reg.VSTAT.OOR] x
    cases oor
    · exact ⟨hset, Store.getD_put_same _ _ _ _, fun h => absurd h (by decide), fun _ => rfl⟩
    · exact ⟨hset.wr 1 (by simp), Store.getD_put_same _ _ _ _, fun _ => State.rd_wr_same .., fun h => absurd rfl h⟩

theorem vperm_spec {n : Nat} (hr : Ready s core) (h0 : w.rsv = 0) (h3 : w.vs3 = 0) (hn : n = activeLanes s core (typeWidth w.ty.toNat)) :
    let wd := typeWidth w.ty.toNat
    let ix := fun k => lane wd (s.v core.val w.vs2.toNat) (if w.bc = 1 then 0 else k)
    ∃ t, exec (.vperm core w) s = .next t ∧
      LanesAre s t core w.vd wd (fun k => k < n) (fun k => if ix k < n then lane wd (s.v core.val w.vs1.toNat) (ix k) else 0) ∧
      StickyIf s t core Reg.VSTAT.OOR (∃ k < n, n ≤ ix k) ∧ NextWord s t core ∧
      OnlyVector s t core w.vd [Reg.VSTAT.OOR.key core.val 0] := by
  intro wd ix
  have hvn : s.vn core.val wd = n := hn.symm
  obtain ⟨f, hf⟩ : ∃ f, f = fun k => if ix k < n then lane wd (s.v core.val w.vs1.toNat) (ix k) else 0 := ⟨_, rfl⟩
  obtain ⟨hstep, hv, hoor⟩ := permuted_spec (s := s) (core := core) (vd := w.vd) (n := n) (x := setLanes wd 0 n (s.v core.val w.vd.toNat) f)
    (oor := (List.range n).any (fun i => decide (n ≤ ix i))) (by rintro rfl; exact ⟨rfl, rfl⟩)
  obtain ⟨hnext, honly, hregs, hrd⟩ := hstep.advance hr.2 (by decide)
  refine ⟨_, ?exec, ?lanes, (hoor.of_rd rfl (hrd _ (by decide))).congr (by simp), hnext, honly⟩
  case exec =>
    simp only [exec, execVperm, vecOk_of_legal (use2 := true) (ty_mem_any w.ty) h0 nofun (fun _ => h3), issueNext_of_ok hr.1]
    rw [hvn, mapLanes_eq_setLanes, hf]
    rfl
  case lanes =>
    intro k _
    rw [← hf, State.v, hregs, ← State.v, hv, lane_setLanes _ _ _ (activeLanes_fit hn)]
    exact ⟨fun hk => by rw [if_pos (by omega), Nat.sub_zero], fun hk => if_neg (by omega)⟩

end

/-! ## Reductions (R109) -/

/-! ### The pairwise tree -/

theorem pairUp_range (f : LaneOut → LaneOut → LaneOut) (m : Nat) (y : Nat → LaneOut) :
    pairUp f ((List.range (2 * m)).map y) = (List.range m).map (fun j => f (y (2 * j)) (y (2 * j + 1))) := by
  induction m generalizing y with
  | zero => rfl
  | succ m ih =>
    have hl : (List.range (2 * (m + 1))).map y = y 0 :: y 1 :: (List.range (2 * m)).map (fun j => y (j + 2)) := by
      rw [Nat.mul_succ, List.range_succ_eq_map, List.range_succ_eq_map]
      simp [Function.comp_def]
    rw [hl, pairUp, ih, List.range_succ_eq_map, List.map_cons, List.map_map]
    rfl

theorem treeOf_range (f : LaneOut → LaneOut → LaneOut) (y : Nat → LaneOut) : treeOf f ((List.range 32).map y) = tree32 f y := by
  have hfold : treeOf f ((List.range 32).map y) =
      (pairUp f (pairUp f (pairUp f (pairUp f (pairUp f ((List.range (2 * 16)).map y)))))).headD (plain 0) := rfl
  rw [hfold, pairUp_range, pairUp_range f 8, pairUp_range f 4, pairUp_range f 2, pairUp_range f 1]
  rfl

/-- What maps one combination to another maps the one tree to the other. -/
theorem tree32_map {α β : Type} {f : α → α → α} {g : β → β → β} {p : α → β} (h : ∀ a b, p (f a b) = g (p a) (p b)) (y : Nat → α) :
    p (tree32 f y) = tree32 g (fun k => p (y k)) := by
  simp only [tree32, h]

/-- Two lanes of a reduction combine; the flag stays. -/
def LaneOut.combine (f : Nat → Nat → LaneOut) (a b : LaneOut) : LaneOut :=
  let r := f a.val b.val
  { r with isat := r.isat || a.isat || b.isat }

theorem tree_val (f : Nat → Nat → LaneOut) (y : Nat → Nat) :
    (tree32 (LaneOut.combine f) (fun k => plain (y k))).val = tree32 (fun a b => (f a b).val) y :=
  tree32_map (fun _ _ => rfl) _
/-- Where no combination saturates, none of the tree does. -/
theorem tree_isat {f : Nat → Nat → LaneOut} (h : ∀ a b, (f a b).isat = false) (y : Nat → Nat) :
    (tree32 (LaneOut.combine f) (fun k => plain (y k))).isat = false :=
  tree32_map (p := LaneOut.isat) (g := fun a b => a || b) (fun a b => by simp [LaneOut.combine, h]) _
/-- The saturating sum of codes: the result, and whether an addition has saturated. -/
theorem tree_addSat (y : Nat → Nat) :
    let r := tree32 (LaneOut.combine (fun a b => satElem 2 (elemInt 2 a + elemInt 2 b))) (fun k => plain (y k))
    (r.val, r.isat = true) = tree32 addSat32 (fun k => (y k, False)) := by
  intro r
  refine (tree32_map (p := fun o : LaneOut => (o.val, o.isat = true)) (g := addSat32) (fun a b => ?_) _).trans (by simp [plain])
  simp only [LaneOut.combine, satElem_eq, addSat32, Bool.or_eq_true, decide_eq_true_eq]
  refine Prod.ext rfl (propext ?_)
  change ((elemInt 2 a.val + elemInt 2 b.val < elemMin 2 ∨ elemMax 2 < elemInt 2 a.val + elemInt 2 b.val) ∨ a.isat = true) ∨ b.isat = true ↔
    a.isat = true ∨ b.isat = true ∨ elemInt 2 a.val + elemInt 2 b.val < elemMin 2 ∨ elemMax 2 < elemInt 2 a.val + elemInt 2 b.val
  rw [or_assoc, or_comm, or_assoc]

/-! ### The instruction -/

section
variable {core : CoreId} {w : VecWord} {s : State} {n : Nat}

/-- A reduction of at least one lane: lane 0 of vd takes the tree's result. -/
theorem vecReduce_reduces {con : CoreId → VecWord → Instr} {op : BitVec 8} {fill : Nat → Nat} {f : Nat → Nat → Nat → LaneOut} {fs : List Fld}
    (he : ∀ core w s, exec (con core w) s = vecReduce op fill f core w s) (hr : Ready s core) (hty : w.ty = 2 ∨ w.ty = 7) (h0 : w.rsv = 0)
    (h2 : w.vs2 = 0) (h3 : w.vs3 = 0) (hbc : w.bc = 0) (hn : n = activeLanes s core 32) (hpos : 0 < n)
    (hfs : ∀ f ∈ fs, Reg.HND_STAT.PC.apart f) {r : LaneOut}
    (hr32 : r = tree32 (LaneOut.combine (f w.ty.toNat)) (fun k => plain (if k < n then lane 32 (s.v core.val w.vs1.toNat) k else fill w.ty.toNat)))
    (hi : r.isat = true → Reg.VSTAT.ISAT ∈ fs) :
    ∃ t, exec (con core w) s = .next t ∧ LanesAre s t core w.vd 32 (fun k => k = 0) (fun _ => r.val) ∧
      StickyIf s t core Reg.VSTAT.ISAT (r.isat = true) ∧ NextWord s t core ∧ OnlyVector s t core w.vd (coreKeys core fs) := by
  have hvn : s.vn core.val 32 = n := hn.symm
  have hty' : w.ty.toNat ∈ [2, 7] := by rcases hty with h | h <;> rw [h] <;> decide
  have hleaves := vecEffect_leaves (fs := fs) (n := n) (vd := w.vd) (x := setLane 32 (s.v core.val w.vd.toNat) 0 r.val) (isat := r.isat)
    (fsat := false) (stoch := false) hr (fun h => absurd h hpos.ne') hfs hi nofun nofun
  refine ⟨_, ?_, lanesAre_setLane hleaves.reg (by decide), hleaves.isat, hleaves.next, hleaves.only⟩
  rw [he, vecReduce, vecOk_of_legal hty' h0 (fun _ => ⟨h2, hbc⟩) (fun _ => h3), issueNext_of_ok hr.1]
  dsimp only
  rw [hvn, treeOf_range, hr32]
  rfl

end

/-- Additions and maxima of two lanes. -/
def sumFloat (a b : Nat) : LaneOut := plain (fp32.round (FVal.add (fp32.decode a) (fp32.decode b)))
def sumInt (a b : Nat) : LaneOut := satElem 2 (elemInt 2 a + elemInt 2 b)
def maxInt (a b : Nat) : Nat := if elemInt 2 a < elemInt 2 b then b else a

theorem exec_vrsum (core : CoreId) (w : VecWord) (s : State) : exec (.vrsum core w) s =
    vecReduce 0x58#8 (fun _ => 0) (fun ty a b => if ty = 2 then sumInt a b else sumFloat a b) core w s := rfl
theorem exec_vrmax (core : CoreId) (w : VecWord) (s : State) : exec (.vrmax core w) s =
    vecReduce 0x59#8 (fun ty => if ty = 2 then 0x80000000 else 0xFF800000)
      (fun ty a b => plain (if ty = 2 then maxInt a b else floatPick fp32 true a b)) core w s := rfl

/-- Settles O9: a step of the vector registers for VPERM and VINS, of the hand for VEXT; the reductions by their tree. -/
theorem vectorPermuteReduceMove : Obligations.VectorPermuteReduceMove := by
  refine ⟨fun core w s n hr h0 h3 hn => vperm_spec hr h0 h3 hn, fun core w s n hr h0 h2 h3 hbc hn hpos => ?reduce,
    fun core w s hr h0 h2 h3 hbc hk => ⟨vins_spec hr h0 h2 h3 hbc hk, vext_spec hr h0 h2 h3 hbc hk⟩⟩
  intro x one
  refine ⟨fun hty => ?sumFloat, fun hty => ?sumInt, fun hty => ?maxFloat, fun hty => ?maxInt⟩
  case sumFloat =>
    obtain ⟨t, he, hl, -, hnext, honly⟩ := vecReduce_reduces (fs := []) exec_vrsum hr (.inr hty) h0 h2 h3 hbc hn hpos
      (by simp) (r := tree32 (LaneOut.combine sumFloat) (fun k => plain (if k < n then x k else 0))) (by rw [hty]; rfl)
      (by rw [tree_isat (fun _ _ => rfl)]; exact nofun)
    rw [tree_val] at hl
    exact ⟨t, he, hl, hnext, honly⟩
  case sumInt =>
    obtain ⟨t, he, hl, hs, hnext, honly⟩ := vecReduce_reduces (fs := [Reg.VSTAT.ISAT]) exec_vrsum hr (.inl hty) h0 h2 h3
      hbc hn hpos (by decide) (r := tree32 (LaneOut.combine sumInt) (fun k => plain (if k < n then x k else 0))) (by rw [hty]; rfl) (by simp)
    have h := tree_addSat (fun k => if k < n then x k else 0)
    refine ⟨t, he, ?_, ?_, hnext, honly⟩
    · rw [← h]
      exact hl
    · rw [← h]
      exact hs
  case maxFloat =>
    obtain ⟨t, he, hl, -, hnext, honly⟩ := vecReduce_reduces (fs := []) exec_vrmax hr (.inr hty) h0 h2 h3 hbc hn hpos
      (by simp) (r := tree32 (LaneOut.combine (fun a b => plain (floatPick fp32 true a b))) (fun k => plain (if k < n then x k else 0xFF800000))) (by rw [hty]; rfl)
      (by rw [tree_isat (fun _ _ => rfl)]; exact nofun)
    rw [tree_val] at hl
    exact ⟨t, he, hl, hnext, honly⟩
  case maxInt =>
    obtain ⟨t, he, hl, -, hnext, honly⟩ := vecReduce_reduces (fs := []) exec_vrmax hr (.inl hty) h0 h2 h3 hbc hn hpos
      (by simp) (r := tree32 (LaneOut.combine (fun a b => plain (maxInt a b))) (fun k => plain (if k < n then x k else 0x80000000))) (by rw [hty]; rfl)
      (by rw [tree_isat (fun _ _ => rfl)]; exact nofun)
    rw [tree_val] at hl
    exact ⟨t, he, hl, hnext, honly⟩

end Sys2Proof.Machine

namespace Sys2Proof.Machine

/-! ## Vector loads and stores (R110, R111) -/

/-! ### Elements one behind another -/

section
variable {α : Type} {es : Nat}

theorem div_mod_row {e j : Nat} (hj : j < es) : (e * es + j) / es = e ∧ (e * es + j) % es = j := by
  rw [Nat.mul_comm e es, Nat.mul_add_div (by omega), Nat.mul_add_mod, Nat.div_eq_of_lt hj, Nat.mod_eq_of_lt hj]
  exact ⟨rfl, rfl⟩

/-- A byte of `n` elements of `es` bytes is byte `j` of element `k`. -/
theorem mem_rows (hes : 0 < es) (g : Nat → Nat → α) (n : Nat) (p : α) :
    p ∈ (List.range (n * es)).map (fun k => g (k / es) (k % es)) ↔ ∃ k < n, ∃ j < es, g k j = p := by
  rw [List.mem_map]
  constructor
  · rintro ⟨i, hi, rfl⟩
    exact ⟨i / es, (Nat.div_lt_iff_lt_mul hes).mpr (List.mem_range.mp hi), i % es, Nat.mod_lt i hes, rfl⟩
  · rintro ⟨k, hk, j, hj, rfl⟩
    have hend : (k + 1) * es ≤ n * es := Nat.mul_le_mul_right es hk
    rw [Nat.succ_mul] at hend
    obtain ⟨hd, hm⟩ := div_mod_row (e := k) hj
    exact ⟨k * es + j, List.mem_range.mpr (by omega), by rw [hd, hm]⟩

/-- Element `e` of the elements one behind another. -/
theorem row_of_rows (g : Nat → Nat → α) {m e : Nat} (he : e < m) :
    (((List.range (m * es)).map (fun k => g (k / es) (k % es))).drop (e * es)).take es = (List.range es).map (g e) := by
  have hend : (e + 1) * es ≤ m * es := Nat.mul_le_mul_right es he
  rw [Nat.succ_mul] at hend
  refine List.ext_getElem (by simp; omega) (fun j h1 h2 => ?_)
  have hj : j < es := by simpa using h2
  obtain ⟨hd, hm⟩ := div_mod_row (e := e) hj
  simp [hd, hm]

end

/-! ### The offsets of the elements -/

/-- The distance of one element from the next: signed, as VS2 gives it, or the size of an element. -/
def State.vecPitch (s : State) (core : Nat) (w : VecWord) : Int :=
  if w.bc = 1 then s.vecStride core w else (typeWidth w.ty.toNat / 8 : Nat)

theorem wrapInt_natCast (w x : Nat) : wrapInt w x = x % 2 ^ w := wrapInt_of_modEq (Int.ModEq.refl _)

theorem vecOff_eq (s : State) (core : Nat) (w : VecWord) (k : Nat) :
    s.vecOff core w k = wrapInt 18 ((s.vecBase core w : Int) + k * s.vecPitch core w) := by
  unfold State.vecOff State.vecPitch
  split
  · rfl
  · exact (wrapInt_natCast 18 _).symm

/-- The size of an element in bytes. -/
theorem elem_bytes (ty : Nat) : 0 < typeWidth ty / 8 ∧ 8 * (typeWidth ty / 8) = typeWidth ty := by
  unfold typeWidth
  split
  · decide
  · split <;> decide

section
variable {core : CoreId} {w : VecWord} {s : State} {n : Nat}

/-- The elements of an instruction lie in code words without latent errors. -/
def CleanElems (s : State) (core : CoreId) (w : VecWord) (n : Nat) : Prop :=
  ∀ k < n, ∀ j < typeWidth w.ty.toNat / 8, s.wordErr core.val (s.codeWord core.val (s.vecOff core.val w k + j)) = 0

theorem CleanElems.reads (h : CleanElems s core w n) {m : Nat} (hm : m ≤ n) :
    Clean s core.val ((s.vecReadList core.val w m).map Prod.fst) := fun o ho => by
  rw [State.vecReadList, List.map_map] at ho
  obtain ⟨k, hk, j, hj, rfl⟩ := (mem_rows (elem_bytes w.ty.toNat).1 (fun k j => s.vecOff core.val w k + j) m o).mp ho
  exact h k (hk.trans_le hm) j hj

theorem vecMemOk_of_legal (h0 : w.rsv = 0) (h3 : w.vs3 = 0) (h2 : w.bc = 0 → w.vs2 = 0) (hb : s.vecBase core.val w % (typeWidth w.ty.toNat / 8) = 0)
    (hp : s.vecPitch core.val w % ((typeWidth w.ty.toNat / 8 : Nat) : Int) = 0) : s.vecMemOk core.val w = true := by
  have hbc : w.bc = 0 ∨ w.bc = 1 := by
    have := w.bc.isLt
    have : w.bc.toNat = 0 ∨ w.bc.toNat = 1 := by omega
    exact this.imp (fun h => BitVec.eq_of_toNat_eq h) (fun h => BitVec.eq_of_toNat_eq h)
  have hstride : (decide (w.bc = 0) || decide (s.vecStride core.val w % ((typeWidth w.ty.toNat / 8 : Nat) : Int) = 0)) = true := by
    rcases hbc with h | h
    · simp [h]
    · rw [State.vecPitch, if_pos h] at hp
      rw [decide_eq_true hp, Bool.or_true]
  have hok : vecOk w tysAny (decide (w.bc = 1)) false true = true := by
    refine vecOk_of_legal (ty_mem_any w.ty) h0 (fun h => ?_) (fun _ => h3)
    have h := hbc.resolve_right (of_decide_eq_false h)
    exact ⟨h2 h, h⟩
  rw [State.vecMemOk, hok, hstride, decide_eq_true hb]
  rfl

/-! ### VLD -/

/-- A stride of 0 reads one element for all lanes. -/
def State.vecOne (s : State) (core : Nat) (w : VecWord) : Bool := decide (w.bc = 1) && decide (s.vecStride core w = 0)

theorem vecOff_of_one (h : s.vecOne core.val w = true) (k : Nat) : s.vecOff core.val w 0 = s.vecOff core.val w k := by
  simp only [State.vecOne, Bool.and_eq_true, decide_eq_true_eq] at h
  rw [vecOff_eq, vecOff_eq, State.vecPitch, if_pos h.1, h.2, Int.mul_zero, Int.mul_zero]

/-- The element that a load gives lane `k`. -/
def State.loaded (s : State) (core : Nat) (w : VecWord) (k : Nat) : Nat :=
  ((List.range (typeWidth w.ty.toNat / 8)).map (fun j => (s.byte (spAddr core (s.vecOff core w k + j))).toNat * 256 ^ j)).sum

/-- What the bytes that VLD reads give lane `k`: with a stride of 0 only those of the first element are read. -/
def State.vldLane (s : State) (core : Nat) (w : VecWord) (n k : Nat) : Nat :=
  leNat (((s.spReadAt core (s.vecReadList core w (if s.vecOne core w then min n 1 else n))).1.drop
    ((if s.vecOne core w then 0 else k) * (typeWidth w.ty.toNat / 8))).take (typeWidth w.ty.toNat / 8))

theorem vldLane_of_clean (hc : CleanElems s core w n) {k : Nat} (hk : k < n) : s.vldLane core.val w n k = s.loaded core.val w k := by
  obtain ⟨es, hes⟩ : ∃ es, es = typeWidth w.ty.toNat / 8 := ⟨_, rfl⟩
  have hrow (m e : Nat) (he : e < m) := row_of_rows (es := es) (fun e j => s.byte (spAddr core.val (s.vecOff core.val w e + j))) he
  rw [State.vldLane, spReadAt_of_clean (hc.reads (by split <;> omega)), State.vecReadList, List.map_map, State.loaded, ← hes, ← leNat_map]
  refine congrArg leNat ((hrow _ _ (by split <;> omega)).trans ?_)
  split
  · next h => rw [vecOff_of_one h k]
  · rfl

/-- VLD on clean code words: the second read, after the lanes are written, changes nothing. -/
theorem exec_vld (hr : Ready s core) (hok : s.vecMemOk core.val w = true) (hn : n = activeLanes s core (typeWidth w.ty.toNat))
    (hc : CleanElems s core w n) : exec (.vld core w) s = .next ((s.vecEffect n core.val w.vd.toNat
      (setLanes (typeWidth w.ty.toNat) 0 n (s.v core.val w.vd.toNat) (fun i => s.vldLane core.val w n (0 + i))) false false false).advance core.val) := by
  have hvn : s.vn core.val (typeWidth w.ty.toNat) = n := hn.symm
  simp only [exec, execVld, hok, issue_of_ok hr.1, hvn, mapLanes_eq_setLanes, State.vecEffect, Nat.zero_add]
  by_cases h0 : n = 0
  · simp only [if_pos h0]
  · simp only [if_neg h0]
    have honly (x : VWord) : OnlyVector s ((s.setV core.val w.vd.toNat x).advance core.val) core w.vd (coreKeys core []) :=
      ((VecStep.setV s core w.vd [] x).advance hr.2 nofun).2.1
    obtain ⟨u, hu⟩ : ∃ u, u = (s.setV core.val w.vd.toNat
      (setLanes (typeWidth w.ty.toNat) 0 n (s.v core.val w.vd.toNat) (s.vldLane core.val w n))).advance core.val := ⟨_, rfl⟩
    obtain ⟨hframe, hkept, -⟩ := hu ▸ honly _
    have hread := (hc.reads (m := if s.vecOne core.val w then 1 else n) (by split <;> omega)).congr (u := u) (congrArg State.errs hframe :)
      (hkept.rd _ _ _ (by simpa [coreKeys] using class_ne_pc core))
    have heff := congrArg (fun r => (Host.Outcome.next (Prod.snd r) : Host.Outcome State Fault Refusal)) (spReadAt_of_clean hread)
    rw [hu] at heff
    exact heff

theorem vld_spec (hr : Ready s core) (hok : s.vecMemOk core.val w = true) (hn : n = activeLanes s core (typeWidth w.ty.toNat))
    (hc : CleanElems s core w n) :
    ∃ t, exec (.vld core w) s = .next t ∧ LanesAre s t core w.vd (typeWidth w.ty.toNat) (fun k => k < n) (s.loaded core.val w) ∧
      NextWord s t core ∧ OnlyVector s t core w.vd [] := by
  have hleaves := vecEffect_leaves (fs := []) (n := n) (vd := w.vd)
    (x := setLanes (typeWidth w.ty.toNat) 0 n (s.v core.val w.vd.toNat) (fun i => s.vldLane core.val w n (0 + i)))
    (isat := false) (fsat := false) (stoch := false) hr (by rintro rfl; exact ⟨rfl, rfl, rfl⟩) nofun nofun nofun nofun
  have hlanes := hleaves.lanesAre (f := s.vldLane core.val w n) (activeLanes_fit hn)
  refine ⟨_, exec_vld hr hok hn hc, fun k hk => ⟨fun hlt => ?_, fun hge => (hlanes k hk).2 (by omega)⟩, hleaves.next, hleaves.only⟩
  rw [(hlanes k hk).1 (by omega), vldLane_of_clean hc hlt]

/-! ### VST -/

theorem vst_spec (hr : Ready s core) (hok : s.vecMemOk core.val w = true) (hn : n = activeLanes s core (typeWidth w.ty.toNat))
    (hc : CleanElems s core w n) (hone : ∀ k < n, ∀ j < typeWidth w.ty.toNat / 8, ∀ k' < n, ∀ j' < typeWidth w.ty.toNat / 8,
      spAddr core.val (s.vecOff core.val w k + j) = spAddr core.val (s.vecOff core.val w k' + j') → k = k' ∧ j = j') :
    ∃ t, exec (.vst core w) s = .next t ∧
      (∀ k < n, ∀ j < typeWidth w.ty.toNat / 8, t.byte (spAddr core.val (s.vecOff core.val w k + j)) =
        BitVec.ofNat 8 (lane (typeWidth w.ty.toNat) (s.v core.val w.vd.toNat) k / 256 ^ j)) ∧
      BytesKept s t (fun x => ∃ k < n, ∃ j < typeWidth w.ty.toNat / 8, x = spAddr core.val (s.vecOff core.val w k + j)) ∧
      NextWord s t core ∧ { t with fields := s.fields, mem := s.mem, errs := s.errs } = s ∧ Kept s t (fun k => k = pcKey core) ∧
      ∀ k, Store.getD t.errs k 0 = Store.getD s.errs k 0 := by
  have hvn : s.vn core.val (typeWidth w.ty.toNat) = n := hn.symm
  obtain ⟨g, hg⟩ : ∃ g : Nat → Nat → Nat × Byte, g = fun k j =>
    (s.vecOff core.val w k + j, BitVec.ofNat 8 (lane (typeWidth w.ty.toNat) (s.v core.val w.vd.toNat) k / 256 ^ j)) := ⟨_, rfl⟩
  obtain ⟨wr, hwr⟩ : ∃ wr, wr = (List.range (n * (typeWidth w.ty.toNat / 8))).map
    (fun k => g (k / (typeWidth w.ty.toNat / 8)) (k % (typeWidth w.ty.toNat / 8))) := ⟨_, rfl⟩
  have hmem (p : Nat × Byte) : p ∈ wr ↔ ∃ k < n, ∃ j < typeWidth w.ty.toNat / 8, g k j = p := hwr ▸ mem_rows (elem_bytes w.ty.toNat).1 g n p
  have hclean : Clean s core.val (wr.map Prod.fst) := fun o ho => by
    obtain ⟨p, hp, rfl⟩ := List.mem_map.mp ho
    obtain ⟨k, hk, j, hj, rfl⟩ := (hmem p).mp hp
    rw [hg]
    exact hc k hk j hj
  have hst := advance_stored hr.2 5 hclean
  refine ⟨(s.advance core.val).spWriteAt core.val 5 wr, ?exec, fun k hk j hj => ?byte, fun y hy => hst.others y ?others, hst.next, hst.frame,
    hst.kept, hst.errs⟩
  case exec => simp only [exec, execVst, hok, issue_of_ok hr.1, hvn, hwr, hg]
  case byte =>
    have hb := hst.bytes (g k j) ((hmem _).mpr ⟨k, hk, j, hj, rfl⟩) (fun q hq e => ?_)
    · rw [hg] at hb
      exact hb
    · obtain ⟨k', hk', j', hj', rfl⟩ := (hmem q).mp hq
      rw [hg] at e
      obtain ⟨rfl, rfl⟩ := hone k' hk' j' hj' k hk j hj e
      rfl
  case others =>
    rintro ⟨p, hp, rfl⟩
    obtain ⟨k, hk, j, hj, rfl⟩ := (hmem p).mp hp
    rw [hg] at hy
    exact hy ⟨k, hk, j, hj, rfl⟩

end

/-- Settles O10: the elements of the statement are those of `State.vecOff`. -/
theorem vectorLoadsAndStores : Obligations.VectorLoadsAndStores := by
  intro core w s es n hr h0 h3 h2 hes hn base stride at_ hb hp herr
  subst hes
  obtain ⟨-, hwd⟩ := elem_bytes w.ty.toNat
  rw [hwd] at hn ⊢
  have hoff (k : Nat) : wrapInt 18 ((base : Int) + k * stride) = s.vecOff core.val w k := (vecOff_eq s core.val w k).symm
  have hc : CleanElems s core w n := fun k hk j hj => by
    rw [← hoff]
    exact herr k hk j hj
  have hok := vecMemOk_of_legal h0 h3 h2 hb hp
  simp only [at_, hoff]
  exact ⟨vld_spec hr hok hn hc, fun hone => vst_spec hr hok hn hc hone⟩

end Sys2Proof.Machine
